-- ==== Sys2Proof/Word.lean ====
section
/-! DEFINITION. The word types of the block: bytes, 32-bit register words, and byte strings. -/

namespace Sys2Proof

/-- A byte of a packet, a container or a memory. -/
abbrev Byte := BitVec 8

/-- A register word or a memory word of R7 and R252. -/
abbrev Word := BitVec 32

/-- A string of bytes, first byte first. -/
abbrev Bytes := List Byte

end Sys2Proof
end

