-- ==== Sys2Proof/Types.lean ====
section
/-! DEFINITION. The operand types of the commands: who sends a CCP packet, its header, the commands of R261, and what an
event brings with it. -/

namespace Sys2Proof

/-- A CCP session of R247: the PCIe rings, quad-SPI, or a UDP source (IPv4 address and UDP port). -/
inductive Sess
  | pcie
  | qspi
  | udp (ip port : Nat)
deriving DecidableEq, Repr

/-- The header of one CCP command packet (R243) with the transport it came over.
`nport` is the network port of arrival (0 A, 1 B) of a UDP command, `mac` its source MAC address; `f` the frame of an AT packet; `keyId` and `tag` the
authentication block of a packet with FLAGS.AUTH (R244). -/
structure CcpHdr where
  sess : Sess
  nport : Nat
  mac : Nat
  version : Nat
  flags : Nat
  status : Nat
  seq : Nat
  f : Nat
  keyId : Nat
  tag : Bytes
deriving DecidableEq, Repr

/-- The commands of R261 with their parameters. -/
inductive CcpOp
  | identify
  | ping (data : Bytes)
  | time
  | read (addr count : Nat)
  | write (addr : Nat) (data : List Nat)
  | modify (addr mask value : Nat)
  | snapshot (frame : Nat) (ranges : List (Nat × Nat))
  | stageBegin (length slate : Nat)
  | stageData (offset : Nat) (data : Bytes)
  | stageEnd
  | stageFromReel (slot : Nat)
  | stageDiscard
  | stageStatus
  | cut (tmode hard t0 t1 : Nat) (digest : Bytes)
  | cutCancel
  | reelBegin (slot length : Nat)
  | reelData (slot offset : Nat) (data : Bytes)
  | reelEnd (slot : Nat)
  | reelDelete (slot : Nat)
  | reelList
  | logRead (first count : Nat)
  | logInfo
  | logSpill
  | logClear
  | pairStatus
  | pairSwitchover (frame : Nat)
  | pairResync
  | setBegin (bus slot size : Nat)
  | setData (offset : Nat) (data : Bytes)
  | setEnd
  | setChange (bus slot fx x : Nat)
  | setQuery (bus : Nat)
  | genStart (frame : Nat)
  | genStop (frame : Nat)
  | fwBegin (image length : Nat)
  | fwData (offset : Nat) (data : Bytes)
  | fwEnd
  | fwSwitch (image frame : Nat)
  | fwStatus
  | metaInject (packet : Bytes)
  | memFsp (fsp : Nat)
  | memRetrain
  | eccInject (memory kind offset : Nat)
deriving DecidableEq, Repr

/-- A PTP event or Follow_Up message as the hardware captures it (R328 to R330): versionPTP and minorVersionPTP, domainNumber,
sourcePortIdentity (80 bits), sequenceId, twoStepFlag, originTimestamp or preciseOriginTimestamp in quarter ns, correctionField
in 2^−16 ns, and the ingress timestamp in quarter ns. -/
structure PtpMsg where
  version : Nat
  minor : Nat
  domain : Nat
  portId : Nat
  seq : Nat
  twoStep : Bool
  origin : Nat
  corr : Int
  stamp : Nat
deriving DecidableEq, Repr

/-- What firmware hands a port: a request to the launch queue (R340), or with `viaQ3` a frame of its own for transmit queue Q3
(R303, R305); `taken` is how many frames of the control processor queue it has taken since (R303). `lsec` holds the seconds bits
[31:0] of LTIME. -/
structure LaunchReq where
  viaQ3 : Bool
  taken : Nat
  tag : Nat
  timed : Bool
  lsec : Nat
  lns : Nat
  stamp : Bool
  onestep : Bool
  ptpofs : Nat
  latewin : Bool
  frame : Bytes
deriving DecidableEq, Repr

/-- A Pdelay_Req as received (R339): versionPTP and minorVersionPTP, the header's domain, sequenceId, sourcePortIdentity and correctionField (64 bits), the
ingress stamp in quarter ns, and whether it came over UDP/IPv4. -/
structure PdelayReq where
  version : Nat
  minor : Nat
  domain : Nat
  seq : Nat
  portId : Nat
  corr : Nat
  stamp : Nat
  overUdp : Bool
deriving DecidableEq, Repr

/-- An entry of the MSI-X table as the host writes it (R251): its number, message address and data, and its mask bit. -/
structure MsixEntry where
  entry : Nat
  addr : Nat
  data : Nat
  masked : Bool
deriving DecidableEq, Repr

/-- Where an image is loaded from (R496): the host places it in the control processor SRAM, or it comes over the recovery UART, for
which the table has no row of its own (assumption 96). -/
structure BootLoad where
  image : List (BitVec 8)
  uart : Bool
deriving DecidableEq, Repr

/-- What the reset of a second watchdog expiry finds at its release: XO_IN running, TEST_MODE high (R539). -/
structure WdtIn where
  xo : Bool
  test : Bool
deriving DecidableEq, Repr

/-- What the port side shows as a frame has arrived: the fill of the receive buffer, and the capture of the frame the other port is
receiving then (R35, R311). -/
structure RxSide where
  fill : Nat
  other : Option Nat
deriving DecidableEq, Repr

/-- An RTP packet of a receive stream as its port hands it over (R276): faults of its IPv4 and UDP headers, the RTP header, the
payload behind padding, CSRC list and extension, and the ingress timestamp in quarter ns. `udpBad`: a UDP checksum that is
nonzero and wrong. -/
structure RtpPkt where
  frag : Bool
  ipOpt : Bool
  ipBad : Bool
  udpBad : Bool
  version : Nat
  pt : Nat
  seq : Nat
  ts : Nat
  ssrc : Nat
  payload : Bytes
  stamp : Nat
deriving DecidableEq, Repr

/-- One sample period of a TDM port's pins (R377): the instant of the FS edge that begins it, in FCLK cycles from the boundary of
the frame it is captured with (a master's edges fall on the sample instants), and its MUL × SLOTS slot words, period by
period. -/
structure TdmSample where
  edge : Int
  words : List Nat
deriving DecidableEq, Repr

/-- What the pins brought in the frame that ends at a boundary: the sample periods of each TDM port, and the bits of each of the
16 microphone channels at its edges, MICOSR × 16 of them (R384). -/
structure BoundaryIn where
  tdm : List (List TdmSample)
  mics : List (List Bool)
deriving DecidableEq, Repr

/-- What a DRAM request serves: the function that issues it (R413). -/
inductive DramUse
  /-- the far window of a slot for the frame under processing next, by the path engine with this number (R91; which engine: R94) -/
  | farWin (slot pe : Nat)
  /-- a far-ring write of capture (R89) -/
  | farRing
  /-- the input window of a block, a coefficient record (of the reserve context or of the active one), a delay-line record of
  correction channel c -/
  | convWindow (c p : Nat)
  | convCoef (c p j : Nat) (reserve : Bool)
  | convLine (c p j : Nat)
  /-- the input-ring write and the delay-line write of size p of correction channel c (R113) -/
  | convRing (c : Nat)
  | convStore (c p : Nat)
  /-- the capture rings (R125) -/
  | capture
  /-- the extended store of a receive stream -/
  | extStore (r : Nat)
  /-- DMA of a core (R147) -/
  | dma (core : Nat)
  /-- the control processor, the hardware command engine, a reel transfer or copy, log mirroring, scrubbing -/
  | control | command | reel | logMirror | scrub
deriving DecidableEq, Repr

/-- A DRAM request (R413 to R416): address, the bytes of a write with clear strobes as none, or the length of a read, the frame whose
boundary is its deadline, and the time of its arrival in ns. Class, master port and page hint follow from its use (R413). -/
structure DramIn where
  addr : Nat
  write : List (Option (BitVec 8))
  len : Nat
  deadline : Option Nat
  use : DramUse
  at_ : Nat
deriving DecidableEq, Repr

/-- What a training found on a lane (R408): the passing steps of the read and of the write sweep of each rank as 128-bit masks,
and the oscillator baseline N0. -/
structure TrainLane where
  rd : List Nat
  wr : List Nat
  n0 : Nat
deriving DecidableEq, Repr

/-- What a training found at a set point: per channel whether steps 1 and 2 found a working setting, and the eight lanes. -/
structure TrainSet where
  cbt : List Bool
  lev : List Bool
  lanes : List TrainLane
deriving DecidableEq, Repr

/-- Where a kernel operation issues and its guard (R132 to R134): core, slot (0 CT, 1 LS, 2 V0, 3 V1), GN, GP, bit 20 (W), and
the reserved bits of its format, 0 unless some bit is set. -/
structure KHd where
  core : Nat
  slot : Nat
  gn : Bool
  gp : Nat
  w : Bool
  rsv : Nat
deriving DecidableEq, Repr

/-- The address operands of an LS operation (R145): OFS8, MOD, X. -/
structure KAddr where
  ofs : Int
  md : Nat
  x : Nat
deriving DecidableEq, Repr

end Sys2Proof
end

