-- ==== Sys2Proof/Syntax.lean ====
section
/-! DEFINITION. The commands of the block: one constructor per row of the table of operations and events (opcode_table.json). -/

namespace Sys2Proof

/-- A command: one row of the table with its operands. -/
inductive Instr
  /-- FRAME_BOUNDARY (R30): The media sample index reaches 16N and the device commits every change of the boundary in the fixed order. -/
  | frameBoundary (bi : BoundaryIn)
  /-- PATH_RENDER (R93): Once the producers have issued their done tokens the path engines render the frame's slots into the bus accumulators and requantize them. -/
  | pathRender
  /-- CORRECTION_GROUP_START (R172): When a BUSDONE sink holds BUSNEED tokens the correction stage computes the head step and corrected feeds of that bus group. -/
  | correctionGroupStart (g : Nat)
  /-- CONV_BLOCK_WORK (R108): At the read deadline the engine performs the FFT block work of a partition and adds it into the output ring. -/
  | convBlockWork (c p : Nat)
  /-- SET_CONVERSION_DONE (R104): An accepted FIR set finishes conversion and its slot becomes READY. -/
  | setConversionDone (c slot : Nat)
  /-- SAFETY_STAGE (R198): Each output sample passes ceiling, mute and hard clip, and the frame digest is computed. -/
  | safetyStage
  /-- EMISSION_CUTOFF (R20): At the start of the emission reserve the emission stage takes the output buffers and emits incomplete channels as zero. -/
  | emissionCutoff
  /-- ROOT_PLL_RELOCK_DONE (R17): The root PLL finishes relocking after a change of rate family and outputs ramp up from the next boundary. -/
  | rootPllRelockDone
  /-- DISPATCHER_CYCLE (R175): In each FCLK cycle the dispatcher takes tokens, applies cancellations and dispatches one ready instance. -/
  | dispatcherCycle
  /-- TDONE_DRAIN_END (R178): After the core's DMA channels drain the dispatcher sends the task's AUTO arc tokens and the core returns to IDLE. -/
  | tdoneDrainEnd (k : Nat) (cycles : Nat)
  /-- TSIG_DRAIN_END (R179): After the DMA channels drain a TSIG token is sent on the named arc, or discarded as a foreign arc. -/
  | tsigDrainEnd (k : Nat) (cycles : Nat)
  /-- NOP (R152): A NOP operation in any slot does nothing. -/
  | nop (h : KHd)
  /-- VADD (R152): Vector add per lane with saturation or wrap. -/
  | vadd (h : KHd) (b a d : Nat)
  /-- VSUB (R152): Vector subtract per lane. -/
  | vsub (h : KHd) (b a d : Nat)
  /-- VNEG (R152): Vector negate per lane. -/
  | vneg (h : KHd) (b a d : Nat)
  /-- VABS (R152): Vector absolute value per lane. -/
  | vabs (h : KHd) (b a d : Nat)
  /-- VMIN (R152): Vector minimum per lane. -/
  | vmin (h : KHd) (b a d : Nat)
  /-- VMAX (R152): Vector maximum per lane. -/
  | vmax (h : KHd) (b a d : Nat)
  /-- VAND (R152): Vector bitwise AND. -/
  | vand (h : KHd) (b a d : Nat)
  /-- VOR (R152): Vector bitwise OR. -/
  | vor (h : KHd) (b a d : Nat)
  /-- VXOR (R152): Vector bitwise XOR. -/
  | vxor (h : KHd) (b a d : Nat)
  /-- VSHL (R152): Vector shift left by a register amount. -/
  | vshl (h : KHd) (b a d : Nat)
  /-- VSHR (R152): Vector arithmetic shift right with RHU rounding. -/
  | vshr (h : KHd) (b a d : Nat)
  /-- VLSR (R152): Vector logical shift right without rounding. -/
  | vlsr (h : KHd) (b a d : Nat)
  /-- VSHLI (R152): Vector shift left by an immediate. -/
  | vshli (h : KHd) (imm a d : Nat)
  /-- VSHRI (R152): Vector rounded shift right by an immediate. -/
  | vshri (h : KHd) (imm a d : Nat)
  /-- VMOV (R152): Vector register move. -/
  | vmov (h : KHd) (b a d : Nat)
  /-- VBCAST (R152): Broadcast one lane to all lanes. -/
  | vbcast (h : KHd) (imm a d : Nat)
  /-- VPERM (R152): Permute lanes by an immediate. -/
  | vperm (h : KHd) (imm a d : Nat)
  /-- VMUL (R152): Q8.24 multiply with RHU rounding. -/
  | vmul (h : KHd) (b a d : Nat)
  /-- VMULQ (R152): Multiply by a Q2.30 value with RHU rounding. -/
  | vmulq (h : KHd) (b a d : Nat)
  /-- VNAR (R152): Narrow to N bits with rounding and saturation. -/
  | vnar (h : KHd) (imm a d : Nat)
  /-- VCMPEQ (R152): Compare lanes for equality into a predicate. -/
  | vcmpeq (h : KHd) (b a pd : Nat)
  /-- VCMPLT (R152): Compare lanes less-than into a predicate. -/
  | vcmplt (h : KHd) (b a pd : Nat)
  /-- VCMPLE (R152): Compare lanes less-or-equal into a predicate. -/
  | vcmple (h : KHd) (b a pd : Nat)
  /-- VMOVX (R152): Copy an address register into every lane. -/
  | vmovx (h : KHd) (b a d : Nat)
  /-- MUL (R151): Set an accumulator to the exact lane products. -/
  | mul (h : KHd) (ln b a acc : Nat)
  /-- MAC (R140): Add exact lane products into an accumulator. -/
  | mac (h : KHd) (ln b a acc : Nat)
  /-- MSU (R140): Subtract exact lane products from an accumulator. -/
  | msu (h : KHd) (ln b a acc : Nat)
  /-- MULB (R152): Set an accumulator to products with one broadcast lane. -/
  | mulb (h : KHd) (ln b a acc : Nat)
  /-- MACB (R152): Add products with one broadcast lane into an accumulator. -/
  | macb (h : KHd) (ln b a acc : Nat)
  /-- MSUB (R152): Subtract products with one broadcast lane from an accumulator. -/
  | msub (h : KHd) (ln b a acc : Nat)
  /-- CMAC (R152): Complex multiply-accumulate on lane pairs. -/
  | cmac (h : KHd) (ln b a acc : Nat)
  /-- CMACJ (R152): Complex multiply-accumulate with the conjugate of b. -/
  | cmacj (h : KHd) (ln b a acc : Nat)
  /-- ACLR (R152): Clear an accumulator. -/
  | aclr (h : KHd) (shift acc v : Nat)
  /-- ACCLD (R152): Load an accumulator with a shifted vector. -/
  | accld (h : KHd) (shift acc v : Nat)
  /-- ACCADD (R152): Add a shifted vector into an accumulator. -/
  | accadd (h : KHd) (shift acc v : Nat)
  /-- ARND (R152): Round and saturate an accumulator into a vector register. -/
  | arnd (h : KHd) (shift acc v : Nat)
  /-- LDV (R145): Load 16 bytes from local data memory with address update. -/
  | ldv (h : KHd) (a : KAddr) (v : Nat)
  /-- LDS (R145): Load one word into every lane. -/
  | lds (h : KHd) (a : KAddr) (v : Nat)
  /-- STV (R145): Store guarded lanes of a vector to local data memory. -/
  | stv (h : KHd) (a : KAddr) (v : Nat)
  /-- STS (R145): Store lane 0 as one word. -/
  | sts (h : KHd) (a : KAddr) (v : Nat)
  /-- LDX (R152): Load a word into an address register. -/
  | ldx (h : KHd) (a : KAddr) (v : Nat)
  /-- STX (R152): Store an address register. -/
  | stx (h : KHd) (a : KAddr) (v : Nat)
  /-- ADD (R152): Integer add of address registers. -/
  | addX (h : KHd) (b a d : Nat)
  /-- SUB (R152): Integer subtract of address registers. -/
  | subX (h : KHd) (b a d : Nat)
  /-- AND (R152): Bitwise AND of address registers. -/
  | andX (h : KHd) (b a d : Nat)
  /-- OR (R152): Bitwise OR of address registers. -/
  | orX (h : KHd) (b a d : Nat)
  /-- XOR (R152): Bitwise XOR of address registers. -/
  | xorX (h : KHd) (b a d : Nat)
  /-- SHL (R152): Shift an address register left. -/
  | shl (h : KHd) (b a d : Nat)
  /-- SHR (R152): Logical shift of an address register right. -/
  | shr (h : KHd) (b a d : Nat)
  /-- SRA (R152): Arithmetic shift of an address register right. -/
  | sra (h : KHd) (b a d : Nat)
  /-- ADDI (R152): Add a signed immediate to an address register. -/
  | addi (h : KHd) (simm : Int) (a d : Nat)
  /-- MOVI (R152): Load an immediate into an address register. -/
  | movi (h : KHd) (hi : Bool) (imm d : Nat)
  /-- CMP (R152): Compare address registers into a predicate. -/
  | cmp (h : KHd) (cond b a pd : Nat)
  /-- MOVV (R152): Copy one vector lane into an address register. -/
  | movv (h : KHd) (ln v d : Nat)
  /-- BR (R142): Branch to a target after two delay bundles. -/
  | br (h : KHd) (target : Nat)
  /-- BRX (R142): Branch to a register target. -/
  | brx (h : KHd) (b a d : Nat)
  /-- CALL (R142): Branch and save the return bundle in x15. -/
  | call (h : KHd) (target : Nat)
  /-- ZLOOP (R143): Arm the zero-overhead loop with count, body and stage predicates. -/
  | zloop (h : KHd) (a stg target : Nat)
  /-- SETBASE (R152): Set the modulo base of an address register. -/
  | setbase (h : KHd) (b a d : Nat)
  /-- SETLEN (R152): Set the modulo length of an address register. -/
  | setlen (h : KHd) (b a d : Nat)
  /-- MFS (R137): Read a special register. -/
  | mfs (h : KHd) (spr x cyc : Nat)
  /-- MTS (R137): Write a special register. -/
  | mts (h : KHd) (spr x : Nat)
  /-- DMAQ (R148): Queue a DMA descriptor on a channel, stalling while the queue is full. -/
  | dmaq (h : KHd) (a ch : Nat)
  /-- DMAQ_QUEUE_SPACE (R148): A stalled DMAQ issues once its channel queue has space. -/
  | dmaqQueueSpace (k : Nat) (cycles : Nat)
  /-- DMAW (R148): Wait for a DMA channel to be idle. -/
  | dmaw (h : KHd) (a ch : Nat)
  /-- DMAW_RETURN (R148): A waiting DMAW returns once its channel has nothing queued or running. -/
  | dmawReturn (k : Nat) (cycles : Nat)
  /-- DMA_TRANSFER_DONE (R148): A DMA descriptor's transfer completes, or stops with a DMA error that discards the channel queue. -/
  | dmaTransferDone (k : Nat) (ch : Nat)
  /-- TDONE (R178): End the task after the DMA channels drain. -/
  | tdone (h : KHd)
  /-- TSIG (R179): Send a token on a named arc after the DMA channels drain. -/
  | tsig (h : KHd) (a : Nat)
  /-- SWI (R153): Raise the SWI interrupt cause. -/
  | swi (h : KHd)
  /-- RFI (R156): Return from the interrupt handler after two delay bundles. -/
  | rfi (h : KHd)
  /-- BKPT (R152): Halt the core in DEBUG. -/
  | bkpt (h : KHd)
  /-- INTERRUPT_ENTRY (R154): A pending enabled cause with IE set makes the core save state and issue IVEC in handler mode. -/
  | interruptEntry (k : Nat)
  /-- KPU_MBOX (R164): A write to a core's mailbox sets MBOX and raises the MBOX cause at once. -/
  | kpuMbox (k : Nat) (v : Nat)
  /-- KPU_FAULT_CLEAR (R162): Writing 1 to a core's KPU_FAULT bit returns it to IDLE, or resumes it from DEBUG. -/
  | kpuFaultClear (v : Nat)
  /-- KPU_DIV_REQUEST (R159): A DIV_REQ write is rejected above DIV_MAX or takes effect at the next boundary. -/
  | kpuDivRequest (v : Nat)
  /-- KPU_GATE_REQUEST (R160): A KPU_GATE write gates idle cores beyond the take's need at a boundary. -/
  | kpuGateRequest (v : Nat)
  /-- DISP_CANCEL (R184): A host cancel commits and cancels every not-yet-dispatched instance of one task. -/
  | dispCancel (v : Nat)
  /-- DISP_HISTCLR (R188): Writing HISTCLR clears the dispatch wait histogram. -/
  | dispHistclr (v : Nat)
  /-- GEOM_FORCE (R47): Writing GEOM_CTRL.FORCE makes every enabled object count as changed at the next tick. -/
  | geomForce (v : Nat)
  /-- XPT_NGAIN_WRITE (R193): A write to XPT_NGAIN queues a node change for the next boundary and may advance the input index. -/
  | xptNgainWrite (v : Nat)
  /-- XPT_CEILLIM_WRITE (R199): The first write after reset stores the ceiling limit and locks it; later writes are ignored. -/
  | xptCeillimWrite (v : Nat)
  /-- XPT_FMUTE_SET (R201): Writing XPT_FMUTESET.SET latches the HOST fault mute cause. -/
  | xptFmuteSet (v : Nat)
  /-- XPT_FMUTE_CLEAR (R201): A write of 1 clears a fault mute cause only if its condition has ended. -/
  | xptFmuteClear (v : Nat)
  /-- XPT_HOLD_CLEAR (R205): Writing XPT_MCTRL.HCLR sets every HOLD and hold counter to 0. -/
  | xptHoldClear (v : Nat)
  /-- HOUSE_MUTE_ASSERT (R200): The filtered HOUSE_MUTE_N reads low and mutes outputs from the next output frame boundary. -/
  | houseMuteAssert
  /-- HOUSE_MUTE_RELEASE (R200): The filtered HOUSE_MUTE_N reads high and release starts at the next output frame boundary. -/
  | houseMuteRelease
  /-- IDENTIFY (R261): CCP command returning identity, firmware versions, role and DRAM size. -/
  | identify (h : CcpHdr)
  /-- PING (R261): CCP command echoing its payload. -/
  | ping (h : CcpHdr) (data : Bytes)
  /-- TIME (R261): CCP command returning frame, index and PTP time of the latest boundary. -/
  | time (h : CcpHdr)
  /-- READ (R259): CCP command reading consecutive BAR0 words. -/
  | read (h : CcpHdr) (a n : Nat)
  /-- WRITE (R259): CCP command writing consecutive BAR0 words, optionally at a frame. -/
  | write (h : CcpHdr) (a : Nat) (l : List Nat)
  /-- MODIFY (R259): CCP command changing the RW fields of one word under a mask. -/
  | modify (h : CcpHdr) (a m v : Nat)
  /-- SNAPSHOT (R260): CCP command scheduling a coherent capture of register ranges at a boundary. -/
  | snapshot (h : CcpHdr) (f : Nat) (l : List (Nat × Nat))
  /-- STAGE_BEGIN (R221): CCP command starting a take load with LENGTH and SLATE. -/
  | stageBegin (h : CcpHdr) (n g : Nat)
  /-- STAGE_DATA (R221): CCP command writing a chunk of the take being loaded. -/
  | stageData (h : CcpHdr) (o : Nat) (d : Bytes)
  /-- STAGE_END (R222): CCP command ending the load and starting the consistency check. -/
  | stageEnd (h : CcpHdr)
  /-- STAGE_FROM_REEL (R220): CCP command copying a full reel slot into the staging area and checking it. -/
  | stageFromReel (h : CcpHdr) (k : Nat)
  /-- REEL_COPY_DONE (R221): The copy from the reel ends and the staging area enters CHECKING. -/
  | reelCopyDone
  /-- STAGE_CHECK_RESUME (R223): A check waiting before step 7 resumes once the outgoing program bank is released. -/
  | stageCheckResume
  /-- STAGE_CHECK_DONE (R222): The consistency check ends and the staging area becomes CHECKED or FAILED, or follows a pending discard or restart. -/
  | stageCheckDone
  /-- STAGE_DISCARD (R221): CCP command discarding the staged take at a boundary. -/
  | stageDiscard (h : CcpHdr)
  /-- STAGE_STATUS (R261): CCP command returning staging state, error and staged slate. -/
  | stageStatus (h : CcpHdr)
  /-- CUT (R224): CCP command scheduling a cut to the staged take at a frame or PTP time. -/
  | cut (h : CcpHdr) (m hard t0 t1 : Nat) (g : Bytes)
  /-- CUT_CANCEL (R226): CCP command returning a scheduled cut to CHECKED if it commits before F. -/
  | cutCancel (h : CcpHdr)
  /-- REEL_BEGIN (R261): CCP command starting a load into a reel slot. -/
  | reelBegin (h : CcpHdr) (k n : Nat)
  /-- REEL_DATA (R261): CCP command writing data into a reel slot being loaded. -/
  | reelData (h : CcpHdr) (k o : Nat) (d : Bytes)
  /-- REEL_END (R219): CCP command checking the stored container and marking the slot full. -/
  | reelEnd (h : CcpHdr) (k : Nat)
  /-- REEL_DELETE (R220): CCP command emptying a reel slot. -/
  | reelDelete (h : CcpHdr) (k : Nat)
  /-- REEL_LIST (R220): CCP command returning the slate of every reel slot. -/
  | reelList (h : CcpHdr)
  /-- LOG_READ (R482): CCP command returning consistent log records from a sequence number. -/
  | logRead (h : CcpHdr) (a n : Nat)
  /-- LOG_INFO (R261): CCP command returning log head, first, count, flags and losses. -/
  | logInfo (h : CcpHdr)
  /-- LOG_SPILL (R485): CCP command returning the 8 spill file records. -/
  | logSpill (h : CcpHdr)
  /-- LOG_CLEAR (R483): CCP command clearing the log at a boundary. -/
  | logClear (h : CcpHdr)
  /-- PAIR_STATUS (R261): CCP command returning own and peer role, link state and match run. -/
  | pairStatus (h : CcpHdr)
  /-- PAIR_SWITCHOVER (R460): CCP command exchanging ACTIVE and STANDBY roles at a named frame. -/
  | pairSwitchover (h : CcpHdr) (f : Nat)
  /-- PAIR_RESYNC (R455): CCP command starting a resynchronisation with the ACTIVE peer. -/
  | pairResync (h : CcpHdr)
  /-- SET_BEGIN (R104): CCP command starting an FIR set load into a channel slot. -/
  | setBegin (h : CcpHdr) (b k n : Nat)
  /-- SET_DATA (R261): CCP command writing FIR set container data. -/
  | setData (h : CcpHdr) (o : Nat) (d : Bytes)
  /-- SET_END (R104): CCP command checking the FIR set container and starting conversion. -/
  | setEnd (h : CcpHdr)
  /-- SET_CHANGE (R119): CCP command scheduling a set change with crossfade, checked at commit. -/
  | setChange (h : CcpHdr) (b k f x : Nat)
  /-- SET_QUERY (R261): CCP command returning a correction channel entry. -/
  | setQuery (h : CcpHdr) (b : Nat)
  /-- GEN_START (R120): CCP command starting the test signal generator at a frame. -/
  | genStart (h : CcpHdr) (f : Nat)
  /-- GEN_STOP (R120): CCP command stopping the test signal generator at a frame. -/
  | genStop (h : CcpHdr) (f : Nat)
  /-- FW_BEGIN (R261): CCP command starting a firmware image load. -/
  | fwBegin (h : CcpHdr) (i n : Nat)
  /-- FW_DATA (R261): CCP command writing firmware image data. -/
  | fwData (h : CcpHdr) (o : Nat) (d : Bytes)
  /-- FW_END (R498): CCP command checking the loaded firmware image. -/
  | fwEnd (h : CcpHdr)
  /-- FW_SWITCH (R237): CCP command scheduling a control processor restart from an image at a frame. -/
  | fwSwitch (h : CcpHdr) (i f : Nat)
  /-- FW_STATUS (R261): CCP command returning the running image and image versions. -/
  | fwStatus (h : CcpHdr)
  /-- FW_READY (R238): A control processor write of TAKE_FWCTRL.READY reports the firmware ready at once. -/
  | fwReady (v : Nat)
  /-- FW_FALLBACK (R238): No ready report within 2 s restarts the previous image and logs FW_FALLBACK. -/
  | fwFallback
  /-- META_INJECT (R288): CCP command delivering an Object Metadata Packet complete at its arrival. -/
  | metaInject (h : CcpHdr) (b : Bytes)
  /-- MEM_FSP (R412): CCP command requesting a DRAM frequency set point change. -/
  | memFsp (h : CcpHdr) (t : Nat)
  /-- MEM_RETRAIN (R411): CCP command starting a DRAM retraining when no take is present. -/
  | memRetrain (h : CcpHdr)
  /-- ECC_INJECT (R444): CCP command flipping one or two data bits of a stored codeword. -/
  | eccInject (h : CcpHdr) (k kind o : Nat)
  /-- HOST_CMDTAIL_WRITE (R253): A write of HOST_CMDTAIL hands new command ring packets to the engine, or sets RINGERR. -/
  | hostCmdtailWrite (data : Bytes) (v : Nat)
  /-- HOST_RPLHEAD_WRITE (R253): A write of HOST_RPLHEAD frees reply ring space, or sets RINGERR. -/
  | hostRplheadWrite (v : Nat)
  /-- REPLY_HOLD_RELEASE (R253): A held reply is placed once ring space frees and the engine resumes taking packets. -/
  | replyHoldRelease
  /-- READ_STAT (R254): Quad-SPI instruction returning the status word and clearing OVF. -/
  | readStat
  /-- WRITE_CMD (R255): Quad-SPI instruction delivering one CCP packet, discarded when no space. -/
  | writeCmd (b : Bytes)
  /-- READ_RPL (R254): Quad-SPI instruction returning the oldest reply without removing it. -/
  | readRpl
  /-- ACK_RPL (R254): Quad-SPI instruction removing the oldest reply. -/
  | ackRpl
  /-- QSPI_UNKNOWN_INSTRUCTION (R254): An unknown quad-SPI instruction is ignored until QSPI_CS_N rises and counted. -/
  | qspiUnknownInstruction
  /-- INTSTAT_CLEAR (R265): A W1C write to a block INTSTAT clears bits and resends the MSI-X vector if the cause stays set. -/
  | intstatClear (n : Nat) (v : Nat)
  /-- MSIX_VECTOR_UNMASK (R265): Unmasking a pending MSI-X vector sends it. -/
  | msixVectorUnmask (n : MsixEntry)
  /-- REGISTER_WRITE (R252): A write to a register with no behaviour of its own is queued and commits at the next boundary. -/
  | registerWrite (a v be : Nat)
  /-- PCIE_PERST (R539): PCIE_PERST_N low resets the PCIe endpoint while audio continues. -/
  | pciePerst (low : Bool)
  /-- STREAM_PACKET_RECEIVE (R277): A classified RTP packet is checked and its in-window samples are written into the stream store, merging legs. -/
  | streamPacketReceive (r leg : Nat) (m : RtpPkt)
  /-- STREAM_LEG_DOWN (R281): A leg with no accepted packet in its time-out goes down, and the stream enters DOWN when no leg is up. -/
  | streamLegDown (r leg : Nat)
  /-- OMP_RECEIVE (R288): A network Object Metadata Packet is checked and queued for its tick, or dropped as early, past or damaged. -/
  | ompReceive
  /-- FRAME_RECEIVE (R303): A received Ethernet frame is sized, checked, filtered and dispatched or forwarded.
  `b` the frame with its FCS, `cap` the capture of the start of the first octet after the SFD (R325) in quarter ns, `codeErr` and
  `align` its receive errors, `fill` the fill of the receive buffer and the frame the other port is receiving then (R35). -/
  | frameReceive (p : Nat) (b : Bytes) (cap : Nat) (codeErr : Bool) (align : Bool) (fill : RxSide)
  /-- PAUSE_EXPIRE (R310): The pause time of a queue runs out and transmission resumes. -/
  | pauseExpire (p q t : Nat)
  /-- XOFF_REFRESH (R311): Half the pause time elapsed with fill above XON resends the XOFF. -/
  | xoffRefresh (p : Nat) (fill : Nat)
  /-- MAC_FRAME_END (R305): When a frame on the wire ends the MAC takes the next due frame, discarding stale Q1 frames. -/
  | macFrameEnd (p : Nat) (t : Nat)
  /-- LINK_STATE_CHANGE (R312): The PCS link goes up or down; queued frames are discarded on loss and the change is reported at the next boundary.
  `up` the PCS has synchronisation, `an` auto-negotiation has completed, `lf` and `rf` local and remote fault (R312). -/
  | linkStateChange (p : Nat) (up : Bool) (speed : Nat) (an : Bool) (lf : Bool) (rf : Bool)
  /-- PTP_SYNC_RECEIVE (R330): A captured Sync yields an offset at once or is held for its Follow_Up. -/
  | ptpSyncReceive (p : Nat) (m : PtpMsg)
  /-- FOLLOW_UP_RECEIVE (R329): A Follow_Up completes a held two-step Sync or is discarded. -/
  | followUpReceive (p : Nat) (m : PtpMsg)
  /-- SERVO_TIMEOUT (R333): No accepted offset for TIMEOUT ms puts the servo in LOST with y frozen. -/
  | servoTimeout (p : Nat)
  /-- FDIFF_REPORT (R334): At the end of each second in MEASURE the servo reports FDIFF. -/
  | fdiffReport (p : Nat)
  /-- PDELAY_REQ_RECEIVE (R339): The hardware responder answers a Pdelay_Req with a one-step Pdelay_Resp, or skips it. -/
  | pdelayReqReceive (p : Nat) (m : PdelayReq)
  /-- LAUNCH_REQUEST (R340): Firmware places a frame in the launch queue, rejected with LAUNCH_FULL when full. -/
  | launchRequest (p : Nat) (m : LaunchReq) (t : Nat)
  /-- LAUNCH_DUE (R341): A timed launch entry reaches its LTIME and is sent, or completes LATE. -/
  | launchDue (p : Nat) (t : Nat)
  /-- TSQ_READ (R344): A read of TIME_TSQp_W0 latches and removes the oldest transmit timestamp. -/
  | tsqRead (p : Nat)
  /-- TIME_SET (R323): Writing TIME_CTRL.SET loads TIME_SET into the local time counter at the next boundary. -/
  | timeSet (v : Nat)
  /-- MEASUREMENT_WINDOW (R354): Each 1 s XO window computes f_j, the vote and deviations, and advances reference faults and qualification. -/
  | measurementWindow (meas : List (Bool × Int)) (dco : Int)
  /-- REF_STOP (R355): No edge for 4 expected periods disqualifies a reference with STOP. -/
  | refStop (r : Nat)
  /-- RATE_MISMATCH (R355): A mean edge rate beyond ±1,000 ppm over the count disqualifies the reference. -/
  | rateMismatch (r : Nat) (offset : Int)
  /-- SPLICE_STEP_MEASURE (R362): The first mark of the new reference measures Δ and enters SPLICE_PENDING.
  `lead` how many ns the mark's edge arrives after the timeline passed the mark's instant (R363). -/
  | spliceStepMeasure (lead : Int)
  /-- FASTLOCK_STEP (R359): After 1/B seconds within LOCKTHR the acquisition bandwidth halves. -/
  | fastlockStep
  /-- DPLL_LOCK (R360): The phase error meets LOCKTHR long enough and the state becomes LOCKED. -/
  | dpllLock
  /-- DPLL_LOCK_LOSS (R360): Phase error beyond 4 × LOCKTHR at 4 marks returns to ACQUIRING. -/
  | dpllLockLoss
  /-- XO_IN_FAULT (R352): XO_IN stopped or off frequency puts the clock system into FAULT. -/
  | xoInFault (stopped : Bool)
  /-- ROOT_PLL_UNLOCK (R364): Loss of root PLL lock puts the clock system into FAULT and stops the frame sequencer. -/
  | rootPllUnlock
  /-- XOSUSPECT_CLEAR (R354): Writing CLK_CTRL.XOCLR clears XOSUSPECT. -/
  | xosuspectClear (v : Nat)
  /-- TDM_MASK_RELEASE (R379): 640 FCLK cycles after the boundary a committed slot mask is released to the port clock domain. -/
  | tdmMaskRelease (p idx m : Nat)
  /-- TDM_ZEROX_TIMEOUT (R382): A slot gate that did not open or close within ZXTO is forced with a ramp. -/
  | tdmZeroxTimeout (p : Nat) (out : Bool) (j : Nat)
  /-- DEC_SETTLED (R388): A decimator channel's unsettled output count reaches 0 and SETTLED is raised. -/
  | decSettled (c : Nat)
  /-- PDM_LOAD_STROBE (R391): A load strobe moves the oldest queued frame to the modulators of a group, or feeds zero. -/
  | pdmLoadStrobe (g : Nat) (phase : Int)
  /-- PDM_CLEAR_ASSERT (R395): PDM_CLEAR_N falls and every group carries its CLRCODE pattern. -/
  | pdmClearAssert
  /-- PDM_CLEAR_RELEASE (R395): PDM_CLEAR_N rises and groups idle until their next strobe. -/
  | pdmClearRelease
  /-- DRAM_REQUEST (R414): A DRAM request enters its class queue on its channel. -/
  | dramRequest (q : DramIn)
  /-- AGE_PROMOTION (R414): A request older than its class age limit moves to the head list. -/
  | agePromotion (id t : Nat)
  /-- DRAM_REQUEST_COMPLETE (R416): A DRAM request completes; a class 0 request past its deadline is counted as a miss. -/
  | dramRequestComplete (ch : Nat) (hit : Bool)
  /-- REFRESH (R417): A scheduled all-bank refresh is issued to every rank at its frame offset. -/
  | refresh
  /-- WCK_DQ_OSCILLATOR_READ (R410): After each 768,000 CK cycles the oscillator is read during refresh and write delays track drift. -/
  | wckDqOscillatorRead (counts : List Nat)
  /-- MR4_POLL (R418): Every 16 ms the refresh rate is read and refresh doubles or returns to 1×. -/
  | mr4Poll (rates : List (Nat × Bool))
  /-- ROW_HAMMER_REFRESH (R419): An activate count reaching MEM_RHTHR refreshes the neighbour rows. -/
  | rowHammerRefresh (bank row : Nat)
  /-- ROW_HAMMER_TABLE_CLEAR (R419): Every 24,576,000 CK cycles all row-hammer tables are cleared. -/
  | rowHammerTableClear
  /-- POWER_DOWN_ENTRY (R420): An idle rank enters power-down after MEM_PDTIMER cycles. -/
  | powerDownEntry (rank : Nat)
  /-- SELF_REFRESH_ENTRY (R421): After IDLE µs of idleness with no take the ranks enter self-refresh. -/
  | selfRefreshEntry (issued : Bool)
  /-- MEM_TRAIN_START (R411): Writing MEM_TRAINCTRL.START starts a DRAM training, or is refused with CFGREJ. -/
  | memTrainStart (v : Nat)
  /-- MEM_TRAINING_DONE (R408): A training ends, storing results or failing, then performs any deferred frequency change. -/
  | memTrainingDone (fsp1 fsp0 : TrainSet) (ms : Nat)
  /-- MEM_FSPREQ_GO (R412): Writing MEM_FSPREQ.GO requests a frequency set point change. -/
  | memFspreqGo (v : Nat)
  /-- MEM_FSP_CHANGE_DONE (R412): A frequency set point change completes and MEM_FSPSTAT records its status. -/
  | memFspChangeDone (t : TrainSet) (ms : Nat)
  /-- FABRIC_REQUEST (R432): A master request is decoded through its windows and passed to a target, or answered with a decode or parity error. -/
  | fabricRequest (m : Nat) (src : Nat) (a : Nat) (len : Nat) (data : Bytes) (parity : Bool)
  /-- BURST_GRANT (R435): When a burst ends the target grants the next waiting master by priority and round robin. -/
  | burstGrant (t : Nat)
  /-- MASTER_RESET (R437): A source reset puts the source in DRAINING and completes its bursts with cleared strobes or discarded reads. -/
  | masterReset (m : Nat) (src : Nat) (beats : Nat)
  /-- FAB_DRAIN_EVENT (R437): The last outstanding transaction of a draining source retires and the reset is released and logged. -/
  | fabDrainEvent (m : Nat) (src : Nat) (cycles : Nat)
  /-- ECC_STORM_WINDOW (R442): At the end of each one-second window errors above FAB_UEMAX set STORM and assert FAULT_N. -/
  | eccStormWindow
  /-- STORM_CLEAR (R442): Writing FAB_CTRL.STORMCLR clears STORM. -/
  | stormClear (v : Nat)
  /-- SCRUB (R443): Each frame the scrubber reads its share of every memory and rewrites corrected codewords. -/
  | scrub
  /-- CLAP_SEND (R452): Every 1 ms a CLAP message is sent on the pair link. -/
  | clapSend
  /-- NETWORK_CLAPPER_SEND (R453): Every 10 ms a network clapper is sent on each selected port. -/
  | networkClapperSend
  /-- CLAPPER_RECEIVE (R453): A valid clapper refreshes its path and may resolve roles, takeover or release. -/
  | clapperReceive (net : Bool) (b : Bytes)
  /-- PAIR_LINK_CLAP_LOSS (R454): 8 ms without a valid CLAP declares loss on the pair-link path. -/
  | pairLinkClapLoss
  /-- NETWORK_CLAP_LOSS (R454): 50 ms without a valid network clapper declares loss on the network path. -/
  | networkClapLoss
  /-- PAIR_LINK_SYNC (R451): The pair link gains or loses code-group synchronization. -/
  | pairLinkSync (up : Bool)
  /-- EVIDENCE_WINDOW_EXPIRE (R459): An unbroken evidence window makes an ORPHAN ACTIVE at the next boundary. -/
  | evidenceWindowExpire
  /-- FORCEACT (R459): Writing PAIR_CTRL.FORCEACT promotes an ORPHAN to ACTIVE at the next boundary. -/
  | forceact (v : Nat)
  /-- DIGEST_RECEIVE (R462): A peer DIGEST message is compared with the own digest and updates MATCHRUN. -/
  | digestReceive (b : Bytes)
  /-- SWITCH_RECEIVE (R460): A SWITCH message from the peer schedules the role exchange at its frame. -/
  | switchReceive (b : Bytes)
  /-- XFER_RECEIVE (R466): An XFER message delivers take, FIR set, object table or correction state data to a resynchronising unit. -/
  | xferReceive (b : Bytes)
  /-- ALIGN_RECEIVE (R467): An ALIGN message sets FA, re-aligns whole frames or waits on boundary phase. -/
  | alignReceive (phase : Int) (b : Bytes)
  /-- RESYNC_TIMEOUT (R468): A resynchronisation not done within PAIR_RSTIMEOUT enters FAILED and is logged. -/
  | resyncTimeout
  /-- SETREADY_RECEIVE (R471): A SETREADY message lets the active schedule an adaptive set change. -/
  | setreadyReceive (b : Bytes)
  /-- SETSCHED_RECEIVE (R471): A SETSCHED message makes the standby issue the same set change. -/
  | setschedReceive (b : Bytes)
  /-- BEACON_SEND (R233): Every 100 ms the beacon engine sends a continuity beacon on each selected port. -/
  | beaconSend
  /-- BEACON_RECEIVE (R236): A valid peer beacon updates the peer table and is compared for mismatch. -/
  | beaconReceive (b : Bytes)
  /-- PEER_EXPIRE (R235): A peer entry expires 1,000 ms after its last beacon and CONT_PEERLOST is logged. -/
  | peerExpire (n : Nat)
  /-- LOG_START (R481): Writing LOG_CTRL.START fixes HOURS and PCYC and writes the held events. -/
  | logStart (v : Nat)
  /-- LOG_CTRL_CLEAR (R483): Writing LOG_CTRL.CLEAR clears the log at a boundary and writes LOG_CLEARED. -/
  | logCtrlClear (v : Nat)
  /-- LOG_RDSEQ_SELECT (R482): A write of LOG_RDSEQ selects a record for the read window at once. -/
  | logRdseqSelect (v : Nat)
  /-- HOURS_TICK (R481): Every 225 s of the always-on timer the operating hours advance by 1/16 h. -/
  | hoursTick
  /-- POWER_ON_RESET (R494): Power-on reset resets every block and starts sequencing and boot. -/
  | powerOnReset (xo : Bool) (test : Bool)
  /-- RESET_N (R494): RESET_N held low for 10 µs resets the device. -/
  | resetN (xo : Bool) (test : Bool)
  /-- BROWNOUT (R493): VDD_AON or VDD_CORE below its threshold for 1 µs resets the device. -/
  | brownout (xo : Bool) (test : Bool)
  /-- PWR_GOOD_RISE (R490): 100 µs after a group's PWR_GOOD rises the sequencer raises the next enable. -/
  | pwrGoodRise (g : Nat)
  /-- SEQUENCE_TIMEOUT (R490): A PWR_GOOD still low after PWR_SEQTO shuts the rails down and holds FAULT_N. -/
  | sequenceTimeout
  /-- SYS_BOOTGO (R496): Writing SYS_BOOTGO starts the image loaded over PCIe. -/
  | sysBootgo (load : BootLoad) (v : Nat)
  /-- CKEY_WRITE (R499): A control processor write loads a control key into SYS_CKEYk. -/
  | ckeyWrite (k : Nat) (w : Nat) (v : Nat)
  /-- RAIL_UNDERVOLTAGE (R492): A rail under voltage for 2 µs sets the UV fault mute, is counted and logged. -/
  | railUndervoltage (rail : Nat) (mv : Nat) (under : Bool)
  /-- WDT_KICK (R495): Writing PWR_WDT.KICK reloads the watchdog at once. -/
  | wdtKick (v : Nat)
  /-- WDT_EXPIRE (R495): A first expiry restarts the control processor; a second resets the device. -/
  | wdtExpire (rel : WdtIn)
  /-- THERMAL_SAMPLE (R505): Every 1 ms the sensors update TMAX and set or clear WARN and end a trip. -/
  | thermalSample (temps : List Int)
  /-- THERMAL_TRIP (R506): A sensor at +125 °C sets the THERM mute, asserts FAULT_N and forces divider 4. -/
  | thermalTrip (sensor : Nat) (temp : Int)
  /-- THERMAL_SHUTDOWN (R506): A trip held for 100 ms lowers the enables and records THERMAL. -/
  | thermalShutdown
  /-- PWR_DARK_ENTER (R507): Writing PWR_DARK.ENTER ramps down the outputs and enters the Dark state, or sets DARKREJ. -/
  | pwrDarkEnter (v : Nat)
  /-- HOST_WAKE (R508): A fall of HOST_WAKE_N in the Dark state starts the wake sequence. -/
  | hostWake
  /-- PMBUS_TRANSACTION (R502): Writing PWR_PMBCMD.GO starts a PMBus transaction at once. -/
  | pmbusTransaction (v : Nat)
  /-- PMBUS_DONE (R502): A PMBus transaction ends and NACK or PEC errors are recorded. -/
  | pmbusDone (nack : Bool) (pec : Bool) (data : Nat)
  /-- PMB_ALERT (R502): A fall of PMB_ALERT_N raises ALERT and is logged. -/
  | pmbAlert
  /-- REFERENCE_GLITCH (R355): A reference edge that falls outside ±12.5% of the expected period is rejected and counted in CLK_GLITCHES; the ninth rejected edge in a window disqualifies the reference with GLITCH at once. -/
  | referenceGlitch (r : Nat)
  /-- LAUNCH_LATEWIN_EXPIRE (R342): A timed launch entry whose frame has not started LATEWIN after its LTIME, because of a pause or a frame on the wire, completes LATE without being sent and counts in TIME_LATEp. -/
  | launchLatewinExpire (p : Nat) (t : Nat)
  /-- REGISTER_READ (R36): A direct read of a register with behaviour of its own clears RC fields or latches the matching _HI register. -/
  | registerRead (a : Nat)
  /-- HOST_CAUSEEN_WRITE (R265): A write to HOST_CAUSEEN or HOST_INTEN acts at once and may assert HOST_IRQ_N or send an MSI-X vector for a cause that it enables. -/
  | hostCauseenWrite (inten : Bool) (v : Nat)
  /-- NETREFCLK_LOSS (R539): NETREFCLK stops or returns; while it is absent the PCS of both ports and the pair link stay down and the XO_IN monitor of R352 is suspended. -/
  | netrefclkLoss (lost : Bool)
deriving DecidableEq, Repr

end Sys2Proof
end

