-- ==== Sys2Proof/Decode.lean ====
section
/-! DEFINITION. Words: those of the command table, which gives no row bits, and those of a kernel bundle (R132 to R134, R152), which
spell the kernel operations among the commands. -/

namespace Sys2Proof

/-- The command a word of the table spells: no row has bits, so none (R243 to R246 say how a packet becomes a command). -/
def decodeTableWord (_nbits _w : Nat) : Option Instr := none

/-- Bits hi to lo of a kernel word. -/
def kfield (w hi lo : Nat) : Nat := w / 2 ^ lo % 2 ^ (hi - lo + 1)

/-- A field of n bits as a signed value. -/
def kSigned (n v : Nat) : Int := if v < 2 ^ (n - 1) then (v : Int) else (v : Int) - (2 ^ n : Nat)

/-- Guard and W of a word (R133); `rsv` the bits its format reserves. -/
def kHead (core slot w rsv : Nat) : KHd :=
  { core := core, slot := slot, gn := kfield w 31 31 == 1, gp := kfield w 30 28, w := kfield w 20 20 == 1, rsv := rsv }

/-- The word of a vector slot (R134, R152). -/
def vectorWord (core slot w : Nat) : Option Instr :=
  let b := kfield w 17 12
  let a := kfield w 11 6
  let d := kfield w 5 0
  let imm := kfield w 19 12
  let ln := kfield w 19 18
  let pd := kfield w 2 0
  let sh := kfield w 14 9
  let acc := kfield w 8 6
  let none_ := kHead core slot w (kfield w 19 0)
  let vr := kHead core slot w (kfield w 19 18)
  let vi := kHead core slot w 0
  let vp := kHead core slot w (kfield w 19 18 + kfield w 5 3)
  let vm := kHead core slot w (kfield w 5 3)
  let vx := kHead core slot w (kfield w 19 15)
  match kfield w 27 21 with
  | 0x00 => some (.nop none_)
  | 0x01 => some (.vadd vr b a d)
  | 0x02 => some (.vsub vr b a d)
  | 0x03 => some (.vneg vr b a d)
  | 0x04 => some (.vabs vr b a d)
  | 0x05 => some (.vmin vr b a d)
  | 0x06 => some (.vmax vr b a d)
  | 0x07 => some (.vand vr b a d)
  | 0x08 => some (.vor vr b a d)
  | 0x09 => some (.vxor vr b a d)
  | 0x0A => some (.vshl vr b a d)
  | 0x0B => some (.vshr vr b a d)
  | 0x0C => some (.vlsr vr b a d)
  | 0x0D => some (.vshli vi imm a d)
  | 0x0E => some (.vshri vi imm a d)
  | 0x0F => some (.vmov vr b a d)
  | 0x10 => some (.vbcast vi imm a d)
  | 0x11 => some (.vperm vi imm a d)
  | 0x12 => some (.vmul vr b a d)
  | 0x13 => some (.vmulq vr b a d)
  | 0x14 => some (.vnar vi imm a d)
  | 0x15 => some (.vcmpeq vp b a pd)
  | 0x16 => some (.vcmplt vp b a pd)
  | 0x17 => some (.vcmple vp b a pd)
  | 0x18 => some (.vmovx vr b a d)
  | 0x20 => some (.mul vm ln b a pd)
  | 0x21 => some (.mac vm ln b a pd)
  | 0x22 => some (.msu vm ln b a pd)
  | 0x23 => some (.mulb vm ln b a pd)
  | 0x24 => some (.macb vm ln b a pd)
  | 0x25 => some (.msub vm ln b a pd)
  | 0x26 => some (.cmac vm ln b a pd)
  | 0x27 => some (.cmacj vm ln b a pd)
  | 0x28 => some (.aclr vx sh acc d)
  | 0x29 => some (.accld vx sh acc d)
  | 0x2A => some (.accadd vx sh acc d)
  | 0x2B => some (.arnd vx sh acc d)
  | _ => none

/-- The word of the LS slot (R134, R145, R152). -/
def lsWord (core w : Nat) : Option Instr :=
  let h := kHead core 1 w 0
  let a : KAddr := { ofs := kSigned 8 (kfield w 19 12), md := kfield w 11 10, x := kfield w 9 6 }
  let v := kfield w 5 0
  match kfield w 27 21 with
  | 0x00 => some (.nop (kHead core 1 w (kfield w 19 0)))
  | 0x01 => some (.ldv h a v)
  | 0x02 => some (.lds h a v)
  | 0x04 => some (.stv h a v)
  | 0x05 => some (.sts h a v)
  | 0x06 => some (.ldx h a v)
  | 0x07 => some (.stx h a v)
  | _ => none

/-- The word of the CT slot (R134, R152); `cyc` the cycle counter an MFS may read. -/
def ctWord (core w cyc : Nat) : Option Instr :=
  let b := kfield w 11 8
  let a := kfield w 7 4
  let d := kfield w 3 0
  let none_ := kHead core 0 w (kfield w 19 0)
  let cr := kHead core 0 w (kfield w 19 12)
  let h := kHead core 0 w 0
  let target := kfield w 11 0
  let cd := kHead core 0 w (kfield w 19 8 + kfield w 3 2)
  match kfield w 27 21 with
  | 0x00 => some (.nop none_)
  | 0x01 => some (.addX cr b a d)
  | 0x02 => some (.subX cr b a d)
  | 0x03 => some (.andX cr b a d)
  | 0x04 => some (.orX cr b a d)
  | 0x05 => some (.xorX cr b a d)
  | 0x06 => some (.shl cr b a d)
  | 0x07 => some (.shr cr b a d)
  | 0x08 => some (.sra cr b a d)
  | 0x09 => some (.addi h (kSigned 12 (kfield w 19 8)) a d)
  | 0x0A => some (.movi { h with w := false } (kfield w 20 20 == 1) (kfield w 19 4) d)
  | 0x0B => some (.cmp (kHead core 0 w (kfield w 19 15 + kfield w 3 3)) (kfield w 14 12) b a (kfield w 2 0))
  | 0x0C => some (.movv cr (kfield w 11 10) (kfield w 9 4) d)
  | 0x10 => some (.br cr target)
  | 0x11 => some (.brx cr b a d)
  | 0x12 => some (.call cr target)
  | 0x13 => some (.zloop (kHead core 0 w (kfield w 19 19)) (kfield w 18 15) (kfield w 14 12) target)
  | 0x14 => some (.setbase cr b a d)
  | 0x15 => some (.setlen cr b a d)
  | 0x16 => some (.mfs cr (kfield w 11 4) d cyc)
  | 0x17 => some (.mts cr (kfield w 11 4) d)
  | 0x18 => some (.dmaq cd a (kfield w 1 0))
  | 0x19 => some (.dmaw cd a (kfield w 1 0))
  | 0x1A => some (.tdone cr)
  | 0x1B => some (.tsig cr a)
  | 0x1C => some (.swi none_)
  | 0x1D => some (.rfi none_)
  | 0x1F => some (.bkpt none_)
  | _ => none

/-- The kernel operation that word `w` of a bundle spells in a slot: 0 CT, 1 LS, 2 V0, 3 V1; none for an opcode that R152 does not
list. -/
def kernelWord (core slot w cyc : Nat) : Option Instr :=
  match slot with
  | 0 => ctWord core w cyc
  | 1 => lsWord core w
  | _ => vectorWord core slot w

end Sys2Proof
end

