-- ==== Sys2Proof/Machine/Flags.lean ====
section
/-! DEFINITION. The arithmetic every chapter shares: sign extension, saturation, rounding half up, saturating counters,
exact integer square roots, and the serial arithmetic of R14. -/

namespace Sys2Proof.Machine

/-- The value of a `w`-bit two's complement field. -/
def signed (w v : Nat) : Int :=
  let u := v % 2 ^ w
  if u < 2 ^ (w - 1) then (u : Int) else (u : Int) - 2 ^ w

/-- The `w`-bit field that holds an integer modulo 2^w. -/
def unsigned (w : Nat) (x : Int) : Nat := (x % (2 ^ w : Nat)).toNat

/-- Saturates to a signed `w`-bit value. -/
def satS (w : Nat) (x : Int) : Int :=
  if x < -(2 ^ (w - 1) : Nat) then -(2 ^ (w - 1) : Nat)
  else if x > (2 ^ (w - 1) : Nat) - 1 then (2 ^ (w - 1) : Nat) - 1 else x

/-- Whether an integer lies outside the signed `w`-bit range. -/
def overS (w : Nat) (x : Int) : Bool := satS w x != x

/-- Keeps an integer modulo 2^w as a signed value (wrap). -/
def wrapS (w : Nat) (x : Int) : Int := signed w (unsigned w x)

/-- Limits an integer to a closed interval. -/
def clampI (lo hi x : Int) : Int := if x < lo then lo else if x > hi then hi else x

/-- Limits a natural to a closed interval. -/
def clampN (lo hi x : Nat) : Nat := if x < lo then lo else if x > hi then hi else x

/-- RHU: rounds half up at bit `n`: floor((x + 2^(n−1)) / 2^n). -/
def rhu (n : Nat) (x : Int) : Int := if n = 0 then x else (x + (2 ^ (n - 1) : Nat)) / (2 ^ n : Nat)

/-- Rounds a quotient half up: floor(a / b + 1/2), for b > 0. -/
def divRhu (a : Int) (b : Nat) : Int := (2 * a + b) / (2 * b : Nat)

/-- The smallest integer at or above a / b. -/
def ceilDiv (a b : Nat) : Nat := (a + b - 1) / b

/-- Saturating count in `w` bits. -/
def satAdd (w a b : Nat) : Nat := min (a + b) (2 ^ w - 1)

/-- a is earlier than b in 32-bit serial arithmetic (R14). -/
def serialBefore (a b : Nat) : Bool :=
  let d := (b + 2 ^ 32 - a % 2 ^ 32) % 2 ^ 32
  decide (1 ≤ d) && decide (d ≤ 2 ^ 31 - 1)

/-- The bits hi down to lo of a natural. -/
def bits (v hi lo : Nat) : Nat := (v >>> lo) % 2 ^ (hi + 1 - lo)

/-- One bit of a natural. -/
def bit (v i : Nat) : Bool := v.testBit i

/-- The value of a natural with bits hi down to lo replaced. -/
def setBits (v hi lo x : Nat) : Nat :=
  let m := 2 ^ (hi + 1 - lo)
  v - bits v hi lo * 2 ^ lo + (x % m) * 2 ^ lo

/-- A Bool as a bit. -/
def b2n (b : Bool) : Nat := if b then 1 else 0

/-- Bitwise: the bits of `a` outside the mask `m`. -/
def andNot (a m : Nat) : Nat := a - (a &&& m)

/-- The integer square root by bisection over `fuel` bits: the largest r with r² ≤ n. -/
def isqrtFrom (n : Nat) : Nat → Nat → Nat
  | 0, r => r
  | k + 1, r =>
    let t := r + 2 ^ k
    isqrtFrom n k (if t * t ≤ n then t else r)

/-- floor(√n) for n below 2^(2·96). -/
def isqrt (n : Nat) : Nat := isqrtFrom n (n.log2 / 2 + 1) 0

/-- √n rounded half up to an integer: the r with (2r − 1)² ≤ 4n < (2r + 1)². -/
def isqrtRhu (n : Nat) : Nat := (isqrt (4 * n) + 1) / 2

end Sys2Proof.Machine
end

