-- ==== Sys2Proof/Machine/Operands.lean ====
section
/-! DEFINITION. Operand forms: byte orders of R7, field extraction from byte strings, CRC-32C (R244), SHA-256 and
HMAC-SHA-256 (R258), the Internet checksum. -/

namespace Sys2Proof.Machine

/-- The `n` bytes of a natural, most significant first (R7: packets and containers). -/
def beBytes : Nat → Nat → Bytes
  | 0, _ => []
  | n + 1, v => BitVec.ofNat 8 (v / 256 ^ n) :: beBytes n v

/-- The `n` bytes of a natural, least significant first (R7: descriptors, buffers and log payloads). -/
def leBytes : Nat → Nat → Bytes
  | 0, _ => []
  | n + 1, v => BitVec.ofNat 8 v :: leBytes n (v / 256)

/-- The number a byte string spells, most significant byte first. -/
def beVal (b : Bytes) : Nat := b.foldl (fun a x => a * 256 + x.toNat) 0

/-- The number a byte string spells, least significant byte first. -/
def leVal (b : Bytes) : Nat := b.foldr (fun x a => a * 256 + x.toNat) 0

/-- `n` bytes from offset `o`; bytes beyond the end are missing. -/
def sliceB (b : Bytes) (o n : Nat) : Bytes := (b.drop o).take n

/-- The big-endian field of `n` bytes at offset `o`. -/
def beAt (b : Bytes) (o n : Nat) : Nat := beVal (sliceB b o n)

/-- The little-endian field of `n` bytes at offset `o`. -/
def leAt (b : Bytes) (o n : Nat) : Nat := leVal (sliceB b o n)

/-- The signed big-endian field of `n` bytes at offset `o`. -/
def beAtS (b : Bytes) (o n : Nat) : Int := signed (8 * n) (beAt b o n)

/-- `n` zero bytes. -/
def zeroBytes (n : Nat) : Bytes := List.replicate n 0

/-- Pads with zero bytes to a multiple of `m`. -/
def padTo (m : Nat) (b : Bytes) : Bytes := b ++ zeroBytes ((m - b.length % m) % m)

/-- The 32-bit words of a byte string, big-endian. -/
def beWords (b : Bytes) : List Nat := (List.range (b.length / 4)).map fun i => beAt b (4 * i) 4

/-- One bit step of the reflected CRC-32C register. -/
def crcBit (poly : Nat) (c : Nat) : Nat := if c % 2 = 1 then (c / 2) ^^^ poly else c / 2

/-- One byte into a reflected CRC register. -/
def crcByte (poly : Nat) (c : Nat) (b : Byte) : Nat :=
  let c := c ^^^ b.toNat
  crcBit poly (crcBit poly (crcBit poly (crcBit poly (crcBit poly (crcBit poly (crcBit poly (crcBit poly c)))))))

/-- CRC-32C (Castagnoli), initial value and final exclusive-or all ones (R244). -/
def crc32c (b : Bytes) : Nat := (b.foldl (crcByte 0x82F63B78) 0xFFFFFFFF) ^^^ 0xFFFFFFFF

/-- CRC-32 of IEEE 802.3, the frame check sequence of an Ethernet frame. -/
def crc32e (b : Bytes) : Nat := (b.foldl (crcByte 0xEDB88320) 0xFFFFFFFF) ^^^ 0xFFFFFFFF

/-- The 16-bit ones' complement sum of IPv4 and UDP. -/
def onesSum (b : Bytes) : Nat :=
  let p := padTo 2 b
  let s := ((List.range (p.length / 2)).map fun i => beAt p (2 * i) 2).sum
  let f := fun x => x % 65536 + x / 65536
  f (f (f s))

/-- The Internet checksum of a byte string. -/
def inetChecksum (b : Bytes) : Nat := 65535 - onesSum b

/-- The largest x below 2^36 whose power e is at most n, bit by bit from the top. -/
def powerRoot (e n : Nat) : Nat := (List.range 36).foldr (fun i x => if (x + 2 ^ i) ^ e ≤ n then x + 2 ^ i else x) 0

/-- The first 32 fraction bits of the e-th root of p: the constants of SHA-256 are such of the first primes. -/
def fracRoot (e p : Nat) : Nat := powerRoot e (p * 2 ^ (32 * e)) % 2 ^ 32

/-- The first 64 primes. -/
def shaPrimes : List Nat := (List.range 312).filter fun p => decide (2 ≤ p) && ((List.range p).drop 2).all fun d => decide (p % d ≠ 0)

/-- The exclusive or of a 32-bit value turned right by each of some counts. -/
def turned (l : List Nat) (x : Nat) : Nat := l.foldl (fun r n => r ^^^ ((x / 2 ^ n) ||| (x * 2 ^ (32 - n) % 2 ^ 32))) 0

/-- One step of SHA-256: the last four values of its two running sequences, newest first, and what the step adds. -/
def shaStep (v : List Nat × List Nat) (n : Nat) : List Nat × List Nat :=
  let p := fun i => v.1.getD i 0
  let q := fun i => v.2.getD i 0
  let t := n + q 3 + turned [6, 11, 25] (q 0) + (q 2 ^^^ (q 0 &&& (q 1 ^^^ q 2)))
  let u := turned [2, 13, 22] (p 0) + ((p 0 &&& (p 1 ||| p 2)) ||| (p 1 &&& p 2))
  ((t + u) % 2 ^ 32 :: v.1.take 3, (t + p 3) % 2 ^ 32 :: v.2.take 3)

/-- The steps of a block: the message words slide through a window of sixteen, oldest first. -/
def shaSteps : List Nat → List Nat → List Nat × List Nat → List Nat × List Nat
  | [], _, v => v
  | k :: ks, w, v =>
    let x := fun i => w.getD i 0
    let more := x 0 + x 9 + (turned [7, 18] (x 1) ^^^ (x 1 / 2 ^ 3)) + (turned [17, 19] (x 14) ^^^ (x 14 / 2 ^ 10))
    shaSteps ks (w.drop 1 ++ [more % 2 ^ 32]) (shaStep v (k + x 0))

/-- SHA-256 of a byte string, 32 bytes: 0x80, zeros and the length in bits fill the last block of 64 bytes. -/
def sha256 (m : Bytes) : Bytes :=
  let b := m ++ BitVec.ofNat 8 0x80 :: zeroBytes ((119 - m.length % 64) % 64) ++ beBytes 8 (8 * m.length)
  let ks := shaPrimes.map (fracRoot 3)
  let add := List.zipWith fun x y => (x + y) % 2 ^ 32
  let r := (List.range (b.length / 64)).foldl
    (fun v i => let d := shaSteps ks (beWords (sliceB b (64 * i) 64)) v; (add v.1 d.1, add v.2 d.2))
    (((shaPrimes.take 4).map (fracRoot 2)), (((shaPrimes.drop 4).take 4).map (fracRoot 2)))
  (r.1 ++ r.2).flatMap (beBytes 4)

/-- HMAC-SHA-256 (R258). -/
def hmacSha256 (key msg : Bytes) : Bytes :=
  let k := if key.length > 64 then sha256 key else key
  let k := k ++ zeroBytes (64 - k.length)
  let x := fun (c : Byte) => k.map (· ^^^ c)
  sha256 (x 0x5c ++ sha256 (x 0x36 ++ msg))

end Sys2Proof.Machine
end

