-- ==== Sys2Proof/Machine/Status.lean ====
section
/-! DEFINITION. The status codes of CCP replies (R262). -/

namespace Sys2Proof.Machine

/-- A reply status (R262). -/
inductive Status
  | ok | deferredDone
  | badVersion | badOpcode | badLength | badParam | badFlags | notPermitted | queueFull | fwRestarting | duplicate | seqStale
  | framePast
  | stageFormat | stageCrc | stageDigest | stageSignature | stageVariant | stageInconsistent | notStaged | stageState
  | cutPending | digestMismatch | noCut | reelEmpty | reelState
  | logRange
  | pairRole | pairLink
  | setCrc | setInvalid | setNotReady | convBusy | adaptStep | adaptCeil | adaptRate
  | fwInvalid | fwActive | fwState | fwPending
  | memBusy
deriving DecidableEq, Repr

/-- The code of a status (R262). -/
def Status.code : Status → Nat
  | .ok => 0x0000
  | .deferredDone => 0x0001
  | .badVersion => 0x0101
  | .badOpcode => 0x0102
  | .badLength => 0x0103
  | .badParam => 0x0104
  | .badFlags => 0x0105
  | .notPermitted => 0x0106
  | .queueFull => 0x0107
  | .fwRestarting => 0x0108
  | .duplicate => 0x0109
  | .seqStale => 0x010A
  | .framePast => 0x0201
  | .stageFormat => 0x0301
  | .stageCrc => 0x0302
  | .stageDigest => 0x0303
  | .stageSignature => 0x0304
  | .stageVariant => 0x0305
  | .stageInconsistent => 0x0306
  | .notStaged => 0x0307
  | .stageState => 0x0308
  | .cutPending => 0x0401
  | .digestMismatch => 0x0402
  | .noCut => 0x0403
  | .reelEmpty => 0x0404
  | .reelState => 0x0405
  | .logRange => 0x0501
  | .pairRole => 0x0601
  | .pairLink => 0x0602
  | .setCrc => 0x0701
  | .setInvalid => 0x0702
  | .setNotReady => 0x0703
  | .convBusy => 0x0704
  | .adaptStep => 0x0705
  | .adaptCeil => 0x0706
  | .adaptRate => 0x0707
  | .fwInvalid => 0x0801
  | .fwActive => 0x0802
  | .fwState => 0x0803
  | .fwPending => 0x0804
  | .memBusy => 0x0A01

end Sys2Proof.Machine
end

