-- ==== Sys2Proof/Machine/CcpPkt.lean ====
section
/-! DEFINITION. CCP packets as bytes: the parameters of every opcode (R261), and a whole command packet (R243, R244). -/

namespace Sys2Proof.Machine

open Sys2Proof

/-- The opcode of a command (R261). -/
def opcodeOf : CcpOp → Nat
  | .identify => 0x0101
  | .ping _ => 0x0102
  | .time => 0x0103
  | .read _ _ => 0x0201
  | .write _ _ => 0x0202
  | .modify _ _ _ => 0x0203
  | .snapshot _ _ => 0x0210
  | .stageBegin _ _ => 0x0301
  | .stageData _ _ => 0x0302
  | .stageEnd => 0x0303
  | .stageFromReel _ => 0x0304
  | .stageDiscard => 0x0305
  | .stageStatus => 0x0306
  | .cut _ _ _ _ _ => 0x0401
  | .cutCancel => 0x0402
  | .reelBegin _ _ => 0x0410
  | .reelData _ _ _ => 0x0411
  | .reelEnd _ => 0x0412
  | .reelDelete _ => 0x0413
  | .reelList => 0x0414
  | .logRead _ _ => 0x0501
  | .logInfo => 0x0502
  | .logSpill => 0x0503
  | .logClear => 0x0504
  | .pairStatus => 0x0601
  | .pairSwitchover _ => 0x0602
  | .pairResync => 0x0603
  | .setBegin _ _ _ => 0x0701
  | .setData _ _ => 0x0702
  | .setEnd => 0x0703
  | .setChange _ _ _ _ => 0x0704
  | .setQuery _ => 0x0705
  | .genStart _ => 0x0710
  | .genStop _ => 0x0711
  | .fwBegin _ _ => 0x0801
  | .fwData _ _ => 0x0802
  | .fwEnd => 0x0803
  | .fwSwitch _ _ => 0x0804
  | .fwStatus => 0x0805
  | .metaInject _ => 0x0901
  | .memFsp _ => 0x0A10
  | .memRetrain => 0x0A11
  | .eccInject _ _ _ => 0x0A20

/-- The parameters of a command in payload order (R261). -/
def paramBytes : CcpOp → Bytes
  | .ping d => d
  | .read a n => beBytes 4 a ++ beBytes 2 n ++ zeroBytes 2
  | .write a l => beBytes 4 a ++ beBytes 2 l.length ++ zeroBytes 2 ++ l.flatMap (beBytes 4)
  | .modify a m v => beBytes 4 a ++ beBytes 4 m ++ beBytes 4 v
  | .snapshot f l =>
    beBytes 8 f ++ beBytes 2 l.length ++ zeroBytes 2 ++ l.flatMap fun r => beBytes 4 r.1 ++ beBytes 2 r.2 ++ zeroBytes 2
  | .stageBegin n g => beBytes 4 n ++ beBytes 4 g
  | .stageData o d => beBytes 4 o ++ d
  | .stageFromReel k => beBytes 1 k ++ zeroBytes 3
  | .cut m h t0 t1 g => beBytes 1 m ++ beBytes 1 h ++ zeroBytes 2 ++ beBytes 8 t0 ++ beBytes 4 t1 ++ (g ++ zeroBytes 16).take 16
  | .reelBegin k n => beBytes 1 k ++ zeroBytes 3 ++ beBytes 4 n
  | .reelData k o d => beBytes 1 k ++ zeroBytes 3 ++ beBytes 4 o ++ d
  | .reelEnd k => beBytes 1 k ++ zeroBytes 3
  | .reelDelete k => beBytes 1 k ++ zeroBytes 3
  | .logRead a n => beBytes 4 a ++ beBytes 2 n ++ zeroBytes 2
  | .pairSwitchover f => beBytes 8 f
  | .setBegin b k n => beBytes 2 b ++ beBytes 1 k ++ zeroBytes 1 ++ beBytes 4 n
  | .setData o d => beBytes 4 o ++ d
  | .setChange b k f x => beBytes 2 b ++ beBytes 1 k ++ zeroBytes 1 ++ beBytes 8 f ++ beBytes 2 x ++ zeroBytes 2
  | .setQuery b => beBytes 2 b ++ zeroBytes 2
  | .genStart f => beBytes 8 f
  | .genStop f => beBytes 8 f
  | .fwBegin i n => beBytes 1 i ++ zeroBytes 3 ++ beBytes 4 n
  | .fwData o d => beBytes 4 o ++ d
  | .fwSwitch i f => beBytes 1 i ++ zeroBytes 3 ++ beBytes 8 f
  | .metaInject d => d
  | .memFsp t => beBytes 1 t ++ zeroBytes 3
  | .eccInject m k o => beBytes 1 m ++ beBytes 1 k ++ zeroBytes 2 ++ beBytes 4 o
  | _ => []

/-- Parameters of a fixed length, with the reserved bytes that must be 0 (R246, R261). -/
def fixedLen (b : Bytes) (n : Nat) (rsv : List (Nat × Nat)) (op : CcpOp) : Except Status CcpOp :=
  if b.length ≠ n then .error .badLength
  else if rsv.any fun r => beAt b r.1 r.2 != 0 then .error .badParam
  else .ok op

/-- Parameters of at least a length. -/
def minLen (b : Bytes) (n : Nat) (rsv : List (Nat × Nat)) (op : CcpOp) : Except Status CcpOp :=
  if b.length < n then .error .badLength
  else if rsv.any fun r => beAt b r.1 r.2 != 0 then .error .badParam
  else .ok op

/-- The command of an opcode and its parameters: BAD_OPCODE, BAD_LENGTH, or BAD_PARAM for a reserved byte (R246, R261). -/
def parseParams (code : Nat) (b : Bytes) : Except Status CcpOp :=
  match code with
  | 0x0101 => fixedLen b 0 [] .identify
  | 0x0102 => .ok (.ping b)
  | 0x0103 => fixedLen b 0 [] .time
  | 0x0201 => fixedLen b 8 [(6, 2)] (.read (beAt b 0 4) (beAt b 4 2))
  | 0x0202 =>
    let n := beAt b 4 2
    if b.length < 8 then .error .badLength
    else fixedLen b (8 + 4 * n) [(6, 2)] (.write (beAt b 0 4) ((List.range n).map fun i => beAt b (8 + 4 * i) 4))
  | 0x0203 => fixedLen b 12 [] (.modify (beAt b 0 4) (beAt b 4 4) (beAt b 8 4))
  | 0x0210 =>
    let n := beAt b 8 2
    if b.length < 12 then .error .badLength
    else fixedLen b (12 + 8 * n) ((10, 2) :: (List.range n).map fun i => (18 + 8 * i, 2))
      (.snapshot (beAt b 0 8) ((List.range n).map fun i => (beAt b (12 + 8 * i) 4, beAt b (16 + 8 * i) 2)))
  | 0x0301 => fixedLen b 8 [] (.stageBegin (beAt b 0 4) (beAt b 4 4))
  | 0x0302 => if (b.length - 4) % 16 ≠ 0 then .error .badLength else minLen b 4 [] (.stageData (beAt b 0 4) (b.drop 4))
  | 0x0303 => fixedLen b 0 [] .stageEnd
  | 0x0304 => fixedLen b 4 [(1, 3)] (.stageFromReel (beAt b 0 1))
  | 0x0305 => fixedLen b 0 [] .stageDiscard
  | 0x0306 => fixedLen b 0 [] .stageStatus
  | 0x0401 => fixedLen b 32 [(2, 2)] (.cut (beAt b 0 1) (beAt b 1 1) (beAt b 4 8) (beAt b 12 4) (sliceB b 16 16))
  | 0x0402 => fixedLen b 0 [] .cutCancel
  | 0x0410 => fixedLen b 8 [(1, 3)] (.reelBegin (beAt b 0 1) (beAt b 4 4))
  | 0x0411 => minLen b 8 [(1, 3)] (.reelData (beAt b 0 1) (beAt b 4 4) (b.drop 8))
  | 0x0412 => fixedLen b 4 [(1, 3)] (.reelEnd (beAt b 0 1))
  | 0x0413 => fixedLen b 4 [(1, 3)] (.reelDelete (beAt b 0 1))
  | 0x0414 => fixedLen b 0 [] .reelList
  | 0x0501 => fixedLen b 8 [(6, 2)] (.logRead (beAt b 0 4) (beAt b 4 2))
  | 0x0502 => fixedLen b 0 [] .logInfo
  | 0x0503 => fixedLen b 0 [] .logSpill
  | 0x0504 => fixedLen b 0 [] .logClear
  | 0x0601 => fixedLen b 0 [] .pairStatus
  | 0x0602 => fixedLen b 8 [] (.pairSwitchover (beAt b 0 8))
  | 0x0603 => fixedLen b 0 [] .pairResync
  | 0x0701 => fixedLen b 8 [(3, 1)] (.setBegin (beAt b 0 2) (beAt b 2 1) (beAt b 4 4))
  | 0x0702 => minLen b 4 [] (.setData (beAt b 0 4) (b.drop 4))
  | 0x0703 => fixedLen b 0 [] .setEnd
  | 0x0704 => fixedLen b 16 [(3, 1), (14, 2)] (.setChange (beAt b 0 2) (beAt b 2 1) (beAt b 4 8) (beAt b 12 2))
  | 0x0705 => fixedLen b 4 [(2, 2)] (.setQuery (beAt b 0 2))
  | 0x0710 => fixedLen b 8 [] (.genStart (beAt b 0 8))
  | 0x0711 => fixedLen b 8 [] (.genStop (beAt b 0 8))
  | 0x0801 => fixedLen b 8 [(1, 3)] (.fwBegin (beAt b 0 1) (beAt b 4 4))
  | 0x0802 => minLen b 4 [] (.fwData (beAt b 0 4) (b.drop 4))
  | 0x0803 => fixedLen b 0 [] .fwEnd
  | 0x0804 => fixedLen b 12 [(1, 3)] (.fwSwitch (beAt b 0 1) (beAt b 4 8))
  | 0x0805 => fixedLen b 0 [] .fwStatus
  | 0x0901 => .ok (.metaInject b)
  | 0x0A10 => fixedLen b 4 [(1, 3)] (.memFsp (beAt b 0 1))
  | 0x0A11 => fixedLen b 0 [] .memRetrain
  | 0x0A20 => fixedLen b 8 [(2, 2)] (.eccInject (beAt b 0 1) (beAt b 1 1) (beAt b 4 4))
  | _ => .error .badOpcode

/-- The header of a CCP packet (R243). -/
def ccpHeader (version flags opcode status seq plen : Nat) : Bytes :=
  beBytes 2 0x434E ++ beBytes 1 version ++ beBytes 1 flags ++ beBytes 2 opcode ++ beBytes 2 status ++ beBytes 4 seq ++
  beBytes 4 plen

/-- A packet closed by its CRC (R244). -/
def withCrc (b : Bytes) : Bytes := b ++ beBytes 4 (crc32c b)

/-- The packet a command is sent as (R243, R244); with AT the payload begins with the frame, with AUTH the authentication
block follows the payload. -/
def commandPacket (h : CcpHdr) (op : CcpOp) : Bytes :=
  let p := (if bit h.flags 1 then beBytes 8 h.f else []) ++ paramBytes op
  withCrc (ccpHeader h.version h.flags (opcodeOf op) h.status h.seq p.length ++ p ++
    (if bit h.flags 2 then beBytes 4 h.keyId ++ (h.tag ++ zeroBytes 16).take 16 else []))

/-- A packet taken apart: `body` is header and payload, over which TAG is computed (R243, R258). -/
structure CcpPkt where
  version : Nat
  flags : Nat
  opcode : Nat
  status : Nat
  seq : Nat
  payload : Bytes
  body : Bytes
  auth : Option (Nat × Bytes)
deriving DecidableEq, Repr

/-- Bytes a packet has by its header (R244). -/
def packetLen (b : Bytes) : Nat := 20 + beAt b 12 4 + (if bit (beAt b 3 1) 2 then 20 else 0)

/-- Step 1 of R246: MAGIC, PLEN, the length and the CRC. -/
def parsePacket (b : Bytes) : Option CcpPkt :=
  let n := beAt b 12 4
  if b.length < 20 ∨ beAt b 0 2 ≠ 0x434E ∨ n > 16384 ∨ b.length ≠ packetLen b ∨
    crc32c (b.take (b.length - 4)) ≠ beAt b (b.length - 4) 4 then none
  else some { version := beAt b 2 1, flags := beAt b 3 1, opcode := beAt b 4 2, status := beAt b 6 2, seq := beAt b 8 4,
              payload := sliceB b 16 n, body := b.take (16 + n),
              auth := if bit (beAt b 3 1) 2 then some (beAt b (16 + n) 4, sliceB b (20 + n) 16) else none }

end Sys2Proof.Machine
end

