-- ==== Sys2Proof/Config.lean ====
section
/-! DEFINITION. What the spec leaves open: free values without a body. Each is applied to what it may depend on, or to the
step counter `State.freeCtr`, so that nothing in Lean can evaluate it. The assumption log names each. -/

namespace Sys2Proof.Config

/-- Whether an Ed25519 signature (key, signature, message) verifies: R217 and R498 name the algorithm, whose definition lies
outside the spec (assumption 5). -/
opaque ed25519Valid : Bytes → Bytes → Bytes → Bool

/-- The 9 check bits of the SECDED(137,128) code for a codeword of 128 data bits: R404 names the code, no rule gives its matrix
(assumption 99). -/
opaque secded : BitVec 128 → BitVec 9

/-- Where a word of a channel (by channel and number) stands in the convolution SRAM, which codewords of the cluster SRAM an object's
evaluation reads as geometry tables, and where a sample of a receive entry (by entry and number) stands in the packet buffers: byte
offsets that no rule gives (assumption 101). -/
opaque convPlace : Nat → Nat → Nat
opaque geoPlaces : Nat → List Nat
opaque pktPlace : Nat → Nat → Nat

/-- A 32-bit value the spec leaves open, one per use (assumption 4). -/
opaque freeWord : Nat → BitVec 32

end Sys2Proof.Config
end

