-- ==== Sys2Proof/Machine/RegTable.lean ====
section
/-! DEFINITION. The register map: one row per register of the register tables of the chapters (R36, R67, R68, ... R512):
its BAR0 offset, how often it repeats, and its fields with access type (R8) and reset value. -/

namespace Sys2Proof.Machine

/-- The access types of R8 (reserved bits belong to no field). -/
inductive Access | rw | ro | w1c | wo | rc
deriving DecidableEq, Repr

/-- A field of a register table: bits hi down to lo, its access type and its value at reset. -/
structure FieldRow where
  hi : Nat
  lo : Nat
  acc : Access
  reset : Nat
deriving DecidableEq, Repr

/-- A row of a register table: the offset of its first copy, `count` copies `stride` apart, each of `count2` copies `stride2` apart. -/
structure RegRow where
  base : Nat
  count : Nat
  stride : Nat
  count2 : Nat
  stride2 : Nat
  fields : List FieldRow
deriving DecidableEq, Repr

/-- A field at one place of the map: the BAR0 offset of its word, its top bit and its lowest bit. -/
structure Fld where
  addr : Nat
  hi : Nat
  lo : Nat
deriving DecidableEq, Repr

/-- The same field in the copy of the register `d` bytes further on. -/
def Fld.plus (f : Fld) (d : Nat) : Fld := { f with addr := f.addr + d }

namespace Reg
def SYS_ID : Nat := 0x0
def SYS_STEP : Nat := 0x4
def SYS_DEVID_LO : Nat := 0x8
def SYS_DEVID_HI : Nat := 0xC
def SYS_RSTCAUSE : Nat := 0x20
def SYS_BOOT : Nat := 0x24
def SYS_BOOTGO : Nat := 0x28
def SYS_FRAME_LO : Nat := 0x100
def SYS_FRAME_HI : Nat := 0x104
def SYS_INDEX_LO : Nat := 0x108
def SYS_INDEX_HI : Nat := 0x10C
def SYS_COMMITSEQ : Nat := 0x110
def SYS_PIPE : Nat := 0x114
def SYS_EMITMISS : Nat := 0x118
def SYS_CKEY : Nat := 0x200
def SYS_CKEYVALID : Nat := 0x280
def CLK_CTRL : Nat := 0x10000
def CLK_STATUS : Nat := 0x10004
def CLK_POLICY : Nat := 0x10008
def CLK_PRIO : Nat := 0x1000C
def CLK_QUAL : Nat := 0x10010
def CLK_TOL : Nat := 0x10014
def CLK_LOCKTHR : Nat := 0x10018
def CLK_DCO : Nat := 0x1001C
def CLK_HOLDFREQ : Nat := 0x10020
def CLK_HOLDTIME : Nat := 0x10024
def CLK_XOOFS : Nat := 0x10028
def CLK_SPLSTEP_LO : Nat := 0x10030
def CLK_SPLSTEP_HI : Nat := 0x10034
def CLK_SPLFRAME_LO : Nat := 0x10038
def CLK_SPLFRAME_HI : Nat := 0x1003C
def CLK_SPLM : Nat := 0x10040
def CLK_SPLSUM_LO : Nat := 0x10044
def CLK_SPLSUM_HI : Nat := 0x10048
def CLK_REFCFG : Nat := 0x10050
def CLK_REFDLY : Nat := 0x10054
def CLK_OUTCFG : Nat := 0x10070
def CLK_WCLKCFG : Nat := 0x10080
def CLK_SPLICES : Nat := 0x100A0
def CLK_SWITCHES : Nat := 0x100A4
def CLK_REFFAILS : Nat := 0x100A8
def CLK_HOLDOVERS : Nat := 0x100AC
def CLK_GLITCHES : Nat := 0x100B0
def CLK_INTSTAT : Nat := 0x100C0
def CLK_INTEN : Nat := 0x100C4
def CLK_REFW0 : Nat := 0x10100
def CLK_REFW1 : Nat := 0x10104
def CLK_REFW2 : Nat := 0x10108
def CLK_REFW3 : Nat := 0x1010C
def TIME_CTRL : Nat := 0x20000
def TIME_STATUS : Nat := 0x20004
def TIME_NOW_NS : Nat := 0x20008
def TIME_NOW_SLO : Nat := 0x2000C
def TIME_NOW_SHI : Nat := 0x20010
def TIME_SET_NS : Nat := 0x20014
def TIME_SET_SLO : Nat := 0x20018
def TIME_SET_SHI : Nat := 0x2001C
def TIME_TLOFS : Nat := 0x20020
def TIME_LATEWIN : Nat := 0x20024
def TIME_STEPS : Nat := 0x20080
def TIME_TCDROP : Nat := 0x20084
def TIME_PDSKIP : Nat := 0x20088
def TIME_INTSTAT : Nat := 0x200C0
def TIME_INTEN : Nat := 0x200C4
def TIME_SVCFG : Nat := 0x20100
def TIME_KP : Nat := 0x20104
def TIME_KI : Nat := 0x20108
def TIME_FLIM : Nat := 0x2010C
def TIME_LOCKTHR : Nat := 0x20110
def TIME_STEPTHR : Nat := 0x20114
def TIME_OUTLIM : Nat := 0x20118
def TIME_TIMEOUT : Nat := 0x2011C
def TIME_PMASTER0 : Nat := 0x20120
def TIME_PMASTER1 : Nat := 0x20124
def TIME_PMASTER2 : Nat := 0x20128
def TIME_OWNID0 : Nat := 0x2012C
def TIME_OWNID1 : Nat := 0x20130
def TIME_OWNID2 : Nat := 0x20134
def TIME_MPD : Nat := 0x20138
def TIME_LINKDLY : Nat := 0x2013C
def TIME_LAT : Nat := 0x20140
def TIME_OFFSET_LO : Nat := 0x20144
def TIME_OFFSET_HI : Nat := 0x20148
def TIME_INTEG : Nat := 0x2014C
def TIME_FREQ : Nat := 0x20150
def TIME_FDIFF : Nat := 0x20154
def TIME_TCRESMAX : Nat := 0x20158
def TIME_QSTAT : Nat := 0x20200
def TIME_TSQ_W0 : Nat := 0x20204
def TIME_TSQ_W1 : Nat := 0x20208
def TIME_TSQ_W2 : Nat := 0x2020C
def TIME_TSQ_W3 : Nat := 0x20210
def TIME_SYNCOK : Nat := 0x20300
def TIME_FUMISS : Nat := 0x20304
def TIME_OUTLIER : Nat := 0x20308
def TIME_LATE : Nat := 0x2030C
def TS_OVF : Nat := 0x20310
def NET_CFG : Nat := 0x30000
def NET_STATUS : Nat := 0x30004
def NET_MAXFRAME : Nat := 0x30008
def NET_MAC_LO : Nat := 0x3000C
def NET_MAC_HI : Nat := 0x30010
def NET_IPADDR : Nat := 0x30014
def NET_IPMASK : Nat := 0x30018
def NET_GATEWAY : Nat := 0x3001C
def NET_VLAN : Nat := 0x30020
def NET_FC : Nat := 0x30024
def NET_FCTHR : Nat := 0x30028
def NET_MCHASH_LO : Nat := 0x3002C
def NET_MCHASH_HI : Nat := 0x30030
def NET_STALE : Nat := 0x30034
def NET_WAKECTRL : Nat := 0x30038
def NET_WAKESTAT : Nat := 0x3003C
def NET_RXOK : Nat := 0x30080
def NET_RUNT : Nat := 0x30084
def NET_OVERSIZE : Nat := 0x30088
def NET_TRUNC : Nat := 0x3008C
def NET_FCSERR : Nat := 0x30090
def NET_ALIGN : Nat := 0x30094
def NET_FILT : Nat := 0x30098
def NET_RXOVF : Nat := 0x3009C
def NET_CPQDROP : Nat := 0x300A0
def NET_TXOK : Nat := 0x300A4
def NET_TXDROP : Nat := 0x300A8
def NET_TXSTALE : Nat := 0x300AC
def NET_TXNORES : Nat := 0x300B0
def NET_FWDOK : Nat := 0x300B4
def NET_FWDDROP : Nat := 0x300B8
def NET_LOOP : Nat := 0x300BC
def NET_PAUSERX : Nat := 0x300C0
def NET_PAUSETX : Nat := 0x300C4
def NET_INTSTAT : Nat := 0x300E0
def NET_INTEN : Nat := 0x300E4
def NET_XMC0 : Nat := 0x30100
def NET_XMC1 : Nat := 0x30104
def NET_NB0 : Nat := 0x30200
def NET_NB1 : Nat := 0x30204
def NET_NB2 : Nat := 0x30208
def NET_WAKEMASK : Nat := 0x30400
def NET_WAKECHECK : Nat := 0x30480
def STRM_STATUS : Nat := 0x50000
def STRM_CTRL : Nat := 0x50004
def STRM_MLATE : Nat := 0x50008
def STRM_METAPEND : Nat := 0x5000C
def STRM_EXTBASE_LO : Nat := 0x50010
def STRM_EXTBASE_HI : Nat := 0x50014
def STRM_RXUNK : Nat := 0x50080
def STRM_RXBAD : Nat := 0x50084
def STRM_LOSSEP : Nat := 0x50088
def STRM_EXTMISS : Nat := 0x5008C
def STRM_METABAD : Nat := 0x50090
def STRM_METAPAST : Nat := 0x50094
def STRM_METAEARLY : Nat := 0x50098
def STRM_METASTALE : Nat := 0x5009C
def STRM_METAFULL : Nat := 0x500A0
def STRM_INTSTAT : Nat := 0x500C0
def STRM_INTEN : Nat := 0x500C4
def STRM_RX0 : Nat := 0x51000
def STRM_RX_PKTA : Nat := 0x51004
def STRM_RX_PKTB : Nat := 0x51008
def STRM_RX_GAPA : Nat := 0x5100C
def STRM_RX_GAPB : Nat := 0x51010
def STRM_RX_LOST : Nat := 0x51014
def STRM_RX6 : Nat := 0x51018
def STRM_RX7 : Nat := 0x5101C
def STRM_TX0 : Nat := 0x53000
def STRM_TX_PKTS : Nat := 0x53004
def STRM_TX_LASTTS : Nat := 0x53008
def GEOM_CTRL : Nat := 0x60000
def GEOM_STATUS : Nat := 0x60004
def GEOM_CFG : Nat := 0x60008
def GEOM_LAYOUT : Nat := 0x6000C
def GEOM_KSPM : Nat := 0x60010
def GEOM_FLOOR : Nat := 0x60014
def GEOM_EVALCAP : Nat := 0x60018
def GEOM_EVALUSED : Nat := 0x6001C
def GEOM_EVALPEAK : Nat := 0x60020
def GEOM_OBJEVAL : Nat := 0x60024
def GEOM_PATHREQ : Nat := 0x60028
def GEOM_TICKF_LO : Nat := 0x6002C
def GEOM_TICKF_HI : Nat := 0x60030
def GEOM_CLAMP : Nat := 0x60040
def GEOM_DCLAMP : Nat := 0x60044
def GEOM_GSAT : Nat := 0x60048
def GEOM_LATE : Nat := 0x6004C
def GEOM_COLLIDE : Nat := 0x60050
def GEOM_REJECT : Nat := 0x60054
def GEOM_BADSET : Nat := 0x60058
def GEOM_DEFER : Nat := 0x6005C
def GEOM_INTSTAT : Nat := 0x60060
def GEOM_INTEN : Nat := 0x60064
def GEOM_OBJ_X : Nat := 0x68000
def GEOM_OBJ_Y : Nat := 0x68004
def GEOM_OBJ_Z : Nat := 0x68008
def GEOM_OBJ_SIZE : Nat := 0x6800C
def GEOM_OBJ_GAIN : Nat := 0x68010
def GEOM_OBJ5 : Nat := 0x68014
def GEOM_OBJ7 : Nat := 0x6801C
def PATH_STATUS : Nat := 0x70000
def PATH_BUDGET : Nat := 0x70004
def PATH_RESERVE : Nat := 0x70008
def PATH_SLEW : Nat := 0x7000C
def PATH_LISTA : Nat := 0x70010
def PATH_LISTB : Nat := 0x70014
def PATH_FARBASE_LO : Nat := 0x70018
def PATH_FARBASE_HI : Nat := 0x7001C
def PATH_ADMIT : Nat := 0x70020
def PATH_SLOTUSED : Nat := 0x70024
def PATH_SLOTPEAK : Nat := 0x70028
def PATH_FARACT_LO : Nat := 0x7002C
def PATH_FARACT_HI : Nat := 0x70030
def PATH_PEBUSY : Nat := 0x70034
def PATH_OVER : Nat := 0x70080
def PATH_JUMP : Nat := 0x70084
def PATH_JUMPSTEP : Nat := 0x70088
def PATH_FADECUT : Nat := 0x7008C
def PATH_ISAT : Nat := 0x70090
def PATH_BUSSAT : Nat := 0x70094
def PATH_FARCLIP : Nat := 0x70098
def PATH_FARMISS : Nat := 0x7009C
def PATH_DOFSSAT : Nat := 0x700A0
def PATH_INTSTAT : Nat := 0x700C0
def PATH_INTEN : Nat := 0x700C4
def CONV_STATUS : Nat := 0x80000
def CONV_XFLEN : Nat := 0x80004
def CONV_BUDGET : Nat := 0x80008
def CONV_SCHED : Nat := 0x8000C
def CONV_USED : Nat := 0x80014
def CONV_PEAK : Nat := 0x8001C
def CONV_XFACT : Nat := 0x80024
def CONV_DRBASE_LO : Nat := 0x80028
def CONV_DRBASE_HI : Nat := 0x8002C
def CONV_KCOUNT_LO : Nat := 0x80030
def CONV_KCOUNT_HI : Nat := 0x80034
def CONV_ADSTEP : Nat := 0x80040
def CONV_ADCEIL : Nat := 0x80044
def CONV_ADFLOOR : Nat := 0x80048
def CONV_ADCTRL : Nat := 0x8004C
def CONV_GEN_CTRL : Nat := 0x80060
def CONV_GEN_LEVEL : Nat := 0x80064
def CONV_GEN_SEED : Nat := 0x80068
def CONV_GEN_INC0_LO : Nat := 0x8006C
def CONV_GEN_INC0_HI : Nat := 0x80070
def CONV_GEN_RATIO_LO : Nat := 0x80074
def CONV_GEN_RATIO_HI : Nat := 0x80078
def CONV_GEN_INCEND_LO : Nat := 0x8007C
def CONV_GEN_INCEND_HI : Nat := 0x80080
def CONV_CAP_CTRL : Nat := 0x80090
def CONV_CAP_START_LO : Nat := 0x80094
def CONV_CAP_START_HI : Nat := 0x80098
def CONV_GEN_MASK : Nat := 0x800C0
def CONV_OSAT : Nat := 0x80100
def CONV_MISS : Nat := 0x80104
def CONV_XFDONE : Nat := 0x80108
def CONV_XFCANCEL : Nat := 0x8010C
def CONV_BUSYREJ : Nat := 0x80110
def CONV_ADSTEPREJ : Nat := 0x80114
def CONV_ADCEILREJ : Nat := 0x80118
def CONV_ADRATEREJ : Nat := 0x8011C
def CONV_ADOK : Nat := 0x80120
def CONV_INTSTAT : Nat := 0x80140
def CONV_INTEN : Nat := 0x80144
def CONV_CH0 : Nat := 0x84000
def CONV_CH1 : Nat := 0x84004
def CONV_CH_SETID : Nat := 0x84008
def CONV_CH6 : Nat := 0x84018
def CONV_CH7 : Nat := 0x8401C
def KPU_PRESENT : Nat := 0x90000
def KPU_CLK : Nat := 0x90004
def KPU_GATE : Nat := 0x90008
def KPU_GATESTAT : Nat := 0x9000C
def KPU_FAULT : Nat := 0x90010
def KPU_SATCNT : Nat := 0x90014
def KPU_WCOLL : Nat := 0x90018
def KPU_ECCCOR : Nat := 0x9001C
def KPU_ECCUNC : Nat := 0x90020
def KPU_DIVREJ : Nat := 0x90024
def KPU_INTSTAT : Nat := 0x90040
def KPU_INTEN : Nat := 0x90044
def KPU_CORESTAT : Nat := 0x91000
def KPU_FAULTPC : Nat := 0x91004
def KPU_FAULTADDR : Nat := 0x91008
def KPU_MBOX : Nat := 0x9100C
def DISP_STATUS : Nat := 0xA0000
def DISP_CFG : Nat := 0xA0004
def DISP_CANCEL : Nat := 0xA0008
def DISP_PROG : Nat := 0xA000C
def DISP_TASKS : Nat := 0xA0010
def DISP_QCUR : Nat := 0xA0020
def DISP_QMAX : Nat := 0xA0040
def DISP_HIST : Nat := 0xA0080
def DISP_BUSY : Nat := 0xA0100
def DISP_MISSFRM : Nat := 0xA0200
def DISP_CANCEL_WAIT : Nat := 0xA0204
def DISP_CANCEL_QUEUED : Nat := 0xA0208
def DISP_CANCEL_RACE : Nat := 0xA020C
def DISP_LATE : Nat := 0xA0210
def DISP_ABORT : Nat := 0xA0214
def DISP_FAULTED : Nat := 0xA0218
def DISP_BADSIG : Nat := 0xA021C
def DISP_STALETOK : Nat := 0xA0220
def DISP_DUPTOK : Nat := 0xA0224
def DISP_SINKLATE : Nat := 0xA0228
def DISP_INTSTAT : Nat := 0xA0240
def DISP_INTEN : Nat := 0xA0244
def DISP_TASKW0 : Nat := 0xA1000
def DISP_TASKW1 : Nat := 0xA5000
def XPT_STATUS : Nat := 0xB0000
def XPT_NSEL : Nat := 0xB0004
def XPT_NGAIN : Nat := 0xB0008
def XPT_CEIL : Nat := 0xB0020
def XPT_CEILLIM : Nat := 0xB0040
def XPT_FMUTE : Nat := 0xB0044
def XPT_FMUTESET : Nat := 0xB0048
def XPT_MCTRL : Nat := 0xB0050
def XPT_MHOLD : Nat := 0xB0054
def XPT_MDECAY : Nat := 0xB0058
def XPT_NODEREJ : Nat := 0xB0080
def XPT_MONSAT : Nat := 0xB0084
def XPT_CEILHIT : Nat := 0xB0088
def XPT_HCLIP : Nat := 0xB008C
def XPT_HMUTE : Nat := 0xB0090
def XPT_FMUTECNT : Nat := 0xB0094
def XPT_INTSTAT : Nat := 0xB00A0
def XPT_INTEN : Nat := 0xB00A4
def XPT_CEILSEL : Nat := 0xB0100
def XPT_MONCFG : Nat := 0xB0400
def XPT_METER_LEVEL : Nat := 0xB2000
def XPT_METER_HOLD : Nat := 0xB2004
def XPT_METER_CLIP : Nat := 0xB2008
def TAKE_STATUS : Nat := 0xC0000
def TAKE_STAGEERR : Nat := 0xC0004
def TAKE_ACTSLATE : Nat := 0xC0008
def TAKE_ACTDIG : Nat := 0xC000C
def TAKE_STGSLATE : Nat := 0xC001C
def TAKE_STGDIG : Nat := 0xC0020
def TAKE_NEXTCUT_LO : Nat := 0xC0030
def TAKE_NEXTCUT_HI : Nat := 0xC0034
def TAKE_LASTCUT_LO : Nat := 0xC0038
def TAKE_LASTCUT_HI : Nat := 0xC003C
def TAKE_REELBASE_LO : Nat := 0xC0040
def TAKE_REELBASE_HI : Nat := 0xC0044
def TAKE_REELMAP_LO : Nat := 0xC0048
def TAKE_REELMAP_HI : Nat := 0xC004C
def TAKE_CONTGRP : Nat := 0xC0050
def TAKE_BCNCTRL : Nat := 0xC0054
def TAKE_FWCTRL : Nat := 0xC0058
def TAKE_CUTS : Nat := 0xC0080
def TAKE_HARDCUTS : Nat := 0xC0084
def TAKE_CUTREJ : Nat := 0xC0088
def TAKE_CUTABORT : Nat := 0xC008C
def TAKE_STAGEFAIL : Nat := 0xC0090
def TAKE_BCNBAD : Nat := 0xC0094
def TAKE_PEERFULL : Nat := 0xC0098
def TAKE_MISMATCH : Nat := 0xC009C
def TAKE_INTSTAT : Nat := 0xC00C0
def TAKE_INTEN : Nat := 0xC00C4
def TAKE_PEER0 : Nat := 0xC1000
def TAKE_PEER_DEVLO : Nat := 0xC1004
def TAKE_PEER_DEVHI : Nat := 0xC1008
def TAKE_PEER_ASLATE : Nat := 0xC100C
def TAKE_PEER_ADIG : Nat := 0xC1010
def TAKE_PEER_SSLATE : Nat := 0xC1014
def TAKE_PEER_NEXT : Nat := 0xC1018
def TAKE_PEER_BSEQ : Nat := 0xC101C
def TDM_STATUS : Nat := 0xD0000
def TDM_PRECUT : Nat := 0xD0004
def TDM_INTSTAT : Nat := 0xD0040
def TDM_INTEN : Nat := 0xD0044
def TDM_PCFG : Nat := 0xD0100
def TDM_MASK : Nat := 0xD0104
def TDM_PSTART : Nat := 0xD0108
def TDM_TSIDX_LO : Nat := 0xD010C
def TDM_TSIDX_HI : Nat := 0xD0110
def TDM_TSPHASE : Nat := 0xD0114
def TDM_MASKIDX : Nat := 0xD0118
def TDM_PSTATE : Nat := 0xD011C
def TDM_UNDER : Nat := 0xD0400
def TDM_OVER : Nat := 0xD0404
def TDM_ZXFORCE : Nat := 0xD0480
def DEC_CFG : Nat := 0xE0000
def DEC_INTSTAT : Nat := 0xE0040
def DEC_INTEN : Nat := 0xE0044
def DEC_SAT : Nat := 0xE0080
def DEC_CHCFG : Nat := 0xE0100
def DEC_CHDLY : Nat := 0xE0104
def DEC_CHSET : Nat := 0xE0108
def PDM_STATUS : Nat := 0xF0000
def PDM_GCFG : Nat := 0xF0010
def PDM_STRBPH : Nat := 0xF0020
def PDM_LOADMISS : Nat := 0xF0080
def PDM_LOADOVR : Nat := 0xF0084
def PDM_OVL : Nat := 0xF0088
def PDM_CLEARS : Nat := 0xF008C
def PDM_INTSTAT : Nat := 0xF00C0
def PDM_INTEN : Nat := 0xF00C4
def MEM_STATUS : Nat := 0x100000
def MEM_CFG : Nat := 0x100004
def MEM_USABLE_LO : Nat := 0x100008
def MEM_USABLE_HI : Nat := 0x10000C
def MEM_FSPREQ : Nat := 0x100010
def MEM_FSPSTAT : Nat := 0x100014
def MEM_TRAINCTRL : Nat := 0x100018
def MEM_TRAINSTAT : Nat := 0x10001C
def MEM_AGE0 : Nat := 0x100020
def MEM_AGE1 : Nat := 0x100024
def MEM_PDTIMER : Nat := 0x100028
def MEM_SRCTRL : Nat := 0x10002C
def MEM_RHTHR : Nat := 0x100030
def MEM_REFINFO : Nat := 0x100034
def MEM_C0BUDGET : Nat := 0x100038
def MEM_C0USED : Nat := 0x10003C
def MEM_C0PEAK : Nat := 0x100040
def MEM_C0MISS : Nat := 0x100080
def MEM_PROMO : Nat := 0x100084
def MEM_RHREF : Nat := 0x100088
def MEM_DEFER : Nat := 0x10008C
def MEM_SRABORT : Nat := 0x100090
def MEM_SRWAKE : Nat := 0x100094
def MEM_RMW : Nat := 0x100098
def MEM_DRIFTADJ : Nat := 0x10009C
def MEM_INTSTAT : Nat := 0x1000C0
def MEM_INTEN : Nat := 0x1000C4
def MEM_LANE0 : Nat := 0x100100
def MEM_LANE1 : Nat := 0x100104
def MEM_LANE2 : Nat := 0x100108
def FAB_STATUS : Nat := 0x110000
def FAB_DRAIN : Nat := 0x110004
def FAB_CTRL : Nat := 0x110008
def FAB_SCRUBSRAM : Nat := 0x11000C
def FAB_SCRUBDRAM : Nat := 0x110010
def FAB_UEMAX : Nat := 0x110014
def FAB_ERRINFO : Nat := 0x110020
def FAB_ERRADDR_LO : Nat := 0x110024
def FAB_ERRADDR_HI : Nat := 0x110028
def FAB_ERRFRAME_LO : Nat := 0x11002C
def FAB_ERRFRAME_HI : Nat := 0x110030
def FAB_DECERR : Nat := 0x110080
def FAB_PARERR : Nat := 0x110084
def FAB_DRAINS : Nat := 0x110088
def FAB_INTSTAT : Nat := 0x1100C0
def FAB_INTEN : Nat := 0x1100C4
def FAB_ECCCOR : Nat := 0x110100
def FAB_ECCUNC : Nat := 0x110104
def FAB_WIN0 : Nat := 0x111000
def FAB_WIN1 : Nat := 0x111004
def FAB_WIN2 : Nat := 0x111008
def FAB_WIN3 : Nat := 0x11100C
def FAB_PRIO_LO : Nat := 0x111200
def FAB_PRIO_HI : Nat := 0x111204
def FAB_SLICE : Nat := 0x111208
def FAB_MSTAT : Nat := 0x11120C
def PAIR_CFG : Nat := 0x120000
def PAIR_STATUS : Nat := 0x120004
def PAIR_CTRL : Nat := 0x120008
def PAIR_KEY : Nat := 0x12000C
def PAIR_NETGRP : Nat := 0x120010
def PAIR_NETPORT : Nat := 0x120014
def PAIR_EVIDMS : Nat := 0x120018
def PAIR_LEAD : Nat := 0x12001C
def PAIR_KSETTLE : Nat := 0x120020
def PAIR_DIVMAX : Nat := 0x120024
def PAIR_RSTIMEOUT : Nat := 0x120028
def PAIR_SETTLE : Nat := 0x12002C
def PAIR_MATCHRUN : Nat := 0x120030
def PAIR_ACTFRAME_LO : Nat := 0x120034
def PAIR_ACTFRAME_HI : Nat := 0x120038
def PAIR_OWNDIG : Nat := 0x12003C
def PAIR_PEERDIG : Nat := 0x120040
def PAIR_PHASE : Nat := 0x120044
def PAIR_PCLAPMISS : Nat := 0x120080
def PAIR_NCLAPMISS : Nat := 0x120084
def PAIR_CRCERR : Nat := 0x120088
def PAIR_DIVFRM : Nat := 0x12008C
def PAIR_TAKEOVERS : Nat := 0x120090
def PAIR_SETDIFF : Nat := 0x120094
def PAIR_LINKDOWN : Nat := 0x120098
def PAIR_INTSTAT : Nat := 0x1200C0
def PAIR_INTEN : Nat := 0x1200C4
def LOG_STATUS : Nat := 0x130000
def LOG_HEAD : Nat := 0x130004
def LOG_FIRST : Nat := 0x130008
def LOG_LOST : Nat := 0x13000C
def LOG_CTRL : Nat := 0x130010
def LOG_HOURS : Nat := 0x130014
def LOG_PCYC : Nat := 0x130018
def LOG_MIRSEQ : Nat := 0x13001C
def LOG_RDSEQ : Nat := 0x130020
def LOG_RDSTAT : Nat := 0x130024
def LOG_INTSTAT : Nat := 0x1300C0
def LOG_INTEN : Nat := 0x1300C4
def LOG_RDDATA : Nat := 0x130100
def LOG_SPILL : Nat := 0x130200
def PWR_STATUS : Nat := 0x140000
def PWR_SEQSTAT : Nat := 0x140004
def PWR_SEQTO : Nat := 0x140008
def PWR_TWARN : Nat := 0x14000C
def PWR_DARK : Nat := 0x140010
def PWR_WAKECFG : Nat := 0x140014
def PWR_WAKECAUSE : Nat := 0x140018
def PWR_WDT : Nat := 0x14001C
def PWR_LASTSHUT : Nat := 0x140020
def PWR_PMBCMD : Nat := 0x140024
def PWR_PMBDATA : Nat := 0x140028
def PWR_PMBSTAT : Nat := 0x14002C
def PWR_RAILMV : Nat := 0x140040
def PWR_TEMP : Nat := 0x140080
def PWR_UVCNT : Nat := 0x1400A0
def PWR_WARNCNT : Nat := 0x1400A4
def PWR_WDT1CNT : Nat := 0x1400A8
def PWR_INTSTAT : Nat := 0x1400C0
def PWR_INTEN : Nat := 0x1400C4
def HOST_STATUS : Nat := 0x150000
def HOST_PCIID : Nat := 0x150004
def HOST_CMDHEAD : Nat := 0x150010
def HOST_CMDTAIL : Nat := 0x150014
def HOST_RPLHEAD : Nat := 0x150018
def HOST_RPLTAIL : Nat := 0x15001C
def HOST_CAUSE : Nat := 0x150020
def HOST_CAUSEEN : Nat := 0x150024
def HOST_QUEUES : Nat := 0x150028
def HOST_INTSTAT : Nat := 0x150040
def HOST_INTEN : Nat := 0x150044
def HOST_BADCRC : Nat := 0x150080
def HOST_AUTHFAIL : Nat := 0x150084
def HOST_RETRY : Nat := 0x150088
def HOST_DUP : Nat := 0x15008C
def HOST_QFULL : Nat := 0x150090
def HOST_SPIOVF : Nat := 0x150094
def HOST_SPIBAD : Nat := 0x150098
def HOST_PARTWR : Nat := 0x15009C
def HOST_CMDS : Nat := 0x1500A0
end Reg

namespace F
def SYS_ID_ID : Fld := ⟨0x0, 31, 0⟩
def SYS_STEP_LETTER : Fld := ⟨0x4, 7, 4⟩
def SYS_STEP_DIGIT : Fld := ⟨0x4, 3, 0⟩
def SYS_DEVID_LO_DEVID_LO : Fld := ⟨0x8, 31, 0⟩
def SYS_DEVID_HI_DEVID_HI : Fld := ⟨0xC, 31, 0⟩
def SYS_RSTCAUSE_CAUSE : Fld := ⟨0x20, 3, 0⟩
def SYS_BOOT_MODE : Fld := ⟨0x24, 9, 8⟩
def SYS_BOOT_FALLBACK : Fld := ⟨0x24, 5, 5⟩
def SYS_BOOT_IMAGE : Fld := ⟨0x24, 4, 4⟩
def SYS_BOOT_ROOTKEY : Fld := ⟨0x24, 1, 0⟩
def SYS_BOOTGO_GO : Fld := ⟨0x28, 0, 0⟩
def SYS_FRAME_LO_FRAME_LO : Fld := ⟨0x100, 31, 0⟩
def SYS_FRAME_HI_FRAME_HI : Fld := ⟨0x104, 27, 0⟩
def SYS_INDEX_LO_INDEX_LO : Fld := ⟨0x108, 31, 0⟩
def SYS_INDEX_HI_INDEX_HI : Fld := ⟨0x10C, 31, 0⟩
def SYS_COMMITSEQ_SEQ : Fld := ⟨0x110, 31, 0⟩
def SYS_PIPE_LATENCY : Fld := ⟨0x114, 15, 8⟩
def SYS_PIPE_FAMILY : Fld := ⟨0x114, 7, 7⟩
def SYS_PIPE_RATE : Fld := ⟨0x114, 6, 4⟩
def SYS_PIPE_DEPTH : Fld := ⟨0x114, 1, 0⟩
def SYS_EMITMISS_COUNT : Fld := ⟨0x118, 31, 0⟩
def SYS_CKEY_KEY : Fld := ⟨0x200, 31, 0⟩
def SYS_CKEYVALID_VALID : Fld := ⟨0x280, 3, 0⟩
def CLK_CTRL_FORCEHOLD : Fld := ⟨0x10000, 1, 1⟩
def CLK_CTRL_XOCLR : Fld := ⟨0x10000, 0, 0⟩
def CLK_STATUS_HIST : Fld := ⟨0x10004, 31, 24⟩
def CLK_STATUS_XOSUSPECT : Fld := ⟨0x10004, 19, 19⟩
def CLK_STATUS_VOTE : Fld := ⟨0x10004, 18, 17⟩
def CLK_STATUS_FASTLOCK : Fld := ⟨0x10004, 16, 16⟩
def CLK_STATUS_LOCK : Fld := ⟨0x10004, 10, 10⟩
def CLK_STATUS_REF_SEL : Fld := ⟨0x10004, 6, 4⟩
def CLK_STATUS_REF_STATE : Fld := ⟨0x10004, 2, 0⟩
def CLK_POLICY_FASTLOCK : Fld := ⟨0x10008, 9, 9⟩
def CLK_POLICY_REVERT : Fld := ⟨0x10008, 8, 8⟩
def CLK_POLICY_BW : Fld := ⟨0x10008, 4, 0⟩
def CLK_PRIO_ENTRY : Fld := ⟨0x1000C, 17, 0⟩
def CLK_QUAL_WTR : Fld := ⟨0x10010, 27, 16⟩
def CLK_QUAL_QUAL : Fld := ⟨0x10010, 9, 0⟩
def CLK_TOL_PPB : Fld := ⟨0x10014, 17, 0⟩
def CLK_LOCKTHR_NS : Fld := ⟨0x10018, 16, 0⟩
def CLK_DCO_DCO : Fld := ⟨0x1001C, 31, 0⟩
def CLK_HOLDFREQ_DCO : Fld := ⟨0x10020, 31, 0⟩
def CLK_HOLDTIME_S : Fld := ⟨0x10024, 31, 0⟩
def CLK_XOOFS_PPB : Fld := ⟨0x10028, 31, 0⟩
def CLK_SPLSTEP_LO_NS : Fld := ⟨0x10030, 31, 0⟩
def CLK_SPLSTEP_HI_NS : Fld := ⟨0x10034, 31, 0⟩
def CLK_SPLFRAME_LO_FRAME : Fld := ⟨0x10038, 31, 0⟩
def CLK_SPLFRAME_HI_FRAME : Fld := ⟨0x1003C, 27, 0⟩
def CLK_SPLM_M : Fld := ⟨0x10040, 31, 0⟩
def CLK_SPLSUM_LO_Z : Fld := ⟨0x10044, 31, 0⟩
def CLK_SPLSUM_HI_Z : Fld := ⟨0x10048, 31, 0⟩
def CLK_REFCFG_SRC : Fld := ⟨0x10050, 12, 8⟩
def CLK_REFCFG_POL : Fld := ⟨0x10050, 4, 4⟩
def CLK_REFCFG_TYPE : Fld := ⟨0x10050, 2, 0⟩
def CLK_REFDLY_NS : Fld := ⟨0x10054, 31, 0⟩
def CLK_OUTCFG_EN : Fld := ⟨0x10070, 31, 31⟩
def CLK_OUTCFG_SQUELCH : Fld := ⟨0x10070, 30, 30⟩
def CLK_OUTCFG_SEL : Fld := ⟨0x10070, 2, 0⟩
def CLK_WCLKCFG_EN : Fld := ⟨0x10080, 31, 31⟩
def CLK_WCLKCFG_SQUELCH : Fld := ⟨0x10080, 30, 30⟩
def CLK_WCLKCFG_POL : Fld := ⟨0x10080, 0, 0⟩
def CLK_SPLICES_COUNT : Fld := ⟨0x100A0, 31, 0⟩
def CLK_SWITCHES_COUNT : Fld := ⟨0x100A4, 31, 0⟩
def CLK_REFFAILS_COUNT : Fld := ⟨0x100A8, 31, 0⟩
def CLK_HOLDOVERS_COUNT : Fld := ⟨0x100AC, 31, 0⟩
def CLK_GLITCHES_COUNT : Fld := ⟨0x100B0, 31, 0⟩
def CLK_INTSTAT_BITS : Fld := ⟨0x100C0, 5, 0⟩
def CLK_INTEN_BITS : Fld := ⟨0x100C4, 5, 0⟩
def CLK_REFW0_RSTATE : Fld := ⟨0x10100, 31, 29⟩
def CLK_REFW0_CAUSE : Fld := ⟨0x10100, 28, 26⟩
def CLK_REFW0_OWED : Fld := ⟨0x10100, 25, 25⟩
def CLK_REFW0_TIMER : Fld := ⟨0x10100, 11, 0⟩
def CLK_REFW1_FREQ : Fld := ⟨0x10104, 31, 0⟩
def CLK_REFW2_DEV : Fld := ⟨0x10108, 31, 0⟩
def CLK_REFW3_PHASE : Fld := ⟨0x1010C, 31, 0⟩
def TIME_CTRL_SET : Fld := ⟨0x20000, 8, 8⟩
def TIME_CTRL_PDRESP : Fld := ⟨0x20000, 7, 6⟩
def TIME_CTRL_TCMODE : Fld := ⟨0x20000, 5, 4⟩
def TIME_CTRL_STEPEN : Fld := ⟨0x20000, 2, 2⟩
def TIME_CTRL_SERVOEN : Fld := ⟨0x20000, 1, 0⟩
def TIME_STATUS_SETPEND : Fld := ⟨0x20004, 9, 9⟩
def TIME_STATUS_STEERB : Fld := ⟨0x20004, 8, 8⟩
def TIME_STATUS_STEERA : Fld := ⟨0x20004, 7, 7⟩
def TIME_STATUS_SERVOB : Fld := ⟨0x20004, 6, 4⟩
def TIME_STATUS_SERVOA : Fld := ⟨0x20004, 2, 0⟩
def TIME_NOW_NS_NS : Fld := ⟨0x20008, 31, 0⟩
def TIME_NOW_SLO_S_LO : Fld := ⟨0x2000C, 31, 0⟩
def TIME_NOW_SHI_S_HI : Fld := ⟨0x20010, 15, 0⟩
def TIME_SET_NS_NS : Fld := ⟨0x20014, 31, 0⟩
def TIME_SET_SLO_S_LO : Fld := ⟨0x20018, 31, 0⟩
def TIME_SET_SHI_S_HI : Fld := ⟨0x2001C, 15, 0⟩
def TIME_TLOFS_SAMPLES : Fld := ⟨0x20020, 31, 0⟩
def TIME_LATEWIN_US : Fld := ⟨0x20024, 19, 0⟩
def TIME_STEPS_COUNT : Fld := ⟨0x20080, 31, 0⟩
def TIME_TCDROP_COUNT : Fld := ⟨0x20084, 31, 0⟩
def TIME_PDSKIP_COUNT : Fld := ⟨0x20088, 31, 0⟩
def TIME_INTSTAT_BITS : Fld := ⟨0x200C0, 6, 0⟩
def TIME_INTEN_BITS : Fld := ⟨0x200C4, 6, 0⟩
def TIME_SVCFG_OUTMAX : Fld := ⟨0x20100, 15, 8⟩
def TIME_SVCFG_DOMAIN : Fld := ⟨0x20100, 7, 0⟩
def TIME_KP_GAIN : Fld := ⟨0x20104, 31, 0⟩
def TIME_KI_GAIN : Fld := ⟨0x20108, 31, 0⟩
def TIME_FLIM_PPB : Fld := ⟨0x2010C, 17, 0⟩
def TIME_LOCKTHR_NS : Fld := ⟨0x20110, 19, 0⟩
def TIME_STEPTHR_NS : Fld := ⟨0x20114, 29, 0⟩
def TIME_OUTLIM_NS : Fld := ⟨0x20118, 19, 0⟩
def TIME_TIMEOUT_MS : Fld := ⟨0x2011C, 15, 0⟩
def TIME_PMASTER0_PORTID : Fld := ⟨0x20120, 31, 0⟩
def TIME_PMASTER1_PORTID : Fld := ⟨0x20124, 31, 0⟩
def TIME_PMASTER2_PORTID : Fld := ⟨0x20128, 15, 0⟩
def TIME_OWNID0_PORTID : Fld := ⟨0x2012C, 31, 0⟩
def TIME_OWNID1_PORTID : Fld := ⟨0x20130, 31, 0⟩
def TIME_OWNID2_PORTID : Fld := ⟨0x20134, 15, 0⟩
def TIME_MPD_QNS : Fld := ⟨0x20138, 31, 0⟩
def TIME_LINKDLY_QNS : Fld := ⟨0x2013C, 31, 0⟩
def TIME_LAT_TXLAT : Fld := ⟨0x20140, 31, 16⟩
def TIME_LAT_RXLAT : Fld := ⟨0x20140, 15, 0⟩
def TIME_OFFSET_LO_QNS : Fld := ⟨0x20144, 31, 0⟩
def TIME_OFFSET_HI_QNS : Fld := ⟨0x20148, 31, 0⟩
def TIME_INTEG_I : Fld := ⟨0x2014C, 31, 0⟩
def TIME_FREQ_Y : Fld := ⟨0x20150, 31, 0⟩
def TIME_FDIFF_F : Fld := ⟨0x20154, 31, 0⟩
def TIME_TCRESMAX_QNS : Fld := ⟨0x20158, 31, 0⟩
def TIME_QSTAT_TSQ : Fld := ⟨0x20200, 22, 16⟩
def TIME_QSTAT_LQ : Fld := ⟨0x20200, 6, 0⟩
def TIME_TSQ_W0_VALID : Fld := ⟨0x20204, 31, 31⟩
def TIME_TSQ_W0_PORT : Fld := ⟨0x20204, 30, 30⟩
def TIME_TSQ_W0_TAG : Fld := ⟨0x20204, 15, 0⟩
def TIME_TSQ_W1_STAMP : Fld := ⟨0x20208, 31, 0⟩
def TIME_TSQ_W2_STAMP : Fld := ⟨0x2020C, 31, 0⟩
def TIME_TSQ_W3_STAMP : Fld := ⟨0x20210, 31, 0⟩
def TIME_SYNCOK_COUNT : Fld := ⟨0x20300, 31, 0⟩
def TIME_FUMISS_COUNT : Fld := ⟨0x20304, 31, 0⟩
def TIME_OUTLIER_COUNT : Fld := ⟨0x20308, 31, 0⟩
def TIME_LATE_COUNT : Fld := ⟨0x2030C, 31, 0⟩
def TS_OVF_COUNT : Fld := ⟨0x20310, 31, 0⟩
def NET_CFG_PORTMODE : Fld := ⟨0x30000, 8, 8⟩
def NET_CFG_ALLMULTI : Fld := ⟨0x30000, 7, 7⟩
def NET_CFG_TXTAG : Fld := ⟨0x30000, 6, 6⟩
def NET_CFG_VLANFILT : Fld := ⟨0x30000, 5, 5⟩
def NET_CFG_DELIVER_BAD : Fld := ⟨0x30000, 4, 4⟩
def NET_CFG_AN : Fld := ⟨0x30000, 3, 3⟩
def NET_CFG_PCS : Fld := ⟨0x30000, 2, 0⟩
def NET_STATUS_PAUSED : Fld := ⟨0x30004, 8, 8⟩
def NET_STATUS_XOFF : Fld := ⟨0x30004, 7, 7⟩
def NET_STATUS_RFAULT : Fld := ⟨0x30004, 6, 6⟩
def NET_STATUS_LFAULT : Fld := ⟨0x30004, 5, 5⟩
def NET_STATUS_ANDONE : Fld := ⟨0x30004, 4, 4⟩
def NET_STATUS_SPEED : Fld := ⟨0x30004, 3, 1⟩
def NET_STATUS_LINK : Fld := ⟨0x30004, 0, 0⟩
def NET_MAXFRAME_M : Fld := ⟨0x30008, 13, 0⟩
def NET_MAC_LO_MAC_LO : Fld := ⟨0x3000C, 31, 0⟩
def NET_MAC_HI_MAC_HI : Fld := ⟨0x30010, 15, 0⟩
def NET_IPADDR_ADDR : Fld := ⟨0x30014, 31, 0⟩
def NET_IPMASK_MASK : Fld := ⟨0x30018, 31, 0⟩
def NET_GATEWAY_ADDR : Fld := ⟨0x3001C, 31, 0⟩
def NET_VLAN_PCP0 : Fld := ⟨0x30020, 30, 28⟩
def NET_VLAN_PCP1 : Fld := ⟨0x30020, 26, 24⟩
def NET_VLAN_PCP3 : Fld := ⟨0x30020, 22, 20⟩
def NET_VLAN_VID : Fld := ⟨0x30020, 11, 0⟩
def NET_FC_QUANTA : Fld := ⟨0x30024, 31, 16⟩
def NET_FC_PFCPRI : Fld := ⟨0x30024, 15, 8⟩
def NET_FC_TXPFC : Fld := ⟨0x30024, 3, 3⟩
def NET_FC_TXPAUSE : Fld := ⟨0x30024, 2, 2⟩
def NET_FC_RXPFC : Fld := ⟨0x30024, 1, 1⟩
def NET_FC_RXPAUSE : Fld := ⟨0x30024, 0, 0⟩
def NET_FCTHR_XOFF : Fld := ⟨0x30028, 31, 16⟩
def NET_FCTHR_XON : Fld := ⟨0x30028, 15, 0⟩
def NET_MCHASH_LO_HASH : Fld := ⟨0x3002C, 31, 0⟩
def NET_MCHASH_HI_HASH : Fld := ⟨0x30030, 31, 0⟩
def NET_STALE_US : Fld := ⟨0x30034, 15, 0⟩
def NET_WAKECTRL_LINKWAKE : Fld := ⟨0x30038, 8, 8⟩
def NET_WAKECTRL_PATEN : Fld := ⟨0x30038, 7, 0⟩
def NET_WAKESTAT_LINK : Fld := ⟨0x3003C, 8, 8⟩
def NET_WAKESTAT_PAT : Fld := ⟨0x3003C, 7, 0⟩
def NET_RXOK_COUNT : Fld := ⟨0x30080, 31, 0⟩
def NET_RUNT_COUNT : Fld := ⟨0x30084, 31, 0⟩
def NET_OVERSIZE_COUNT : Fld := ⟨0x30088, 31, 0⟩
def NET_TRUNC_COUNT : Fld := ⟨0x3008C, 31, 0⟩
def NET_FCSERR_COUNT : Fld := ⟨0x30090, 31, 0⟩
def NET_ALIGN_COUNT : Fld := ⟨0x30094, 31, 0⟩
def NET_FILT_COUNT : Fld := ⟨0x30098, 31, 0⟩
def NET_RXOVF_COUNT : Fld := ⟨0x3009C, 31, 0⟩
def NET_CPQDROP_COUNT : Fld := ⟨0x300A0, 31, 0⟩
def NET_TXOK_COUNT : Fld := ⟨0x300A4, 31, 0⟩
def NET_TXDROP_COUNT : Fld := ⟨0x300A8, 31, 0⟩
def NET_TXSTALE_COUNT : Fld := ⟨0x300AC, 31, 0⟩
def NET_TXNORES_COUNT : Fld := ⟨0x300B0, 31, 0⟩
def NET_FWDOK_COUNT : Fld := ⟨0x300B4, 31, 0⟩
def NET_FWDDROP_COUNT : Fld := ⟨0x300B8, 31, 0⟩
def NET_LOOP_COUNT : Fld := ⟨0x300BC, 31, 0⟩
def NET_PAUSERX_COUNT : Fld := ⟨0x300C0, 31, 0⟩
def NET_PAUSETX_COUNT : Fld := ⟨0x300C4, 31, 0⟩
def NET_INTSTAT_BITS : Fld := ⟨0x300E0, 7, 0⟩
def NET_INTEN_BITS : Fld := ⟨0x300E4, 7, 0⟩
def NET_XMC0_MAC_LO : Fld := ⟨0x30100, 31, 0⟩
def NET_XMC1_VALID : Fld := ⟨0x30104, 31, 31⟩
def NET_XMC1_MAC_HI : Fld := ⟨0x30104, 15, 0⟩
def NET_NB0_IP : Fld := ⟨0x30200, 31, 0⟩
def NET_NB1_MAC_LO : Fld := ⟨0x30204, 31, 0⟩
def NET_NB2_VALID : Fld := ⟨0x30208, 31, 31⟩
def NET_NB2_MAC_HI : Fld := ⟨0x30208, 15, 0⟩
def NET_WAKEMASK_MASK : Fld := ⟨0x30400, 31, 0⟩
def NET_WAKECHECK_CHECK : Fld := ⟨0x30480, 15, 0⟩
def STRM_STATUS_NRX : Fld := ⟨0x50000, 24, 16⟩
def STRM_STATUS_NTX : Fld := ⟨0x50000, 15, 8⟩
def STRM_STATUS_TXON : Fld := ⟨0x50000, 1, 1⟩
def STRM_STATUS_ACTIVE : Fld := ⟨0x50000, 0, 0⟩
def STRM_CTRL_UDPCHK : Fld := ⟨0x50004, 0, 0⟩
def STRM_MLATE_FRAMES : Fld := ⟨0x50008, 7, 0⟩
def STRM_METAPEND_ENTRIES : Fld := ⟨0x5000C, 13, 0⟩
def STRM_EXTBASE_LO_BASE_LO : Fld := ⟨0x50010, 31, 20⟩
def STRM_EXTBASE_HI_BASE_HI : Fld := ⟨0x50014, 7, 0⟩
def STRM_RXUNK_COUNT : Fld := ⟨0x50080, 31, 0⟩
def STRM_RXBAD_COUNT : Fld := ⟨0x50084, 31, 0⟩
def STRM_LOSSEP_COUNT : Fld := ⟨0x50088, 31, 0⟩
def STRM_EXTMISS_COUNT : Fld := ⟨0x5008C, 31, 0⟩
def STRM_METABAD_COUNT : Fld := ⟨0x50090, 31, 0⟩
def STRM_METAPAST_COUNT : Fld := ⟨0x50094, 31, 0⟩
def STRM_METAEARLY_COUNT : Fld := ⟨0x50098, 31, 0⟩
def STRM_METASTALE_COUNT : Fld := ⟨0x5009C, 31, 0⟩
def STRM_METAFULL_COUNT : Fld := ⟨0x500A0, 31, 0⟩
def STRM_INTSTAT_BITS : Fld := ⟨0x500C0, 4, 0⟩
def STRM_INTEN_BITS : Fld := ⟨0x500C4, 4, 0⟩
def STRM_RX0_STATE : Fld := ⟨0x51000, 31, 29⟩
def STRM_RX0_LEGA : Fld := ⟨0x51000, 28, 28⟩
def STRM_RX0_LEGB : Fld := ⟨0x51000, 27, 27⟩
def STRM_RX0_LASTSEQ : Fld := ⟨0x51000, 15, 0⟩
def STRM_RX_PKTA_PKTA : Fld := ⟨0x51004, 31, 0⟩
def STRM_RX_PKTB_PKTB : Fld := ⟨0x51008, 31, 0⟩
def STRM_RX_GAPA_GAPA : Fld := ⟨0x5100C, 31, 0⟩
def STRM_RX_GAPB_GAPB : Fld := ⟨0x51010, 31, 0⟩
def STRM_RX_LOST_LOST : Fld := ⟨0x51014, 31, 0⟩
def STRM_RX6_LATE : Fld := ⟨0x51018, 31, 16⟩
def STRM_RX6_EARLY : Fld := ⟨0x51018, 15, 0⟩
def STRM_RX7_PDMAX : Fld := ⟨0x5101C, 31, 16⟩
def STRM_RX7_FMTERR : Fld := ⟨0x5101C, 15, 0⟩
def STRM_TX0_PRESENT : Fld := ⟨0x53000, 31, 31⟩
def STRM_TX0_SENDING : Fld := ⟨0x53000, 30, 30⟩
def STRM_TX0_NEXTSEQ : Fld := ⟨0x53000, 15, 0⟩
def STRM_TX_PKTS_PKTS : Fld := ⟨0x53004, 31, 0⟩
def STRM_TX_LASTTS_LASTTS : Fld := ⟨0x53008, 31, 0⟩
def GEOM_CTRL_FORCE : Fld := ⟨0x60000, 1, 1⟩
def GEOM_CTRL_FREEZE : Fld := ⟨0x60000, 0, 0⟩
def GEOM_STATUS_OVERRUN : Fld := ⟨0x60004, 2, 2⟩
def GEOM_STATUS_FROZEN : Fld := ⟨0x60004, 1, 1⟩
def GEOM_STATUS_ACTIVE : Fld := ⟨0x60004, 0, 0⟩
def GEOM_CFG_TICK : Fld := ⟨0x60008, 1, 0⟩
def GEOM_LAYOUT_TRIS : Fld := ⟨0x6000C, 31, 20⟩
def GEOM_LAYOUT_SPEAKERS : Fld := ⟨0x6000C, 19, 10⟩
def GEOM_LAYOUT_CSETS : Fld := ⟨0x6000C, 9, 0⟩
def GEOM_KSPM_K : Fld := ⟨0x60010, 31, 0⟩
def GEOM_FLOOR_FLOOR : Fld := ⟨0x60014, 23, 0⟩
def GEOM_EVALCAP_UNITS : Fld := ⟨0x60018, 19, 0⟩
def GEOM_EVALUSED_UNITS : Fld := ⟨0x6001C, 19, 0⟩
def GEOM_EVALPEAK_UNITS : Fld := ⟨0x60020, 19, 0⟩
def GEOM_OBJEVAL_COUNT : Fld := ⟨0x60024, 10, 0⟩
def GEOM_PATHREQ_COUNT : Fld := ⟨0x60028, 19, 0⟩
def GEOM_TICKF_LO_FRAME_LO : Fld := ⟨0x6002C, 31, 0⟩
def GEOM_TICKF_HI_FRAME_HI : Fld := ⟨0x60030, 27, 0⟩
def GEOM_CLAMP_COUNT : Fld := ⟨0x60040, 31, 0⟩
def GEOM_DCLAMP_COUNT : Fld := ⟨0x60044, 31, 0⟩
def GEOM_GSAT_COUNT : Fld := ⟨0x60048, 31, 0⟩
def GEOM_LATE_COUNT : Fld := ⟨0x6004C, 31, 0⟩
def GEOM_COLLIDE_COUNT : Fld := ⟨0x60050, 31, 0⟩
def GEOM_REJECT_COUNT : Fld := ⟨0x60054, 31, 0⟩
def GEOM_BADSET_COUNT : Fld := ⟨0x60058, 31, 0⟩
def GEOM_DEFER_COUNT : Fld := ⟨0x6005C, 31, 0⟩
def GEOM_INTSTAT_BITS : Fld := ⟨0x60060, 7, 0⟩
def GEOM_INTEN_BITS : Fld := ⟨0x60064, 7, 0⟩
def GEOM_OBJ_X_X : Fld := ⟨0x68000, 31, 0⟩
def GEOM_OBJ_Y_Y : Fld := ⟨0x68004, 31, 0⟩
def GEOM_OBJ_Z_Z : Fld := ⟨0x68008, 31, 0⟩
def GEOM_OBJ_SIZE_SIZE : Fld := ⟨0x6800C, 17, 0⟩
def GEOM_OBJ_GAIN_GAIN : Fld := ⟨0x68010, 23, 0⟩
def GEOM_OBJ5_ENABLE : Fld := ⟨0x68014, 31, 31⟩
def GEOM_OBJ5_DOPPLER : Fld := ⟨0x68014, 30, 30⟩
def GEOM_OBJ5_FOCUS : Fld := ⟨0x68014, 29, 29⟩
def GEOM_OBJ5_FAR : Fld := ⟨0x68014, 28, 28⟩
def GEOM_OBJ5_MODE : Fld := ⟨0x68014, 25, 24⟩
def GEOM_OBJ5_PRIORITY : Fld := ⟨0x68014, 23, 16⟩
def GEOM_OBJ5_CSET : Fld := ⟨0x68014, 15, 8⟩
def GEOM_OBJ5_FARSLOT : Fld := ⟨0x68014, 5, 0⟩
def GEOM_OBJ7_EVAL : Fld := ⟨0x6801C, 31, 31⟩
def GEOM_OBJ7_DEFERRED : Fld := ⟨0x6801C, 30, 30⟩
def GEOM_OBJ7_LATE : Fld := ⟨0x6801C, 29, 29⟩
def GEOM_OBJ7_CLAMPED : Fld := ⟨0x6801C, 28, 28⟩
def GEOM_OBJ7_PATHS : Fld := ⟨0x6801C, 9, 0⟩
def PATH_STATUS_ACTIVE : Fld := ⟨0x70000, 5, 5⟩
def PATH_STATUS_OVERLOAD : Fld := ⟨0x70000, 4, 4⟩
def PATH_STATUS_PEPRESENT : Fld := ⟨0x70000, 3, 0⟩
def PATH_BUDGET_SLOTS : Fld := ⟨0x70004, 19, 0⟩
def PATH_RESERVE_SLOTS : Fld := ⟨0x70008, 19, 0⟩
def PATH_SLEW_S : Fld := ⟨0x7000C, 14, 0⟩
def PATH_LISTA_OFS : Fld := ⟨0x70010, 22, 0⟩
def PATH_LISTB_OFS : Fld := ⟨0x70014, 22, 0⟩
def PATH_FARBASE_LO_BASE_LO : Fld := ⟨0x70018, 31, 20⟩
def PATH_FARBASE_HI_BASE_HI : Fld := ⟨0x7001C, 7, 0⟩
def PATH_ADMIT_COUNT : Fld := ⟨0x70020, 19, 0⟩
def PATH_SLOTUSED_SLOTS : Fld := ⟨0x70024, 19, 0⟩
def PATH_SLOTPEAK_SLOTS : Fld := ⟨0x70028, 19, 0⟩
def PATH_FARACT_LO_SLOTS : Fld := ⟨0x7002C, 31, 0⟩
def PATH_FARACT_HI_SLOTS : Fld := ⟨0x70030, 31, 0⟩
def PATH_PEBUSY_CYCLES : Fld := ⟨0x70034, 17, 0⟩
def PATH_OVER_COUNT : Fld := ⟨0x70080, 31, 0⟩
def PATH_JUMP_COUNT : Fld := ⟨0x70084, 31, 0⟩
def PATH_JUMPSTEP_COUNT : Fld := ⟨0x70088, 31, 0⟩
def PATH_FADECUT_COUNT : Fld := ⟨0x7008C, 31, 0⟩
def PATH_ISAT_COUNT : Fld := ⟨0x70090, 31, 0⟩
def PATH_BUSSAT_COUNT : Fld := ⟨0x70094, 31, 0⟩
def PATH_FARCLIP_COUNT : Fld := ⟨0x70098, 31, 0⟩
def PATH_FARMISS_COUNT : Fld := ⟨0x7009C, 31, 0⟩
def PATH_DOFSSAT_COUNT : Fld := ⟨0x700A0, 31, 0⟩
def PATH_INTSTAT_BITS : Fld := ⟨0x700C0, 7, 0⟩
def PATH_INTEN_BITS : Fld := ⟨0x700C4, 7, 0⟩
def CONV_STATUS_GENRUN : Fld := ⟨0x80000, 4, 4⟩
def CONV_STATUS_CAPRUN : Fld := ⟨0x80000, 3, 3⟩
def CONV_STATUS_ACTIVE : Fld := ⟨0x80000, 2, 2⟩
def CONV_STATUS_PRESENT : Fld := ⟨0x80000, 1, 0⟩
def CONV_XFLEN_FRAMES : Fld := ⟨0x80004, 12, 0⟩
def CONV_BUDGET_CYCLES : Fld := ⟨0x80008, 19, 0⟩
def CONV_SCHED_CYCLES : Fld := ⟨0x8000C, 19, 0⟩
def CONV_USED_CYCLES : Fld := ⟨0x80014, 19, 0⟩
def CONV_PEAK_CYCLES : Fld := ⟨0x8001C, 19, 0⟩
def CONV_XFACT_ENG1 : Fld := ⟨0x80024, 21, 16⟩
def CONV_XFACT_ENG0 : Fld := ⟨0x80024, 5, 0⟩
def CONV_DRBASE_LO_BASE_LO : Fld := ⟨0x80028, 31, 20⟩
def CONV_DRBASE_HI_BASE_HI : Fld := ⟨0x8002C, 7, 0⟩
def CONV_KCOUNT_LO_K_LO : Fld := ⟨0x80030, 31, 0⟩
def CONV_KCOUNT_HI_K_HI : Fld := ⟨0x80034, 27, 0⟩
def CONV_ADSTEP_RATIO : Fld := ⟨0x80040, 31, 0⟩
def CONV_ADCEIL_RATIO : Fld := ⟨0x80044, 31, 0⟩
def CONV_ADFLOOR_RATIO : Fld := ⟨0x80048, 31, 0⟩
def CONV_ADCTRL_LOCK : Fld := ⟨0x8004C, 0, 0⟩
def CONV_GEN_CTRL_MODE : Fld := ⟨0x80060, 2, 2⟩
def CONV_GEN_CTRL_TYPE : Fld := ⟨0x80060, 1, 0⟩
def CONV_GEN_LEVEL_LEVEL : Fld := ⟨0x80064, 23, 0⟩
def CONV_GEN_SEED_SEED : Fld := ⟨0x80068, 31, 0⟩
def CONV_GEN_INC0_LO_INC0 : Fld := ⟨0x8006C, 31, 0⟩
def CONV_GEN_INC0_HI_INC0 : Fld := ⟨0x80070, 15, 0⟩
def CONV_GEN_RATIO_LO_RATIO : Fld := ⟨0x80074, 31, 0⟩
def CONV_GEN_RATIO_HI_RATIO : Fld := ⟨0x80078, 15, 0⟩
def CONV_GEN_INCEND_LO_INCEND : Fld := ⟨0x8007C, 31, 0⟩
def CONV_GEN_INCEND_HI_INCEND : Fld := ⟨0x80080, 15, 0⟩
def CONV_CAP_CTRL_ENABLE : Fld := ⟨0x80090, 31, 31⟩
def CONV_CAP_CTRL_FEED : Fld := ⟨0x80090, 12, 4⟩
def CONV_CAP_CTRL_MIC : Fld := ⟨0x80090, 3, 0⟩
def CONV_CAP_START_LO_INDEX : Fld := ⟨0x80094, 31, 0⟩
def CONV_CAP_START_HI_INDEX : Fld := ⟨0x80098, 31, 0⟩
def CONV_GEN_MASK_SEL : Fld := ⟨0x800C0, 31, 0⟩
def CONV_OSAT_COUNT : Fld := ⟨0x80100, 31, 0⟩
def CONV_MISS_COUNT : Fld := ⟨0x80104, 31, 0⟩
def CONV_XFDONE_COUNT : Fld := ⟨0x80108, 31, 0⟩
def CONV_XFCANCEL_COUNT : Fld := ⟨0x8010C, 31, 0⟩
def CONV_BUSYREJ_COUNT : Fld := ⟨0x80110, 31, 0⟩
def CONV_ADSTEPREJ_COUNT : Fld := ⟨0x80114, 31, 0⟩
def CONV_ADCEILREJ_COUNT : Fld := ⟨0x80118, 31, 0⟩
def CONV_ADRATEREJ_COUNT : Fld := ⟨0x8011C, 31, 0⟩
def CONV_ADOK_COUNT : Fld := ⟨0x80120, 31, 0⟩
def CONV_INTSTAT_BITS : Fld := ⟨0x80140, 5, 0⟩
def CONV_INTEN_BITS : Fld := ⟨0x80144, 5, 0⟩
def CONV_CH0_STATE : Fld := ⟨0x84000, 31, 28⟩
def CONV_CH0_LEN : Fld := ⟨0x84000, 27, 24⟩
def CONV_CH0_ENG : Fld := ⟨0x84000, 23, 23⟩
def CONV_CH0_ACTIVE : Fld := ⟨0x84000, 19, 18⟩
def CONV_CH0_TARGET : Fld := ⟨0x84000, 17, 16⟩
def CONV_CH1_SLOTSTATE : Fld := ⟨0x84004, 7, 0⟩
def CONV_CH_SETID_SETID : Fld := ⟨0x84008, 31, 0⟩
def CONV_CH6_XSTART : Fld := ⟨0x84018, 31, 0⟩
def CONV_CH7_LASTAD : Fld := ⟨0x8401C, 31, 0⟩
def KPU_PRESENT_MASK : Fld := ⟨0x90000, 31, 0⟩
def KPU_CLK_DIVREJ : Fld := ⟨0x90004, 16, 16⟩
def KPU_CLK_DIV_MAX : Fld := ⟨0x90004, 10, 8⟩
def KPU_CLK_DIV_CUR : Fld := ⟨0x90004, 6, 4⟩
def KPU_CLK_DIV_REQ : Fld := ⟨0x90004, 2, 0⟩
def KPU_GATE_MASK : Fld := ⟨0x90008, 31, 0⟩
def KPU_GATESTAT_MASK : Fld := ⟨0x9000C, 31, 0⟩
def KPU_FAULT_MASK : Fld := ⟨0x90010, 31, 0⟩
def KPU_SATCNT_COUNT : Fld := ⟨0x90014, 31, 0⟩
def KPU_WCOLL_COUNT : Fld := ⟨0x90018, 31, 0⟩
def KPU_ECCCOR_COUNT : Fld := ⟨0x9001C, 31, 0⟩
def KPU_ECCUNC_COUNT : Fld := ⟨0x90020, 31, 0⟩
def KPU_DIVREJ_COUNT : Fld := ⟨0x90024, 31, 0⟩
def KPU_INTSTAT_BITS : Fld := ⟨0x90040, 3, 0⟩
def KPU_INTEN_BITS : Fld := ⟨0x90044, 3, 0⟩
def KPU_CORESTAT_STATE : Fld := ⟨0x91000, 31, 29⟩
def KPU_CORESTAT_CAUSE : Fld := ⟨0x91000, 28, 24⟩
def KPU_CORESTAT_PC : Fld := ⟨0x91000, 11, 0⟩
def KPU_FAULTPC_PC : Fld := ⟨0x91004, 11, 0⟩
def KPU_FAULTADDR_ADDR : Fld := ⟨0x91008, 31, 0⟩
def KPU_MBOX_VALUE : Fld := ⟨0x9100C, 31, 0⟩
def DISP_STATUS_MISS : Fld := ⟨0xA0000, 3, 3⟩
def DISP_STATUS_ACTIVE : Fld := ⟨0xA0000, 2, 2⟩
def DISP_STATUS_BANKS : Fld := ⟨0xA0000, 1, 0⟩
def DISP_CFG_HISTCLR : Fld := ⟨0xA0004, 31, 31⟩
def DISP_CFG_HISTALL : Fld := ⟨0xA0004, 8, 8⟩
def DISP_CFG_HISTLIST : Fld := ⟨0xA0004, 2, 0⟩
def DISP_CANCEL_GO : Fld := ⟨0xA0008, 31, 31⟩
def DISP_CANCEL_BANK : Fld := ⟨0xA0008, 12, 12⟩
def DISP_CANCEL_TASK : Fld := ⟨0xA0008, 11, 0⟩
def DISP_PROG_NCORES : Fld := ⟨0xA000C, 21, 16⟩
def DISP_PROG_TASKS : Fld := ⟨0xA000C, 12, 0⟩
def DISP_TASKS_COUNT : Fld := ⟨0xA0010, 15, 0⟩
def DISP_QCUR_DEPTH : Fld := ⟨0xA0020, 12, 0⟩
def DISP_QMAX_DEPTH : Fld := ⟨0xA0040, 12, 0⟩
def DISP_HIST_COUNT : Fld := ⟨0xA0080, 31, 0⟩
def DISP_BUSY_CYCLES : Fld := ⟨0xA0100, 19, 0⟩
def DISP_MISSFRM_COUNT : Fld := ⟨0xA0200, 31, 0⟩
def DISP_CANCEL_WAIT_COUNT : Fld := ⟨0xA0204, 31, 0⟩
def DISP_CANCEL_QUEUED_COUNT : Fld := ⟨0xA0208, 31, 0⟩
def DISP_CANCEL_RACE_COUNT : Fld := ⟨0xA020C, 31, 0⟩
def DISP_LATE_COUNT : Fld := ⟨0xA0210, 31, 0⟩
def DISP_ABORT_COUNT : Fld := ⟨0xA0214, 31, 0⟩
def DISP_FAULTED_COUNT : Fld := ⟨0xA0218, 31, 0⟩
def DISP_BADSIG_COUNT : Fld := ⟨0xA021C, 31, 0⟩
def DISP_STALETOK_COUNT : Fld := ⟨0xA0220, 31, 0⟩
def DISP_DUPTOK_COUNT : Fld := ⟨0xA0224, 31, 0⟩
def DISP_SINKLATE_COUNT : Fld := ⟨0xA0228, 31, 0⟩
def DISP_INTSTAT_BITS : Fld := ⟨0xA0240, 5, 0⟩
def DISP_INTEN_BITS : Fld := ⟨0xA0244, 5, 0⟩
def DISP_TASKW0_STATE : Fld := ⟨0xA1000, 31, 29⟩
def DISP_TASKW0_REASON : Fld := ⟨0xA1000, 28, 27⟩
def DISP_TASKW0_RACE : Fld := ⟨0xA1000, 26, 26⟩
def DISP_TASKW0_CORE : Fld := ⟨0xA1000, 25, 21⟩
def DISP_TASKW0_FRAME : Fld := ⟨0xA1000, 20, 8⟩
def DISP_TASKW0_SLOTS : Fld := ⟨0xA1000, 7, 0⟩
def DISP_TASKW1_STATE : Fld := ⟨0xA5000, 31, 29⟩
def DISP_TASKW1_REASON : Fld := ⟨0xA5000, 28, 27⟩
def DISP_TASKW1_RACE : Fld := ⟨0xA5000, 26, 26⟩
def DISP_TASKW1_CORE : Fld := ⟨0xA5000, 25, 21⟩
def DISP_TASKW1_FRAME : Fld := ⟨0xA5000, 20, 8⟩
def DISP_TASKW1_SLOTS : Fld := ⟨0xA5000, 7, 0⟩
def XPT_STATUS_ACTIVE : Fld := ⟨0xB0000, 19, 19⟩
def XPT_STATUS_RAMPUP : Fld := ⟨0xB0000, 18, 18⟩
def XPT_STATUS_MUTED : Fld := ⟨0xB0000, 17, 17⟩
def XPT_STATUS_HOUSE : Fld := ⟨0xB0000, 16, 16⟩
def XPT_STATUS_NODES : Fld := ⟨0xB0000, 14, 0⟩
def XPT_NSEL_INC : Fld := ⟨0xB0004, 31, 31⟩
def XPT_NSEL_OUT : Fld := ⟨0xB0004, 25, 16⟩
def XPT_NSEL_IN : Fld := ⟨0xB0004, 8, 0⟩
def XPT_NGAIN_RAMP : Fld := ⟨0xB0008, 25, 24⟩
def XPT_NGAIN_GAIN : Fld := ⟨0xB0008, 23, 0⟩
def XPT_CEIL_C : Fld := ⟨0xB0020, 24, 0⟩
def XPT_CEILLIM_LOCKED : Fld := ⟨0xB0040, 31, 31⟩
def XPT_CEILLIM_LIM : Fld := ⟨0xB0040, 24, 0⟩
def XPT_FMUTE_CAUSE : Fld := ⟨0xB0044, 2, 0⟩
def XPT_FMUTESET_SET : Fld := ⟨0xB0048, 0, 0⟩
def XPT_MCTRL_HCLR : Fld := ⟨0xB0050, 31, 31⟩
def XPT_MHOLD_FRAMES : Fld := ⟨0xB0054, 19, 0⟩
def XPT_MDECAY_DK : Fld := ⟨0xB0058, 24, 0⟩
def XPT_NODEREJ_COUNT : Fld := ⟨0xB0080, 31, 0⟩
def XPT_MONSAT_COUNT : Fld := ⟨0xB0084, 31, 0⟩
def XPT_CEILHIT_COUNT : Fld := ⟨0xB0088, 31, 0⟩
def XPT_HCLIP_COUNT : Fld := ⟨0xB008C, 31, 0⟩
def XPT_HMUTE_COUNT : Fld := ⟨0xB0090, 31, 0⟩
def XPT_FMUTECNT_COUNT : Fld := ⟨0xB0094, 31, 0⟩
def XPT_INTSTAT_BITS : Fld := ⟨0xB00A0, 3, 0⟩
def XPT_INTEN_BITS : Fld := ⟨0xB00A4, 3, 0⟩
def XPT_CEILSEL_SEL0 : Fld := ⟨0xB0100, 2, 0⟩
def XPT_CEILSEL_SEL1 : Fld := ⟨0xB0100, 6, 4⟩
def XPT_CEILSEL_SEL2 : Fld := ⟨0xB0100, 10, 8⟩
def XPT_CEILSEL_SEL3 : Fld := ⟨0xB0100, 14, 12⟩
def XPT_CEILSEL_SEL4 : Fld := ⟨0xB0100, 18, 16⟩
def XPT_CEILSEL_SEL5 : Fld := ⟨0xB0100, 22, 20⟩
def XPT_CEILSEL_SEL6 : Fld := ⟨0xB0100, 26, 24⟩
def XPT_CEILSEL_SEL7 : Fld := ⟨0xB0100, 30, 28⟩
def XPT_MONCFG_MODE : Fld := ⟨0xB0400, 31, 31⟩
def XPT_MONCFG_BUS : Fld := ⟨0xB0400, 8, 0⟩
def XPT_METER_LEVEL_LEVEL : Fld := ⟨0xB2000, 31, 0⟩
def XPT_METER_HOLD_HOLD : Fld := ⟨0xB2004, 31, 0⟩
def XPT_METER_CLIP_CLIP : Fld := ⟨0xB2008, 0, 0⟩
def TAKE_STATUS_PEERS : Fld := ⟨0xC0000, 25, 16⟩
def TAKE_STATUS_FWRESTART : Fld := ⟨0xC0000, 10, 10⟩
def TAKE_STATUS_FWIMG : Fld := ⟨0xC0000, 9, 9⟩
def TAKE_STATUS_MISMATCH : Fld := ⟨0xC0000, 8, 8⟩
def TAKE_STATUS_CUTKIND : Fld := ⟨0xC0000, 6, 5⟩
def TAKE_STATUS_STAGE : Fld := ⟨0xC0000, 3, 1⟩
def TAKE_STATUS_ACTIVE : Fld := ⟨0xC0000, 0, 0⟩
def TAKE_STAGEERR_STATUS : Fld := ⟨0xC0004, 31, 16⟩
def TAKE_STAGEERR_SECTION : Fld := ⟨0xC0004, 15, 0⟩
def TAKE_ACTSLATE_VALUE : Fld := ⟨0xC0008, 31, 0⟩
def TAKE_ACTDIG_VALUE : Fld := ⟨0xC000C, 31, 0⟩
def TAKE_STGSLATE_VALUE : Fld := ⟨0xC001C, 31, 0⟩
def TAKE_STGDIG_VALUE : Fld := ⟨0xC0020, 31, 0⟩
def TAKE_NEXTCUT_LO_FRAME_LO : Fld := ⟨0xC0030, 31, 0⟩
def TAKE_NEXTCUT_HI_FRAME_HI : Fld := ⟨0xC0034, 27, 0⟩
def TAKE_LASTCUT_LO_FRAME_LO : Fld := ⟨0xC0038, 31, 0⟩
def TAKE_LASTCUT_HI_FRAME_HI : Fld := ⟨0xC003C, 27, 0⟩
def TAKE_REELBASE_LO_BASE_LO : Fld := ⟨0xC0040, 31, 20⟩
def TAKE_REELBASE_HI_BASE_HI : Fld := ⟨0xC0044, 7, 0⟩
def TAKE_REELMAP_LO_FULL : Fld := ⟨0xC0048, 31, 0⟩
def TAKE_REELMAP_HI_FULL : Fld := ⟨0xC004C, 31, 0⟩
def TAKE_CONTGRP_GROUP : Fld := ⟨0xC0050, 31, 0⟩
def TAKE_BCNCTRL_ENABLE : Fld := ⟨0xC0054, 0, 0⟩
def TAKE_FWCTRL_READY : Fld := ⟨0xC0058, 0, 0⟩
def TAKE_CUTS_COUNT : Fld := ⟨0xC0080, 31, 0⟩
def TAKE_HARDCUTS_COUNT : Fld := ⟨0xC0084, 31, 0⟩
def TAKE_CUTREJ_COUNT : Fld := ⟨0xC0088, 31, 0⟩
def TAKE_CUTABORT_COUNT : Fld := ⟨0xC008C, 31, 0⟩
def TAKE_STAGEFAIL_COUNT : Fld := ⟨0xC0090, 31, 0⟩
def TAKE_BCNBAD_COUNT : Fld := ⟨0xC0094, 31, 0⟩
def TAKE_PEERFULL_COUNT : Fld := ⟨0xC0098, 31, 0⟩
def TAKE_MISMATCH_COUNT : Fld := ⟨0xC009C, 31, 0⟩
def TAKE_INTSTAT_BITS : Fld := ⟨0xC00C0, 7, 0⟩
def TAKE_INTEN_BITS : Fld := ⟨0xC00C4, 7, 0⟩
def TAKE_PEER0_VALID : Fld := ⟨0xC1000, 31, 31⟩
def TAKE_PEER0_SAMEGRP : Fld := ⟨0xC1000, 30, 30⟩
def TAKE_PEER0_MM_NEXT : Fld := ⟨0xC1000, 29, 29⟩
def TAKE_PEER0_MM_ACTIVE : Fld := ⟨0xC1000, 28, 28⟩
def TAKE_PEER0_ROLE : Fld := ⟨0xC1000, 27, 25⟩
def TAKE_PEER0_STAGED : Fld := ⟨0xC1000, 24, 24⟩
def TAKE_PEER0_CUTSCHED : Fld := ⟨0xC1000, 23, 23⟩
def TAKE_PEER0_AGE : Fld := ⟨0xC1000, 15, 0⟩
def TAKE_PEER_DEVLO_DEVID : Fld := ⟨0xC1004, 31, 0⟩
def TAKE_PEER_DEVHI_DEVID : Fld := ⟨0xC1008, 31, 0⟩
def TAKE_PEER_ASLATE_ASLATE : Fld := ⟨0xC100C, 31, 0⟩
def TAKE_PEER_ADIG_ADIGEST : Fld := ⟨0xC1010, 31, 0⟩
def TAKE_PEER_SSLATE_SSLATE : Fld := ⟨0xC1014, 31, 0⟩
def TAKE_PEER_NEXT_NEXTCUT : Fld := ⟨0xC1018, 31, 0⟩
def TAKE_PEER_BSEQ_BSEQ : Fld := ⟨0xC101C, 31, 0⟩
def TDM_STATUS_DATA : Fld := ⟨0xD0000, 31, 16⟩
def TDM_STATUS_CLK : Fld := ⟨0xD0000, 15, 0⟩
def TDM_PRECUT_CLKON : Fld := ⟨0xD0004, 1, 1⟩
def TDM_PRECUT_DOUTTRI : Fld := ⟨0xD0004, 0, 0⟩
def TDM_INTSTAT_BITS : Fld := ⟨0xD0040, 2, 0⟩
def TDM_INTEN_BITS : Fld := ⟨0xD0044, 2, 0⟩
def TDM_PCFG_EN : Fld := ⟨0xD0100, 31, 31⟩
def TDM_PCFG_MUL : Fld := ⟨0xD0100, 30, 27⟩
def TDM_PCFG_SLOTS : Fld := ⟨0xD0100, 26, 22⟩
def TDM_PCFG_ROLE : Fld := ⟨0xD0100, 21, 21⟩
def TDM_PCFG_FRAMING : Fld := ⟨0xD0100, 20, 20⟩
def TDM_PCFG_BPOL : Fld := ⟨0xD0100, 19, 19⟩
def TDM_PCFG_FSPOL : Fld := ⟨0xD0100, 18, 18⟩
def TDM_PCFG_FSDLY : Fld := ⟨0xD0100, 17, 17⟩
def TDM_PCFG_MASKDRV : Fld := ⟨0xD0100, 16, 16⟩
def TDM_MASK_OUT : Fld := ⟨0xD0104, 31, 16⟩
def TDM_MASK_IN : Fld := ⟨0xD0104, 15, 0⟩
def TDM_PSTART_METHOD : Fld := ⟨0xD0108, 31, 31⟩
def TDM_PSTART_NFR : Fld := ⟨0xD0108, 23, 16⟩
def TDM_PSTART_ZXTO : Fld := ⟨0xD0108, 15, 0⟩
def TDM_TSIDX_LO_INDEX : Fld := ⟨0xD010C, 31, 0⟩
def TDM_TSIDX_HI_INDEX : Fld := ⟨0xD0110, 31, 0⟩
def TDM_TSPHASE_E : Fld := ⟨0xD0114, 31, 0⟩
def TDM_MASKIDX_INDEX : Fld := ⟨0xD0118, 31, 0⟩
def TDM_PSTATE_STATE : Fld := ⟨0xD011C, 2, 0⟩
def TDM_UNDER_COUNT : Fld := ⟨0xD0400, 31, 0⟩
def TDM_OVER_COUNT : Fld := ⟨0xD0404, 31, 0⟩
def TDM_ZXFORCE_COUNT : Fld := ⟨0xD0480, 31, 0⟩
def DEC_CFG_MICOSR : Fld := ⟨0xE0000, 1, 0⟩
def DEC_INTSTAT_BITS : Fld := ⟨0xE0040, 1, 0⟩
def DEC_INTEN_BITS : Fld := ⟨0xE0044, 1, 0⟩
def DEC_SAT_COUNT : Fld := ⟨0xE0080, 31, 0⟩
def DEC_CHCFG_EN : Fld := ⟨0xE0100, 31, 31⟩
def DEC_CHCFG_CSET : Fld := ⟨0xE0100, 17, 16⟩
def DEC_CHCFG_R : Fld := ⟨0xE0100, 7, 0⟩
def DEC_CHDLY_RESID : Fld := ⟨0xE0104, 31, 16⟩
def DEC_CHDLY_SKEW : Fld := ⟨0xE0104, 15, 8⟩
def DEC_CHDLY_D : Fld := ⟨0xE0104, 7, 0⟩
def DEC_CHSET_LEFT : Fld := ⟨0xE0108, 6, 0⟩
def PDM_STATUS_CLEAR : Fld := ⟨0xF0000, 4, 4⟩
def PDM_STATUS_RUN : Fld := ⟨0xF0000, 3, 0⟩
def PDM_GCFG_EN : Fld := ⟨0xF0010, 31, 31⟩
def PDM_GCFG_OSR : Fld := ⟨0xF0010, 30, 30⟩
def PDM_GCFG_STRB : Fld := ⟨0xF0010, 29, 29⟩
def PDM_GCFG_SPAN : Fld := ⟨0xF0010, 28, 27⟩
def PDM_GCFG_CLRCODE : Fld := ⟨0xF0010, 26, 25⟩
def PDM_STRBPH_MCLK : Fld := ⟨0xF0020, 31, 0⟩
def PDM_LOADMISS_COUNT : Fld := ⟨0xF0080, 31, 0⟩
def PDM_LOADOVR_COUNT : Fld := ⟨0xF0084, 31, 0⟩
def PDM_OVL_COUNT : Fld := ⟨0xF0088, 31, 0⟩
def PDM_CLEARS_COUNT : Fld := ⟨0xF008C, 31, 0⟩
def PDM_INTSTAT_BITS : Fld := ⟨0xF00C0, 2, 0⟩
def PDM_INTEN_BITS : Fld := ⟨0xF00C4, 2, 0⟩
def MEM_STATUS_READY : Fld := ⟨0x100000, 15, 15⟩
def MEM_STATUS_TRAINFAIL : Fld := ⟨0x100000, 14, 14⟩
def MEM_STATUS_RETRAIN : Fld := ⟨0x100000, 13, 13⟩
def MEM_STATUS_HOTREF : Fld := ⟨0x100000, 12, 12⟩
def MEM_STATUS_SREF : Fld := ⟨0x100000, 11, 10⟩
def MEM_STATUS_PD : Fld := ⟨0x100000, 9, 8⟩
def MEM_STATUS_TRAINED : Fld := ⟨0x100000, 5, 4⟩
def MEM_STATUS_FSPCHG : Fld := ⟨0x100000, 3, 3⟩
def MEM_STATUS_TRAINING : Fld := ⟨0x100000, 2, 2⟩
def MEM_STATUS_FSP : Fld := ⟨0x100000, 0, 0⟩
def MEM_CFG_RANKS : Fld := ⟨0x100004, 8, 8⟩
def MEM_CFG_DENS : Fld := ⟨0x100004, 3, 0⟩
def MEM_USABLE_LO_BYTES : Fld := ⟨0x100008, 31, 0⟩
def MEM_USABLE_HI_BYTES : Fld := ⟨0x10000C, 31, 0⟩
def MEM_FSPREQ_GO : Fld := ⟨0x100010, 31, 31⟩
def MEM_FSPREQ_TARGET : Fld := ⟨0x100010, 0, 0⟩
def MEM_FSPSTAT_STATUS : Fld := ⟨0x100014, 31, 16⟩
def MEM_FSPSTAT_BUSY : Fld := ⟨0x100014, 0, 0⟩
def MEM_TRAINCTRL_SETS : Fld := ⟨0x100018, 2, 1⟩
def MEM_TRAINCTRL_START : Fld := ⟨0x100018, 0, 0⟩
def MEM_TRAINSTAT_MS : Fld := ⟨0x10001C, 31, 16⟩
def MEM_TRAINSTAT_FAILLANE : Fld := ⟨0x10001C, 7, 0⟩
def MEM_AGE0_NS : Fld := ⟨0x100020, 15, 0⟩
def MEM_AGE1_NS : Fld := ⟨0x100024, 15, 0⟩
def MEM_PDTIMER_CK : Fld := ⟨0x100028, 15, 0⟩
def MEM_SRCTRL_IDLE : Fld := ⟨0x10002C, 23, 0⟩
def MEM_RHTHR_ACTS : Fld := ⟨0x100030, 15, 0⟩
def MEM_REFINFO_NREF : Fld := ⟨0x100034, 31, 24⟩
def MEM_REFINFO_RFC : Fld := ⟨0x100034, 8, 0⟩
def MEM_C0BUDGET_BYTES : Fld := ⟨0x100038, 23, 0⟩
def MEM_C0USED_BYTES : Fld := ⟨0x10003C, 23, 0⟩
def MEM_C0PEAK_BYTES : Fld := ⟨0x100040, 23, 0⟩
def MEM_C0MISS_COUNT : Fld := ⟨0x100080, 31, 0⟩
def MEM_PROMO_COUNT : Fld := ⟨0x100084, 31, 0⟩
def MEM_RHREF_COUNT : Fld := ⟨0x100088, 31, 0⟩
def MEM_DEFER_COUNT : Fld := ⟨0x10008C, 31, 0⟩
def MEM_SRABORT_COUNT : Fld := ⟨0x100090, 31, 0⟩
def MEM_SRWAKE_COUNT : Fld := ⟨0x100094, 31, 0⟩
def MEM_RMW_COUNT : Fld := ⟨0x100098, 31, 0⟩
def MEM_DRIFTADJ_COUNT : Fld := ⟨0x10009C, 31, 0⟩
def MEM_INTSTAT_BITS : Fld := ⟨0x1000C0, 6, 0⟩
def MEM_INTEN_BITS : Fld := ⟨0x1000C4, 6, 0⟩
def MEM_LANE0_RDLY0 : Fld := ⟨0x100100, 31, 24⟩
def MEM_LANE0_WDLY0 : Fld := ⟨0x100100, 23, 16⟩
def MEM_LANE0_RDLY1 : Fld := ⟨0x100100, 15, 8⟩
def MEM_LANE0_WDLY1 : Fld := ⟨0x100100, 7, 0⟩
def MEM_LANE1_EYER0 : Fld := ⟨0x100104, 31, 24⟩
def MEM_LANE1_EYEW0 : Fld := ⟨0x100104, 23, 16⟩
def MEM_LANE1_EYER1 : Fld := ⟨0x100104, 15, 8⟩
def MEM_LANE1_EYEW1 : Fld := ⟨0x100104, 7, 0⟩
def MEM_LANE2_OSC : Fld := ⟨0x100108, 31, 16⟩
def MEM_LANE2_TRACK : Fld := ⟨0x100108, 7, 0⟩
def FAB_STATUS_SLICEDIFF : Fld := ⟨0x110000, 2, 2⟩
def FAB_STATUS_STORM : Fld := ⟨0x110000, 1, 1⟩
def FAB_STATUS_SLICESET : Fld := ⟨0x110000, 0, 0⟩
def FAB_DRAIN_MASK : Fld := ⟨0x110004, 23, 0⟩
def FAB_CTRL_STORMCLR : Fld := ⟨0x110008, 1, 1⟩
def FAB_CTRL_SCRUBEN : Fld := ⟨0x110008, 0, 0⟩
def FAB_SCRUBSRAM_BYTES : Fld := ⟨0x11000C, 15, 0⟩
def FAB_SCRUBDRAM_BYTES : Fld := ⟨0x110010, 19, 0⟩
def FAB_UEMAX_COUNT : Fld := ⟨0x110014, 7, 0⟩
def FAB_ERRINFO_VALID : Fld := ⟨0x110020, 31, 31⟩
def FAB_ERRINFO_MEM : Fld := ⟨0x110020, 27, 24⟩
def FAB_ERRINFO_KIND : Fld := ⟨0x110020, 21, 20⟩
def FAB_ERRINFO_MASTER : Fld := ⟨0x110020, 16, 12⟩
def FAB_ERRINFO_SOURCE : Fld := ⟨0x110020, 4, 0⟩
def FAB_ERRADDR_LO_ADDR : Fld := ⟨0x110024, 31, 0⟩
def FAB_ERRADDR_HI_ADDR : Fld := ⟨0x110028, 7, 0⟩
def FAB_ERRFRAME_LO_FRAME : Fld := ⟨0x11002C, 31, 0⟩
def FAB_ERRFRAME_HI_FRAME : Fld := ⟨0x110030, 27, 0⟩
def FAB_DECERR_COUNT : Fld := ⟨0x110080, 31, 0⟩
def FAB_PARERR_COUNT : Fld := ⟨0x110084, 31, 0⟩
def FAB_DRAINS_COUNT : Fld := ⟨0x110088, 31, 0⟩
def FAB_INTSTAT_BITS : Fld := ⟨0x1100C0, 6, 0⟩
def FAB_INTEN_BITS : Fld := ⟨0x1100C4, 6, 0⟩
def FAB_ECCCOR_COUNT : Fld := ⟨0x110100, 31, 0⟩
def FAB_ECCUNC_COUNT : Fld := ⟨0x110104, 31, 0⟩
def FAB_WIN0_BASE_LO : Fld := ⟨0x111000, 31, 12⟩
def FAB_WIN1_BASE_HI : Fld := ⟨0x111004, 7, 0⟩
def FAB_WIN2_SIZE : Fld := ⟨0x111008, 28, 0⟩
def FAB_WIN3_EN : Fld := ⟨0x11100C, 31, 31⟩
def FAB_WIN3_TARGET : Fld := ⟨0x11100C, 19, 16⟩
def FAB_WIN3_HINT : Fld := ⟨0x11100C, 2, 2⟩
def FAB_WIN3_W : Fld := ⟨0x11100C, 1, 1⟩
def FAB_WIN3_R : Fld := ⟨0x11100C, 0, 0⟩
def FAB_PRIO_LO_PRIO : Fld := ⟨0x111200, 31, 0⟩
def FAB_PRIO_HI_PRIO : Fld := ⟨0x111204, 31, 0⟩
def FAB_SLICE_MASK : Fld := ⟨0x111208, 15, 0⟩
def FAB_MSTAT_STATE : Fld := ⟨0x11120C, 31, 30⟩
def FAB_MSTAT_OUTST : Fld := ⟨0x11120C, 22, 16⟩
def PAIR_CFG_EN : Fld := ⟨0x120000, 31, 31⟩
def PAIR_CFG_PAIR_ID : Fld := ⟨0x120000, 16, 16⟩
def PAIR_CFG_NETPORTS : Fld := ⟨0x120000, 1, 0⟩
def PAIR_STATUS_RSPHASE : Fld := ⟨0x120004, 23, 20⟩
def PAIR_STATUS_NCLAP : Fld := ⟨0x120004, 18, 18⟩
def PAIR_STATUS_PCLAP : Fld := ⟨0x120004, 17, 17⟩
def PAIR_STATUS_LINK : Fld := ⟨0x120004, 16, 16⟩
def PAIR_STATUS_PEERROLE : Fld := ⟨0x120004, 10, 8⟩
def PAIR_STATUS_ROLE : Fld := ⟨0x120004, 2, 0⟩
def PAIR_CTRL_FORCEACT : Fld := ⟨0x120008, 0, 0⟩
def PAIR_KEY_KEY : Fld := ⟨0x12000C, 31, 0⟩
def PAIR_NETGRP_ADDR : Fld := ⟨0x120010, 31, 0⟩
def PAIR_NETPORT_PORT : Fld := ⟨0x120014, 15, 0⟩
def PAIR_EVIDMS_MS : Fld := ⟨0x120018, 13, 0⟩
def PAIR_LEAD_FRAMES : Fld := ⟨0x12001C, 11, 0⟩
def PAIR_KSETTLE_FRAMES : Fld := ⟨0x120020, 23, 0⟩
def PAIR_DIVMAX_FRAMES : Fld := ⟨0x120024, 23, 0⟩
def PAIR_RSTIMEOUT_S : Fld := ⟨0x120028, 11, 0⟩
def PAIR_SETTLE_FRAMES : Fld := ⟨0x12002C, 23, 0⟩
def PAIR_MATCHRUN_COUNT : Fld := ⟨0x120030, 31, 0⟩
def PAIR_ACTFRAME_LO_FRAME : Fld := ⟨0x120034, 31, 0⟩
def PAIR_ACTFRAME_HI_FRAME : Fld := ⟨0x120038, 27, 0⟩
def PAIR_OWNDIG_DIGEST : Fld := ⟨0x12003C, 31, 0⟩
def PAIR_PEERDIG_DIGEST : Fld := ⟨0x120040, 31, 0⟩
def PAIR_PHASE_FCLK : Fld := ⟨0x120044, 31, 0⟩
def PAIR_PCLAPMISS_COUNT : Fld := ⟨0x120080, 31, 0⟩
def PAIR_NCLAPMISS_COUNT : Fld := ⟨0x120084, 31, 0⟩
def PAIR_CRCERR_COUNT : Fld := ⟨0x120088, 31, 0⟩
def PAIR_DIVFRM_COUNT : Fld := ⟨0x12008C, 31, 0⟩
def PAIR_TAKEOVERS_COUNT : Fld := ⟨0x120090, 31, 0⟩
def PAIR_SETDIFF_COUNT : Fld := ⟨0x120094, 31, 0⟩
def PAIR_LINKDOWN_COUNT : Fld := ⟨0x120098, 31, 0⟩
def PAIR_INTSTAT_BITS : Fld := ⟨0x1200C0, 7, 0⟩
def PAIR_INTEN_BITS : Fld := ⟨0x1200C4, 7, 0⟩
def LOG_STATUS_FAILED : Fld := ⟨0x130000, 31, 31⟩
def LOG_STATUS_FULL : Fld := ⟨0x130000, 30, 30⟩
def LOG_STATUS_STARTED : Fld := ⟨0x130000, 29, 29⟩
def LOG_STATUS_SPILL : Fld := ⟨0x130000, 19, 16⟩
def LOG_STATUS_COUNT : Fld := ⟨0x130000, 13, 0⟩
def LOG_HEAD_SEQ : Fld := ⟨0x130004, 31, 0⟩
def LOG_FIRST_SEQ : Fld := ⟨0x130008, 31, 0⟩
def LOG_LOST_COUNT : Fld := ⟨0x13000C, 31, 0⟩
def LOG_CTRL_CLEAR : Fld := ⟨0x130010, 1, 1⟩
def LOG_CTRL_START : Fld := ⟨0x130010, 0, 0⟩
def LOG_HOURS_HOURS : Fld := ⟨0x130014, 31, 0⟩
def LOG_PCYC_PCYC : Fld := ⟨0x130018, 23, 0⟩
def LOG_MIRSEQ_SEQ : Fld := ⟨0x13001C, 31, 0⟩
def LOG_RDSEQ_SEQ : Fld := ⟨0x130020, 31, 0⟩
def LOG_RDSTAT_HIT : Fld := ⟨0x130024, 0, 0⟩
def LOG_INTSTAT_BITS : Fld := ⟨0x1300C0, 2, 0⟩
def LOG_INTEN_BITS : Fld := ⟨0x1300C4, 2, 0⟩
def LOG_RDDATA_WORD : Fld := ⟨0x130100, 31, 0⟩
def LOG_SPILL_WORD : Fld := ⟨0x130200, 31, 0⟩
def PWR_STATUS_TRIP : Fld := ⟨0x140000, 31, 31⟩
def PWR_STATUS_WARN : Fld := ⟨0x140000, 30, 30⟩
def PWR_STATUS_UV : Fld := ⟨0x140000, 29, 29⟩
def PWR_STATUS_FAULTSRC : Fld := ⟨0x140000, 28, 22⟩
def PWR_STATUS_PGOOD : Fld := ⟨0x140000, 21, 16⟩
def PWR_STATUS_TMAX : Fld := ⟨0x140000, 15, 0⟩
def PWR_SEQSTAT_FAIL : Fld := ⟨0x140004, 31, 31⟩
def PWR_SEQSTAT_GROUP : Fld := ⟨0x140004, 2, 0⟩
def PWR_SEQTO_MS : Fld := ⟨0x140008, 6, 0⟩
def PWR_TWARN_TEMP : Fld := ⟨0x14000C, 15, 0⟩
def PWR_DARK_ENTER : Fld := ⟨0x140010, 31, 31⟩
def PWR_DARK_DARKREJ : Fld := ⟨0x140010, 30, 30⟩
def PWR_WAKECFG_EN : Fld := ⟨0x140014, 2, 0⟩
def PWR_WAKECAUSE_CAUSE : Fld := ⟨0x140018, 2, 0⟩
def PWR_WDT_KICK : Fld := ⟨0x14001C, 31, 31⟩
def PWR_WDT_MS : Fld := ⟨0x14001C, 15, 0⟩
def PWR_LASTSHUT_KIND : Fld := ⟨0x140020, 1, 0⟩
def PWR_PMBCMD_GO : Fld := ⟨0x140024, 31, 31⟩
def PWR_PMBCMD_PEC : Fld := ⟨0x140024, 30, 30⟩
def PWR_PMBCMD_KIND : Fld := ⟨0x140024, 29, 28⟩
def PWR_PMBCMD_ADDR : Fld := ⟨0x140024, 22, 16⟩
def PWR_PMBCMD_CMD : Fld := ⟨0x140024, 15, 8⟩
def PWR_PMBDATA_DATA : Fld := ⟨0x140028, 15, 0⟩
def PWR_PMBSTAT_BUSY : Fld := ⟨0x14002C, 31, 31⟩
def PWR_PMBSTAT_NACK : Fld := ⟨0x14002C, 1, 1⟩
def PWR_PMBSTAT_PECERR : Fld := ⟨0x14002C, 0, 0⟩
def PWR_RAILMV_MV : Fld := ⟨0x140040, 11, 0⟩
def PWR_TEMP_TEMP : Fld := ⟨0x140080, 15, 0⟩
def PWR_UVCNT_COUNT : Fld := ⟨0x1400A0, 31, 0⟩
def PWR_WARNCNT_COUNT : Fld := ⟨0x1400A4, 31, 0⟩
def PWR_WDT1CNT_COUNT : Fld := ⟨0x1400A8, 31, 0⟩
def PWR_INTSTAT_BITS : Fld := ⟨0x1400C0, 6, 0⟩
def PWR_INTEN_BITS : Fld := ⟨0x1400C4, 6, 0⟩
def HOST_STATUS_UDPSESS : Fld := ⟨0x150000, 8, 4⟩
def HOST_STATUS_RPLHOLD : Fld := ⟨0x150000, 3, 3⟩
def HOST_STATUS_FWRESTART : Fld := ⟨0x150000, 2, 2⟩
def HOST_STATUS_FWREADY : Fld := ⟨0x150000, 1, 1⟩
def HOST_STATUS_SECURE : Fld := ⟨0x150000, 0, 0⟩
def HOST_PCIID_DEVICE : Fld := ⟨0x150004, 31, 16⟩
def HOST_PCIID_VENDOR : Fld := ⟨0x150004, 15, 0⟩
def HOST_CMDHEAD_PTR : Fld := ⟨0x150010, 15, 4⟩
def HOST_CMDTAIL_PTR : Fld := ⟨0x150014, 15, 4⟩
def HOST_RPLHEAD_PTR : Fld := ⟨0x150018, 15, 4⟩
def HOST_RPLTAIL_PTR : Fld := ⟨0x15001C, 15, 4⟩
def HOST_CAUSE_CAUSE : Fld := ⟨0x150020, 21, 0⟩
def HOST_CAUSEEN_CAUSE : Fld := ⟨0x150024, 21, 0⟩
def HOST_QUEUES_FRAMEQ : Fld := ⟨0x150028, 24, 16⟩
def HOST_QUEUES_FWQ : Fld := ⟨0x150028, 5, 0⟩
def HOST_INTSTAT_BITS : Fld := ⟨0x150040, 6, 0⟩
def HOST_INTEN_BITS : Fld := ⟨0x150044, 6, 0⟩
def HOST_BADCRC_COUNT : Fld := ⟨0x150080, 31, 0⟩
def HOST_AUTHFAIL_COUNT : Fld := ⟨0x150084, 31, 0⟩
def HOST_RETRY_COUNT : Fld := ⟨0x150088, 31, 0⟩
def HOST_DUP_COUNT : Fld := ⟨0x15008C, 31, 0⟩
def HOST_QFULL_COUNT : Fld := ⟨0x150090, 31, 0⟩
def HOST_SPIOVF_COUNT : Fld := ⟨0x150094, 31, 0⟩
def HOST_SPIBAD_COUNT : Fld := ⟨0x150098, 31, 0⟩
def HOST_PARTWR_COUNT : Fld := ⟨0x15009C, 31, 0⟩
def HOST_CMDS_COUNT : Fld := ⟨0x1500A0, 31, 0⟩
end F

def regRowsSYS0 : List RegRow := [
  ⟨0x0, 1, 0x0, 1, 0x0, [⟨31, 0, .ro, 0x4C595124⟩]⟩,
  ⟨0x4, 1, 0x0, 1, 0x0, [⟨7, 4, .ro, 0x1⟩, ⟨3, 0, .ro, 0x0⟩]⟩,
  ⟨0x8, 1, 0x0, 1, 0x0, [⟨31, 0, .ro, 0x0⟩]⟩,
  ⟨0xC, 1, 0x0, 1, 0x0, [⟨31, 0, .ro, 0x0⟩]⟩,
  ⟨0x20, 1, 0x0, 1, 0x0, [⟨3, 0, .ro, 0x0⟩]⟩,
  ⟨0x24, 1, 0x0, 1, 0x0, [⟨9, 8, .ro, 0x0⟩, ⟨5, 5, .ro, 0x0⟩, ⟨4, 4, .ro, 0x0⟩, ⟨1, 0, .ro, 0x0⟩]⟩,
  ⟨0x28, 1, 0x0, 1, 0x0, [⟨0, 0, .wo, 0x0⟩]⟩,
  ⟨0x100, 1, 0x0, 1, 0x0, [⟨31, 0, .ro, 0x0⟩]⟩,
  ⟨0x104, 1, 0x0, 1, 0x0, [⟨27, 0, .ro, 0x0⟩]⟩,
  ⟨0x108, 1, 0x0, 1, 0x0, [⟨31, 0, .ro, 0x0⟩]⟩,
  ⟨0x10C, 1, 0x0, 1, 0x0, [⟨31, 0, .ro, 0x0⟩]⟩,
  ⟨0x110, 1, 0x0, 1, 0x0, [⟨31, 0, .ro, 0x0⟩]⟩,
  ⟨0x114, 1, 0x0, 1, 0x0, [⟨15, 8, .ro, 0x30⟩, ⟨7, 7, .ro, 0x0⟩, ⟨6, 4, .ro, 0x1⟩, ⟨1, 0, .ro, 0x3⟩]⟩,
  ⟨0x118, 1, 0x0, 1, 0x0, [⟨31, 0, .rc, 0x0⟩]⟩,
  ⟨0x200, 32, 0x4, 1, 0x0, [⟨31, 0, .wo, 0x0⟩]⟩,
  ⟨0x280, 1, 0x0, 1, 0x0, [⟨3, 0, .ro, 0x0⟩]⟩]

/-- The registers of block SYS (01_signal_flow.md / 09 / 19). -/
def regRowsSYS : List RegRow := regRowsSYS0

def regRowsCLK0 : List RegRow := [
  ⟨0x10000, 1, 0x0, 1, 0x0, [⟨1, 1, .rw, 0x0⟩, ⟨0, 0, .wo, 0x0⟩]⟩,
  ⟨0x10004, 1, 0x0, 1, 0x0, [⟨31, 24, .ro, 0x0⟩, ⟨19, 19, .ro, 0x0⟩, ⟨18, 17, .ro, 0x0⟩, ⟨16, 16, .ro, 0x0⟩, ⟨10, 10, .ro, 0x0⟩, ⟨6, 4, .ro, 0x7⟩, ⟨2, 0, .ro, 0x0⟩]⟩,
  ⟨0x10008, 1, 0x0, 1, 0x0, [⟨9, 9, .rw, 0x0⟩, ⟨8, 8, .rw, 0x0⟩, ⟨4, 0, .rw, 0x9⟩]⟩,
  ⟨0x1000C, 1, 0x0, 1, 0x0, [⟨17, 0, .rw, 0x3FFEC⟩]⟩,
  ⟨0x10010, 1, 0x0, 1, 0x0, [⟨27, 16, .rw, 0x3C⟩, ⟨9, 0, .rw, 0x2⟩]⟩,
  ⟨0x10014, 1, 0x0, 1, 0x0, [⟨17, 0, .rw, 0x2710⟩]⟩,
  ⟨0x10018, 1, 0x0, 1, 0x0, [⟨16, 0, .rw, 0x64⟩]⟩,
  ⟨0x1001C, 1, 0x0, 1, 0x0, [⟨31, 0, .ro, 0x0⟩]⟩,
  ⟨0x10020, 1, 0x0, 1, 0x0, [⟨31, 0, .ro, 0x0⟩]⟩,
  ⟨0x10024, 1, 0x0, 1, 0x0, [⟨31, 0, .ro, 0x0⟩]⟩,
  ⟨0x10028, 1, 0x0, 1, 0x0, [⟨31, 0, .ro, 0x0⟩]⟩,
  ⟨0x10030, 1, 0x0, 1, 0x0, [⟨31, 0, .ro, 0x0⟩]⟩,
  ⟨0x10034, 1, 0x0, 1, 0x0, [⟨31, 0, .ro, 0x0⟩]⟩,
  ⟨0x10038, 1, 0x0, 1, 0x0, [⟨31, 0, .ro, 0x0⟩]⟩,
  ⟨0x1003C, 1, 0x0, 1, 0x0, [⟨27, 0, .ro, 0x0⟩]⟩,
  ⟨0x10040, 1, 0x0, 1, 0x0, [⟨31, 0, .ro, 0x0⟩]⟩,
  ⟨0x10044, 1, 0x0, 1, 0x0, [⟨31, 0, .ro, 0x0⟩]⟩,
  ⟨0x10048, 1, 0x0, 1, 0x0, [⟨31, 0, .ro, 0x0⟩]⟩,
  ⟨0x10050, 4, 0x8, 1, 0x0, [⟨12, 8, .rw, 0x1F⟩, ⟨4, 4, .rw, 0x0⟩, ⟨2, 0, .rw, 0x0⟩]⟩,
  ⟨0x10054, 4, 0x8, 1, 0x0, [⟨31, 0, .rw, 0x0⟩]⟩,
  ⟨0x10070, 4, 0x4, 1, 0x0, [⟨31, 31, .rw, 0x0⟩, ⟨30, 30, .rw, 0x1⟩, ⟨2, 0, .rw, 0x0⟩]⟩,
  ⟨0x10080, 1, 0x0, 1, 0x0, [⟨31, 31, .rw, 0x0⟩, ⟨30, 30, .rw, 0x1⟩, ⟨0, 0, .rw, 0x0⟩]⟩,
  ⟨0x100A0, 1, 0x0, 1, 0x0, [⟨31, 0, .rc, 0x0⟩]⟩,
  ⟨0x100A4, 1, 0x0, 1, 0x0, [⟨31, 0, .rc, 0x0⟩]⟩]

def regRowsCLK1 : List RegRow := [
  ⟨0x100A8, 1, 0x0, 1, 0x0, [⟨31, 0, .rc, 0x0⟩]⟩,
  ⟨0x100AC, 1, 0x0, 1, 0x0, [⟨31, 0, .rc, 0x0⟩]⟩,
  ⟨0x100B0, 1, 0x0, 1, 0x0, [⟨31, 0, .rc, 0x0⟩]⟩,
  ⟨0x100C0, 1, 0x0, 1, 0x0, [⟨5, 0, .w1c, 0x0⟩]⟩,
  ⟨0x100C4, 1, 0x0, 1, 0x0, [⟨5, 0, .rw, 0x3E⟩]⟩,
  ⟨0x10100, 6, 0x10, 1, 0x0, [⟨31, 29, .ro, 0x0⟩, ⟨28, 26, .ro, 0x0⟩, ⟨25, 25, .ro, 0x0⟩, ⟨11, 0, .ro, 0x0⟩]⟩,
  ⟨0x10104, 6, 0x10, 1, 0x0, [⟨31, 0, .ro, 0x0⟩]⟩,
  ⟨0x10108, 6, 0x10, 1, 0x0, [⟨31, 0, .ro, 0x0⟩]⟩,
  ⟨0x1010C, 6, 0x10, 1, 0x0, [⟨31, 0, .ro, 0x0⟩]⟩]

/-- The registers of block CLK (13_clock_references.md). -/
def regRowsCLK : List RegRow := regRowsCLK0 ++ regRowsCLK1

def regRowsTIME0 : List RegRow := [
  ⟨0x20000, 1, 0x0, 1, 0x0, [⟨8, 8, .wo, 0x0⟩, ⟨7, 6, .rw, 0x0⟩, ⟨5, 4, .rw, 0x0⟩, ⟨2, 2, .rw, 0x1⟩, ⟨1, 0, .rw, 0x0⟩]⟩,
  ⟨0x20004, 1, 0x0, 1, 0x0, [⟨9, 9, .ro, 0x0⟩, ⟨8, 8, .ro, 0x0⟩, ⟨7, 7, .ro, 0x0⟩, ⟨6, 4, .ro, 0x0⟩, ⟨2, 0, .ro, 0x0⟩]⟩,
  ⟨0x20008, 1, 0x0, 1, 0x0, [⟨31, 0, .ro, 0x0⟩]⟩,
  ⟨0x2000C, 1, 0x0, 1, 0x0, [⟨31, 0, .ro, 0x0⟩]⟩,
  ⟨0x20010, 1, 0x0, 1, 0x0, [⟨15, 0, .ro, 0x0⟩]⟩,
  ⟨0x20014, 1, 0x0, 1, 0x0, [⟨31, 0, .rw, 0x0⟩]⟩,
  ⟨0x20018, 1, 0x0, 1, 0x0, [⟨31, 0, .rw, 0x0⟩]⟩,
  ⟨0x2001C, 1, 0x0, 1, 0x0, [⟨15, 0, .rw, 0x0⟩]⟩,
  ⟨0x20020, 1, 0x0, 1, 0x0, [⟨31, 0, .ro, 0x0⟩]⟩,
  ⟨0x20024, 1, 0x0, 1, 0x0, [⟨19, 0, .rw, 0xA⟩]⟩,
  ⟨0x20080, 1, 0x0, 1, 0x0, [⟨31, 0, .rc, 0x0⟩]⟩,
  ⟨0x20084, 1, 0x0, 1, 0x0, [⟨31, 0, .rc, 0x0⟩]⟩,
  ⟨0x20088, 1, 0x0, 1, 0x0, [⟨31, 0, .rc, 0x0⟩]⟩,
  ⟨0x200C0, 1, 0x0, 1, 0x0, [⟨6, 0, .w1c, 0x0⟩]⟩,
  ⟨0x200C4, 1, 0x0, 1, 0x0, [⟨6, 0, .rw, 0x67⟩]⟩,
  ⟨0x20100, 2, 0x80, 1, 0x0, [⟨15, 8, .rw, 0x8⟩, ⟨7, 0, .rw, 0x0⟩]⟩,
  ⟨0x20104, 2, 0x80, 1, 0x0, [⟨31, 0, .rw, 0x1000000⟩]⟩,
  ⟨0x20108, 2, 0x80, 1, 0x0, [⟨31, 0, .rw, 0x100000⟩]⟩,
  ⟨0x2010C, 2, 0x80, 1, 0x0, [⟨17, 0, .rw, 0x30D40⟩]⟩,
  ⟨0x20110, 2, 0x80, 1, 0x0, [⟨19, 0, .rw, 0x3E8⟩]⟩,
  ⟨0x20114, 2, 0x80, 1, 0x0, [⟨29, 0, .rw, 0x186A0⟩]⟩,
  ⟨0x20118, 2, 0x80, 1, 0x0, [⟨19, 0, .rw, 0x3E8⟩]⟩,
  ⟨0x2011C, 2, 0x80, 1, 0x0, [⟨15, 0, .rw, 0x3E8⟩]⟩,
  ⟨0x20120, 2, 0x80, 1, 0x0, [⟨31, 0, .rw, 0x0⟩]⟩]

def regRowsTIME1 : List RegRow := [
  ⟨0x20124, 2, 0x80, 1, 0x0, [⟨31, 0, .rw, 0x0⟩]⟩,
  ⟨0x20128, 2, 0x80, 1, 0x0, [⟨15, 0, .rw, 0x0⟩]⟩,
  ⟨0x2012C, 2, 0x80, 1, 0x0, [⟨31, 0, .rw, 0x0⟩]⟩,
  ⟨0x20130, 2, 0x80, 1, 0x0, [⟨31, 0, .rw, 0x0⟩]⟩,
  ⟨0x20134, 2, 0x80, 1, 0x0, [⟨15, 0, .rw, 0x0⟩]⟩,
  ⟨0x20138, 2, 0x80, 1, 0x0, [⟨31, 0, .rw, 0x0⟩]⟩,
  ⟨0x2013C, 2, 0x80, 1, 0x0, [⟨31, 0, .rw, 0x0⟩]⟩,
  ⟨0x20140, 2, 0x80, 1, 0x0, [⟨31, 16, .rw, 0x0⟩, ⟨15, 0, .rw, 0x0⟩]⟩,
  ⟨0x20144, 2, 0x80, 1, 0x0, [⟨31, 0, .ro, 0x0⟩]⟩,
  ⟨0x20148, 2, 0x80, 1, 0x0, [⟨31, 0, .ro, 0x0⟩]⟩,
  ⟨0x2014C, 2, 0x80, 1, 0x0, [⟨31, 0, .ro, 0x0⟩]⟩,
  ⟨0x20150, 2, 0x80, 1, 0x0, [⟨31, 0, .ro, 0x0⟩]⟩,
  ⟨0x20154, 2, 0x80, 1, 0x0, [⟨31, 0, .ro, 0x0⟩]⟩,
  ⟨0x20158, 2, 0x80, 1, 0x0, [⟨31, 0, .rc, 0x0⟩]⟩,
  ⟨0x20200, 2, 0x40, 1, 0x0, [⟨22, 16, .ro, 0x0⟩, ⟨6, 0, .ro, 0x0⟩]⟩,
  ⟨0x20204, 2, 0x40, 1, 0x0, [⟨31, 31, .rc, 0x0⟩, ⟨30, 30, .rc, 0x0⟩, ⟨15, 0, .rc, 0x0⟩]⟩,
  ⟨0x20208, 2, 0x40, 1, 0x0, [⟨31, 0, .ro, 0x0⟩]⟩,
  ⟨0x2020C, 2, 0x40, 1, 0x0, [⟨31, 0, .ro, 0x0⟩]⟩,
  ⟨0x20210, 2, 0x40, 1, 0x0, [⟨31, 0, .ro, 0x0⟩]⟩,
  ⟨0x20300, 2, 0x20, 1, 0x0, [⟨31, 0, .rc, 0x0⟩]⟩,
  ⟨0x20304, 2, 0x20, 1, 0x0, [⟨31, 0, .rc, 0x0⟩]⟩,
  ⟨0x20308, 2, 0x20, 1, 0x0, [⟨31, 0, .rc, 0x0⟩]⟩,
  ⟨0x2030C, 2, 0x20, 1, 0x0, [⟨31, 0, .rc, 0x0⟩]⟩,
  ⟨0x20310, 2, 0x20, 1, 0x0, [⟨31, 0, .rc, 0x0⟩]⟩]

/-- The registers of block TIME (12_network_time.md). -/
def regRowsTIME : List RegRow := regRowsTIME0 ++ regRowsTIME1

def regRowsNET0 : List RegRow := [
  ⟨0x30000, 2, 0x10000, 1, 0x0, [⟨8, 8, .rw, 0x0⟩, ⟨7, 7, .rw, 0x0⟩, ⟨6, 6, .rw, 0x0⟩, ⟨5, 5, .rw, 0x0⟩, ⟨4, 4, .rw, 0x0⟩, ⟨3, 3, .rw, 0x1⟩, ⟨2, 0, .rw, 0x0⟩]⟩,
  ⟨0x30004, 2, 0x10000, 1, 0x0, [⟨8, 8, .ro, 0x0⟩, ⟨7, 7, .ro, 0x0⟩, ⟨6, 6, .ro, 0x0⟩, ⟨5, 5, .ro, 0x0⟩, ⟨4, 4, .ro, 0x0⟩, ⟨3, 1, .ro, 0x0⟩, ⟨0, 0, .ro, 0x0⟩]⟩,
  ⟨0x30008, 2, 0x10000, 1, 0x0, [⟨13, 0, .rw, 0x5F2⟩]⟩,
  ⟨0x3000C, 2, 0x10000, 1, 0x0, [⟨31, 0, .rw, 0x0⟩]⟩,
  ⟨0x30010, 2, 0x10000, 1, 0x0, [⟨15, 0, .rw, 0x0⟩]⟩,
  ⟨0x30014, 2, 0x10000, 1, 0x0, [⟨31, 0, .rw, 0x0⟩]⟩,
  ⟨0x30018, 2, 0x10000, 1, 0x0, [⟨31, 0, .rw, 0x0⟩]⟩,
  ⟨0x3001C, 2, 0x10000, 1, 0x0, [⟨31, 0, .rw, 0x0⟩]⟩,
  ⟨0x30020, 2, 0x10000, 1, 0x0, [⟨30, 28, .rw, 0x7⟩, ⟨26, 24, .rw, 0x6⟩, ⟨22, 20, .rw, 0x0⟩, ⟨11, 0, .rw, 0x0⟩]⟩,
  ⟨0x30024, 2, 0x10000, 1, 0x0, [⟨31, 16, .rw, 0xFFFF⟩, ⟨15, 8, .rw, 0x0⟩, ⟨3, 3, .rw, 0x0⟩, ⟨2, 2, .rw, 0x0⟩, ⟨1, 1, .rw, 0x0⟩, ⟨0, 0, .rw, 0x0⟩]⟩,
  ⟨0x30028, 2, 0x10000, 1, 0x0, [⟨31, 16, .rw, 0x300⟩, ⟨15, 0, .rw, 0x200⟩]⟩,
  ⟨0x3002C, 2, 0x10000, 1, 0x0, [⟨31, 0, .rw, 0x0⟩]⟩,
  ⟨0x30030, 2, 0x10000, 1, 0x0, [⟨31, 0, .rw, 0x0⟩]⟩,
  ⟨0x30034, 2, 0x10000, 1, 0x0, [⟨15, 0, .rw, 0x3E8⟩]⟩,
  ⟨0x30038, 2, 0x10000, 1, 0x0, [⟨8, 8, .rw, 0x0⟩, ⟨7, 0, .rw, 0x0⟩]⟩,
  ⟨0x3003C, 2, 0x10000, 1, 0x0, [⟨8, 8, .w1c, 0x0⟩, ⟨7, 0, .w1c, 0x0⟩]⟩,
  ⟨0x30080, 2, 0x10000, 1, 0x0, [⟨31, 0, .rc, 0x0⟩]⟩,
  ⟨0x30084, 2, 0x10000, 1, 0x0, [⟨31, 0, .rc, 0x0⟩]⟩,
  ⟨0x30088, 2, 0x10000, 1, 0x0, [⟨31, 0, .rc, 0x0⟩]⟩,
  ⟨0x3008C, 2, 0x10000, 1, 0x0, [⟨31, 0, .rc, 0x0⟩]⟩,
  ⟨0x30090, 2, 0x10000, 1, 0x0, [⟨31, 0, .rc, 0x0⟩]⟩,
  ⟨0x30094, 2, 0x10000, 1, 0x0, [⟨31, 0, .rc, 0x0⟩]⟩,
  ⟨0x30098, 2, 0x10000, 1, 0x0, [⟨31, 0, .rc, 0x0⟩]⟩,
  ⟨0x3009C, 2, 0x10000, 1, 0x0, [⟨31, 0, .rc, 0x0⟩]⟩]

def regRowsNET1 : List RegRow := [
  ⟨0x300A0, 2, 0x10000, 1, 0x0, [⟨31, 0, .rc, 0x0⟩]⟩,
  ⟨0x300A4, 2, 0x10000, 1, 0x0, [⟨31, 0, .rc, 0x0⟩]⟩,
  ⟨0x300A8, 2, 0x10000, 1, 0x0, [⟨31, 0, .rc, 0x0⟩]⟩,
  ⟨0x300AC, 2, 0x10000, 1, 0x0, [⟨31, 0, .rc, 0x0⟩]⟩,
  ⟨0x300B0, 2, 0x10000, 1, 0x0, [⟨31, 0, .rc, 0x0⟩]⟩,
  ⟨0x300B4, 2, 0x10000, 1, 0x0, [⟨31, 0, .rc, 0x0⟩]⟩,
  ⟨0x300B8, 2, 0x10000, 1, 0x0, [⟨31, 0, .rc, 0x0⟩]⟩,
  ⟨0x300BC, 2, 0x10000, 1, 0x0, [⟨31, 0, .rc, 0x0⟩]⟩,
  ⟨0x300C0, 2, 0x10000, 1, 0x0, [⟨31, 0, .rc, 0x0⟩]⟩,
  ⟨0x300C4, 2, 0x10000, 1, 0x0, [⟨31, 0, .rc, 0x0⟩]⟩,
  ⟨0x300E0, 2, 0x10000, 1, 0x0, [⟨7, 0, .w1c, 0x0⟩]⟩,
  ⟨0x300E4, 2, 0x10000, 1, 0x0, [⟨7, 0, .rw, 0xE0⟩]⟩,
  ⟨0x30100, 2, 0x10000, 32, 0x8, [⟨31, 0, .rw, 0x0⟩]⟩,
  ⟨0x30104, 2, 0x10000, 32, 0x8, [⟨31, 31, .rw, 0x0⟩, ⟨15, 0, .rw, 0x0⟩]⟩,
  ⟨0x30200, 2, 0x10000, 32, 0x10, [⟨31, 0, .rw, 0x0⟩]⟩,
  ⟨0x30204, 2, 0x10000, 32, 0x10, [⟨31, 0, .rw, 0x0⟩]⟩,
  ⟨0x30208, 2, 0x10000, 32, 0x10, [⟨31, 31, .rw, 0x0⟩, ⟨15, 0, .rw, 0x0⟩]⟩,
  ⟨0x30400, 8, 0x100, 32, 0x4, [⟨31, 0, .rw, 0x0⟩]⟩,
  ⟨0x40400, 8, 0x100, 32, 0x4, [⟨31, 0, .rw, 0x0⟩]⟩,
  ⟨0x30480, 2, 0x10000, 8, 0x100, [⟨15, 0, .rw, 0x0⟩]⟩]

/-- The registers of block NET (11_ethernet_ports.md). -/
def regRowsNET : List RegRow := regRowsNET0 ++ regRowsNET1

def regRowsSTRM0 : List RegRow := [
  ⟨0x50000, 1, 0x0, 1, 0x0, [⟨24, 16, .ro, 0x0⟩, ⟨15, 8, .ro, 0x0⟩, ⟨1, 1, .ro, 0x0⟩, ⟨0, 0, .ro, 0x0⟩]⟩,
  ⟨0x50004, 1, 0x0, 1, 0x0, [⟨0, 0, .rw, 0x1⟩]⟩,
  ⟨0x50008, 1, 0x0, 1, 0x0, [⟨7, 0, .ro, 0x8⟩]⟩,
  ⟨0x5000C, 1, 0x0, 1, 0x0, [⟨13, 0, .ro, 0x0⟩]⟩,
  ⟨0x50010, 1, 0x0, 1, 0x0, [⟨31, 20, .ro, 0x0⟩]⟩,
  ⟨0x50014, 1, 0x0, 1, 0x0, [⟨7, 0, .ro, 0x0⟩]⟩,
  ⟨0x50080, 1, 0x0, 1, 0x0, [⟨31, 0, .rc, 0x0⟩]⟩,
  ⟨0x50084, 1, 0x0, 1, 0x0, [⟨31, 0, .rc, 0x0⟩]⟩,
  ⟨0x50088, 1, 0x0, 1, 0x0, [⟨31, 0, .rc, 0x0⟩]⟩,
  ⟨0x5008C, 1, 0x0, 1, 0x0, [⟨31, 0, .rc, 0x0⟩]⟩,
  ⟨0x50090, 1, 0x0, 1, 0x0, [⟨31, 0, .rc, 0x0⟩]⟩,
  ⟨0x50094, 1, 0x0, 1, 0x0, [⟨31, 0, .rc, 0x0⟩]⟩,
  ⟨0x50098, 1, 0x0, 1, 0x0, [⟨31, 0, .rc, 0x0⟩]⟩,
  ⟨0x5009C, 1, 0x0, 1, 0x0, [⟨31, 0, .rc, 0x0⟩]⟩,
  ⟨0x500A0, 1, 0x0, 1, 0x0, [⟨31, 0, .rc, 0x0⟩]⟩,
  ⟨0x500C0, 1, 0x0, 1, 0x0, [⟨4, 0, .w1c, 0x0⟩]⟩,
  ⟨0x500C4, 1, 0x0, 1, 0x0, [⟨4, 0, .rw, 0x1A⟩]⟩,
  ⟨0x51000, 256, 0x20, 1, 0x0, [⟨31, 29, .ro, 0x0⟩, ⟨28, 28, .ro, 0x0⟩, ⟨27, 27, .ro, 0x0⟩, ⟨15, 0, .ro, 0x0⟩]⟩,
  ⟨0x51004, 256, 0x20, 1, 0x0, [⟨31, 0, .rc, 0x0⟩]⟩,
  ⟨0x51008, 256, 0x20, 1, 0x0, [⟨31, 0, .rc, 0x0⟩]⟩,
  ⟨0x5100C, 256, 0x20, 1, 0x0, [⟨31, 0, .rc, 0x0⟩]⟩,
  ⟨0x51010, 256, 0x20, 1, 0x0, [⟨31, 0, .rc, 0x0⟩]⟩,
  ⟨0x51014, 256, 0x20, 1, 0x0, [⟨31, 0, .rc, 0x0⟩]⟩,
  ⟨0x51018, 256, 0x20, 1, 0x0, [⟨31, 16, .rc, 0x0⟩, ⟨15, 0, .rc, 0x0⟩]⟩]

def regRowsSTRM1 : List RegRow := [
  ⟨0x5101C, 256, 0x20, 1, 0x0, [⟨31, 16, .rc, 0x0⟩, ⟨15, 0, .rc, 0x0⟩]⟩,
  ⟨0x53000, 128, 0x10, 1, 0x0, [⟨31, 31, .ro, 0x0⟩, ⟨30, 30, .ro, 0x0⟩, ⟨15, 0, .ro, 0x0⟩]⟩,
  ⟨0x53004, 128, 0x10, 1, 0x0, [⟨31, 0, .rc, 0x0⟩]⟩,
  ⟨0x53008, 128, 0x10, 1, 0x0, [⟨31, 0, .ro, 0x0⟩]⟩]

/-- The registers of block STRM (10_media_streams.md). -/
def regRowsSTRM : List RegRow := regRowsSTRM0 ++ regRowsSTRM1

def regRowsGEOM0 : List RegRow := [
  ⟨0x60000, 1, 0x0, 1, 0x0, [⟨1, 1, .wo, 0x0⟩, ⟨0, 0, .rw, 0x0⟩]⟩,
  ⟨0x60004, 1, 0x0, 1, 0x0, [⟨2, 2, .ro, 0x0⟩, ⟨1, 1, .ro, 0x0⟩, ⟨0, 0, .ro, 0x0⟩]⟩,
  ⟨0x60008, 1, 0x0, 1, 0x0, [⟨1, 0, .ro, 0x0⟩]⟩,
  ⟨0x6000C, 1, 0x0, 1, 0x0, [⟨31, 20, .ro, 0x0⟩, ⟨19, 10, .ro, 0x0⟩, ⟨9, 0, .ro, 0x0⟩]⟩,
  ⟨0x60010, 1, 0x0, 1, 0x0, [⟨31, 0, .rw, 0x23D337FA⟩]⟩,
  ⟨0x60014, 1, 0x0, 1, 0x0, [⟨23, 0, .rw, 0x1A3⟩]⟩,
  ⟨0x60018, 1, 0x0, 1, 0x0, [⟨19, 0, .ro, 0x75000⟩]⟩,
  ⟨0x6001C, 1, 0x0, 1, 0x0, [⟨19, 0, .ro, 0x0⟩]⟩,
  ⟨0x60020, 1, 0x0, 1, 0x0, [⟨19, 0, .rc, 0x0⟩]⟩,
  ⟨0x60024, 1, 0x0, 1, 0x0, [⟨10, 0, .ro, 0x0⟩]⟩,
  ⟨0x60028, 1, 0x0, 1, 0x0, [⟨19, 0, .ro, 0x0⟩]⟩,
  ⟨0x6002C, 1, 0x0, 1, 0x0, [⟨31, 0, .ro, 0x0⟩]⟩,
  ⟨0x60030, 1, 0x0, 1, 0x0, [⟨27, 0, .ro, 0x0⟩]⟩,
  ⟨0x60040, 1, 0x0, 1, 0x0, [⟨31, 0, .rc, 0x0⟩]⟩,
  ⟨0x60044, 1, 0x0, 1, 0x0, [⟨31, 0, .rc, 0x0⟩]⟩,
  ⟨0x60048, 1, 0x0, 1, 0x0, [⟨31, 0, .rc, 0x0⟩]⟩,
  ⟨0x6004C, 1, 0x0, 1, 0x0, [⟨31, 0, .rc, 0x0⟩]⟩,
  ⟨0x60050, 1, 0x0, 1, 0x0, [⟨31, 0, .rc, 0x0⟩]⟩,
  ⟨0x60054, 1, 0x0, 1, 0x0, [⟨31, 0, .rc, 0x0⟩]⟩,
  ⟨0x60058, 1, 0x0, 1, 0x0, [⟨31, 0, .rc, 0x0⟩]⟩,
  ⟨0x6005C, 1, 0x0, 1, 0x0, [⟨31, 0, .rc, 0x0⟩]⟩,
  ⟨0x60060, 1, 0x0, 1, 0x0, [⟨7, 0, .w1c, 0x0⟩]⟩,
  ⟨0x60064, 1, 0x0, 1, 0x0, [⟨7, 0, .rw, 0x80⟩]⟩,
  ⟨0x68000, 1024, 0x20, 1, 0x0, [⟨31, 0, .rw, 0x0⟩]⟩]

def regRowsGEOM1 : List RegRow := [
  ⟨0x68004, 1024, 0x20, 1, 0x0, [⟨31, 0, .rw, 0x0⟩]⟩,
  ⟨0x68008, 1024, 0x20, 1, 0x0, [⟨31, 0, .rw, 0x0⟩]⟩,
  ⟨0x6800C, 1024, 0x20, 1, 0x0, [⟨17, 0, .rw, 0x0⟩]⟩,
  ⟨0x68010, 1024, 0x20, 1, 0x0, [⟨23, 0, .rw, 0x400000⟩]⟩,
  ⟨0x68014, 1024, 0x20, 1, 0x0, [⟨31, 31, .rw, 0x0⟩, ⟨30, 30, .rw, 0x0⟩, ⟨29, 29, .rw, 0x0⟩, ⟨28, 28, .ro, 0x0⟩, ⟨25, 24, .rw, 0x0⟩, ⟨23, 16, .rw, 0x0⟩, ⟨15, 8, .rw, 0x0⟩, ⟨5, 0, .ro, 0x0⟩]⟩,
  ⟨0x6801C, 1024, 0x20, 1, 0x0, [⟨31, 31, .ro, 0x0⟩, ⟨30, 30, .ro, 0x0⟩, ⟨29, 29, .ro, 0x0⟩, ⟨28, 28, .ro, 0x0⟩, ⟨9, 0, .ro, 0x0⟩]⟩]

/-- The registers of block GEOM (02_object_geometry.md). -/
def regRowsGEOM : List RegRow := regRowsGEOM0 ++ regRowsGEOM1

def regRowsPATH0 : List RegRow := [
  ⟨0x70000, 1, 0x0, 1, 0x0, [⟨5, 5, .ro, 0x0⟩, ⟨4, 4, .ro, 0x0⟩, ⟨3, 0, .ro, 0xF⟩]⟩,
  ⟨0x70004, 1, 0x0, 1, 0x0, [⟨19, 0, .ro, 0x0⟩]⟩,
  ⟨0x70008, 1, 0x0, 1, 0x0, [⟨19, 0, .ro, 0x0⟩]⟩,
  ⟨0x7000C, 1, 0x0, 1, 0x0, [⟨14, 0, .rw, 0x1000⟩]⟩,
  ⟨0x70010, 1, 0x0, 1, 0x0, [⟨22, 0, .ro, 0x0⟩]⟩,
  ⟨0x70014, 1, 0x0, 1, 0x0, [⟨22, 0, .ro, 0x0⟩]⟩,
  ⟨0x70018, 1, 0x0, 1, 0x0, [⟨31, 20, .ro, 0x0⟩]⟩,
  ⟨0x7001C, 1, 0x0, 1, 0x0, [⟨7, 0, .ro, 0x0⟩]⟩,
  ⟨0x70020, 1, 0x0, 1, 0x0, [⟨19, 0, .ro, 0x0⟩]⟩,
  ⟨0x70024, 1, 0x0, 1, 0x0, [⟨19, 0, .ro, 0x0⟩]⟩,
  ⟨0x70028, 1, 0x0, 1, 0x0, [⟨19, 0, .rc, 0x0⟩]⟩,
  ⟨0x7002C, 1, 0x0, 1, 0x0, [⟨31, 0, .ro, 0x0⟩]⟩,
  ⟨0x70030, 1, 0x0, 1, 0x0, [⟨31, 0, .ro, 0x0⟩]⟩,
  ⟨0x70034, 4, 0x4, 1, 0x0, [⟨17, 0, .ro, 0x0⟩]⟩,
  ⟨0x70080, 1, 0x0, 1, 0x0, [⟨31, 0, .rc, 0x0⟩]⟩,
  ⟨0x70084, 1, 0x0, 1, 0x0, [⟨31, 0, .rc, 0x0⟩]⟩,
  ⟨0x70088, 1, 0x0, 1, 0x0, [⟨31, 0, .rc, 0x0⟩]⟩,
  ⟨0x7008C, 1, 0x0, 1, 0x0, [⟨31, 0, .rc, 0x0⟩]⟩,
  ⟨0x70090, 1, 0x0, 1, 0x0, [⟨31, 0, .rc, 0x0⟩]⟩,
  ⟨0x70094, 1, 0x0, 1, 0x0, [⟨31, 0, .rc, 0x0⟩]⟩,
  ⟨0x70098, 1, 0x0, 1, 0x0, [⟨31, 0, .rc, 0x0⟩]⟩,
  ⟨0x7009C, 1, 0x0, 1, 0x0, [⟨31, 0, .rc, 0x0⟩]⟩,
  ⟨0x700A0, 1, 0x0, 1, 0x0, [⟨31, 0, .rc, 0x0⟩]⟩,
  ⟨0x700C0, 1, 0x0, 1, 0x0, [⟨7, 0, .w1c, 0x0⟩]⟩]

def regRowsPATH1 : List RegRow := [
  ⟨0x700C4, 1, 0x0, 1, 0x0, [⟨7, 0, .rw, 0xC0⟩]⟩]

/-- The registers of block PATH (03_path_rendering.md). -/
def regRowsPATH : List RegRow := regRowsPATH0 ++ regRowsPATH1

def regRowsCONV0 : List RegRow := [
  ⟨0x80000, 1, 0x0, 1, 0x0, [⟨4, 4, .ro, 0x0⟩, ⟨3, 3, .ro, 0x0⟩, ⟨2, 2, .ro, 0x0⟩, ⟨1, 0, .ro, 0x3⟩]⟩,
  ⟨0x80004, 1, 0x0, 1, 0x0, [⟨12, 0, .rw, 0x40⟩]⟩,
  ⟨0x80008, 1, 0x0, 1, 0x0, [⟨19, 0, .ro, 0x3A800⟩]⟩,
  ⟨0x8000C, 2, 0x4, 1, 0x0, [⟨19, 0, .ro, 0x0⟩]⟩,
  ⟨0x80014, 2, 0x4, 1, 0x0, [⟨19, 0, .ro, 0x0⟩]⟩,
  ⟨0x8001C, 2, 0x4, 1, 0x0, [⟨19, 0, .rc, 0x0⟩]⟩,
  ⟨0x80024, 1, 0x0, 1, 0x0, [⟨21, 16, .ro, 0x0⟩, ⟨5, 0, .ro, 0x0⟩]⟩,
  ⟨0x80028, 1, 0x0, 1, 0x0, [⟨31, 20, .ro, 0x0⟩]⟩,
  ⟨0x8002C, 1, 0x0, 1, 0x0, [⟨7, 0, .ro, 0x0⟩]⟩,
  ⟨0x80030, 1, 0x0, 1, 0x0, [⟨31, 0, .ro, 0x0⟩]⟩,
  ⟨0x80034, 1, 0x0, 1, 0x0, [⟨27, 0, .ro, 0x0⟩]⟩,
  ⟨0x80040, 1, 0x0, 1, 0x0, [⟨31, 0, .ro, 0x1699C0F⟩]⟩,
  ⟨0x80044, 1, 0x0, 1, 0x0, [⟨31, 0, .ro, 0x3FB2784⟩]⟩,
  ⟨0x80048, 1, 0x0, 1, 0x0, [⟨31, 0, .ro, 0x11⟩]⟩,
  ⟨0x8004C, 1, 0x0, 1, 0x0, [⟨0, 0, .ro, 0x0⟩]⟩,
  ⟨0x80060, 1, 0x0, 1, 0x0, [⟨2, 2, .rw, 0x0⟩, ⟨1, 0, .rw, 0x0⟩]⟩,
  ⟨0x80064, 1, 0x0, 1, 0x0, [⟨23, 0, .rw, 0x0⟩]⟩,
  ⟨0x80068, 1, 0x0, 1, 0x0, [⟨31, 0, .rw, 0x1⟩]⟩,
  ⟨0x8006C, 1, 0x0, 1, 0x0, [⟨31, 0, .rw, 0x0⟩]⟩,
  ⟨0x80070, 1, 0x0, 1, 0x0, [⟨15, 0, .rw, 0x0⟩]⟩,
  ⟨0x80074, 1, 0x0, 1, 0x0, [⟨31, 0, .rw, 0x0⟩]⟩,
  ⟨0x80078, 1, 0x0, 1, 0x0, [⟨15, 0, .rw, 0x0⟩]⟩,
  ⟨0x8007C, 1, 0x0, 1, 0x0, [⟨31, 0, .rw, 0x0⟩]⟩,
  ⟨0x80080, 1, 0x0, 1, 0x0, [⟨15, 0, .rw, 0x0⟩]⟩]

def regRowsCONV1 : List RegRow := [
  ⟨0x80090, 1, 0x0, 1, 0x0, [⟨31, 31, .rw, 0x0⟩, ⟨12, 4, .rw, 0x0⟩, ⟨3, 0, .rw, 0x0⟩]⟩,
  ⟨0x80094, 1, 0x0, 1, 0x0, [⟨31, 0, .ro, 0x0⟩]⟩,
  ⟨0x80098, 1, 0x0, 1, 0x0, [⟨31, 0, .ro, 0x0⟩]⟩,
  ⟨0x800C0, 16, 0x4, 1, 0x0, [⟨31, 0, .rw, 0x0⟩]⟩,
  ⟨0x80100, 1, 0x0, 1, 0x0, [⟨31, 0, .rc, 0x0⟩]⟩,
  ⟨0x80104, 1, 0x0, 1, 0x0, [⟨31, 0, .rc, 0x0⟩]⟩,
  ⟨0x80108, 1, 0x0, 1, 0x0, [⟨31, 0, .rc, 0x0⟩]⟩,
  ⟨0x8010C, 1, 0x0, 1, 0x0, [⟨31, 0, .rc, 0x0⟩]⟩,
  ⟨0x80110, 1, 0x0, 1, 0x0, [⟨31, 0, .rc, 0x0⟩]⟩,
  ⟨0x80114, 1, 0x0, 1, 0x0, [⟨31, 0, .rc, 0x0⟩]⟩,
  ⟨0x80118, 1, 0x0, 1, 0x0, [⟨31, 0, .rc, 0x0⟩]⟩,
  ⟨0x8011C, 1, 0x0, 1, 0x0, [⟨31, 0, .rc, 0x0⟩]⟩,
  ⟨0x80120, 1, 0x0, 1, 0x0, [⟨31, 0, .rc, 0x0⟩]⟩,
  ⟨0x80140, 1, 0x0, 1, 0x0, [⟨5, 0, .w1c, 0x0⟩]⟩,
  ⟨0x80144, 1, 0x0, 1, 0x0, [⟨5, 0, .rw, 0x28⟩]⟩,
  ⟨0x84000, 512, 0x20, 1, 0x0, [⟨31, 28, .ro, 0x0⟩, ⟨27, 24, .ro, 0x0⟩, ⟨23, 23, .ro, 0x0⟩, ⟨19, 18, .ro, 0x0⟩, ⟨17, 16, .ro, 0x0⟩]⟩,
  ⟨0x84004, 512, 0x20, 1, 0x0, [⟨7, 0, .ro, 0x0⟩]⟩,
  ⟨0x84008, 512, 0x20, 4, 0x4, [⟨31, 0, .ro, 0x0⟩]⟩,
  ⟨0x84018, 512, 0x20, 1, 0x0, [⟨31, 0, .ro, 0x0⟩]⟩,
  ⟨0x8401C, 512, 0x20, 1, 0x0, [⟨31, 0, .ro, 0x0⟩]⟩]

/-- The registers of block CONV (04_room_correction.md). -/
def regRowsCONV : List RegRow := regRowsCONV0 ++ regRowsCONV1

def regRowsKPU0 : List RegRow := [
  ⟨0x90000, 1, 0x0, 1, 0x0, [⟨31, 0, .ro, 0xFFFFFFFF⟩]⟩,
  ⟨0x90004, 1, 0x0, 1, 0x0, [⟨16, 16, .w1c, 0x0⟩, ⟨10, 8, .ro, 0x2⟩, ⟨6, 4, .ro, 0x2⟩, ⟨2, 0, .rw, 0x2⟩]⟩,
  ⟨0x90008, 1, 0x0, 1, 0x0, [⟨31, 0, .rw, 0x0⟩]⟩,
  ⟨0x9000C, 1, 0x0, 1, 0x0, [⟨31, 0, .ro, 0x0⟩]⟩,
  ⟨0x90010, 1, 0x0, 1, 0x0, [⟨31, 0, .w1c, 0x0⟩]⟩,
  ⟨0x90014, 1, 0x0, 1, 0x0, [⟨31, 0, .rc, 0x0⟩]⟩,
  ⟨0x90018, 1, 0x0, 1, 0x0, [⟨31, 0, .rc, 0x0⟩]⟩,
  ⟨0x9001C, 1, 0x0, 1, 0x0, [⟨31, 0, .rc, 0x0⟩]⟩,
  ⟨0x90020, 1, 0x0, 1, 0x0, [⟨31, 0, .rc, 0x0⟩]⟩,
  ⟨0x90024, 1, 0x0, 1, 0x0, [⟨31, 0, .rc, 0x0⟩]⟩,
  ⟨0x90040, 1, 0x0, 1, 0x0, [⟨3, 0, .w1c, 0x0⟩]⟩,
  ⟨0x90044, 1, 0x0, 1, 0x0, [⟨3, 0, .rw, 0xC⟩]⟩,
  ⟨0x91000, 32, 0x20, 1, 0x0, [⟨31, 29, .ro, 0x0⟩, ⟨28, 24, .ro, 0x0⟩, ⟨11, 0, .ro, 0x0⟩]⟩,
  ⟨0x91004, 32, 0x20, 1, 0x0, [⟨11, 0, .ro, 0x0⟩]⟩,
  ⟨0x91008, 32, 0x20, 1, 0x0, [⟨31, 0, .ro, 0x0⟩]⟩,
  ⟨0x9100C, 32, 0x20, 1, 0x0, [⟨31, 0, .wo, 0x0⟩]⟩]

/-- The registers of block KPU (05_kernel_processors.md). -/
def regRowsKPU : List RegRow := regRowsKPU0

def regRowsDISP0 : List RegRow := [
  ⟨0xA0000, 1, 0x0, 1, 0x0, [⟨3, 3, .ro, 0x0⟩, ⟨2, 2, .ro, 0x0⟩, ⟨1, 0, .ro, 0x0⟩]⟩,
  ⟨0xA0004, 1, 0x0, 1, 0x0, [⟨31, 31, .wo, 0x0⟩, ⟨8, 8, .rw, 0x1⟩, ⟨2, 0, .rw, 0x0⟩]⟩,
  ⟨0xA0008, 1, 0x0, 1, 0x0, [⟨31, 31, .wo, 0x0⟩, ⟨12, 12, .wo, 0x0⟩, ⟨11, 0, .wo, 0x0⟩]⟩,
  ⟨0xA000C, 1, 0x0, 1, 0x0, [⟨21, 16, .ro, 0x0⟩, ⟨12, 0, .ro, 0x0⟩]⟩,
  ⟨0xA0010, 1, 0x0, 1, 0x0, [⟨15, 0, .ro, 0x0⟩]⟩,
  ⟨0xA0020, 8, 0x4, 1, 0x0, [⟨12, 0, .ro, 0x0⟩]⟩,
  ⟨0xA0040, 8, 0x4, 1, 0x0, [⟨12, 0, .rc, 0x0⟩]⟩,
  ⟨0xA0080, 16, 0x4, 1, 0x0, [⟨31, 0, .ro, 0x0⟩]⟩,
  ⟨0xA0100, 32, 0x4, 1, 0x0, [⟨19, 0, .ro, 0x0⟩]⟩,
  ⟨0xA0200, 1, 0x0, 1, 0x0, [⟨31, 0, .rc, 0x0⟩]⟩,
  ⟨0xA0204, 1, 0x0, 1, 0x0, [⟨31, 0, .rc, 0x0⟩]⟩,
  ⟨0xA0208, 1, 0x0, 1, 0x0, [⟨31, 0, .rc, 0x0⟩]⟩,
  ⟨0xA020C, 1, 0x0, 1, 0x0, [⟨31, 0, .rc, 0x0⟩]⟩,
  ⟨0xA0210, 1, 0x0, 1, 0x0, [⟨31, 0, .rc, 0x0⟩]⟩,
  ⟨0xA0214, 1, 0x0, 1, 0x0, [⟨31, 0, .rc, 0x0⟩]⟩,
  ⟨0xA0218, 1, 0x0, 1, 0x0, [⟨31, 0, .rc, 0x0⟩]⟩,
  ⟨0xA021C, 1, 0x0, 1, 0x0, [⟨31, 0, .rc, 0x0⟩]⟩,
  ⟨0xA0220, 1, 0x0, 1, 0x0, [⟨31, 0, .rc, 0x0⟩]⟩,
  ⟨0xA0224, 1, 0x0, 1, 0x0, [⟨31, 0, .rc, 0x0⟩]⟩,
  ⟨0xA0228, 1, 0x0, 1, 0x0, [⟨31, 0, .rc, 0x0⟩]⟩,
  ⟨0xA0240, 1, 0x0, 1, 0x0, [⟨5, 0, .w1c, 0x0⟩]⟩,
  ⟨0xA0244, 1, 0x0, 1, 0x0, [⟨5, 0, .rw, 0x38⟩]⟩,
  ⟨0xA1000, 4096, 0x4, 1, 0x0, [⟨31, 29, .ro, 0x0⟩, ⟨28, 27, .ro, 0x0⟩, ⟨26, 26, .ro, 0x0⟩, ⟨25, 21, .ro, 0x0⟩, ⟨20, 8, .ro, 0x0⟩, ⟨7, 0, .ro, 0x0⟩]⟩,
  ⟨0xA5000, 4096, 0x4, 1, 0x0, [⟨31, 29, .ro, 0x0⟩, ⟨28, 27, .ro, 0x0⟩, ⟨26, 26, .ro, 0x0⟩, ⟨25, 21, .ro, 0x0⟩, ⟨20, 8, .ro, 0x0⟩, ⟨7, 0, .ro, 0x0⟩]⟩]

/-- The registers of block DISP (06_graph_dispatch.md). -/
def regRowsDISP : List RegRow := regRowsDISP0

def regRowsXPT0 : List RegRow := [
  ⟨0xB0000, 1, 0x0, 1, 0x0, [⟨19, 19, .ro, 0x0⟩, ⟨18, 18, .ro, 0x0⟩, ⟨17, 17, .ro, 0x0⟩, ⟨16, 16, .ro, 0x0⟩, ⟨14, 0, .ro, 0x0⟩]⟩,
  ⟨0xB0004, 1, 0x0, 1, 0x0, [⟨31, 31, .rw, 0x0⟩, ⟨25, 16, .rw, 0x0⟩, ⟨8, 0, .rw, 0x0⟩]⟩,
  ⟨0xB0008, 1, 0x0, 1, 0x0, [⟨25, 24, .rw, 0x0⟩, ⟨23, 0, .rw, 0x0⟩]⟩,
  ⟨0xB0020, 8, 0x4, 1, 0x0, [⟨24, 0, .ro, 0x1000000⟩]⟩,
  ⟨0xB0040, 1, 0x0, 1, 0x0, [⟨31, 31, .ro, 0x0⟩, ⟨24, 0, .rw, 0x1000000⟩]⟩,
  ⟨0xB0044, 1, 0x0, 1, 0x0, [⟨2, 0, .w1c, 0x0⟩]⟩,
  ⟨0xB0048, 1, 0x0, 1, 0x0, [⟨0, 0, .wo, 0x0⟩]⟩,
  ⟨0xB0050, 1, 0x0, 1, 0x0, [⟨31, 31, .wo, 0x0⟩]⟩,
  ⟨0xB0054, 1, 0x0, 1, 0x0, [⟨19, 0, .rw, 0x1770⟩]⟩,
  ⟨0xB0058, 1, 0x0, 1, 0x0, [⟨24, 0, .rw, 0xFFE1D4⟩]⟩,
  ⟨0xB0080, 1, 0x0, 1, 0x0, [⟨31, 0, .rc, 0x0⟩]⟩,
  ⟨0xB0084, 1, 0x0, 1, 0x0, [⟨31, 0, .rc, 0x0⟩]⟩,
  ⟨0xB0088, 1, 0x0, 1, 0x0, [⟨31, 0, .rc, 0x0⟩]⟩,
  ⟨0xB008C, 1, 0x0, 1, 0x0, [⟨31, 0, .rc, 0x0⟩]⟩,
  ⟨0xB0090, 1, 0x0, 1, 0x0, [⟨31, 0, .rc, 0x0⟩]⟩,
  ⟨0xB0094, 1, 0x0, 1, 0x0, [⟨31, 0, .rc, 0x0⟩]⟩,
  ⟨0xB00A0, 1, 0x0, 1, 0x0, [⟨3, 0, .w1c, 0x0⟩]⟩,
  ⟨0xB00A4, 1, 0x0, 1, 0x0, [⟨3, 0, .rw, 0x8⟩]⟩,
  ⟨0xB0100, 96, 0x4, 1, 0x0, [⟨2, 0, .ro, 0x0⟩, ⟨6, 4, .ro, 0x0⟩, ⟨10, 8, .ro, 0x0⟩, ⟨14, 12, .ro, 0x0⟩, ⟨18, 16, .ro, 0x0⟩, ⟨22, 20, .ro, 0x0⟩, ⟨26, 24, .ro, 0x0⟩, ⟨30, 28, .ro, 0x0⟩]⟩,
  ⟨0xB0400, 128, 0x4, 1, 0x0, [⟨31, 31, .rw, 0x0⟩, ⟨8, 0, .rw, 0x0⟩]⟩,
  ⟨0xB2000, 1152, 0x10, 1, 0x0, [⟨31, 0, .ro, 0x0⟩]⟩,
  ⟨0xB2004, 1152, 0x10, 1, 0x0, [⟨31, 0, .ro, 0x0⟩]⟩,
  ⟨0xB2008, 1152, 0x10, 1, 0x0, [⟨0, 0, .w1c, 0x0⟩]⟩]

/-- The registers of block XPT (07_crosspoint_meters.md). -/
def regRowsXPT : List RegRow := regRowsXPT0

def regRowsTAKE0 : List RegRow := [
  ⟨0xC0000, 1, 0x0, 1, 0x0, [⟨25, 16, .ro, 0x0⟩, ⟨10, 10, .ro, 0x0⟩, ⟨9, 9, .ro, 0x0⟩, ⟨8, 8, .ro, 0x0⟩, ⟨6, 5, .ro, 0x0⟩, ⟨3, 1, .ro, 0x0⟩, ⟨0, 0, .ro, 0x0⟩]⟩,
  ⟨0xC0004, 1, 0x0, 1, 0x0, [⟨31, 16, .ro, 0x0⟩, ⟨15, 0, .ro, 0x0⟩]⟩,
  ⟨0xC0008, 1, 0x0, 1, 0x0, [⟨31, 0, .ro, 0x0⟩]⟩,
  ⟨0xC000C, 4, 0x4, 1, 0x0, [⟨31, 0, .ro, 0x0⟩]⟩,
  ⟨0xC001C, 1, 0x0, 1, 0x0, [⟨31, 0, .ro, 0x0⟩]⟩,
  ⟨0xC0020, 4, 0x4, 1, 0x0, [⟨31, 0, .ro, 0x0⟩]⟩,
  ⟨0xC0030, 1, 0x0, 1, 0x0, [⟨31, 0, .ro, 0x0⟩]⟩,
  ⟨0xC0034, 1, 0x0, 1, 0x0, [⟨27, 0, .ro, 0x0⟩]⟩,
  ⟨0xC0038, 1, 0x0, 1, 0x0, [⟨31, 0, .ro, 0x0⟩]⟩,
  ⟨0xC003C, 1, 0x0, 1, 0x0, [⟨27, 0, .ro, 0x0⟩]⟩,
  ⟨0xC0040, 1, 0x0, 1, 0x0, [⟨31, 20, .rw, 0x0⟩]⟩,
  ⟨0xC0044, 1, 0x0, 1, 0x0, [⟨7, 0, .rw, 0x10⟩]⟩,
  ⟨0xC0048, 1, 0x0, 1, 0x0, [⟨31, 0, .ro, 0x0⟩]⟩,
  ⟨0xC004C, 1, 0x0, 1, 0x0, [⟨31, 0, .ro, 0x0⟩]⟩,
  ⟨0xC0050, 1, 0x0, 1, 0x0, [⟨31, 0, .ro, 0x0⟩]⟩,
  ⟨0xC0054, 1, 0x0, 1, 0x0, [⟨0, 0, .rw, 0x1⟩]⟩,
  ⟨0xC0058, 1, 0x0, 1, 0x0, [⟨0, 0, .wo, 0x0⟩]⟩,
  ⟨0xC0080, 1, 0x0, 1, 0x0, [⟨31, 0, .rc, 0x0⟩]⟩,
  ⟨0xC0084, 1, 0x0, 1, 0x0, [⟨31, 0, .rc, 0x0⟩]⟩,
  ⟨0xC0088, 1, 0x0, 1, 0x0, [⟨31, 0, .rc, 0x0⟩]⟩,
  ⟨0xC008C, 1, 0x0, 1, 0x0, [⟨31, 0, .rc, 0x0⟩]⟩,
  ⟨0xC0090, 1, 0x0, 1, 0x0, [⟨31, 0, .rc, 0x0⟩]⟩,
  ⟨0xC0094, 1, 0x0, 1, 0x0, [⟨31, 0, .rc, 0x0⟩]⟩,
  ⟨0xC0098, 1, 0x0, 1, 0x0, [⟨31, 0, .rc, 0x0⟩]⟩]

def regRowsTAKE1 : List RegRow := [
  ⟨0xC009C, 1, 0x0, 1, 0x0, [⟨31, 0, .rc, 0x0⟩]⟩,
  ⟨0xC00C0, 1, 0x0, 1, 0x0, [⟨7, 0, .w1c, 0x0⟩]⟩,
  ⟨0xC00C4, 1, 0x0, 1, 0x0, [⟨7, 0, .rw, 0xBC⟩]⟩,
  ⟨0xC1000, 256, 0x20, 1, 0x0, [⟨31, 31, .ro, 0x0⟩, ⟨30, 30, .ro, 0x0⟩, ⟨29, 29, .ro, 0x0⟩, ⟨28, 28, .ro, 0x0⟩, ⟨27, 25, .ro, 0x0⟩, ⟨24, 24, .ro, 0x0⟩, ⟨23, 23, .ro, 0x0⟩, ⟨15, 0, .ro, 0x0⟩]⟩,
  ⟨0xC1004, 256, 0x20, 1, 0x0, [⟨31, 0, .ro, 0x0⟩]⟩,
  ⟨0xC1008, 256, 0x20, 1, 0x0, [⟨31, 0, .ro, 0x0⟩]⟩,
  ⟨0xC100C, 256, 0x20, 1, 0x0, [⟨31, 0, .ro, 0x0⟩]⟩,
  ⟨0xC1010, 256, 0x20, 1, 0x0, [⟨31, 0, .ro, 0x0⟩]⟩,
  ⟨0xC1014, 256, 0x20, 1, 0x0, [⟨31, 0, .ro, 0x0⟩]⟩,
  ⟨0xC1018, 256, 0x20, 1, 0x0, [⟨31, 0, .ro, 0x0⟩]⟩,
  ⟨0xC101C, 256, 0x20, 1, 0x0, [⟨31, 0, .ro, 0x0⟩]⟩]

/-- The registers of block TAKE (08_takes_cuts.md). -/
def regRowsTAKE : List RegRow := regRowsTAKE0 ++ regRowsTAKE1

def regRowsTDM0 : List RegRow := [
  ⟨0xD0000, 1, 0x0, 1, 0x0, [⟨31, 16, .ro, 0x0⟩, ⟨15, 0, .ro, 0x0⟩]⟩,
  ⟨0xD0004, 1, 0x0, 1, 0x0, [⟨1, 1, .rw, 0x0⟩, ⟨0, 0, .rw, 0x0⟩]⟩,
  ⟨0xD0040, 1, 0x0, 1, 0x0, [⟨2, 0, .w1c, 0x0⟩]⟩,
  ⟨0xD0044, 1, 0x0, 1, 0x0, [⟨2, 0, .rw, 0x1⟩]⟩,
  ⟨0xD0100, 16, 0x20, 1, 0x0, [⟨31, 31, .ro, 0x0⟩, ⟨30, 27, .ro, 0x0⟩, ⟨26, 22, .ro, 0x0⟩, ⟨21, 21, .ro, 0x0⟩, ⟨20, 20, .ro, 0x0⟩, ⟨19, 19, .ro, 0x0⟩, ⟨18, 18, .ro, 0x0⟩, ⟨17, 17, .ro, 0x0⟩, ⟨16, 16, .ro, 0x0⟩]⟩,
  ⟨0xD0104, 16, 0x20, 1, 0x0, [⟨31, 16, .rw, 0x0⟩, ⟨15, 0, .rw, 0x0⟩]⟩,
  ⟨0xD0108, 16, 0x20, 1, 0x0, [⟨31, 31, .ro, 0x0⟩, ⟨23, 16, .ro, 0x4⟩, ⟨15, 0, .ro, 0xA⟩]⟩,
  ⟨0xD010C, 16, 0x20, 1, 0x0, [⟨31, 0, .ro, 0x0⟩]⟩,
  ⟨0xD0110, 16, 0x20, 1, 0x0, [⟨31, 0, .ro, 0x0⟩]⟩,
  ⟨0xD0114, 16, 0x20, 1, 0x0, [⟨31, 0, .ro, 0x0⟩]⟩,
  ⟨0xD0118, 16, 0x20, 1, 0x0, [⟨31, 0, .ro, 0x0⟩]⟩,
  ⟨0xD011C, 16, 0x20, 1, 0x0, [⟨2, 0, .ro, 0x0⟩]⟩,
  ⟨0xD0400, 16, 0x8, 1, 0x0, [⟨31, 0, .rc, 0x0⟩]⟩,
  ⟨0xD0404, 16, 0x8, 1, 0x0, [⟨31, 0, .rc, 0x0⟩]⟩,
  ⟨0xD0480, 1, 0x0, 1, 0x0, [⟨31, 0, .rc, 0x0⟩]⟩]

/-- The registers of block TDM (14_local_audio_io.md). -/
def regRowsTDM : List RegRow := regRowsTDM0

def regRowsDEC0 : List RegRow := [
  ⟨0xE0000, 1, 0x0, 1, 0x0, [⟨1, 0, .ro, 0x0⟩]⟩,
  ⟨0xE0040, 1, 0x0, 1, 0x0, [⟨1, 0, .w1c, 0x0⟩]⟩,
  ⟨0xE0044, 1, 0x0, 1, 0x0, [⟨1, 0, .rw, 0x0⟩]⟩,
  ⟨0xE0080, 1, 0x0, 1, 0x0, [⟨31, 0, .rc, 0x0⟩]⟩,
  ⟨0xE0100, 16, 0x10, 1, 0x0, [⟨31, 31, .ro, 0x0⟩, ⟨17, 16, .ro, 0x0⟩, ⟨7, 0, .ro, 0x0⟩]⟩,
  ⟨0xE0104, 16, 0x10, 1, 0x0, [⟨31, 16, .ro, 0x0⟩, ⟨15, 8, .ro, 0x0⟩, ⟨7, 0, .ro, 0x0⟩]⟩,
  ⟨0xE0108, 16, 0x10, 1, 0x0, [⟨6, 0, .ro, 0x0⟩]⟩]

/-- The registers of block DEC (14_local_audio_io.md). -/
def regRowsDEC : List RegRow := regRowsDEC0

def regRowsPDM0 : List RegRow := [
  ⟨0xF0000, 1, 0x0, 1, 0x0, [⟨4, 4, .ro, 0x0⟩, ⟨3, 0, .ro, 0x0⟩]⟩,
  ⟨0xF0010, 4, 0x4, 1, 0x0, [⟨31, 31, .ro, 0x0⟩, ⟨30, 30, .ro, 0x0⟩, ⟨29, 29, .ro, 0x0⟩, ⟨28, 27, .rw, 0x0⟩, ⟨26, 25, .ro, 0x0⟩]⟩,
  ⟨0xF0020, 4, 0x4, 1, 0x0, [⟨31, 0, .ro, 0x0⟩]⟩,
  ⟨0xF0080, 1, 0x0, 1, 0x0, [⟨31, 0, .rc, 0x0⟩]⟩,
  ⟨0xF0084, 1, 0x0, 1, 0x0, [⟨31, 0, .rc, 0x0⟩]⟩,
  ⟨0xF0088, 1, 0x0, 1, 0x0, [⟨31, 0, .rc, 0x0⟩]⟩,
  ⟨0xF008C, 1, 0x0, 1, 0x0, [⟨31, 0, .rc, 0x0⟩]⟩,
  ⟨0xF00C0, 1, 0x0, 1, 0x0, [⟨2, 0, .w1c, 0x0⟩]⟩,
  ⟨0xF00C4, 1, 0x0, 1, 0x0, [⟨2, 0, .rw, 0x6⟩]⟩]

/-- The registers of block PDM (14_local_audio_io.md). -/
def regRowsPDM : List RegRow := regRowsPDM0

def regRowsMEM0 : List RegRow := [
  ⟨0x100000, 1, 0x0, 1, 0x0, [⟨15, 15, .ro, 0x0⟩, ⟨14, 14, .ro, 0x0⟩, ⟨13, 13, .ro, 0x0⟩, ⟨12, 12, .ro, 0x0⟩, ⟨11, 10, .ro, 0x0⟩, ⟨9, 8, .ro, 0x0⟩, ⟨5, 4, .ro, 0x0⟩, ⟨3, 3, .ro, 0x0⟩, ⟨2, 2, .ro, 0x0⟩, ⟨0, 0, .ro, 0x0⟩]⟩,
  ⟨0x100004, 1, 0x0, 1, 0x0, [⟨8, 8, .rw, 0x0⟩, ⟨3, 0, .rw, 0x0⟩]⟩,
  ⟨0x100008, 1, 0x0, 1, 0x0, [⟨31, 0, .ro, 0x0⟩]⟩,
  ⟨0x10000C, 1, 0x0, 1, 0x0, [⟨31, 0, .ro, 0x0⟩]⟩,
  ⟨0x100010, 1, 0x0, 1, 0x0, [⟨31, 31, .wo, 0x0⟩, ⟨0, 0, .rw, 0x0⟩]⟩,
  ⟨0x100014, 1, 0x0, 1, 0x0, [⟨31, 16, .ro, 0x0⟩, ⟨0, 0, .ro, 0x0⟩]⟩,
  ⟨0x100018, 1, 0x0, 1, 0x0, [⟨2, 1, .rw, 0x3⟩, ⟨0, 0, .wo, 0x0⟩]⟩,
  ⟨0x10001C, 1, 0x0, 1, 0x0, [⟨31, 16, .ro, 0x0⟩, ⟨7, 0, .ro, 0x0⟩]⟩,
  ⟨0x100020, 1, 0x0, 1, 0x0, [⟨15, 0, .rw, 0x7D0⟩]⟩,
  ⟨0x100024, 1, 0x0, 1, 0x0, [⟨15, 0, .rw, 0x4E20⟩]⟩,
  ⟨0x100028, 1, 0x0, 1, 0x0, [⟨15, 0, .rw, 0x100⟩]⟩,
  ⟨0x10002C, 1, 0x0, 1, 0x0, [⟨23, 0, .rw, 0x0⟩]⟩,
  ⟨0x100030, 1, 0x0, 1, 0x0, [⟨15, 0, .rw, 0x1000⟩]⟩,
  ⟨0x100034, 1, 0x0, 1, 0x0, [⟨31, 24, .ro, 0x56⟩, ⟨8, 0, .ro, 0x0⟩]⟩,
  ⟨0x100038, 1, 0x0, 1, 0x0, [⟨23, 0, .ro, 0x0⟩]⟩,
  ⟨0x10003C, 1, 0x0, 1, 0x0, [⟨23, 0, .ro, 0x0⟩]⟩,
  ⟨0x100040, 1, 0x0, 1, 0x0, [⟨23, 0, .rc, 0x0⟩]⟩,
  ⟨0x100080, 1, 0x0, 1, 0x0, [⟨31, 0, .rc, 0x0⟩]⟩,
  ⟨0x100084, 1, 0x0, 1, 0x0, [⟨31, 0, .rc, 0x0⟩]⟩,
  ⟨0x100088, 1, 0x0, 1, 0x0, [⟨31, 0, .rc, 0x0⟩]⟩,
  ⟨0x10008C, 1, 0x0, 1, 0x0, [⟨31, 0, .rc, 0x0⟩]⟩,
  ⟨0x100090, 1, 0x0, 1, 0x0, [⟨31, 0, .rc, 0x0⟩]⟩,
  ⟨0x100094, 1, 0x0, 1, 0x0, [⟨31, 0, .rc, 0x0⟩]⟩,
  ⟨0x100098, 1, 0x0, 1, 0x0, [⟨31, 0, .rc, 0x0⟩]⟩]

def regRowsMEM1 : List RegRow := [
  ⟨0x10009C, 1, 0x0, 1, 0x0, [⟨31, 0, .rc, 0x0⟩]⟩,
  ⟨0x1000C0, 1, 0x0, 1, 0x0, [⟨6, 0, .w1c, 0x0⟩]⟩,
  ⟨0x1000C4, 1, 0x0, 1, 0x0, [⟨6, 0, .rw, 0x79⟩]⟩,
  ⟨0x100100, 8, 0x10, 1, 0x0, [⟨31, 24, .ro, 0x0⟩, ⟨23, 16, .ro, 0x0⟩, ⟨15, 8, .ro, 0x0⟩, ⟨7, 0, .ro, 0x0⟩]⟩,
  ⟨0x100104, 8, 0x10, 1, 0x0, [⟨31, 24, .ro, 0x0⟩, ⟨23, 16, .ro, 0x0⟩, ⟨15, 8, .ro, 0x0⟩, ⟨7, 0, .ro, 0x0⟩]⟩,
  ⟨0x100108, 8, 0x10, 1, 0x0, [⟨31, 16, .ro, 0x0⟩, ⟨7, 0, .ro, 0x0⟩]⟩]

/-- The registers of block MEM (15_memory_controller.md). -/
def regRowsMEM : List RegRow := regRowsMEM0 ++ regRowsMEM1

def regRowsFAB0 : List RegRow := [
  ⟨0x110000, 1, 0x0, 1, 0x0, [⟨2, 2, .ro, 0x0⟩, ⟨1, 1, .ro, 0x0⟩, ⟨0, 0, .ro, 0x0⟩]⟩,
  ⟨0x110004, 1, 0x0, 1, 0x0, [⟨23, 0, .ro, 0x0⟩]⟩,
  ⟨0x110008, 1, 0x0, 1, 0x0, [⟨1, 1, .wo, 0x0⟩, ⟨0, 0, .rw, 0x1⟩]⟩,
  ⟨0x11000C, 1, 0x0, 1, 0x0, [⟨15, 0, .rw, 0x1000⟩]⟩,
  ⟨0x110010, 1, 0x0, 1, 0x0, [⟨19, 0, .rw, 0x10000⟩]⟩,
  ⟨0x110014, 1, 0x0, 1, 0x0, [⟨7, 0, .rw, 0x10⟩]⟩,
  ⟨0x110020, 1, 0x0, 1, 0x0, [⟨31, 31, .w1c, 0x0⟩, ⟨27, 24, .ro, 0x0⟩, ⟨21, 20, .ro, 0x0⟩, ⟨16, 12, .ro, 0x0⟩, ⟨4, 0, .ro, 0x0⟩]⟩,
  ⟨0x110024, 1, 0x0, 1, 0x0, [⟨31, 0, .ro, 0x0⟩]⟩,
  ⟨0x110028, 1, 0x0, 1, 0x0, [⟨7, 0, .ro, 0x0⟩]⟩,
  ⟨0x11002C, 1, 0x0, 1, 0x0, [⟨31, 0, .ro, 0x0⟩]⟩,
  ⟨0x110030, 1, 0x0, 1, 0x0, [⟨27, 0, .ro, 0x0⟩]⟩,
  ⟨0x110080, 1, 0x0, 1, 0x0, [⟨31, 0, .rc, 0x0⟩]⟩,
  ⟨0x110084, 1, 0x0, 1, 0x0, [⟨31, 0, .rc, 0x0⟩]⟩,
  ⟨0x110088, 1, 0x0, 1, 0x0, [⟨31, 0, .rc, 0x0⟩]⟩,
  ⟨0x1100C0, 1, 0x0, 1, 0x0, [⟨6, 0, .w1c, 0x0⟩]⟩,
  ⟨0x1100C4, 1, 0x0, 1, 0x0, [⟨6, 0, .rw, 0x2E⟩]⟩,
  ⟨0x110100, 9, 0x8, 1, 0x0, [⟨31, 0, .rc, 0x0⟩]⟩,
  ⟨0x110104, 9, 0x8, 1, 0x0, [⟨31, 0, .rc, 0x0⟩]⟩,
  ⟨0x111000, 24, 0x400, 32, 0x10, [⟨31, 12, .ro, 0x0⟩]⟩,
  ⟨0x111004, 24, 0x400, 32, 0x10, [⟨7, 0, .ro, 0x0⟩]⟩,
  ⟨0x111008, 24, 0x400, 32, 0x10, [⟨28, 0, .ro, 0x0⟩]⟩,
  ⟨0x11100C, 24, 0x400, 32, 0x10, [⟨31, 31, .ro, 0x0⟩, ⟨19, 16, .ro, 0x0⟩, ⟨2, 2, .ro, 0x0⟩, ⟨1, 1, .ro, 0x0⟩, ⟨0, 0, .ro, 0x0⟩]⟩,
  ⟨0x111200, 24, 0x400, 1, 0x0, [⟨31, 0, .ro, 0x0⟩]⟩,
  ⟨0x111204, 24, 0x400, 1, 0x0, [⟨31, 0, .ro, 0x0⟩]⟩]

def regRowsFAB1 : List RegRow := [
  ⟨0x111208, 24, 0x400, 1, 0x0, [⟨15, 0, .ro, 0x0⟩]⟩,
  ⟨0x11120C, 24, 0x400, 1, 0x0, [⟨31, 30, .ro, 0x0⟩, ⟨22, 16, .ro, 0x0⟩]⟩]

/-- The registers of block FAB (16_fabric_integrity.md). -/
def regRowsFAB : List RegRow := regRowsFAB0 ++ regRowsFAB1

def regRowsPAIR0 : List RegRow := [
  ⟨0x120000, 1, 0x0, 1, 0x0, [⟨31, 31, .rw, 0x0⟩, ⟨16, 16, .ro, 0x0⟩, ⟨1, 0, .rw, 0x3⟩]⟩,
  ⟨0x120004, 1, 0x0, 1, 0x0, [⟨23, 20, .ro, 0x0⟩, ⟨18, 18, .ro, 0x0⟩, ⟨17, 17, .ro, 0x0⟩, ⟨16, 16, .ro, 0x0⟩, ⟨10, 8, .ro, 0x7⟩, ⟨2, 0, .ro, 0x0⟩]⟩,
  ⟨0x120008, 1, 0x0, 1, 0x0, [⟨0, 0, .wo, 0x0⟩]⟩,
  ⟨0x12000C, 1, 0x0, 1, 0x0, [⟨31, 0, .rw, 0x0⟩]⟩,
  ⟨0x120010, 1, 0x0, 1, 0x0, [⟨31, 0, .rw, 0x0⟩]⟩,
  ⟨0x120014, 1, 0x0, 1, 0x0, [⟨15, 0, .rw, 0x1406⟩]⟩,
  ⟨0x120018, 1, 0x0, 1, 0x0, [⟨13, 0, .rw, 0xC8⟩]⟩,
  ⟨0x12001C, 1, 0x0, 1, 0x0, [⟨11, 0, .rw, 0x40⟩]⟩,
  ⟨0x120020, 1, 0x0, 1, 0x0, [⟨23, 0, .rw, 0x0⟩]⟩,
  ⟨0x120024, 1, 0x0, 1, 0x0, [⟨23, 0, .rw, 0x0⟩]⟩,
  ⟨0x120028, 1, 0x0, 1, 0x0, [⟨11, 0, .rw, 0x3C⟩]⟩,
  ⟨0x12002C, 1, 0x0, 1, 0x0, [⟨23, 0, .ro, 0x0⟩]⟩,
  ⟨0x120030, 1, 0x0, 1, 0x0, [⟨31, 0, .ro, 0x0⟩]⟩,
  ⟨0x120034, 1, 0x0, 1, 0x0, [⟨31, 0, .ro, 0x0⟩]⟩,
  ⟨0x120038, 1, 0x0, 1, 0x0, [⟨27, 0, .ro, 0x0⟩]⟩,
  ⟨0x12003C, 1, 0x0, 1, 0x0, [⟨31, 0, .ro, 0x0⟩]⟩,
  ⟨0x120040, 1, 0x0, 1, 0x0, [⟨31, 0, .ro, 0x0⟩]⟩,
  ⟨0x120044, 1, 0x0, 1, 0x0, [⟨31, 0, .ro, 0x0⟩]⟩,
  ⟨0x120080, 1, 0x0, 1, 0x0, [⟨31, 0, .rc, 0x0⟩]⟩,
  ⟨0x120084, 1, 0x0, 1, 0x0, [⟨31, 0, .rc, 0x0⟩]⟩,
  ⟨0x120088, 1, 0x0, 1, 0x0, [⟨31, 0, .rc, 0x0⟩]⟩,
  ⟨0x12008C, 1, 0x0, 1, 0x0, [⟨31, 0, .rc, 0x0⟩]⟩,
  ⟨0x120090, 1, 0x0, 1, 0x0, [⟨31, 0, .rc, 0x0⟩]⟩,
  ⟨0x120094, 1, 0x0, 1, 0x0, [⟨31, 0, .rc, 0x0⟩]⟩]

def regRowsPAIR1 : List RegRow := [
  ⟨0x120098, 1, 0x0, 1, 0x0, [⟨31, 0, .rc, 0x0⟩]⟩,
  ⟨0x1200C0, 1, 0x0, 1, 0x0, [⟨7, 0, .w1c, 0x0⟩]⟩,
  ⟨0x1200C4, 1, 0x0, 1, 0x0, [⟨7, 0, .rw, 0xEF⟩]⟩]

/-- The registers of block PAIR (17_paired_operation.md). -/
def regRowsPAIR : List RegRow := regRowsPAIR0 ++ regRowsPAIR1

def regRowsLOG0 : List RegRow := [
  ⟨0x130000, 1, 0x0, 1, 0x0, [⟨31, 31, .ro, 0x0⟩, ⟨30, 30, .ro, 0x0⟩, ⟨29, 29, .ro, 0x0⟩, ⟨19, 16, .ro, 0x0⟩, ⟨13, 0, .ro, 0x0⟩]⟩,
  ⟨0x130004, 1, 0x0, 1, 0x0, [⟨31, 0, .ro, 0x0⟩]⟩,
  ⟨0x130008, 1, 0x0, 1, 0x0, [⟨31, 0, .ro, 0x0⟩]⟩,
  ⟨0x13000C, 1, 0x0, 1, 0x0, [⟨31, 0, .ro, 0x0⟩]⟩,
  ⟨0x130010, 1, 0x0, 1, 0x0, [⟨1, 1, .wo, 0x0⟩, ⟨0, 0, .wo, 0x0⟩]⟩,
  ⟨0x130014, 1, 0x0, 1, 0x0, [⟨31, 0, .rw, 0x0⟩]⟩,
  ⟨0x130018, 1, 0x0, 1, 0x0, [⟨23, 0, .rw, 0x0⟩]⟩,
  ⟨0x13001C, 1, 0x0, 1, 0x0, [⟨31, 0, .rw, 0x0⟩]⟩,
  ⟨0x130020, 1, 0x0, 1, 0x0, [⟨31, 0, .rw, 0x0⟩]⟩,
  ⟨0x130024, 1, 0x0, 1, 0x0, [⟨0, 0, .ro, 0x0⟩]⟩,
  ⟨0x1300C0, 1, 0x0, 1, 0x0, [⟨2, 0, .w1c, 0x0⟩]⟩,
  ⟨0x1300C4, 1, 0x0, 1, 0x0, [⟨2, 0, .rw, 0x6⟩]⟩,
  ⟨0x130100, 16, 0x4, 1, 0x0, [⟨31, 0, .ro, 0x0⟩]⟩,
  ⟨0x130200, 8, 0x40, 16, 0x4, [⟨31, 0, .ro, 0x0⟩]⟩]

/-- The registers of block LOG (18_script_log.md). -/
def regRowsLOG : List RegRow := regRowsLOG0

def regRowsPWR0 : List RegRow := [
  ⟨0x140000, 1, 0x0, 1, 0x0, [⟨31, 31, .ro, 0x0⟩, ⟨30, 30, .ro, 0x0⟩, ⟨29, 29, .ro, 0x0⟩, ⟨28, 22, .ro, 0x0⟩, ⟨21, 16, .ro, 0x0⟩, ⟨15, 0, .ro, 0x0⟩]⟩,
  ⟨0x140004, 1, 0x0, 1, 0x0, [⟨31, 31, .ro, 0x0⟩, ⟨2, 0, .ro, 0x0⟩]⟩,
  ⟨0x140008, 1, 0x0, 1, 0x0, [⟨6, 0, .rw, 0xA⟩]⟩,
  ⟨0x14000C, 1, 0x0, 1, 0x0, [⟨15, 0, .rw, 0x640⟩]⟩,
  ⟨0x140010, 1, 0x0, 1, 0x0, [⟨31, 31, .wo, 0x0⟩, ⟨30, 30, .w1c, 0x0⟩]⟩,
  ⟨0x140014, 1, 0x0, 1, 0x0, [⟨2, 0, .rw, 0x7⟩]⟩,
  ⟨0x140018, 1, 0x0, 1, 0x0, [⟨2, 0, .w1c, 0x0⟩]⟩,
  ⟨0x14001C, 1, 0x0, 1, 0x0, [⟨31, 31, .wo, 0x0⟩, ⟨15, 0, .rw, 0x7D0⟩]⟩,
  ⟨0x140020, 1, 0x0, 1, 0x0, [⟨1, 0, .ro, 0x0⟩]⟩,
  ⟨0x140024, 1, 0x0, 1, 0x0, [⟨31, 31, .wo, 0x0⟩, ⟨30, 30, .rw, 0x1⟩, ⟨29, 28, .rw, 0x0⟩, ⟨22, 16, .rw, 0x0⟩, ⟨15, 8, .rw, 0x0⟩]⟩,
  ⟨0x140028, 1, 0x0, 1, 0x0, [⟨15, 0, .rw, 0x0⟩]⟩,
  ⟨0x14002C, 1, 0x0, 1, 0x0, [⟨31, 31, .ro, 0x0⟩, ⟨1, 1, .w1c, 0x0⟩, ⟨0, 0, .w1c, 0x0⟩]⟩,
  ⟨0x140040, 9, 0x4, 1, 0x0, [⟨11, 0, .ro, 0x0⟩]⟩,
  ⟨0x140080, 8, 0x4, 1, 0x0, [⟨15, 0, .ro, 0x0⟩]⟩,
  ⟨0x1400A0, 1, 0x0, 1, 0x0, [⟨31, 0, .rc, 0x0⟩]⟩,
  ⟨0x1400A4, 1, 0x0, 1, 0x0, [⟨31, 0, .rc, 0x0⟩]⟩,
  ⟨0x1400A8, 1, 0x0, 1, 0x0, [⟨31, 0, .rc, 0x0⟩]⟩,
  ⟨0x1400C0, 1, 0x0, 1, 0x0, [⟨6, 0, .w1c, 0x0⟩]⟩,
  ⟨0x1400C4, 1, 0x0, 1, 0x0, [⟨6, 0, .rw, 0x7C⟩]⟩]

/-- The registers of block PWR (19_power_reset_boot.md). -/
def regRowsPWR : List RegRow := regRowsPWR0

def regRowsHOST0 : List RegRow := [
  ⟨0x150000, 1, 0x0, 1, 0x0, [⟨8, 4, .ro, 0x0⟩, ⟨3, 3, .ro, 0x0⟩, ⟨2, 2, .ro, 0x0⟩, ⟨1, 1, .ro, 0x0⟩, ⟨0, 0, .ro, 0x0⟩]⟩,
  ⟨0x150004, 1, 0x0, 1, 0x0, [⟨31, 16, .ro, 0x5124⟩, ⟨15, 0, .ro, 0x1F9C⟩]⟩,
  ⟨0x150010, 1, 0x0, 1, 0x0, [⟨15, 4, .ro, 0x0⟩]⟩,
  ⟨0x150014, 1, 0x0, 1, 0x0, [⟨15, 4, .rw, 0x0⟩]⟩,
  ⟨0x150018, 1, 0x0, 1, 0x0, [⟨15, 4, .rw, 0x0⟩]⟩,
  ⟨0x15001C, 1, 0x0, 1, 0x0, [⟨15, 4, .ro, 0x0⟩]⟩,
  ⟨0x150020, 1, 0x0, 1, 0x0, [⟨21, 0, .ro, 0x0⟩]⟩,
  ⟨0x150024, 1, 0x0, 1, 0x0, [⟨21, 0, .rw, 0x3FFFFF⟩]⟩,
  ⟨0x150028, 1, 0x0, 1, 0x0, [⟨24, 16, .ro, 0x0⟩, ⟨5, 0, .ro, 0x0⟩]⟩,
  ⟨0x150040, 1, 0x0, 1, 0x0, [⟨6, 0, .w1c, 0x0⟩]⟩,
  ⟨0x150044, 1, 0x0, 1, 0x0, [⟨6, 0, .rw, 0x55⟩]⟩,
  ⟨0x150080, 1, 0x0, 1, 0x0, [⟨31, 0, .rc, 0x0⟩]⟩,
  ⟨0x150084, 1, 0x0, 1, 0x0, [⟨31, 0, .rc, 0x0⟩]⟩,
  ⟨0x150088, 1, 0x0, 1, 0x0, [⟨31, 0, .rc, 0x0⟩]⟩,
  ⟨0x15008C, 1, 0x0, 1, 0x0, [⟨31, 0, .rc, 0x0⟩]⟩,
  ⟨0x150090, 1, 0x0, 1, 0x0, [⟨31, 0, .rc, 0x0⟩]⟩,
  ⟨0x150094, 1, 0x0, 1, 0x0, [⟨31, 0, .rc, 0x0⟩]⟩,
  ⟨0x150098, 1, 0x0, 1, 0x0, [⟨31, 0, .rc, 0x0⟩]⟩,
  ⟨0x15009C, 1, 0x0, 1, 0x0, [⟨31, 0, .rc, 0x0⟩]⟩,
  ⟨0x1500A0, 1, 0x0, 1, 0x0, [⟨31, 0, .rc, 0x0⟩]⟩]

/-- The registers of block HOST (09_command_protocol.md). -/
def regRowsHOST : List RegRow := regRowsHOST0

/-- The rows of block n of R263 (n is the offset divided by 0x1_0000). -/
def regRows (n : Nat) : List RegRow :=
  match n with
  | 0 => regRowsSYS
  | 1 => regRowsCLK
  | 2 => regRowsTIME
  | 3 => regRowsNET
  | 4 => regRowsNET
  | 5 => regRowsSTRM
  | 6 => regRowsGEOM
  | 7 => regRowsPATH
  | 8 => regRowsCONV
  | 9 => regRowsKPU
  | 10 => regRowsDISP
  | 11 => regRowsXPT
  | 12 => regRowsTAKE
  | 13 => regRowsTDM
  | 14 => regRowsDEC
  | 15 => regRowsPDM
  | 16 => regRowsMEM
  | 17 => regRowsFAB
  | 18 => regRowsPAIR
  | 19 => regRowsLOG
  | 20 => regRowsPWR
  | 21 => regRowsHOST
  | _ => []

/-- Whether the row has a copy at offset `a`. -/
def RegRow.covers (r : RegRow) (a : Nat) : Bool :=
  if a < r.base then false else
  let d := a - r.base
  let k := if r.stride = 0 then 0 else min (r.count - 1) (d / r.stride)
  let e := d - k * r.stride
  let j := if r.stride2 = 0 then 0 else e / r.stride2
  decide (j < r.count2) && decide (e = j * r.stride2)

/-- The register row at BAR0 offset `a`, none where no register lies (R252). -/
def regRowAt (a : Nat) : Option RegRow := (regRows (a / 0x10000)).find? (·.covers a)

/-- A field's value shifted to its place. -/
def FieldRow.placed (f : FieldRow) (v : Nat) : Nat := (v % 2 ^ (f.hi + 1 - f.lo)) * 2 ^ f.lo

/-- The mask of a field. -/
def FieldRow.mask (f : FieldRow) : Nat := f.placed (2 ^ (f.hi + 1 - f.lo) - 1)

/-- The reset value of the register table at offset `a`. -/
def tableReset (a : Nat) : Nat :=
  match regRowAt a with
  | some r => (r.fields.map fun f => f.placed f.reset).sum
  | none => 0

/-- The bits at offset `a` whose field has access type `acc`. -/
def maskOf (acc : Access) (a : Nat) : Nat :=
  match regRowAt a with
  | some r => ((r.fields.filter fun f => f.acc = acc).map FieldRow.mask).sum
  | none => 0

end Sys2Proof.Machine
end

