-- ==== Sys2Proof/Machine/FabMap.lean ====
section
/-! DEFINITION. The internal address map (R430), the masters and their reset windows and priorities (R431, R435). -/

namespace Sys2Proof.Machine

/-- Base and size in bytes of the region of each target (R430); that of the DRAM is MEM_USABLE and stands as 0 here. -/
def regionTable : List (Nat × Nat) := [
  (0x1000000000, 0), (0x40000000, 0x1800000), (0x60000000, 0x200000), (0x60200000, 0x200000), (0x60400000, 0x200000),
  (0x60600000, 0x200000), (0x70000000, 0x600000), (0x50000000, 0x2000000)] ++ [
  (0x80000000, 0x200000), (0x10000000, 0x200000), (0x20000000, 0x80000), (0x30000000, 0x4000000), (0xA0000000, 0x1000),
  (0x90000000, 0x10000000), (0, 0x100000), (0xF0000000, 0x10000)]

/-- Base of a target's region. -/
def regionBase (t : Nat) : Nat := (regionTable.getD t (0, 0)).1

/-- The targets of windows 0 to 15 of each master at reset, in window order (R431). -/
def resetTargets (m : Nat) : List Nat :=
  if m = 0 then [14, 9, 10, 11, 13, 0, 1, 2, 3, 4, 5, 6, 7, 8]
  else if m = 1 then [11, 9, 8, 12, 0]
  else if m ≤ 5 then [2, 3, 4, 5, 1, 0]
  else if m = 6 then [2, 3, 4, 5]
  else if m ≤ 8 then [6, 2, 3, 4, 5, 0]
  else if m = 9 then [8, 1, 2, 3, 4, 5, 0]
  else if m = 10 then [8, 9]
  else if m ≤ 12 then [2, 3, 4, 5]
  else if m = 13 then [0, 2, 3, 4, 5, 7, 9]
  else if m = 14 then [10, 13, 0]
  else if m = 15 then [0, 1, 2, 3, 4, 5, 6, 7, 8, 9, 10]
  else []

/-- The priority of a master on every target at reset (R435). -/
def resetPrio (m : Nat) : Nat :=
  if m ≤ 1 ∨ m = 10 then 8 else if m ≤ 9 ∨ m = 11 ∨ m = 12 then 12 else if m ≤ 15 then 2 else 6

/-- The masters that issue class 0 requests on the DRAM target (R433): PE0 to PE3, CONV0, CONV1, STRM. -/
def isClass0 (m : Nat) : Bool := (decide (2 ≤ m) && decide (m ≤ 5)) || (decide (7 ≤ m) && decide (m ≤ 9))

/-- What the window, priority and slice registers read at reset (R431, R435, R448), by offset from the FAB base. -/
def fabReset (o : Nat) : Nat :=
  if o < 0x1000 ∨ 0x7000 ≤ o then 0 else
  let m := (o - 0x1000) / 0x400
  let r := (o - 0x1000) % 0x400
  if r < 0x200 then
    match (resetTargets m)[r / 16]? with
    | some t =>
      let g := regionTable.getD t (0, 0)
      match r % 16 with
      | 0 => g.1 % 2 ^ 32
      | 4 => g.1 / 2 ^ 32
      | 8 => g.2 / 4096
      | 12 => 2 ^ 31 + t * 2 ^ 16 + (if t = 14 then 0 else 2) + 1
      | _ => 0
    | none => 0
  else if r = 0x200 ∨ r = 0x204 then resetPrio m * 0x11111111
  else 0

/-- What the register map reads at an offset nothing has written. -/
def mapReset (a : Nat) : Nat := if a / 0x10000 = 17 then (if a < 0x111000 then tableReset a else fabReset (a - 0x110000))
  else tableReset a

end Sys2Proof.Machine
end

