-- ==== Sys2Proof/Machine/Sparse.lean ====
section
/-! DEFINITION. Sparse storage in one canonical form: keys strictly rising, no entry equal to what an unlisted key reads as.
The register file, the memories and the per-channel tables of the block are held this way. -/

namespace Sys2Proof.Machine

/-- A sparse table: key and value pairs in canonical form. -/
abbrev Sparse (α : Type) := List (Nat × α)

/-- The value at a key; `d` says what an unlisted key reads as. -/
def Sparse.get {α : Type} (d : Nat → α) : Sparse α → Nat → α
  | [], k => d k
  | (a, v) :: t, k => if k = a then v else if k < a then d k else Sparse.get d t k

/-- Stores a value, keeping the canonical form: storing what an unlisted key reads as removes the entry. -/
def Sparse.put {α : Type} [DecidableEq α] (d : Nat → α) : Sparse α → Nat → α → Sparse α
  | [], k, v => if v = d k then [] else [(k, v)]
  | (a, w) :: t, k, v =>
    if k < a then (if v = d k then (a, w) :: t else (k, v) :: (a, w) :: t)
    else if k = a then (if v = d k then t.dropWhile (fun p => decide (p.1 ≤ k)) else (k, v) :: t)
    else (a, w) :: Sparse.put d t k v

/-- Whether every key lies above `lo` in rising order and no entry equals the unlisted value. -/
def Sparse.wfFrom {α : Type} [DecidableEq α] (d : Nat → α) : Nat → Sparse α → Bool
  | _, [] => true
  | lo, (a, v) :: t => decide (lo ≤ a) && decide (v ≠ d a) && Sparse.wfFrom d (a + 1) t

/-- The canonical form. -/
def Sparse.wf {α : Type} [DecidableEq α] (d : Nat → α) (m : Sparse α) : Bool := Sparse.wfFrom d 0 m

/-- Stores a list of values at consecutive keys. -/
def Sparse.putList {α : Type} [DecidableEq α] (d : Nat → α) (m : Sparse α) (k : Nat) : List α → Sparse α
  | [] => m
  | v :: t => Sparse.putList d (Sparse.put d m k v) (k + 1) t

/-- Reads `n` consecutive keys. -/
def Sparse.getList {α : Type} (d : Nat → α) (m : Sparse α) (k n : Nat) : List α :=
  (List.range n).map fun i => Sparse.get d m (k + i)

/-- Every key below `hi` and at or above `lo` forgotten: it reads as unlisted again. -/
def Sparse.clearRange {α : Type} (m : Sparse α) (lo hi : Nat) : Sparse α :=
  m.filter fun p => p.1 < lo || hi ≤ p.1

/-- Every key from `lo` up to `hi` replaced by the entries of `block`, which lie in that range in rising order. -/
def Sparse.replaceRange {α : Type} [DecidableEq α] (d : Nat → α) (m : Sparse α) (lo hi : Nat) (block : Sparse α) : Sparse α :=
  (m.filter fun p => p.1 < lo) ++ (block.filter fun p => lo ≤ p.1 && p.1 < hi && p.2 ≠ d p.1) ++ (m.filter fun p => hi ≤ p.1)

/-- A byte memory: what a byte nothing has written reads as is 0 (DESIGN CHOICE, assumption 3). -/
abbrev Memory := Sparse Byte

/-- What an unlisted byte reads as (assumption 3). -/
def Memory.blank : Nat → Byte := fun _ => 0

/-- One byte of memory. -/
def Memory.read (m : Memory) (a : Nat) : Byte := Sparse.get Memory.blank m a

/-- Stores one byte. -/
def Memory.write (m : Memory) (a : Nat) (b : Byte) : Memory := Sparse.put Memory.blank m a b

/-- Reads `n` bytes. -/
def Memory.readBytes (m : Memory) (a n : Nat) : Bytes := (List.range n).map fun i => Memory.read m (a + i)

/-- Stores a byte string from address `a` on. -/
def Memory.writeBytes (m : Memory) (a : Nat) : Bytes → Memory
  | [] => m
  | b :: t => Memory.writeBytes (Memory.write m a b) (a + 1) t

/-- The canonical form of a memory. -/
def Memory.wf (m : Memory) : Bool := Sparse.wf Memory.blank m

/-- A sparse table whose unlisted keys read 0. -/
def Sparse.get0 (m : Sparse Int) (k : Nat) : Int := Sparse.get (fun _ => 0) m k

/-- Stores into a table whose unlisted keys read 0. -/
def Sparse.put0 (m : Sparse Int) (k : Nat) (v : Int) : Sparse Int := Sparse.put (fun _ => 0) m k v

/-- Reads a table of naturals whose unlisted keys read 0. -/
def Sparse.getN (m : Sparse Nat) (k : Nat) : Nat := Sparse.get (fun _ => 0) m k

/-- Stores into a table of naturals whose unlisted keys read 0. -/
def Sparse.putN (m : Sparse Nat) (k v : Nat) : Sparse Nat := Sparse.put (fun _ => 0) m k v

end Sys2Proof.Machine
end

