-- ==== Sys2Proof/Machine/StClk.lean ====
section
/-! DEFINITION. The state of the clock system (R350 to R371). -/

namespace Sys2Proof.Machine

/-- The states of a reference (R356), in code order. -/
inductive RefState
  | off | failed | qualifying | wtr | qualified
deriving DecidableEq, Repr

/-- One reference: REFIN0 to REFIN3, PTPA, PTPB (R353 to R356). -/
structure RefSt where
  st : RefState
  /-- last disqualification: cause code of R355 -/
  cause : Nat
  /-- a WTR is owed -/
  owed : Bool
  /-- QUALIFIED at least once since its configuration was last installed -/
  ever : Bool
  /-- seconds left in QUALIFYING or WTR -/
  timer : Nat
  /-- consecutive windows with |d_j| above TOL -/
  badRun : Nat
  /-- rejected edges in the running window -/
  glitches : Nat
  /-- a fault of R355 in the running window -/
  faultWin : Bool
  /-- f_j and d_j of the last window, ppb -/
  freq : Int
  dev : Int
  /-- d_j of the last 16 windows, newest first -/
  devs : List Int
deriving DecidableEq, Repr

/-- The states of the clock system (R364), in code order. -/
inductive ClkState
  | freeRun | acquiring | locked | holdover | holdoverUnaveraged | switching | splicePending | fault
deriving DecidableEq, Repr

/-- The clock system. -/
structure ClkSt where
  st : ClkState
  /-- the selected reference; 7 none (R364) -/
  sel : Nat
  /-- the reference being switched to; 7 none (R362) -/
  target : Nat
  /-- the step Δ measured for the splice to come, in units of 1/56,448 ns (R362, R363) -/
  delta : Int
  /-- SPLICE_PENDING waits for a set or step of the local time to take effect, which gives Δ (R362) -/
  jump : Bool
  /-- the frequency the steering servo asks of the root clock, 2^−8 ppb from nominal; 0 while none steers (R331, R351) -/
  request : Int
  /-- the six references -/
  refs : Vector RefSt 6
  /-- DCO correction, 2^−8 ppb (R351) -/
  dco : Int
  /-- holdover history, newest first, at most 60 (R361) -/
  hist : List Int
  /-- the state was LOCKED for the whole running window (R361) -/
  lockedWin : Bool
  /-- holdover value in use and seconds in holdover (R361, R364) -/
  holdFreq : Int
  holdTime : Nat
  /-- d_XO of the last window and the windows in a row beyond TOL (R354) -/
  dxo : Int
  xoRun : Nat
  xoSuspect : Bool
  /-- 0 none, 1 XO-only, 2 three sources (R354) -/
  vote : Nat
  /-- present bandwidth in mHz while it is wider than the target, none at the target (R359) -/
  fast : Option Nat
  /-- the last splice: Δ, m, re-aligned frame (R363) -/
  splStep : Int
  splM : Int
  splFrame : Nat
  /-- frames at whose output a splice fades: fade-in frames and fade-out frames, by position N + Z (R365) -/
  fadeInPos : List Int
  fadeOutPos : List Int
deriving DecidableEq, Repr

end Sys2Proof.Machine
end

