-- ==== Sys2Proof/Machine/ConvMath.lean ====
section
/-! DEFINITION. The arithmetic of the convolution engines: twiddles, the block floating point FFT and its inverse, the spectral
product, and the analysis record (R109 to R112, R121), with the sine table of the generator (R120). -/

namespace Sys2Proof.Machine

/-- One component of fixed point 1.0 of the series below. -/
def trigOne : Nat := 2 ^ 160

/-- 2π in units of 2^−160. -/
def twoPiFx : Nat :=
  9182885614096437842769610399486622256908310048836

/-- The Taylor series of cosine (k = 0) or sine (k = 1) at x: `term` is the term of degree k, `acc` the sum of those before it. -/
def trigSum (x2 : Int) : Nat → Nat → Int → Int → Int
  | 0, _, _, acc => acc
  | n + 1, k, term, acc =>
    trigSum x2 n (k + 2) (-(term * x2) / (trigOne : Int) / (((k + 1) * (k + 2) : Nat) : Int)) (acc + term)

/-- The angle 2πt/n in units of 2^−160. -/
def angleFx (t n : Nat) : Int := ((twoPiFx * (t % n) / n : Nat) : Int)

/-- RHU(2^b cos(2πt/n)). -/
def cosRhu (b t n : Nat) : Int :=
  let x := angleFx t n
  divRhu (trigSum (x * x / (trigOne : Int)) 48 0 trigOne 0 * (2 ^ b : Nat)) trigOne

/-- RHU(g × 2^b sin(2πt/n)) with g = 1 or −1. -/
def sinRhu (g : Int) (b t n : Nat) : Int :=
  let x := angleFx t n
  divRhu (g * trigSum (x * x / (trigOne : Int)) 48 1 x 0 * (2 ^ b : Nat)) trigOne

/-- A complex mantissa. -/
abbrev Cx := Int × Int

/-- The number of bits of |v| (R109). -/
def bitlen (v : Int) : Nat := if v = 0 then 0 else v.natAbs.log2 + 1

/-- The largest component magnitude (R109). -/
def maxMag (v : List Cx) : Nat := v.foldl (fun m c => max m (max c.1.natAbs c.2.natAbs)) 0

/-- The twiddle W^t of size n (R109). -/
def twiddle (t n : Nat) : Cx := (cosRhu 30 t n, sinRhu (-1) 30 t n)

/-- The rounded product of R109. -/
def cxMulT (a w : Cx) : Cx := (rhu 30 (a.1 * w.1 - a.2 * w.2), rhu 30 (a.1 * w.2 + a.2 * w.1))

/-- Block scaling before a stage: every component to at most `lim` bits, the exponent raised (R109). -/
def fftScale (lim : Nat) (blocks : List (List Cx)) (e : Int) : List (List Cx) × Int :=
  let m := blocks.foldl (fun m b => max m (maxMag b)) 0
  let s := bitlen (m : Int) - lim
  if s = 0 then (blocks, e)
  else (blocks.map fun b => b.map fun c => (rhu s c.1, rhu s c.2), e + (s : Nat))

/-- The three lists of twiddles of a radix-4 stage on sub-transforms of size n: r = 1, 2, 3. -/
def stageTw (n : Nat) : List (List Cx) := [1, 2, 3].map fun r => (List.range (n / 4)).map fun q => twiddle (r * q) n

/-- A list combined elementwise with three others. -/
def zip4 (f : Cx → Cx → Cx → Cx → Cx) (a b c d : List Cx) : List Cx :=
  (a.zip (b.zip (c.zip d))).map fun x => f x.1 x.2.1 x.2.2.1 x.2.2.2

/-- A radix-4 butterfly stage on one sub-transform of size n (R109): its four sub-transforms of size n / 4. -/
def radix4 (n : Nat) (tw : List (List Cx)) (v : List Cx) : List (List Cx) :=
  let h := n / 4
  let a0 := v.take h
  let a1 := (v.drop h).take h
  let a2 := (v.drop (2 * h)).take h
  let a3 := v.drop (3 * h)
  let b0 := zip4 (fun a b c d => (a.1 + b.1 + c.1 + d.1, a.2 + b.2 + c.2 + d.2)) a0 a1 a2 a3
  let b1 := zip4 (fun a b c d => (a.1 + b.2 - c.1 - d.2, a.2 - b.1 - c.2 + d.1)) a0 a1 a2 a3
  let b2 := zip4 (fun a b c d => (a.1 - b.1 + c.1 - d.1, a.2 - b.2 + c.2 - d.2)) a0 a1 a2 a3
  let b3 := zip4 (fun a b c d => (a.1 - b.2 - c.1 + d.2, a.2 + b.1 - c.2 - d.1)) a0 a1 a2 a3
  let mul := fun (b : List Cx) (r : Nat) => List.zipWith cxMulT b (tw.getD r [])
  [b0, mul b1 0, mul b2 1, mul b3 2]

/-- A radix-2 stage on one sub-transform of two (R109). -/
def radix2 (v : List Cx) : List (List Cx) :=
  match v with
  | [a, b] => [[(a.1 + b.1, a.2 + b.2)], [(a.1 - b.1, a.2 - b.2)]]
  | _ => [v]

/-- The stages from sub-transforms of size n down (R109); the result is one list of one-element sub-transforms in digit-reversed
order with the radices used, first stage first. -/
def fftStages : Nat → Nat → List (List Cx) → Int → List Nat → List (List Cx) × Int × List Nat
  | 0, _, v, e, rs => (v, e, rs)
  | fuel + 1, n, v, e, rs =>
    if n ≥ 4 then
      let (v, e) := fftScale 28 v e
      let tw := stageTw n
      fftStages fuel (n / 4) (v.flatMap (radix4 n tw)) e (rs ++ [4])
    else if n = 2 then
      let (v, e) := fftScale 29 v e
      (v.flatMap radix2, e, rs ++ [2])
    else (v, e, rs)

/-- Brings digit-reversed results to natural order. -/
def naturalOrder : List Nat → List Cx → List Cx
  | [], v => v
  | r :: rs, v =>
    let n := v.length / r
    let subs := (List.range r).map fun i => naturalOrder rs ((v.drop (i * n)).take n)
    let arr := subs.map fun l => l.toArray
    (List.range n).flatMap fun q => arr.map fun a => a.getD q (0, 0)

/-- FFT of N complex mantissas under exponent e (R109), bins in natural order. -/
def fftCx (v : List Cx) (e : Int) : List Cx × Int :=
  let (b, e, rs) := fftStages 16 v.length [v] e []
  (naturalOrder rs b.flatten, e)

/-- A spectrum: the bins 0 to P and their exponent (R108, R116). -/
structure Spec where
  e : Int
  bins : List Cx
deriving DecidableEq, Repr

/-- FFT(v, e) of N = 2P real values (R109): bins 0 to P, those of 0 and P real. -/
def fftReal (v : List Int) (e : Int) : Spec :=
  let n := v.length
  if v.all (· == 0) then { e := e, bins := List.replicate (n / 2 + 1) (0, 0) } else
  let (b, e) := fftCx (v.map fun x => (x, 0)) e
  { e := e, bins := (b.take (n / 2 + 1)).zipIdx.map fun x => if x.2 = 0 ∨ x.2 = n / 2 then (x.1.1, 0) else x.1 }

/-- The exact spectral product and its rounding (R110): terms X[m − j], H[P][j]. -/
def specProduct (p : Nat) (terms : List (Spec × Spec)) : Spec :=
  match terms with
  | [] => { e := 0, bins := List.replicate (p + 1) (0, 0) }
  | t0 :: _ =>
    let ex := fun (t : Spec × Spec) => t.1.e + t.2.e
    let emin := terms.foldl (fun m t => min m (ex t)) (ex t0)
    let one := fun (t : Spec × Spec) =>
      let f : Int := (2 ^ (ex t - emin).toNat : Nat)
      List.zipWith (fun (x h : Cx) => ((x.1 * h.1 - x.2 * h.2) * f, (x.1 * h.2 + x.2 * h.1) * f)) t.1.bins t.2.bins
    let z := terms.foldl (fun acc t => List.zipWith (fun (a b : Cx) => (a.1 + b.1, a.2 + b.2)) acc (one t))
      (List.replicate (p + 1) (0, 0))
    let m := maxMag z
    if m = 0 then { e := 0, bins := z } else
    let l := bitlen (m : Int)
    if l < 28 then
      { e := emin - ((28 - l : Nat) : Int), bins := z.map fun c => (c.1 * (2 ^ (28 - l) : Nat), c.2 * (2 ^ (28 - l) : Nat)) }
    else
      let fits := fun (s : Nat) => z.all fun c => decide ((rhu s c.1).natAbs < 2 ^ 28) && decide ((rhu s c.2).natAbs < 2 ^ 28)
      let s := if fits (l - 28) then l - 28 else l - 27
      { e := emin + (s : Nat), bins := z.map fun c => (rhu s c.1, rhu s c.2) }

/-- mantissa × 2^e rounded half up (R112). -/
def scaleRhu (m e : Int) : Int := if e ≥ 0 then m * (2 ^ e.toNat : Nat) else rhu (-e).toNat m

/-- IFFT(Z) (R111): the real parts of N = 2P values, as words of Q8.24 units (R112). -/
def ifftWords (z : Spec) (p : Nat) : List Int :=
  if z.bins.all (· == (0, 0)) then List.replicate (2 * p) 0 else
  let mid := ((z.bins.drop 1).take (p - 1)).reverse
  let full := z.bins.map (fun c => (c.1, -c.2)) ++ mid
  let (b, e) := fftCx full z.e
  let e := e - ((2 * p).log2 : Nat)
  b.map fun c => satS 32 (scaleRhu c.1 e)

/-- FFT partitions of a length code: size P, offset t0, in order (R107). -/
def partitions (len : Nat) : List (Nat × Nat) :=
  let base := [(32, 32), (64, 64), (128, 128), (256, 256), (512, 512), (1024, 1024)]
  match len with
  | 2 => base.take 3
  | 3 => base.take 4
  | 4 => base.take 5
  | 5 => base
  | 6 => base ++ [(2048, 2048)]
  | 7 => base ++ [(2048, 2048), (2048, 4096)]
  | 8 => base ++ [(2048, 2048), (2048, 4096), (2048, 6144)]
  | _ => []

/-- Taps of a length code (R100). -/
def tapsOf (len : Nat) : Nat := [0, 32, 256, 512, 1024, 2048, 4096, 6144, 8192].getD len 0

/-- Prime length G in frames (R100). -/
def primeLen (len : Nat) : Nat := [0, 0, 9, 17, 33, 65, 129, 129, 129].getD len 0

/-- Cost c(L) in cycles per frame (R100). -/
def convCost (len : Nat) : Nat := [0, 130, 144, 160, 192, 256, 384, 512, 640].getD len 0

/-- The distinct partition sizes of a length code, ascending. -/
def partSizes (len : Nat) : List Nat := ((partitions len).map (·.1)).eraseDups

/-- The coefficient spectra of a set: size P, index j, spectrum (R105). -/
def convertSet (len : Nat) (h : List Int) : List (Nat × Nat × Spec) :=
  (partSizes len).flatMap fun p =>
    ((partitions len).filter (·.1 == p)).zipIdx.map fun x =>
      let t := (h.drop x.1.2).take p
      (p, x.2, fftReal (t ++ List.replicate (2 * p - t.length) 0) (-30))

/-- The analysis record p_k, k = 0 to 8,192 (R121). -/
def analysis (h : List Int) : List Nat :=
  let z := fftReal (h ++ List.replicate (16384 - h.length) 0) (-30)
  z.bins.map fun c => min (scaleRhu (c.1 * c.1 + c.2 * c.2) (2 * z.e + 24)).toNat (2 ^ 32 - 1)

/-- S[a] of the sweep: RHU(2^23 sin(2πa / 4,096)) (R120). -/
def sweepTable (a : Nat) : Int := sinRhu 1 23 a 4096

end Sys2Proof.Machine
end

