-- ==== Sys2Proof/Machine/StConv.lean ====
section
/-! DEFINITION. The state of the convolution engines (R100 to R125). Frames are positions. -/

namespace Sys2Proof.Machine

open Sys2Proof

/-- An FIR set (R103). -/
structure FirSet where
  setid : Nat
  len : Nat
  rate : Nat
  adaptive : Bool
  h : List Int
deriving DecidableEq, Repr

/-- A resident slot (R103, R104); a READY one holds the coefficient spectra by size P and index j (R105). -/
inductive FirSlot
  | empty
  | converting (f : FirSet)
  | ready (f : FirSet) (spec : List (Nat × Nat × Spec))
deriving DecidableEq, Repr

/-- A context: a set that runs on a channel, with its output ring from the first sample of the next frame on (R112). -/
structure ConvCtx where
  slot : Nat
  set : FirSet
  spec : List (Nat × Nat × Spec)
  ring : List Int
deriving DecidableEq, Repr

/-- A set change (R117, R118): `p0` the frame its prime starts with, once known; `ctx` its context from then on. -/
structure ConvChg where
  slot : Nat
  fx : Nat
  x : Nat
  cut : Bool
  p0 : Option Int
  ctx : Option ConvCtx
deriving DecidableEq, Repr

/-- What a channel runs: its length code, its active context, the records its spectrum delay line has taken since it started (R108,
R116), its changes in order, the first frame no longer held at zero after a re-prime, and the sizes whose block work is done for the
frame under processing. -/
structure ConvRun where
  len : Nat
  ctx : Option ConvCtx
  blocks : Nat
  chg : List ConvChg
  hold : Option Int
  done : List Nat
deriving DecidableEq, Repr

/-- A correction channel. `old` runs for frames before `since`: the outgoing take's settings after a cut that re-primed it
(R231). -/
structure ConvCh where
  slots : List FirSlot
  /-- processed bus samples of the last two frames, newest first: the history in the convolution SRAM (R113); none: zeros -/
  hist : List (List Int)
  run : ConvRun
  old : Option ConvRun
  since : Int
  /-- F_x of the last checked change (R124) -/
  lastAd : Option Nat
deriving DecidableEq, Repr

/-- A class 0 transfer of the convolution engines that missed its deadline (R114). -/
inductive ConvMiss
  /-- the part of the input window for a block of size p that lies in n bytes from address a on -/
  | window (c p a n : Nat)
  | coef (c p j : Nat) (reserve : Bool)
  | line (c p j : Nat)
  /-- a late ring or line write of n bytes at address a: what reads them waits -/
  | write (c a n : Nat)
deriving DecidableEq, Repr

/-- The test signal generator (R120): frames it runs for, its state, and its samples for the frame under processing. -/
structure GenSt where
  from_ : Option Int
  till : Option Int
  lfsr : Nat
  phi : Nat
  inc : Nat
  ended : Bool
  out : Option (List Int)
deriving DecidableEq, Repr

/-- An FIR set load in progress (R104, R261): channel, slot, SIZE, bytes received at their offsets, number received. -/
structure SetLoad where
  bus : Nat
  slot : Nat
  size : Nat
  bytes : Bytes
  got : Nat
deriving DecidableEq, Repr

/-- The convolution engines. -/
structure ConvSt where
  /-- channels that hold something, by bus -/
  chans : Sparse ConvCh
  /-- K of a frame is its position + kOff, or + kOld for frames before kSince (R106) -/
  kOff : Int
  kOld : Int
  kSince : Int
  /-- transfers missed for the work of the frame under processing (R114) -/
  miss : List ConvMiss
  gen : GenSt
  load : Option SetLoad
  /-- capture runs from this frame (R125) -/
  capFrom : Option Int
deriving DecidableEq, Repr

def ConvRun.off : ConvRun := { len := 0, ctx := none, blocks := 0, chg := [], hold := none, done := [] }

/-- A channel that holds nothing. -/
def ConvCh.none : ConvCh :=
  { slots := [.empty, .empty, .empty, .empty], hist := [], run := ConvRun.off, old := Option.none, since := 0,
    lastAd := Option.none }

def GenSt.reset : GenSt := { from_ := none, till := none, lfsr := 1, phi := 0, inc := 0, ended := false, out := none }

def ConvSt.reset : ConvSt :=
  { chans := [], kOff := 0, kOld := 0, kSince := 0, miss := [], gen := GenSt.reset, load := none, capFrom := none }

end Sys2Proof.Machine
end

