-- ==== Sys2Proof/Machine/StCore.lean ====
section
/-! DEFINITION. The state of the frame sequencer (R11 to R36), the command engine (R243 to R268), the script log (R475 to
R488) and the power, reset and boot logic (R489 to R513). Registers themselves are in `State.regs`. -/

namespace Sys2Proof.Machine

open Sys2Proof

/-- Fuses and straps: what the part and the board fix (R2 to R5, R264, R496 to R499). -/
structure HwSt where
  /-- the part is a TK2512 (R3, R4) -/
  tk2512 : Bool
  /-- I-grade part (R2) -/
  igrade : Bool
  /-- the SECURE fuse (R499) -/
  secure : Bool
  /-- DEVID, 64 bits (R264) -/
  devid : Nat
  /-- the PAIR_ID pin (R449) -/
  pairId : Nat
  /-- BOOTMODE[1:0] (R496) -/
  bootmode : Nat
  /-- SHA-256 digests of the four root keys (R498) -/
  rootDigest : List Bytes
  /-- revoked root key digests, one bit each (R498) -/
  rootRevoked : Nat
deriving DecidableEq, Repr

/-- The frame sequencer and the output stage's share of it. -/
structure TlSt where
  /-- frame number of the most recent boundary, 60 bits (R12, R36) -/
  frame : Nat
  /-- media sample index of that boundary, 64 bits (R11) -/
  index : Nat
  /-- commit sequence number, 32 bits (R14) -/
  commitSeq : Nat
  /-- rate code 0 44.1, 1 48, 2 88.2, 3 96 kHz (R36) -/
  rate : Nat
  /-- pipeline depth, 2 or 3 frames (R24) -/
  depth : Nat
  /-- frames of label offset: ring position = label + Z (R363) -/
  z : Int
  /-- what changes of the sample rate took from the frame numbers, so that label + Z + adj advances by one at every boundary
  (R17): the model's own name of a frame; `adjPrev` holds before the frame `adjAt` -/
  adj : Int
  adjPrev : Int
  adjAt : Int
  /-- the root PLL relocks after a change of family (R17) -/
  relock : Bool
  /-- frames held at zero in this relock (R17) -/
  relockFrames : Nat
  /-- a relock ended: outputs ramp up over the frame of the next boundary (R17) -/
  relockDone : Bool
  /-- the frame whose output buffers the emission stage last took, with the channels that fade in next (R20) -/
  fadeIn : List Nat
deriving DecidableEq, Repr

/-- One script log record (R475), fields decoded; `bad`: its words read uncorrectable (R485). -/
structure LogRec where
  seq : Nat
  rep : Nat
  code : Nat
  frame : Nat
  cseq : Nat
  ns : Nat
  sec : Nat
  hours : Nat
  pcyc : Nat
  spill : Bool
  prestart : Bool
  gap : Bool
  timeValid : Bool
  payload : Bytes
  bad : Bool
deriving DecidableEq, Repr

/-- An event waiting for its boundary in the event queue (R478). `run` is the run it belongs to (R479), `first` whether it
opens that run, `cseq` the number of the committed change it reports, `hours` the 225 s periods counted at the event (R481). -/
structure LogEvent where
  code : Nat
  payload : Bytes
  run : Option Nat
  first : Bool
  cseq : Option Nat
  hours : Nat
deriving DecidableEq, Repr

/-- The script log. -/
structure LogSt where
  /-- SEQ of the next record (R477) -/
  head : Nat
  /-- SEQ of the oldest record held (R482) -/
  first : Nat
  /-- events not recorded (R478, R480) -/
  lost : Nat
  /-- the log SRAM, oldest record first (R480) -/
  recs : List LogRec
  /-- the spill file (R485) -/
  spill : List LogRec
  /-- the log SRAM failed (R485) -/
  failed : Bool
  /-- LOG_FULL written (R480) -/
  full : Bool
  /-- START written (R481) -/
  started : Bool
  /-- whole 225 s periods of the always-on timer since the release of the last reset (R481) -/
  hoursCnt : Nat
  /-- the event queue, 256 entries (R478) -/
  queue : List LogEvent
  /-- the next record written carries GAP (R478) -/
  gap : Bool
  /-- events held before START, at most 32, with the record they will become (R481) -/
  held : List (LogRec × Option Nat)
  /-- the runs whose first record is known: code, run, SEQ (R479) -/
  runs : List (Nat × Nat × Nat)
  /-- the CLEARs waiting for START, with their commit sequence numbers (R481) -/
  clearWait : List Nat
  /-- runs, by code and run, whose first event found the queue full: none of their events counts into an older run's record (R479) -/
  lostRuns : List (Nat × Nat)
deriving DecidableEq, Repr

/-- Where the reply of a command goes (R245, R256): its session, port and source MAC address of arrival, sequence number, opcode
and, with AUTH, its key; `arr` is its place in the order of arrival (R249). -/
structure Ctx where
  sess : Sess
  nport : Nat
  mac : Nat
  seq : Nat
  opcode : Nat
  auth : Option Nat
  arr : Nat
deriving DecidableEq, Repr

/-- One CCP session (R247): the last 8 sequence numbers, newest first, each with whether it was replied to; the cached reply to
the most recent command; the highest accepted number. -/
structure Session where
  sess : Sess
  last : List (Nat × Bool)
  cached : Option Bytes
  highest : Option Nat
deriving DecidableEq, Repr

/-- A change waiting for a boundary (R30 orders 3 and 4). -/
inductive Change
  /-- consecutive register words; `fw`: written by the control processor (R499) -/
  | write (off : Nat) (vals : List Nat) (fw : Bool)
  /-- a MODIFY (R259) -/
  | modify (off mask value : Nat)
  /-- a CCP command that commits at the boundary, with the reply it may still owe -/
  | op (c : CcpOp) (ctx : Option Ctx)
deriving DecidableEq, Repr

/-- A SNAPSHOT waiting for its boundary (R260); frame 0 names the first boundary after arrival. -/
structure Snap where
  frame : Nat
  ranges : List (Nat × Nat)
  ctx : Ctx
deriving DecidableEq, Repr

/-- The command engine and the host interfaces. -/
structure CcpSt where
  /-- sessions, most recently used first (R247) -/
  sessions : List Session
  /-- the frame queue, at most 256: the frame named, the place in the order of arrival, the change (R248) -/
  frameQ : List (Nat × Nat × Change)
  /-- changes without a frame, each with its place in the order of arrival (R249) -/
  pend : List (Nat × Change)
  /-- arrivals so far: the next place in the order of arrival (R249) -/
  arrivals : Nat
  /-- event bits the hardware has set since the boundary began, by offset: a W1C write that commits at this boundary leaves them
  (R9) -/
  fresh : Sparse Nat
  /-- the firmware queue, at most 32 (R250) -/
  fwQ : List (Ctx × Option Nat × CcpOp)
  /-- SNAPSHOTs waiting, at most 8 (R260) -/
  snaps : List Snap
  /-- BAR2: the command ring and the reply ring (R251, R253) -/
  bar2 : Memory
  /-- replies waiting for ring space (R253) -/
  ringHeld : List Bytes
  /-- quad-SPI input buffer, two packets (R255) -/
  spiIn : List Bytes
  /-- quad-SPI reply queue, 64 KiB (R255) -/
  spiOut : List Bytes
  /-- replies waiting for space in that queue (R255) -/
  spiHeld : List Bytes
  /-- OVF of the status word (R254) -/
  spiOvf : Bool
  /-- BAR4: message address and message data of the 32 vectors (R251) -/
  msixAddr : Sparse Nat
  msixData : Sparse Nat
  /-- BAR4: MSI-X mask bits of the 32 vectors (R251, R265) -/
  msixMask : Nat
  /-- BAR4: MSI-X pending bits (R265) -/
  msixPend : Nat
  /-- messages sent per vector (R265) -/
  msixSent : Sparse Nat
  /-- address and data of the last message sent: an output -/
  msixLast : Nat × Nat
  /-- PCIE_PERST_N is low (R539) -/
  perst : Bool
  /-- an authentication failure run is open in the log (R258) -/
  authRun : Bool
deriving DecidableEq, Repr

/-- The firmware of the control processor (R237, R238, R498). -/
structure FwSt where
  /-- the image the boot record names: 0 A, 1 B (R498) -/
  pref : Nat
  /-- the image that runs: 0 A, 1 B, 2 the one loaded by the host or the UART (R496) -/
  running : Nat
  /-- the image that ran before the last switch -/
  previous : Nat
  /-- a restart is in progress: no ready report yet (R237) -/
  restarting : Bool
  /-- the running image reported ready (R238) -/
  ready : Bool
  /-- a scheduled switch: image and frame (R237) -/
  sched : Option (Nat × Nat)
  /-- its place in the order of arrival (R30, R249) -/
  schedArr : Nat
  /-- the switch in progress: its frame and the version it left (R238) -/
  switching : Option (Nat × Nat)
  /-- the load in progress: image, LENGTH (R261) -/
  load : Option (Nat × Nat)
deriving DecidableEq, Repr

/-- Where the power sequencer stands (R490, R507). -/
inductive SeqState
  /-- enables rising; PWR_GOOD of the group awaited -/
  | raising (g : Nat)
  /-- the same on a wake from the Dark state, groups 0 and 2 (R508) -/
  | waking (g : Nat)
  /-- held in reset by TEST_MODE (R539) -/
  | held
  /-- every enable up -/
  | up
  /-- a group failed: enables down, FAULT_N held until reset (R490) -/
  | failed
  /-- thermal shutdown (R506) -/
  | off
  /-- the output frame that ramps down is being emitted; the Dark state follows at its end (R507) -/
  | darkening
  /-- the Dark state (R507) -/
  | dark
deriving DecidableEq, Repr

/-- What the ROM started (R496, R498). -/
inductive BootState
  | sequencing | running | pcieWait | uart | debugHold
deriving DecidableEq, Repr

/-- Power, reset, boot and thermal supervision. -/
structure PwrSt where
  /-- the sequencer (R490) -/
  seq : SeqState
  /-- the enables PWR_EN[5:0] (R489) -/
  en : Nat
  /-- the boot state of the control processor (R496) -/
  boot : BootState
  /-- a first watchdog expiry with no kick since (R495) -/
  wdt1 : Bool
  /-- watchdog reloads since reset (R495) -/
  wdtLoads : Nat
  /-- the thermal trip condition (R506) -/
  trip : Bool
  /-- rails under voltage, one bit each (R492) -/
  uvRails : Nat
  /-- control keys 0 to 3 (R499) -/
  ckeys : Vector Bytes 4
  /-- the running PMBus transaction is a read (R502) -/
  pmbRead : Bool
  /-- the image loaded through BAR2 for a PCIe boot (R496) -/
  bootImage : Bytes
  /-- NETREFCLK stopped (R539) -/
  netref : Bool
deriving DecidableEq, Repr

end Sys2Proof.Machine
end

