-- ==== Sys2Proof/Machine/StFab.lean ====
section
/-! DEFINITION. The state of the fabric and of ECC (R430 to R448). Windows, priorities and slices are registers. -/

namespace Sys2Proof.Machine

open Sys2Proof

/-- A burst a master has asked for: master, source, target, address, and the bytes of a write or the length of a read. -/
structure Burst where
  master : Nat
  source : Nat
  target : Nat
  addr : Nat
  write : Option Bytes
  len : Nat
  /-- a master reset has come: what is left of a write has every strobe clear, a read is discarded (R437) -/
  drained : Bool
deriving DecidableEq, Repr

/-- A request whose issuer stalls (R431, R437): master, source, address, length of a read, bytes of a write, parity error. -/
structure FabReq where
  master : Nat
  source : Nat
  addr : Nat
  len : Nat
  data : Bytes
  parity : Bool
deriving DecidableEq, Repr

/-- A source in DRAINING (R437): transactions left and transactions it started with. -/
structure Drain where
  master : Nat
  source : Nat
  left : Nat
  total : Nat
deriving DecidableEq, Repr

/-- The fabric. -/
structure FabSt where
  /-- bursts waiting at the targets, in order of arrival -/
  waiting : List Burst
  /-- the burst each target is carrying out -/
  current : List Burst
  /-- the master last granted: target, priority, master (R435) -/
  granted : List (Nat × Nat × Nat)
  drains : List Drain
  /-- requests that stall: their source drains, or their port has 64 transactions outstanding; in order of arrival (R431, R437) -/
  stalled : List FabReq
  /-- error runs open on a master: kind (0 decode, 1 parity), master, whether an error came since the last boundary (R434) -/
  runs : List (Nat × Nat × Bool)
  /-- codewords with flipped data bits: internal address of the codeword, mask of bits 0 and 1 (R444) -/
  inj : List (Nat × Nat)
  /-- addresses with an open run of uncorrectable errors (R441) -/
  ueRuns : List Nat
  /-- uncorrectable and parity errors of the running one-second window (R442) -/
  errSum : Nat
  storm : Bool
  slicesSet : Bool
  slicesDiff : Bool
  /-- where the scrubber stands in each memory of R441, and the memories whose last codeword it has read since the last SCRUBPASS
  (R443) -/
  scrub : List Nat
  scrubbed : List Nat
deriving DecidableEq, Repr

def FabSt.reset : FabSt :=
  { waiting := [], current := [], granted := [], drains := [], stalled := [], runs := [], inj := [], ueRuns := [], errSum := 0,
    storm := false, slicesSet := false, slicesDiff := false, scrub := [0, 0, 0, 0, 0, 0, 0, 0, 0], scrubbed := [] }

end Sys2Proof.Machine
end

