-- ==== Sys2Proof/Machine/StGeo.lean ====
section
/-! DEFINITION. The GEOMETRY section of a take (R41 to R45, R540) and the state of the geometry engine. -/

namespace Sys2Proof.Machine

open Sys2Proof

/-- A speaker or virtual vertex (R42): position in mm, facing direction Q2.14, PRESENT, TRIM Q2.22. -/
structure Speaker where
  x : Int
  y : Int
  z : Int
  nx : Int
  ny : Int
  nz : Int
  present : Bool
  trim : Int
deriving DecidableEq, Repr

/-- A triangle (R43): its vertices and the matrix M[k][j] as nine Q8.24 values, k first. -/
structure Triangle where
  v0 : Nat
  v1 : Nat
  v2 : Nat
  m : List Int
deriving DecidableEq, Repr

/-- A candidate set (R44). -/
structure CandSet where
  members : Nat
  tris : Nat
  memberOfs : Nat
  triOfs : Nat
  law : Nat
  rolloff : Nat
  dref : Nat
  dmin : Nat
  blur : Nat
  doff : Int
deriving DecidableEq, Repr

/-- The tables of the geometry section (R540). -/
structure GeoSec where
  speakers : List Speaker
  tris : List Triangle
  csets : List CandSet
  /-- member list: BUS and TAPER -/
  members : List (Nat × Nat)
  trilist : List Nat
  /-- initial object table: words 0 to 5 of each entry, or none -/
  init : List (List Nat)
deriving DecidableEq, Repr

/-- The target of one path (R40): its bus, Q2.22 gain and delay in 2^−15 sample. -/
structure PathTarget where
  bus : Nat
  gain : Int
  delay : Nat
deriving DecidableEq, Repr

/-- What an object holds in the path list: its PRIORITY when last evaluated and its paths in order (R61, R62). -/
structure ObjTargets where
  prio : Nat
  paths : List PathTarget
deriving DecidableEq, Repr

/-- The geometry engine. -/
structure GeoSt where
  /-- targets of each object that has paths, by object index (R61) -/
  targets : Sparse ObjTargets
  /-- objects changed and not yet evaluated, rising (R47, R65) -/
  changed : List Nat
  /-- the last tick deferred an object: the overrun run is open (R65) -/
  overrun : Bool
  /-- late packets applied at the last tick: the META_LATE run is open (R53) -/
  lateRun : Bool
  /-- a tick start is due at this boundary for a cut or a splice (R51) -/
  tickDue : Bool
deriving DecidableEq, Repr

def GeoSt.reset : GeoSt :=
  { targets := [], changed := [], overrun := false, lateRun := false, tickDue := false }

/-- What an object without paths holds. -/
def ObjTargets.none : ObjTargets := { prio := 0, paths := [] }

end Sys2Proof.Machine
end

