-- ==== Sys2Proof/Machine/StGraph.lean ====
section
/-! DEFINITION. The GRAPH section of a take (R165 to R169), parsed, and the state of the task dispatcher (R171 to R190). -/

namespace Sys2Proof.Machine

open Sys2Proof

/-- A kernel (R166). -/
structure Kernel where
  entry : Nat
  len : Nat
  coreMask : Nat
  img : Nat
deriving DecidableEq, Repr

/-- A local data image (R166). -/
structure DataImg where
  coreMask : Nat
  laddr : Nat
  len : Nat
  img : Nat
deriving DecidableEq, Repr

/-- A buffer of the cluster SRAM (R167). -/
structure Buffer where
  base : Nat
  size : Nat
  rot : Nat
  kind : Nat
deriving DecidableEq, Repr

/-- A task (R168). -/
structure Task where
  kernel : Nat
  cls : Nat
  nslot : Nat
  affMode : Nat
  affCore : Nat
  dlk : Nat
  arcFirst : Nat
  arcCount : Nat
  args : List Nat
deriving DecidableEq, Repr

/-- An arc (R169). -/
structure Arc where
  src : Nat
  dst : Nat
  slot : Nat
  auto : Bool
deriving DecidableEq, Repr

/-- The graph section (R165). -/
structure GraphSec where
  ncores : Nat
  divMax : Nat
  slotsTotal : Nat
  setsTotal : Nat
  busNeed : List Nat
  auxNeed : List Nat
  imemLo : Nat
  imemHi : Nat
  dmemLo : Nat
  dmemHi : Nat
  kernels : List Kernel
  tasks : List Task
  arcs : List Arc
  buffers : List Buffer
  images : List DataImg
deriving DecidableEq, Repr

/-- A program bank: its graph and the frames it serves, `hi` none while no cut ends it (R185). Frames are positions N + Z. -/
structure Bank where
  graph : GraphSec
  lo : Int
  hi : Option Int
deriving DecidableEq, Repr

/-- The state of an instance, in code order (R190). -/
inductive InstState
  | none | waiting | ready | running | completed | cancelled | late | faulted
deriving DecidableEq, Repr

/-- An instance of a task (R173): `slots` the filled slots, `core` the core it was dispatched to, `readyAt` the dispatcher cycle
in which it became ready, `sent` the AUTO arcs a TSIG has fired. -/
structure Inst where
  bank : Nat
  task : Nat
  frame : Int
  st : InstState
  slots : Nat
  core : Nat
  readyAt : Nat
  sent : List Nat
deriving DecidableEq, Repr

/-- What waits for the dispatcher, in order of arrival (R171, R175). -/
inductive Token
  /-- the token of an arc of a bank for a frame -/
  | arc (bank idx : Nat) (frame : Int)
  /-- BOUNDARY(N) -/
  | boundary (frame : Int)
  /-- CUTOFF(N) -/
  | cutoff (frame : Int)
deriving DecidableEq, Repr

/-- The task dispatcher. -/
structure DispSt where
  bank0 : Option Bank
  bank1 : Option Bank
  /-- the matching store, newest instance of each set (R173) -/
  insts : List Inst
  tokens : List Token
  /-- tokens received by the sinks: frame, sink code + 65,536 × bank, count -/
  sinks : List (Int × Nat × Nat)
  /-- the newest frame whose CUTOFF was taken -/
  cutoff : Option Int
  /-- the newest frame whose BOUNDARY was taken -/
  bound : Option Int
  /-- dispatcher cycles run -/
  cycle : Nat
  /-- host cancels whose cancel step is due: bank, task, frame of the commit (R184) -/
  cancels : List (Nat × Nat × Nat)
  /-- frames with a missed deadline, newest first (R183) -/
  missed : List Int
  /-- missed frames not yet logged: frame, cancelled and LATE instances, lowest task index (R183) -/
  tally : List (Int × Nat × Nat × Nat)
  /-- the running frame period counted in DISP_MISSFRM (R188) -/
  missNow : Bool
  /-- instances dispatched in the running frame period -/
  dispatched : Nat
deriving DecidableEq, Repr

def DispSt.reset : DispSt :=
  { bank0 := none, bank1 := none, insts := [], tokens := [], sinks := [], cutoff := none, bound := none, cycle := 0,
    cancels := [], missed := [], tally := [], missNow := false, dispatched := 0 }

end Sys2Proof.Machine
end

