-- ==== Sys2Proof/Machine/StKpu.lean ====
section
/-! DEFINITION. The state of the kernel processors (R130 to R164). Local memories lie in `State.mem` at their internal addresses
(R131). -/

namespace Sys2Proof.Machine

open Sys2Proof

/-- The states of a core (R164), GATED apart. -/
inductive CoreState
  | idle | run | stall | handler | fault | debug
deriving DecidableEq, Repr

/-- Where a result lands: vector, accumulator, address, base, length, predicate or special register, or data memory. -/
inductive FFile
  | v | a | x | b | l | p | s | m
deriving DecidableEq, Repr

/-- A result in flight (R139 to R141). `left` bundles until it lands, `age` bundles since its issue, `slot` 0 CT, 1 LS, 2 V0,
3 V1; `reg` the physical register with its bank (a byte address for a store); `mask` the lanes; `add` adds into an accumulator,
`wrap` modulo; `sat` the lanes that saturated. -/
structure Flight where
  left : Nat
  age : Nat
  slot : Nat
  file : FFile
  reg : Nat
  mask : Nat
  vals : List Int
  add : Bool
  wrap : Bool
  sat : Nat
deriving DecidableEq, Repr

/-- A branch that has not decided yet: `left` bundles before the one it decides; an RFI names no target (R142, R156). -/
structure PendBr where
  left : Nat
  target : Nat
  rfi : Bool
deriving DecidableEq, Repr

/-- How a DMA transfer ends (R149, R158): done, an error of R149, or an uncorrectable error in the core's own data memory, at this
address. -/
inductive DmaEnd
  | good | error
  | badData (addr : Nat)
deriving DecidableEq, Repr

/-- What a stalled core waits for (R148, R178, R179). -/
inductive KWait
  | dmaq (ch addr : Nat)
  | dmaw (ch : Nat)
  | tdone
  | tsig (arc : Nat)
deriving DecidableEq, Repr

/-- One core. Vector and accumulator lanes are signed values; the shadow bank of R155 lies behind the user bank in each
file. -/
structure Core where
  state : CoreState
  v : Sparse Int
  a : Sparse Int
  x : Sparse Nat
  base : Sparse Nat
  len : Sparse Nat
  p : Sparse Nat
  /-- the bundle that issues next, and the one most recently issued -/
  pc : Nat
  last : Nat
  ie : Bool
  sf : Bool
  hm : Bool
  wc : Bool
  de : Bool
  lc : Nat
  lstart : Nat
  lend : Nat
  stg : Nat
  j : Nat
  lc0 : Nat
  armed : Bool
  /-- the stage predicates of pass 0 are still to be set (R144) -/
  predsDue : Bool
  rbase : Nat
  stride : Nat
  rpos : Nat
  ivec : Nat
  imask : Nat
  ipend : Nat
  ipc : Nat
  ibt : Nat
  ibd : Nat
  mbox : Nat
  brs : List PendBr
  flight : List Flight
  wait : Option KWait
  /-- the descriptor queues of the four DMA channels, the running one first; an empty descriptor could not be read (R147) -/
  dma0 : List Bytes
  dma1 : List Bytes
  dma2 : List Bytes
  dma3 : List Bytes
  cause : Nat
  faultPc : Nat
  faultAddr : Nat
  /-- KCLK cycles in RUN, STALL or HANDLER in the running frame period (R188) -/
  busy : Nat
deriving DecidableEq, Repr

/-- A core with its registers cleared (R162). -/
def Core.cleared : Core :=
  { state := .idle, v := [], a := [], x := [], base := [], len := [], p := [], pc := 0, last := 0, ie := false, sf := false,
    hm := false, wc := false, de := false, lc := 0, lstart := 0, lend := 0, stg := 0, j := 0, lc0 := 0, armed := false,
    predsDue := false, rbase := 64, stride := 1, rpos := 0, ivec := 0, imask := 0, ipend := 0, ipc := 0, ibt := 0, ibd := 0,
    mbox := 0, brs := [], flight := [], wait := none, dma0 := [], dma1 := [], dma2 := [], dma3 := [], cause := 0, faultPc := 0,
    faultAddr := 0, busy := 0 }

/-- The cluster. -/
structure KpuSt where
  cores : Vector Core 32
  /-- cores gated (R160) -/
  gated : Nat
deriving DecidableEq, Repr

def KpuSt.reset : KpuSt := { cores := Vector.replicate 32 Core.cleared, gated := 0 }

end Sys2Proof.Machine
end

