-- ==== Sys2Proof/Machine/StLio.lean ====
section
/-! DEFINITION. The state of the TDM ports, the decimation engine and the pulse-density outputs (R372 to R396). Sample positions
are 16 × frame position + sample. -/

namespace Sys2Proof.Machine

open Sys2Proof

/-- The states of a TDM port (R381), in code order. -/
inductive TdmState
  | off | priming | run | stopping
deriving DecidableEq, Repr

/-- The phases of a ZEROX gate (R382). -/
inductive GatePh
  | opening | ramping | opened | closing | fading | closed
deriving DecidableEq, Repr

/-- A ZEROX gate: samples waited or ramp sample, the last sample, and whether its forced change was already counted. -/
structure Gate where
  ph : GatePh
  n : Nat
  prev : Option Int
  counted : Bool
deriving DecidableEq, Repr

/-- A TDM port: the settings it runs under, the frame position of its last start or stop, the mask in force and the mask in its
shadow register with the first period it covers once known (R379), the last assigned index, the last stored slot words, words
assigned to later frames, the gates of its input and output slots, whether a slip run is open, and the timestamp of the last
block. -/
structure TdmPort where
  st : TdmState
  pcfg : Nat
  pstart : Nat
  since : Int
  mask : Nat
  shadow : Option (Nat × Option (Int × Nat))
  index : Option Int
  last : List Nat
  ahead : List (Int × List Nat)
  gin : List Gate
  gout : List Gate
  slipRun : Bool
  stamp : Option (Int × Int)
deriving DecidableEq, Repr

/-- A decimator channel (R384 to R388): source, coefficient set and ratio, inputs and normalized outputs newest first, unsettled
outputs left, and whether DEC_SETTLED has reported the end. -/
structure DecCh where
  src : Nat
  cset : Nat
  r : Nat
  xs : List Int
  ws : List Int
  left : Nat
  told : Bool
deriving DecidableEq, Repr

/-- A frame queued for a group (R391): sixteen samples of each of its eight outputs, and whether all carry μ = 0 (R393). -/
structure PdmFrame where
  ch : List (List Int)
  mute : Bool
deriving DecidableEq, Repr

/-- A modulator (R392): its five states and the previous scaled sample. -/
structure PdmMod where
  s1 : Int
  s2 : Int
  s3 : Int
  s4 : Int
  s5 : Int
  a : Int
deriving DecidableEq, Repr

/-- A pulse-density group. -/
structure PdmGroup where
  /-- the settings its last load strobe took, as in PDM_GCFGg (R391) -/
  cfg : Nat
  queue : List PdmFrame
  /-- a load strobe came since the group was enabled and since PDM_CLEAR_N last rose (R393, R395) -/
  run : Bool
  mods : List PdmMod
  /-- SPAN in force; a span write waits for its strobe; its idle period runs (R394) -/
  span : Nat
  spanPend : Bool
  spanIdle : Bool
  /-- a run of load faults is open -/
  errRun : Bool
  /-- bits of the present load period by output, the first bit least significant; none while the idle pattern is carried -/
  out : Option (List Nat)
deriving DecidableEq, Repr

/-- Local audio I/O. -/
structure LioSt where
  ports : Vector TdmPort 16
  decs : Vector DecCh 16
  groups : Vector PdmGroup 4
  /-- PDM_CLEAR_N reads low (R395) -/
  clear : Bool
deriving DecidableEq, Repr

def Gate.idle : Gate := { ph := .opened, n := 0, prev := none, counted := false }
def TdmPort.off : TdmPort :=
  { st := .off, pcfg := 0, pstart := 0x4000A, since := 0, mask := 0, shadow := none, index := none, last := [], ahead := [],
    gin := List.replicate 16 Gate.idle, gout := List.replicate 16 Gate.idle, slipRun := false, stamp := none }
def DecCh.off : DecCh := { src := 0xFFFF, cset := 0, r := 0, xs := [], ws := [], left := 0, told := true }
def PdmMod.zero : PdmMod := { s1 := 0, s2 := 0, s3 := 0, s4 := 0, s5 := 0, a := 0 }
def PdmGroup.idle : PdmGroup :=
  { cfg := 0, queue := [], run := false, mods := List.replicate 8 PdmMod.zero, span := 0, spanPend := false, spanIdle := false,
    errRun := false, out := none }

def LioSt.reset : LioSt :=
  { ports := Vector.replicate 16 TdmPort.off, decs := Vector.replicate 16 DecCh.off, groups := Vector.replicate 4 PdmGroup.idle,
    clear := false }

end Sys2Proof.Machine
end

