-- ==== Sys2Proof/Machine/StMem.lean ====
section
/-! DEFINITION. The state of the external memory controller (R402 to R429). Results of training and configuration lie in
registers. -/

namespace Sys2Proof.Machine

open Sys2Proof

/-- A DRAM request in the controller (R414 to R416): `id` its order of arrival, `cls` the class it is served in, `native` the class it was issued in,
`master` the port it came through, `head` it stands in the head list H, `passed` how often younger requests have passed it; `due` the position of the frame
at whose boundary it must be complete; `missed` its requester took it as missing. -/
structure DramReq where
  id : Nat
  chan : Nat
  master : Nat
  cls : Nat
  native : Nat
  head : Bool
  addr : Nat
  write : List (Option Byte)
  len : Nat
  closed : Bool
  due : Option Int
  use : DramUse
  at_ : Nat
  passed : Nat
  missed : Bool
deriving DecidableEq, Repr

/-- Self-refresh (R421, R422): out, entry begun, entry command issued, by the Dark sequence. -/
inductive SelfRef
  | out | entering | in_ | dark
deriving DecidableEq, Repr

/-- A frequency change (R412): target, whether it was deferred, whether it runs, the number of the first request that came after it
began to run, and the command that waits for its end. -/
structure FspChange where
  target : Nat
  deferred : Bool
  running : Bool
  upto : Nat
  ctx : Option Ctx
deriving DecidableEq, Repr

/-- An entry of a row-hammer table (R419): bank key, row, count. -/
structure RhEntry where
  bank : Nat
  row : Nat
  count : Nat
deriving DecidableEq, Repr

/-- The memory controller. -/
structure MemSt where
  ready : Bool
  trainFail : Bool
  retrain : Bool
  hotRef : Bool
  selfRef : SelfRef
  /-- ranks in power-down, one bit each -/
  pd : Nat
  /-- set points whose results are stored -/
  trained : Nat
  fsp : Nat
  /-- a training runs, over these set points; the command that waits for its end -/
  training : Option Nat
  trainCtx : Option Ctx
  /-- the frequency change that runs or is deferred -/
  change : Option FspChange
  /-- the oscillator baselines of the eight lanes at FSP0 and at FSP1 (R408, R410) -/
  n0 : List Nat
  n1 : List Nat
  /-- the requests, those of one class and channel in the order of its queue -/
  reqs : List DramReq
  nextId : Nat
  /-- reads that are complete but wait for an earlier read of their port: master, number, bytes (R416) -/
  heldReads : List (Nat × Nat × Bytes)
  /-- per channel, the data blocks whose check bytes are on the die, the one used last first (R404) -/
  checks : List (List Nat)
  /-- per channel, column accesses since one served an entry of H of class 1 to 3 (R414) -/
  since : List Nat
  /-- open rows: bank key (channel, rank, bank), row -/
  open_ : List (Nat × Nat)
  /-- row-hammer tables, each bank's entries in table order -/
  rh : List RhEntry
  /-- banks whose neighbour rows are due for a refresh: bank key and row -/
  rhDue : List (Nat × Nat)
deriving DecidableEq, Repr

def MemSt.reset : MemSt :=
  { ready := false, trainFail := false, retrain := false, hotRef := false, selfRef := .out, pd := 0, trained := 0, fsp := 0,
    training := none, trainCtx := none, change := none, n0 := List.replicate 8 0, n1 := List.replicate 8 0, reqs := [], nextId := 0,
    heldReads := [], checks := [[], [], [], []],
    since := [3, 3, 3, 3], open_ := [], rh := [], rhDue := [] }

end Sys2Proof.Machine
end

