-- ==== Sys2Proof/Machine/StNet.lean ====
section
/-! DEFINITION. The state of the Ethernet ports (R295 to R318) and of network time (R319 to R349). -/

namespace Sys2Proof.Machine

open Sys2Proof

/-- What the MAC does to a frame of a transmit queue as it leaves, and what its completion reports. -/
inductive TxKind
  /-- sent as it stands -/
  | plain
  /-- the device's own PAUSE or PFC frame (R311) -/
  | pause
  /-- a frame forwarded in chain mode (R309) -/
  | forward
  /-- a media stream packet (R283) or a clapper of Q1 -/
  | media
  /-- a Pdelay_Resp: header offset, request's correctionField, ingress stamp in quarter ns (R339) -/
  | pdelayResp (ofs corr ingress : Nat)
  /-- a forwarded PTP event message: header offset, ingress stamp, extra correction in 2^−16 ns, corrected or not (R336, R337) -/
  | event (ofs ingress extra : Nat) (correct : Bool)
  /-- a launch entry (R340): TAG, TIMED, LTIME in quarter ns, STAMP, ONESTEP, PTPOFS, LATEWIN applies -/
  | launch (tag : Nat) (timed : Bool) (ltime : Nat) (stamp onestep : Bool) (ptpofs : Nat) (latewin : Bool)
deriving DecidableEq, Repr

/-- A frame of a transmit queue: its bytes without FCS, when it entered (quarter ns of local time), and what it is. -/
structure TxFrame where
  bytes : Bytes
  at_ : Nat
  kind : TxKind
deriving DecidableEq, Repr

/-- A frame of the control processor queue: status word of R300, ingress stamp in quarter ns, bytes delivered. -/
structure CpqFrame where
  status : Nat
  stamp : Nat
  bytes : Bytes
deriving DecidableEq, Repr

/-- How a launch entry ended (R344). -/
inductive LaunchStatus
  | sent | late | linkDown
deriving DecidableEq, Repr

/-- A completion of a launch entry: TAG, status and STAMP_LOST (R344). -/
structure Completion where
  tag : Nat
  status : LaunchStatus
  stampLost : Bool
deriving DecidableEq, Repr

/-- A received frame that waits for a frame of the other port with an earlier ingress stamp (R35): stamp in quarter ns, flags of
R299, bytes as received. -/
structure RxHeld where
  stamp : Nat
  flags : Nat
  bytes : Bytes
deriving DecidableEq, Repr

/-- One Ethernet port. -/
structure PortSt where
  /-- link up, as of the last boundary (R312) -/
  link : Bool
  /-- the change of the link waiting for its boundary: up, SPEED, ANDONE, LFAULT, RFAULT (R312) -/
  linkPend : Option (Bool × Nat × Bool × Bool × Bool)
  /-- control processor queue, at most 128 (R303) -/
  cpq : List CpqFrame
  /-- received frames the order of R35 holds back, oldest first -/
  held : List RxHeld
  /-- the port's own PAUSE and PFC frames (R311, R341) -/
  pauseQ : List TxFrame
  /-- transmit queues Q0 to Q3 (R305) -/
  q0 : List TxFrame
  q1 : List TxFrame
  q2 : List TxFrame
  q3 : List TxFrame
  /-- frames whose producer waits for Q3 space (R305) -/
  q3wait : List TxFrame
  /-- the frame on the wire, with the bytes as sent and FCS (R305) -/
  wire : Option TxFrame
  /-- pause time of the whole port, in quanta; 0 not paused (R310) -/
  pause : Nat
  /-- pause time per priority, in quanta (R310) -/
  pfc : Vector Nat 8
  /-- the port holds its link partner off (R311) -/
  xoff : Bool
  /-- a run of looping frames is open (R309) -/
  loopRun : Bool
  /-- completions of launch entries firmware has not yet taken (R344) -/
  done : List Completion
  /-- transmit timestamp queue, at most 64: TAG and egress stamp in quarter ns (R344) -/
  tsq : List (Nat × Nat)
deriving DecidableEq, Repr

/-- The states of a servo (R333), in code order. -/
inductive ServoState
  | disabled | wait | measure | acquire | locked | lost
deriving DecidableEq, Repr

/-- A servo (R331 to R334). Offsets in quarter ns, terms in 2^−8 ppb. -/
structure Servo where
  st : ServoState
  pt : Int
  i : Int
  y : Int
  /-- the last accepted offset -/
  oPrev : Option Int
  /-- consecutive accepted offsets within 4 × LOCKTHR -/
  okRun : Nat
  /-- consecutive outliers -/
  outRun : Nat
  /-- a Sync held for its Follow_Up: sequenceId, t2, correctionField (R329) -/
  held : Option (Nat × Int × Int)
  /-- first and last accepted offset of the running second in MEASURE, with their t2 (R334) -/
  sec : Option (Int × Int × Int × Int)
  /-- this servo steers the root clock (R333) -/
  steer : Bool
  /-- last FDIFF reported (R334) -/
  fdiff : Int
deriving DecidableEq, Repr

/-- The time engine. -/
structure TimeSt where
  /-- the local time at the most recent boundary, in units of 1/56,448 ns (R322) -/
  now : Nat
  /-- the counter was set or stepped since reset (R323, R475) -/
  valid : Bool
  /-- a SET waits for its boundary, in quarter ns (R323) -/
  setPend : Option Nat
  /-- a step waits for its boundary, in quarter ns (R323, R332) -/
  stepPend : Option Int
  /-- the servos of port A and port B -/
  sa : Servo
  sb : Servo
  /-- the last launch request was answered LAUNCH_FULL (R340) -/
  launchFull : Bool
deriving DecidableEq, Repr

end Sys2Proof.Machine
end

