-- ==== Sys2Proof/Machine/StPair.lean ====
section
/-! DEFINITION. The state of the pair block (R449 to R474). -/

namespace Sys2Proof.Machine

open Sys2Proof

/-- The roles, in code order (R234, R454). -/
inductive Role
  | solo | active | standby | resync | orphan | init
deriving DecidableEq, Repr

/-- The phases of a resynchronisation, in code order from 1 (R465). -/
inductive RsPhase
  | waitLink | transfer | align | settle | match_ | failed
deriving DecidableEq, Repr

/-- What the last valid clapper of a path said (R453). -/
structure PeerSeen where
  role : Nat
  actFrame : Nat
  digest : Bytes
  devid : Nat
  frame : Nat
deriving DecidableEq, Repr

/-- The pair block. -/
structure PairSt where
  role : Role
  /-- the role the unit takes at the next boundary, with the cause of PAIR_ROLE (R455) -/
  pend : Option (Role × Nat)
  /-- code-group synchronization of the pair link (R451) -/
  link : Bool
  /-- the pair-link path and the network path are current (R454) -/
  pclap : Bool
  nclap : Bool
  /-- the last clapper of each path while it is current -/
  peerP : Option PeerSeen
  peerN : Option PeerSeen
  /-- clappers sent on each path (CSEQ) -/
  cseqP : Nat
  cseqN : Nat
  /-- messages sent on the pair link since the last boundary: an output -/
  tx : List Bytes
  /-- network clappers with RELEASE that left as a reset began: an output (R457) -/
  farewell : List Bytes
  /-- runs of PAIR_VARIANT and PAIR_DUAL are open -/
  variantRun : Bool
  dualRun : Bool
  /-- digests not yet compared: frame and digest, own and peer's (R462) -/
  own : List (Nat × Nat)
  peer : List (Nat × Nat)
  /-- frames of the running mismatch run (R462) -/
  divRun : Nat
  phase : Option RsPhase
  /-- the take received so far (R466) -/
  xTake : Bytes
  /-- FIR sets received in part: 4 × bus + slot, TOTAL, bytes (R466) -/
  xSets : List (Nat × Nat × Bytes)
  /-- object table and correction state received (R466) -/
  xObj : Bytes
  xCorr : Bytes
  /-- FA and K of the last ALIGN (R467) -/
  fa : Option (Nat × Nat)
  /-- whole frames by which the timeline is re-aligned at the next boundary (R467) -/
  realign : Option Int
  /-- position of FA: SETTLE ends S frames later (R465) -/
  settleFrom : Option Int
  /-- a switchover the peer announced: its frame, and its place in the order of arrival (R30, R460) -/
  switch : Option (Nat × Nat)
  /-- adaptive sets loaded for the active, whose SETREADY is owed: bus, slot, SETID (R471) -/
  sets : List (Nat × Nat × Nat)
  /-- a clapper has come on each path since the unit last sent one there: the running clapper slot is not empty (R454) -/
  gotP : Bool
  gotN : Bool
  /-- replies of PAIR_RESYNC owed once RESYNC is entered (R261) -/
  rsCtx : List Ctx
  /-- as the active, the boundaries since the XFER messages went to the peer (R466, R467) -/
  serve : Option Nat
  /-- the active has cut and no clapper has told the peer yet (R465, R466) -/
  cutUntold : Bool
  /-- outputs are driven: pins and streams (R455, R463) -/
  driven : Bool
  /-- a switchover has taken place: the position of its frame, at whose output boundary the drivers change hands, and whether this
  unit drives from then on (R460) -/
  driveAt : Option (Int × Bool)
deriving DecidableEq, Repr

def PairSt.reset : PairSt :=
  { role := .solo, pend := none, link := false, pclap := false, nclap := false, peerP := none, peerN := none, cseqP := 0,
    cseqN := 0, tx := [], farewell := [], variantRun := false, dualRun := false, own := [], peer := [], divRun := 0, phase := none,
    xTake := [], xSets := [], xObj := [], xCorr := [], fa := none, realign := none, settleFrom := none,
    switch := none, sets := [], gotP := false, gotN := false, rsCtx := [], serve := none, cutUntold := false, driven := true,
    driveAt := none }

end Sys2Proof.Machine
end

