-- ==== Sys2Proof/Machine/StPath.lean ====
section
/-! DEFINITION. The state of the path engines (R69 to R97). Frames are named by position N + Z (R363), which a splice keeps. -/

namespace Sys2Proof.Machine

/-- An admitted entry of a path list (R70 to R73) with its previous targets: `jump` says that its jump was granted a slot
(R77). -/
structure PathEntry where
  obj : Nat
  bus : Nat
  g1 : Int
  d1 : Nat
  hist : Bool
  g0 : Int
  d0 : Nat
  far : Option Nat
  jump : Bool
deriving DecidableEq, Repr

/-- A tick as the path engines render it: where it starts, its ramp length M, the slew limit, the admitted list, and the
fade-outs granted a slot (R77 to R83). -/
structure TickCtx where
  start : Int
  m : Nat
  slew : Nat
  list : List PathEntry
  fades : List PathEntry
  /-- slots used in the first frame of the tick and in the later ones (R77) -/
  slots0 : Nat
  slots1 : Nat
  /-- internal address and size of the list area that holds the list (R69) -/
  area : Nat
  size : Nat
deriving DecidableEq, Repr

/-- A far window fetched for a frame (R90, R91). -/
structure FarWin where
  slot : Nat
  pos : Int
  /-- the delay A -/
  a : Nat
  missed : Bool
deriving DecidableEq, Repr

/-- The path engines. -/
structure PathSt where
  /-- the tick whose evaluation is newest -/
  tick : TickCtx
  /-- the tick the frame under processing renders from -/
  render : TickCtx
  /-- in a soft cut, the outgoing take's tick for frame F, from the cut boundary on (R96) -/
  oldTick : Option TickCtx
  /-- the same while frame F is under processing -/
  renderOld : Option TickCtx
  /-- list area B was written last (R69) -/
  areaB : Bool
  /-- the last tick was overloaded (R76) -/
  overload : Bool
  /-- windows fetched and not yet rendered (R91) -/
  windows : List FarWin
  /-- position of the frame at which each far slot was assigned (R89) -/
  fa : Sparse Int
deriving DecidableEq, Repr

def TickCtx.empty : TickCtx :=
  { start := 0, m := 16, slew := 0x1000, list := [], fades := [], slots0 := 0, slots1 := 0, area := 0, size := 0 }

def PathSt.reset : PathSt :=
  { tick := TickCtx.empty, render := TickCtx.empty, oldTick := none, renderOld := none, areaB := true, overload := false,
    windows := [], fa := [] }

end Sys2Proof.Machine
end

