-- ==== Sys2Proof/Machine/StTake.lean ====
section
/-! DEFINITION. A take, parsed section by section (R208 to R217), the staging area, the reel, and continuity peers (R218 to
R242). -/

namespace Sys2Proof.Machine

open Sys2Proof

/-- The SYSTEM section (R211). -/
structure SystemSec where
  rate : Nat
  depth : Nat
  tick : Nat
  headroom : Bool
  twoFit : Bool
  variant : Nat
deriving DecidableEq, Repr

/-- The RENDER section (R212). -/
structure RenderSec where
  budget : Nat
  reserve : Nat
  slew : Nat
  lista : Nat
  listb : Nat
  farbase : Nat
  kspm : Nat
  floor : Nat
  /-- object of each far slot, 0xFFFF none -/
  farslot : List Nat
deriving DecidableEq, Repr

/-- The CORRECTION section (R213). -/
structure CorrSec where
  drbase : Nat
  xflen : Nat
  len : List Nat
  setid : List Nat
deriving DecidableEq, Repr

/-- The CROSSPOINT section (R214): monitor configurations and nodes as output, input, gain. -/
structure XptSec where
  moncfg : List Nat
  nodes : List (Nat × Nat × Int)
deriving DecidableEq, Repr

/-- The SAFETY section (R215). -/
structure SafetySec where
  ceil : List Nat
  adctrl : Nat
  adstep : Nat
  adceil : Nat
  adfloor : Nat
  ceilsel : List Nat
deriving DecidableEq, Repr

/-- The CONTINUITY section (R216). -/
structure ContSec where
  group : Nat
  mcast : Nat
  udpport : Nat
  ttl : Nat
  ports : Nat
deriving DecidableEq, Repr

/-- A receive entry (R272). -/
structure RxEnt where
  dsta : Nat
  dstb : Nat
  srca : Nat
  srcb : Nat
  udpa : Nat
  udpb : Nat
  kind : Nat
  fmt : Nat
  ch : Nat
  np : Nat
  pt : Nat
  flags : Nat
  depth : Nat
  linkofs : Nat
  ssrc : Nat
  mapofs : Nat
deriving DecidableEq, Repr

/-- A transmit entry (R273). -/
structure TxEnt where
  dsta : Nat
  dstb : Nat
  sport : Nat
  dport : Nat
  ssrc : Nat
  pt : Nat
  ch : Nat
  np : Nat
  csum : Bool
  seqofs : Nat
  ttl : Nat
  dscp : Nat
  mapofs : Nat
deriving DecidableEq, Repr

/-- The STREAMS section (R271); the receive map as OBJ, XIN (R274). -/
structure StreamSec where
  extbase : Nat
  mlate : Nat
  rx : List RxEnt
  tx : List TxEnt
  rxmap : List (Nat × Nat)
  txmap : List Nat
deriving DecidableEq, Repr

/-- The CLOCK section (R367), as the register words it loads. -/
structure ClockSec where
  prio : Nat
  policy : Nat
  qual : Nat
  tol : Nat
  lockthr : Nat
  refcfg : List Nat
  refdly : List Nat
  outcfg : List Nat
  wclk : Nat
deriving DecidableEq, Repr

/-- One master's record of the FABRIC section (R433): priorities by target, slices, windows 16 to 31 as base, size, ATTR. -/
structure FabRec where
  /-- reserved fields are 0 (R433) -/
  clean : Bool
  prio : List Nat
  slice : Nat
  wins : List (Nat × Nat × Nat)
deriving DecidableEq, Repr

/-- A decimator channel of the LOCALIO section (R397). -/
structure DecEnt where
  src : Nat
  cset : Nat
  obj : Nat
  xin : Nat
deriving DecidableEq, Repr

/-- The LOCALIO section (R397). -/
structure LioSec where
  tdmbuf : Nat
  decbuf : Nat
  micosr : Nat
  pcfg : List Nat
  mask : List Nat
  pstart : List Nat
  /-- OBJ, XIN of input slot 16p + j -/
  inmap : List (Nat × Nat)
  /-- output code of slot 16p + j -/
  ocode : List Nat
  dec : List DecEnt
  gcfg : List Nat
  psrc : List Nat
  /-- coefficient sets: T and the taps -/
  csets : List (Nat × List Int)
deriving DecidableEq, Repr

/-- A take in working form. -/
structure Take where
  slate : Nat
  digest : Bytes
  /-- its container (R466) -/
  raw : Bytes
  sys : SystemSec
  graph : GraphSec
  /-- the image area of the GRAPH section (R165, R166) -/
  images : Bytes
  geo : GeoSec
  render : RenderSec
  corr : CorrSec
  xpt : XptSec
  safety : SafetySec
  streams : StreamSec
  clock : Option ClockSec
  fabric : Option (List FabRec)
  localio : LioSec
  /-- the container holds a LOCALIO section -/
  hasLio : Bool
  cont : ContSec
deriving DecidableEq, Repr

/-- The staging states (R221), in code order. -/
inductive Stage
  | empty | loading | checking | checked | failed | scheduled
deriving DecidableEq, Repr

/-- What follows the running check (R221): a discard committed during it, a new load of LENGTH and SLATE, or a copy from a reel
slot. -/
inductive StageNext
  | discard
  | begin_ (len slate : Nat)
  | fromReel (slot : Nat)
deriving DecidableEq, Repr

/-- A reel slot: the container stored, and whether its store is complete (R219, R220). -/
structure ReelSlot where
  full : Bool
  len : Nat
  slate : Nat
  digest : Bytes
deriving DecidableEq, Repr

/-- One continuity peer (R235, R236, R242). -/
structure Peer where
  devid : Nat
  group : Nat
  role : Nat
  staged : Bool
  cutsched : Bool
  aslate : Nat
  adigest : Bytes
  sslate : Nat
  nextcut : Nat
  bseq : Nat
  mmActive : Bool
  mmNext : Bool
  /-- time since the last beacon, in units of 1/56,448 ns -/
  age : Nat
deriving DecidableEq, Repr

/-- Takes, cuts and continuity. -/
structure TakeSt where
  active : Option Take
  stage : Stage
  /-- LENGTH and SLATE named at stage-begin; none for a copy from the reel (R221) -/
  named : Option (Nat × Nat)
  /-- the container in the staging area -/
  bytes : Bytes
  /-- the parsed staged take, CHECKED or SCHEDULED -/
  staged : Option Take
  /-- a copy from a reel slot is running (R221) -/
  copying : Option Nat
  /-- the check waits before step 7 for the outgoing bank (R223) -/
  waiting : Bool
  /-- the reply STAGE_END or STAGE_FROM_REEL still owes (R261) -/
  ctx : Option Ctx
  /-- what came during the check, in order, with the replies owed (R221) -/
  next : List (StageNext × Option Ctx)
  /-- scheduled cut: F, HARD (R224) -/
  cut : Option (Nat × Bool)
  /-- the last two cuts: LASTCUT with the active digest, PREVCUT with the previous one (R236) -/
  lastCut : Option (Nat × Bytes)
  /-- the number its boundary has after the cut (R17) -/
  lastNew : Nat
  prevCut : Option (Nat × Bytes)
  /-- last cut: 0 none, 1 soft, 2 hard -/
  cutKind : Nat
  reel : Vector ReelSlot 64
  /-- a reel store in progress: slot, LENGTH (R261) -/
  reelLoad : Option (Nat × Nat)
  /-- the peer table: entry and peer, rising -/
  peers : List (Nat × Peer)
  /-- DEVID and BSEQ of every beacon taken, until the entry of its device expires (R235) -/
  seen : List (Nat × Nat)
  /-- beacons sent (R234) -/
  bseq : Nat
deriving DecidableEq, Repr

def ReelSlot.empty : ReelSlot := { full := false, len := 0, slate := 0, digest := [] }

def TakeSt.reset : TakeSt :=
  { active := none, stage := .empty, named := none, bytes := [], staged := none, copying := none,
    waiting := false, ctx := none, next := [], cut := none, lastCut := none, lastNew := 0, prevCut := none, cutKind := 0,
    reel := Vector.replicate 64 ReelSlot.empty, reelLoad := none, peers := [], seen := [], bseq := 0 }

/-- What holds where a take has no STREAMS section (R210). -/
def StreamSec.none : StreamSec := { extbase := 0, mlate := 8, rx := [], tx := [], rxmap := [], txmap := [] }

/-- What holds where a take has no CONTINUITY section (R210). -/
def ContSec.none : ContSec := { group := 0, mcast := 0, udpport := 0, ttl := 1, ports := 0 }

/-- What holds where a take has no LOCALIO section (R210): everything off. -/
def LioSec.none : LioSec :=
  { tdmbuf := 0, decbuf := 0, micosr := 0, pcfg := List.replicate 16 0, mask := List.replicate 16 0,
    pstart := List.replicate 16 0x4000A, inmap := List.replicate 256 (0xFFFF, 0xFFFF), ocode := List.replicate 256 0xFFFF,
    dec := List.replicate 16 { src := 0xFFFF, cset := 0, obj := 0xFFFF, xin := 0xFFFF }, gcfg := [0, 0, 0, 0],
    psrc := List.replicate 32 0xFFFF, csets := List.replicate 4 (1, []) }

end Sys2Proof.Machine
end

