-- ==== Sys2Proof/Machine/StXpt.lean ====
section
/-! DEFINITION. The state of the crosspoint, the meters and the safety stage (R191 to R202). Frames are positions. -/

namespace Sys2Proof.Machine

/-- A change of a node's gain (R194): from g0 to g1 over `len` samples from the first sample of frame `start`; a step has len 1. -/
structure Ramp where
  g0 : Int
  g1 : Int
  len : Nat
  start : Int
deriving DecidableEq, Repr

/-- A node: its newest change, and the one that holds for frames before it starts. -/
structure Node where
  cur : Ramp
  prev : Ramp
deriving DecidableEq, Repr

/-- What the mute gain does in the frame that begins at the most recent output frame boundary (R202). -/
inductive MuteState
  | muted | ramp | full
deriving DecidableEq, Repr

/-- The crosspoint, meters and safety stage. The preset gain and configuration registers are in `State.regs`. -/
structure XptSt where
  /-- nodes with a nonzero gain or a running ramp, by 512 × output + input -/
  nodes : Sparse Node
  /-- monitor configurations of the frame under processing and of the frame before it (R196) -/
  monProc : List Nat
  monPrev : List Nat
  /-- hold counters by meter (R197) -/
  holds : Sparse Nat
  /-- the filtered HOUSE_MUTE_N reads low (R200) -/
  house : Bool
  /-- it has read low at some instant since the previous output frame boundary (R202) -/
  houseLow : Bool
  mute : MuteState
deriving DecidableEq, Repr

def Ramp.zero : Ramp := { g0 := 0, g1 := 0, len := 1, start := 0 }
def Node.zero : Node := { cur := Ramp.zero, prev := Ramp.zero }

def XptSt.reset : XptSt :=
  { nodes := [], monProc := List.replicate 128 0, monPrev := List.replicate 128 0, holds := [], house := false,
    houseLow := false, mute := .full }

end Sys2Proof.Machine
end

