-- ==== Sys2Proof/Machine/StPipe.lean ====
section
/-! DEFINITION. The state of the frame pipeline: the frame under processing, the outgoing take of a cut, the output buffers up to
their output boundary (R18 to R26, R229, R230). Frames are positions; output channels have the codes of R274. -/

namespace Sys2Proof.Machine

open Sys2Proof

/-- One take's share of the frame under processing. -/
structure Side where
  /-- it is the outgoing take's (R229) -/
  outgoing : Bool
  /-- steps 3 to 5 of R18 have ended -/
  rendered : Bool
  /-- bus samples (R95), monitor mixes (R191) -/
  bus : Sparse (List Int)
  mix : Sparse (List Int)
  /-- samples after step 1 of R198, by output code -/
  ch : Sparse (List Int)
  /-- groups through the safety stage: bus group g as g, auxiliary group g as 16 + g; and monitor outputs -/
  groups : List Nat
  mons : List Nat
deriving DecidableEq, Repr

/-- The frame under processing: crosspoint inputs, both takes' shares, the groups corrected with their feeds, and the channels
step 1 has changed. -/
structure Work where
  pos : Int
  xin : Sparse (List Int)
  prime : Side
  second : Option Side
  corrected : List Nat
  feeds : Sparse (List Int)
  hits : List Nat
deriving DecidableEq, Repr

/-- What the take a cut has left still needs for its own frames (R231): its program bank, nodes, monitor configurations of its
frame and of the frame before, far slot assignments, and the first frame of the incoming take. -/
structure OldTake where
  take : Take
  bank : Nat
  nodes : Sparse Node
  mon : List Nat
  monPrev : List Nat
  fa : Sparse Int
  pos : Int
  soft : Bool
deriving DecidableEq, Repr

/-- A cut at the outputs: its frame, the outgoing take's last emitted frame, whether it is hard, whether an outgoing take ramps
down, and the frame that ramps up, none while the root PLL relocks (R17, R230, R232). -/
structure CutRec where
  pos : Int
  e : Int
  hard : Bool
  ramp : Bool
  up : Option Int
deriving DecidableEq, Repr

/-- A processed frame on its way to its output boundary: samples after step 1, those of the outgoing take where the two are
joined, the channels step 1 changed, the channels that missed the cutoff, the position of its output boundary, and the routing
of local outputs; `taps` the monitor outputs that copy a feed, whose clip is their feed's (R196). -/
structure OutFrame where
  pos : Int
  ch : Sparse (List Int)
  alt : Option (Sparse (List Int))
  hits : List Nat
  miss : List Nat
  taps : List Nat
  due : Int
  lio : LioSec
deriving DecidableEq, Repr

/-- The frame pipeline. -/
structure PipeSt where
  /-- the program bank of the active take -/
  bank : Nat
  old : Option OldTake
  /-- the last three cuts, newest first -/
  cuts : List CutRec
  work : Option Work
  outq : List OutFrame
  /-- the frame being emitted: position, label, and output samples -/
  cur : Option (Int × Nat × Sparse (List Int))
  /-- cores whose images are loaded after the cut (R186) -/
  imgCores : List Nat
deriving DecidableEq, Repr

def Side.new (outgoing : Bool) : Side :=
  { outgoing := outgoing, rendered := false, bus := [], mix := [], ch := [], groups := [], mons := [] }

def PipeSt.reset : PipeSt := { bank := 0, old := none, cuts := [], work := none, outq := [], cur := none, imgCores := [] }

end Sys2Proof.Machine
end

