-- ==== Sys2Proof/Machine/StStrm.lean ====
section
/-! DEFINITION. The state of the stream engine and of object metadata (R276 to R289). Sample positions are 16 × frame
position + sample. -/

namespace Sys2Proof.Machine

open Sys2Proof

/-- The states of a receive stream, in code order (R281). -/
inductive RxState
  | off | waiting | running | down
deriving DecidableEq, Repr

/-- A receive stream of the active take. Its counters are registers. -/
structure RxSt where
  ent : RxEnt
  st : RxState
  upA : Bool
  upB : Bool
  /-- STREAM_LEG reported the leg down (R281) -/
  outA : Bool
  outB : Bool
  /-- the newest sequence number of each leg (R280) -/
  seqA : Option Nat
  seqB : Option Nat
  /-- packets seen, as far as their numbers tell them apart: sequence number, leg, ingress stamp in quarter ns (R280) -/
  seen : List (Nat × Nat × Nat)
  /-- sequence numbers of the last 64 metadata packets (R285) -/
  dups : List Nat
  /-- the sample periods of the window, by sample position: one word per channel, or with EXT a mark that the DRAM ring holds them
  (R277) -/
  store : Sparse (List Int)
  /-- samples present in a row before the next frame, at most 16 (R279) -/
  run : Nat
  /-- a run of frames with missing samples is open (R279) -/
  loss : Bool
  /-- the extended store read of the frame to be captured missed its deadline (R278) -/
  extMiss : Bool
deriving DecidableEq, Repr

/-- The transmit entries of a take and the sample position from which their packets start (R285). -/
structure TxSet where
  first : Int
  ents : List TxEnt
  map : List Nat
deriving DecidableEq, Repr

/-- One pending metadata entry (R287 to R289): its object, MASK, the fields, the packet's FRAME, whether it is late, and the
number of its packet in ingress order. -/
structure MetaEnt where
  obj : Nat
  mask : Nat
  mode : Nat
  prio : Nat
  x : Nat
  y : Nat
  z : Nat
  size : Nat
  gain : Nat
  cset : Nat
  oflags : Nat
  frame : Nat
  late : Bool
  packet : Nat
deriving DecidableEq, Repr

/-- The stream engine. -/
structure StrmSt where
  /-- receive streams of the active take -/
  rx : List RxSt
  /-- transmit sets, newest first (R285) -/
  tx : List TxSet
  /-- emitted frames kept for packets that span frames: label and the sixteen samples of each output channel, newest first -/
  outs : List (Nat × Sparse (List Int))
  /-- network metadata packets not yet complete, each with its number in ingress order (R288) -/
  omp : List (Nat × Bytes)
  /-- the metadata store, oldest first, at most 8,192 (R289) -/
  meta_ : List MetaEnt
  /-- metadata packets so far: the next number in ingress order (R53) -/
  packets : Nat
  /-- label of the last tick start (R288) -/
  lastTick : Option Nat
  /-- a metadata drop since the last boundary, and a run of drops is open (R289) -/
  dropped : Bool
  dropRun : Bool
  /-- FRAME of the last entry applied to each object, plus one; 0 none yet (R289) -/
  applied : Sparse Nat
deriving DecidableEq, Repr

def RxSt.new (e : RxEnt) : RxSt :=
  { ent := e, st := .waiting, upA := false, upB := false, outA := false, outB := false, seqA := none, seqB := none, seen := [],
    dups := [], store := [], run := 16, loss := false, extMiss := false }

def StrmSt.reset : StrmSt :=
  { rx := [], tx := [], outs := [], omp := [], meta_ := [], packets := 0, lastTick := none, dropped := false, dropRun := false,
    applied := [] }

end Sys2Proof.Machine
end

