-- ==== Sys2Proof/Machine/State.lean ====
section
/-! DEFINITION. The state of the block: everything the spec gives it, as plain data, and the state after reset. -/

namespace Sys2Proof.Machine

open Sys2Proof

/-- What the register map reads at an offset nothing has written: the reset value of the register tables. -/
def regDefault (a : Nat) : Word := BitVec.ofNat 32 (mapReset a)

/-- The register file. -/
abbrev RegFile := Sparse Word

/-- The whole block. -/
structure State where
  /-- commands waiting, first in, first out -/
  pending : List Instr
  /-- fuses and straps -/
  hw : HwSt
  /-- every register, by BAR0 offset -/
  regs : RegFile
  /-- the registers as they stood at the most recent boundary (R32) -/
  view : RegFile
  /-- words a coherent read has latched, by offset (R36) -/
  latch : Sparse Word
  tl : TlSt
  log : LogSt
  ccp : CcpSt
  pwr : PwrSt
  portA : PortSt
  portB : PortSt
  time : TimeSt
  clk : ClkSt
  geo : GeoSt
  path : PathSt
  kpu : KpuSt
  disp : DispSt
  fab : FabSt
  fw : FwSt
  conv : ConvSt
  xpt : XptSt
  strm : StrmSt
  take : TakeSt
  pipe : PipeSt
  pair : PairSt
  lio : LioSt
  dram : MemSt
  /-- the memories behind the fabric, by fabric address (R430) -/
  mem : Memory
  /-- what the last direct read or quad-SPI read returned: the model's own field, an output -/
  rdata : Bytes
  /-- uses of free values so far: the model's own field -/
  freeCtr : Nat
deriving DecidableEq, Repr

/-- Why a run stops. No command of this block stops it: the spec gives every row an effect. -/
inductive Fault
deriving DecidableEq, Repr

/-- Why a command is turned away by the model. -/
inductive Refusal
  /-- the command has no meaning yet (raised by Dispatch only; safe) -/
  | notModelled (mnemonic : String)
deriving DecidableEq, Repr

def HwSt.reset : HwSt :=
  { tk2512 := false, igrade := false, secure := false, devid := 1, pairId := 0, bootmode := 0,
    rootDigest := [], rootRevoked := 0 }

def TlSt.reset : TlSt :=
  { frame := 0, index := 0, commitSeq := 0, rate := 1, depth := 3, z := 0, adj := 0, adjPrev := 0, adjAt := 0, relock := false, relockFrames := 0,
    relockDone := false, fadeIn := [] }

def LogSt.reset : LogSt :=
  { head := 0, first := 0, lost := 0, recs := [], spill := [], failed := false, full := false, started := false,
    hoursCnt := 0, queue := [], gap := false, held := [], runs := [], clearWait := [], lostRuns := [] }

def CcpSt.reset : CcpSt :=
  { sessions := [], frameQ := [], pend := [], arrivals := 0, fresh := [], fwQ := [], snaps := [], bar2 := [], ringHeld := [], spiIn := [], spiOut := [], spiHeld := [],
    spiOvf := false, msixAddr := [], msixData := [], msixMask := 0xFFFFFFFF, msixPend := 0, msixSent := [], msixLast := (0, 0), perst := false, authRun := false }

def PwrSt.reset : PwrSt :=
  { seq := .raising 0, en := 1, boot := .sequencing, wdt1 := false, wdtLoads := 0, trip := false, uvRails := 0,
    ckeys := Vector.replicate 4 zeroKey, pmbRead := false, bootImage := [], netref := true }
where zeroKey : Bytes := List.replicate 32 0

/-- Which images the flash holds is the board's: its memory lists nothing here, so none is valid (assumption 6). -/
def FwSt.reset : FwSt :=
  { pref := 0, running := 0, previous := 0, restarting := false, ready := false, sched := none, schedArr := 0, switching := none, load := none }

def PortSt.reset : PortSt :=
  { link := false, linkPend := none, cpq := [], held := [], pauseQ := [], q0 := [], q1 := [], q2 := [], q3 := [], q3wait := [], wire := none,
    pause := 0, pfc := Vector.replicate 8 0, xoff := false, loopRun := false, done := [], tsq := [] }

def Servo.reset : Servo :=
  { st := .disabled, pt := 0, i := 0, y := 0, oPrev := none, okRun := 0, outRun := 0, held := none, sec := none, steer := false,
    fdiff := 0 }

def TimeSt.reset : TimeSt :=
  { now := 0, valid := false, setPend := none, stepPend := none, sa := Servo.reset, sb := Servo.reset,
    launchFull := false }

def RefSt.reset : RefSt :=
  { st := .off, cause := 0, owed := false, ever := false, timer := 0, badRun := 0, glitches := 0, faultWin := false,
    freq := 0, dev := 0, devs := [] }

def ClkSt.reset : ClkSt :=
  { st := .freeRun, sel := 7, target := 7, delta := 0, jump := false, request := 0, refs := Vector.replicate 6 RefSt.reset, dco := 0, hist := [],
    lockedWin := false, holdFreq := 0, holdTime := 0, dxo := 0, xoRun := 0, xoSuspect := false, vote := 0, fast := none,
    splStep := 0, splM := 0, splFrame := 0, fadeInPos := [], fadeOutPos := [] }

/-- What the fuses of this part and the reset cause put into the registers: DEVID and a power-on reset (R264, R512). -/
def resetRegs : RegFile := [(Reg.SYS_DEVID_LO, 1), (Reg.SYS_RSTCAUSE, 1)]

/-- The machine right after reset. -/
def State.reset : State :=
  { pending := [], hw := HwSt.reset, regs := resetRegs, view := resetRegs, latch := [], tl := TlSt.reset, log := LogSt.reset,
    ccp := CcpSt.reset, pwr := PwrSt.reset, portA := PortSt.reset, portB := PortSt.reset, time := TimeSt.reset,
    clk := ClkSt.reset, geo := GeoSt.reset, path := PathSt.reset, kpu := KpuSt.reset, disp := DispSt.reset,
    fab := FabSt.reset, fw := FwSt.reset, conv := ConvSt.reset, xpt := XptSt.reset,
    strm := StrmSt.reset, take := TakeSt.reset, pipe := PipeSt.reset, pair := PairSt.reset, lio := LioSt.reset, dram := MemSt.reset, mem := [], rdata := [], freeCtr := 0 }

end Sys2Proof.Machine
end

