-- ==== Sys2Proof/Machine/Ops.lean ====
section
/-! DEFINITION. The named operations every command uses: register words and fields (R8), saturating counters, free values,
commit stamps (R14), interrupt causes (R265) and events for the script log (R478). -/

namespace Sys2Proof.Machine

open Sys2Proof

/-- The word of the register file at a BAR0 offset, as it stands now. -/
def getR (s : State) (a : Nat) : Nat := (Sparse.get regDefault s.regs a).toNat

/-- Stores a word at a BAR0 offset. -/
def setR (s : State) (a v : Nat) : State := { s with regs := Sparse.put regDefault s.regs a (BitVec.ofNat 32 v) }

/-- The word committed at the most recent boundary (R32). -/
def getView (s : State) (a : Nat) : Nat := (Sparse.get regDefault s.view a).toNat

/-- A register field as it stands now. -/
def getF (s : State) (f : Fld) : Nat := bits (getR s f.addr) f.hi f.lo

/-- Stores a register field. -/
def setF (s : State) (f : Fld) (v : Nat) : State := setR s f.addr (setBits (getR s f.addr) f.hi f.lo v)

/-- Stores a Bool into a one-bit field. -/
def setFB (s : State) (f : Fld) (b : Bool) : State := setF s f (b2n b)

/-- Adds to a 32-bit counter that saturates (R36). -/
def addCtr (s : State) (a n : Nat) : State := setR s a (satAdd 32 (getR s a) n)

/-- Adds to a counter field that saturates at its width. -/
def addF (s : State) (f : Fld) (n : Nat) : State := setF s f (satAdd (f.hi + 1 - f.lo) (getF s f) n)

/-- Raises a field that holds a maximum. -/
def maxF (s : State) (f : Fld) (v : Nat) : State := if getF s f < v then setF s f v else s

/-- Stores both words of a 64-bit pair of registers. -/
def setR64 (s : State) (lo hi : Nat) (v : Nat) : State := setR (setR s lo (v % 2 ^ 32)) hi (v / 2 ^ 32 % 2 ^ 32)

/-- The 64-bit value of a pair of registers. -/
def getR64 (s : State) (lo hi : Nat) : Nat := getR s lo + 2 ^ 32 * getR s hi

/-- A free value of `w` bits and the state that has used it (assumption 4). -/
def freeBits (w : Nat) (s : State) : Nat × State :=
  ((Config.freeWord s.freeCtr).toNat % 2 ^ w, { s with freeCtr := s.freeCtr + 1 })

/-- One more committed change (R14). -/
def stamp (s : State) : State := { s with tl := { s.tl with commitSeq := (s.tl.commitSeq + 1) % 2 ^ 32 } }

/-- Whether the block n of R263 has interrupt registers, and where its INTSTAT lies; INTEN follows it. -/
def intStatAt : Nat → Option Nat
  | 1 => some Reg.CLK_INTSTAT
  | 2 => some Reg.TIME_INTSTAT
  | 3 => some Reg.NET_INTSTAT
  | 4 => some (Reg.NET_INTSTAT + 0x10000)
  | 5 => some Reg.STRM_INTSTAT
  | 6 => some Reg.GEOM_INTSTAT
  | 7 => some Reg.PATH_INTSTAT
  | 8 => some Reg.CONV_INTSTAT
  | 9 => some Reg.KPU_INTSTAT
  | 10 => some Reg.DISP_INTSTAT
  | 11 => some Reg.XPT_INTSTAT
  | 12 => some Reg.TAKE_INTSTAT
  | 13 => some Reg.TDM_INTSTAT
  | 14 => some Reg.DEC_INTSTAT
  | 15 => some Reg.PDM_INTSTAT
  | 16 => some Reg.MEM_INTSTAT
  | 17 => some Reg.FAB_INTSTAT
  | 18 => some Reg.PAIR_INTSTAT
  | 19 => some Reg.LOG_INTSTAT
  | 20 => some Reg.PWR_INTSTAT
  | 21 => some Reg.HOST_INTSTAT
  | _ => none

/-- The cause of block n: a bit set in both its INTSTAT and its INTEN (R263). -/
def causeOf (s : State) (n : Nat) : Bool :=
  match intStatAt n with
  | some a => (getR s a &&& getR s (a + 4)) != 0
  | none => false

/-- HOST_CAUSE (R267). -/
def causes (s : State) : Nat := ((List.range 22).map fun n => b2n (causeOf s n) * 2 ^ n).sum

/-- The causes HOST_CAUSEEN lets through (R265). -/
def enabledCause (s : State) (n : Nat) : Bool := causeOf s n && bit (getR s Reg.HOST_CAUSEEN) n

/-- HOST_IRQ_N is low: some enabled cause is 1 (R265). -/
def irqAsserted (s : State) : Bool := (List.range 22).any (enabledCause s)

/-- Sends MSI-X vector n, or sets its pending bit while it is masked (R265). -/
def sendVector (s : State) (n : Nat) : State :=
  if s.ccp.perst then s
  else if bit s.ccp.msixMask n then { s with ccp := { s.ccp with msixPend := s.ccp.msixPend ||| 2 ^ n } }
  else { s with ccp := { s.ccp with msixSent := Sparse.putN s.ccp.msixSent n (Sparse.getN s.ccp.msixSent n + 1),
                                    msixLast := (Sparse.getN s.ccp.msixAddr n, Sparse.getN s.ccp.msixData n) } }

/-- Sends the vector of every enabled cause that rose between two states (R265). -/
def sendRisen (before after : State) : State :=
  (List.range 22).foldl (fun s n => if enabledCause after n && !enabledCause before n then sendVector s n else s) after

/-- The hardware sets event bits of a word; they outlast a W1C write that commits at the same boundary (R9). -/
def setEvent (s : State) (a m : Nat) : State :=
  { setR s a (getR s a ||| m) with ccp := { s.ccp with fresh := Sparse.putN s.ccp.fresh a (Sparse.getN s.ccp.fresh a ||| m) } }

/-- Sets bit `b` of the INTSTAT of block `n`; an enabled cause that rises is delivered (R265). -/
def raise (s : State) (n b : Nat) : State :=
  match intStatAt n with
  | some a => sendRisen s (setEvent s a (2 ^ b))
  | none => s

/-- Payload fields of R486, each little-endian in its size. -/
def pay (fs : List (Nat × Int)) : Bytes := fs.flatMap fun p => leBytes p.1 (unsigned (8 * p.1) p.2)

/-- A frame number as the 6-byte payload field of R475. -/
def frameF (f : Nat) : Nat × Int := (6, (f : Int))

/-- Events that wait in the event queue; a CLEAR is a change, and LOG_SRAM_FAIL goes to the spill file (R478, R483, R485). -/
def eventsWaiting (l : LogSt) : Nat := (l.queue.filter fun e => e.code != 0x1302 && e.code != 0x1303).length

/-- An event joins the event queue; one that finds it full is lost (R478), and a run it would have opened has no record (R479). -/
def pushEvent (s : State) (e : LogEvent) : State :=
  if eventsWaiting s.log < 256 then { s with log := { s.log with queue := s.log.queue ++ [e] } }
  else
    let gone := match e.run with | some k => if e.first then [(e.code, k)] else [] | none => []
    { s with log := { s.log with lost := satAdd 32 s.log.lost 1, gap := true, lostRuns := gone ++ s.log.lostRuns } }

/-- An event of its own. -/
def logEv (s : State) (code : Nat) (payload : List (Nat × Int)) : State :=
  pushEvent s { code := code, payload := pay payload, run := none, first := false, cseq := none, hours := s.log.hoursCnt }

/-- An event of a run: the first opens the run's record, the later ones add to its repeat count (R479). -/
def logRun (s : State) (code : Nat) (payload : List (Nat × Int)) (run : Nat) (first : Bool) : State :=
  pushEvent s { code := code, payload := pay payload, run := some run, first := first, cseq := none, hours := s.log.hoursCnt }

/-- The record of the change just committed, which carries that change's number (R478). -/
def logCommit (s : State) (code : Nat) (payload : List (Nat × Int)) : State :=
  pushEvent s { code := code, payload := pay payload, run := none, first := false, cseq := some s.tl.commitSeq,
                hours := s.log.hoursCnt }

/-- The rails of the device logic are up: the interfaces answer and frames run, to the end of the last output frame before the Dark
state (R490, R507). -/
def powered (s : State) : Bool := s.pwr.seq == .up || s.pwr.seq == .darkening

/-- The PCIe endpoint answers: from the lock of the root PLL, with which the ROM starts, while PCIE_PERST_N is high (R528, R539). -/
def pcieUp (s : State) : Bool := powered s && s.pwr.boot != .sequencing && !s.ccp.perst

/-- What only a powered device does: in the Dark state, and before the rails are up, dispatch and transmission stand still (R314). -/
def whilePowered (s : State) (f : State → State) : State := if powered s then f s else s

/-- The present frame number. -/
def frameNow (s : State) : Nat := s.tl.frame

/-- fs of a rate code (R16, R36), Hz. -/
def fsOf (rate : Nat) : Nat := if rate = 0 then 44100 else if rate = 1 then 48000 else if rate = 2 then 88200 else 96000

/-- The rate belongs to the 44.1 kHz family (R16). -/
def family44 (rate : Nat) : Bool := rate == 0 || rate == 2

/-- The rate is double (R16). -/
def doubleRate (rate : Nat) : Bool := rate == 2 || rate == 3

/-- FCLK cycles in a frame (R16). -/
def frameCycles (rate : Nat) : Nat := if doubleRate rate then 128000 else 256000

/-- ROOTCLK in Hz (R16). -/
def rootHz (rate : Nat) : Nat := if family44 rate then 2822400000 else 3072000000

/-- The frame of a PTP time (R15): ceil((S × 10^9 + n) × fs / (16 × 10^9)). -/
def frameOfPtp (rate sec ns : Nat) : Nat := ceilDiv ((sec * 1000000000 + ns) * fsOf rate) 16000000000

/-- The local time in quarter nanoseconds (R322, R327). -/
def quarterNs (units : Nat) : Nat := units / 14112

/-- Seconds and nanoseconds of the local time at the most recent boundary. -/
def localSec (s : State) : Nat := quarterNs s.time.now / 4000000000
def localNs (s : State) : Nat := quarterNs s.time.now / 4 % 1000000000

/-- The cluster SRAM in the fabric address map (R430). -/
def csram : Nat := 0x60000000

/-- Bytes stored from address a on, in one pass over the memory. -/
def memBlock (m : Memory) (a : Nat) (b : Bytes) : Memory :=
  Sparse.replaceRange Memory.blank m a (a + b.length) (b.zipIdx.map fun x => (a + x.2, x.1))

/-- What a write leaves of the damage of codewords: those it reaches are whole again (R444). -/
def whole (s : State) (hit : Nat → Bool) : State :=
  if s.fab.inj.isEmpty ∧ s.fab.ueRuns.isEmpty then s
  else { s with fab := { s.fab with inj := s.fab.inj.filter (fun c => !hit c.1), ueRuns := s.fab.ueRuns.filter fun c => !hit c } }

/-- The hardware writes bytes from address a on. -/
def blockWrite (s : State) (a : Nat) (b : Bytes) : State :=
  whole { s with mem := memBlock s.mem a b } fun c => decide (c < a + b.length) && decide (a < c + 16)

/-- A change that has arrived at place n waits for the next boundary: order 4 of R30 (R249). -/
def pendAs (s : State) (n : Nat) (c : Change) : State := { s with ccp := { s.ccp with pend := s.ccp.pend ++ [(n, c)] } }

/-- A change that arrives now waits for the next boundary (R13, R249). -/
def pendNow (s : State) (c : Change) : State :=
  { s with ccp := { s.ccp with pend := s.ccp.pend ++ [(s.ccp.arrivals, c)], arrivals := s.ccp.arrivals + 1 } }

/-- Queues a register write for the next boundary (R13, R252): order 4 of R30. -/
def queueWrite (s : State) (a v : Nat) : State := pendNow s (.write a [v] false)

/-- A change that names frame f and arrived at place n joins the frame queue: order 3 of R30 (R248). -/
def frameAs (s : State) (f n : Nat) (c : Change) : State := { s with ccp := { s.ccp with frameQ := s.ccp.frameQ ++ [(f, n, c)] } }

end Sys2Proof.Machine
end

