-- ==== Sys2Proof/Machine/Log.lean ====
section
/-! DEFINITION. The records of the script log and its failed state (R475, R476, R485, R488). -/

namespace Sys2Proof.Machine

open Sys2Proof

/-- The sixteen words of a record (R475). -/
def recWords (r : LogRec) : List Nat :=
  let p := r.payload ++ zeroBytes (24 - r.payload.length)
  [r.seq, r.rep * 2 ^ 16 + r.code, r.frame % 2 ^ 32, r.frame / 2 ^ 32 % 2 ^ 28, r.cseq, r.ns, r.sec % 2 ^ 32,
   0xA5 * 2 ^ 24 + r.code / 256 * 2 ^ 16 + r.sec / 2 ^ 32 % 2 ^ 16, r.hours % 2 ^ 32,
   r.pcyc * 2 ^ 8 + b2n r.spill * 8 + b2n r.prestart * 4 + b2n r.gap * 2 + b2n r.timeValid] ++
  (List.range 6).map fun i => leAt p (4 * i) 4

/-- A record as its 64 bytes in memory order (R476); one that reads uncorrectable is zero words (R485). -/
def recBytes (r : LogRec) : Bytes := if r.bad then zeroBytes 64 else (recWords r).flatMap (leBytes 4)

/-- An uncorrectable error in the log SRAM at a byte offset: the spill file takes over (R485). -/
def logSramFail (s : State) (offset : Nat) : State :=
  if s.log.failed then s else
  let l := s.log
  let e : LogEvent := { code := 0x1303, payload := pay [(4, (offset : Int)), frameF s.tl.frame], run := none, first := false,
                        cseq := none, hours := l.hoursCnt }
  let mark := fun (r : LogRec) => if (r.seq + 2 ^ 32 - l.first) % 2 ^ 32 = offset / 64 then { r with bad := true } else r
  raise { s with log := { l with failed := true, queue := e :: l.queue, recs := l.recs.map mark } } 19 2

/-- The record with this SEQ, from the spill file or the log SRAM (R482, R485). -/
def findRec (l : LogSt) (seq : Nat) : Option LogRec :=
  match l.spill.find? (·.seq == seq) with
  | some r => some r
  | none => l.recs.find? (·.seq == seq)

/-- The LOG registers as they stand after this boundary (R488). -/
def publishLog (s : State) : State :=
  let l := s.log
  let s := setR s Reg.LOG_STATUS (b2n l.failed * 2 ^ 31 + b2n l.full * 2 ^ 30 + b2n l.started * 2 ^ 29 +
    l.spill.length * 2 ^ 16 + l.recs.length)
  let s := setR s Reg.LOG_HEAD l.head
  let s := setR s Reg.LOG_FIRST l.first
  let s := setR s Reg.LOG_LOST l.lost
  (l.spill.zipIdx).foldl (fun s r => ((recWords r.1).zipIdx).foldl
    (fun s w => setR s (Reg.LOG_SPILL + 0x40 * r.2 + 4 * w.2) w.1) s) s

end Sys2Proof.Machine
end

