-- ==== Sys2Proof/Machine/Clk.lean ====
section
/-! DEFINITION. The clock system: references, vote, qualification, selection, the DPLL states, holdover and the splice
(R350 to R368), with the steering of the PTP servos that a selection decides (R333, R334). -/

namespace Sys2Proof.Machine

open Sys2Proof

/-- The servo of port p (0 A, 1 B). -/
def servoOf (s : State) (p : Nat) : Servo := if p = 0 then s.time.sa else s.time.sb

/-- Stores the servo of port p. -/
def setServo (s : State) (p : Nat) (v : Servo) : State :=
  if p = 0 then { s with time := { s.time with sa := v } } else { s with time := { s.time with sb := v } }

/-- The code of a servo state (R333). -/
def servoCode : ServoState → Nat
  | .disabled => 0
  | .wait => 1
  | .measure => 2
  | .acquire => 3
  | .locked => 4
  | .lost => 5

/-- A servo changes state: TIME_SERVO is logged and SERVOA or SERVOB raised (R333). -/
def servoState (s : State) (p : Nat) (st : ServoState) : State :=
  let v := servoOf s p
  if v.st = st then s else
  let s := setServo s p { v with st := st, okRun := 0, outRun := 0, sec := none }
  raise (logEv s 0x0203 [(1, (p : Int)), (1, (servoCode st : Int)), frameF s.tl.frame]) 2 p

/-- Limits a servo term to ±FLIM × 2^8 (R331). -/
def servoClamp (s : State) (p : Nat) (x : Int) : Int :=
  let l : Int := (getR s (Reg.TIME_FLIM + 128 * p) * 256 : Nat)
  clampI (-l) l x

/-- The DPLL steers: towards a reference, or, while a set or step of the time is pending, on the servo (R364). -/
def dpllSteers (s : State) : Bool :=
  s.clk.st == .acquiring || s.clk.st == .locked || (s.clk.st == .splicePending && s.clk.jump)

/-- PTPA or PTPB is the selected reference. -/
def ptpSelected (s : State) : Bool := s.clk.sel == 4 || s.clk.sel == 5

/-- The steering servo's request to the root clock, nominal × (1 − y × 2^−8 × 10^−9), limited to ±500 ppm (R331, R351). The DPLL takes it
as the frequency of its reference and follows it at once (R359; the time the loop takes: DESIGN CHOICE, assumption 102). -/
def noteRequest (s : State) : State :=
  let y : Int := if s.time.sa.steer then s.time.sa.y else if s.time.sb.steer then s.time.sb.y else 0
  let r := clampI (-128000000) 128000000 (-y)
  { s with clk := { s.clk with request := r, dco := if dpllSteers s && ptpSelected s then r else s.clk.dco } }

/-- Brings the steering of both servos into line with the selected reference (R333, R334): a servo that becomes steering
presets its integral from the output of the one that steered until then; one that stops returns to MEASURE. -/
def updateSteer (s : State) : State :=
  let ycur : Int := if s.time.sa.steer then s.time.sa.y else if s.time.sb.steer then s.time.sb.y else 0
  let one := fun (s : State) (p : Nat) =>
    let v := servoOf s p
    let want := s.clk.sel == 4 + p
    if want = v.steer then s
    else if want then
      let i := servoClamp s p (ycur + v.fdiff)
      let s := setServo s p { v with steer := true, pt := 0, i := i, y := i }
      if v.st = .measure then servoState s p .acquire else s
    else
      let s := setServo s p { v with steer := false }
      if v.st = .acquire ∨ v.st = .locked then servoState s p .measure else s
  noteRequest (one (one s 0) 1)

/-- The code of a state of the clock system (R364). -/
def clkCode : ClkState → Nat
  | .freeRun => 0
  | .acquiring => 1
  | .locked => 2
  | .holdover => 3
  | .holdoverUnaveraged => 4
  | .switching => 5
  | .splicePending => 6
  | .fault => 7

/-- REF_STATE changes: STATE is raised; a window is LOCKED for the whole only while this never happens (R361, R370). -/
def clkState (s : State) (st : ClkState) : State :=
  if s.clk.st = st then s else raise { s with clk := { s.clk with st := st, lockedWin := false } } 1 0

/-- Reference r of the six. -/
def refOf (s : State) (r : Nat) : RefSt := s.clk.refs[r]?.getD RefSt.reset

/-- Stores reference r. -/
def setRef (s : State) (r : Nat) (v : RefSt) : State := { s with clk := { s.clk with refs := s.clk.refs.setIfInBounds r v } }

/-- The priority table (R357): entry e is a reference 0 to 5, or 7 none. -/
def prioTable (s : State) : List Nat :=
  let w := getR s Reg.CLK_PRIO
  (List.range 6).map fun e => bits w (3 * e + 2) (3 * e)

/-- The place of a reference in the priority table, 6 where it has none. -/
def prioPlace (s : State) (r : Nat) : Nat := (prioTable s).findIdx (· == r)

/-- The first QUALIFIED reference in the table (R357). -/
def pickRef (s : State) : Option Nat := (prioTable s).find? fun r => r < 6 && (refOf s r).st == .qualified

/-- A selection starts a switch (R357, R362). -/
def startSwitch (s : State) (r : Nat) : State :=
  let s := addCtr s Reg.CLK_SWITCHES 1
  let s := logEv s 0x0104 [(1, (s.clk.sel : Int)), (1, (r : Int))]
  clkState { s with clk := { s.clk with target := r } } .switching

/-- Entry to holdover: averaged with 60 entries of history, else at the nominal XO frequency (R361, R364). -/
def enterHoldover (s : State) : State :=
  let h := s.clk.hist
  let full := h.length == 60
  let f : Int := if full then divRhu h.sum 60 else 0
  let st : ClkState := if full then .holdover else .holdoverUnaveraged
  if s.clk.st = st then s else
  let s := clkState { s with clk := { s.clk with sel := 7, target := 7, dco := f, holdFreq := f, holdTime := 0, fast := none } } st
  let s := raise (addCtr s Reg.CLK_HOLDOVERS 1) 1 3
  updateSteer (logEv s 0x0105 [(1, (clkCode st : Int)), (1, (h.length : Int))])

/-- A switch is abandoned without a splice, and R357 is applied at once (R358). -/
def abandonSwitch (s : State) : State :=
  match (if getF s F.CLK_CTRL_FORCEHOLD = 1 then none else pickRef s) with
  | some q => startSwitch s q
  | none => enterHoldover s

/-- Applies the selection rules of R357 in the present state; during a relock the selection waits (R17). A target that has left the
table counts as failed. -/
def applySelection (s : State) : State :=
  if s.tl.relock then s else
  let hold := getF s F.CLK_CTRL_FORCEHOLD == 1
  match s.clk.st with
  | .freeRun =>
    if hold then enterHoldover s else
    match pickRef s with
    | some r => startSwitch s r
    | none => s
  | .holdover | .holdoverUnaveraged =>
    if hold then s else
    match pickRef s with
    | some r => startSwitch s r
    | none => s
  | .acquiring | .locked =>
    if hold then enterHoldover s else
    let sel := s.clk.sel
    let working := (refOf s sel).st == .qualified && decide (prioPlace s sel < 6)
    match pickRef s with
    | some r =>
      if working then
        if getF s F.CLK_POLICY_REVERT = 1 ∧ prioPlace s r < prioPlace s sel then startSwitch s r else s
      else startSwitch s r
    | none => if working then s else enterHoldover s
  | .switching => if prioPlace s s.clk.target < 6 then s else abandonSwitch s
  | _ => s

/-- What a failure of reference r does to the selection (R357, R358): a failed target in SWITCHING abandons the switch and
R357 is applied at once; one in SPLICE_PENDING is handled after the splice. -/
def afterFail (s : State) (r : Nat) : State :=
  match s.clk.st with
  | .switching =>
    if s.clk.target = r then abandonSwitch s else s
  | .acquiring | .locked => if s.clk.sel = r then applySelection s else s
  | _ => s

/-- A fault of R355 disqualifies reference r: FAILED, counted, logged, REFFAIL raised (R355, R356). -/
def refFail (s : State) (r cause : Nat) : State :=
  let v := refOf s r
  if v.st = .off ∨ v.st = .failed then setRef s r { v with faultWin := true } else
  let s := setRef s r { v with st := .failed, cause := cause, owed := v.owed || v.ever, timer := 0, badRun := 0,
                               faultWin := true }
  let s := addCtr s Reg.CLK_REFFAILS 1
  let s := logEv s 0x0102 [(1, (r : Int)), (1, (cause : Int)), frameF s.tl.frame]
  afterFail (raise s 1 2) r

/-- A configuration of reference r: FAILED with cause 0 and no WTR owed, or OFF (R356, R368). -/
def refSet (s : State) (r : Nat) (on : Bool) : State := setRef s r { RefSt.reset with st := if on then .failed else .off }

/-- A configuration of reference r is installed (R356, R368). -/
def refInstall (s : State) (r : Nat) (on : Bool) : State := afterFail (refSet s r on) r

/-- Reference r becomes QUALIFIED (R356, R371). -/
def refQualified (s : State) (r : Nat) : State :=
  let v := refOf s r
  logEv (setRef s r { v with st := .qualified, owed := false, ever := true, timer := 0 }) 0x0103 [(1, (r : Int))]

/-- Whether a servo gives its virtual reference marks: neither DISABLED, WAIT nor LOST (R355). -/
def servoPresent (v : Servo) : Bool := v.st == .measure || v.st == .acquire || v.st == .locked

/-- The frequency offset of a PTP reference in ppb (R354): y while steering, y_cur + FDIFF in MEASURE. -/
def servoFreq (s : State) (p : Nat) : Int :=
  let v := servoOf s p
  let ycur : Int := if s.time.sa.steer then s.time.sa.y else if s.time.sb.steer then s.time.sb.y else 0
  rhu 8 (if v.steer then v.y else ycur + v.fdiff)

/-- The median of three integers. -/
def median3 (a b c : Int) : Int := max (min a b) (min (max a b) c)

/-- One reference at the end of a window: its values, its soft faults and its qualification (R354 to R356). -/
def refWindow (s : State) (v : Int) (three : Bool) (r : Nat) (m : Bool × Int) : State :=
  let x := refOf s r
  if !m.1 ∨ x.st = .off then setRef s r { x with faultWin := false, glitches := 0 } else
  let tol : Int := (getF s F.CLK_TOL_PPB : Nat)
  let d := m.2 - v
  let devs := (d :: x.devs).take 16
  let isOut := decide (d.natAbs > tol.natAbs)
  let bad := if isOut then x.badRun + 1 else 0
  let s := setRef s r { x with freq := m.2, dev := d, devs := devs, badRun := bad }
  let s := if bad ≥ 4 then refFail s r 4
    else if three && decide (devs.sum.natAbs > 2000) then refFail s r 5 else s
  let x := refOf s r
  let inTol := !x.faultWin && !isOut
  let x := { x with glitches := 0, faultWin := false }
  let qual := getF s F.CLK_QUAL_QUAL
  let wtr := getF s F.CLK_QUAL_WTR
  match x.st with
  | .failed => setRef s r (if inTol then { x with st := .qualifying, timer := qual } else x)
  | .qualifying =>
    if !inTol then setRef s r { x with timer := qual }
    else if x.timer > 1 then setRef s r { x with timer := x.timer - 1 }
    else
      let busy := s.clk.st == .switching || s.clk.st == .splicePending
      let better := busy && decide (prioPlace s r < prioPlace s s.clk.target)
      if (x.owed || better) && wtr != 0 then setRef s r { x with st := .wtr, owed := true, timer := wtr }
      else refQualified (setRef s r x) r
  | .wtr =>
    if !inTol then setRef s r { x with timer := wtr }
    else if x.timer > 1 then setRef s r { x with timer := x.timer - 1 }
    else refQualified (setRef s r x) r
  | _ => setRef s r x

/-- The end of a 1 s window (R354): present references with their f_j, the vote, deviations, soft faults, history.
`meas` gives presence and f_j of REFIN0 to REFIN3, `dco` the DCO value of the window towards one of them; towards PTPA and PTPB it is
the servo's request (R351). The history grows by a window that was LOCKED throughout and in which the selected reference was in
tolerance, without any fault of R355 (R356, R361). -/
def measurementWindow (s : State) (meas : List (Bool × Int)) (dco : Int) : State :=
  if s.clk.st = .fault then s else
  let m := fun r => if r < 4 then meas.getD r (false, 0) else (servoPresent (servoOf s (r - 4)), servoFreq s (r - 4))
  let s := if dpllSteers s && !ptpSelected s then { s with clk := { s.clk with dco := clampI (-128000000) 128000000 dco } } else s
  let ok := fun r => r < 6 && (m r).1 && !(refOf s r).faultWin && (refOf s r).st != .off
  let two := ((prioTable s).filter ok).take 2
  let v : Int := match two with
    | [a, b] => median3 0 (m a).2 (m b).2
    | _ => 0
  let three := two.length == 2
  let tol := getF s F.CLK_TOL_PPB
  let xoRun := if three && decide (v.natAbs > tol) then s.clk.xoRun + 1 else 0
  let selOk := let x := refOf s s.clk.sel
    x.st == .qualified && !x.faultWin && decide (((m s.clk.sel).2 - v).natAbs ≤ tol)
  let grows := s.clk.lockedWin && s.clk.st == .locked && selOk
  let held := s.clk.st == .holdover || s.clk.st == .holdoverUnaveraged
  let s := { s with clk := { s.clk with vote := two.length, dxo := -v, xoRun := xoRun,
                                        lockedWin := s.clk.st == .locked,
                                        holdTime := if held then s.clk.holdTime + 1 else s.clk.holdTime } }
  let s := if xoRun ≥ 4 && !s.clk.xoSuspect then
      raise (logEv { s with clk := { s.clk with xoSuspect := true } } 0x0106 [(4, -v)]) 1 4
    else s
  let sel := s.clk.sel
  let s := (List.range 6).foldl (fun s r => refWindow s v three r (m r)) s
  applySelection (if grows && (refOf s sel).st == .qualified then { s with clk := { s.clk with hist := (s.clk.dco :: s.clk.hist).take 60 } }
    else s)

/-- Bandwidths of R359 in mHz. -/
def bwTable : List Nat :=
  [1, 2, 5, 10, 20, 50, 100, 200, 500, 1000, 2000, 5000, 10000, 20000, 50000, 100000, 200000, 500000, 1000000]

/-- The target bandwidth in mHz (R359). -/
def bwTarget (s : State) : Nat := bwTable.getD (getF s F.CLK_POLICY_BW) 1000000

/-- Entry to ACQUIRING, at 16 times the target bandwidth with FASTLOCK = 1 (R359). -/
def enterAcquiring (s : State) : State :=
  let t := bwTarget s
  let w := min (16 * t) 1000000
  let fast := if getF s F.CLK_POLICY_FASTLOCK = 1 ∧ w > t then some w else none
  clkState { s with clk := { s.clk with fast := fast } } .acquiring

/-- Units of 1/56,448 ns in a ROOTCLK cycle, a sample period and a frame: all three are whole (R16, R350). -/
def cycleUnits (rate : Nat) : Nat := if family44 rate then 20000 else 18375
def sampleUnits (rate : Nat) : Nat := 56448000000000 / fsOf rate
def frameUnits (rate : Nat) : Nat := 4 * frameCycles rate * cycleUnits rate

/-- The step to a PTP reference at the most recent boundary (R363): ε = (I − t × fs) × 10^9 / fs, exact in units of 1/56,448 ns. -/
def ptpDelta (s : State) : Int := ((s.tl.index * sampleUnits s.tl.rate : Nat) : Int) - (s.time.now : Int)

/-- The mark period Pm of a TYPE at a rate, in units of 1/56,448 ns (R353). -/
def markPeriod (rate ty : Nat) : Nat :=
  if ty = 2 then 2500 * 56448 else if ty = 3 then 1000000000 * 56448 else sampleUnits rate

/-- The signed DELAY of reference r, ns; TYPE 2 has none (R353). -/
def markDelay (s : State) (r : Nat) : Int :=
  if getF s (F.CLK_REFCFG_TYPE.plus (8 * r)) = 2 then 0 else signed 32 (getR s (Reg.CLK_REFDLY + 8 * r))

/-- A value reduced into [−P/2, P/2) (R363). -/
def reduceHalf (x : Int) (p : Nat) : Int := (x + ((p / 2 : Nat) : Int)) % ((p : Nat) : Int) - ((p / 2 : Nat) : Int)

/-- The step of a mark of REFINr whose edge arrives `lead` ns after the timeline passed the mark's instant: the mark lies DELAY
before its edge (R353, R363). The sign follows "the time by which the timeline is ahead" and the worked example (assumption 74). -/
def markDelta (s : State) (r : Nat) (lead : Int) : Int :=
  reduceHalf ((lead - markDelay s r) * 56448) (markPeriod s.tl.rate (getF s (F.CLK_REFCFG_TYPE.plus (8 * r))))

/-- SPLICE_STEP_MEASURE: the first mark of the new reference gives Δ (R362, R363). -/
def measureStep (s : State) (lead : Int) : State :=
  if s.clk.st = .switching then
    let d := if s.clk.target ≥ 4 then ptpDelta s else markDelta s s.clk.target lead
    clkState { s with clk := { s.clk with delta := d } } .splicePending
  else s

/-- Whole frames of a step (R363): m = RHU(Δ × fs / (16 × 10^9)). -/
def spliceFrames (rate : Nat) (delta : Int) : Int := divRhu delta (frameUnits rate)

/-- The remainder ρ of a step (R363). -/
def spliceRest (rate : Nat) (delta : Int) : Int := delta - spliceFrames rate delta * ((frameUnits rate : Nat) : Int)

/-- ROOTCLK cycles of re-phasing (R363): ρ rounded to whole cycles; towards a PTP reference upwards, so that the index is then
floor(t × fs) and TIME_TLOFS 0, as R11, R324 and R363 say (assumption 74). -/
def spliceCycles (rate : Nat) (ptp : Bool) (delta : Int) : Int :=
  let r := spliceRest rate delta
  let u := cycleUnits rate
  if ptp then -((-r) / ((u : Nat) : Int)) else divRhu r u

/-- A set or step of the local time is pending: with PTPA or PTPB selected SPLICE_PENDING is entered directly (R362, R364). -/
def enterJump (s : State) : State :=
  if ptpSelected s && (s.clk.st == .acquiring || s.clk.st == .locked) then
    clkState { s with clk := { s.clk with target := s.clk.sel, jump := true } } .splicePending
  else s

/-- The set or step that SPLICE_PENDING waited for has gone without taking effect: the DPLL goes on acquiring. -/
def endJump (s : State) : State :=
  if s.clk.jump && s.time.setPend.isNone && s.time.stepPend.isNone then
    applySelection (enterAcquiring { s with clk := { s.clk with jump := false } })
  else s

/-- A splice is due at this boundary (R362). -/
def spliceReady (s : State) : Bool := s.clk.st == .splicePending && !s.clk.jump

/-- The splice that is due is one towards PTPA or PTPB. -/
def splicePtp (s : State) : Bool := decide (4 ≤ s.clk.target)

/-- Frames by which the splices and re-alignments due at this boundary move the timeline back (R363, R467). -/
def dueShift (s : State) : Int :=
  (if spliceReady s then spliceFrames s.tl.rate s.clk.delta else 0) + s.pair.realign.getD 0

/-- The number this boundary's frame has once they are done (R363): every record of the boundary carries it. -/
def dueFrame (s : State) : Nat := Int.toNat ((s.tl.frame : Int) - dueShift s) % 2 ^ 60

/-- The splice at its boundary (R363 order 1): the timeline moves back by m frames, positions keep, the splice is recorded,
REF_SEL names the new reference and the DPLL starts acquiring; frames at the join fade (R365). -/
def splice (s : State) : State :=
  let m := spliceFrames s.tl.rate s.clk.delta
  let d := divRhu s.clk.delta 56448
  let s := stamp s
  let frame : Nat := Int.toNat ((s.tl.frame : Int) - m) % 2 ^ 60
  let index : Nat := Int.toNat ((s.tl.index : Int) - 16 * m) % 2 ^ 64
  let z := s.tl.z + m
  let pos := (frame : Int) + z + s.tl.adj
  let s := { s with tl := { s.tl with frame := frame, index := index, z := z },
                    clk := { s.clk with sel := s.clk.target, splStep := d, splM := satS 32 m, splFrame := frame,
                                        fadeInPos := pos :: s.clk.fadeInPos, fadeOutPos := (pos - 1) :: s.clk.fadeOutPos } }
  let s := addCtr s Reg.CLK_SPLICES 1
  let s := logCommit s 0x0101 [(8, d), (4, satS 32 m), frameF frame, (1, (s.clk.target : Int))]
  let s := updateSteer (enterAcquiring (raise s 1 1))
  applySelection s

/-- The lock condition of R360. -/
def dpllLock (s : State) : State := if s.clk.st = .acquiring then clkState s .locked else s

/-- Loss of lock (R360). -/
def dpllLockLoss (s : State) : State := if s.clk.st = .locked then enterAcquiring s else s

/-- FASTLOCK_STEP: the bandwidth halves until it reaches the target (R359). -/
def fastlockStep (s : State) : State :=
  match s.clk.fast with
  | some w =>
    let h := w / 2
    { s with clk := { s.clk with fast := if h ≤ bwTarget s then none else some h } }
  | none => s

/-- FREE_RUN after a relock for a change of family (R17, R361, R364). -/
def clkFreeRun (s : State) : State :=
  updateSteer (clkState { s with clk := { s.clk with sel := 7, target := 7, dco := 0, hist := [], fast := none, jump := false } } .freeRun)

/-- Nominal index offset (R324): the media sample index minus floor(t × fs). -/
def timelineOffset (s : State) : Int :=
  (s.tl.index : Int) - ((s.time.now * fsOf s.tl.rate / 56448000000000 : Nat) : Int)

/-- The CLK registers at a boundary (R370, R371). -/
def publishClk (s : State) : State :=
  let c := s.clk
  let s := setR s Reg.CLK_STATUS (c.hist.length * 2 ^ 24 + b2n c.xoSuspect * 2 ^ 19 + c.vote * 2 ^ 17 +
    b2n c.fast.isSome * 2 ^ 16 + b2n (c.st == .locked) * 2 ^ 10 + c.sel * 16 + clkCode c.st)
  let s := setR s Reg.CLK_DCO (unsigned 32 c.dco)
  let s := setR s Reg.CLK_HOLDFREQ (unsigned 32 c.holdFreq)
  let s := setR s Reg.CLK_HOLDTIME c.holdTime
  let s := setR s Reg.CLK_XOOFS (unsigned 32 c.dxo)
  let s := setR64 s Reg.CLK_SPLSTEP_LO Reg.CLK_SPLSTEP_HI (unsigned 64 c.splStep)
  let s := setR64 s Reg.CLK_SPLFRAME_LO Reg.CLK_SPLFRAME_HI c.splFrame
  let s := setR s Reg.CLK_SPLM (unsigned 32 c.splM)
  let s := setR64 s Reg.CLK_SPLSUM_LO Reg.CLK_SPLSUM_HI (unsigned 64 s.tl.z)
  (List.range 6).foldl (fun s r =>
    let v := refOf s r
    let code := match v.st with
      | .off => 0
      | .failed => 1
      | .qualifying => 2
      | .wtr => 3
      | .qualified => 4
    let s := setR s (Reg.CLK_REFW0 + 16 * r) (code * 2 ^ 29 + v.cause * 2 ^ 26 + b2n v.owed * 2 ^ 25 + v.timer)
    let s := setR s (Reg.CLK_REFW1 + 16 * r) (unsigned 32 v.freq)
    let s := setR s (Reg.CLK_REFW2 + 16 * r) (unsigned 32 v.dev)
    setR s (Reg.CLK_REFW3 + 16 * r) (unsigned 32 v.devs.sum)) s

end Sys2Proof.Machine
end

