-- ==== Sys2Proof/Machine/Fab.lean ====
section
/-! DEFINITION. The fabric: windows, decode and parity errors, bursts and arbitration, draining, ECC, scrubbing (R430 to
R448). -/

namespace Sys2Proof.Machine

open Sys2Proof

/-- MEM_USABLE in bytes (R405). -/
def memUsable (s : State) : Nat := getR64 s Reg.MEM_USABLE_LO Reg.MEM_USABLE_HI

/-- Base and size of the region of target t (R430). -/
def region (s : State) (t : Nat) : Nat × Nat := if t = 0 then (0x1000000000, memUsable s) else regionTable.getD t (0, 0)

/-- Word j of window w of master m (R448). -/
def winWord (s : State) (m w j : Nat) : Nat := getR s (Reg.FAB_WIN0 + 0x400 * m + 0x10 * w + 4 * j)

/-- Whether window w of master m decodes an address (R432). -/
def winHits (s : State) (m w a : Nat) : Bool :=
  let base := winWord s m w 0 + 2 ^ 32 * (winWord s m w 1 % 256)
  bit (winWord s m w 3) 31 && decide (base ≤ a) && decide (a < base + 4096 * winWord s m w 2)

/-- The window of master m that decodes an address: the lowest index wins (R432). -/
def fabDecode (s : State) (m a : Nat) : Option Nat := (List.range 32).find? fun w => winHits s m w a

/-- Whether the address of local memory belongs to a core the part has (R4, R131). -/
def coreThere (s : State) (a : Nat) : Bool := decide ((a - 0x50000000) / 0x100000 < (if s.hw.tk2512 then 16 else 32))

/-- Whether a core's local memories place the bytes [a, a + n) (R131, R430); those of the cores the TK2512 lacks do not (R4;
assumption 79). -/
def klocalPlaces (s : State) (a n : Nat) : Bool :=
  let o := (a - 0x50000000) % 0x100000
  coreThere s a && (decide (o + n ≤ 0x40000) || (decide (0x80000 ≤ o) && decide (o + n ≤ 0x90000)))

/-- Whether target t places the bytes [a, a + n) (R430, R434). The ROM places no write; the PCIe window, which holds outbound MSI-X
writes, no read. -/
def targetPlaces (s : State) (t a n : Nat) (write : Bool) : Bool :=
  let r := region s t
  decide (r.1 ≤ a) && decide (a + n ≤ r.1 + r.2) && (t != 7 || klocalPlaces s a n) && !(write && t == 14) && (write || t != 12)

/-- The target a request reaches: one window decodes its whole range, allows its direction, and the target places it (R432,
R434). -/
def fabTarget (s : State) (m a n : Nat) (write : Bool) : Option Nat :=
  match fabDecode s m a with
  | none => none
  | some w =>
    let attr := winWord s m w 3
    let t := attr / 2 ^ 16 % 16
    if bit attr (if write then 1 else 0) && winHits s m w (a + n - 1) && targetPlaces s t a n write then some t else none

/-- The error capture (R448): the first error, or one that outranks a captured corrected error. Kinds: 0 corrected,
1 uncorrectable, 2 decode, 3 parity. -/
def capture (s : State) (mem kind m src a : Nat) : State :=
  let info := getR s Reg.FAB_ERRINFO
  if bit info 31 && (kind == 0 || bits info 21 20 != 0) then s else
  let s := setEvent s Reg.FAB_ERRINFO (2 ^ 31)
  let s := setR s Reg.FAB_ERRINFO (2 ^ 31 + mem * 2 ^ 24 + kind * 2 ^ 20 + m * 2 ^ 12 + src)
  let s := setR64 s Reg.FAB_ERRADDR_LO Reg.FAB_ERRADDR_HI a
  setR64 s Reg.FAB_ERRFRAME_LO Reg.FAB_ERRFRAME_HI s.tl.frame

/-- A decode (0) or parity (1) error of master m (R434). -/
def fabError (s : State) (kind m src a : Nat) : State :=
  let first := !(s.fab.runs.any fun r => r.1 == kind && r.2.1 == m)
  let s := addCtr s (if kind = 0 then Reg.FAB_DECERR else Reg.FAB_PARERR) 1
  let s := { s with fab := { s.fab with
    runs := (kind, m, true) :: s.fab.runs.filter (fun r => !(r.1 == kind && r.2.1 == m)),
    errSum := s.fab.errSum + kind } }
  let s := capture s 0 (2 + kind) m src a
  let s := logRun s (if kind = 0 then 0x1101 else 0x1102) [(1, (m : Int)), (1, (src : Int)), (5, (a : Int)), frameF s.tl.frame]
    m first
  raise s 17 (2 + kind)

/-- A run of fabric errors ends at the first boundary since which its master had none. -/
def fabBoundary (s : State) : State :=
  { s with fab := { s.fab with runs := (s.fab.runs.filter (·.2.2)).map fun r => (r.1, r.2.1, false) } }

/-- The memory code of R441 of an internal address. -/
def memCode (s : State) (a : Nat) : Option Nat :=
  let inR := fun t => let r := region s t; decide (r.1 ≤ a) && decide (a < r.1 + r.2)
  if inR 0 then some 0
  else if inR 1 then some 1
  else if inR 2 || inR 3 || inR 4 || inR 5 then some 2
  else if inR 6 then some 3
  else if inR 7 then (let o := (a - 0x50000000) % 0x100000
    if !coreThere s a then none else if o < 0x40000 then some 4 else if 0x80000 ≤ o ∧ o < 0x90000 then some 5 else none)
  else if inR 8 then some 6
  else if inR 9 then some 7
  else if inR 10 then some 8
  else none

/-- The internal address of a memory's region (R430, R444). -/
def codeBase (k : Nat) : Nat := regionBase ([0, 1, 2, 6, 7, 7, 8, 9, 10].getD k 0)

/-- Bytes of each memory of R441. -/
def codeSize (s : State) (k : Nat) : Nat :=
  match k with
  | 0 => memUsable s
  | 1 => 0x1800000
  | 2 => 0x800000
  | 3 => 0x600000
  | 4 => (if s.hw.tk2512 then 16 else 32) * 0x40000
  | 5 => (if s.hw.tk2512 then 16 else 32) * 0x10000
  | 6 => 0x200000
  | 7 => 0x200000
  | _ => 0x80000

/-- Where an address lies within its memory, its codewords counted in ascending order. -/
def codeOfs (k a : Nat) : Nat :=
  let o := a - codeBase k
  if k = 4 then o / 0x100000 * 0x40000 + o % 0x100000
  else if k = 5 then o / 0x100000 * 0x10000 + (o % 0x100000 - 0x80000)
  else o

/-- One error of a codeword, reported (R441). `ue`: uncorrectable. -/
def eccReport (s : State) (k : Nat) (ue : Bool) (m src a : Nat) : State :=
  let s := addCtr s ((if ue then Reg.FAB_ECCUNC else Reg.FAB_ECCCOR) + 8 * k) 1
  let s := if k = 4 ∨ k = 5 then addCtr s (if ue then Reg.KPU_ECCUNC else Reg.KPU_ECCCOR) 1 else s
  let s := capture s k (b2n ue) m src a
  if !ue then raise s 17 0 else
  let s := if k = 4 ∨ k = 5 then raise s 9 2 else s
  let first := !s.fab.ueRuns.contains a
  let s := { s with fab := { s.fab with errSum := s.fab.errSum + 1, ueRuns := if first then a :: s.fab.ueRuns else s.fab.ueRuns } }
  let s := if k = 8 then s else logRun s 0x1105 [(1, (k : Int)), (5, (a : Int)), frameF s.tl.frame] a first
  raise s 17 1

/-- Bits flipped in a codeword: one is corrected, two are not (R444). -/
def flips (mask : Nat) : Nat := mask % 2 + mask / 2 % 2

/-- A read of [a, a + n): every damaged codeword is reported; the Bool says that one was uncorrectable (R441). -/
def eccRead (s : State) (a n m src : Nat) : Bool × State :=
  (s.fab.inj.filter fun c => decide (c.1 < a + n) && decide (a < c.1 + 16)).foldl (fun r c =>
    let ue := flips c.2 == 2
    match memCode s c.1 with
    | some k => (r.1 || ue, eccReport r.2 k ue m src c.1)
    | none => r) (false, s)

/-- The lowest uncorrectable codeword in the n bytes from a on. -/
def ueFirst (s : State) (a n : Nat) : Nat :=
  let u := (s.fab.inj.filter fun c => flips c.2 == 2 && decide (c.1 < a + n) && decide (a < c.1 + 16)).map (·.1)
  u.foldl min (u.headD a)

/-- The codewords at open offsets of memory code k. -/
def openWords (k size : Nat) (ps : List Nat) : List Nat := ps.map fun p => codeBase k + p % size / 16 * 16

/-- A read of words whose places no rule gives: which of them are uncorrectable; each damaged codeword is reported once (R441;
assumption 101). -/
def openRead (s : State) (k size m : Nat) (ps : List Nat) : List Bool × State :=
  if s.fab.inj.isEmpty then (ps.map fun _ => false, s) else
  let at_ := openWords k size ps
  (at_.map fun a => s.fab.inj.any fun c => c.1 == a && flips c.2 == 2,
    (s.fab.inj.filter fun c => at_.contains c.1).foldl (fun s c => eccReport s k (flips c.2 == 2) m 0 c.1) s)

/-- A write of such words: their codewords are whole again (R444). -/
def openWrite (s : State) (k size : Nat) (ps : List Nat) : State :=
  if s.fab.inj.isEmpty then s else whole s fun a => (openWords k size ps).contains a

/-- A write of bytes at an internal address; a damaged codeword it reaches is whole again (R444). -/
def memWrite (s : State) (a : Nat) (b : Bytes) : State :=
  let hit := fun (c : Nat) => decide (c < a + b.length) && decide (a < c + 16)
  { s with mem := Memory.writeBytes s.mem a b,
           fab := { s.fab with inj := s.fab.inj.filter (fun c => !hit c.1), ueRuns := s.fab.ueRuns.filter fun c => !hit c } }

/-- Whether the codeword of a byte is uncorrectable. -/
def ueByte (s : State) (a : Nat) : Bool := s.fab.inj.any fun c => c.1 == a / 16 * 16 && flips c.2 == 2

/-- One byte as a read returns it: the bytes of an uncorrectable codeword read as zero (R441). -/
def readByte (s : State) (a : Nat) : Byte := if ueByte s a then 0 else Memory.read s.mem a

/-- A read of bytes: uncorrectable codewords read as zero, and a DRAM read with an error response returns zero beats (R434,
R441). -/
def memRead (s : State) (a n m src : Nat) : Bytes × State :=
  let r := eccRead s a n m src
  (if r.1 && memCode s a == some 0 then zeroBytes n else (List.range n).map fun i => readByte s (a + i), r.2)

/-- A burst of a source that no master reset has reached. -/
def liveBurst (m src : Nat) (b : Burst) : Bool := b.master == m && b.source == src && !b.drained

/-- Transactions outstanding from a source, but for those that drain: those a target carries out and those that wait. -/
def outstanding (s : State) (m src : Nat) : Nat :=
  (s.fab.current.filter (liveBurst m src)).length + (s.fab.waiting.filter (liveBurst m src)).length

/-- Transactions outstanding on a master port, whatever their source (R431). -/
def portLoad (s : State) (m : Nat) : Nat :=
  (s.fab.current.filter (·.master == m)).length + (s.fab.waiting.filter (·.master == m)).length

/-- The sixteen bytes of the codeword at an address as a write with these strobes leaves them. -/
def mergeWord (s : State) (a : Nat) (w : List (Option Byte)) : Bytes :=
  w.zipIdx.map fun b => b.1.getD (readByte s (a + b.2))

/-- The part of a strobed write from a on that lies in the codeword at address c. -/
def wordCells (a : Nat) (w : List (Option Byte)) (c : Nat) : List (Option Byte) :=
  (List.range 16).map fun j => if c + j < a then none else w.getD (c + j - a) none

/-- One codeword of a DRAM write (R406): whole, it is written; in part, it is read, merged and written, but not where the read is
uncorrectable (R441). -/
def dramWord (s : State) (m src c : Nat) (w : List (Option Byte)) : State :=
  if !w.any (·.isSome) then s
  else if w.all (·.isSome) then memWrite s c (w.map (·.getD 0))
  else
    let r := eccRead s c 16 m src
    let t := addCtr r.2 Reg.MEM_RMW 1
    if r.1 then t else memWrite t c (mergeWord s c w)

/-- A write into the DRAM by its strobes, codeword by codeword (R406). -/
def dramCells (s : State) (m src a : Nat) (w : List (Option Byte)) : State :=
  (List.range ((a + w.length + 15) / 16 - a / 16)).foldl (fun s k =>
    dramWord s m src (16 * (a / 16 + k)) (wordCells a w (16 * (a / 16 + k)))) s

/-- A write of bytes into the DRAM: whole codewords land as they are (R406). -/
def dramWrite (s : State) (m src a : Nat) (d : Bytes) : State :=
  if a % 16 = 0 ∧ d.length % 16 = 0 then memWrite s a d else dramCells s m src a (d.map some)

/-- Bytes a master writes at a plain memory (R406, R434). -/
def burstWrite (s : State) (b : Burst) (d : Bytes) : State :=
  if b.target = 0 then dramWrite s b.master b.source b.addr d else memWrite s b.addr d

/-- A source in DRAINING stalls its issuer (R437). -/
def draining (s : State) (m src : Nat) : Bool := s.fab.drains.any fun d => d.master == m && d.source == src

/-- FAB_DRAIN and FAB_MSTATm (R446, R448). -/
def publishDrains (s : State) : State :=
  let d := s.fab.drains
  let s := setR s Reg.FAB_DRAIN ((List.range 24).map fun m => b2n (d.any (·.master == m)) * 2 ^ m).sum
  (List.range 24).foldl (fun s m =>
    let dm := d.filter (·.master == m)
    setR s (Reg.FAB_MSTAT + 0x400 * m) (if dm.isEmpty then 0 else 2 ^ 30 + min 64 (dm.map (·.left)).sum * 2 ^ 16)) s

/-- A burst that a master reset reaches (R437): of a write the first `beats` beats stand, the rest has its strobes clear. A register
takes its words when the burst retires, so there the words of those beats stay in it. -/
def drainBurst (m src beats : Nat) (b : Burst) : Burst :=
  if !liveBurst m src b then b
  else { b with drained := true, write := b.write.map fun d => if b.target = 11 then d.take (64 * beats) else [] }

/-- A master reset of one source (R437, R438): it drains what is outstanding, `more` transactions of its DMA among it; `beats` beats
of the write in progress had been issued. A second reset merges with the first. -/
def masterReset (s : State) (m src beats more : Nat) : State :=
  let n := outstanding s m src + more
  let s := (s.fab.current.filter (liveBurst m src)).foldl (fun s b =>
    match b.write with
    | some d => if b.target = 11 ∨ b.target = 12 then s else burstWrite s b (d.take (64 * beats))
    | none => s) s
  let s := { s with fab := { s.fab with current := s.fab.current.map (drainBurst m src beats),
                                        waiting := s.fab.waiting.map (drainBurst m src 0) } }
  match s.fab.drains.find? fun d => d.master == m && d.source == src with
  | some d =>
    let d' := { d with left := d.left + n, total := d.total + n }
    publishDrains { s with fab := { s.fab with drains := s.fab.drains.map fun x => if x = d then d' else x } }
  | none =>
    if n = 0 then
      let s := addCtr s Reg.FAB_DRAINS 1
      raise (logEv s 0x1104 [(1, (m : Int)), (1, (src : Int)), (1, 0), (4, 0)]) 17 4
    else publishDrains { s with fab := { s.fab with drains := s.fab.drains ++ [{ master := m, source := src, left := n, total := n }] } }

/-- A transaction of a draining source retires (R437, R448). -/
def retire (s : State) (b : Burst) : State :=
  if !b.drained then s else
  let f := fun (d : Drain) => if d.master = b.master ∧ d.source = b.source then { d with left := d.left - 1 } else d
  publishDrains { s with fab := { s.fab with drains := s.fab.drains.map f } }

/-- The control processor restarts from an image (R237, R441, R495): its transactions drain, no audio block resets. -/
def fwRestart (s : State) (img : Nat) : State :=
  masterReset { s with fw := { s.fw with running := img, restarting := true, ready := false } } 0 0 0 0

/-- A burst at a memory ends: a write lands, a read returns its bytes (R434, R435, R441). -/
def burstEnd (s : State) (b : Burst) : State :=
  match b.write with
  | some d => burstWrite s b d
  | none =>
    let r := memRead s b.addr b.len b.master b.source
    let s := { r.2 with rdata := r.1 }
    let bad := (eccRead s b.addr b.len b.master b.source).1
    if b.target = 9 && bad then fwRestart s s.fw.running
    else if b.target = 10 && bad then logSramFail s (ueFirst s b.addr b.len - regionBase 10)
    else s

/-- The priority of master m on target t (R435, R448). -/
def fabPrio (s : State) (m t : Nat) : Nat :=
  bits (getR s ((if t < 8 then Reg.FAB_PRIO_LO else Reg.FAB_PRIO_HI) + 0x400 * m)) (4 * (t % 8) + 3) (4 * (t % 8))

/-- The burst target t grants next: highest priority, then round robin after the master last granted at it (R435). -/
def nextGrant (s : State) (t : Nat) : Option Burst :=
  let w := s.fab.waiting.filter (·.target == t)
  let top := w.foldl (fun p b => max p (fabPrio s b.master t)) 0
  let c := w.filter fun b => fabPrio s b.master t == top
  let last := ((s.fab.granted.find? fun g => g.1 == t && g.2.1 == top).map (·.2.2)).getD 23
  let key := fun (b : Burst) => (b.master + 23 - last) % 24
  c.foldl (fun o b => match o with
    | some x => if key b < key x then some b else some x
    | none => some b) none

/-- Target t starts its next burst, if one waits. -/
def grant (s : State) (t : Nat) : State :=
  match nextGrant s t with
  | none => s
  | some b =>
    let p := fabPrio s b.master t
    { s with fab := { s.fab with current := s.fab.current ++ [b], waiting := s.fab.waiting.erase b,
                                 granted := (t, p, b.master) :: s.fab.granted.filter fun g => !(g.1 == t && g.2.1 == p) } }

/-- ECC_STORM_WINDOW: the end of a one-second window (R442). -/
def execEccStormWindow (s : State) : Host.Outcome State Fault Refusal :=
  let n := s.fab.errSum
  let t := { s with fab := { s.fab with errSum := 0 } }
  .next (if n > getF s F.FAB_UEMAX_COUNT then
      raise (logEv { t with fab := { t.fab with storm := true } } 0x1106 [(4, (n : Int))]) 17 5
    else t)

/-- STORM_CLEAR: a write of FAB_CTRL waits for its boundary (R13, R442). -/
def execStormClear (v : Nat) (s : State) : Host.Outcome State Fault Refusal := .next (queueWrite s Reg.FAB_CTRL v)

/-- Whether a codeword lies in the n bytes of memory k that the scrubber reads from p on; after the last it starts again. -/
def inShare (s : State) (k p n a : Nat) : Bool :=
  memCode s a == some k && decide ((codeOfs k a + codeSize s k - p) % codeSize s k < n)

/-- The entries of a list by a rising key. -/
def byPlace (key : Nat × Nat → Nat) (l : List (Nat × Nat)) : List (Nat × Nat) :=
  l.foldl (fun o c => o.takeWhile (fun e => decide (key e ≤ key c)) ++ c :: o.dropWhile (fun e => decide (key e ≤ key c))) []

/-- The scrubber's share of one memory, in ascending order from where it stands: damaged codewords are reported, corrected ones
rewritten (R443). -/
def scrubOne (s : State) (k : Nat) : State :=
  let p := s.fab.scrub.getD k 0
  let n := if k = 0 then getF s F.FAB_SCRUBDRAM_BYTES else getF s F.FAB_SCRUBSRAM_BYTES
  let z := codeSize s k
  let hits := byPlace (fun c => (codeOfs k c.1 + z - p) % z) (s.fab.inj.filter fun c => inShare s k p n c.1)
  let s := hits.foldl (fun s c => eccReport s k (flips c.2 == 2) 15 0 c.1) s
  let s := hits.foldl (fun s c => if k = 8 && flips c.2 == 2 then logSramFail s (codeOfs 8 c.1) else s) s
  { s with fab := { s.fab with inj := s.fab.inj.filter (fun c => !(inShare s k p n c.1 && flips c.2 == 1)),
                               scrub := s.fab.scrub.set k (if z = 0 then 0 else (p + n) % z)
                               scrubbed := if z ≤ p + n ∧ k ∉ s.fab.scrubbed then k :: s.fab.scrubbed else s.fab.scrubbed } }

/-- SCRUB: each memory's share of the frame; once every memory has been read to its end SCRUBPASS is raised (R443;
assumption 87). -/
def execScrub (s : State) : Host.Outcome State Fault Refusal :=
  if getF s F.FAB_CTRL_SCRUBEN = 0 then .next s else
  let s := (List.range 9).foldl scrubOne s
  .next (if (List.range 9).all s.fab.scrubbed.contains then raise { s with fab := { s.fab with scrubbed := [] } } 17 6 else s)

/-- An injected error flips data bits of a stored codeword (R444). -/
def injectAt (s : State) (a mask : Nat) : State :=
  let old := ((s.fab.inj.find? (·.1 == a)).map (·.2)).getD 0
  let m := old ^^^ mask
  let rest := s.fab.inj.filter (·.1 != a)
  { s with fab := { s.fab with inj := if m = 0 then rest else (a, m) :: rest } }

/-- The FAB registers at a boundary (R446). -/
def publishFab (s : State) : State :=
  setR s Reg.FAB_STATUS (b2n s.fab.slicesDiff * 4 + b2n s.fab.storm * 2 + b2n s.fab.slicesSet)

end Sys2Proof.Machine
end

