-- ==== Sys2Proof/Machine/Net.lean ====
section
/-! DEFINITION. The transmit side of the Ethernet ports: frames the device builds, the four queues, the MAC's choice, pause,
launch entries and egress stamps (R297, R305 to R311, R336 to R344). -/

namespace Sys2Proof.Machine

open Sys2Proof

/-- Port p (0 A, 1 B). -/
def portOf (s : State) (p : Nat) : PortSt := if p = 0 then s.portA else s.portB

/-- Stores port p. -/
def setPort (s : State) (p : Nat) (v : PortSt) : State := if p = 0 then { s with portA := v } else { s with portB := v }

/-- A register of the NETA block moved to port p. -/
def netR (p a : Nat) : Nat := a + p * 0x10000

/-- A field of the NETA block moved to port p. -/
def netF (p : Nat) (f : Fld) : Fld := f.plus (p * 0x10000)

/-- Chain mode (R298). -/
def chainMode (s : State) : Bool := getF s F.NET_CFG_PORTMODE == 1

/-- The port whose addresses port p uses: both use those of port A in chain mode (R297). -/
def addrPort (s : State) (p : Nat) : Nat := if chainMode s then 0 else p

/-- The MAC address of a port (R297). -/
def macOf (s : State) (p : Nat) : Nat :=
  let q := addrPort s p
  getF s (netF q F.NET_MAC_HI_MAC_HI) * 2 ^ 32 + getR s (netR q Reg.NET_MAC_LO)

/-- The IPv4 address of a port (R297). -/
def ipOf (s : State) (p : Nat) : Nat := getR s (netR (addrPort s p) Reg.NET_IPADDR)

/-- Whether an IPv4 address is multicast. -/
def isMulticastIp (ip : Nat) : Bool := ip / 2 ^ 28 == 14

/-- The multicast MAC address of RFC 1112. -/
def multicastMac (ip : Nat) : Nat := 0x01005E000000 + ip % 2 ^ 23

/-- The MAC address the neighbour table holds for an IPv4 address (R306). -/
def neighbour (s : State) (p ip : Nat) : Option Nat :=
  let q := addrPort s p
  ((List.range 32).find? fun n =>
    let b := netR q Reg.NET_NB0 + 16 * n
    bit (getR s (b + 8)) 31 && getR s b == ip).map fun n =>
      let b := netR q Reg.NET_NB0 + 16 * n
      getR s (b + 8) % 2 ^ 16 * 2 ^ 32 + getR s (b + 4)

/-- The destination MAC address for a destination IPv4 address (R306). -/
def destMac (s : State) (p ip : Nat) : Option Nat :=
  if isMulticastIp ip then some (multicastMac ip) else
  let q := addrPort s p
  let mask := getR s (netR q Reg.NET_IPMASK)
  if (ip &&& mask) = (ipOf s p &&& mask) then neighbour s p ip
  else neighbour s p (getR s (netR q Reg.NET_GATEWAY))

/-- What the builder of a UDP frame says of it. -/
structure UdpSpec where
  dstIp : Nat
  sport : Nat
  dport : Nat
  /-- the IPv4 DSCP/ECN byte, identification, flags and fragment offset, and TTL -/
  tos : Nat
  ident : Nat
  frag : Nat
  ttl : Nat
  /-- a UDP checksum is computed; else it is 0 -/
  csum : Bool
deriving DecidableEq, Repr

/-- An Ethernet frame without FCS that carries a UDP datagram (R306). -/
def udpFrame (srcMac dstMac srcIp : Nat) (u : UdpSpec) (payload : Bytes) : Bytes :=
  let ulen := 8 + payload.length
  let ih := fun c => [0x45] ++ beBytes 1 u.tos ++ beBytes 2 (20 + ulen) ++ beBytes 2 u.ident ++ beBytes 2 u.frag ++
    beBytes 1 u.ttl ++ [17] ++ beBytes 2 c ++ beBytes 4 srcIp ++ beBytes 4 u.dstIp
  let ip := ih (inetChecksum (ih 0))
  let uh := fun c => beBytes 2 u.sport ++ beBytes 2 u.dport ++ beBytes 2 ulen ++ beBytes 2 c
  let pseudo := beBytes 4 srcIp ++ beBytes 4 u.dstIp ++ [0, 17] ++ beBytes 2 ulen
  let c := if u.csum then (let x := inetChecksum (pseudo ++ uh 0 ++ payload); if x = 0 then 0xFFFF else x) else 0
  let f := beBytes 6 dstMac ++ beBytes 6 srcMac ++ [0x08, 0x00] ++ ip ++ uh c ++ payload
  f ++ zeroBytes (60 - f.length)

/-- Bytes a queue holds. -/
def queueBytes (q : List TxFrame) : Nat := (q.map fun f => f.bytes.length).sum

/-- Whether a port may send: its MAC address is not zero (R297). -/
def maySend (s : State) (p : Nat) : Bool := macOf s p != 0

/-- A frame lost on the transmit side: its counter and TXLOSS (R305, R308, R317). -/
def txLoss (s : State) (p ctr : Nat) : State := raise (addCtr s (netR p ctr) 1) (3 + p) 3

/-- A frame joins Q0 when its 8 KiB share has room (R305); the Bool says whether it had. With the link down it is discarded and
counted (R308). -/
def enqueue0 (s : State) (p : Nat) (f : TxFrame) : Bool × State :=
  let v := portOf s p
  if queueBytes v.q0 + f.bytes.length > 8192 then (false, s)
  else if !v.link then (true, txLoss s p Reg.NET_TXDROP)
  else (true, setPort s p { v with q0 := v.q0 ++ [f] })

/-- A stream packet or clapper joins Q1; with the link down, or beyond the 24 KiB share, it is dropped (R305, R308). -/
def enqueue1 (s : State) (p : Nat) (f : TxFrame) : State :=
  let v := portOf s p
  if !maySend s p then s
  else if !v.link || decide (queueBytes v.q1 + f.bytes.length > 24576) then txLoss s p Reg.NET_TXDROP
  else setPort s p { v with q1 := v.q1 ++ [f] }

/-- A forwarded frame joins Q2, or is dropped (R305, R309). -/
def enqueue2 (s : State) (p : Nat) (f : TxFrame) : State :=
  let v := portOf s p
  if !v.link then txLoss s p Reg.NET_TXDROP
  else if queueBytes v.q2 + f.bytes.length > 16384 then txLoss s p Reg.NET_FWDDROP
  else setPort s p { v with q2 := v.q2 ++ [f] }

/-- A beacon, reply or firmware frame joins Q3, or waits for its 16 KiB share (R305). -/
def enqueue3 (s : State) (p : Nat) (f : TxFrame) : State :=
  let v := portOf s p
  if !maySend s p then s
  else if !v.link then txLoss s p Reg.NET_TXDROP
  else if v.q3wait != [] || decide (queueBytes v.q3 + f.bytes.length > 16384) then
    setPort s p { v with q3wait := v.q3wait ++ [f] }
  else setPort s p { v with q3 := v.q3 ++ [f] }

/-- Moves waiting frames into the space Q3 has (R305). -/
def refill3 (v : PortSt) : Nat → PortSt
  | 0 => v
  | n + 1 =>
    match v.q3wait with
    | f :: t =>
      if queueBytes v.q3 + f.bytes.length ≤ 16384 then refill3 { v with q3 := v.q3 ++ [f], q3wait := t } n else v
    | [] => v

/-- The ports a frame the device originates for port p leaves on: both in chain mode (R298). -/
def txPorts (s : State) (p : Nat) : List Nat := if chainMode s && p == 0 then [0, 1] else [p]

/-- Builds a UDP frame for port p and hands it to `put` on every port it leaves on; with no destination address it is not sent
and counts in NETx_TXNORES (R306). `mac` overrides the look-up (CCP replies, R306). -/
def sendUdp (s : State) (p : Nat) (mac : Option Nat) (u : UdpSpec) (payload : Bytes) (kind : TxKind)
    (put : State → Nat → TxFrame → State) : State :=
  match (match mac with | some m => some m | none => destMac s p u.dstIp) with
  | none => txLoss s p Reg.NET_TXNORES
  | some m =>
    let b := udpFrame (macOf s p) m (ipOf s p) u payload
    (txPorts s p).foldl (fun s q => put s q { bytes := b, at_ := quarterNs s.time.now, kind := kind }) s

/-- The MAC rate of the port in Mb/s (R295, R316). -/
def portMbps (s : State) (p : Nat) : Nat :=
  match getF s (netF p F.NET_STATUS_SPEED) with
  | 0 => 10
  | 1 => 100
  | 2 => 1000
  | 3 => 2500
  | _ => 10000

/-- A frame that keeps the tag it arrived with: it is forwarded (R307). -/
def forwarded (q : Nat) (f : TxFrame) : Bool := q == 2 || (match f.kind with | .event .. => true | _ => false)

/-- The frames of a queue that the device tags (R307). -/
def tagsIt (s : State) (p q : Nat) (f : TxFrame) : Bool :=
  getF s (netF p F.NET_CFG_TXTAG) == 1 && !forwarded q f && f.kind != .pause

/-- Quarter ns a frame of queue q takes from its stamp point to its last bit: its bytes with the tag it gets and FCS. -/
def wireTime (s : State) (p q : Nat) (f : TxFrame) : Nat :=
  ceilDiv ((f.bytes.length + 4 * b2n (tagsIt s p q f) + 4) * 8 * 4000) (portMbps s p)

/-- The PCP of the frames of queue q; a forwarded frame goes by its own tag, 0 without one (R307, R310). -/
def queuePcp (s : State) (p q : Nat) (f : TxFrame) : Nat :=
  if forwarded q f then (if beAt f.bytes 12 2 = 0x8100 then beAt f.bytes 14 1 / 32 else 0)
  else getF s (netF p (if q = 0 then F.NET_VLAN_PCP0 else if q = 1 then F.NET_VLAN_PCP1 else F.NET_VLAN_PCP3))

/-- A queue is paused by PAUSE or by the priority its frames carry (R310). -/
def queuePaused (s : State) (p q : Nat) (f : TxFrame) : Bool :=
  let v := portOf s p
  v.pause != 0 || v.pfc[queuePcp s p q f]?.getD 0 != 0

/-- LTIME of a timed launch entry. -/
def timedAt (f : TxFrame) : Option Nat :=
  match f.kind with
  | .launch _ true lt _ _ _ _ => some lt
  | _ => none

/-- The earliest pending timed entry of a port (R341). -/
def earliestTimed (v : PortSt) : Option TxFrame :=
  v.q0.foldl (fun a f =>
    match timedAt f, a.bind timedAt with
    | some t, some u => if t < u then some f else a
    | some _, none => some f
    | none, _ => a) none

/-- The place in Q0 of the frame that leaves next at local time t: due timed entries by LTIME, then the others in order of arrival
(R341). -/
def pick0 (s : State) (p t : Nat) : Option Nat :=
  let v := portOf s p
  match earliestTimed v with
  | some e =>
    if (timedAt e).getD 0 ≤ t then v.q0.findIdx? (· == e)
    else v.q0.findIdx? fun f => (timedAt f).isNone
  | none => v.q0.findIdx? fun f => (timedAt f).isNone

/-- A completion of a launch entry (R344). -/
def complete (s : State) (p tag : Nat) (st : LaunchStatus) (lost : Bool) : State :=
  let v := portOf s p
  setPort s p { v with done := v.done ++ [{ tag := tag, status := st, stampLost := lost }] }

/-- A launch entry ends LATE, its frame unsent (R342). -/
def completeLate (s : State) (p : Nat) (f : TxFrame) : State :=
  match f.kind with
  | .launch tag _ _ _ _ _ _ =>
    let s := addCtr s (Reg.TIME_LATE + 0x20 * p) 1
    raise (complete s p tag .late false) 2 5
  | _ => s

/-- LATEWIN in quarter ns (R342, R346). -/
def lateWin (s : State) : Nat := getF s F.TIME_LATEWIN_US * 4000

/-- Every timed entry that respects LATEWIN and has not started by then completes LATE (R342): beyond LATEWIN after its LTIME, or
at that instant while a pause or a frame on the wire holds it. -/
def expireLate (s : State) (p t : Nat) : State :=
  let w := lateWin s
  let v := portOf s p
  let late := fun (f : TxFrame) => match f.kind with
    | .launch _ true lt _ _ _ true => decide (t > lt + w) || decide (t = lt + w) && (v.wire.isSome || queuePaused s p 0 f)
    | _ => false
  let s := setPort s p { v with q0 := v.q0.filter fun f => !late f }
  (v.q0.filter late).foldl (fun s f => completeLate s p f) s

/-- Replaces the `n` bytes at offset `o`. -/
def patchB (b : Bytes) (o : Nat) (x : Bytes) : Bytes := b.take o ++ x ++ b.drop (o + x.length)

/-- Over IPv4, a frame changed in flight carries UDP checksum 0 (R338); the EtherType stands at 12, or 16 behind a tag. -/
def zeroUdpSum (b : Bytes) : Bytes :=
  let o := if beAt b 12 2 = 0x8100 then 16 else 12
  if beAt b o 2 = 0x0800 then patchB b (o + 2 + 4 * (beAt b (o + 2) 1 % 16) + 6) [0, 0] else b

/-- The correctionField of the PTP message at `ofs` raised by `x` (2^−16 ns), wrapping modulo 2^64 (R336). -/
def addCorrection (b : Bytes) (ofs : Nat) (x : Int) : Bytes :=
  patchB b (ofs + 8) (beBytes 8 (unsigned 64 ((beAt b (ofs + 8) 8 : Nat) + x)))

/-- What the egress MAC writes into a frame at egress stamp e, in quarter ns (R336 to R339, R343). -/
def finishFrame (f : TxFrame) (e : Nat) : Bytes :=
  match f.kind with
  | .event ofs ing extra true => zeroUdpSum (addCorrection f.bytes ofs (((e : Int) - ing) * 16384 + extra))
  | .pdelayResp ofs corr ing =>
    zeroUdpSum (patchB f.bytes (ofs + 8) (beBytes 8 (unsigned 64 ((corr : Int) + ((e : Int) - ing) * 16384))))
  | .launch _ _ _ _ true ofs _ =>
    let b := patchB f.bytes (ofs + 34) (beBytes 6 (e / 4000000000) ++ beBytes 4 (e / 4 % 1000000000))
    zeroUdpSum (addCorrection b ofs ((e % 4 * 16384 : Nat) : Int))
  | _ => f.bytes

/-- Adds the IEEE 802.1Q tag of queue q to a frame the device builds (R307). -/
def tagFrame (s : State) (p q : Nat) (f : TxFrame) (b : Bytes) : Bytes :=
  if tagsIt s p q f then
    let pcp := getF s (netF p (if q = 0 then F.NET_VLAN_PCP0 else if q = 1 then F.NET_VLAN_PCP1 else F.NET_VLAN_PCP3))
    b.take 12 ++ [0x81, 0x00] ++ beBytes 2 (pcp * 8192 + getF s (netF p F.NET_VLAN_VID)) ++ b.drop 12
  else b

/-- What leaving reports: the largest residence (R336), the completion of a launch entry and its stamp (R344). -/
def leaving (s : State) (p : Nat) (f : TxFrame) (e : Nat) : State :=
  match f.kind with
  | .event _ ing _ true => maxF s (F.TIME_TCRESMAX_QNS.plus (128 * p)) (e - ing)
  | .launch tag timed _ stamp _ _ _ =>
    if stamp || timed then
      let v := portOf s p
      if v.tsq.length < 64 then complete (setPort s p { v with tsq := v.tsq ++ [(tag, e)] }) p tag .sent false
      else raise (complete (addCtr s (Reg.TS_OVF + 0x20 * p) 1) p tag .sent true) 2 6
    else complete s p tag .sent false
  | _ => s

/-- The read of a frame of n bytes that stands in the packet buffers from an open place on: whether a codeword of it is uncorrectable
(R439, R441; assumption 101). -/
def frameBad (s : State) (n : Nat) : Bool × State :=
  if s.fab.inj.isEmpty then (false, s) else
  let p := freeBits 21 s
  let r := openRead p.2 6 0x200000 10 ((List.range (ceilDiv n 16)).map fun i => p.1 + 16 * i)
  (r.1.any id, r.2)

/-- A frame starts on the wire at local time t (R305, R325, R343). -/
def startSound (s : State) (p q t : Nat) (f : TxFrame) : State :=
  let e := ((t : Int) + signed 16 (getF s (F.TIME_LAT_TXLAT.plus (128 * p)))).toNat
  let b := tagFrame s p q f (finishFrame f e)
  let s := leaving s p f e
  let v := portOf s p
  setPort s p { v with wire := some { f with bytes := b ++ leBytes 4 (crc32e b) } }

/-- A frame is read for the wire; with an uncorrectable codeword it is dropped (R441). -/
def startFrame (s : State) (p q t : Nat) (f : TxFrame) : State :=
  let r := frameBad s f.bytes.length
  if r.1 then r.2 else startSound r.2 p q t f

/-- Discards stale frames at the head of Q1 (R308). -/
def dropStale (s : State) (p t : Nat) : Nat → State
  | 0 => s
  | n + 1 =>
    let v := portOf s p
    match v.q1 with
    | f :: rest =>
      if t > f.at_ + 4000 * getF s (netF p F.NET_STALE_US) then
        dropStale (txLoss (setPort s p { v with q1 := rest }) p Reg.NET_TXSTALE) p t n
      else s
    | [] => s

/-- Whether the earliest pending timed entry lets frame f of queue q start at t (R341). -/
def guardOk (s : State) (p q t : Nat) (f : TxFrame) : Bool :=
  match earliestTimed (portOf s p) with
  | some e => e == f || decide (t + wireTime s p q f ≤ (timedAt e).getD 0)
  | none => true

/-- The PCS of the port runs: it has a mode (R295). -/
def pcsOn (s : State) (p : Nat) : Bool := getF s (netF p F.NET_CFG_PCS) != 0

/-- The MAC takes the next frame at local time t: an own pause frame, then the head of the lowest-numbered queue that holds a
frame, is not paused and may start (R305, R341). A port whose MAC address is zero sends nothing (R297). -/
def takeNext (s : State) (p t : Nat) : State :=
  let s := expireLate s p t
  let v := portOf s p
  if !v.link || !maySend s p || !pcsOn s p then s else
  match v.pauseQ with
  | f :: r => startFrame (setPort s p { v with pauseQ := r }) p 0 t f
  | [] =>
    match (pick0 s p t).bind fun i => (v.q0[i]?).map fun f => (i, f) with
    | some (i, f) =>
      if !queuePaused s p 0 f && guardOk s p 0 t f then startFrame (setPort s p { v with q0 := v.q0.eraseIdx i }) p 0 t f
      else takeLower s p t
    | none => takeLower s p t
where
  /-- Q1 to Q3 (R305). -/
  takeLower (s : State) (p t : Nat) : State :=
    let paused1 := match (portOf s p).q1 with
      | f :: _ => queuePaused s p 1 f
      | [] => true
    let s := if paused1 then s else dropStale s p t (portOf s p).q1.length
    let v := portOf s p
    let ok := fun q f => !queuePaused s p q f && guardOk s p q t f
    match v.q1, v.q2, v.q3 with
    | f :: r, _, _ =>
      if ok 1 f then startFrame (setPort s p { v with q1 := r }) p 1 t f else lower2 s p t ok
    | [], _, _ => lower2 s p t ok
  lower2 (s : State) (p t : Nat) (ok : Nat → TxFrame → Bool) : State :=
    let v := portOf s p
    match v.q2 with
    | f :: r => if ok 2 f then startFrame (setPort s p { v with q2 := r }) p 2 t f else lower3 s p t ok
    | [] => lower3 s p t ok
  lower3 (s : State) (p t : Nat) (ok : Nat → TxFrame → Bool) : State :=
    let v := portOf s p
    match v.q3 with
    | f :: r => if ok 3 f then startFrame (setPort s p (refill3 { v with q3 := r } v.q3wait.length)) p 3 t f else s
    | [] => s

/-- The frame on the wire ends: it counts as sent (R305, R317). -/
def endFrame (s : State) (p : Nat) : State :=
  let v := portOf s p
  match v.wire with
  | none => s
  | some f =>
    let s := addCtr (setPort s p { v with wire := none }) (netR p Reg.NET_TXOK) 1
    match f.kind with
    | .pause => addCtr s (netR p Reg.NET_PAUSETX) 1
    | .event .. | .forward => addCtr s (netR p Reg.NET_FWDOK) 1
    | _ => s

/-- The PAUSE and PFC frames of R311 with the given quanta. -/
def pauseFrames (s : State) (p quanta : Nat) : List Bytes :=
  let fc := netF p
  let hdr := beBytes 6 0x0180C2000001 ++ beBytes 6 (macOf s p) ++ [0x88, 0x08]
  let pz := fun (b : Bytes) => b ++ zeroBytes (60 - b.length)
  let pri := getF s (fc F.NET_FC_PFCPRI)
  (if getF s (fc F.NET_FC_TXPAUSE) = 1 then [pz (hdr ++ [0x00, 0x01] ++ beBytes 2 quanta)] else []) ++
  (if getF s (fc F.NET_FC_TXPFC) = 1 then
    [pz (hdr ++ [0x01, 0x01] ++ beBytes 2 pri ++
      (List.range 8).flatMap fun i => beBytes 2 (if bit pri i then quanta else 0))] else [])

/-- The port's flow control frames wait ahead of Q0, in no queue's share; with the link down they are discarded (R308, R311,
R341). -/
def sendPause (s : State) (p quanta : Nat) : State :=
  if !maySend s p then s else
  (pauseFrames s p quanta).foldl (fun s b =>
    let v := portOf s p
    if !v.link then txLoss s p Reg.NET_TXDROP
    else setPort s p { v with pauseQ := v.pauseQ ++ [{ bytes := b, at_ := quarterNs s.time.now, kind := .pause }] }) s

/-- Flow control from the receive buffer fill in bytes (R311). -/
def fillControl (s : State) (p fill : Nat) (refresh : Bool) : State :=
  let f := netF p
  if getF s (f F.NET_FC_TXPAUSE) = 0 ∧ getF s (f F.NET_FC_TXPFC) = 0 then s else
  let v := portOf s p
  if v.xoff then
    if fill ≤ 64 * getF s (f F.NET_FCTHR_XON) then sendPause (setPort s p { v with xoff := false }) p 0
    else if refresh then sendPause s p (getF s (f F.NET_FC_QUANTA)) else s
  else if fill > 64 * getF s (f F.NET_FCTHR_XOFF) then
    sendPause (setPort s p { v with xoff := true }) p (getF s (f F.NET_FC_QUANTA))
  else s

/-- Every frame queued for a port is discarded with its link: launch entries complete LINKDOWN (R308, R342). -/
def discardQueued (s : State) (p : Nat) : State :=
  let v := portOf s p
  let n := v.pauseQ.length + v.q0.length + v.q1.length + v.q2.length + v.q3.length + v.q3wait.length
  let done := v.q0.filterMap fun f => match f.kind with
    | .launch tag _ _ _ _ _ _ => some { tag := tag, status := LaunchStatus.linkDown, stampLost := false : Completion }
    | _ => none
  let s := setPort s p { v with pauseQ := [], q0 := [], q1 := [], q2 := [], q3 := [], q3wait := [], wire := none, done := v.done ++ done }
  if n = 0 then s else raise (addCtr s (netR p Reg.NET_TXDROP) n) (3 + p) 3

/-- The pending change of a port's link is taken at the boundary (R312). -/
def linkBoundary (s : State) (p : Nat) : State :=
  let v := portOf s p
  match v.linkPend with
  | none => s
  | some (up, speed, an, lf, rf) =>
    let s := setPort s p { v with link := up, linkPend := none }
    let s := setF s (netF p F.NET_STATUS_SPEED) speed
    let s := setFB s (netF p F.NET_STATUS_ANDONE) an
    let s := setFB s (netF p F.NET_STATUS_LFAULT) lf
    let s := setFB s (netF p F.NET_STATUS_RFAULT) rf
    let s := setFB s (netF p F.NET_STATUS_LINK) up
    if up = v.link then s else
    let s := logEv s (if p = 0 then 0x0301 else 0x0401) [(1, (b2n up : Int)), (1, (speed : Int)), frameF (dueFrame s)]
    raise (if up then s else discardQueued s p) (3 + p) 7

/-- The status bits of a port at a boundary (R316). -/
def publishNet (s : State) (p : Nat) : State :=
  let v := portOf s p
  let s := setFB s (netF p F.NET_STATUS_PAUSED) (v.pause != 0 || v.pfc.any (· != 0))
  let s := setFB s (netF p F.NET_STATUS_XOFF) v.xoff
  let lq := (v.q0.filter fun f => match f.kind with | .launch .. => true | _ => false).length
  setR s (Reg.TIME_QSTAT + 0x40 * p) (v.tsq.length * 2 ^ 16 + lq)

end Sys2Proof.Machine
end

