-- ==== Sys2Proof/Machine/Reply.lean ====
section
/-! DEFINITION. CCP packets and replies: the packet format, authentication, sessions, the reply ring, the quad-SPI queue and
UDP replies (R243 to R258). -/

namespace Sys2Proof.Machine

open Sys2Proof

/-- Control key k (R499). -/
def ckey (s : State) (k : Nat) : Bytes := s.pwr.ckeys[k]?.getD []

/-- TAG of a packet: over header, payload and KEYID (R258). -/
def ccpTag (s : State) (body : Bytes) (keyId : Nat) : Bytes := (hmacSha256 (ckey s keyId) (body ++ beBytes 4 keyId)).take 16

/-- KEYID names a loaded key (R258). -/
def keyValid (s : State) (keyId : Nat) : Bool := decide (keyId ≤ 3) && bit (getR s Reg.SYS_CKEYVALID) keyId

/-- The reply to a command (R243 to R245): a status other than OK and DEFERRED_DONE carries no payload. -/
def replyPacket (s : State) (ctx : Ctx) (code : Nat) (payload : Bytes) : Bytes :=
  let p := if code = 0 ∨ code = 1 then payload else []
  let body := ccpHeader 1 (1 + 4 * b2n ctx.auth.isSome) ctx.opcode code ctx.seq p.length ++ p
  let body := match ctx.auth with
    | some k => body ++ beBytes 4 k ++ ccpTag s body k
    | none => body
  body ++ beBytes 4 (crc32c body)

/-- Free space of a ring with this head and tail (R253). -/
def ringFree (head tail : Nat) : Nat := 65520 - (tail + 65536 - head) % 65536

/-- Bytes stored into a BAR2 ring from an offset on, modulo its size (R253). -/
def ringStore (m : Memory) (base ofs : Nat) (b : Bytes) : Memory :=
  b.zipIdx.foldl (fun m x => Memory.write m (base + (ofs + x.2) % 65536) x.1) m

/-- A reply goes into the reply ring when it fits; the Bool says whether it did (R253). -/
def ringPlace (s : State) (b : Bytes) : Bool × State :=
  let tail := getR s Reg.HOST_RPLTAIL
  let b := padTo 16 b
  if b.length > ringFree (getR s Reg.HOST_RPLHEAD) tail then (false, s)
  else
    let s := { s with ccp := { s.ccp with bar2 := ringStore s.ccp.bar2 0x10000 tail b } }
    (true, raise (setR s Reg.HOST_RPLTAIL ((tail + b.length) % 65536)) 21 0)

/-- A UDP datagram of the device: the header fields the spec leaves open are free values (R306, assumption 4). -/
def freeUdp (s : State) (ip dport : Nat) : UdpSpec × State :=
  let (sport, s) := freeBits 16 s
  let (tos, s) := freeBits 8 s
  let (ident, s) := freeBits 16 s
  let (df, s) := freeBits 1 s
  let (ttl, s) := freeBits 8 s
  let (cs, s) := freeBits 1 s
  ({ dstIp := ip, sport := sport, dport := dport, tos := tos, ident := ident, frag := df * 0x4000, ttl := ttl, csum := cs == 1 }, s)

/-- A reply goes back to the source address and port of its command (R256), in chain mode on both ports (R298). -/
def udpReply (s : State) (ctx : Ctx) (ip port : Nat) (b : Bytes) : State :=
  let (u, s) := freeUdp s ip port
  let f := udpFrame (macOf s ctx.nport) ctx.mac (ipOf s ctx.nport) u b
  (txPorts s (addrPort s ctx.nport)).foldl (fun s q => enqueue3 s q { bytes := f, at_ := quarterNs s.time.now, kind := .plain }) s

/-- A reply joins the quad-SPI queue; one that does not fit its 64 KiB waits behind the others (R255; that it waits is DEDUCED,
assumption 72). -/
def spiPlace (s : State) (b : Bytes) : State :=
  if s.ccp.spiHeld ≠ [] ∨ (s.ccp.spiOut.map (·.length)).sum + b.length > 65536 then
    { s with ccp := { s.ccp with spiHeld := s.ccp.spiHeld ++ [b] } }
  else raise { s with ccp := { s.ccp with spiOut := s.ccp.spiOut ++ [b] } } 21 0

/-- A reply leaves by the transport of its command (R245, R253, R255, R256). -/
def placeReply (s : State) (ctx : Ctx) (b : Bytes) : State :=
  match ctx.sess with
  | .pcie =>
    if s.ccp.ringHeld ≠ [] then { s with ccp := { s.ccp with ringHeld := s.ccp.ringHeld ++ [b] } }
    else
      let r := ringPlace s b
      if r.1 then r.2 else { s with ccp := { s.ccp with ringHeld := [b] } }
  | .qspi => spiPlace s b
  | .udp ip port => udpReply s ctx ip port b

/-- The session of a source, if the device keeps one (R247). -/
def sessionOf (s : State) (x : Sess) : Option Session := s.ccp.sessions.find? (·.sess == x)

/-- A UDP session. -/
def isUdp : Sess → Bool
  | .udp _ _ => true
  | _ => false

/-- Stores a session as the most recently used; a seventeenth UDP session replaces the one idle longest (R247). -/
def putSession (s : State) (v : Session) : State :=
  let rest := s.ccp.sessions.filter (·.sess != v.sess)
  let udp := rest.filter fun x => isUdp x.sess
  let rest := if isUdp v.sess && decide (16 ≤ udp.length) then
      match udp.getLast? with
      | some o => rest.filter (·.sess != o.sess)
      | none => rest
    else rest
  { s with ccp := { s.ccp with sessions := v :: rest } }

/-- The command has its reply: it is no longer in progress, and the reply to the most recent command is cached (R247). -/
def noteReplied (s : State) (ctx : Ctx) (b : Bytes) : State :=
  match sessionOf s ctx.sess with
  | none => s
  | some v =>
    let newest := match v.last with | x :: _ => x.1 == ctx.seq | [] => false
    let last := v.last.map fun x => if x.1 = ctx.seq then (x.1, true) else x
    let v' := { v with last := last, cached := if newest then some b else v.cached }
    { s with ccp := { s.ccp with sessions := s.ccp.sessions.map fun x => if x.sess = v.sess then v' else x } }

/-- The one reply to a command, by the number of its status (R245, R268). -/
def replyCode (s : State) (ctx : Ctx) (code : Nat) (payload : Bytes) : State :=
  let s := if code = Status.queueFull.code then raise (addCtr s Reg.HOST_QFULL 1) 21 5 else s
  let b := replyPacket s ctx code payload
  placeReply (noteReplied s ctx b) ctx b

/-- The one reply to a command. -/
def reply (s : State) (ctx : Ctx) (st : Status) (payload : Bytes) : State := replyCode s ctx st.code payload

/-- A reply where one is owed. -/
def replyTo (s : State) (ctx : Option Ctx) (st : Status) (payload : Bytes) : State :=
  match ctx with
  | some c => reply s c st payload
  | none => s

end Sys2Proof.Machine
end

