-- ==== Sys2Proof/Machine/Clapper.lean ====
section
/-! DEFINITION. Messages of the pair link, clappers, and the release of the ACTIVE role (R451 to R454, R457). -/

namespace Sys2Proof.Machine

open Sys2Proof

/-- The role codes (R234, R454). -/
def roleCode : Role → Nat
  | .solo => 0
  | .active => 1
  | .standby => 2
  | .resync => 3
  | .orphan => 4
  | .init => 5

/-- Paired operation is on (R450). -/
def paired (s : State) : Bool := getF s F.PAIR_CFG_EN == 1

/-- A message on the pair link (R451). -/
def pairMsg (type : Nat) (body : Bytes) : Bytes :=
  let m := beBytes 1 type ++ zeroBytes 1 ++ beBytes 2 body.length ++ body
  m ++ beBytes 4 (crc32c m)

/-- Sends a message on the pair link. -/
def pairSend (s : State) (type : Nat) (body : Bytes) : State :=
  { s with pair := { s.pair with tx := s.pair.tx ++ [pairMsg type body] } }

/-- VARIANT of SYS_ID (R3, R453). -/
def variantOf (s : State) : Nat := if s.hw.tk2512 then 0x2512 else 0x5124

/-- Bytes 0 to 55 of a clapper (R453). -/
def clapperBody (s : State) (cseq : Nat) (release : Bool) : Bytes :=
  let act := s.take.active.map (·.digest)
  [0x43, 0x4C, 0x01] ++ beBytes 1 (roleCode s.pair.role + 8 * b2n release + 16 * b2n s.pair.pclap) ++ beBytes 4 (getR s Reg.PAIR_KEY) ++
    beBytes 8 s.hw.devid ++ beBytes 4 cseq ++ beBytes 1 s.hw.pairId ++ zeroBytes 1 ++ beBytes 2 (variantOf s) ++
    beBytes 8 s.tl.frame ++ beBytes 8 (getR64 s Reg.PAIR_ACTFRAME_LO Reg.PAIR_ACTFRAME_HI) ++ act.getD (zeroBytes 16)

/-- A clapper on the pair link (R452). -/
def clapLink (s : State) (release : Bool) : State :=
  let n := (s.pair.cseqP + 1) % 2 ^ 32
  pairSend { s with pair := { s.pair with cseqP := n } } 1 (clapperBody s n release)

/-- A clapper on the network, through Q1 of each selected port (R453). -/
def clapNet (s : State) (release : Bool) : State :=
  let n := (s.pair.cseqN + 1) % 2 ^ 32
  let s := { s with pair := { s.pair with cseqN := n } }
  let b := clapperBody s n release
  [0, 1].foldl (fun s p =>
    if bit (getF s F.PAIR_CFG_NETPORTS) p then
      let (u, s) := freeUdp s (getR s Reg.PAIR_NETGRP) (getR s Reg.PAIR_NETPORT)
      sendUdp s p none u (b ++ beBytes 4 (crc32c b)) .plain enqueue1
    else s) s

/-- An ACTIVE unit releases its role: RELEASE on both paths, the drivers let go, RESYNC at the next boundary (R457). -/
def pairRelease (s : State) : State :=
  if s.pair.role ≠ .active then s else
  let s := clapNet (clapLink s true) true
  { s with pair := { s.pair with driven := false, driveAt := none, pend := some (.resync, 9) } }

end Sys2Proof.Machine
end

