-- ==== Sys2Proof/Machine/Dma.lean ====
section
/-! DEFINITION. The DMA engines of the kernel processors: descriptors, transfers, errors, and what a reset of a core's source leaves
(R131, R147 to R149, R181, R437, R438). -/

namespace Sys2Proof.Machine

open Sys2Proof

/-- Core k. -/
def coreOf (s : State) (k : Nat) : Core := s.kpu.cores[k]?.getD Core.cleared

/-- Stores core k. -/
def setCore (s : State) (k : Nat) (c : Core) : State := { s with kpu := { s.kpu with cores := s.kpu.cores.setIfInBounds k c } }

/-- The fabric port and source of a core's DMA engine (R431, R437). -/
def kdma (k : Nat) : Nat := 16 + k / 4

/-- Base address of core k's data memory (R131). -/
def dmemBase (k : Nat) : Nat := 0x50000000 + 0x100000 * k

/-- Base address of core k's instruction memory (R131). -/
def imemBase (k : Nat) : Nat := 0x50080000 + 0x100000 * k

/-- The descriptor queue of a channel. -/
def Core.dma (c : Core) (ch : Nat) : List Bytes :=
  match ch % 4 with
  | 0 => c.dma0
  | 1 => c.dma1
  | 2 => c.dma2
  | _ => c.dma3

/-- Stores the descriptor queue of a channel. -/
def Core.setDma (c : Core) (ch : Nat) (q : List Bytes) : Core :=
  match ch % 4 with
  | 0 => { c with dma0 := q }
  | 1 => { c with dma1 := q }
  | 2 => { c with dma2 := q }
  | _ => { c with dma3 := q }

/-- No channel has anything queued or running. -/
def Core.dmaIdle (c : Core) : Bool := c.dma0.isEmpty && c.dma1.isEmpty && c.dma2.isEmpty && c.dma3.isEmpty

/-- The parts of a transfer that lie in one 4 KiB page each: address and length. -/
def pageParts : Nat → Nat → Nat → List (Nat × Nat)
  | 0, _, _ => []
  | n + 1, a, len => if len = 0 then [] else
    let l := min len (4096 - a % 4096)
    (a, l) :: pageParts n (a + l) (len - l)

/-- Moves one part of a transfer: how it ends, and the state (R147, R149). -/
def dmaPart (s : State) (k : Nat) (out : Bool) (local_ ra n : Nat) : DmaEnd × State :=
  match fabTarget s (kdma k) ra n out with
  | none => (.error, fabError s 0 (kdma k) k ra)
  | some t =>
    if out then
      let e := eccRead s (dmemBase k + local_) n (kdma k) k
      if e.1 then (.badData local_, e.2)
      else
        let d := Memory.readBytes e.2.mem (dmemBase k + local_) n
        (.good, if t = 0 then dramWrite e.2 (kdma k) k ra d else memWrite e.2 ra d)
    else
      let e := eccRead s ra n (kdma k) k
      if e.1 then (.error, e.2) else (.good, memWrite e.2 (dmemBase k + local_) (Memory.readBytes e.2.mem ra n))

/-- The first `limit` bytes of the transfer of a descriptor, up to the first part that fails (R147, R149). -/
def dmaTransfer (s : State) (k : Nat) (d : Bytes) (limit : Nat) : DmaEnd × State :=
  let w0 := leAt d 0 4
  let w1 := leAt d 4 4
  let w3 := leAt d 12 4
  let la := w0 % 2 ^ 18
  let n := w1 % 2 ^ 17
  let ra := leAt d 8 4 + w3 % 256 * 2 ^ 32
  let bad := d.isEmpty || bits w0 30 18 != 0 || w1 / 2 ^ 17 != 0 || w3 / 256 != 0 || la % 16 != 0 || n % 16 != 0 || ra % 16 != 0 ||
    decide (n < 16) || decide (n > 65536) || decide (la + n > 2 ^ 18)
  if bad then (.error, s) else
  (pageParts 18 ra (min n limit)).foldl (fun r p =>
    if r.1 = .good then dmaPart r.2 k (bit w0 31) (la + (p.1 - ra)) p.1 p.2 else r) (.good, s)

/-- The descriptors that run on the channels of a core. -/
def dmaRunning (s : State) (k : Nat) : List Bytes := (List.range 4).filterMap fun ch => ((coreOf s k).dma ch).head?

/-- A running transfer stops where it is: the beats of 64 bytes it has moved, a number the spec leaves open (assumption 13), stay moved
(R149, R181, R438). -/
def dmaStop (k : Nat) (s : State) (d : Bytes) : State :=
  let f := freeBits 11 s
  (dmaTransfer f.2 k d (64 * f.1)).2

/-- The reset of a core's source while DMA is under way: its outstanding transactions, an open number up to 64 (assumption 13), drain
(R437). -/
def dmaDrain (s : State) (k : Nat) : State :=
  let f := freeBits 6 s
  masterReset f.2 (kdma k) k 0 (f.1 + 1)

/-- A core is halted or cleared: its source is reset; what its running transfers have moved stands (R181, R437, R438). -/
def sourceReset (s : State) (k : Nat) : State :=
  let run := dmaRunning s k
  if run.isEmpty then masterReset s (kdma k) k 0 0 else dmaDrain (run.foldl (dmaStop k) s) k

/-- Discards the queue of a channel, with the DMA error of R149: FLAGS.DE, the DMAERR cause, and the reset of the source. The other
channels of the core go on after the drain (DESIGN CHOICE, assumption 13). -/
def dmaFail (s : State) (k ch : Nat) : State :=
  let s := dmaDrain s k
  let c := coreOf s k
  setCore s k (if c.state = .fault then c.setDma ch [] else { c.setDma ch [] with de := true, ipend := c.ipend ||| 4 })

/-- An error response to a core's port that belongs to no descriptor the model runs: the lowest running channel takes it (DESIGN CHOICE,
assumption 100). -/
def dmaError (s : State) (k : Nat) : State :=
  dmaFail s k (((List.range 4).find? fun ch => !((coreOf s k).dma ch).isEmpty).getD 0)

end Sys2Proof.Machine
end

