-- ==== Sys2Proof/Machine/Disp.lean ====
section
/-! DEFINITION. The task dispatcher: tokens, instances, ready lists, deadlines, banks (R171 to R190). Frames are named by
the position label + Z + adj, which advances by one at every boundary across splices and changes of rate (R17, R363). -/

namespace Sys2Proof.Machine

open Sys2Proof

/-- The label a position carries now (R363). -/
def labelOf (s : State) (pos : Int) : Nat := Int.toNat (pos - s.tl.z - s.tl.adj) % 2 ^ 60

/-- The position of the frame that begins at the most recent boundary. -/
def posNow (s : State) : Int := (s.tl.frame : Int) + s.tl.z + s.tl.adj

/-- N + Z of a frame, which places it in rings and rotating buffers (R92, R167, R363). -/
def placeOf (s : State) (pos : Int) : Int := if pos ≥ s.tl.adjAt then pos - s.tl.adj else pos - s.tl.adjPrev

/-- Program bank b. -/
def bankOf (s : State) (b : Nat) : Option Bank := if b = 0 then s.disp.bank0 else s.disp.bank1

/-- Stores program bank b. -/
def setBank (s : State) (b : Nat) (v : Option Bank) : State :=
  if b = 0 then { s with disp := { s.disp with bank0 := v } } else { s with disp := { s.disp with bank1 := v } }

def noTask : Task :=
  { kernel := 0, cls := 0, nslot := 1, affMode := 0, affCore := 0, dlk := 0, arcFirst := 0, arcCount := 0, args := [] }

/-- Task t of bank b. -/
def taskOf (s : State) (b t : Nat) : Task :=
  match bankOf s b with
  | some k => k.graph.tasks.getD t noTask
  | none => noTask

/-- The code of an instance state (R190). -/
def instCode : InstState → Nat
  | .none => 0
  | .waiting => 1
  | .ready => 2
  | .running => 3
  | .completed => 4
  | .cancelled => 5
  | .late => 6
  | .faulted => 7

/-- The offset of a task's word in the task state window (R190). -/
def taskW (b t : Nat) : Nat := (if b = 0 then Reg.DISP_TASKW0 else Reg.DISP_TASKW1) + 4 * t

/-- The task window word of an instance; REASON, RACE and CORE tell of the last cancellation and the last dispatch of the task
and stay (R190). -/
def instWord (s : State) (i : Inst) : Nat :=
  instCode i.st * 2 ^ 29 + bits (getR s (taskW i.bank i.task)) 28 21 * 2 ^ 21 +
  labelOf s i.frame % 2 ^ 13 * 2 ^ 8 + i.slots % 256

/-- The last dispatch of a task was to core k (R190). -/
def noteCore (s : State) (b t k : Nat) : State :=
  let v := getR s (taskW b t)
  setR s (taskW b t) (bits v 31 26 * 2 ^ 26 + k % 32 * 2 ^ 21 + v % 2 ^ 21)

/-- The last cancellation of a task (R190). -/
def noteCancel (s : State) (b t reason : Nat) (race : Bool) : State :=
  let v := getR s (taskW b t)
  setR s (taskW b t) (bits v 31 29 * 2 ^ 29 + reason * 2 ^ 27 + b2n race * 2 ^ 26 + v % 2 ^ 26)

/-- The task state window of a bank describes no instance: a new graph is in the bank (R190). -/
def clearWindow (s : State) (b : Nat) : State :=
  { s with regs := Sparse.clearRange s.regs (taskW b 0) (taskW b 4096) }

/-- Whether two instances use the same set of their task (R173). -/
def sameSet (s : State) (i j : Inst) : Bool :=
  let n : Int := (taskOf s i.bank i.task).dlk + 2
  i.bank == j.bank && i.task == j.task && i.frame % n == j.frame % n

/-- Stores an instance in its set; the window shows the newest instance of the task (R173, R190). -/
def setInst (s : State) (i : Inst) : State :=
  let rest := s.disp.insts.filter fun j => !sameSet s i j
  let newest := rest.all fun j => !(j.bank == i.bank && j.task == i.task && decide (j.frame > i.frame))
  let s := { s with disp := { s.disp with insts := rest ++ [i] } }
  if newest then setR s (taskW i.bank i.task) (instWord s i) else s

/-- The instance of a task for a frame. -/
def findInst (s : State) (b t : Nat) (f : Int) : Option Inst :=
  s.disp.insts.find? fun i => i.bank == b && i.task == t && i.frame == f

/-- The instance that runs on a core. -/
def instOn (s : State) (k : Nat) : Option Inst :=
  s.disp.insts.find? fun i => i.core == k && (i.st == .running || i.st == .late)

/-- A frame has a cancelled, LATE, aborted or FAULTED instance: it counts once, and what is cancelled or LATE adds up until its
record is written (R183). -/
def missFrame (s : State) (f : Int) (cancelled late task : Nat) : State :=
  if s.disp.missed.contains f then
    { s with disp := { s.disp with tally := s.disp.tally.map fun x =>
      if x.1 = f then (f, x.2.1 + cancelled, x.2.2.1 + late, min x.2.2.2 task) else x } }
  else
    let s := { s with disp := { s.disp with missed := (f :: s.disp.missed).take 32, missNow := true,
                                            tally := s.disp.tally ++ [(f, cancelled, late, task)] } }
    raise (addCtr s Reg.DISP_MISSFRM 1) 10 5

/-- A core fault ends the instance on it as FAULTED (R182). -/
def instFault (s : State) (k : Nat) : State :=
  match instOn s k with
  | none => s
  | some i =>
    let s := setInst s { i with st := .faulted }
    missFrame (raise (addCtr s Reg.DISP_FAULTED 1) 10 3) i.frame 0 0 i.task

/-- The deadline of an instance has passed (R176). -/
def deadlinePassed (s : State) (dlk : Nat) (f : Int) : Bool :=
  if dlk = 0 then (match s.disp.cutoff with | some c => decide (f ≤ c) | none => false)
  else match s.disp.bound with | some b => decide (f + 1 + dlk ≤ b) | none => false

/-- Every deadline of a frame has passed in the banks that serve it: no further instance of it can be cancelled or LATE. -/
def frameSettled (s : State) (f : Int) : Bool :=
  [0, 1].all fun b => match bankOf s b with
    | some k => decide (f < k.lo) || (match k.hi with | some e => decide (e < f) | none => false) ||
        (deadlinePassed s 0 f && k.graph.tasks.all fun t => deadlinePassed s t.dlk f)
    | none => true

/-- DISP_DEADLINE of the missed frames, in frame order: the first of a run of frames makes the record, each further one adds to
its repeat count (R183). A frame's record waits until its deadlines have passed and its counts are whole (DEDUCED,
assumption 81). -/
def logMissed (s : State) : List (Int × Nat × Nat × Nat) → State
  | [] => { s with disp := { s.disp with tally := [] } }
  | x :: l =>
    if frameSettled s x.1 then
      logMissed (logRun s 0x0A03 [frameF (labelOf s x.1), (2, (x.2.1 : Int)), (2, (x.2.2.1 : Int)), (2, (x.2.2.2 : Int))] 0
        (!s.disp.missed.contains (x.1 - 1))) l
    else { s with disp := { s.disp with tally := x :: l } }

/-- The missed frames not yet logged, in frame order. -/
def tallyInOrder (l : List (Int × Nat × Nat × Nat)) : List (Int × Nat × Nat × Nat) :=
  l.foldr (fun x acc => (acc.takeWhile fun y => decide (y.1 < x.1)) ++ x :: acc.dropWhile fun y => decide (y.1 < x.1)) []

/-- The records of the missed frames whose counts are whole by this boundary. -/
def missRecords (s : State) : State := logMissed s (tallyInOrder s.disp.tally)

/-- An arc token is taken (R172, R174). One that finds no instance after the deadline of its frame is stale: its instance was
completed or cancelled and its set reused, or never came into being (the second: DEDUCED, assumption 81). -/
def takeToken (s : State) (b idx : Nat) (f : Int) : State :=
  match bankOf s b with
  | none => s
  | some k =>
    match k.graph.arcs[idx]? with
    | none => s
    | some a =>
      if a.dst ≥ 0xE000 then
        let late := match s.disp.cutoff with | some c => decide (f ≤ c) | none => false
        if late then raise (addCtr s Reg.DISP_SINKLATE 1) 10 0
        else
          let key := a.dst + 65536 * b
          let n := ((s.disp.sinks.find? fun x => x.1 == f && x.2.1 == key).map (·.2.2)).getD 0
          { s with disp := { s.disp with
            sinks := (f, key, n + 1) :: s.disp.sinks.filter fun x => !(x.1 == f && x.2.1 == key) } }
      else
        let t := taskOf s b a.dst
        let fill := fun (i : Inst) =>
          let sl := i.slots ||| 2 ^ a.slot
          if sl = 2 ^ t.nslot - 1 then { i with slots := sl, st := .ready, readyAt := s.disp.cycle } else { i with slots := sl }
        match findInst s b a.dst f with
        | some i =>
          if i.st = .waiting ∨ i.st = .ready then
            if bit i.slots a.slot then addCtr s Reg.DISP_DUPTOK 1 else setInst s (fill i)
          else addCtr s Reg.DISP_STALETOK 1
        | none =>
          if deadlinePassed s t.dlk f then addCtr s Reg.DISP_STALETOK 1
          else setInst s (fill { bank := b, task := a.dst, frame := f, st := .waiting, slots := 0, core := 0, readyAt := 0,
                                 sent := [] })

/-- An instance is cancelled before dispatch (R180); `race`: it became ready in this cycle. -/
def cancelInst (s : State) (i : Inst) : State :=
  let race := i.st == .ready && i.readyAt == s.disp.cycle
  let s := noteCancel (setInst s { i with st := .cancelled, slots := 0 }) i.bank i.task (if i.st = .waiting then 1 else 2) race
  if i.st = .waiting then addCtr s Reg.DISP_CANCEL_WAIT 1
  else if race then raise (addCtr s Reg.DISP_CANCEL_RACE 1) 10 2
  else addCtr s Reg.DISP_CANCEL_QUEUED 1

/-- The frames of a list of instances, each once. -/
def framesOf (l : List Inst) : List Int := l.foldl (fun acc i => if acc.contains i.frame then acc else acc ++ [i.frame]) []

/-- Every frame of the affected instances is noted as missed, with its counts and lowest task (R183). -/
def noteMissed (s : State) (cancelled late : List Inst) : State :=
  (framesOf (cancelled ++ late)).foldl (fun s f =>
    let c := cancelled.filter (·.frame == f)
    let l := late.filter (·.frame == f)
    let low := (c ++ l).foldl (fun m i => min m i.task) 4095
    missFrame s f c.length l.length low) s

/-- Instances not yet dispatched. -/
def undispatched (i : Inst) : Bool := i.st == .waiting || i.st == .ready

/-- The deadline of a set of instances (R180). -/
def deadline (s : State) (due : List Inst) : State :=
  let cs := due.filter undispatched
  let ls := due.filter (·.st == .running)
  let s := cs.foldl cancelInst s
  let s := ls.foldl (fun s i =>
    let s := addCtr (setInst s { i with st := .late }) Reg.DISP_LATE 1
    let c := coreOf s i.core
    setCore s i.core { c with ipend := c.ipend ||| 1 }) s
  noteMissed s cs ls

/-- A LATE instance still running is aborted: its core is halted and cleared, its DMA discarded (R181, R437). -/
def abortInst (s : State) (i : Inst) : State :=
  let s := sourceReset s i.core
  let s := setCore s i.core { Core.cleared with busy := (coreOf s i.core).busy }
  let s := setInst s { i with st := .faulted }
  let s := raise (addCtr s Reg.DISP_ABORT 1) 10 4
  let s := logEv s 0x0A02 [(2, (i.task : Int)), (1, (i.core : Int)), frameF (labelOf s i.frame)]
  missFrame s i.frame 0 0 i.task

/-- A deadline token in the cancel step (R175, R176, R181). -/
def deadlineToken (s : State) (t : Token) : State :=
  match t with
  | .arc .. => s
  | .cutoff f =>
    let s := { s with disp := { s.disp with cutoff := some f } }
    deadline s (s.disp.insts.filter fun i => (taskOf s i.bank i.task).dlk == 0 && i.frame == f)
  | .boundary m =>
    let late := s.disp.insts.filter (·.st == .late)
    let s := late.foldl abortInst { s with disp := { s.disp with bound := some m } }
    deadline s (s.disp.insts.filter fun i =>
      let k := (taskOf s i.bank i.task).dlk
      k != 0 && i.frame + 1 + k == m)

/-- A host cancel in its cancel step (R184). -/
def hostCancel (s : State) (c : Nat × Nat × Nat) : State :=
  let l := s.disp.insts.filter fun i => i.bank == c.1 && i.task == c.2.1 && undispatched i
  if l.isEmpty then s else
  let s := noteMissed (l.foldl cancelInst s) l []
  logEv s 0x0A04 [(2, (c.2.1 : Int)), (1, (c.1 : Int)), frameF c.2.2, (2, (l.length : Int))]

/-- Every instance of frame e that the bank can have is there and has retired: the last source token of the frame has been injected, and
each task has had its instance (R171, R173). -/
def frameRetired (s : State) (b : Nat) (g : GraphSec) (e : Int) : Bool :=
  (match s.pipe.work with
    | some w => decide (e < w.pos) || (w.pos == e && w.prime.rendered)
    | none => false) &&
  (List.range g.tasks.length).all fun t => match findInst s b t e with
    | some i => !undispatched i && i.st != .running && i.st != .late
    | none => false

/-- A bank whose last frame has wholly retired is released (R185): each of its tasks has retired its instance of that frame, or the
frame's cutoff has passed and no instance is left. -/
def releaseBank (s : State) (b : Nat) : State :=
  match bankOf s b with
  | some { graph := g, hi := some e, .. } =>
    let past := (match s.disp.cutoff with | some c => decide (e ≤ c) | none => false) || frameRetired s b g e
    let live := s.disp.insts.any fun i => i.bank == b && (undispatched i || i.st == .running || i.st == .late)
    let queued := s.disp.tokens.any fun t => match t with | .arc k .. => k == b | _ => false
    if past && !live && !queued then
      setBank { s with disp := { s.disp with insts := s.disp.insts.filter (·.bank != b) } } b none
    else s
  | _ => s

/-- Cores present (R4, R130). -/
def coresPresent (s : State) : Nat := if s.hw.tk2512 then 16 else 32

/-- A core is free for a kernel (R175). -/
def coreFree (s : State) (g : GraphSec) (kern k : Nat) : Bool :=
  (coreOf s k).state == .idle && decide (k < min g.ncores (coresPresent s)) && !bit s.kpu.gated k &&
  bit (g.kernels.getD kern { entry := 0, len := 0, coreMask := 0, img := 0 }).coreMask k

/-- The core an instance takes under its affinity, if one is free (R175). -/
def pickCore (s : State) (i : Inst) : Option Nat :=
  match bankOf s i.bank with
  | none => none
  | some b =>
    let t := taskOf s i.bank i.task
    let free := coreFree s b.graph t.kernel
    let any := (List.range 32).find? free
    match t.affMode with
    | 0 => any
    | 1 => if free t.affCore then some t.affCore else any
    | _ => if free t.affCore then some t.affCore else none

/-- Whether a bank is the outgoing one (R185). -/
def outgoing (s : State) (b : Nat) : Bool := match bankOf s b with | some k => k.hi.isSome | none => false

/-- The order in which ready instances are tried (R175). -/
def readyBefore (s : State) (i j : Inst) : Bool :=
  let ci := (taskOf s i.bank i.task).cls
  let cj := (taskOf s j.bank j.task).cls
  if ci != cj then decide (ci < cj)
  else if i.frame != j.frame then decide (i.frame < j.frame)
  else if outgoing s i.bank != outgoing s j.bank then outgoing s i.bank
  else decide (i.task < j.task)

/-- The first ready instance in that order which a free core can take, with its core. -/
def pickReady (s : State) : Option (Inst × Nat) :=
  (s.disp.insts.filter (·.st == .ready)).foldl (fun best i =>
    match pickCore s i with
    | none => best
    | some k =>
      match best with
      | none => some (i, k)
      | some (j, _) => if readyBefore s i j then some (i, k) else best) none

/-- A launch argument (R173). -/
def resolveArg (g : GraphSec) (f : Int) (a : Nat) : Nat :=
  if a / 2 ^ 30 = 1 then
    match g.buffers[a % 4096]? with
    | some b => (0x60000000 + b.base + b.size * (f % (b.rot : Int)).toNat + a / 4096 % 2 ^ 18) % 2 ^ 32
    | none => 0
  else a % 2 ^ 30

/-- The histogram bin of a wait of w FCLK cycles (R188). -/
def histBin (w : Nat) : Nat := if w ≤ 3 then 0 else if w ≥ 65536 then 15 else w.log2 - 1

/-- An instance starts on a core (R177). -/
def startInst (s : State) (i : Inst) (k : Nat) : State :=
  match bankOf s i.bank with
  | none => s
  | some b =>
    let t := taskOf s i.bank i.task
    let kern := b.graph.kernels.getD t.kernel { entry := 0, len := 0, coreMask := 0, img := 0 }
    let c := coreOf s k
    let x := (List.range 4).foldl (fun x n => Sparse.putN x n (resolveArg b.graph (placeOf s i.frame) (t.args.getD n 0))) c.x
    let x := Sparse.putN x 14 (i.bank * 4096 + i.task)
    let s := setCore s k { c with
      state := .run, x := x, ie := false, hm := false, sf := false, wc := false, de := false, rbase := 64, stride := 1,
      rpos := 0, lc := 0, armed := false, predsDue := false, imask := 0, ipend := c.ipend &&& 6, pc := kern.entry,
      brs := [], wait := none }
    let s := noteCore (setInst s { i with st := .running, core := k, slots := 0 }) i.bank i.task k
    let s := { s with disp := { s.disp with dispatched := s.disp.dispatched + 1 } }
    if getF s F.DISP_CFG_HISTALL = 1 ∨ getF s F.DISP_CFG_HISTLIST = t.cls then
      addCtr s (Reg.DISP_HIST + 4 * histBin (s.disp.cycle - i.readyAt)) 1
    else s

/-- The depths of the ready lists at the end of a cycle (R188). -/
def noteDepths (s : State) : State :=
  (List.range 8).foldl (fun s n =>
    let d := (s.disp.insts.filter fun i => i.st == .ready && (taskOf s i.bank i.task).cls == n).length
    let s := setR s (Reg.DISP_QCUR + 4 * n) d
    maxF s (F.DISP_QMAX_DEPTH.plus (4 * n)) d) s

/-- One dispatcher cycle (R175): tokens, cancellations, one dispatch. -/
def dispatcherCycle (s : State) : State :=
  let taken := s.disp.tokens.take 4
  let s := { s with disp := { s.disp with tokens := s.disp.tokens.drop 4 } }
  let s := taken.foldl (fun s t => match t with | .arc b i f => takeToken s b i f | _ => s) s
  let s := taken.foldl deadlineToken s
  let cs := s.disp.cancels
  let s := cs.foldl hostCancel { s with disp := { s.disp with cancels := [] } }
  let s := releaseBank (releaseBank s 0) 1
  let s := match pickReady s with
    | some (i, k) => startInst s i k
    | none => s
  let s := noteDepths s
  { s with disp := { s.disp with cycle := s.disp.cycle + 1 } }

/-- The frame sequencer or a stage injects a source token of frame f into every bank whose range contains it (R171, R185). Where both do,
the arcs of bank 0 come first: R175 orders the arcs of one source within one graph only (DESIGN CHOICE, assumption 104). -/
def injectSource (s : State) (code : Nat) (f : Int) : State :=
  let one := fun (b : Nat) =>
    match bankOf s b with
    | some k =>
      let in_ := decide (k.lo ≤ f) && (match k.hi with | some e => decide (f ≤ e) | none => true)
      if in_ then (k.graph.arcs.zipIdx.filter fun a => a.1.src == code).map fun a => Token.arc b a.2 f else []
    | none => []
  { s with disp := { s.disp with tokens := s.disp.tokens ++ one 0 ++ one 1 } }

/-- A deadline token joins the queue (R171). -/
def injectToken (s : State) (t : Token) : State := { s with disp := { s.disp with tokens := s.disp.tokens ++ [t] } }

/-- The tokens of an instance's arcs: AUTO arcs at its end, except those a TSIG has fired (R178, R179). -/
def sendArcs (s : State) (i : Inst) (idxs : List Nat) : State :=
  if i.st = .running then
    { s with disp := { s.disp with tokens := s.disp.tokens ++ idxs.map fun a => Token.arc i.bank a i.frame } }
  else s

/-- The task on core k ends: its AUTO tokens are sent and the core is IDLE (R178). -/
def taskEnd (s : State) (k : Nat) : State :=
  let c := coreOf s k
  let s := setCore s k { c with state := .idle, hm := false, wait := none, brs := [] }
  match instOn s k with
  | none => s
  | some i =>
    let t := taskOf s i.bank i.task
    let arcs := match bankOf s i.bank with
      | some b => (List.range t.arcCount).filterMap fun n =>
          let a := t.arcFirst + n
          if (b.graph.arcs.getD a { src := 0, dst := 0, slot := 0, auto := false }).auto && !i.sent.contains a then some a else none
      | none => []
    setInst (sendArcs s i arcs) { i with st := .completed }

/-- A TSIG takes effect: one token on the arc, or a foreign arc is discarded (R179). -/
def taskSignal (s : State) (k arc : Nat) : State :=
  match instOn s k with
  | none => s
  | some i =>
    let t := taskOf s i.bank i.task
    if t.arcFirst ≤ arc ∧ arc < t.arcFirst + t.arcCount then
      setInst (sendArcs s i [arc]) { i with sent := arc :: i.sent }
    else
      let s := raise (addCtr s Reg.DISP_BADSIG 1) 10 1
      logEv s 0x0A01 [(2, (i.task : Int)), (2, (arc : Int))]

/-- The statistics of the frame period that ends at a boundary (R188). -/
def publishDisp (s : State) (active : Bool) : State :=
  let s := setR s Reg.DISP_STATUS (b2n s.disp.missNow * 8 + b2n active * 4 + b2n s.disp.bank1.isSome * 2 + b2n s.disp.bank0.isSome)
  let s := setR s Reg.DISP_TASKS (s.disp.dispatched % 65536)
  let s := setR s Reg.DISP_PROG (match s.take.active with
    | some t => t.graph.ncores * 65536 + t.graph.tasks.length
    | none => 0)
  let s := (List.range 32).foldl (fun s k => setR s (Reg.DISP_BUSY + 4 * k) ((coreOf s k).busy % 2 ^ 20)) s
  { s with disp := { s.disp with missNow := false, dispatched := 0 },
           kpu := { s.kpu with cores := s.kpu.cores.map fun c => { c with busy := 0 } } }

/-- DISP_CANCEL: a write of the register waits for its boundary (R184). -/
def execDispCancel (v : Nat) (s : State) : Host.Outcome State Fault Refusal := .next (queueWrite s Reg.DISP_CANCEL v)

/-- DISP_HISTCLR: a write of DISP_CFG waits for its boundary (R188). -/
def execDispHistclr (v : Nat) (s : State) : Host.Outcome State Fault Refusal := .next (queueWrite s Reg.DISP_CFG v)

end Sys2Proof.Machine
end

