-- ==== Sys2Proof/Machine/GeoMath.lean ====
section
/-! DEFINITION. The arithmetic of the geometry engine: exact integers, rounded only where the chapter says (R37 to R64). -/

namespace Sys2Proof.Machine

open Sys2Proof

/-- 1.0 in Q2.22 (R39). -/
def one22 : Int := 4194304

/-- What an evaluation counts: saturations of gains, clamped delays, whether a coordinate was saturated, a bad set. -/
structure GeoCount where
  gsat : Nat
  dclamp : Nat
  clamp : Bool
  badset : Bool
deriving DecidableEq, Repr

def GeoCount.zero : GeoCount := { gsat := 0, dclamp := 0, clamp := false, badset := false }

def GeoCount.add (a b : GeoCount) : GeoCount :=
  { gsat := a.gsat + b.gsat, dclamp := a.dclamp + b.dclamp, clamp := a.clamp || b.clamp, badset := a.badset || b.badset }

/-- √(num / den) rounded half up (R39). -/
def sqrtRhu (num den : Nat) : Nat := (isqrt (4 * num / den) + 1) / 2

/-- SAT22, with how often it limited (R39). -/
def sat22 (x : Int) : Int × Nat := (satS 24 x, b2n (overS 24 x))

/-- MUL(a, b) = SAT22(RHU(a × b / 2^22)) (R39). -/
def mul22 (a b : Int) : Int × Nat := sat22 (rhu 22 (a * b))

/-- A chain of MULs from the left. -/
def mulChain (a : Int) (bs : List Int) : Int × Nat :=
  bs.foldl (fun p b => let q := mul22 p.1 b; (q.1, p.2 + q.2)) (a, 0)

/-- The squared distance of two points. -/
def sq3 (ax ay az bx by_ bz : Int) : Nat := ((ax - bx) ^ 2 + (ay - by_) ^ 2 + (az - bz) ^ 2).toNat

/-- DIST16 from a squared distance: RHU(16 × √S) (R39). -/
def dist16 (s : Nat) : Nat := isqrtRhu (256 * s)

/-- PROP(d) = RHU(d × K / 2^21) (R39). -/
def prop (k d : Nat) : Int := rhu 21 ((d * k : Nat) : Int)

/-- NORM over a list of weights x_j ≥ 0 (R39). -/
def norm22 (xs : List Nat) : List Nat :=
  let s := (xs.map fun x => x * x).sum
  xs.map fun x => if s = 0 then 0 else sqrtRhu (x * x * 2 ^ 44) s

/-- A coordinate saturated to the evaluation range (R38). -/
def satCoord (x : Int) : Int := clampI (-131071) 131071 x

/-- A point in the room frame. -/
structure Pt where
  x : Int
  y : Int
  z : Int
deriving DecidableEq, Repr

/-- Saturates a point, and whether it had to (R38). -/
def satPt (p : Pt) : Pt × Bool :=
  let q : Pt := ⟨satCoord p.x, satCoord p.y, satCoord p.z⟩
  (q, q != p)

/-- The object as an evaluation sees it (R68). -/
structure ObjIn where
  pos : Pt
  size : Nat
  gain : Int
  doppler : Bool
  focus : Bool
  far : Bool
  mode : Nat
  cset : Nat
deriving DecidableEq, Repr

/-- The settings of an evaluation: fs, K and the gain floor. -/
structure GeoCfg where
  fs : Nat
  k : Nat
  floor : Nat
deriving DecidableEq, Repr

def noSpeaker : Speaker := { x := 0, y := 0, z := 0, nx := 0, ny := 0, nz := 0, present := false, trim := 0 }
def noTriangle : Triangle := { v0 := 0, v1 := 0, v2 := 0, m := [] }

/-- The members of a candidate set: BUS and TAPER. -/
def setMembers (g : GeoSec) (c : CandSet) : List (Nat × Nat) := (g.members.drop c.memberOfs).take c.members

/-- The triangles of a candidate set, in triangle-list order. -/
def setTris (g : GeoSec) (c : CandSet) : List Triangle :=
  ((g.trilist.drop c.triOfs).take c.tris).map fun i => g.tris.getD i noTriangle

/-- The raw weights of a triangle at a point (R43, R56). -/
def rawWeights (t : Triangle) (q : Pt) : List Int :=
  (List.range 3).map fun j => q.x * t.m.getD j 0 + q.y * t.m.getD (3 + j) 0 + q.z * t.m.getD (6 + j) 0

/-- The smallest of three weights. -/
def minWeight (r : List Int) : Int := min (r.getD 0 0) (min (r.getD 1 0) (r.getD 2 0))

/-- The triangle whose smallest raw weight is largest, the first of equals (R56). -/
def bestTri (ts : List Triangle) (q : Pt) : Option (Triangle × List Int) :=
  ts.foldl (fun best t =>
    let r := rawWeights t q
    match best with
    | none => some (t, r)
    | some (_, br) => if minWeight r > minWeight br then some (t, r) else best) none

/-- Assigns h[bus] (R56): a bus given a value again keeps the last one. -/
def hPut (h : List (Nat × Nat)) (p : Nat × Nat) : List (Nat × Nat) :=
  if h.any (·.1 == p.1) then h.map fun a => if a.1 = p.1 then p else a else h ++ [p]

/-- The point gains h of mesh panning at one sample point: bus and gain (R56). -/
def pointGains (g : GeoSec) (c : CandSet) (q : Pt) : List (Nat × Nat) :=
  let mem := setMembers g c
  let fallback := mem.map fun m => (m.1, sqrtRhu (2 ^ 44) c.members)
  match bestTri (setTris g c) q with
  | none => fallback
  | some (t, r) =>
    let vs := [t.v0, t.v1, t.v2]
    let gs := (vs.zip r).map fun p => if p.1 ≥ 512 then 0 else p.2.toNat
    if gs.all (· == 0) then fallback
    else (((vs.zip (norm22 gs)).zip gs).filterMap fun p => if p.2 > 0 then some p.1 else none).foldl hPut []

/-- Adds into a table of gains by bus. -/
def accAdd (acc : List (Nat × Nat)) (p : Nat × Nat) : List (Nat × Nat) :=
  if acc.any (·.1 == p.1) then acc.map fun a => if a.1 = p.1 then (a.1, a.2 + p.2) else a else acc ++ [p]

/-- The pan gains of mesh panning, and whether a sample point was saturated (R56). -/
def meshPan (g : GeoSec) (c : CandSet) (p : Pt) (size : Nat) : List (Nat × Nat) × Bool :=
  if size = 0 then (pointGains g c p, false) else
  let r : Int := (min size 131071 : Nat)
  let pts : List Pt := [p, { p with x := p.x + r }, { p with x := p.x - r }, { p with y := p.y + r }, { p with y := p.y - r },
    { p with z := p.z + r }, { p with z := p.z - r }]
  let sp := pts.map satPt
  let acc := (sp.flatMap fun q => pointGains g c q.1).foldl accAdd []
  let acc := acc.filter (·.2 > 0)
  ((acc.map (·.1)).zip (norm22 (acc.map (·.2))), sp.any (·.2))

/-- The pan gains of distance panning (R57). -/
def distancePan (g : GeoSec) (c : CandSet) (p : Pt) (size : Nat) : List (Nat × Nat) :=
  let mem := setMembers g c
  let b := max size c.blur
  let w := mem.map fun m =>
    let s := g.speakers.getD m.1 noSpeaker
    let ss := sq3 p.x p.y p.z s.x s.y s.z + b * b
    if c.rolloff = 0 then sqrtRhu (2 ^ 80) ss else (divRhu (2 ^ 56 : Nat) ss).toNat
  (mem.map (·.1)).zip (norm22 w)

/-- D clamped to [0, D_MAX], and whether it was (R55). -/
def clampDelay (cfg : GeoCfg) (far : Bool) (d : Int) : Nat × Bool :=
  let m : Nat := if far then cfg.fs * 32768 else 201326592
  ((clampI 0 m d).toNat, decide (d < 0 ∨ d > m))

/-- A path whose gain reaches the floor (R60), with what it counts. -/
def mkPath (cfg : GeoCfg) (bus : Nat) (gain : Int × Nat) (d : Nat × Bool) : Option PathTarget × GeoCount :=
  let cnt := { GeoCount.zero with gsat := gain.2 }
  if gain.1.natAbs < cfg.floor then (none, cnt)
  else (some { bus := bus, gain := gain.1, delay := d.1 }, { cnt with dclamp := b2n d.2 })

/-- The paths of mesh and distance panning (R55, R60). -/
def pannedPaths (g : GeoSec) (c : CandSet) (cfg : GeoCfg) (o : ObjIn) (p : Pt) (pan : List (Nat × Nat)) :
    List (Option PathTarget × GeoCount) :=
  let d := clampDelay cfg o.far ((if o.doppler then prop cfg.k (dist16 (sq3 p.x p.y p.z 0 0 0)) else 0) + c.doff)
  pan.map fun b => mkPath cfg b.1 (mulChain b.2 [(g.speakers.getD b.1 noSpeaker).trim, o.gain]) d

/-- The path of one visible member in wavefront mode (R55, R58, R59); none where the member is not visible. -/
def wavePath (g : GeoSec) (c : CandSet) (cfg : GeoCfg) (o : ObjIn) (p : Pt) (m : Nat × Nat) :
    Option (Option PathTarget × GeoCount) :=
  let s := g.speakers.getD m.1 noSpeaker
  let dot := (s.x - p.x) * s.nx + (s.y - p.y) * s.ny + (s.z - p.z) * s.nz
  let vis := if o.focus then decide (dot < 0) else decide (dot > 0)
  if !vis then none else
  let d := dist16 (sq3 p.x p.y p.z s.x s.y s.z)
  let dmin := 16 * c.dmin
  let deff := max d dmin
  let cc : Int := if d ≥ dmin then min (divRhu ((dot.natAbs * 4096 : Nat) : Int) d) one22 else one22
  let a : Int × Nat := match c.law with
    | 0 => (one22, 0)
    | 1 => sat22 (divRhu ((16 * c.dref * 2 ^ 22 : Nat) : Int) deff)
    | _ => sat22 (sqrtRhu (16 * c.dref * 2 ^ 44) deff)
  let gn := mulChain a.1 [cc, ((m.2 * 128 : Nat) : Int), s.trim, o.gain]
  let pr := prop cfg.k d
  some (mkPath cfg m.1 (gn.1, a.2 + gn.2) (clampDelay cfg o.far (if o.focus then c.doff - pr else pr + c.doff)))

/-- Structural insertion sort by a strict order. -/
def insertBy {α : Type} (lt : α → α → Bool) (x : α) : List α → List α
  | [] => [x]
  | y :: t => if lt x y then x :: y :: t else y :: insertBy lt x t

/-- Sorts a list; equal elements keep their order. -/
def sortBy {α : Type} (lt : α → α → Bool) (l : List α) : List α := l.foldl (fun acc x => insertBy lt x acc) []

/-- Paths by gain magnitude, largest first, then by bus (R62). -/
def orderPaths (ps : List PathTarget) : List PathTarget :=
  sortBy (fun a b => decide (a.gain.natAbs > b.gain.natAbs) || (a.gain.natAbs == b.gain.natAbs && decide (a.bus < b.bus))) ps

/-- The evaluation of one object (R55 to R60): its ordered paths and what it counts. -/
def evalObject (g : GeoSec) (cfg : GeoCfg) (o : ObjIn) : List PathTarget × GeoCount :=
  let sp := satPt o.pos
  let base := { GeoCount.zero with clamp := sp.2 }
  match g.csets[o.cset]? with
  | none => ([], { base with badset := true })
  | some c =>
    let fin := fun (ps : List (Option PathTarget × GeoCount)) (extra : GeoCount) =>
      (orderPaths (ps.filterMap (·.1)), (ps.map (·.2)).foldl GeoCount.add (base.add extra))
    match o.mode with
    | 0 =>
      if c.tris = 0 then ([], { base with badset := true })
      else
        let pan := meshPan g c sp.1 o.size
        fin (pannedPaths g c cfg o sp.1 pan.1) { GeoCount.zero with clamp := pan.2 }
    | 1 => fin (pannedPaths g c cfg o sp.1 (distancePan g c sp.1 o.size)) GeoCount.zero
    | _ => fin ((setMembers g c).filterMap (wavePath g c cfg o sp.1)) GeoCount.zero

/-- The cost of an evaluation in units (R49, R64). -/
def evalCost (g : GeoSec) (o : ObjIn) : Nat :=
  match g.csets[o.cset]? with
  | none => 4
  | some c =>
    match o.mode with
    | 0 => 4 + (if o.size = 0 then c.tris else 7 * c.tris)
    | _ => 4 + c.members

/-- E_CAP (R63). -/
def evalCap (cycles : Nat) : Nat := 2 * (cycles - 16384)

end Sys2Proof.Machine
end

