-- ==== Sys2Proof/Machine/Conv.lean ====
section
/-! DEFINITION. Room correction: channels, FIR sets, block work, the head step, set changes, cuts, the test generator
(R100 to R125). -/

namespace Sys2Proof.Machine

open Sys2Proof

/-- Speaker buses present (R4). -/
def busCount (s : State) : Nat := if s.hw.tk2512 then 256 else 512

/-- The engine of a bus and its engine-local index (R101). -/
def convEngine (s : State) (c : Nat) : Nat := if s.hw.tk2512 then 0 else c % 2
def convIndex (s : State) (c : Nat) : Nat := if s.hw.tk2512 then c else c / 2

/-- Channel c. -/
def chanOf (s : State) (c : Nat) : ConvCh := Sparse.get (fun _ => ConvCh.none) s.conv.chans c

/-- Stores channel c. -/
def setChan (s : State) (c : Nat) (v : ConvCh) : State :=
  { s with conv := { s.conv with chans := Sparse.put (fun _ => ConvCh.none) s.conv.chans c v } }

/-- The correction count of a frame (R106). -/
def corrCount (s : State) (n : Int) : Int := n + (if n < s.conv.kSince then s.conv.kOld else s.conv.kOff)

/-- The set a slot holds. -/
def slotSet : FirSlot → Option FirSet
  | .empty => none
  | .converting f => some f
  | .ready f _ => some f

/-- A context that starts on a READY slot, with an empty ring. -/
def newCtx (ch : ConvCh) (q : Nat) : Option ConvCtx :=
  match ch.slots.getD q .empty with
  | .ready f sp => some { slot := q, set := f, spec := sp, ring := [] }
  | _ => none

/-- The lowest-numbered READY slot that holds SETID (R105). -/
def serveSlot (ch : ConvCh) (setid : Nat) : Option Nat :=
  (List.range 4).find? fun q => match ch.slots.getD q .empty with
    | .ready f _ => f.setid == setid
    | _ => false

/-- What a channel runs for a frame (R231). -/
def runFor (ch : ConvCh) (n : Int) : ConvRun :=
  match ch.old with
  | some r => if n < ch.since then r else ch.run
  | none => ch.run

/-- Stores what a channel runs for a frame. -/
def setRunFor (ch : ConvCh) (n : Int) (r : ConvRun) : ConvCh :=
  match ch.old with
  | some _ => if n < ch.since then { ch with old := some r } else { ch with run := r }
  | none => { ch with run := r }

/-- The first frame of the crossfade of a change whose prime has a frame (R117). -/
def xfStart (len : Nat) (g : ConvChg) : Option Int := g.p0.map fun p => p + (primeLen len : Nat)

/-- A change in prime or crossfade gets its context when its prime reaches frame n (R117). -/
def prepRun (ch : ConvCh) (r : ConvRun) (n : Int) : ConvRun :=
  match r.chg with
  | g :: t =>
    match g.p0, g.ctx with
    | some p, none => if p ≤ n then { r with chg := { g with ctx := newCtx ch g.slot } :: t } else r
    | _, _ => r
  | [] => r

/-- Adds a list into a ring, element by element (R108). -/
def ringAdd : List Int → List Int → List Int
  | a :: as, b :: bs => (a + b) :: ringAdd as bs
  | [], bs => bs
  | as, [] => as

/-- The block of DRAM that holds channel c (R116). -/
def convBlock (s : State) (c : Nat) : Nat := getR64 s Reg.CONV_DRBASE_LO Reg.CONV_DRBASE_HI + 606208 * c

/-- The input ring of channel c: the 64 bytes of the frame at place q (R116). -/
def ringAddr (s : State) (c : Nat) (q : Int) : Nat := convBlock s c + 4 * ((16 * q) % 4096).toNat

/-- The record of the spectrum delay line that the b-th block takes (R116; which of the three, assumption 18). -/
def lineAddr (s : State) (c b : Nat) : Nat := convBlock s c + 16384 + 16448 * (b % 3)

/-- The coefficient record of size P and index j in slot q: after the direct taps, in the order of R107 (R116; the order within a
slot, assumption 18). -/
def coefAddr (s : State) (c q len p j : Nat) : Nat :=
  let before := (partitions len).takeWhile fun x => x.1 != p
  convBlock s c + 81920 + 131072 * q + 128 + (before.map fun x => 8 * x.1 + 64).sum + (8 * p + 64) * j

/-- A spectrum record (R116): bins 0 to P as two words each; the exponent follows them (assumption 18). -/
def specBytes (x : Spec) (p : Nat) : Bytes :=
  let b := x.bins.flatMap (fun c => leBytes 4 (unsigned 32 c.1) ++ leBytes 4 (unsigned 32 c.2)) ++ leBytes 4 (unsigned 32 x.e)
  b ++ zeroBytes (8 * p + 64 - b.length)

/-- The spectrum a record holds. -/
def specAt (m : Memory) (a p : Nat) : Spec :=
  let w := fun (i : Nat) => signed 32 (leVal (Memory.readBytes m (a + 4 * i) 4))
  { e := w (2 * p + 2), bins := (List.range (p + 1)).map fun k => (w (2 * k), w (2 * k + 1)) }

/-- The convolution SRAM numbers of sixteen words of a channel: history samples of the frame at place q, and output words for it of the
active context (0) or the reserve one (1). -/
def histKeys (c : Nat) (q : Int) : List Nat := (List.range 16).map fun i => Config.convPlace c (((16 * q) % 32).toNat + i)
def ringKeys (c which n : Nat) (q : Int) : List Nat :=
  (List.range n).map fun i => Config.convPlace c (32 + 4096 * which + (16 * q + (i : Int)).toNat % 4096)

/-- Words of channel c as they read from the convolution SRAM: an uncorrectable one is zero (R441). -/
def sramWords (s : State) (c : Nat) (keys : List Nat) (v : List Int) : List Int × State :=
  let r := openRead s 3 0x600000 (7 + convEngine s c) keys
  (v.zipIdx.map fun x => if r.1.getD x.2 false then 0 else x.1, r.2)

/-- The first bytes of slot q of channel c (R116). -/
def slotAddr (s : State) (c q : Nat) : Nat := convBlock s c + 81920 + 131072 * q

/-- The engine's region lies in DRAM: a take has placed it (R116). -/
def convPlaced (s : State) : Bool := decide (0x1000000000 ≤ getR64 s Reg.CONV_DRBASE_LO Reg.CONV_DRBASE_HI)

/-- What conversion produces of a set, in its slot's area: direct taps, coefficient records, analysis record (R105, R116; the order:
assumption 18). -/
def slotBytes (f : FirSet) (spec : List (Nat × Nat × Spec)) : Bytes :=
  ((List.range 32).flatMap fun i => leBytes 4 (unsigned 32 (f.h.getD i 0))) ++ (spec.flatMap fun x => specBytes x.2.2 x.1) ++
  (analysis f.h).flatMap (leBytes 4)

/-- Slot q of channel c goes into the engine's region. -/
def storeSlot (s : State) (c q : Nat) (x : FirSlot) : State :=
  match x with
  | .ready f spec => if convPlaced s then blockWrite s (slotAddr s c q) (slotBytes f spec) else s
  | _ => s

/-- Bytes [a, a + n) wait for a late write of channel c (R114). -/
def lateWrite (s : State) (c a n : Nat) : Bool := s.conv.miss.any fun m => match m with
  | .write d b k => d == c && decide (b < a + n) && decide (a < b + k)
  | _ => false

/-- The 64 bytes at a of the window of size p are missing: a missed part of it, or a late write they wait for (R114). -/
def windowPart (s : State) (c p a : Nat) : Bool := lateWrite s c a 64 || s.conv.miss.any fun m => match m with
  | .window d q b k => d == c && q == p && decide (b < a + 64) && decide (a < b + k)
  | _ => false

/-- A class 0 read of an engine: whether an uncorrectable error makes it a missed transfer, which counts with the error's own event
in place of DEADLINE_MISS (R114, R434, R441). -/
def convRead (s : State) (c a n : Nat) : Bool × State :=
  let r := eccRead s a n (7 + convEngine s c) 0
  (r.1, if r.1 then raise (addCtr r.2 Reg.CONV_MISS 1) 8 5 else r.2)

/-- The earlier spectra of a block with k > 1 from the delay line: index j and record, from j = 1 on. A record not yet written reads
as zero, one that was missed drops its term (R108, R114, R118). -/
def delayLine (s : State) (c p b k : Nat) : List (Nat × Spec) × State :=
  ((List.range (k - 1)).map (· + 1)).foldl (fun (a : List (Nat × Spec) × State) j =>
    if j > b then a else
    let at_ := lineAddr a.2 c (b - j)
    let r := convRead a.2 c at_ (8 * p + 64)
    if r.1 ∨ r.2.conv.miss.contains (.line c p j) ∨ lateWrite r.2 c at_ (8 * p + 64) then (a.1, r.2)
    else (a.1 ++ [(j, specAt (r.2.mem.filter fun x => decide (at_ ≤ x.1) && decide (x.1 < at_ + 8 * p + 64)) at_ p)], r.2)) ([], s)

/-- One block's work in a context in the window of frame n (R108, R112): the terms whose coefficient record was read, and the output
words P to 2P − 1 of the inverse transform added to its ring. -/
def blockInto (s : State) (c p : Nat) (n : Int) (reserve : Bool) (lines : List (Nat × Spec)) (x : ConvCtx) : ConvCtx × State :=
  let (terms, s) := lines.foldl (fun (a : List (Spec × Spec) × State) l =>
    match x.spec.find? fun h => h.1 == p && h.2.1 == l.1 with
    | none => a
    | some h =>
      let at_ := coefAddr a.2 c x.slot x.set.len p l.1
      let r := convRead a.2 c at_ (8 * p + 64)
      let coef := if convPlaced s then specAt (r.2.mem.filter fun y => decide (at_ ≤ y.1) && decide (y.1 < at_ + 8 * p + 64)) at_ p
        else h.2.2
      if r.1 ∨ r.2.conv.miss.contains (.coef c p l.1 reserve) then (a.1, r.2) else (a.1 ++ [(l.2, coef)], r.2)) ([], s)
  let out := if terms.isEmpty then [] else (ifftWords (specProduct p terms) p).drop p
  if s.fab.inj.isEmpty then ({ x with ring := ringAdd x.ring out }, s) else
  let keys := ringKeys c (b2n reserve) out.length (placeOf s n)
  let r := sramWords s c keys (x.ring.take out.length)
  ({ x with ring := ringAdd (r.1 ++ x.ring.drop out.length) out }, openWrite r.2 3 0x600000 keys)

/-- Sixteen zeros. -/
def zeros16 : List Int := List.replicate 16 0

/-- The last two frames of channel c before frame n as the convolution SRAM holds them: the frame before last, the last (R113). -/
def histWords (s : State) (c : Nat) (n : Int) : List Int × List Int × State :=
  let h := (chanOf s c).hist
  let a := sramWords s c (histKeys c (placeOf s (n - 2))) (h.getD 1 zeros16)
  let b := sramWords a.2 c (histKeys c (placeOf s (n - 1))) (h.getD 0 zeros16)
  (a.1, b.1, b.2)

/-- The input window of a block of size P: the 2P samples before frame n, oldest first: the last two frames from the history, the
earlier ones from the DRAM input ring, of which a missing part reads as zero (R108, R113, R114). The window is one transfer, which
counts once. -/
def blockWindow (s : State) (c p : Nat) (n : Int) : List Int × State :=
  let places := (List.range (p / 8 - 2)).map fun i => placeOf s (n - (p / 8 : Nat) + (i : Int))
  let r := if s.fab.inj.isEmpty then (places.map fun _ => false, s)
    else places.foldl (fun (a : List Bool × State) q =>
      let x := eccRead a.2 (ringAddr a.2 c q) 64 (7 + convEngine s c) 0; (a.1 ++ [x.1], x.2)) ([], s)
  let s := if r.1.any id then raise (addCtr r.2 Reg.CONV_MISS 1) 8 5 else r.2
  let m := s.mem.filter fun x => decide (convBlock s c ≤ x.1) && decide (x.1 < convBlock s c + 16384)
  let old := places.zipIdx.flatMap fun q =>
    let a := ringAddr s c q.1
    if r.1.getD q.2 false || windowPart s c p a then zeros16
    else (List.range 16).map fun i => signed 32 (leVal (Memory.readBytes m (a + 4 * i) 4))
  let h := histWords s c n
  (old ++ h.1 ++ h.2.1, h.2.2)

/-- Whether the work of a block of size P of channel c is due in the window of frame n (R108). -/
def blockDue (s : State) (c p : Nat) (r : ConvRun) (n : Int) : Bool :=
  (partSizes r.len).contains p && !r.done.contains p &&
  (corrCount s n) % ((p / 16 : Nat) : Int) == ((convIndex s c % (p / 16) : Nat) : Int)

/-- The block work of size P of channel c in the window of frame n, into every context of the channel (R108, R117). -/
def blockWork (s : State) (c p : Nat) (n : Int) : State :=
  let ch := chanOf s c
  let r := prepRun ch (runFor ch n) n
  if !blockDue s c p r n then s else
  let k := ((partitions r.len).filter (·.1 == p)).length
  let (w, s) := blockWindow s c p n
  let x := fftReal w 0
  let (old, s) := delayLine s c p r.blocks k
  let lines := (0, x) :: old
  let (ctx, s) := match r.ctx with
    | some t => let y := blockInto s c p n false lines t; (some y.1, y.2)
    | none => (none, s)
  let (chg, s) := match r.chg with
    | g :: t => (match g.ctx with
      | some v => let y := blockInto s c p n true lines v; ({ g with ctx := some y.1 } :: t, y.2)
      | none => (g :: t, s))
    | [] => ([], s)
  let s := if k > 1 then blockWrite s (lineAddr s c r.blocks) (specBytes x p) else s
  setChan s c (setRunFor ch n { r with ctx := ctx, chg := chg, blocks := if k > 1 then r.blocks + 1 else r.blocks, done := p :: r.done })

/-- The head and the ring of one context for a frame (R112): 16 outputs with their saturations, and the context after it.
`w` holds the 32 samples before the frame and its 16 samples. -/
def ctxOut (w : List Int) (x : ConvCtx) : List (Int × Bool) × ConvCtx :=
  let taps := x.set.h.take 32
  let outs := (List.range 16).map fun j =>
    let head := rhu 30 ((List.zipWith (· * ·) taps ((w.drop (j + 1)).take 32).reverse).sum)
    let v := head + x.ring.getD j 0
    (satS 32 v, overS 32 v)
  (outs, { x with ring := x.ring.drop 16 })

/-- Channel c takes its samples of frame n into its history and writes frame n − 1 into its input ring, which runs on whatever the
channel's length (R113, R118). -/
def takeInput (s : State) (c : Nat) (n : Int) (x : List Int) : State :=
  let ch := chanOf s c
  let prev := ch.hist.getD 0 zeros16
  let a := ringAddr s c (placeOf s (n - 1))
  let s := openWrite s 3 0x600000 (histKeys c (placeOf s n))
  let s := if prev = zeros16 ∧ !s.mem.any (fun q => decide (a ≤ q.1) && decide (q.1 < a + 64)) then s
    else blockWrite s a (prev.flatMap fun v => leBytes 4 (unsigned 32 v))
  setChan s c { ch with hist := if x = zeros16 ∧ prev = zeros16 then [] else [x, prev] }

/-- A context whose output words for frame n are as the convolution SRAM gives them (R441). -/
def ringHeard (s : State) (c which : Nat) (n : Int) (x : Option ConvCtx) : Option ConvCtx × State :=
  match x with
  | none => (none, s)
  | some y =>
    if s.fab.inj.isEmpty then (x, s) else
    let r := sramWords s c (ringKeys c which 16 (placeOf s n)) (y.ring.take 16)
    (some { y with ring := r.1 ++ y.ring.drop 16 }, r.2)

/-- The corrected feed of channel c for frame n from its processed bus samples x (R100, R112, R117, R118): the feed, the
saturations counted, and the channel after it. Block work of the frame not yet done is done first. -/
def channelFeed (s : State) (c : Nat) (n : Int) (x : List Int) : List Int × Nat × State :=
  let len := (runFor (chanOf s c) n).len
  if len = 0 then (x, 0, takeInput s c n x) else
  let s := (partSizes len).foldl (fun s p => blockWork s c p n) s
  let ch := chanOf s c
  let r := prepRun ch (runFor ch n) n
  let h := histWords s c n
  let w := h.1 ++ h.2.1 ++ x
  let (ra, s) := ringHeard h.2.2 c 0 n r.ctx
  let a := ra.map (ctxOut w)
  let g := r.chg.head?
  let (rb, s) := ringHeard s c 1 n (g.bind (·.ctx))
  let b := rb.map (ctxOut w)
  let zero := List.replicate 16 ((0 : Int), false)
  let av := (a.map (·.1)).getD zero
  let bv := (b.map (·.1)).getD zero
  let xf : Option (Nat × Nat) := g.bind fun g => (xfStart r.len g).bind fun f =>
    if f ≤ n ∧ n < f + g.x then some ((16 * (n - f)).toNat, 16 * g.x) else none
  let mix : List Int := match xf with
    | some (base, span) => (av.zip bv).zipIdx.map fun q =>
        let j : Int := ((base + q.2 + 1 : Nat) : Int)
        divRhu (q.1.2.1 * j + q.1.1.1 * ((span : Int) - j)) span
    | none => av.map (·.1)
  let held := match r.hold with | some f => decide (n < f) | none => false
  let feed := match r.hold with
    | some f => if n < f then List.replicate 16 0
                else if n = f then mix.zipIdx.map fun v => rhu 4 (v.1 * ((v.2 + 1 : Nat) : Int)) else mix
    | none => mix
  let nsat := if held then 0 else (av.filter (·.2)).length + (if xf.isSome then (bv.filter (·.2)).length else 0)
  let r := { r with ctx := a.map (·.2), done := [], hold := (match r.hold with | some f => if n ≥ f then none else some f | none => none),
                    chg := match r.chg with
                      | g :: t => { g with ctx := b.map (·.2) } :: t
                      | [] => [] }
  (feed, nsat, takeInput (setChan s c (setRunFor ch n r)) c n x)

/-- The generator replaces samples of the channels of its mask (R120). -/
def genSelected (s : State) (c : Nat) : Bool := bit (getR s (Reg.CONV_GEN_MASK + 4 * (c / 32))) (c % 32)

/-- A correction channel with the test generator in front of or behind it (R120), its saturations counted (R112). -/
def correctBus (s : State) (c : Nat) (n : Int) (x : List Int) : List Int × State :=
  let sel := genSelected s c
  let mode := getF s F.CONV_GEN_CTRL_MODE
  let x := match s.conv.gen.out with
    | some g => if sel && mode == 0 then g else x
    | none => x
  let (feed, nsat, s) := channelFeed s c n x
  match s.conv.gen.out with
  | some g => if sel && mode == 1 then (g, s) else (feed, noteSat s nsat)
  | none => (feed, noteSat s nsat)
where
  noteSat (s : State) (k : Nat) : State := if k = 0 then s else raise (addCtr s Reg.CONV_OSAT k) 8 4

/-- 32 steps of the Galois LFSR of R120. -/
def lfsrStep : Nat → Nat → Nat
  | 0, v => v
  | n + 1, v => lfsrStep n (if v % 2 = 1 then (v / 2) ^^^ 0x80200003 else v / 2)

/-- One sample of the generator (R120): noise, taken after the 32 steps of its sample (DESIGN CHOICE, assumption 17), or the sweep with
its end, from which on it is zero. -/
def genSample (s : State) (g : GenSt) : Int × GenSt :=
  let level := signed 24 (getF s F.CONV_GEN_LEVEL_LEVEL)
  let out := fun (v : Int) => satS 32 (rhu 22 (v * level))
  if getF s F.CONV_GEN_CTRL_TYPE = 1 then
    let v := lfsrStep 32 g.lfsr
    (out (signed 32 v / 128), { g with lfsr := v })
  else if getF s F.CONV_GEN_CTRL_TYPE = 2 then
    let fin := getR64 s Reg.CONV_GEN_INCEND_LO Reg.CONV_GEN_INCEND_HI
    if g.ended ∨ g.inc ≥ fin then (0, { g with ended := true }) else
    let phi := (g.phi + g.inc) % 2 ^ 48
    let inc := (rhu 40 ((g.inc * getR64 s Reg.CONV_GEN_RATIO_LO Reg.CONV_GEN_RATIO_HI : Nat) : Int)).toNat
    let a := phi / 2 ^ 36
    let v := 2 * (sweepTable a + rhu 36 ((sweepTable (a + 1) - sweepTable a) * ((phi % 2 ^ 36 : Nat) : Int)))
    (out v, { g with phi := phi, inc := inc })
  else (0, g)

/-- `k` samples of the generator. -/
def genRun (s : State) : Nat → GenSt → List Int × GenSt
  | 0, g => ([], g)
  | k + 1, g =>
    let (v, g) := genSample s g
    let (r, g) := genRun s k g
    (v :: r, g)

/-- Whether the generator runs for frame n: from the frame of its start until it is stopped or its sweep has ended (R120). -/
def genOn (s : State) (n : Int) : Bool :=
  let g := s.conv.gen
  getF s F.CONV_GEN_CTRL_TYPE != 0 && (!g.ended || g.from_ == some n) && (match g.from_ with | some f => decide (f ≤ n) | none => false) &&
  (match g.till with | some t => decide (n < t) | none => true)

/-- The generator's samples for the frame whose processing starts (R120): its state is seeded at its first frame. -/
def genFrame (s : State) (n : Int) : State :=
  if !genOn s n then { s with conv := { s.conv with gen := { s.conv.gen with out := none } } } else
  let g := s.conv.gen
  let g := if g.from_ = some n then
      let seed := getR s Reg.CONV_GEN_SEED
      { g with lfsr := if seed = 0 then 1 else seed, phi := 0, ended := false,
               inc := getR64 s Reg.CONV_GEN_INC0_LO Reg.CONV_GEN_INC0_HI }
    else g
  let (v, g) := genRun s 16 g
  { s with conv := { s.conv with gen := { g with out := some v } } }

/-- One channel at a boundary, with n the frame whose processing starts and F the frame that begins: the outgoing settings are
dropped once used, a prime whose frame has come begins, a crossfade whose frames are processed ends (R117, R231). -/
def channelBoundary (s : State) (c : Nat) (n : Int) : State :=
  let ch := chanOf s c
  let ch := if ch.old.isSome ∧ ch.since ≤ n then { ch with old := none } else ch
  let r := ch.run
  match r.chg with
  | [] => setChan s c ch
  | g :: t =>
    let begin_ := g.p0.isNone && decide (g.fx ≤ labelOf s (n + 1) + primeLen r.len)
    let g := if begin_ then { g with p0 := some (n + 1) } else g
    match xfStart r.len g with
    | some f =>
      if f + g.x ≤ n then
        let x := match g.ctx with | some x => some x | none => newCtx ch g.slot
        raise (addCtr (setChan s c { ch with run := { r with ctx := x, chg := t } }) Reg.CONV_XFDONE 1) 8 2
      else setChan s c { ch with run := { r with chg := g :: t } }
    | none => setChan s c { ch with run := { r with chg := g :: t } }

/-- The transfers missed for the work of the frame just processed are done with (R114). -/
def clearMiss (s : State) : State := { s with conv := { s.conv with miss := [] } }

/-- The convolution engines at a boundary, before any cut: n is the frame whose processing starts. -/
def convBoundary (s : State) (n : Int) : State :=
  genFrame ((s.conv.chans.map (·.1)).foldl (fun s c => channelBoundary s c n) s) n

/-- The frames a change spends in prime and crossfade, first and last (R119). -/
def chgSpan (s : State) (len : Nat) (g : ConvChg) : Int × Int :=
  let p : Int := match g.p0 with
    | some p => p
    | none => (g.fx : Int) - (primeLen len : Nat) + s.tl.z + s.tl.adj
  (p, p + (primeLen len : Nat) + g.x - 1)

/-- Whether one more context of an engine in frames lo to hi would make more than 32 in some frame (R119). -/
def tooMany (s : State) (e c : Nat) (lo hi : Int) : Bool :=
  let spans := s.conv.chans.flatMap fun p =>
    if p.1 != c && convEngine s p.1 == e then p.2.run.chg.map (chgSpan s p.2.run.len) else []
  let spans := spans.filter fun q => decide (lo ≤ q.2) && decide (q.1 ≤ hi)
  ((lo :: spans.map (·.1)).filter fun p => decide (lo ≤ p)).any fun p =>
    decide ((spans.filter fun q => decide (q.1 ≤ p) && decide (p ≤ q.2)).length + 1 > 32)

/-- The checks of R122 to R124 on a change to set f of channel ch at F_x: none if they pass. -/
def adaptCheck (s : State) (ch : ConvCh) (f : FirSet) (fx : Nat) : Option Status :=
  let new := analysis f.h
  let old := match ch.run.ctx with | some x => analysis x.set.h | none => List.replicate 8193 0
  let ceil := getR s Reg.CONV_ADCEIL
  let step := getR s Reg.CONV_ADSTEP
  let floor := getR s Reg.CONV_ADFLOOR
  if new.any (fun n => decide (n > ceil)) then some .adaptCeil
  else if (new.zip old).any (fun p =>
      let a := max p.1 floor
      let b := max p.2 floor
      decide (a * 2 ^ 24 > step * b) || decide (b * 2 ^ 24 > step * a)) then some .adaptStep
  else match ch.lastAd with
    | some l => if fx < l + 60 * fsOf s.tl.rate / 16 then some .adaptRate else none
    | none => none

/-- A rejected change counts (R119, R128). -/
def chgReject (s : State) (st : Status) : State :=
  match st with
  | .convBusy => addCtr s Reg.CONV_BUSYREJ 1
  | .adaptStep => raise (addCtr s Reg.CONV_ADSTEPREJ 1) 8 3
  | .adaptCeil => raise (addCtr s Reg.CONV_ADCEILREJ 1) 8 3
  | .adaptRate => raise (addCtr s Reg.CONV_ADRATEREJ 1) 8 3
  | _ => s

/-- The first check of R119 that a set change fails at its commit. -/
def chgCheck (s : State) (c slot fx x : Nat) : Option Status :=
  let ch := chanOf s c
  let r := ch.run
  match ch.slots.getD slot .empty with
  | .ready f _ =>
    if r.len = 0 ∨ (r.ctx.map (·.slot)) = some slot ∨ f.len ≠ r.len ∨ f.rate ≠ s.tl.rate then some .setInvalid
    else if fx ≤ frameNow s + primeLen r.len then some .framePast
    else
      let sp := chgSpan s r.len { slot := slot, fx := fx, x := x, cut := false, p0 := none, ctx := none }
      if !r.chg.isEmpty || tooMany s (convEngine s c) c sp.1 sp.2 then some .convBusy
      else if getF s F.CONV_ADCTRL_LOCK = 1 then adaptCheck s ch f fx else none
  | _ => some .setNotReady

/-- A set change commits (R117, R119): accepted it takes its commit number and is logged. -/
def setChange (s : State) (c slot fx x : Nat) : Status × State :=
  let x := if x = 0 then getF s F.CONV_XFLEN_FRAMES else x
  match chgCheck s c slot fx x with
  | some st => (st, chgReject s st)
  | none =>
    let ch := chanOf s c
    let lock := getF s F.CONV_ADCTRL_LOCK == 1
    let g : ConvChg := { slot := slot, fx := fx, x := x, cut := false, p0 := none, ctx := none }
    let s := setChan s c { ch with run := { ch.run with chg := [g] }, lastAd := if lock then some fx else ch.lastAd }
    let s := if lock then addCtr s Reg.CONV_ADOK 1 else s
    let f := (slotSet (ch.slots.getD slot .empty)).getD { setid := 0, len := 0, rate := 0, adaptive := false, h := [] }
    (.ok, logCommit (stamp s) 0x0802 [(2, (c : Int)), (1, (slot : Int)), (1, (b2n f.adaptive : Int)), (4, (f.setid : Int)), frameF fx])

/-- A slot that a load may not touch: the active slot or the target of a change (R104). -/
def slotBusy (s : State) (c slot : Nat) : Bool :=
  let r := (chanOf s c).run
  (r.ctx.map (·.slot)) == some slot || r.chg.any (·.slot == slot)

/-- The checks of R104 on a container, in order, and the set it holds. -/
def parseSet (b : Bytes) (got size : Nat) : Except Status FirSet :=
  let len := beAt b 8 1
  let n := tapsOf len
  if len < 1 ∨ len > 8 ∨ got < 20 ∨ got ≠ 20 + 4 * n ∨ got ≠ size then .error .setInvalid
  else if crc32c (b.take (16 + 4 * n)) ≠ beAt b (16 + 4 * n) 4 then .error .setCrc
  else if beAt b 0 4 ≠ 0x46495253 ∨ beAt b 9 1 > 3 ∨ beAt b 4 4 = 0 ∨ beAt b 12 4 ≠ 0 ∨ beAt b 10 2 > 1 then .error .setInvalid
  else .ok { setid := beAt b 4 4, len := len, rate := beAt b 9 1, adaptive := beAt b 10 2 == 1,
             h := (List.range n).map fun t => beAtS b (16 + 4 * t) 4 }

/-- SET_END: the container of the open load is checked and its conversion starts (R104). -/
def setEnd (s : State) : Status × State :=
  match s.conv.load with
  | none => (.setInvalid, s)
  | some l =>
    let s := { s with conv := { s.conv with load := none } }
    match parseSet l.bytes l.got l.size with
    | .error st => (st, s)
    | .ok f =>
      if slotBusy s l.bus l.slot then (.convBusy, addCtr s Reg.CONV_BUSYREJ 1) else
      let ch := chanOf s l.bus
      (.ok, setChan s l.bus { ch with slots := ch.slots.set l.slot (.converting f) })

/-- Conversion ends: the slot is READY (R104). -/
def conversionDone (s : State) (c slot : Nat) : State :=
  let ch := chanOf s c
  match ch.slots.getD slot .empty with
  | .converting f =>
    let x : FirSlot := .ready f (convertSet f.len f.h)
    raise (storeSlot (setChan s c { ch with slots := ch.slots.set slot x }) c slot x) 8 1
  | _ => s

/-- What a cut asks of correction. -/
structure ConvCut where
  len : List Nat
  setid : List Nat
  xflen : Nat
  hard : Bool
  first : Bool
  rateChange : Bool
  /-- the cut frame's position -/
  pos : Int
  /-- its frame number at the incoming rate -/
  label : Nat
  /-- CONV_DRBASE of the outgoing take -/
  drold : Option Nat

/-- The input rings and delay lines of every channel are zero and its sets stand in the region: the first cut (R118). -/
def clearRings (s : State) : State :=
  let base := getR64 s Reg.CONV_DRBASE_LO Reg.CONV_DRBASE_HI
  let mine := fun (p : Nat) => decide (base ≤ p) && decide (p < base + 606208 * busCount s) && decide ((p - base) % 606208 < 81920)
  (s.conv.chans.flatMap fun x => x.2.slots.zipIdx.map fun y => (x.1, y.2, y.1)).foldl (fun s x => storeSlot s x.1 x.2.1 x.2.2)
    (whole { s with mem := s.mem.filter fun p => !mine p.1 } mine)

/-- The input rings, delay lines and slots run on in the region of the incoming take (R118; assumption 18). -/
def moveRings (s : State) (old : Nat) : State :=
  let new := getR64 s Reg.CONV_DRBASE_LO Reg.CONV_DRBASE_HI
  if old = new then s else
  let mine := fun (base p : Nat) =>
    decide (base ≤ p) && decide (p < base + 606208 * busCount s)
  let gone := s.mem.filter fun p => mine old p.1
  let m := gone.foldl (fun m p => Memory.write m (p.1 - old + new) p.2) (s.mem.filter fun p => !mine old p.1 && !mine new p.1)
  whole { s with mem := m } fun a => mine old a || mine new a

/-- A channel at a cut (R118): whether it is re-primed, how many changes it loses, and, where it queues, the frame it joins at
and its slot. A crossfade that begins with the cut frame is in progress and completes. A change that an earlier cut queued and that
has not come to its crossfade gives way to this cut's, uncounted. A channel that becomes bypass drops its running crossfade, which
counts (DESIGN CHOICE, assumption 77). -/
def channelCut (s : State) (q : ConvCut) (c : Nat) : State × Nat × Nat × Option (Int × Nat) :=
  let ch := { chanOf s c with lastAd := none }
  let len := q.len.getD c 0
  let serve := serveSlot ch (q.setid.getD c 0)
  let fresh := fun (h : Option Int) => { ConvRun.off with len := len, ctx := if len = 0 then none else serve.bind (newCtx ch), hold := h }
  if q.first then (setChan s c { ch with run := fresh none, old := none, hist := [] }, 0, 0, none)
  else if q.hard && (q.rateChange || len != ch.run.len) then
    let h := if len = 0 then none else some (q.pos + (primeLen len : Nat))
    (setChan s c { ch with old := some ch.run, since := q.pos, run := fresh h }, b2n (len != 0), ch.run.chg.length, none)
  else
    let live := ch.run.chg.filter fun g => match xfStart ch.run.len g with
      | some f => decide (f ≤ q.pos)
      | none => false
    let live := live.take 1
    let lost := (ch.run.chg.filter fun g => !g.cut && !live.contains g).length
    let s := setChan s c { ch with run := { ch.run with chg := live } }
    let curId : Option Nat := match live with
      | g :: _ => (slotSet (ch.slots.getD g.slot .empty)).map (·.setid)
      | [] => ch.run.ctx.map (·.set.setid)
    let join : Int := match live with
      | g :: _ => ((xfStart len g).getD q.pos) + g.x
      | [] => q.pos
    match serve with
    | some k => if len = 0 ∨ curId = some (q.setid.getD c 0) then (s, 0, lost, none) else (s, 0, lost, some (join, k))
    | none => (s, 0, lost, none)

/-- The batches of a queue (R118 item 3): entries bus, joining frame, slot, in the order in which they join; each gets the frame its
prime starts with. -/
def cutBatches (glen : Nat → Nat) (x : Nat) : Nat → Int → List (Nat × Int × Nat) → List (Nat × Nat × Int)
  | 0, _, _ => []
  | fuel + 1, p, items =>
    let avail := (items.filter fun i => decide (i.2.1 ≤ p)).take 32
    match avail with
    | [] =>
      match items with
      | [] => []
      | i :: t => cutBatches glen x fuel (t.foldl (fun m j => min m j.2.1) i.2.1) items
    | _ =>
      let fin := avail.foldl (fun m i => max m (p + ((glen i.1 + x : Nat) : Int))) p
      (avail.map fun i => (i.1, i.2.2, p)) ++ cutBatches glen x fuel fin (items.filter fun i => !avail.contains i)

/-- A cut applies its correction sets (R106, R118). K is set where every channel but those left in bypass is re-primed (assumption
78). -/
def convCut (s : State) (q : ConvCut) : State :=
  let s := match q.drold with
    | some d => if q.first then clearRings s else moveRings s d
    | none => clearRings s
  let one := fun (a : State × Nat × Nat × Bool × List (Nat × Int × Nat)) (c : Nat) =>
    let (s, rep, lost, aff, items) := a
    let hit := q.hard && !q.first && (q.rateChange || q.len.getD c 0 != (chanOf s c).run.len)
    let (s, r, l, j) := channelCut s q c
    (s, rep + r, lost + l, aff || hit, match j with | some (p, k) => items ++ [(c, p, k)] | none => items)
  let (s, rep, lost, aff, items) := (List.range (busCount s)).foldl one (s, 0, 0, false, [])
  let s := if lost = 0 then s else addCtr s Reg.CONV_XFCANCEL lost
  let glen := fun c => primeLen ((chanOf s c).run.len)
  let plan := [0, 1].flatMap fun e =>
    cutBatches glen q.xflen 2048 q.pos (sortBy (fun a b => decide (a.2.1 < b.2.1)) (items.filter fun i => convEngine s i.1 == e))
  let s := plan.foldl (fun s i =>
    let ch := chanOf s i.1
    let g : ConvChg := { slot := i.2.1, fx := labelOf s (i.2.2 + (primeLen ch.run.len : Nat)), x := q.xflen, cut := true, p0 := some i.2.2, ctx := none }
    setChan s i.1 { ch with run := { ch.run with chg := ch.run.chg ++ [g] } }) s
  let every := rep != 0 && rep == ((q.len.take (busCount s)).filter (· != 0)).length
  let s := if q.first || q.rateChange || every then
      { s with conv := { s.conv with kOld := s.conv.kOff, kSince := q.pos, kOff := (q.label : Int) - q.pos } }
    else s
  let s := if aff then logEv s 0x0801 [frameF q.label, (2, (rep : Int))] else s
  if rep = 0 then s else raise s 8 0

/-- U of R102. -/
def convBudget (rate : Nat) : Nat := frameCycles rate - 16384

/-- The scheduled load of engine e, the reserve included (R102). -/
def convSched (small : Bool) (len : List Nat) (e : Nat) : Nat :=
  let cs := (len.zipIdx.filter fun p => (if small then e == 0 && decide (p.2 < 256) else p.2 % 2 == e)).map fun p => convCost p.1
  cs.sum + 32 * cs.foldl max 0

/-- STATE of a channel entry for the frame n (R129). -/
def chanState (ch : ConvCh) (n : Int) : Nat :=
  let r := runFor ch n
  match r.hold with
  | some f => if n < f then 4 else 0
  | none =>
    match r.chg with
    | [] => 0
    | g :: _ =>
      match g.p0, xfStart r.len g with
      | some p, some f => if n < p then (if g.cut then 3 else 0) else if n < f then 1 else 2
      | _, _ => if g.cut then 3 else 0

/-- The eight words of a channel entry (R129). -/
def chanWords (s : State) (c : Nat) (ch : ConvCh) (n : Int) : List Nat :=
  let r := ch.run
  let act := (r.ctx.map (·.slot)).getD 0
  let tgt := (r.chg.head?.map (·.slot)).getD 0
  let ss := ch.slots.zipIdx.map fun q => (match q.1 with
    | .empty => 0
    | .converting _ => 1
    | .ready f _ => if f.len = r.len ∧ f.rate = s.tl.rate then 2 else 3) * 4 ^ q.2
  [chanState ch n * 2 ^ 28 + r.len * 2 ^ 24 + convEngine s c * 2 ^ 23 + act * 2 ^ 18 + tgt * 2 ^ 16, ss.sum] ++
  ch.slots.map (fun q => ((slotSet q).map (·.setid)).getD 0) ++
  [((r.chg.head?.map (·.fx)).getD 0) % 2 ^ 32, (ch.lastAd.getD 0) % 2 ^ 32]

/-- Contexts of engine e in prime or crossfade for frame n (R127). -/
def xfActive (s : State) (e : Nat) (n : Int) : Nat :=
  (s.conv.chans.filter fun p => convEngine s p.1 == e && (chanState p.2 n == 1 || chanState p.2 n == 2)).length

/-- The CONV registers at a boundary; n is the frame whose processing starts, F the frame that begins (R127, R129). -/
def publishConv (s : State) (n : Int) (active : Bool) : State :=
  let s := setR s Reg.CONV_STATUS (b2n s.conv.gen.out.isSome * 16 + b2n s.conv.capFrom.isSome * 8 + b2n active * 4 +
    (if s.hw.tk2512 then 1 else 3))
  let s := setR s Reg.CONV_XFACT (xfActive s 1 n * 65536 + xfActive s 0 n)
  let len := match s.take.active with | some t => t.corr.len | none => []
  let s := setR (setR s Reg.CONV_SCHED (convSched s.hw.tk2512 len 0)) (Reg.CONV_SCHED + 4) (convSched s.hw.tk2512 len 1)
  let s := setR s Reg.CONV_BUDGET (convBudget s.tl.rate)
  let s := if active then setR64 s Reg.CONV_KCOUNT_LO Reg.CONV_KCOUNT_HI (unsigned 60 (corrCount s n)) else s
  let rows := (List.range (busCount s)).flatMap fun c =>
    match s.conv.chans.find? (·.1 == c) with
    | some p => ((chanWords s c p.2 n).take 8).zipIdx.map fun w => (Reg.CONV_CH0 + 32 * c + 4 * w.2, BitVec.ofNat 32 w.1)
    | none => if convEngine s c = 1 then [(Reg.CONV_CH0 + 32 * c, BitVec.ofNat 32 (2 ^ 23))] else []
  { s with regs := Sparse.replaceRange regDefault s.regs Reg.CONV_CH0 (Reg.CONV_CH0 + 0x4000) rows }

/-- The engine cycles a frame used (R127): the cost of every running channel, and of every context in prime or crossfade. -/
def convUsed (s : State) (n : Int) : State :=
  [0, 1].foldl (fun s e =>
    let u := (s.conv.chans.map fun p =>
      if convEngine s p.1 = e then
        let r := runFor p.2 n
        convCost r.len * (if chanState p.2 n = 1 ∨ chanState p.2 n = 2 then 2 else 1)
      else 0).sum
    maxF (setR s (Reg.CONV_USED + 4 * e) u) (F.CONV_PEAK_CYCLES.plus (4 * e)) u) s

/-- A write of CONV_CAP_CTRL commits at the frame of position pos, whose first sample has media index idx (R125). -/
def capCommit (s : State) (pos : Int) (idx : Nat) : State :=
  if getF s F.CONV_CAP_CTRL_ENABLE = 1 then
    match s.conv.capFrom with
    | some _ => s
    | none => setR64 { s with conv := { s.conv with capFrom := some pos } } Reg.CONV_CAP_START_LO Reg.CONV_CAP_START_HI idx
  else { s with conv := { s.conv with capFrom := none } }

/-- One captured word: ring 0 the corrected feed, ring 1 the decimator output, sample index i (R116, R125). -/
def capStore (s : State) (ring i : Nat) (v : Int) : State :=
  let base := getR s Reg.CONV_DRBASE_LO + 2 ^ 32 * getR s Reg.CONV_DRBASE_HI
  let a := base + 606208 * busCount s + 262144 * ring + 4 * (i % 65536)
  blockWrite s a (leBytes 4 (unsigned 32 v))

/-- CONV_BLOCK_WORK (R108): the block work of size p of channel c in the window of the frame under processing. -/
def execConvBlockWork (c p : Nat) (s : State) : Host.Outcome State Fault Refusal := .next (blockWork s c p (posNow s - 1))

/-- SET_CONVERSION_DONE (R104). -/
def execSetConversionDone (c slot : Nat) (s : State) : Host.Outcome State Fault Refusal := .next (conversionDone s c slot)

end Sys2Proof.Machine
end

