-- ==== Sys2Proof/Machine/PathMath.lean ====
section
/-! DEFINITION. The arithmetic of the path engines: admission, slots, ramps, jumps, fractional delay, bus accumulators
(R70 to R95). -/

namespace Sys2Proof.Machine

open Sys2Proof

/-- C1, C2 and C3 and the interpolated value of R85 before SAT32. -/
def farrowRaw (a b c e : Int) (f : Nat) : Int :=
  let c1 := -2 * a - 3 * b + 6 * c - e
  let c2 := 3 * a - 6 * b + 3 * c
  let c3 := -a + 3 * b - 3 * c + e
  let n := (f * 2 ^ 30 : Nat) * c1 + (f * f * 2 ^ 15 : Nat) * c2 + (f * f * f : Nat) * c3
  b + divRhu n (6 * 2 ^ 45)

/-- The taps of a delay at a sample (R84): `x i` is the sample i sample periods before the newest captured one counts as
`newest`; `at_` reads the input of the object at a ring position. -/
def farrow (at_ : Int → Int) (newest n : Int) (d : Nat) : Int × Nat :=
  let i : Int := (d / 32768 : Nat)
  let tap := fun (j : Int) => at_ (min j newest)
  let y := farrowRaw (tap (n - i + 1)) (tap (n - i)) (tap (n - i - 1)) (tap (n - i - 2)) (d % 32768)
  (satS 32 y, b2n (overS 32 y))

/-- Whether an entry is a ramp in its tick (R80). -/
def isRamp (t : TickCtx) (e : PathEntry) : Bool := decide (((e.d1 : Int) - e.d0).natAbs ≤ t.slew * t.m)

/-- The sample value and gain of an admitted path at sample k of its tick, with Farrow saturations (R80 to R83). -/
def pathSample (t : TickCtx) (e : PathEntry) (fr : Nat → Int × Nat) (k : Nat) : Int × Int × Nat :=
  if !e.hist then
    let v := fr e.d1
    (v.1, (if k ≤ 16 then divRhu (e.g1 * k) 16 else e.g1), v.2)
  else
    let g := e.g0 + divRhu ((e.g1 - e.g0) * k) t.m
    if isRamp t e then
      let v := fr ((e.d0 : Int) + divRhu (((e.d1 : Int) - e.d0) * k) t.m).toNat
      (v.1, g, v.2)
    else if e.jump && decide (k ≤ 16) then
      let p := fr e.d1
      let q := fr e.d0
      (divRhu (p.1 * k + q.1 * (16 - (k : Int))) 16, g, p.2 + q.2)
    else
      let v := fr e.d1
      (v.1, g, v.2)

/-- The sample value and gain of a path that fades out (R83). -/
def fadeSample (e : PathEntry) (fr : Nat → Int × Nat) (k : Nat) : Int × Int × Nat :=
  let v := fr e.d0
  (v.1, e.g0 + divRhu (-e.g0 * k) 16, v.2)

/-- Sixteen zeros. -/
def zero16 : List Int := List.replicate 16 0

/-- Adds sixteen values into the accumulators of one bus (R93). -/
def accBus (acc : Sparse (List Int)) (bus : Nat) (xs : List Int) : Sparse (List Int) :=
  let old := Sparse.get (fun _ => zero16) acc bus
  Sparse.put (fun _ => zero16) acc bus ((old.zip xs).map fun p => p.1 + p.2)

/-- A far window covers a ring position of the frame at position `pos` (R90). -/
def FarWin.covers (w : FarWin) (j : Int) : Bool :=
  let lo := 16 * w.pos - w.a - 224
  decide (lo ≤ j) && decide (j ≤ lo + 255)

/-- The list entries of a frame's far objects for R90: object, smallest and largest integer delay. -/
def farDelays (l : List PathEntry) : List (Nat × Nat × Nat) :=
  l.foldl (fun acc e =>
    match e.far with
    | none => acc
    | some _ =>
      let d := e.d1 / 32768
      if acc.any (·.1 == e.obj) then
        acc.map fun x => if x.1 = e.obj then (x.1, min x.2.1 d, max x.2.2 d) else x
      else acc ++ [(e.obj, d, d)]) []

/-- The delay A of the window for integer delays [dmin, dmax], none where no window is fetched (R90). -/
def farA (dmin dmax : Nat) : Option Nat := if dmax < 6112 then none else some (16 * ((max dmin 6112 - 32) / 16))

/-- The first `n` of the ordered targets as list entries: DBASE, DOFS and history (R70 to R75). An object not evaluated
(`kept`) has its entries copied; the count says how many other delay offsets were saturated (R72). -/
def admitPaths (old : List PathEntry) (farOf : Nat → Option Nat) (kept : Nat → Bool) (n : Nat) (objs : List (Nat × ObjTargets)) :
    List PathEntry × Nat :=
  objs.foldl (fun (acc : List PathEntry × Nat) o =>
    let mine := old.filter fun q => q.obj == o.1
    let ps := (o.2.paths.take (n - acc.1.length)).map fun p =>
      let q := mine.find? fun q => q.bus == p.bus
      ((match q with | some q => if kept o.1 then q.d1 else p.delay | none => p.delay), p, q)
    match ps with
    | [] => acc
    | h :: t =>
      let b := t.foldl (fun m x => min m x.1) h.1
      let es := ps.map fun x =>
        let d := b + min (x.1 - b) 0xFFFFFFF
        let (g0, d0) := match x.2.2 with | some q => (q.g1, q.d1) | none => (0, 0)
        let g1 := match x.2.2 with | some q => if kept o.1 then q.g1 else x.2.1.gain | none => x.2.1.gain
        ({ obj := o.1, bus := x.2.1.bus, g1 := g1, d1 := d, hist := x.2.2.isSome, g0 := g0, d0 := d0, far := farOf o.1,
           jump := false } : PathEntry)
      (acc.1 ++ es, acc.2 + (ps.filter fun x => decide (x.1 - b > 0xFFFFFFF)).length)) ([], 0)

/-- The outcome of granting the slots of a tick's first frame (R77): the tick, jumps granted, jumps stepped, fade-outs cut. -/
structure SlotGrant where
  tick : TickCtx
  jumps : Nat
  steps : Nat
  cuts : Nat
deriving DecidableEq, Repr

/-- Grants the free slots of B to fade-outs in the order of the previous list, then to jumps in the order of the new (R77). -/
def grantSlots (start : Int) (m slew b : Nat) (prev new : List PathEntry) : SlotGrant :=
  let free := b - new.length
  let gone := prev.filter fun p => !(new.any fun e => e.obj == p.obj && e.bus == p.bus)
  let fades := (gone.take free).map fun p => { p with g0 := p.g1, d0 := p.d1, hist := true, jump := false }
  let t0 : TickCtx :=
    { start := start, m := m, slew := slew, list := new, fades := fades, slots0 := 0, slots1 := new.length, area := 0, size := 0 }
  let r := new.foldl (fun (acc : List PathEntry × Nat × Nat × Nat) e =>
    if e.hist && !isRamp t0 e then
      if acc.2.1 > 0 then (acc.1 ++ [{ e with jump := true }], acc.2.1 - 1, acc.2.2.1 + 1, acc.2.2.2)
      else (acc.1 ++ [e], 0, acc.2.2.1, acc.2.2.2 + 1)
    else (acc.1 ++ [e], acc.2)) ([], free - fades.length, 0, 0)
  { tick := { t0 with list := r.1, slots0 := new.length + fades.length + r.2.2.1 },
    jumps := r.2.2.1, steps := r.2.2.2, cuts := gone.length - fades.length }

/-- The bytes of a path list (R70, R71). -/
def listBytes (l : List PathEntry) : Bytes :=
  let objs := l.foldl (fun (acc : List Nat) e => if acc.contains e.obj then acc else acc ++ [e.obj]) []
  (objs.flatMap fun o =>
    let es := l.filter fun e => e.obj == o
    let base := es.foldl (fun m e => min m e.d1) ((es.head?.map (·.d1)).getD 0)
    let far := (es.head?.bind (·.far))
    leBytes 4 (b2n far.isSome * 2 ^ 16 + far.getD 0 * 2 ^ 10 + o) ++ leBytes 4 es.length ++ leBytes 4 base ++ leBytes 4 0 ++
    es.flatMap fun e => leBytes 4 (e.bus % 256 * 2 ^ 24 + unsigned 24 e.g1) ++
      leBytes 4 (b2n e.hist * 2 ^ 29 + e.bus / 256 * 2 ^ 28 + (e.d1 - base)))
  ++ leBytes 4 (2 ^ 31) ++ zeroBytes 12

/-- One entry of a group as the engines read it: the previous targets are those of the same pair in the previous list, which the
tick holds; a pair the tick does not hold has none (R71, R73). -/
def readEntry (m : Memory) (t : TickCtx) (obj base : Nat) (far : Option Nat) (a : Nat) : PathEntry :=
  let w0 := leVal (Memory.readBytes m a 4)
  let w1 := leVal (Memory.readBytes m (a + 4) 4)
  let bus := bits w0 31 24 + 256 * bits w1 28 28
  let q := t.list.find? fun e => e.obj == obj && e.bus == bus
  { obj := obj, bus := bus, g1 := signed 24 (w0 % 2 ^ 24), d1 := base + w1 % 2 ^ 28, hist := bit w1 29 && q.isSome,
    g0 := (q.map (·.g0)).getD 0, d0 := (q.map (·.d0)).getD 0, far := far, jump := (q.map (·.jump)).getD false }

/-- The groups of a list area from address a up to `stop`: where each lies, its bytes, its entries (R70, R71). -/
def readGroups (m : Memory) (t : TickCtx) (stop : Nat) : Nat → Nat → List (Nat × Nat × List PathEntry)
  | 0, _ => []
  | n + 1, a =>
    let h := leVal (Memory.readBytes m a 4)
    let len := 16 + 8 * (leVal (Memory.readBytes m (a + 4) 4) % 1024)
    if bit h 31 ∨ a + len + 16 > stop then [] else
    let far := if bit h 16 then some (bits h 15 10) else none
    let base := leVal (Memory.readBytes m (a + 8) 4)
    (a, len, (List.range ((len - 16) / 8)).map fun i => readEntry m t (h % 1024) base far (a + 16 + 8 * i)) ::
      readGroups m t stop n (a + len)

/-- The groups of the list of a tick, as its area holds them (R69). -/
def tickGroups (m : Memory) (t : TickCtx) : List (Nat × Nat × List PathEntry) :=
  if t.size = 0 then []
  else readGroups (m.filter fun p => decide (t.area ≤ p.1) && decide (p.1 < t.area + t.size)) t (t.area + t.size) 1024 t.area

/-- The largest B at a rate: 393,216 at single rate and 196,608 at double rate, half on the TK2512 (R4, R74). -/
def maxBudget (small double : Bool) : Nat :=
  let b := if double then 196608 else 393216
  if small then b / 2 else b

end Sys2Proof.Machine
end

