-- ==== Sys2Proof/Machine/Xpt.lean ====
section
/-! DEFINITION. The crosspoint, monitor outputs, meters, mutes and the steps of the safety stage (R191 to R207). -/

namespace Sys2Proof.Machine

open Sys2Proof

/-- The value of a change at sample k (1 to 16) of frame n (R194). -/
def Ramp.value (r : Ramp) (n : Int) (k : Nat) : Int :=
  let d : Int := 16 * (n - r.start) + k
  if d ≥ r.len then r.g1 else if d ≤ 0 then r.g0 else r.g0 + divRhu ((r.g1 - r.g0) * d) r.len

/-- The change of a node that holds in frame n. -/
def Node.ramp (x : Node) (n : Int) : Ramp := if x.cur.start ≤ n then x.cur else x.prev

/-- The gain of a node at sample k of frame n. -/
def Node.gain (x : Node) (n : Int) (k : Nat) : Int := (x.ramp n).value n k

/-- A node is active in a frame (R192, R195). -/
def Node.active (x : Node) (n : Int) : Bool :=
  let r := x.ramp n
  r.g1 != 0 || (r.g0 != 0 && decide (16 * (n - r.start) < r.len))

/-- A node of a table. -/
def nodeOf (t : Sparse Node) (out inp : Nat) : Node := Sparse.get (fun _ => Node.zero) t (512 * out + inp)

/-- Active nodes of a table in a frame (R192). -/
def activeNodes (t : Sparse Node) (n : Int) : Nat := (t.filter fun p => p.2.active n).length

/-- The ramp length of a RAMP code (R194); a step has length 1. -/
def rampLen (code : Nat) : Nat := [16, 1, 64, 256].getD code 16

/-- A node gets a new gain from the frame at position n on: from the gain applied to the last sample before it (R193, R194). -/
def setNode (t : Sparse Node) (out inp : Nat) (g : Int) (ramp : Nat) (n : Int) : Sparse Node :=
  let x := nodeOf t out inp
  let before := if x.cur.start < n then x.cur else x.prev
  Sparse.put (fun _ => Node.zero) t (512 * out + inp)
    { cur := { g0 := before.value (n - 1) 16, g1 := g, len := rampLen ramp, start := n }, prev := before }

/-- A rejected node write (R192, R193). -/
def nodeReject (s : State) (out inp : Nat) (log : Bool) : State :=
  let s := raise (addCtr s Reg.XPT_NODEREJ 1) 11 0
  if log then logEv s 0x0B01 [(2, (out : Int)), (2, (inp : Int))] else s

/-- Outputs beyond the crosspoint, and speaker buses absent on the TK2512 (R191, R193). -/
def outAbsent (s : State) (out : Nat) : Bool := decide (busCount s ≤ out) && decide (out < 512)

/-- A write of XPT_NGAIN commits (R193, R194). -/
def ngainCommit (s : State) (v : Nat) : State :=
  let out := getF s F.XPT_NSEL_OUT
  let inp := getF s F.XPT_NSEL_IN
  let n := posNow s
  let g := signed 24 v
  let x := nodeOf s.xpt.nodes out inp
  let s := if outAbsent s out then nodeReject s out inp false
    else if out ≥ 640 then nodeReject s out inp true
    else if g != 0 && !x.active n && decide (activeNodes s.xpt.nodes n ≥ 16384) then nodeReject s out inp true
    else { s with xpt := { s.xpt with nodes := setNode s.xpt.nodes out inp g (bits v 25 24) n } }
  if getF s F.XPT_NSEL_INC = 1 then setF s F.XPT_NSEL_IN ((inp + 1) % 512) else s

/-- What a read of XPT_NGAIN returns (R193): the target gain of the selected node. -/
def ngainRead (s : State) : Nat :=
  let out := getF s F.XPT_NSEL_OUT
  if outAbsent s out ∨ out ≥ 640 then 0
  else unsigned 24 (nodeOf s.xpt.nodes out (getF s F.XPT_NSEL_IN)).cur.g1

/-- The nodes of a take's preset, in force from frame n without a ramp (R195, R214). -/
def presetNodes (nodes : List (Nat × Nat × Int)) (n : Int) : Sparse Node :=
  nodes.foldl (fun t x =>
    let r : Ramp := { g0 := x.2.2, g1 := x.2.2, len := 1, start := n - 1 }
    Sparse.put (fun _ => Node.zero) t (512 * x.1 + x.2.1) { cur := r, prev := r }) []

/-- Forgets nodes that have ended at zero before frame n. -/
def dropNodes (t : Sparse Node) (n : Int) : Sparse Node := t.filter fun p => p.2.active n || decide (p.2.cur.start > n)

/-- The crosspoint terms of frame n into the accumulators of buses and monitor outputs (R191, R193): key 0 to 639. -/
def xptTerms (t : Sparse Node) (xin : Sparse (List Int)) (n : Int) (acc : Sparse (List Int)) : Sparse (List Int) :=
  t.foldl (fun acc p =>
    let x := Sparse.get (fun _ => zero16) xin (p.1 % 512)
    if p.2.active n && x != zero16 then
      accBus acc (p.1 / 512) (x.zipIdx.map fun v => v.1 * p.2.gain n (v.2 + 1))
    else acc) acc

/-- Requantization of sixteen accumulators: SAT32(RHU(acc / 2^22)), with the saturations (R95, R191). -/
def requant (acc : List Int) : List Int × Nat :=
  let v := acc.map (rhu 22)
  (v.map (satS 32), (v.filter (overS 32)).length)

/-- Monitor configurations in force, from the registers (R196). -/
def monRegs (s : State) : List Nat := (List.range 128).map fun m => getR s (Reg.XPT_MONCFG + 4 * m)

/-- Step 1 of the safety stage (R198): the ceiling, and whether it changed a sample. -/
def ceiling (c : Nat) (x : List Int) : List Int × Bool :=
  let y := x.map fun v => clampI (-(c : Int)) c v
  (y, y != x)

/-- Step 3 (R198). -/
def hardClip (x : List Int) : List Int × Bool :=
  let y := x.map fun v => clampI (-16777216) 16777215 v
  (y, y != x)

/-- The ceiling of a channel from the registers (R198, R205). -/
def ceilReg (s : State) (ch : Nat) : Nat :=
  let sel := bits (getR s (Reg.XPT_CEILSEL + 4 * (ch / 8))) (4 * (ch % 8) + 2) (4 * (ch % 8))
  getF s (F.XPT_CEIL_C.plus (4 * sel))

/-- A blend over sixteen samples: RHU((new × k + old × (16 − k)) / 16) (R196, R229). -/
def blend16 (old new : List Int) : List Int :=
  (old.zip new).zipIdx.map fun p =>
    let k : Int := ((p.2 + 1 : Nat) : Int)
    divRhu (p.1.2 * k + p.1.1 * (16 - k)) 16

/-- The output of a monitor configuration before its ceiling: the mix or the tapped feed after the safety stage (R196). -/
def monOut (cfg : Nat) (mix : List Int) (feed : Nat → List Int) : List Int :=
  if bit cfg 31 then feed (cfg % 512) else mix

/-- A monitor output with the crossfade of a change of configuration (R196). A copy of a feed is taken here before steps 2 and 3
of R198 and passes them with its feed, so that it leaves as the feed leaves; where it is blended it is clipped first, as its feed
is (DEDUCED, assumption 82). -/
def monBlend (prev cur : Nat) (mix : List Int) (feed : Nat → List Int) : List Int :=
  if prev = cur then monOut cur mix feed
  else
    let clip := fun b => (hardClip (feed b)).1
    blend16 (monOut prev mix clip) (monOut cur mix clip)

/-- The monitor output copies a feed in this frame and blends nothing. -/
def monCopies (prev cur : List Nat) (m : Nat) : Bool := prev.getD m 0 == cur.getD m 0 && bit (cur.getD m 0) 31

/-- The mute gain of a frame at sample k (R202), Q2.22. -/
def muteGain (m : MuteState) (k : Nat) : Int :=
  match m with
  | .muted => 0
  | .ramp => rhu 4 (4194304 * (k : Int))
  | .full => 4194304

/-- Steps 2 and 3 of R198 on sixteen samples. -/
def muteClip (m : MuteState) (x : List Int) : List Int × Bool :=
  hardClip (x.zipIdx.map fun v => rhu 22 (v.1 * muteGain m (v.2 + 1)))

/-- The mute gain is decided at an output frame boundary (R202): the pin mutes while it reads low, and for the frame that begins
there when it fell since the boundary before. A low level that an earlier boundary has muted already ends at the first boundary
after the pin reads high, as R200 has it (DEDUCED, assumption 83). -/
def decideMute (s : State) : State :=
  let cause := s.xpt.house || s.xpt.houseLow || getF s F.XPT_FMUTE_CAUSE != 0
  let m : MuteState := if cause then .muted else if s.xpt.mute = .muted then .ramp else .full
  { s with xpt := { s.xpt with mute := m, houseLow := false } }

/-- The label of the output frame at the boundary `n` boundaries from now (R200). -/
def outputLabelIn (s : State) (n : Nat) : Nat := labelOf s (posNow s + n - (s.tl.depth : Int))

/-- HOUSE_MUTE_ASSERT (R200): the filtered pin reads low. -/
def houseAssert (s : State) : State :=
  if s.xpt.house then s else
  let s := { s with xpt := { s.xpt with house := true, houseLow := true } }
  let s := raise (addCtr s Reg.XPT_HMUTE 1) 11 3
  logEv s 0x0B02 [(1, 0), frameF (outputLabelIn s 1)]

/-- HOUSE_MUTE_RELEASE (R200): the filtered pin reads high. Release starts at the next output boundary, or at the one after it
where the low level has still to mute its one frame. -/
def houseRelease (s : State) : State :=
  if !s.xpt.house then s else
  logEv { s with xpt := { s.xpt with house := false } } 0x0B02 [(1, 1), frameF (outputLabelIn s (if s.xpt.houseLow then 2 else 1))]

/-- A fault mute cause latches (R201): bit 0 UV, 1 THERM, 2 HOST. -/
def fmuteSet (s : State) (b : Nat) : State :=
  let c := getF s F.XPT_FMUTE_CAUSE
  if bit c b then s else
  let s := raise (addCtr (setEvent s Reg.XPT_FMUTE (2 ^ b)) Reg.XPT_FMUTECNT 1) 11 3
  logEv s 0x0B03 [(1, ((2 ^ b : Nat) : Int))]

/-- A write of XPT_FMUTE commits: a cause clears only when its condition has ended (R201). -/
def fmuteClear (s : State) (v : Nat) : State :=
  let hold := b2n (s.pwr.uvRails != 0) + 2 * b2n s.pwr.trip
  setF s F.XPT_FMUTE_CAUSE (andNot (getF s F.XPT_FMUTE_CAUSE) (andNot (v % 8) hold))

/-- The first write of XPT_CEILLIM fixes the limit (R199). -/
def ceilLimCommit (s : State) (v : Nat) : State :=
  if getF s F.XPT_CEILLIM_LOCKED = 1 then s
  else setR s Reg.XPT_CEILLIM (2 ^ 31 + v % 2 ^ 25)

/-- Every HOLD and hold counter to 0 (R205). -/
def holdClear (s : State) : State :=
  let regs := s.regs.filter fun p => !(decide (Reg.XPT_METER_LEVEL ≤ p.1) && decide (p.1 < Reg.XPT_METER_LEVEL + 16 * 1152) && p.1 % 16 == 4)
  { s with regs := regs, xpt := { s.xpt with holds := [] } }

/-- The largest magnitude of some samples. -/
def peakOf (x : List Int) : Nat := x.foldl (fun m v => max m v.natAbs) 0

/-- One meter (R197) from its words LEVEL, HOLD, CLIP and its counter. -/
def meterStep (dk hold p : Nat) (clip : Bool) (w : Nat × Nat × Nat) (cnt : Nat) : (Nat × Nat × Nat) × Nat :=
  let fall := fun (v : Nat) => max p (v * dk / 2 ^ 24)
  let lv := fall w.1
  let (h, c) := if p ≥ w.2.1 then (p, hold) else if cnt > 0 then (w.2.1, cnt - 1) else (fall w.2.1, 0)
  ((lv, h, if clip then 1 else w.2.2), c)

/-- Every meter at a boundary (R197): `peaks` holds, by meter, the peak and clip flag of the frame measured; those absent
measured silence. -/
def meterBoundary (s : State) (peaks : Sparse (Nat × Bool)) : State :=
  let lo := Reg.XPT_METER_LEVEL
  let sub := s.regs.filter fun p => decide (lo ≤ p.1) && decide (p.1 < lo + 16 * 1152)
  if sub.isEmpty && peaks.isEmpty && s.xpt.holds.isEmpty then s else
  let dk := getF s F.XPT_MDECAY_DK
  let hold := getF s F.XPT_MHOLD_FRAMES
  let word := fun a => (Sparse.get regDefault sub a).toNat
  let rows := (List.range 1152).map fun m =>
    let a := lo + 16 * m
    let pk := Sparse.get (fun _ => (0, false)) peaks m
    let r := meterStep dk hold pk.1 pk.2 (word a, word (a + 4), word (a + 8)) (Sparse.getN s.xpt.holds m)
    (m, r)
  let block := rows.flatMap fun x =>
    let a := lo + 16 * x.1
    [(a, BitVec.ofNat 32 x.2.1.1), (a + 4, BitVec.ofNat 32 x.2.1.2.1), (a + 8, BitVec.ofNat 32 x.2.1.2.2)]
  let holds := (rows.filter fun x => x.2.2 != 0).map fun x => (x.1, x.2.2)
  { s with regs := Sparse.replaceRange regDefault s.regs lo (lo + 16 * 1152) block, xpt := { s.xpt with holds := holds } }

/-- The XPT registers at a boundary (R205). -/
def publishXpt (s : State) (active : Bool) : State :=
  let s := setR s Reg.XPT_STATUS (b2n active * 2 ^ 19 + b2n (s.xpt.mute == .ramp) * 2 ^ 18 + b2n (s.xpt.mute == .muted) * 2 ^ 17 +
    b2n s.xpt.house * 2 ^ 16 + activeNodes s.xpt.nodes (posNow s) % 2 ^ 15)
  setR s Reg.XPT_NGAIN (ngainRead s)

/-- XPT_NGAIN_WRITE (R193): a write of the register waits for its boundary. -/
def execXptNgainWrite (v : Nat) (s : State) : Host.Outcome State Fault Refusal := .next (queueWrite s Reg.XPT_NGAIN v)

/-- XPT_CEILLIM_WRITE (R199). -/
def execXptCeillimWrite (v : Nat) (s : State) : Host.Outcome State Fault Refusal := .next (queueWrite s Reg.XPT_CEILLIM v)

/-- XPT_FMUTE_SET (R201). -/
def execXptFmuteSet (v : Nat) (s : State) : Host.Outcome State Fault Refusal := .next (queueWrite s Reg.XPT_FMUTESET v)

/-- XPT_FMUTE_CLEAR (R201). -/
def execXptFmuteClear (v : Nat) (s : State) : Host.Outcome State Fault Refusal := .next (queueWrite s Reg.XPT_FMUTE v)

/-- XPT_HOLD_CLEAR (R205). -/
def execXptHoldClear (v : Nat) (s : State) : Host.Outcome State Fault Refusal := .next (queueWrite s Reg.XPT_MCTRL v)

/-- HOUSE_MUTE_ASSERT (R200). -/
def execHouseMuteAssert (s : State) : Host.Outcome State Fault Refusal := .next (houseAssert s)

/-- HOUSE_MUTE_RELEASE (R200). -/
def execHouseMuteRelease (s : State) : Host.Outcome State Fault Refusal := .next (houseRelease s)

end Sys2Proof.Machine
end

