-- ==== Sys2Proof/Machine/Strm.lean ====
section
/-! DEFINITION. The stream engine: classification, stores, capture, loss, legs, transmit packets, cuts, and Object Metadata
Packets up to the metadata store (R276 to R289). -/

namespace Sys2Proof.Machine

open Sys2Proof

/-- Word w of the status window of receive entry r (R293). -/
def rxR (r w : Nat) : Nat := Reg.STRM_RX0 + 32 * r + 4 * w

/-- Bytes of a sample of a format (R270). -/
def fmtWidth (fmt : Nat) : Nat := if fmt = 0 then 2 else if fmt = 1 then 3 else 4

/-- Stores receive stream r. -/
def setRx (s : State) (r : Nat) (x : RxSt) : State := { s with strm := { s.strm with rx := s.strm.rx.set r x } }

/-- The sample position of a media sample index, as the timeline is labelled now (R363). -/
def samplePos (s : State) (idx : Int) : Int := idx + 16 * (s.tl.z + s.tl.adj)

/-- A leg of an entry is present. -/
def legPresent (e : RxEnt) (leg : Nat) : Bool := if leg = 0 then e.dsta != 0 else e.dstb != 0

/-- A packet is accepted on a leg (R281, R293). -/
def rxAccept (s : State) (r leg seq : Nat) (x : RxSt) : State :=
  let s := addCtr s (rxR r (1 + leg)) 1
  let s := setF s (F.STRM_RX0_LASTSEQ.plus (32 * r)) seq
  let back := if leg = 0 then x.outA else x.outB
  let s := if back then logEv s 0x0503 [(2, (r : Int)), (1, (leg : Int)), (1, 1), frameF (frameNow s)] else s
  let x := if leg = 0 then { x with upA := true, outA := false } else { x with upB := true, outB := false }
  let x := if x.st = .waiting then { x with run := 16 } else x
  setRx s r { x with st := .running }

/-- A sequence gap and the leg difference of a packet (R280). -/
def rxSequence (s : State) (r leg : Nat) (x : RxSt) (m : RtpPkt) : State × RxSt :=
  let prev := if leg = 0 then x.seqA else x.seqB
  let d := match prev with | some q => (m.seq + 65536 - q) % 65536 | none => 1
  let s := if 1 < d ∧ d < 32768 then addCtr s (rxR r (3 + leg)) 1 else s
  let x := if 0 < d ∧ d < 32768 then (if leg = 0 then { x with seqA := some m.seq } else { x with seqB := some m.seq }) else x
  let s := match x.seen.find? fun q => q.1 == m.seq && q.2.1 == 1 - leg with
    | some q =>
      let us := (if q.2.2 < m.stamp then m.stamp - q.2.2 else q.2.2 - m.stamp) / 4000
      maxF s (F.STRM_RX7_PDMAX.plus (32 * r)) (min us 65535)
    | none => s
  let near := fun (q : Nat × Nat × Nat) => let d := (m.seq + 65536 - q.1) % 65536; decide (d < 16384 ∨ 49152 < d)
  (s, { x with seen := (m.seq, leg, m.stamp) :: x.seen.filter fun q => near q && !(q.1 == m.seq && q.2.1 == leg) })

/-- The samples of one sample period of a payload, by channel, as Q8.24 (R277). -/
def rxSamples (e : RxEnt) (b : Bytes) (i : Nat) : List Int :=
  (List.range e.ch).map fun c =>
    let o := (i * e.ch + c) * fmtWidth e.fmt
    match e.fmt with
    | 0 => beAtS b o 2 * 512
    | 1 => beAtS b o 3 * 2
    | _ => beAtS b (o + 1) 3 * 2

/-- The DRAM word of channel c of an EXT entry at sample n of the frames: the ring of receive channel MAPOFS + c, at the ring position
s + 16Z (R274, R277, R363). -/
def extAddr (s : State) (e : RxEnt) (c n : Nat) : Nat :=
  getR64 s Reg.STRM_EXTBASE_LO Reg.STRM_EXTBASE_HI + 16384 * (e.mapofs + c) +
    4 * ((16 * placeOf s ((n / 16 : Nat) : Int) + ((n % 16 : Nat) : Int)) % 4096).toNat

/-- The words of one sample period at position n, none where no packet supplied them (R277). -/
def storeCell (s : State) (x : RxSt) (n : Nat) : List Int :=
  let v := Sparse.get (fun _ => []) x.store n
  if v = [] ∨ !bit x.ent.flags 0 then v
  else (List.range x.ent.ch).map fun c => signed 32 (leVal (Memory.readBytes s.mem (extAddr s x.ent c n) 4))

/-- Where the packet buffers hold channels 0 to m − 1 of entry r at sample n (assumption 101). -/
def storePlaces (r m n : Nat) : List Nat := (List.range m).map fun c => Config.pktPlace r (4096 * c + n % 4096)

/-- Sample periods of an EXT entry written into its DRAM rings, each codeword of a ring once (R277, R406). -/
def extWrite (s : State) (e : RxEnt) (rows : List (Nat × List Int)) : State :=
  (List.range e.ch).foldl (fun s c =>
    (rows.map (·.1 / 4)).eraseDups.foldl (fun s k =>
      dramCells s 9 0 (extAddr s e c (4 * k)) ((List.range 4).flatMap fun j =>
        match rows.find? fun q => q.1 == 4 * k + j with
        | some q => (leBytes 4 (unsigned 32 (q.2.getD c 0))).map some
        | none => List.replicate 4 none)) s) s

/-- Writes sample periods into the store of entry r: into the packet buffers, or with EXT into its DRAM rings (R277). -/
def putRows (a : Sparse (List Int) × State) (r : Nat) (e : RxEnt) (rows : List (Nat × List Int)) : Sparse (List Int) × State :=
  if bit e.flags 0 then (rows.foldl (fun m q => Sparse.put (fun _ => []) m q.1 [1]) a.1, extWrite a.2 e rows)
  else rows.foldl (fun b q =>
    (Sparse.put (fun _ => []) b.1 q.1 q.2, openWrite b.2 6 0x200000 (storePlaces r q.2.length q.1))) a

/-- The read of sixteen sample periods of entry r from sample n on: which of them an uncorrectable codeword leaves missing (R439, R441).
A DRAM read with an error response is a missed read of its store, whose own event stands in place of DEADLINE_MISS (R278, R434). -/
def readStore (s : State) (r : Nat) (x : RxSt) (n : Nat) : List Nat × State :=
  if s.fab.inj.isEmpty ∨ x.extMiss then ([], s) else
  let here := (List.range 16).filter fun j => Sparse.get (fun _ => []) x.store (n + j) ≠ []
  if bit x.ent.flags 0 then
    (List.range x.ent.ch).foldl (fun a c =>
      let q := eccRead a.2 (extAddr a.2 x.ent c n) 64 9 0
      if q.1 then (List.range 16, raise (addCtr q.2 Reg.STRM_EXTMISS 1) 5 1) else (a.1, q.2)) ([], s)
  else
    here.foldl (fun a j =>
      let q := openRead a.2 6 0x200000 9 (storePlaces r x.ent.ch (n + j))
      (if q.1.any id then j :: a.1 else a.1, q.2)) ([], s)

/-- A packet's samples go into the window of its store, unless early or late (R277, R280). -/
def rxAudio (s : State) (r leg : Nat) (x : RxSt) (m : RtpPkt) : State :=
  let e := x.ent
  let w : Int := ((16 * s.tl.frame : Nat) : Int)
  let base := w - 2 ^ 31
  let si := base + (((m.ts + e.linkofs : Nat) : Int) - base) % 2 ^ 32
  if si + e.np - 1 ≥ w + e.depth then addF (setRx s r x) (F.STRM_RX6_EARLY.plus (32 * r)) 1
  else if si + e.np - 1 < w then addF (setRx s r x) (F.STRM_RX6_LATE.plus (32 * r)) 1
  else
    let s := rxAccept s r leg m.seq x
    match s.strm.rx[r]? with
    | none => s
    | some x =>
      let rows := (List.range e.np).filterMap fun (i : Nat) =>
        let n := (samplePos s (si + (i : Int))).toNat
        if si + (i : Int) < w ∨ Sparse.get (fun _ => []) x.store n ≠ [] then none else some (n, rxSamples e m.payload i)
      let (store, s) := putRows (x.store, s) r e rows
      setRx s r { x with store := store }

/-- Whether R276 drops a matched packet. -/
def rxBad (s : State) (e : RxEnt) (m : RtpPkt) : Bool :=
  m.frag || m.ipOpt || m.ipBad || (m.udpBad && getF s F.STRM_CTRL_UDPCHK == 1) || m.version != 2 || m.pt != e.pt ||
  (bit e.flags 1 && m.ssrc != e.ssrc) || (e.kind == 0 && m.payload.length != e.ch * e.np * fmtWidth e.fmt)

/-- STREAM_PACKET_RECEIVE (R276 to R281): a packet for receive entry r on leg 0 A or 1 B. A metadata payload that is no
duplicate waits for its completion (R288). -/
def streamPacket (s : State) (r leg : Nat) (m : RtpPkt) : State :=
  match s.strm.rx[r]? with
  | none => addCtr s Reg.STRM_RXUNK 1
  | some x =>
    if !legPresent x.ent leg then addCtr s Reg.STRM_RXUNK 1
    else if rxBad s x.ent m then addCtr (addF s (F.STRM_RX7_FMTERR.plus (32 * r)) 1) Reg.STRM_RXBAD 1
    else
      let (s, x) := rxSequence s r leg x m
      if x.ent.kind = 0 then rxAudio s r leg x m
      else
        let dup := x.dups.contains m.seq
        let x' := if dup then x else { x with dups := (m.seq :: x.dups).take 64 }
        let s := rxAccept s r leg m.seq x'
        if dup then s else
        let s := if m.payload.length ≥ 6 then setR s (rxR r 5) (beAt m.payload 4 2) else s
        { s with strm := { s.strm with omp := s.strm.omp ++ [(s.strm.packets, m.payload)], packets := s.strm.packets + 1 } }

/-- STREAM_LEG_DOWN (R281). -/
def streamLegDown (s : State) (r leg : Nat) : State :=
  match s.strm.rx[r]? with
  | none => s
  | some x =>
    let was := if leg = 0 then x.upA else x.upB
    if !was then s else
    let x := if leg = 0 then { x with upA := false } else { x with upB := false }
    let other := if leg = 0 then x.upB else x.upA
    if other then
      let x := if leg = 0 then { x with outA := true } else { x with outB := true }
      raise (logEv (setRx s r x) 0x0503 [(2, (r : Int)), (1, (leg : Int)), (1, 0), frameF (frameNow s)]) 5 3
    else if x.st = .running then
      raise (logEv (setRx s r { x with st := .down }) 0x0502 [(2, (r : Int)), frameF (frameNow s)]) 5 4
    else setRx s r x

/-- The fade factor of the present sample j of a frame (R279): `run` present samples precede it since the last missing index,
`ahead` is the distance to the next missing index. -/
def fadeSampleBy (run ahead : Nat) (y : Int) : Int := rhu 4 (y * ((min (min run ahead) 16 : Nat) : Int))

/-- The sixteen samples of every channel of stream r for the frame at position p, its label lab (R277 to R279, R281). -/
def rxCapture (s : State) (r : Nat) (x : RxSt) (p : Int) (lab : Nat) : List (List Int) × State :=
  let e := x.ent
  let n0 := (16 * p).toNat
  let zeros := List.replicate e.ch zero16
  let rest := x.store.filter fun q => decide (n0 + 16 ≤ q.1)
  let lost := fun (s : State) (n : Nat) =>
    let s := addCtr s (rxR r 5) n
    let s := if x.loss then s else raise (addCtr s Reg.STRM_LOSSEP 1) 5 2
    logRun s 0x0501 [(2, (r : Int)), frameF lab] r (!x.loss)
  match x.st with
  | .down => (zeros, lost (setRx s r { x with store := rest, run := 0, loss := true, extMiss := false }) 16)
  | .running =>
    let q := readStore s r x n0
    let s := q.2
    let cell := fun j => if x.extMiss || q.1.contains j then [] else storeCell s x (n0 + j)
    let missing := fun j => cell j == []
    let js := List.range 16
    let gone := js.filter missing
    let step := fun (acc : List (List Int) × Nat) (j : Nat) =>
      if missing j then (acc.1 ++ [List.replicate e.ch 0], 0)
      else
        let run := min (acc.2 + 1) 16
        let ahead := match gone.find? (fun m => decide (j < m)) with | some m => m - j | none => 16
        let f := if acc.2 ≥ 16 then 16 else run
        (acc.1 ++ [(cell j).map (fadeSampleBy f ahead)], run)
    let (rows, run) := js.foldl step ([], x.run)
    let chans := (List.range e.ch).map fun c => rows.map fun w => w.getD c 0
    let x' := { x with store := rest, run := run, loss := !gone.isEmpty, extMiss := false }
    if gone.isEmpty then (chans, setRx s r x')
    else (chans, lost (setRx s r x') gone.length)
  | _ => (zeros, setRx s r { x with store := rest, extMiss := false })

/-- What capture gathers: sixteen samples by object and by crosspoint input. -/
structure Captured where
  objs : Sparse (List Int)
  xins : Sparse (List Int)
deriving DecidableEq, Repr

/-- Sixteen samples go to their object and crosspoint input, 0xFFFF none (R274, R374). -/
def Captured.put (c : Captured) (obj xin : Nat) (v : List Int) : Captured :=
  { objs := if obj = 0xFFFF then c.objs else Sparse.put (fun _ => zero16) c.objs obj v,
    xins := if xin = 0xFFFF then c.xins else Sparse.put (fun _ => zero16) c.xins xin v }

/-- The capture stage takes the frame at position p from every audio stream (R278). -/
def strmCapture (s : State) (t : Take) (p : Int) (lab : Nat) (c : Captured) : Captured × State :=
  (List.range s.strm.rx.length).foldl (fun (a : Captured × State) r =>
    match a.2.strm.rx[r]? with
    | none => a
    | some x =>
      if x.ent.kind ≠ 0 then a else
      let (rows, s) := rxCapture a.2 r x p lab
      let c := rows.zipIdx.foldl (fun c v =>
        let m := t.streams.rxmap.getD (x.ent.mapofs + v.2) (0xFFFF, 0xFFFF)
        c.put m.1 m.2 v.1) a.1
      (c, s)) (c, s)

/-- Two entries that keep their state across a cut (R285). -/
def sameRx (a b : RxEnt) : Bool :=
  a.kind == b.kind && a.dsta == b.dsta && a.dstb == b.dstb && a.srca == b.srca && a.srcb == b.srcb && a.udpa == b.udpa &&
  a.udpb == b.udpb && a.fmt == b.fmt && a.ch == b.ch && a.np == b.np && a.pt == b.pt && a.flags % 2 == b.flags % 2 &&
  a.depth == b.depth

/-- The receive streams of an incoming section, with the index each had in the outgoing one (R285). -/
def installRx : List RxEnt → List (Nat × RxSt) → List (Option Nat × RxSt)
  | [], _ => []
  | e :: es, old =>
    match old.find? fun o => sameRx o.2.ent e with
    | some o => (some o.1, { o.2 with ent := e }) :: installRx es (old.filter fun q => q.1 != o.1)
    | none => (none, RxSt.new e) :: installRx es old

/-- A kept entry under its new LINKOFS and map, for the reads from the frame at position p on (R285): its samples stand at the
indices the new LINKOFS gives them, in the rings of its new receive channels. `was`: the state and the entry before the cut. -/
def carryRx (was : State) (p : Int) (old : RxEnt) (a : List RxSt × State) (r : Nat) (x : RxSt) : List RxSt × State :=
  let d : Int := (x.ent.linkofs : Int) - old.linkofs
  let base := fun (s : State) => getR64 s Reg.STRM_EXTBASE_LO Reg.STRM_EXTBASE_HI
  if d = 0 ∧ (!bit old.flags 0 ∨ (old.mapofs = x.ent.mapofs ∧ base was = base a.2)) then (a.1 ++ [x], a.2) else
  let rows := x.store.filterMap fun q =>
    let n : Int := (q.1 : Int) + d
    if 16 * p ≤ n ∧ n < 16 * p + x.ent.depth then some (n.toNat, storeCell was { x with ent := old } q.1) else none
  let b := putRows (([] : Sparse (List Int)), a.2) r x.ent rows
  (a.1 ++ [{ x with store := b.1 }], b.2)

/-- Two transmit entries that are one stream: only the map may differ (R282, R285). -/
def sameTx (a b : TxEnt) : Bool := { a with mapofs := b.mapofs } == b

/-- The windows of transmit entries the active take does not hold: neither PRESENT nor SENDING (R294). -/
def txAbsent (s : State) (lo hi : Nat) : State :=
  ((List.range hi).filter fun t => decide (lo ≤ t)).foldl (fun s t =>
    let a := Reg.STRM_TX0 + 16 * t
    setR s a (getR s a % 65536)) s

/-- Without an active take every receive entry is OFF and no transmit entry is present (R281, R293, R294). -/
def strmDark (s : State) : State :=
  let s := (List.range s.strm.rx.length).foldl (fun s r => setR s (rxR r 0) (getR s (rxR r 0) % 65536)) s
  txAbsent s 0 ((s.strm.tx.head?.map (·.ents)).getD []).length

/-- The STREAMS section of a cut at the frame at position p, labelled lab (R285, R291). At a change of rate no stored sample lies at a
ring position that is read (R17, R363). -/
def strmCut (s : State) (t : StreamSec) (p : Int) (lab : Nat) (rateNew : Bool) : State :=
  let s := if rateNew then { s with strm := { s.strm with rx := s.strm.rx.map fun x => { x with store := [] } } } else s
  let was := s
  let before := (s.strm.tx.head?.map (·.ents)).getD []
  let inst := installRx t.rx (s.strm.rx.zipIdx.map fun x => (x.2, x.1))
  let rows := inst.zipIdx.flatMap fun q =>
    (List.range 8).map fun w => (rxR q.2 w, match q.1.1 with
      | some o => Sparse.get regDefault s.regs (rxR o w)
      | none => 0)
  let s := { s with regs := Sparse.replaceRange regDefault s.regs (rxR 0 0) (rxR 256 0) rows,
                    strm := { s.strm with rx := inst.map (·.2),
                                          tx := { first := 16 * p, ents := t.tx, map := t.txmap } :: s.strm.tx.take 1 } }
  let s := setR (setR64 s Reg.STRM_EXTBASE_LO Reg.STRM_EXTBASE_HI t.extbase) Reg.STRM_MLATE t.mlate
  let (rx, s) := inst.foldl (fun (a : List RxSt × State) q =>
    match q.1.bind fun o => was.strm.rx[o]? with
    | some o => carryRx was p o.ent a a.1.length q.2
    | none => (a.1 ++ [q.2], a.2)) ([], s)
  let s := txAbsent { s with strm := { s.strm with rx := rx } } t.tx.length before.length
  t.tx.zipIdx.foldl (fun s e =>
    match before[e.2]? with
    | some o => if sameTx o e.1 then s else first s e
    | none => first s e) s
where
  /-- The first packet of a stream under the incoming take (R285). -/
  first (s : State) (e : TxEnt × Nat) : State :=
    setF s (F.STRM_TX0_NEXTSEQ.plus (16 * e.2)) ((e.1.seqofs + ceilDiv (16 * lab) e.1.np) % 65536)

/-- Whether the unit sends stream packets at all (R284). -/
def txRole (s : State) : Bool :=
  s.take.active.isSome && s.pair.driven

/-- A leg can send: some port it leaves on has its link up (R284, R298) and a MAC address (R297). -/
def legLink (s : State) (leg : Nat) : Bool := (txPorts s leg).any fun q => (portOf s q).link && maySend s q

/-- A sample of a packet as L24 (R282). -/
def l24 (y : Int) : Bytes := beBytes 3 (unsigned 24 (satS 24 (rhu 1 y)))

/-- A packet is built and, where it may be, queued (R282 to R284); `shown`: the active take holds its stream as entry t (R294). Its
timestamp is the index s that R282, R283 and R285 count by, the frame's own label (assumption 73). -/
def txPacket (s : State) (t : Nat) (e : TxEnt) (map : List Nat) (shown : Bool) (idx : Nat) : State :=
  let seq := (e.seqofs + idx / e.np) % 65536
  let sample := fun (i c : Nat) =>
    let code := map.getD (e.mapofs + c) 0xFFFF
    if code = 0xFFFF then 0 else
    match s.strm.outs.find? fun o => o.1 == (idx + i) / 16 with
    | some o => (Sparse.get (fun _ => zero16) o.2 code).getD ((idx + i) % 16) 0
    | none => 0
  let body := (List.range e.np).flatMap fun i => (List.range e.ch).flatMap fun c => l24 (sample i c)
  let rtp := [0x80] ++ beBytes 1 e.pt ++ beBytes 2 seq ++ beBytes 4 idx ++ beBytes 4 e.ssrc ++ body
  let s := if shown then
      let s := addCtr s (Reg.STRM_TX_PKTS + 16 * t) 1
      let s := setR s (Reg.STRM_TX_LASTTS + 16 * t) idx
      setF s (F.STRM_TX0_NEXTSEQ.plus (16 * t)) ((seq + 1) % 65536)
    else s
  let send := fun (s : State) (leg dst : Nat) =>
    if dst = 0 ∨ !legLink s leg ∨ !txRole s then s else
    sendUdp s leg none { dstIp := dst, sport := e.sport, dport := e.dport, tos := 4 * e.dscp, ident := 0, frag := 0x4000,
                         ttl := e.ttl, csum := e.csum } rtp .media enqueue1
  send (send s 0 e.dsta) 1 e.dstb

/-- The packets whose last sample lies in the frame whose emission has ended, at position p with label lab (R283, R285). -/
def strmTransmit (s : State) (p : Int) (lab : Nat) (out : Sparse (List Int)) : State :=
  let s := { s with strm := { s.strm with outs := ((lab, out) :: s.strm.outs).take 8 } }
  let i0 : Int := ((16 * lab : Nat) : Int)
  let sets := s.strm.tx
  let newestFirst := (sets.head?.map (·.first)).getD 0
  let one := fun (s : State) (t k : Nat) =>
    match sets[k]? with
    | none => s
    | some q =>
      match q.ents[t]? with
      | none => s
      | some e =>
        if e.np = 0 then s else
        let np : Int := (e.np : Int)
        let s0 := ((i0 - np + 1 + np - 1) / np) * np
        (List.range (16 / e.np + 1)).foldl (fun s (j : Nat) =>
          let idx := s0 + np * (j : Int)
          let pos := 16 * p + (idx - i0)
          if idx < 0 ∨ idx + np - 1 > i0 + 15 ∨ pos < q.first ∨ (k ≠ 0 ∧ pos ≥ newestFirst) then s
          else txPacket s t e q.map (match ((sets.head?.map (·.ents)).getD [])[t]? with | some n => sameTx n e | none => false) idx.toNat) s
  let s := (List.range 128).foldl (fun s t => one (one s t 1) t 0) s
  if newestFirst + 256 < 16 * p then { s with strm := { s.strm with tx := s.strm.tx.take 1 } } else s

/-- The code of a receive stream's state (R281). -/
def rxCode : RxState → Nat
  | .off => 0
  | .waiting => 1
  | .running => 2
  | .down => 3

/-- The STRM registers at a boundary (R291, R293, R294). -/
def publishStrm (s : State) (active : Bool) : State :=
  let tx := (s.strm.tx.head?.map (·.ents)).getD []
  let up := fun (e : TxEnt) => txRole s && ((e.dsta != 0 && legLink s 0) || (e.dstb != 0 && legLink s 1))
  let s := setR s Reg.STRM_STATUS (s.strm.rx.length * 65536 + tx.length * 256 + b2n (tx.any up) * 2 + b2n active)
  let s := setR s Reg.STRM_METAPEND s.strm.meta_.length
  let s := s.strm.rx.zipIdx.foldl (fun s x =>
    let w := getR s (rxR x.2 0) % 65536
    setR s (rxR x.2 0) (rxCode x.1.st * 2 ^ 29 + b2n x.1.upA * 2 ^ 28 + b2n x.1.upB * 2 ^ 27 + w)) s
  tx.zipIdx.foldl (fun s e =>
    let w := getR s (Reg.STRM_TX0 + 16 * e.2) % 65536
    setR s (Reg.STRM_TX0 + 16 * e.2) (2 ^ 31 + b2n (up e.1) * 2 ^ 30 + w)) s

/-- A metadata drop of R286 to R289: its counter, METADROP. -/
def metaCount (s : State) (ctr : Nat) : State := raise (addCtr s ctr 1) 5 0

/-- A drop of R288 or R289, which belongs to a run (R289). -/
def metaDrop (s : State) (ctr reason obj frame : Nat) : State :=
  let s := metaCount s ctr
  let s := logRun s 0x0504 [(1, (reason : Int)), (2, (obj : Int)), frameF frame] 0 (!s.strm.dropRun)
  { s with strm := { s.strm with dropped := true, dropRun := true } }

/-- An entry of a packet (R287): none where it has a fault of its own. -/
def metaEntry (b : Bytes) (frame : Nat) (late : Bool) (packet : Nat) : Option MetaEnt :=
  let mask := beAt b 26 1
  if beAt b 0 2 > 1023 ∨ mask ≥ 128 ∨ sliceB b 27 5 ≠ zeroBytes 5 ∨ (bit mask 1 ∧ beAt b 16 4 > 131071) ∨
     (bit mask 2 ∧ overS 24 (beAtS b 20 4)) ∨ (bit mask 6 ∧ beAt b 25 1 % 32 ≠ 0) then none
  else some { obj := beAt b 0 2, mask := mask, mode := beAt b 2 1, prio := beAt b 3 1, x := beAt b 4 4, y := beAt b 8 4,
              z := beAt b 12 4, size := beAt b 16 4, gain := beAt b 20 4 % 2 ^ 24, cset := beAt b 24 1, oflags := beAt b 25 1,
              frame := frame, late := late, packet := packet }

/-- The packet tests of R286. -/
def metaPacketOk (b : Bytes) : Bool :=
  let n := beAt b 6 2
  decide (20 ≤ b.length) && beAt b 0 2 == 0x4F4D && beAt b 2 1 == 1 && beAt b 3 1 == 0 && decide (1 ≤ n ∧ n ≤ 256) &&
  b.length == 20 + 32 * n && beAt b (b.length - 4) 4 == crc32c (b.take (b.length - 4))

/-- A replaced entry counts in GEOM_COLLIDE (R53, R287). -/
def metaCollide (s : State) : State := raise (addCtr s Reg.GEOM_COLLIDE 1) 6 4

/-- An Object Metadata Packet is complete, number pk in ingress order (R286 to R289). -/
def metaPacket (s : State) (b : Bytes) (pk : Nat) : State :=
  if !metaPacketOk b then metaCount s Reg.STRM_METABAD else
  let c := s.tl.frame
  let frame := beAt b 8 8
  let first := beAt b 16 2
  if frame > c + 256 then metaDrop s Reg.STRM_METAEARLY 2 first frame
  else if c > frame + getF s F.STRM_MLATE_FRAMES then metaDrop s Reg.STRM_METAPAST 1 first frame
  else
    let late := match s.strm.lastTick with | some l => decide (frame ≤ l) | none => false
    let (s, ents) := (List.range (beAt b 6 2)).foldl (fun (a : State × List MetaEnt) e =>
      match metaEntry (sliceB b (16 + 32 * e) 32) frame late pk with
      | none => (metaCount a.1 Reg.STRM_METABAD, a.2)
      | some m =>
        if a.2.any (·.obj == m.obj) then (metaCollide a.1, (a.2.filter (·.obj != m.obj)) ++ [m]) else (a.1, a.2 ++ [m])) (s, [])
    ents.foldl (fun s m =>
      if s.strm.meta_.length ≥ 8192 then metaDrop s Reg.STRM_METAFULL 4 m.obj frame
      else { s with strm := { s.strm with meta_ := s.strm.meta_ ++ [m] } }) s

/-- OMP_RECEIVE (R288): the oldest network packet is complete, 2 µs after its ingress. -/
def ompReceive (s : State) : State :=
  match s.strm.omp with
  | b :: t => metaPacket { s with strm := { s.strm with omp := t } } b.2 b.1
  | [] => s

/-- A META_INJECT packet is complete at its arrival (R249, R288). -/
def metaInject (s : State) (b : Bytes) : State :=
  metaPacket { s with strm := { s.strm with packets := s.strm.packets + 1 } } b s.strm.packets

/-- STREAM_PACKET_RECEIVE (R276 to R280). -/
def execStreamPacketReceive (r leg : Nat) (m : RtpPkt) (s : State) : Host.Outcome State Fault Refusal :=
  .next (whilePowered s fun s => streamPacket s r leg m)

/-- STREAM_LEG_DOWN (R281). -/
def execStreamLegDown (r leg : Nat) (s : State) : Host.Outcome State Fault Refusal := .next (streamLegDown s r leg)

/-- OMP_RECEIVE (R288). -/
def execOmpReceive (s : State) : Host.Outcome State Fault Refusal := .next (ompReceive s)

end Sys2Proof.Machine
end

