-- ==== Sys2Proof/Machine/Memc.lean ====
section
/-! DEFINITION. The external memory controller: configuration, trainings and frequency changes, requests and their service
order, refresh, drift, row-hammer guard, power-down, self-refresh and the class 0 budget (R402 to R429). -/

namespace Sys2Proof.Machine

open Sys2Proof

/-- A take is active, or a staged one is CHECKED or SCHEDULED (R407, R411, R412). -/
def takePresent (s : State) : Bool := s.take.active.isSome || s.take.stage == .checked || s.take.stage == .scheduled

/-- Gb per channel and rank of a density code (R427). -/
def dramGb (dens : Nat) : Nat := [4, 6, 8, 12, 16, 24, 32].getD dens 4

/-- Ranks and density from MEM_CFG. -/
def dramRanks (s : State) : Nat := getF s F.MEM_CFG_RANKS + 1
def dramDens (s : State) : Nat := getF s F.MEM_CFG_DENS

/-- The combination stands in the table of R402. -/
def dramSupported (s : State) : Bool := dramRanks s == 1 || decide (dramDens s ≤ 4)

/-- Usable bytes: 7/8 of the raw capacity (R402). -/
def dramUsable (s : State) : Nat := dramGb (dramDens s) * dramRanks s * 2 ^ 29 / 8 * 7

/-- tRFCab in CK cycles (R402). -/
def dramRfc (s : State) : Nat :=
  let t := [(139, 128), (162, 149), (162, 149), (216, 198), (216, 198), (292, 269), (292, 269)].getD (dramDens s) (139, 128)
  if family44 s.tl.rate then t.2 else t.1

/-- n_ref (R115, R417). -/
def nRef (rate : Nat) : Nat := [94, 86, 47, 43].getD rate 86

/-- Q0 (R423). -/
def c0Budget (s : State) : Nat := 32 * (frameCycles s.tl.rate - nRef s.tl.rate * dramRfc s - 1536)

/-- Channel, slot, row index, bank, rank and row of an address (R405). -/
def dramBlock (a : Nat) : Nat := (a - 0x1000000000) / 256
def dramChan (a : Nat) : Nat := dramBlock a % 4
def dramSlot (a : Nat) : Nat := dramBlock a / 4 % 7
def dramW (a : Nat) : Nat := dramBlock a / 4 / 7
def dramBank (a : Nat) : Nat := (dramW a % 16) ^^^ (dramW a / 16 % 16)
def dramRank (ranks a : Nat) : Nat := dramW a / 16 % ranks
def dramRow (ranks a : Nat) : Nat := dramW a / (16 * ranks)

/-- First of the 32 check bytes of data slot s in its row, and the bits of codeword k in them (R404). -/
def checkBase (slot : Nat) : Nat := 1792 + 32 * slot
def checkBits (k : Nat) : Nat × Nat := (9 * k + 8, 9 * k)

/-- The 16 bytes of a codeword as 128 bits, little-endian. -/
def codeWord (s : State) (a : Nat) : BitVec 128 := BitVec.ofNat 128 (leVal (Memory.readBytes s.mem a 16))

/-- The 32 check bytes of the data block at address a as they stand in its row's check block: the 9 check bits of codeword k at
bits [9k + 8 : 9k] (R404). An injected error flips data bits only, so these are of the data as written (R444). -/
def checkBytes (s : State) (a : Nat) : Bytes :=
  leBytes 32 ((List.range 16).map fun k => (Config.secded (codeWord s (a + 16 * k))).toNat * 2 ^ (checkBits k).2).sum

/-- The controller keeps the check bytes of the 16 data blocks of a channel used last (R404). -/
def useCheck (s : State) (a : Nat) : State :=
  let b := dramBlock a
  let c := dramChan a
  let l := (b :: (s.dram.checks.getD c []).filter (· != b)).take 16
  { s with dram := { s.dram with checks := s.dram.checks.set c l } }

/-- FCLK offsets from the frame boundary of a frame's refreshes; above 1× twice as many at half the spacing (R417, R418). -/
def refreshOffsets (rate : Nat) (hot : Bool) : List Nat :=
  let d := frameCycles rate / nRef rate
  if hot then (List.range (2 * nRef rate)).map (· * (d / 2)) else (List.range (nRef rate)).map (· * d)

/-- The key of a bank: channel, rank, bank. -/
def bankKey (ranks a : Nat) : Nat := 64 * dramChan a + 16 * dramRank ranks a + dramBank a

/-- DEADLINE_MISS, unless the error's own event stands in its place (R434). -/
def missEv (s : State) (log : Bool) (unit engine what : Nat) (frame : Int) : State :=
  if log then logEv s 0x0002 [(1, (unit : Int)), (1, (engine : Int)), (2, (what : Int)), frameF (labelOf s frame)] else s

/-- A class 0 transfer is taken as missing by its requester: counters, records and zeros (R91, R114, R278, R425). The two reads of a
window that wraps are one fetch, which counts once (R91). A late ring or line write leaves the reads that wait for it missing
(R114). `a`, `n`: the bytes it covers. -/
def noteMiss (s : State) (use : DramUse) (due : Int) (a n : Nat) (log : Bool) : State :=
  match use with
  | .farWin q _ =>
    let pos := due - 1
    if s.path.windows.any (fun w => w.slot == q && w.pos == pos && w.missed) then s else
    let s := { s with path := { s.path with windows := s.path.windows.map fun w =>
      if w.slot = q ∧ w.pos = pos then { w with missed := true } else w } }
    missEv (raise (addCtr s Reg.PATH_FARMISS 1) 7 7) log 7 0 q pos
  | .convWindow c p => conv (.window c p a n) c
  | .convCoef c p j r => conv (.coef c p j r) c
  | .convLine c p j => conv (.line c p j) c
  | .convRing c | .convStore c _ => conv (.write c a n) c
  | .extStore r =>
    let s := match s.strm.rx[r]? with
      | some x => setRx s r { x with extMiss := true }
      | none => s
    missEv (raise (addCtr s Reg.STRM_EXTMISS 1) 5 1) log 5 0 r (due - 1)
  | _ => s
where
  conv (m : ConvMiss) (c : Nat) : State :=
    let s := { s with conv := { s.conv with miss := m :: s.conv.miss } }
    missEv (raise (addCtr s Reg.CONV_MISS 1) 8 5) log 8 (convEngine s c) c (due - 1)

/-- At a boundary every class 0 request past its deadline is missing to its requester (R425). -/
def expireReqs (s : State) : State :=
  let late := fun (r : DramReq) => r.native == 0 && !r.missed && (match r.due with | some d => decide (d ≤ posNow s) | none => false)
  let gone := s.dram.reqs.filter late
  let s := { s with dram := { s.dram with reqs := s.dram.reqs.map fun r => if late r then { r with missed := true } else r } }
  gone.foldl (fun s r => noteMiss s r.use (r.due.getD 0) r.addr r.len true) s

/-- Two requests whose addresses overlap (R416). -/
def reqOverlap (r q : DramReq) : Bool := decide (r.addr < q.addr + q.len) && decide (q.addr < r.addr + r.len)

/-- The queues when r arrives: earlier requests of a lower class to the same addresses inherit its class and stand just before it
(R416). -/
def joinQueue (l : List DramReq) (r : DramReq) : List DramReq :=
  let lower := fun (e : DramReq) => !e.head && reqOverlap e r && decide (e.cls > r.cls)
  l.filter (fun e => !lower e) ++ (l.filter lower).map (fun e => { e with cls := r.cls }) ++ [r]

/-- The service class of a request, fixed by the function that issues it (R413). -/
def dramClass : DramUse → Nat
  | .dma _ => 1
  | .control | .command => 2
  | .reel | .logMirror | .scrub => 3
  | _ => 0

/-- The master port and the source of a request (R431). -/
def dramPort (s : State) : DramUse → Nat × Nat
  | .farWin _ pe => (2 + pe % 4, 0)
  | .farRing | .capture | .extStore _ => (9, 0)
  | .convWindow c _ | .convCoef c _ _ _ | .convLine c _ _ | .convRing c | .convStore c _ => (7 + convEngine s c, 0)
  | .dma k => (kdma k, k)
  | .control => (0, 0)
  | .command => (1, 0)
  | .reel => (13, 0)
  | .logMirror => (14, 0)
  | .scrub => (15, 0)

/-- The page hint of an access of master m: that of the window which decodes it (R413, R432). -/
def pageClosed (s : State) (m a : Nat) : Bool :=
  match fabDecode s m a with
  | some w => bit (winWord s m w 3) 2
  | none => false

/-- What a class 0 access of master m at address a serves, by the region it lies in: a far window, a channel's block, an extended
store (R89, R116, R277). -/
def useAt (s : State) (m a : Nat) : Option DramUse :=
  let far := getR64 s Reg.PATH_FARBASE_LO Reg.PATH_FARBASE_HI
  let conv := getR64 s Reg.CONV_DRBASE_LO Reg.CONV_DRBASE_HI
  let ext := getR64 s Reg.STRM_EXTBASE_LO Reg.STRM_EXTBASE_HI
  if 2 ≤ m ∧ m ≤ 5 then
    if far ≤ a ∧ a < far + 0x2000000 then some (.farWin ((a - far) / 524288) (m - 2)) else none
  else if m = 7 ∨ m = 8 then
    if conv ≤ a ∧ a < conv + 606208 * busCount s then
      let c := (a - conv) / 606208
      if (a - conv) % 606208 < 16384 then some (.convRing c) else some (.convStore c 0)
    else none
  else if m = 9 then
    if ext ≤ a then
      let k := (a - ext) / 16384
      (s.strm.rx.findIdx? fun x => bit x.ent.flags 0 && decide (x.ent.mapofs ≤ k) && decide (k < x.ent.mapofs + x.ent.ch)).map
        DramUse.extStore
    else none
  else none

/-- An error response reaches its master (R434): a DMA error (on the first channel of the core that runs: DESIGN CHOICE, assumption
100), a missed transfer whose own event stands in place of DEADLINE_MISS; the rest uses the zero data or is firmware's. -/
def masterError (s : State) (m src a : Nat) : State :=
  if 16 ≤ m then dmaError s src
  else match useAt s m a with
    | some (.farWin q e) => noteMiss s (.farWin q e) (posNow s + 2) a 64 false
    | some u => noteMiss s u (posNow s + 1) a 64 false
    | none => s

/-- DRAM_REQUEST: a request enters its class queue on its channel (R413, R414); self-refresh and power-down end for it (R420, R422). One
that no window decodes to the usable DRAM is a decode error (R405, R434, R445). -/
def dramRequest (s : State) (q : DramIn) : State :=
  let len := if q.write.isEmpty then q.len else q.write.length
  let port := dramPort s q.use
  if len == 0 || decide (q.addr < 0x1000000000) then s
  else if fabTarget s port.1 q.addr len (!q.write.isEmpty) ≠ some 0 then
    masterError (fabError s 0 port.1 port.2 q.addr) port.1 port.2 q.addr
  else
    let s := match s.dram.selfRef with
      | .entering => addCtr { s with dram := { s.dram with selfRef := .out } } Reg.MEM_SRABORT 1
      | .in_ => addCtr { s with dram := { s.dram with selfRef := .out } } Reg.MEM_SRWAKE 1
      | _ => s
    let due := q.deadline.map fun f => (f : Int) + s.tl.z + s.tl.adj
    let c := dramClass q.use
    let r : DramReq := { id := s.dram.nextId, chan := dramChan q.addr, master := port.1, cls := c, native := c, head := false,
                         addr := q.addr, write := q.write, len := len, closed := pageClosed s port.1 q.addr, due := due, use := q.use,
                         at_ := q.at_, passed := 0, missed := false }
    let rank := dramRank (dramRanks s) q.addr
    { s with dram := { s.dram with reqs := joinQueue s.dram.reqs r, nextId := s.dram.nextId + 1, pd := andNot s.dram.pd (2 ^ rank) } }

/-- AGE_PROMOTION: a request older than the limit of its class at time t (ns) moves to the head list (R414). -/
def agePromotion (s : State) (id t : Nat) : State :=
  let lim := fun (r : DramReq) => getF s (if r.native = 0 then F.MEM_AGE0_NS else F.MEM_AGE1_NS)
  let hit := fun (r : DramReq) => r.id == id && !r.head && decide (t > r.at_ + lim r)
  if s.dram.reqs.any hit then
    addCtr { s with dram := { s.dram with reqs := s.dram.reqs.map fun r => if hit r then { r with head := true } else r } }
      Reg.MEM_PROMO 1
  else s

/-- The request of a queue to serve: the first, or with `hit` the first that hits an open row and may pass those before it
(R415). -/
def pickOf (s : State) (hit : Bool) (l : List DramReq) : Option DramReq :=
  let ranks := dramRanks s
  let isHit := fun (r : DramReq) => s.dram.open_.contains (bankKey ranks r.addr, dramRow ranks r.addr)
  let mayPass := fun (r : DramReq) => (l.takeWhile fun o => o.id != r.id).all fun o =>
    decide (bankKey ranks o.addr ≠ bankKey ranks r.addr) && decide (o.passed < 4)
  match (if hit then l.find? (fun r => isHit r && mayPass r) else none) with
  | some r => some r
  | none => l.head?

/-- Requests in order of arrival. -/
def oldestFirst (l : List DramReq) : List DramReq :=
  l.foldr (fun r o => o.takeWhile (fun e => decide (e.id < r.id)) ++ r :: o.dropWhile (fun e => decide (e.id < r.id))) []

/-- The earliest of the requests that must complete before r: an earlier one to overlapping addresses, and what that one waits for
(R416). -/
def firstOf (l : List DramReq) : Nat → DramReq → DramReq
  | 0, r => r
  | n + 1, r => match l.find? fun e => decide (e.id < r.id) && reqOverlap e r with
    | some e => firstOf l n e
    | none => r

/-- Whether the controller may serve a request now: none while a training runs (R411), and during a frequency change those that came
before it (R412). -/
def mayServe (s : State) (r : DramReq) : Bool :=
  s.dram.training.isNone && (match s.dram.change with
    | some c => !c.running || decide (r.id < c.upto)
    | none => true)

/-- The request a channel serves next: H, oldest first, then the class queues in order; while native class 0 requests wait, at most
one access in four serves an entry of H of class 1 to 3 (R414); an earlier request to the same addresses goes first (R416). -/
def nextReq (s : State) (ch : Nat) (hit : Bool) : Option DramReq :=
  let l := s.dram.reqs.filter fun r => r.chan == ch && mayServe s r
  let c0 := l.any fun r => r.native == 0
  let h := l.filter fun r => r.head && !(c0 && r.native != 0 && decide (s.dram.since.getD ch 3 < 3))
  let q := fun (k : Nat) => l.filter fun r => !r.head && r.cls == k
  let pool := if !h.isEmpty then oldestFirst h else if !(q 0).isEmpty then q 0 else if !(q 1).isEmpty then q 1
    else if !(q 2).isEmpty then q 2 else if !(q 3).isEmpty then q 3 else l
  (pickOf s hit pool).map (firstOf s.dram.reqs s.dram.reqs.length)

/-- The neighbour rows of a bank are refreshed, each activated and precharged, so that no row of the bank stays open; the entry's
count starts again (R415, R419). -/
def rhRefresh (s : State) (bank row : Nat) : State :=
  if !s.dram.rhDue.contains (bank, row) then s else
  let s := { s with dram := { s.dram with
    rhDue := s.dram.rhDue.filter (· != (bank, row))
    open_ := s.dram.open_.filter (·.1 != bank)
    rh := s.dram.rh.map fun e => if e.bank = bank ∧ e.row = row then { e with count := 0 } else e } }
  addCtr s Reg.MEM_RHREF 1

/-- An activate in the table of its bank (R419). -/
def rhActivate (s : State) (bank row : Nat) : State :=
  let s := (s.dram.rhDue.filter (·.1 == bank)).foldl (fun s d => rhRefresh s d.1 d.2) s
  let mine := s.dram.rh.filter (·.bank == bank)
  let (tbl, cnt) :=
    if mine.any (·.row == row) then
      let n := ((mine.find? (·.row == row)).map (·.count)).getD 0 + 1
      (s.dram.rh.map fun e => if e.bank = bank ∧ e.row = row then { e with count := n } else e, n)
    else if mine.length < 64 then (s.dram.rh ++ [{ bank := bank, row := row, count := 1 }], 1)
    else
      let low := mine.foldl (fun m e => min m e.count) ((mine.head?.map (·.count)).getD 0)
      let victim := (mine.find? (·.count == low)).getD { bank := bank, row := 0, count := 0 }
      (s.dram.rh.map fun e => if e = victim then { bank := bank, row := row, count := low + 1 } else e, low + 1)
  let due := if cnt ≥ getF s F.MEM_RHTHR_ACTS ∧ !s.dram.rhDue.contains (bank, row) then s.dram.rhDue ++ [(bank, row)]
    else s.dram.rhDue
  { s with dram := { s.dram with rh := tbl, rhDue := due } }

/-- Read data goes back to each port in the order of its reads: what came early waits (R416). `rdata` holds what was returned
last. -/
def returnReads : Nat → State → State
  | 0, s => s
  | n + 1, s =>
    let earlier := fun (x : Nat × Nat × Bytes) =>
      s.dram.reqs.any (fun r => r.write.isEmpty && r.master == x.1 && decide (r.id < x.2.1)) ||
      s.dram.heldReads.any (fun y => y.1 == x.1 && decide (y.2.1 < x.2.1))
    match s.dram.heldReads.find? fun x => !earlier x with
    | some x => returnReads n { s with dram := { s.dram with heldReads := s.dram.heldReads.erase x }, rdata := x.2.2 }
    | none => s

/-- The source a request names: the core on a KDMA port (R431). -/
def dramSource (s : State) (u : DramUse) : Nat := (dramPort s u).2

/-- The data effect of a request, once it has left the queues: the strobed bytes of a write, or the bytes of a read (R406, R416). -/
def dramData (s : State) (r : DramReq) : State :=
  if r.write.isEmpty then
    let x := memRead s r.addr r.len r.master (dramSource s r.use)
    let s := { x.2 with dram := { x.2.dram with heldReads := x.2.dram.heldReads ++ [(r.master, r.id, x.1)] } }
    returnReads s.dram.heldReads.length s
  else dramCells s r.master (dramSource s r.use) r.addr r.write

/-- The controller completes every request it has accepted, oldest first (R416). -/
def drainDram (s : State) : State :=
  (oldestFirst s.dram.reqs).foldl (fun s r =>
    dramData { s with dram := { s.dram with reqs := s.dram.reqs.filter fun e => e.id != r.id } } r) s

/-- DRAM_REQUEST_COMPLETE: the request that a channel serves next completes; one of class 0 past its deadline counts as a miss
(R414 to R416, R425). -/
def dramComplete (s : State) (ch : Nat) (hit : Bool) : State :=
  match nextReq s ch hit with
  | none => s
  | some r =>
    let ranks := dramRanks s
    let bank := bankKey ranks r.addr
    let row := dramRow ranks r.addr
    let low := r.head && r.native != 0
    let before := (s.dram.reqs.takeWhile (·.id != r.id)).map (·.id)
    let passed := fun (e : DramReq) => e.chan == ch && e.head == r.head && e.cls == r.cls && before.contains e.id
    let s := if s.dram.open_.contains (bank, row) then s else rhActivate s bank row
    let open_ := (s.dram.open_.filter (·.1 != bank)) ++ (if r.closed then [] else [(bank, row)])
    let s := { s with dram := { s.dram with
      reqs := (s.dram.reqs.filter (·.id != r.id)).map fun e => if passed e then { e with passed := e.passed + 1 } else e
      open_ := open_
      since := s.dram.since.set ch (if low then 0 else min 3 (s.dram.since.getD ch 3 + 1)) } }
    let s := useCheck (dramData s r) r.addr
    match r.due with
    | some d =>
      if r.native = 0 ∧ d ≤ posNow s then
        let s := if r.missed then s else noteMiss s r.use d r.addr r.len true
        raise (addCtr s Reg.MEM_C0MISS 1) 16 5
      else s
    | none => s

/-- REFRESH: an all-bank refresh closes every row and ends power-down; in self-refresh the schedule pauses (R415, R417, R420,
R421). -/
def dramRefresh (s : State) : State :=
  match s.dram.selfRef with
  | .out | .entering => { s with dram := { s.dram with open_ := [], pd := 0 } }
  | _ => s

/-- Drift of a lane in steps (R410). -/
def driftOf (n n0 : Nat) : Int := if n = 0 ∨ n0 = 0 then 0 else divRhu (16384 * ((n0 : Int) - n)) (n * n0)

/-- One lane's oscillator count (R410). -/
def trackLane (s : State) (l n : Nat) : State :=
  let f := F.MEM_LANE2_TRACK.plus (16 * l)
  let t := signed 8 (getF s f)
  let goal := clampI (-32) 32 (driftOf n (s.dram.n0.getD l 0))
  let t' := if t < goal then t + 1 else if t > goal then t - 1 else t
  let s := setF (setF s (F.MEM_LANE2_OSC.plus (16 * l)) n) f (unsigned 8 t')
  let s := if t' = t then s else addCtr s Reg.MEM_DRIFTADJ 1
  let s := if t'.natAbs > 8 ∧ t.natAbs ≤ 8 then raise (logEv s 0x1002 [(1, (l : Int)), (1, t')]) 16 4 else s
  if t'.natAbs > 24 then { s with dram := { s.dram with retrain := true } } else s

/-- WCK_DQ_OSCILLATOR_READ (R410): the counts of the eight lanes; tracking runs only at FSP0. -/
def oscRead (s : State) (counts : List Nat) : State :=
  if s.dram.fsp ≠ 0 ∨ !s.dram.ready then s
  else (counts.take 8).zipIdx.foldl (fun s c => trackLane s c.2 c.1) s

/-- MR4_POLL (R418): the refresh rate code of each rank and whether it lies above 1×. -/
def mr4Poll (s : State) (rates : List (Nat × Bool)) : State :=
  match rates.zipIdx.find? fun r => r.1.2 with
  | some r =>
    if s.dram.hotRef then s
    else raise (logEv { s with dram := { s.dram with hotRef := true } } 0x1004 [(1, (r.2 : Int)), (1, (r.1.1 : Int))]) 16 3
  | none => { s with dram := { s.dram with hotRef := false } }

/-- POWER_DOWN_ENTRY (R420): an idle rank. -/
def powerDown (s : State) (rank : Nat) : State :=
  let ranks := dramRanks s
  let busy := s.dram.reqs.any (fun r => dramRank ranks r.addr == rank) ||
    s.dram.open_.any (fun o => o.1 / 16 % 4 == rank)
  if getF s F.MEM_PDTIMER_CK = 0 ∨ busy ∨ rank ≥ ranks ∨ !s.dram.ready ∨ s.dram.selfRef ≠ .out then s
  else { s with dram := { s.dram with pd := s.dram.pd ||| 2 ^ rank } }

/-- SELF_REFRESH_ENTRY (R421, R422): entry begins, or its command is issued. -/
def selfRefresh (s : State) (issued : Bool) : State :=
  if getF s F.MEM_SRCTRL_IDLE = 0 ∨ takePresent s ∨ s.dram.training.isSome ∨ s.dram.change.isSome ∨ s.dram.reqs ≠ [] ∨
     !s.dram.ready then s
  else match s.dram.selfRef, issued with
    | .out, false => { s with dram := { s.dram with selfRef := .entering } }
    | .out, true | .entering, true => { s with dram := { s.dram with selfRef := .in_, open_ := [], pd := 0 } }
    | _, _ => s

/-- A refused configuration write or start (R403, R411). -/
def memCfgRej (s : State) : State := raise s 16 0

/-- A training runs: by itself, or inside a running frequency change to a set point without results (R411, R412). -/
def trainingNow (s : State) : Bool :=
  s.dram.training.isSome || (match s.dram.change with
    | some c => c.running && !bit s.dram.trained c.target
    | none => false)

/-- A write of MEM_CFG commits (R403). -/
def memCfgCommit (s : State) (v : Nat) : State :=
  if s.dram.ready ∨ trainingNow s then memCfgRej s
  else
    let d := v % 16
    setR s Reg.MEM_CFG (bits v 8 8 * 256 + (if d ≥ 7 then 0 else d))

/-- A training is asked for by register or by command (R403, R408, R411). -/
def memTrain (s : State) (sets : Nat) (ctx : Option Ctx) : State :=
  if takePresent s ∨ !dramSupported s ∨ s.dram.training.isSome ∨ s.dram.change.isSome then
    match ctx with
    | some c => reply (if dramSupported s then s else memCfgRej s) c .notPermitted []
    | none => memCfgRej s
  else { s with dram := { s.dram with training := some (sets % 4), trainCtx := ctx } }

/-- A write of MEM_TRAINCTRL commits. -/
def trainCtrlCommit (s : State) (v : Nat) : State :=
  let s := setF s F.MEM_TRAINCTRL_SETS (bits v 2 1)
  if bit v 0 then memTrain s (bits v 2 1) none else s

/-- The eye of a sweep: first step and width of the longest run of passing steps, the lower one on a tie (R408). -/
def eyeOf (mask : Nat) : Nat × Nat :=
  let r := (List.range 129).foldl (fun (a : (Nat × Nat) × Nat) i =>
    if i < 128 ∧ mask.testBit i then (a.1, a.2 + 1)
    else (if a.2 > a.1.2 then ((i - a.2, a.2), 0) else (a.1, 0))) ((0, 0), 0)
  r.1

/-- The intersection of the eyes of the ranks: its first step and its width (R408). -/
def eyeAll (masks : List Nat) : Nat × Nat :=
  let eyes := masks.map eyeOf
  let first := eyes.foldl (fun m e => max m e.1) 0
  let stop := eyes.foldl (fun m e => min m (e.1 + e.2)) 128
  (first, stop - first)

/-- Trained delay and eye width of a lane's sweep: RHU((first + last) / 2); with two ranks both are of the intersection (R408; the width:
DEDUCED, assumption 86). -/
def trainedOf (masks : List Nat) : Nat × Nat :=
  let e := eyeAll masks
  if e.2 = 0 then (0, 0) else ((2 * e.1 + e.2 - 1 + 1) / 2, e.2)

/-- Lanes that fail a training of one set point, and the first step at which one fails (R408, R409). -/
def trainFails (t : TrainSet) : Nat × Nat :=
  let byChan := fun (l : List Bool) => (List.range 8).filter fun k => !(l.getD (k / 2) false)
  let eye := fun (f : TrainLane → List Nat) => (List.range 8).filter fun k =>
    match t.lanes[k]? with
    | some x => decide ((trainedOf (f x)).2 < 16)
    | none => true
  let steps := [byChan t.cbt, byChan t.lev, eye (·.rd), eye (·.wr)]
  let mask := fun (l : List Nat) => ((l.eraseDups).map fun k => 2 ^ k).sum
  (mask steps.flatten, ((steps.zipIdx.find? fun x => !x.1.isEmpty).map fun x => x.2 + 1).getD 0)

/-- The results of a set point go into the lane windows (R408, R429). -/
def trainStore (s : State) (fsp : Nat) (t : TrainSet) : State :=
  let s := t.lanes.zipIdx.foldl (fun s x =>
    let d := 16 * x.2
    let r := trainedOf x.1.rd
    let w := trainedOf x.1.wr
    let f := fun (a b : Fld) => (if fsp = 0 then a else b).plus d
    let s := setF (setF s (f F.MEM_LANE0_RDLY0 F.MEM_LANE0_RDLY1) r.1) (f F.MEM_LANE0_WDLY0 F.MEM_LANE0_WDLY1) w.1
    let s := setF (setF s (f F.MEM_LANE1_EYER0 F.MEM_LANE1_EYER1) r.2) (f F.MEM_LANE1_EYEW0 F.MEM_LANE1_EYEW1) w.2
    setF s (F.MEM_LANE2_TRACK.plus d) 0) s
  let n := t.lanes.map (·.n0)
  { s with dram := { s.dram with trained := s.dram.trained ||| 2 ^ fsp, retrain := false, n0 := if fsp = 0 then n else s.dram.n0,
                                 n1 := if fsp = 0 then s.dram.n1 else n } }

/-- The reset windows on the DRAM follow MEM_USABLE (R431). -/
def dramWindows (s : State) : State :=
  (List.range 16).foldl (fun s m => (resetTargets m).zipIdx.foldl (fun s t =>
    if t.1 = 0 then setR s (Reg.FAB_WIN0 + 0x400 * m + 0x10 * t.2 + 8) (memUsable s / 4096) else s) s) s

/-- MEM_USABLE as READY says, and the windows with it. -/
def setUsable (s : State) : State :=
  dramWindows (setR64 s Reg.MEM_USABLE_LO Reg.MEM_USABLE_HI (if s.dram.ready then dramUsable s else 0))

/-- A set point fails its training: its results no longer stand, and the device has no usable DRAM (R409, R427). -/
def trainFail (s : State) (fsp : Nat) (t : TrainSet) : State :=
  let f := trainFails t
  let s := { s with dram := { s.dram with ready := false, trainFail := true, trained := andNot s.dram.trained (2 ^ fsp) } }
  let s := setUsable (setF s F.MEM_TRAINSTAT_FAILLANE f.1)
  raise (logEv s 0x1001 [(1, (f.1 : Int)), (1, (fsp : Int)), (1, (f.2 : Int))]) 16 6

/-- The set points of a training in the order trained, each with what it found: results are stored until one fails, which ends the
training (R408, R409; DEDUCED, assumption 86). -/
def trainSets : List (Nat × TrainSet) → State → State
  | [], s => setUsable (setF { s with dram := { s.dram with ready := bit s.dram.trained s.dram.fsp, trainFail := false } }
      F.MEM_TRAINSTAT_FAILLANE 0)
  | r :: l, s => if (trainFails r.2).1 != 0 then trainFail s r.1 r.2 else trainSets l (trainStore s r.1 r.2)

/-- A training of some set points ends (R408, R409). READY needs results for the set point in use (DESIGN CHOICE, assumption 86). One
of no set point changes nothing but its duration. -/
def trainApply (s : State) (res : List (Nat × TrainSet)) (ms : Nat) : State :=
  let s := setF s F.MEM_TRAINSTAT_MS (min ms 65535)
  if res.isEmpty then s else trainSets res s

/-- MEM_TRAINING_DONE (R408, R409): the running training ends; a deferred frequency change starts; the command's reply is sent. -/
def trainingDone (s : State) (fsp1 fsp0 : TrainSet) (ms : Nat) : State :=
  match s.dram.training with
  | none => s
  | some sets =>
    let res := (if bit sets 1 then [(1, fsp1)] else []) ++ (if bit sets 0 then [(0, fsp0)] else [])
    let ctx := s.dram.trainCtx
    let s := { s with dram := { s.dram with training := none, trainCtx := none } }
    let s := raise (trainApply s res ms) 16 1
    let s := { s with dram := { s.dram with change := s.dram.change.map fun c => { c with running := true, upto := s.dram.nextId } } }
    replyTo s ctx .ok []

/-- The status of a frequency change (R412): register, interrupt, reply. -/
def fspStatus (s : State) (st : Status) (ctx : Option Ctx) (done : Bool) : State :=
  let s := setF s F.MEM_FSPSTAT_STATUS st.code
  let s := if done then raise s 16 2 else s
  replyTo s ctx st []

/-- A frequency change is asked for by register or by command (R412). One to the set point in use completes at once, also during a
training (DEDUCED, assumption 86). One that would train a combination R402 does not list is refused as a training is (R403). -/
def fspRequest (s : State) (target : Nat) (ctx : Option Ctx) : State :=
  if target = 1 ∧ takePresent s then fspStatus s .notPermitted ctx false
  else if s.dram.change.isSome then fspStatus s .memBusy ctx false
  else if target = s.dram.fsp then fspStatus s .ok ctx true
  else if !bit s.dram.trained target && !dramSupported s then fspStatus (memCfgRej s) .notPermitted ctx false
  else
    let defer := s.dram.training.isSome
    let s := { s with dram := { s.dram with
      change := some { target := target, deferred := defer, running := !defer, upto := s.dram.nextId, ctx := ctx } } }
    if defer then addCtr s Reg.MEM_DEFER 1 else s

/-- A write of MEM_FSPREQ commits (R412). -/
def fspReqCommit (s : State) (v : Nat) : State :=
  let s := setF s F.MEM_FSPREQ_TARGET (v % 2)
  if bit v 31 then fspRequest s (v % 2) none else s

/-- MEM_FSP_CHANGE_DONE (R412): the running change completes; a target without stored training was trained as part of it, and where
that failed the set point stays. A take that came to stand at FSP0 since the request keeps the controller there: the change to FSP1
is refused as at its request (R407, R412; DEDUCED, assumption 86). -/
def fspDone (s : State) (t : TrainSet) (ms : Nat) : State :=
  match s.dram.change with
  | none => s
  | some c =>
    if !c.running then s
    else if c.target = 1 ∧ takePresent s then
      fspStatus { s with dram := { s.dram with change := none, selfRef := .out, pd := 0, open_ := [] } } .notPermitted c.ctx false
    else
    let s := { s with dram := { s.dram with change := none, selfRef := .out, pd := 0, open_ := [] } }
    let s := if bit s.dram.trained c.target then { s with dram := { s.dram with fsp := c.target } }
      else if (trainFails t).1 ≠ 0 then raise (trainApply s [(c.target, t)] ms) 16 1
      else raise (trainApply { s with dram := { s.dram with fsp := c.target } } [(c.target, t)] ms) 16 1
    let st : Status := if c.deferred then .deferredDone else .ok
    let s := if c.deferred then logEv s 0x1003 [(1, (c.target : Int)), (1, 1), (2, (st.code : Int))] else s
    fspStatus s st c.ctx true

/-- Class 0 bytes the engines issue at the boundary for the frame at position n (R91, R113, R115, R125, R277). -/
def c0Scheduled (s : State) (n : Int) : Nat :=
  let conv := s.conv.chans.map fun p =>
    let r := runFor p.2 n
    let blocks := (partSizes r.len).map fun q =>
      if blockDue s p.1 q { r with done := [] } n then
        let k := ((partitions r.len).filter (·.1 == q)).length
        let extra := ((r.chg.take 1).filter fun g => match g.p0 with | some q => decide (q ≤ n) | none => false).length
        (8 * q - 128) + k * (8 * q + 64) * (1 + extra) + (k - 1) * (8 * q + 64) + (if k > 1 then 8 * q + 64 else 0)
      else 0
    blocks.sum + (if r.len ≥ 2 then 64 else 0)
  let far := 1024 * (s.path.windows.filter fun w => w.pos == n + 1).length + 64 * s.path.fa.length
  let ext := (s.strm.rx.map fun x => if bit x.ent.flags 0 then 128 * x.ent.ch else 0).sum
  conv.sum + far + ext + (if s.conv.capFrom.isSome then 128 else 0)

/-- The MEM registers at a boundary (R427). -/
def publishMem (s : State) : State :=
  let d := s.dram
  let st := b2n d.ready * 2 ^ 15 + b2n d.trainFail * 2 ^ 14 + b2n d.retrain * 2 ^ 13 + b2n d.hotRef * 2 ^ 12 +
    (if d.selfRef = .in_ ∨ d.selfRef = .dark then (2 ^ dramRanks s - 1) * 2 ^ 10 else 0) + d.pd % 4 * 2 ^ 8 +
    d.trained % 4 * 16 + b2n d.change.isSome * 8 + b2n (trainingNow s) * 4 + d.fsp % 2
  let s := setFB (setR s Reg.MEM_STATUS st) F.MEM_FSPSTAT_BUSY d.change.isSome
  let n := nRef s.tl.rate * (if d.hotRef then 2 else 1)
  let s := setR s Reg.MEM_REFINFO (n % 256 * 2 ^ 24 + (if d.ready then dramRfc s else 0))
  let s := setR s Reg.MEM_C0BUDGET (if d.ready then c0Budget s % 2 ^ 24 else 0)
  let used := min (c0Scheduled s (posNow s - 1)) (2 ^ 24 - 1)
  maxF (setR s Reg.MEM_C0USED used) F.MEM_C0PEAK_BYTES used

/-- DRAM_REQUEST (R414). -/
def execDramRequest (q : DramIn) (s : State) : Host.Outcome State Fault Refusal := .next (whilePowered s fun s => dramRequest s q)

/-- AGE_PROMOTION (R414): request `id` at time t, ns. -/
def execAgePromotion (id t : Nat) (s : State) : Host.Outcome State Fault Refusal := .next (whilePowered s fun s => agePromotion s id t)

/-- DRAM_REQUEST_COMPLETE (R416): channel ch; `hit` lets a row hit pass. -/
def execDramRequestComplete (ch : Nat) (hit : Bool) (s : State) : Host.Outcome State Fault Refusal := .next (whilePowered s fun s => dramComplete s ch hit)

/-- REFRESH (R417). -/
def execRefresh (s : State) : Host.Outcome State Fault Refusal := .next (whilePowered s fun s => dramRefresh s)

/-- WCK_DQ_OSCILLATOR_READ (R410). -/
def execWckDqOscillatorRead (counts : List Nat) (s : State) : Host.Outcome State Fault Refusal := .next (whilePowered s fun s => oscRead s counts)

/-- MR4_POLL (R418). -/
def execMr4Poll (rates : List (Nat × Bool)) (s : State) : Host.Outcome State Fault Refusal := .next (whilePowered s fun s => mr4Poll s rates)

/-- ROW_HAMMER_REFRESH (R419): the neighbour rows of a row of a bank (64 × channel + 16 × rank + bank). -/
def execRowHammerRefresh (bank row : Nat) (s : State) : Host.Outcome State Fault Refusal := .next (whilePowered s fun s => rhRefresh s bank row)

/-- ROW_HAMMER_TABLE_CLEAR (R419): the tables are cleared; a refresh that is due stays due. -/
def execRowHammerTableClear (s : State) : Host.Outcome State Fault Refusal :=
  .next (whilePowered s fun s => { s with dram := { s.dram with rh := [] } })

/-- POWER_DOWN_ENTRY (R420). -/
def execPowerDownEntry (rank : Nat) (s : State) : Host.Outcome State Fault Refusal := .next (whilePowered s fun s => powerDown s rank)

/-- SELF_REFRESH_ENTRY (R421, R422). -/
def execSelfRefreshEntry (issued : Bool) (s : State) : Host.Outcome State Fault Refusal := .next (whilePowered s fun s => selfRefresh s issued)

/-- MEM_TRAIN_START (R411): a write of MEM_TRAINCTRL waits for its boundary. -/
def execMemTrainStart (v : Nat) (s : State) : Host.Outcome State Fault Refusal := .next (queueWrite s Reg.MEM_TRAINCTRL v)

/-- MEM_TRAINING_DONE (R408). -/
def execMemTrainingDone (fsp1 fsp0 : TrainSet) (ms : Nat) (s : State) : Host.Outcome State Fault Refusal :=
  .next (trainingDone s fsp1 fsp0 ms)

/-- MEM_FSPREQ_GO (R412): a write of MEM_FSPREQ waits for its boundary. -/
def execMemFspreqGo (v : Nat) (s : State) : Host.Outcome State Fault Refusal := .next (queueWrite s Reg.MEM_FSPREQ v)

/-- MEM_FSP_CHANGE_DONE (R412). -/
def execMemFspChangeDone (t : TrainSet) (ms : Nat) (s : State) : Host.Outcome State Fault Refusal := .next (fspDone s t ms)

end Sys2Proof.Machine
end

