-- ==== Sys2Proof/Machine/Geom.lean ====
section
/-! DEFINITION. The object table, metadata at a tick, the geometry tick and the path list it writes (R46 to R54, R61 to R77). -/

namespace Sys2Proof.Machine

open Sys2Proof

/-- Objects of the part (R4). -/
def objCount (s : State) : Nat := if s.hw.tk2512 then 512 else 1024

/-- Word w of the table entry of object o (R68). -/
def objR (o w : Nat) : Nat := Reg.GEOM_OBJ_X + 32 * o + 4 * w

/-- The objects whose word w is not zero, with that word, by rising index. -/
def objsWith (s : State) (w : Nat) : List (Nat × Nat) :=
  s.regs.filterMap fun p =>
    if Reg.GEOM_OBJ_X ≤ p.1 ∧ p.1 < Reg.GEOM_OBJ_X + 32768 ∧ p.1 % 32 = 4 * w then some ((p.1 - Reg.GEOM_OBJ_X) / 32, p.2.toNat)
    else none

/-- Inserts into a rising list. -/
def insertNat (x : Nat) : List Nat → List Nat
  | [] => [x]
  | y :: t => if x < y then x :: y :: t else if x = y then y :: t else y :: insertNat x t

/-- An object counts as changed (R47). -/
def markChanged (s : State) (o : Nat) : State := { s with geo := { s.geo with changed := insertNat o s.geo.changed } }

/-- Stores words of an entry; the object is changed when a word is (R47). -/
def objStore (s : State) (o : Nat) (ws : List (Nat × Nat)) : State :=
  let diff := ws.any fun w => getR s (objR o w.1) != w.2
  let s := ws.foldl (fun s w => setR s (objR o w.1) w.2) s
  if diff then markChanged s o else s

/-- A write that R48 rejects. -/
def objReject (s : State) : State := raise (addCtr s Reg.GEOM_REJECT 1) 6 5

/-- A CSET that R48 lets through: any while no take is active. -/
def csetOk (s : State) (c : Nat) : Bool :=
  match s.take.active with
  | some t => decide (c < t.geo.csets.length)
  | none => true

/-- A host write of word w of object o commits (R46 to R48, R68). A word is judged whole: a CSET out of range that a MODIFY of word 5
leaves as it was is rejected too (DESIGN CHOICE, assumption 75). -/
def objWrite (s : State) (o w v : Nat) : State :=
  if o ≥ objCount s then s else
  match w with
  | 0 | 1 | 2 => objStore s o [(w, v)]
  | 3 => objStore s o [(3, v % 2 ^ 18)]
  | 4 => objStore s o [(4, v % 2 ^ 24)]
  | 5 =>
    if bits v 25 24 = 3 ∨ !csetOk s (bits v 15 8) then objReject s
    else
      let old := getR s (objR o 5)
      objStore s o [(5, bits v 31 29 * 2 ^ 29 + bits old 28 28 * 2 ^ 28 + bits v 25 8 * 256 + bits old 5 0)]
  | _ => s

/-- A metadata entry is applied to its object (R47, R48, R287, R289). -/
def metaApply (s : State) (m : MetaEnt) : State :=
  if m.obj ≥ objCount s ∨ (bit m.mask 3 ∧ m.mode ≥ 3) ∨ (bit m.mask 5 ∧ !csetOk s m.cset) then objReject s
  else
    let s := stamp s
    let old := getR s (objR m.obj 5)
    let w5 := if bit m.mask 3 then setBits old 25 24 m.mode else old
    let w5 := if bit m.mask 4 then setBits w5 23 16 m.prio else w5
    let w5 := if bit m.mask 5 then setBits w5 15 8 m.cset else w5
    let w5 := if bit m.mask 6 then setBits w5 31 29 (m.oflags / 32) else w5
    let ws := (if bit m.mask 0 then [(0, m.x), (1, m.y), (2, m.z)] else []) ++ (if bit m.mask 1 then [(3, m.size)] else []) ++
      (if bit m.mask 2 then [(4, m.gain)] else []) ++ [(5, w5)]
    let s := objStore s m.obj ws
    { s with strm := { s.strm with applied := Sparse.putN s.strm.applied m.obj (m.frame + 1) } }

/-- A tick starts at this boundary (R51). -/
def tickStarts (s : State) : Bool :=
  match s.take.active with
  | some t => s.geo.tickDue || s.tl.frame % t.sys.tick == 0
  | none => false

/-- Of two entries for one object, the one that names the later frame, else the later in ingress order (R53). -/
def metaChoose (best : List MetaEnt × State) (m : MetaEnt) : List MetaEnt × State :=
  match best.1.find? fun b => b.obj == m.obj with
  | none => (best.1 ++ [m], best.2)
  | some b =>
    let keep := if b.frame < m.frame ∨ (b.frame = m.frame ∧ b.packet ≤ m.packet) then m else b
    ((best.1.filter fun x => x.obj != m.obj) ++ [keep], metaCollide best.2)

/-- A run of metadata drops ends at the first boundary with no drop since the one before (R289). -/
def dropRunEnd (s : State) : State :=
  let s := if s.strm.dropped then s else { s with strm := { s.strm with dropRun := false } }
  { s with strm := { s.strm with dropped := false } }

/-- Order 5 of R30: the metadata whose tick comes (R21, R53, R289): what names this frame or an earlier one, and every late entry,
whatever its frame is called now (R288). An entry whose frame has come without a tick start is not late. Answers the late entries
applied. -/
def metaTick (s : State) : List MetaEnt × State :=
  if !tickStarts s then ([], s) else
  let f := s.tl.frame
  let isDue := fun (m : MetaEnt) => m.late || decide (m.frame ≤ f)
  let due := s.strm.meta_.filter isDue
  let s := { s with strm := { s.strm with meta_ := s.strm.meta_.filter fun m => !isDue m, lastTick := some f } }
  let (best, s) := due.foldl (fun (a : List MetaEnt × State) m =>
    if m.frame + 1 < Sparse.getN a.2.strm.applied m.obj then (a.1, metaDrop a.2 Reg.STRM_METASTALE 3 m.obj m.frame)
    else metaChoose a m) ([], s)
  let s := best.foldl metaApply s
  (best.filter (·.late), s)

/-- A write or a cut gives K (R47, R67). -/
def kspmCommit (s : State) (v : Nat) : State :=
  if getR s Reg.GEOM_KSPM = v % 2 ^ 32 then s else
  let s := setR s Reg.GEOM_KSPM (v % 2 ^ 32)
  (objsWith s 5).foldl (fun s p => if bits p.2 25 24 = 2 ∨ bit p.2 30 then markChanged s p.1 else s) s

/-- A write or a cut gives the gain floor (R47, R67). -/
def floorCommit (s : State) (v : Nat) : State :=
  if getR s Reg.GEOM_FLOOR = v % 2 ^ 24 then s else
  (List.range (objCount s)).foldl markChanged (setR s Reg.GEOM_FLOOR (v % 2 ^ 24))

/-- Every enabled object counts as changed: FORCE, a new geometry section (R47). -/
def changeEnabled (s : State) : State := (objsWith s 5).foldl (fun s p => if bit p.2 31 then markChanged s p.1 else s) s

/-- A write of GEOM_CTRL commits (R67). -/
def geomCtrlCommit (s : State) (v : Nat) : State :=
  let s := setFB s F.GEOM_CTRL_FREEZE (bit v 0)
  if bit v 1 then changeEnabled s else s

/-- An object as an evaluation sees it (R68). -/
def objIn (s : State) (o : Nat) : ObjIn :=
  let w := fun i => getR s (objR o i)
  { pos := { x := signed 32 (w 0), y := signed 32 (w 1), z := signed 32 (w 2) }, size := w 3, gain := signed 24 (w 4),
    doppler := bit (w 5) 30, focus := bit (w 5) 29, far := bit (w 5) 28, mode := bits (w 5) 25 24, cset := bits (w 5) 15 8 }

/-- The order of evaluation and of the list: PRIORITY highest first, then index (R62). -/
def prioBefore (a b : Nat × Nat) : Bool := decide (a.2 > b.2) || (a.2 == b.2 && decide (a.1 < b.1))

/-- The targets of an object. -/
def targetsOf (s : State) (o : Nat) : ObjTargets := Sparse.get (fun _ => ObjTargets.none) s.geo.targets o

/-- Stores the targets of an object. -/
def setTargets (s : State) (o : Nat) (t : ObjTargets) : State :=
  { s with geo := { s.geo with targets := Sparse.put (fun _ => ObjTargets.none) s.geo.targets o t } }

/-- A GEOM counter with its interrupt bit. -/
def geomCount (s : State) (a b n : Nat) : State := if n = 0 then s else raise (addCtr s a n) 6 b

/-- Evaluates one object (R52, R55 to R60). -/
def evalOne (s : State) (g : GeoSec) (o prio : Nat) : State :=
  let cfg : GeoCfg := { fs := fsOf s.tl.rate, k := getR s Reg.GEOM_KSPM, floor := getR s Reg.GEOM_FLOOR }
  let r := evalObject g cfg (objIn s o)
  let s := setTargets s o { prio := if r.1.isEmpty then 0 else prio, paths := r.1 }
  let s := { s with geo := { s.geo with changed := s.geo.changed.filter (· != o) } }
  let s := geomCount s Reg.GEOM_CLAMP 0 (b2n r.2.clamp)
  let s := geomCount s Reg.GEOM_DCLAMP 1 r.2.dclamp
  let s := geomCount s Reg.GEOM_GSAT 2 r.2.gsat
  let s := geomCount s Reg.GEOM_BADSET 6 (b2n r.2.badset)
  setR s (objR o 7) (2 ^ 31 + b2n r.2.clamp * 2 ^ 28)

/-- The read of an object's geometry table entries: whether one is uncorrectable (R441; which codewords hold them, assumption 101). -/
def geoRead (s : State) (o : Nat) : Bool × State :=
  if s.fab.inj.isEmpty then (false, s) else
  let r := openRead s 2 0x800000 6 (Config.geoPlaces o)
  (r.1.any id, r.2)

/-- Evaluates objects in order while their costs fit (R64, R65): the state, the units used, the objects evaluated and deferred. An
uncorrectable table entry leaves an object with its previous targets (R61, R441); it stays changed (assumption 101). -/
def evalAll (g : GeoSec) : List (Nat × Nat) → Nat → State → State × Nat × List Nat × List Nat
  | [], _, s => (s, 0, [], [])
  | o :: t, left, s =>
    let c := evalCost g (objIn s o.1)
    if c ≤ left then
      let x := geoRead s o.1
      let r := evalAll g t (left - c) (if x.1 then x.2 else evalOne x.2 g o.1 o.2)
      (r.1, r.2.1 + c, if x.1 then r.2.2.1 else o.1 :: r.2.2.1, r.2.2.2)
    else (s, 0, [], o.1 :: t.map (·.1))

/-- The STAT words at a tick (R68): EVAL, DEFERRED and LATE tell of the last tick, CLAMPED of the last evaluation. -/
def statClear (s : State) : State :=
  (objsWith s 7).foldl (fun s p => setR s (objR p.1 7) (bits p.2 28 28 * 2 ^ 28 + p.2 % 1024)) s

/-- Sets one bit of the STAT words of some objects. -/
def statSet (s : State) (b : Nat) (os : List Nat) : State :=
  os.foldl (fun s o => setR s (objR o 7) (getR s (objR o 7) ||| 2 ^ b)) s

/-- PATHS of every STAT word. -/
def statPaths (s : State) : State :=
  let s := (objsWith s 7).foldl (fun s p => setR s (objR p.1 7) (p.2 / 1024 * 1024)) s
  s.geo.targets.foldl (fun s p => setR s (objR p.1 7) (getR s (objR p.1 7) / 1024 * 1024 + min p.2.paths.length 512)) s

/-- A PATH counter with its interrupt bit. -/
def pathCount (s : State) (a b n : Nat) : State := if n = 0 then s else raise (addCtr s a n) 7 b

/-- The far slot of an object (R50). -/
def farSlotOf (t : Take) (o : Nat) : Option Nat :=
  (t.render.farslot.zipIdx.find? fun q => q.1 == o).map (·.2)

/-- The path list of the tick that starts at this boundary (R69 to R77, R79): `kept` the objects not evaluated. The previous targets
are those of the list the last tick wrote (R72, R73). The first tick writes area A (DESIGN CHOICE, assumption 76). -/
def pathTick (s : State) (t : Take) (kept : Nat → Bool) (objs : List (Nat × ObjTargets)) : State :=
  let f := s.tl.frame
  let b := getF s F.PATH_BUDGET_SLOTS
  let cap := b - getF s F.PATH_RESERVE_SLOTS
  let full := (objs.map fun o => o.2.paths.length).sum
  let isOver := decide (full > cap)
  let old := (tickGroups s.mem s.path.tick).flatMap (·.2.2)
  let (new, sat) := admitPaths old (farSlotOf t) kept cap objs
  let m := 16 * (t.sys.tick - f % t.sys.tick)
  let g := grantSlots (posNow s) m (getF s F.PATH_SLEW_S) b old new
  let s := if isOver then
      let s := if s.path.overload then s else raise (addCtr s Reg.PATH_OVER 1) 7 6
      logRun s 0x0701 [frameF f, (4, (full : Int)), (4, (cap : Int))] 0 (!s.path.overload)
    else s
  let s := pathCount s Reg.PATH_DOFSSAT 0 sat
  let s := addCtr s Reg.PATH_JUMP g.jumps
  let s := pathCount s Reg.PATH_JUMPSTEP 4 g.steps
  let s := pathCount s Reg.PATH_FADECUT 5 g.cuts
  let areaB := !s.path.areaB
  let s := setR s Reg.PATH_ADMIT new.length
  let area := csram + getR s (if areaB then Reg.PATH_LISTB else Reg.PATH_LISTA)
  let tick := { g.tick with area := area, size := 16 * 1025 + 8 * cap }
  blockWrite { s with path := { s.path with tick := tick, overload := isOver, areaB := areaB } } area (listBytes tick.list)

/-- The geometry tick at this boundary (R51 to R54, R61 to R65), after the metadata of order 5; `late` the late entries that were not
discarded as stale or collided. One that R48 rejects is late like the others, and a packet of which none is left is not counted
(DESIGN CHOICE, assumption 75). -/
def geomTick (s : State) (late : List MetaEnt) : State :=
  match s.take.active with
  | none => s
  | some t =>
    if !tickStarts s then s else
    let f := s.tl.frame
    let s := statClear { s with geo := { s.geo with tickDue := false } }
    let frozen := getF s F.GEOM_CTRL_FREEZE == 1
    let (s, used, evald, deferred) :=
      if frozen then (s, 0, [], []) else
      let off := s.geo.changed.filter fun o => !bit (getR s (objR o 5)) 31
      let s := off.foldl (fun s o => setTargets s o ObjTargets.none) s
      let s := { s with geo := { s.geo with changed := s.geo.changed.filter fun o => !off.contains o } }
      let order := sortBy prioBefore (s.geo.changed.map fun o => (o, bits (getR s (objR o 5)) 23 16))
      evalAll t.geo order (evalCap (frameCycles s.tl.rate)) s
    let s := statSet s 30 deferred
    let s := geomCount s Reg.GEOM_DEFER 7 deferred.length
    let s := match deferred with
      | o :: _ => logRun s 0x0601 [frameF f, (2, (o : Int)), (2, (deferred.length : Int))] 0 (!s.geo.overrun)
      | [] => s
    let s := { s with geo := { s.geo with overrun := !deferred.isEmpty } }
    let packets := late.foldl (fun (l : List Nat) m => if l.contains m.packet then l else l ++ [m.packet]) []
    let s := if late.isEmpty then s else
      let s := geomCount (statSet s 29 (late.map (·.obj))) Reg.GEOM_LATE 3 packets.length
      let lowest := late.foldl (fun m x => min m x.obj) 1023
      logRun s 0x0602 [frameF f, (2, (lowest : Int)), (2, (packets.length : Int))] 0 (!s.geo.lateRun)
    let s := statPaths { s with geo := { s.geo with lateRun := !late.isEmpty } }
    let objs := (sortBy (fun a b => prioBefore a.1 b.1) (s.geo.targets.map fun p => ((p.1, p.2.prio), p.2))).map fun x => (x.1.1, x.2)
    let s := setR s Reg.GEOM_EVALUSED used
    let s := maxF s F.GEOM_EVALPEAK_UNITS used
    let s := setR s Reg.GEOM_OBJEVAL evald.length
    let s := setR s Reg.GEOM_PATHREQ (min (objs.map fun o => o.2.paths.length).sum (2 ^ 20 - 1))
    let s := setR64 s Reg.GEOM_TICKF_LO Reg.GEOM_TICKF_HI f
    pathTick s t (fun o => !evald.contains o) objs

/-- The path engine that makes a read: which one R94 leaves open, so an error names a free one of those present (R431; assumption 76). -/
def pathMaster (s : State) : Nat × State :=
  if s.fab.inj.isEmpty then (2, s) else
  let r := freeBits 2 s
  (2 + r.1 % (if s.hw.tk2512 then 2 else 4), r.2)

/-- The path engines take in the list of the frame whose processing begins from its area: each group's bytes are read once, and a
group with an uncorrectable error is not rendered for that frame (R69, R441; when they read it, assumption 76). -/
def takeList (s : State) (t : TickCtx) : TickCtx × State :=
  let r := (tickGroups s.mem t).foldl (fun (a : List PathEntry × State) g =>
    let m := pathMaster a.2
    let e := eccRead m.2 g.1 g.2.1 m.1 0
    (if e.1 then a.1 else a.1 ++ g.2.2, e.2)) ([], s)
  ({ t with list := r.1 }, r.2)

/-- The place of the far window of slot q for the frame at position p in the far staging area: three windows of 1,024 bytes for each
slot (R90, R541; their order is the model's own, assumption 76). -/
def farStage (q : Nat) (p : Int) : Nat := csram + 0x7A0000 + 3072 * q + 1024 * (p % 3).toNat

/-- One far window is fetched (R90, R91): 1,024 bytes of the ring, in two reads where it wraps, into its staging place. An
uncorrectable DRAM error is a missed transfer, its own event logged in place of DEADLINE_MISS (R434). -/
def farLoad (s : State) (w : FarWin) : State :=
  let base := getR64 s Reg.PATH_FARBASE_LO Reg.PATH_FARBASE_HI + 524288 * w.slot
  let c := (4 * ((16 * placeOf s w.pos - w.a - 224) % 131072)).toNat
  let n := min 1024 (524288 - c)
  let m := pathMaster s
  let a := eccRead m.2 (base + c) n m.1 0
  let b := if n = 1024 then (false, a.2) else eccRead a.2 base (1024 - n) m.1 0
  let s := blockWrite b.2 (farStage w.slot w.pos) (Memory.readBytes b.2.mem (base + c) n ++ Memory.readBytes b.2.mem base (1024 - n))
  let bad := a.1 || b.1
  let s := if bad then raise (addCtr s Reg.PATH_FARMISS 1) 7 7 else s
  { s with path := { s.path with windows := s.path.windows ++ [{ w with missed := bad }] } }

/-- The far windows of the frame after next: the list of the frame whose processing starts now gives their delays (R90, R91). -/
def farFetch (s : State) : State :=
  let p := posNow s + 1
  let keep := s.path.windows.filter fun w => decide (w.pos ≥ p - 2)
  let slotOf := fun o => (s.path.render.list.find? fun e => e.obj == o).bind (·.far)
  let new := (farDelays s.path.render.list).filterMap fun x =>
    match farA x.2.1 x.2.2, slotOf x.1 with
    | some a, some q => some ({ slot := q, pos := p, a := a, missed := false } : FarWin)
    | _, _ => none
  let act := (new.foldl (fun (m : Nat) w => m ||| 2 ^ w.slot) 0)
  setR64 (new.foldl farLoad { s with path := { s.path with windows := keep } }) Reg.PATH_FARACT_LO Reg.PATH_FARACT_HI act

/-- The GEOM and PATH registers at a boundary (R67, R98). -/
def publishGeom (s : State) : State :=
  let act := s.take.active.isSome
  let s := setR s Reg.GEOM_STATUS (b2n s.geo.overrun * 4 + getF s F.GEOM_CTRL_FREEZE * 2 + b2n act)
  let s := setR s Reg.GEOM_EVALCAP (evalCap (frameCycles s.tl.rate))
  setR s Reg.PATH_STATUS (b2n act * 32 + b2n s.path.overload * 16 + (if s.hw.tk2512 then 3 else 15))

/-- GEOM_FORCE (R47): a write of GEOM_CTRL waits for its boundary. -/
def execGeomForce (v : Nat) (s : State) : Host.Outcome State Fault Refusal := .next (queueWrite s Reg.GEOM_CTRL v)

end Sys2Proof.Machine
end

