-- ==== Sys2Proof/Machine/Lio.lean ====
section
/-! DEFINITION. TDM ports, microphone capture with the decimation engine, and pulse-density outputs (R372 to R401). -/

namespace Sys2Proof.Machine

open Sys2Proof

/-- FCLK cycles per sample (R377). -/
def sampleCycles (s : State) : Nat := frameCycles s.tl.rate / 16

/-- TDM port p. -/
def tdmOf (s : State) (p : Nat) : TdmPort := s.lio.ports[p]?.getD TdmPort.off

/-- Stores TDM port p. -/
def setTdm (s : State) (p : Nat) (v : TdmPort) : State := { s with lio := { s.lio with ports := s.lio.ports.setIfInBounds p v } }

/-- MUL, SLOTS and ROLE of a PCFG word (R373, R399). -/
def tdmMul (c : Nat) : Nat := bits c 30 27 + 1
def tdmSlots (c : Nat) : Nat := bits c 26 22
def tdmMaster (c : Nat) : Bool := bit c 21

/-- A port that drives its clocks: a master, in a role that drives outputs; in the other roles of a pair it runs as a slave on the
clocks it receives (R463). -/
def tdmDrives (s : State) (q : TdmPort) : Bool := tdmMaster q.pcfg && s.pair.driven

/-- The port starts and stops by its ZEROX gates (R381). -/
def TdmPort.zerox (q : TdmPort) : Bool := bit q.pstart 31

/-- The port carries data: in RUN, and while its ZEROX gates close (R381). -/
def TdmPort.live (q : TdmPort) : Bool := q.st == .run || (q.st == .stopping && q.zerox)

/-- A mask that has been released is the mask in force (R379). -/
def TdmPort.settled (q : TdmPort) : TdmPort :=
  match q.shadow with
  | some (v, some _) => { q with mask := v, shadow := none }
  | _ => q

/-- The slots a port has enabled, by the mask in force and the one on its way. -/
def TdmPort.enabled (q : TdmPort) : Nat := match q.shadow with | some (v, _) => q.mask ||| v | none => q.mask

/-- A port enters a state: its interrupt (R399). -/
def tdmEnter (s : State) (p : Nat) (q : TdmPort) : State :=
  if (tdmOf s p).st = q.st then setTdm s p q else raise (setTdm s p q) 13 1

/-- The timeout of a gate in words of its slot: ceil(ZXTO × fs / 1,000) samples (R382). -/
def gateLimit (s : State) (q : TdmPort) : Nat := ceilDiv (bits q.pstart 15 0 * fsOf s.tl.rate) 1000 * tdmMul q.pcfg

/-- A crossing (R382); the first sample has no predecessor. -/
def crosses (g : Gate) (x : Int) : Bool :=
  x == 0 || (match g.prev with | some y => decide (x.sign ≠ y.sign) | none => false)

/-- One sample through a gate (R382): what the slot carries, the gate after it, and whether a forced change begins. After the timeout
the ramp runs, crossing or not. -/
def gateStep (lim : Nat) (g : Gate) (x : Int) : Int × Gate × Bool :=
  let h := { g with prev := some x }
  let ramp := fun (k : Nat) => rhu 4 (x * (k : Int))
  match g.ph with
  | .opened => (x, h, false)
  | .closed => (0, h, false)
  | .opening =>
    if g.n ≥ lim then (ramp 1, { h with ph := .ramping, n := 1 }, !g.counted)
    else if crosses g x then (x, { h with ph := .opened }, false)
    else (0, { h with n := g.n + 1 }, false)
  | .ramping =>
    (ramp (g.n + 1), (if g.n + 1 ≥ 16 then { h with ph := .opened } else { h with n := g.n + 1 }), false)
  | .closing =>
    if g.n ≥ lim then (ramp 15, { h with ph := .fading, n := 1 }, !g.counted)
    else if crosses g x then (0, { h with ph := .closed }, false)
    else (x, { h with n := g.n + 1 }, false)
  | .fading =>
    (ramp (16 - (g.n + 1)), (if g.n + 1 ≥ 16 then { h with ph := .closed } else { h with n := g.n + 1 }), false)

/-- A forced change counts (R382). -/
def zxForce (s : State) (n : Nat) : State := if n = 0 then s else raise (addCtr s Reg.TDM_ZXFORCE n) 13 2

/-- A list of samples through a gate: the results, the gate, the forced changes. -/
def gateRun (lim : Nat) (g : Gate) (xs : List Int) : List Int × Gate × Nat :=
  xs.foldl (fun a x =>
    let r := gateStep lim a.2.1 x
    (a.1 ++ [r.1], r.2.1, a.2.2 + b2n r.2.2)) ([], g, 0)

/-- The mask that covers period m of sample i (R379). -/
def maskAt (q : TdmPort) (i : Int) (m : Nat) : Nat :=
  match q.shadow with
  | some (v, some (i0, m0)) => if i0 < i ∨ (i0 = i ∧ m0 ≤ m) then v else q.mask
  | _ => q.mask

/-- A slave port's sample periods get their indices (R377, R378): index and slot words, the port, and the slips as slow (true) or
fast; the timestamp is that of the first edge, with the index the edge has been assigned. `n` is the frame position. -/
def tdmAssign (cs : Nat) (n : Int) (q : TdmPort) (edges : List TdmSample) : List (Int × List Nat) × TdmPort × List Bool :=
  edges.foldl (fun a e =>
    let (got, q, slips) := a
    let c : Int := (cs : Int)
    let i := 16 * n + e.edge / c
    let phi := e.edge % c
    let slots := tdmSlots q.pcfg
    let lastOf := fun (w : List Nat) => w.drop (w.length - slots)
    match q.index with
    | none =>
      let x := i + (if 2 * phi ≥ c then 1 else 0)
      (got ++ [(x, e.words)],
       { q with index := some x, last := lastOf e.words, stamp := some (x, (i - x) * c + phi) }, slips)
    | some y =>
      let x := y + 1
      let err := (i - x) * c + phi
      let stamped := fun (v : Int) => if q.stamp.isSome then q else { q with stamp := some (v, (i - v) * c + phi) }
      if 4 * err > 3 * c then
        let rep := (List.range (tdmMul q.pcfg)).flatMap fun _ => q.last
        (got ++ [(x, rep), (x + 1, e.words)], { stamped (x + 1) with index := some (x + 1), last := lastOf e.words }, slips ++ [true])
      else if 4 * err < -(3 * c) then (got, stamped y, slips ++ [false])
      else (got ++ [(x, e.words)], { stamped x with index := some x, last := lastOf e.words }, slips)) ([], { q with stamp := none }, [])

/-- A slip counts in the direction of each side the port uses, and its run is logged (R378). -/
def tdmSlip (s : State) (p lab : Nat) (slow : Bool) : State :=
  let q := tdmOf s p
  let hasIn := bits q.mask 15 0 != 0
  let hasOut := bits q.mask 31 16 != 0
  let first := if slow then hasIn || !hasOut else hasOut && !hasIn
  let both := hasIn && hasOut
  let under := both || first
  let isOver := both || !first
  let s := if under then addCtr s (Reg.TDM_UNDER + 8 * p) 1 else s
  let s := if isOver then addCtr s (Reg.TDM_OVER + 8 * p) 1 else s
  let dir : Int := if slow then (if hasIn || !hasOut then 0 else 1) else (if hasIn || !hasOut then 1 else 0)
  let s := logRun s 0x0D01 [(1, (p : Int)), (1, dir), frameF lab] p (!q.slipRun)
  if q.slipRun then s else raise (setTdm s p { q with slipRun := true }) 13 0

/-- The slot words of the frame at position n, sample by sample and period by period, as they enter the input block (R375, R380,
R381): masked slots and ports that carry no data read zero. -/
def tdmWords (q : TdmPort) (n : Int) (got : List (Int × List Nat)) : List (List (List Nat)) :=
  let slots := tdmSlots q.pcfg
  let live := q.live
  (List.range 16).map fun (k : Nat) =>
    let i := 16 * n + (k : Int)
    let w := match got.find? fun g => g.1 == i with | some g => g.2 | none => []
    (List.range (tdmMul q.pcfg)).map fun m =>
      (List.range slots).map fun j => if live && bit (maskAt q i m) j then w.getD (m * slots + j) 0 % 2 ^ 32 else 0

/-- The first period a mask committed at the boundary of frame position n covers on a master port (R379). -/
def maskFirst (cs : Nat) (pcfg : Nat) (n : Int) : Int × Nat :=
  let mul := tdmMul pcfg
  let m0 := ceilDiv (640 * 32 * tdmSlots pcfg * mul * mul + 2 * cs * mul) (cs * 32 * tdmSlots pcfg * mul)
  (16 * n + ((m0 / mul : Nat) : Int), m0 % mul)

/-- The mask of a shadow register is released: its first period is known (R379). -/
def maskReleaseAt (s : State) (p : Nat) (i : Int) (m : Nat) : State :=
  let q := tdmOf s p
  match q.shadow with
  | some (v, none) =>
    setR (setTdm s p { q with shadow := some (v, some (i, m)) }) (Reg.TDM_MASKIDX + 0x20 * p)
      (unsigned 32 (i - 16 * (s.tl.z + s.tl.adj)))
  | _ => s

/-- The mask that waits in the shadow register of a slave port is released in the frame at position n, unless TDM_MASK_RELEASE has done
it: it covers the first sample whose first edge comes 640 FCLK cycles and 2 BCLK after the boundary (R379; assumption 25). -/
def slaveRelease (s : State) (p : Nat) (n : Int) (edges : List TdmSample) : State :=
  let q := tdmOf s p
  let cs := sampleCycles s
  let bclks := 32 * tdmSlots q.pcfg * tdmMul q.pcfg
  if tdmDrives s q then s else
  match edges.find? fun e => decide (640 * (bclks : Int) + 2 * cs ≤ e.edge * bclks) with
  | none => s
  | some e =>
    let before := edges.takeWhile fun x => decide (x.edge < e.edge)
    let i := match (tdmAssign cs n q (if q.live then before else [])).2.1.index with
      | some y => y + 1
      | none => 16 * n + divRhu e.edge cs
    maskReleaseAt s p i 0

/-- What a port brings for the frame at position n: its slot words as signed values by slot, gated, one list per slot over the
periods of the frame; the state holds its input block (R374, R375, R382). A slave port assigns indices only while data is enabled
(R377). -/
def tdmPortCapture (s : State) (tdmbuf p : Nat) (n : Int) (lab : Nat) (edges : List TdmSample) : List (List Int) × State :=
  let s := slaveRelease s p n edges
  let q := tdmOf s p
  let mul := tdmMul q.pcfg
  let slots := tdmSlots q.pcfg
  let (got, q', slips) := if tdmDrives s q then
      (edges.zipIdx.map (fun e => (16 * n + ((e.2 : Nat) : Int), e.1.words)), { q with index := none, stamp := some (16 * n, 0) }, [])
    else if q.live then tdmAssign (sampleCycles s) n q edges
    else ([], { q with index := none, stamp := none }, [])
  let all := q.ahead ++ got
  let rows := tdmWords q n all
  let q' := { q' with ahead := all.filter fun g => decide (g.1 ≥ 16 * n + 16), slipRun := q.slipRun && !slips.isEmpty }
  let s := setTdm s p q'
  let s := slips.foldl (fun s d => tdmSlip s p lab d) s
  let lim := gateLimit s q
  let gs := (List.range 16).map fun j =>
    if j < slots then
      let xs := rows.flatMap fun r => r.map fun w => signed 32 (w.getD j 0)
      if q.zerox then gateRun lim (q.gin.getD j Gate.idle) xs else (xs, q.gin.getD j Gate.idle, 0)
    else ([], q.gin.getD j Gate.idle, 0)
  let s := setTdm s p { tdmOf s p with gin := gs.map (·.2.1) }
  let s := zxForce s (gs.map (·.2.2)).sum
  let word := fun (k : Nat) =>
    let per := 16 / mul
    let sm := k % 16 / per
    let j := k % 16 % per
    if j < slots then unsigned 32 ((gs.getD j ([], Gate.idle, 0)).1.getD (k / 16 * mul + sm) 0) else 0
  let r := ((placeOf s n) % (s.tl.depth : Int)).toNat
  let block := (List.range 256).flatMap fun k => leBytes 4 (word k)
  let s := blockWrite s (csram + tdmbuf + 2048 * (p + 16 * r)) block
  (gs.map (·.1), s)

/-- The five-fold convolution of a boxcar of r ones (R386): one boxcar more. -/
def boxcar (r : Nat) (b : List Int) : List Int :=
  let acc := (b ++ List.replicate (r - 1) 0).foldl (fun (a : List Int × Int) x => (a.1 ++ [a.2 + x], a.2 + x)) ([], 0)
  acc.1.zipIdx.map fun x => x.1 - (if x.2 < r then 0 else acc.1.getD (x.2 - r) 0)

/-- The impulse response b of the CIC (R386): 5(R − 1) + 1 taps. -/
def cicTaps (r : Nat) : List Int := boxcar r (boxcar r (boxcar r (boxcar r (List.replicate r 1))))

/-- k_c (R385). -/
def decSkew (c r : Nat) : Nat := c * r / 16

/-- 2R × x_c of R387. -/
def decX (c r taps : Nat) (falling : Bool) : Int :=
  2 * (decSkew c r : Int) + (b2n falling : Int) - 5 * ((r : Int) - 1) - (r : Int) * ((taps : Int) - 1)

/-- D_c and RESID (R387). -/
def decD (c r taps : Nat) (falling : Bool) : Int := -(divRhu (decX c r taps falling) (2 * r))
def decResid (cs c r taps : Nat) (falling : Bool) : Int :=
  divRhu ((decX c r taps falling + 2 * (r : Int) * decD c r taps falling) * (cs : Int)) (2 * r)

/-- S_R (R388). -/
def decSettle (r taps : Nat) : Nat := ceilDiv (5 * (r - 1)) r + taps - 1

/-- The inputs of a decimator source in one frame (R384, R386): 16R of them. -/
def decInputs (mics : List (List Bool)) (tdm : List (List (List Int))) (src r : Nat) : List Int :=
  if src < 16 then
    let b := mics.getD src []
    (List.range (16 * r)).map fun u => if b.getD u false then 1 else -1
  else
    let x := (tdm.getD ((src - 0x1000) / 16) []).getD (src % 16) []
    (List.range (16 * r)).map fun u => rhu 7 (x.getD u 0)

/-- The channel is a falling-edge microphone (R384). -/
def decFalling (src : Nat) : Bool := decide (src < 16) && src % 2 == 1

/-- One output of a channel (R386): `xs` its inputs, newest first from input Rn + k_c on; `ws` the earlier normalized outputs. -/
def decOutput (mic : Bool) (r : Nat) (taps h : List Int) (xs ws : List Int) : Int × Bool × List Int :=
  let v := ((taps.zip xs).map fun p => p.1 * p.2).sum
  let w := divRhu (v * (if mic then 2 ^ 24 else 1)) (r ^ 5)
  let ws := (w :: ws).take h.length
  let y := rhu 30 ((h.zip ws).map fun p => p.1 * p.2).sum
  (satS 32 y, overS 32 y, ws)

/-- Channel c over one frame: sixteen outputs, its saturations, and the channel after it (R385, R386, R388). The first output
after a start takes k_c + 1 inputs, every other one R. -/
def decFrame (c : Nat) (d : DecCh) (h : List Int) (new : List Int) : List Int × Nat × DecCh :=
  let taps := cicTaps d.r
  let k := decSkew c d.r
  let spare := if d.xs.isEmpty then 0 else d.r - (k + 1)
  let inp := (d.xs.take spare).reverse ++ new
  let step := fun (a : List Int × Nat × List Int × List Int × List Int) (i : Nat) =>
    let (ys, sat, hist, rest, ws) := a
    let n := if i = 0 then spare + k + 1 else d.r
    let hist := ((rest.take n).reverse ++ hist).take taps.length
    let (y, o, ws) := decOutput (decide (d.src < 16)) d.r taps h hist ws
    (ys ++ [y], sat + b2n o, hist, rest.drop n, ws)
  let (ys, sat, _, _, ws) := (List.range 16).foldl step ([], 0, d.xs.drop spare, inp, d.ws)
  (ys, sat, { d with xs := (new.reverse ++ d.xs).take (taps.length + d.r), ws := ws })

/-- A channel's frame is taken: its outputs into the decimator buffer, its destinations, the capture ring (R387 to R389, R125). -/
def decChannel (s : State) (lio : LioSec) (mics : List (List Bool)) (tdm : List (List (List Int))) (n : Int) (c : Nat)
    (cap : Captured) : Captured × State :=
  match s.lio.decs[c]? with
  | none => (cap, s)
  | some d =>
    if d.r = 0 then (cap, s) else
    let q := lio.csets.getD d.cset (1, [])
    let h := q.2.take q.1
    let (ys, sat, d') := decFrame c d h (decInputs mics tdm d.src d.r)
    let uns := min d.left 16
    let left := d.left - uns
    let e := lio.dec.getD c { src := 0xFFFF, cset := 0, obj := 0xFFFF, xin := 0xFFFF }
    let s := { s with lio := { s.lio with decs := s.lio.decs.setIfInBounds c { d' with left := left, told := d.told || (left == 0) } } }
    let s := if sat = 0 then s else raise (addCtr s Reg.DEC_SAT sat) 14 1
    let s := if uns ≠ 0 ∧ left = 0 ∧ !d.told then raise s 14 0 else s
    let a := csram + lio.decbuf + 1088 * ((placeOf s n) % (s.tl.depth : Int)).toNat
    let s := ys.zipIdx.foldl (fun s y =>
      blockWrite s (a + 4 * (16 * y.2 + c)) (leBytes 4 (unsigned 32 y.1))) s
    let s := blockWrite s (a + 1024 + 4 * c) (leBytes 4 (if uns = 0 then 0 else 2 ^ 31 + uns))
    let s := if s.conv.capFrom.isSome ∧ getF s F.CONV_CAP_CTRL_MIC = c then
        ys.zipIdx.foldl (fun s y =>
          let i : Int := 16 * placeOf s n + ((y.2 : Nat) : Int) - decD c d.r q.1 (decFalling d.src)
          capStore s 1 (i % 65536).toNat y.1) s
      else s
    (cap.put e.obj e.xin ys, s)

/-- The capture stage takes the frame at position n, labelled lab, from every TDM port and decimator channel (R375, R376, R387). -/
def lioCapture (s : State) (lio : LioSec) (bi : BoundaryIn) (n : Int) (lab : Nat) (cap : Captured) : Captured × State :=
  let (tdm, s) := (List.range 16).foldl (fun (a : List (List (List Int)) × State) p =>
    if (tdmOf a.2 p).st = .off then (a.1 ++ [[]], a.2) else
    let r := tdmPortCapture a.2 lio.tdmbuf p n lab (bi.tdm.getD p [])
    (a.1 ++ [r.1], r.2)) ([], s)
  let cap := (List.range 16).foldl (fun cap p =>
    let q := tdmOf s p
    if q.st = .off ∨ tdmMul q.pcfg ≠ 1 then cap else
    (List.range (tdmSlots q.pcfg)).foldl (fun (cap : Captured) j =>
      let m := lio.inmap.getD (16 * p + j) (0xFFFF, 0xFFFF)
      cap.put m.1 m.2 (((tdm.getD p []).getD j []).map (rhu 7))) cap) cap
  (List.range 16).foldl (fun (a : Captured × State) c => decChannel a.2 lio bi.mics tdm n c a.1) (cap, s)

/-- A start under METHOD = ZEROX closes the gates of the enabled slots, a stop begins to close them (R382). -/
def gatesTo (ph : GatePh) (mask : Nat) (gs : List Gate) : List Gate :=
  gs.zipIdx.map fun g =>
    let before := if ph = .opening then none else g.1.prev
    if bit mask g.2 then { ph := ph, n := 0, prev := before, counted := false } else Gate.idle

/-- A mask goes into the shadow register of a port and waits there for its release (R379); a port that is off has no period and takes
it at once. -/
def maskShadow (s : State) (p v : Nat) : State :=
  let q := (tdmOf s p).settled
  setTdm s p (if q.st = .off then { q with mask := v, shadow := none } else { q with shadow := some (v, none) })

/-- A write of TDM_MASKp commits (R379). -/
def maskCommit (s : State) (p v : Nat) : State := maskShadow (setR s (Reg.TDM_MASK + 0x20 * p) v) p v

/-- At the boundary of the frame at position n: a master port has released the mask that was committed at the boundary before, if
TDM_MASK_RELEASE has not said so (R379). -/
def releaseMasks (s : State) (n : Int) : State :=
  (List.range 16).foldl (fun s p =>
    let q := tdmOf s p
    let f := maskFirst (sampleCycles s) q.pcfg (n - 1)
    if tdmDrives s q && q.st != .off then maskReleaseAt s p f.1 f.2 else s) s

/-- Masks whose first period lies before the frame at position n are wholly in force. -/
def masksSettle (s : State) (n : Int) : State :=
  (List.range 16).foldl (fun s p =>
    match (tdmOf s p).shadow with
    | some (_, some (i, _)) => if i < 16 * n then setTdm s p (tdmOf s p).settled else s
    | _ => s) s

/-- A port starts at the frame at position n (R381, R382); the take's mask comes into force by the rule for a write (R379). -/
def tdmStart (s : State) (p : Nat) (pcfg pstart mask : Nat) (n : Int) : State :=
  let zx := bit pstart 31
  let first : TdmState := if zx then .run else .priming
  let q : TdmPort := { TdmPort.off with st := first, pcfg := pcfg, pstart := pstart, since := n,
                                        mask := (tdmOf s p).settled.mask, shadow := some (mask, none) }
  let gi := gatesTo .opening (bits mask 15 0) q.gin
  let go := gatesTo .opening (bits mask 31 16) q.gout
  let q := if zx then { q with gin := gi, gout := go } else q
  tdmEnter s p q

/-- Every port at a cut (R379, R383): the settings of the incoming section. -/
def tdmCut (s : State) (lio : LioSec) (n : Int) (newRate : Bool) : State :=
  (List.range 16).foldl (fun s p =>
    let pc := lio.pcfg.getD p 0
    let ps := lio.pstart.getD p 0x4000A
    let mk := lio.mask.getD p 0
    let q := tdmOf s p
    let s := setR (setR (setR s (Reg.TDM_PCFG + 0x20 * p) pc) (Reg.TDM_MASK + 0x20 * p) mk) (Reg.TDM_PSTART + 0x20 * p) ps
    if bit pc 31 then
      if (q.st == .run || q.st == .priming) && q.pcfg == pc && q.pstart == ps && !newRate then
        maskShadow s p mk
      else tdmStart s p pc ps mk n
    else match q.st with
      | .off => setTdm s p { TdmPort.off with pcfg := pc, pstart := ps, mask := mk }
      | .stopping => s
      | _ =>
        let gi := gatesTo .closing (bits q.enabled 15 0) q.gin
        let go := gatesTo .closing (bits q.enabled 31 16) q.gout
        tdmEnter s p { q with st := .stopping, since := n, gin := gi, gout := go }) s

/-- The ratio of a decimator source (R384). -/
def decRatio (lio : LioSec) (src : Nat) : Nat :=
  if src = 0xFFFF then 0
  else if src < 16 then (if lio.micosr = 1 then 64 else if lio.micosr = 2 then 128 else 0)
  else tdmMul (lio.pcfg.getD ((src - 0x1000) / 16) 0)

/-- Every decimator channel at a cut (R388, R400). -/
def decCut (s : State) (lio : LioSec) : State :=
  let s := setR s Reg.DEC_CFG lio.micosr
  lio.dec.zipIdx.foldl (fun s e =>
    let r := decRatio lio e.1.src
    let t := (lio.csets.getD e.1.cset (1, [])).1
    let c := e.2
    let old := s.lio.decs[c]?.getD DecCh.off
    let same := old.src == e.1.src && old.cset == e.1.cset && old.r == r
    let left := if r = 0 then 0 else decSettle r t
    let new : DecCh := { src := e.1.src, cset := e.1.cset, r := r, xs := [], ws := [], left := left, told := left == 0 }
    let s := { s with lio := { s.lio with decs := s.lio.decs.setIfInBounds c (if same then old else new) } }
    let en := r != 0
    let f := decFalling e.1.src
    let s := setR s (Reg.DEC_CHCFG + 16 * c) (if en then 2 ^ 31 + e.1.cset * 65536 + r else 0)
    setR s (Reg.DEC_CHDLY + 16 * c) (if en then
      unsigned 16 (decResid (sampleCycles s) c r t f) * 65536 + decSkew c r * 256 + unsigned 8 (decD c r t f) else 0)) s

/-- Group g. -/
def pdmOf (s : State) (g : Nat) : PdmGroup := s.lio.groups[g]?.getD PdmGroup.idle

/-- Stores group g. -/
def setPdm (s : State) (g : Nat) (v : PdmGroup) : State := { s with lio := { s.lio with groups := s.lio.groups.setIfInBounds g v } }

/-- The settings of group g: those its last load strobe took; a group that carries nothing has those of its register (R391, R393). -/
def pdmCfg (s : State) (g : Nat) : Nat :=
  if bit (pdmOf s g).cfg 31 then (pdmOf s g).cfg else getR s (Reg.PDM_GCFG + 4 * g)

/-- Every group at a cut (R401): a group takes what changed with its next load strobe (R391); one that carries nothing starts anew. -/
def pdmCut (s : State) (lio : LioSec) : State :=
  lio.gcfg.zipIdx.foldl (fun s c =>
    let a := Reg.PDM_GCFG + 4 * c.2
    if getR s a = c.1 then s
    else if bit (pdmOf s c.2).cfg 31 then setR s a c.1
    else setPdm (setR s a c.1) c.2 PdmGroup.idle) s

/-- The LOCALIO section at a cut at the frame at position n (R383, R388, R397). -/
def lioCut (s : State) (lio : LioSec) (n : Int) (newRate : Bool) : State :=
  pdmCut (decCut (tdmCut s lio n newRate) lio) lio

/-- Every gate that the stop of a port began to close is closed (R381); a high-rate port has no output samples (R374). -/
def allClosed (q : TdmPort) : Bool :=
  let done := fun (g : Gate) => g.ph != .closing && g.ph != .fading
  (q.gin.take (tdmSlots q.pcfg)).all done && (tdmMul q.pcfg != 1 || (q.gout.take (tdmSlots q.pcfg)).all done)

/-- The states of the ports at the boundary of the frame at position n (R381). -/
def tdmStates (s : State) (n : Int) : State :=
  (List.range 16).foldl (fun s p =>
    let q := tdmOf s p
    let due := decide (n ≥ q.since + (bits q.pstart 23 16 : Nat))
    match q.st with
    | .priming => if due then tdmEnter s p { q with st := .run } else s
    | .stopping =>
      if (if q.zerox then decide (n > q.since) && allClosed q else due) then
        tdmEnter s p { TdmPort.off with pcfg := getR s (Reg.TDM_PCFG + 0x20 * p), pstart := getR s (Reg.TDM_PSTART + 0x20 * p),
                                        mask := getR s (Reg.TDM_MASK + 0x20 * p) }
      else s
    | _ => s) s

/-- The sixteen samples of an output code in an emitted frame (R274). -/
def outSamples (out : Sparse (List Int)) (code : Nat) : List Int :=
  if code = 0xFFFF then zero16 else Sparse.get (fun _ => zero16) out code

/-- Where the output block of port p for the frame at position n stands (R375). -/
def tdmOutAt (s : State) (lio : LioSec) (p : Nat) (n : Int) : Nat :=
  csram + lio.tdmbuf + 2048 * (p + 16 * ((placeOf s n) % (s.tl.depth : Int)).toNat) + 1024

/-- The output blocks of the TDM ports for the emitted frame at position n (R374, R375, R381, R382). The block of the frame before has
been read by its port, which reports its damaged codewords (R439, R441). -/
def tdmEmit (s : State) (lio : LioSec) (n : Int) (out : Sparse (List Int)) : State :=
  (List.range 16).foldl (fun s p =>
    let q := tdmOf s p
    if q.st = .off ∨ tdmMul q.pcfg ≠ 1 then s else
    let s := if s.fab.inj.isEmpty then s else (eccRead s (tdmOutAt s lio p (n - 1)) 1024 12 0).2
    let slots := tdmSlots q.pcfg
    let live := q.live
    let lim := gateLimit s q
    let gs := (List.range 16).map fun j =>
      let g := q.gout.getD j Gate.idle
      if j < slots then
        let xs := if live then outSamples out (lio.ocode.getD (16 * p + j) 0xFFFF) else zero16
        if q.zerox then gateRun lim g xs else (xs, g, 0)
      else ([], g, 0)
    let s := zxForce (setTdm s p { q with gout := gs.map (·.2.1) }) (gs.map (·.2.2)).sum
    let block := (List.range 256).flatMap fun k => leBytes 4 (unsigned 32 (((gs.getD (k % 16) ([], Gate.idle, 0)).1.getD (k / 16) 0) * 128))
    blockWrite s (tdmOutAt s lio p n) block) s

/-- A fault of a group's queue (R391): kind 0 a miss, 1 an overrun. -/
def pdmLoadErr (s : State) (g kind : Nat) : State :=
  let q := pdmOf s g
  let s := raise (addCtr s (if kind = 0 then Reg.PDM_LOADMISS else Reg.PDM_LOADOVR) 1) 15 0
  let s := logRun s 0x0F02 [(1, (g : Int)), (1, (kind : Int)), frameF (frameNow s)] g (!q.errRun)
  setPdm s g { pdmOf s g with errRun := true }

/-- An output frame enters the queue of a group (R391). -/
def pdmQueue (s : State) (g : Nat) (f : PdmFrame) : State :=
  let q := pdmOf s g
  if q.queue.length < 2 then setPdm s g { q with queue := q.queue ++ [f] }
  else pdmLoadErr (setPdm s g { q with queue := q.queue.drop 1 ++ [f] }) g 1

/-- SP (R392). -/
def pdmSpan (code : Nat) : Int := if code = 0 then 0x400000 else if code = 1 then 0x201374 else if code = 2 then 0x10137A else 0x066666

/-- The scaled sample (R392). -/
def pdmScale (span : Nat) (y : Int) : Int := rhu 24 (y * pdmSpan span * 3)

/-- One bit of the modulator (R392): the bit, the modulator, and whether it overloaded. -/
def pdmBit (m : PdmMod) (u : Int) : Bool × PdmMod × Bool :=
  let b := decide (m.s5 ≥ 0)
  let v : Int := if b then 16777216 else -16777216
  let n : PdmMod :=
    { m with
      s1 := m.s1 + rhu 30 (751619 * (u - v))
      s2 := m.s2 + m.s1 - rhu 30 (3006477 * m.s3) - rhu 30 (9019431 * v)
      s3 := m.s3 + m.s2 - rhu 30 (59055800 * v)
      s4 := m.s4 + m.s3 - rhu 30 (8482560 * m.s5) - rhu 30 (262315128 * v)
      s5 := m.s5 + m.s4 - rhu 30 (599040564 * v) }
  if [n.s1, n.s2, n.s3, n.s4, n.s5].any fun x => decide (x.natAbs > 2 ^ 40) then
    (b, { PdmMod.zero with a := m.a }, true)
  else (b, n, false)

/-- One sample: OSR bits, the first least significant (R392). -/
def pdmSample (osr : Nat) (m : PdmMod) (a : Int) : List Bool × PdmMod × Nat :=
  let r := (List.range osr).foldl (fun (x : List Bool × PdmMod × Nat) (j : Nat) =>
    let u := m.a + divRhu ((a - m.a) * ((j + 1 : Nat) : Int)) osr
    let t := pdmBit x.2.1 u
    (t.1 :: x.1, t.2.1, x.2.2 + b2n t.2.2)) ([], m, 0)
  (r.1.reverse, { r.2.1 with a := a }, r.2.2)

/-- A bit string as a natural, the first bit least significant. -/
def bitsNat (b : List Bool) : Nat := b.foldr (fun x v => 2 * v + b2n x) 0

/-- The sixteen samples of one output through its modulator (R392): its bits, the modulator, the overloads. -/
def pdmPeriod (osr span : Nat) (m : PdmMod) (ys : List Int) : Nat × PdmMod × Nat :=
  let r := ys.foldl (fun (x : List Bool × PdmMod × Nat) y =>
    let t := pdmSample osr x.2.1 (pdmScale span y)
    (x.1 ++ t.1, t.2.1, x.2.2 + t.2.2)) ([], m, 0)
  (bitsNat r.1, r.2.1, r.2.2)

/-- A group plays: it is enabled, or its disabling waits for a load strobe (R391). -/
def pdmOn (s : State) (g : Nat) : Bool := bit (getR s (Reg.PDM_GCFG + 4 * g)) 31 || bit (pdmOf s g).cfg 31

/-- PDM_LOAD_STROBE (R391 to R394): a strobe of group g, `phase` MCLK cycles after the output frame boundary. The group takes the
settings of its register and the oldest frame; one that is no longer enabled falls idle. -/
def pdmStrobe (s : State) (g : Nat) (phase : Int) : State :=
  if g ≥ 4 || !pdmOn s g then s else
  let cfg := getR s (Reg.PDM_GCFG + 4 * g)
  let s := setR s (Reg.PDM_STRBPH + 4 * g) (unsigned 32 phase)
  let q := pdmOf s g
  let s := match q.queue with
    | [] => pdmLoadErr s g 0
    | _ => setPdm s g { q with queue := q.queue.drop 1, errRun := false }
  let f := (q.queue.head?).getD { ch := List.replicate 8 zero16, mute := false }
  let q := { pdmOf s g with cfg := cfg }
  let zeros := List.replicate 8 PdmMod.zero
  if !bit cfg 31 then setPdm s g PdmGroup.idle
  else if q.spanPend then
    setPdm s g { q with run := true, mods := zeros, spanPend := false, spanIdle := true, out := none }
  else
    let q := { q with span := bits cfg 28 27, spanIdle := false }
    if f.mute then setPdm s g { q with run := true, mods := zeros, out := none }
    else
      let osr := if bit cfg 30 then 128 else 64
      let rs := (List.range 8).map fun i => pdmPeriod osr q.span (q.mods.getD i PdmMod.zero) (f.ch.getD i zero16)
      let ovl := (rs.map (·.2.2)).sum
      let s := setPdm s g { q with run := true, mods := rs.map (·.2.1), out := some (rs.map (·.1)) }
      if ovl = 0 then s else raise (addCtr s Reg.PDM_OVL ovl) 15 1

/-- The emitted frame enters every group that plays; the strobe of a FRAME group comes at this boundary (R391). -/
def pdmEmit (s : State) (lio : LioSec) (mute : Bool) (out : Sparse (List Int)) : State :=
  (List.range 4).foldl (fun s g =>
    if !pdmOn s g then s else
    let f : PdmFrame := { ch := (List.range 8).map fun i => outSamples out (lio.psrc.getD (8 * g + i) 0xFFFF), mute := mute }
    let s := pdmQueue s g f
    if bit (pdmCfg s g) 29 then s else pdmStrobe s g 0) s

/-- A write of PDM_GCFGg commits: SPAN is its only field (R394, R401). -/
def spanCommit (s : State) (g v : Nat) : State :=
  let a := Reg.PDM_GCFG + 4 * g
  let q := pdmOf s g
  setPdm (setR s a (setBits (getR s a) 28 27 (bits v 28 27))) g (if q.spanIdle then q else { q with spanPend := true })

/-- PDM_CLEAR_N falls (R395). -/
def pdmClearAssert (s : State) : State :=
  if s.lio.clear then s else
  let s := raise (addCtr { s with lio := { s.lio with clear := true } } Reg.PDM_CLEARS 1) 15 2
  logEv s 0x0F01 [frameF (frameNow s)]

/-- PDM_CLEAR_N rises: every group carries the idle pattern until its next strobe, from zero states (R395). -/
def pdmClearRelease (s : State) : State :=
  { s with lio := { s.lio with clear := false,
                               groups := s.lio.groups.map fun q =>
                                 { q with run := false, mods := List.replicate 8 PdmMod.zero, out := none } } }

/-- The code of a TDM port state (R381). -/
def tdmCode : TdmState → Nat
  | .off => 0
  | .priming => 1
  | .run => 2
  | .stopping => 3

/-- The TDM, DEC and PDM registers at a boundary (R399 to R401). -/
def publishLio (s : State) : State :=
  let pre := s.take.active.isNone && getF s F.TDM_PRECUT_CLKON == 1
  let s := (List.range 16).foldl (fun s p =>
    let q := tdmOf s p
    let s := setR s (Reg.TDM_PSTATE + 0x20 * p) (tdmCode q.st)
    match q.stamp with
    | some (i, e) =>
      let idx := (i - 16 * (s.tl.z + s.tl.adj)).toNat % 2 ^ 64
      setR (setR64 s (Reg.TDM_TSIDX_LO + 0x20 * p) (Reg.TDM_TSIDX_HI + 0x20 * p) idx) (Reg.TDM_TSPHASE + 0x20 * p) (unsigned 32 e)
    | none => s) s
  let mask := fun (f : TdmPort → Bool) => (s.lio.ports.toList.zipIdx.map fun q => b2n (f q.1) * 2 ^ q.2).sum
  let clk := if pre then 0xFFFF else mask (fun q => q.st != .off)
  let s := setR s Reg.TDM_STATUS (mask (fun q => q.st == .run) * 65536 + clk)
  let s := s.lio.decs.toList.zipIdx.foldl (fun s d => setR s (Reg.DEC_CHSET + 16 * d.2) d.1.left) s
  setR s Reg.PDM_STATUS (b2n s.lio.clear * 16 + (s.lio.groups.toList.zipIdx.map fun g => b2n g.1.out.isSome * 2 ^ g.2).sum)

/-- TDM_MASK_RELEASE (R379): the shadow mask of port p is released; on a slave port the first period it covers is period m of the
sample of media index idx. -/
def tdmMaskRelease (s : State) (p idx m : Nat) : State :=
  let q := tdmOf s p
  if tdmDrives s q then
    let f := maskFirst (sampleCycles s) q.pcfg (posNow s)
    maskReleaseAt s p f.1 f.2
  else maskReleaseAt s p (samplePos s (idx : Int)) m

/-- TDM_ZEROX_TIMEOUT (R382): the timeout of a gate falls in the frame whose samples come next; the forced change counts. -/
def tdmZeroxTimeout (s : State) (p : Nat) (out : Bool) (j : Nat) : State :=
  let q := tdmOf s p
  let gs := if out then q.gout else q.gin
  match gs[j]? with
  | none => s
  | some g =>
    if (g.ph = .opening ∨ g.ph = .closing) ∧ !g.counted ∧ g.n + 16 * tdmMul q.pcfg > gateLimit s q then
      let gs := gs.set j { g with counted := true }
      zxForce (setTdm s p (if out then { q with gout := gs } else { q with gin := gs })) 1
    else s

/-- DEC_SETTLED (R388, R400): the last unsettled output of channel c comes in the running frame. -/
def decSettled (s : State) (c : Nat) : State :=
  match s.lio.decs[c]? with
  | none => s
  | some d =>
    if d.told ∨ d.left = 0 ∨ d.left > 16 then s
    else raise { s with lio := { s.lio with decs := s.lio.decs.setIfInBounds c { d with told := true } } } 14 0

/-- TDM_MASK_RELEASE (R379). -/
def execTdmMaskRelease (p idx m : Nat) (s : State) : Host.Outcome State Fault Refusal := .next (tdmMaskRelease s p idx m)

/-- TDM_ZEROX_TIMEOUT (R382). -/
def execTdmZeroxTimeout (p : Nat) (out : Bool) (j : Nat) (s : State) : Host.Outcome State Fault Refusal :=
  .next (tdmZeroxTimeout s p out j)

/-- DEC_SETTLED (R388). -/
def execDecSettled (c : Nat) (s : State) : Host.Outcome State Fault Refusal := .next (decSettled s c)

/-- PDM_LOAD_STROBE (R391): the strobe of a group; a FRAME group takes its strobe with FRAME_BOUNDARY. -/
def execPdmLoadStrobe (g : Nat) (phase : Int) (s : State) : Host.Outcome State Fault Refusal :=
  .next (if bit (pdmCfg s g) 29 then pdmStrobe s g phase else s)

/-- PDM_CLEAR_ASSERT (R395). -/
def execPdmClearAssert (s : State) : Host.Outcome State Fault Refusal := .next (pdmClearAssert s)

/-- PDM_CLEAR_RELEASE (R395). -/
def execPdmClearRelease (s : State) : Host.Outcome State Fault Refusal := .next (pdmClearRelease s)

end Sys2Proof.Machine
end

