-- ==== Sys2Proof/Machine/Render.lean ====
section
/-! DEFINITION. Object rings, far rings, and the render of one frame: paths, direct routing, requantization (R78 to R96). -/

namespace Sys2Proof.Machine

open Sys2Proof

/-- The head store of object o (R86, R541): 64 bytes for each of its three frames (the layout is the model's own). -/
def headBase : Nat := csram + 0x7D0000

/-- The Delay SRAM (R87). -/
def delayBase : Nat := 0x40000000

/-- The byte of the Delay SRAM that a byte of the head store moves to, for the frame at place q (R87). -/
def delayOf (q : Int) (a : Nat) : Nat :=
  let o := a - headBase
  delayBase + 24576 * (o / 192) + 4 * ((16 * q) % 6144).toNat + o % 64

/-- A byte of copy r of the head store. -/
def inHead (r a : Nat) : Bool := decide (headBase ≤ a) && decide (a < headBase + 196608) && (a - headBase) / 64 % 3 == r

/-- A byte of the Delay SRAM at the place of the frame at place q. -/
def inDelay (q : Int) (a : Nat) : Bool :=
  let c := 4 * ((16 * q) % 6144).toNat
  decide (delayBase ≤ a) && decide (a < delayBase + 25165824) && decide (c ≤ (a - delayBase) % 24576) &&
  decide ((a - delayBase) % 24576 < c + 64)

/-- The bytes of the frame at place q leave copy r of the head store for the Delay SRAM (R86). -/
def headOut (m : Memory) (r : Nat) (q : Int) : Memory :=
  let gone := m.filter fun p => inHead r p.1
  gone.foldl (fun m p => Memory.write m (delayOf q p.1) p.2) (m.filter fun p => !inHead r p.1 && !inDelay q p.1)

/-- A memory as the audio engines read it: the words of an uncorrectable codeword are zero (R441). -/
def heard (s : State) (m : Memory) : Memory := if s.fab.inj.isEmpty then m else m.filter fun p => !ueByte s p.1

/-- Every damaged codeword that `hit` names is reported once: `code` the memory it is reported for, `mst` the master (R441). -/
def reportHits (s : State) (mst : Nat) (code : Nat → Nat) (hit : Nat → Bool) : State :=
  (s.fab.inj.filter fun c => hit c.1).foldl (fun s c => eccReport s (code c.1) (flips c.2 == 2) mst 0 c.1) s

/-- The frame at place q moves from copy r of the head store into the Delay SRAM (R86): what it reads there is checked, what it
writes is whole again (R441, R444). -/
def headMove (s : State) (r : Nat) (q : Int) : State :=
  let out := fun (a : Nat) => decide (headBase ≤ a) && decide (a < headBase + 196608)
  let bad := heard s (s.mem.filter fun p => inHead r p.1)
  let m := headOut (if s.fab.inj.isEmpty then s.mem else (s.mem.filter fun p => !inHead r p.1 || bad.contains p)) r q
  whole { reportHits s 9 (fun _ => 2) (fun a => out a && inHead r a) with mem := m } fun a => inHead r a || inDelay q a

/-- The copy of the head store that holds the frame at place q. -/
def headCopy (q : Int) : Nat := (q % 3).toNat

/-- Capture writes the frame at position p into every object's ring (R86 to R88): `objs` the samples of the mapped objects. -/
def objCapture (s : State) (p : Int) (objs : Sparse (List Int)) : State :=
  let q := placeOf s p
  let r := headCopy q
  let s := if p - 3 ≥ s.tl.adjAt then headMove s r (q - 3)
    else whole { s with mem := s.mem.filter fun x => !inHead r x.1 } (inHead r)
  objs.foldl (fun s x =>
    if x.1 < objCount s then blockWrite s (headBase + 192 * x.1 + 64 * r) (x.2.flatMap fun v => leBytes 4 (unsigned 32 v)) else s) s

/-- A change of rate renames frames: the frames of the head store go to the Delay SRAM at their own places (R17, R86). -/
def headFlush (s : State) : State :=
  let p := posNow s
  [p - 3, p - 2, p - 1].foldl (fun s f => let q := placeOf s f; headMove s (headCopy q) q) s

/-- Capture writes the frame at position p of every far object into its ring (R89). -/
def farStore (s : State) (t : Take) (p : Int) (objs : Sparse (List Int)) : State :=
  let base := getR64 s Reg.PATH_FARBASE_LO Reg.PATH_FARBASE_HI
  let c := 4 * ((16 * placeOf s p) % 131072).toNat
  t.render.farslot.zipIdx.foldl (fun s x =>
    if x.1 ≥ objCount s then s else
    let v := Sparse.get (fun _ => zero16) objs x.1
    blockWrite s (base + 524288 * x.2 + c) (v.flatMap fun y => leBytes 4 (unsigned 32 y))) s

/-- The word at an address, signed. -/
def wordAt (m : Memory) (a : Nat) : Int := signed 32 (leVal (Memory.readBytes m a 4))

/-- The copy of a buffer that serves the frame at a place (R167): its address and size. -/
def bufferAt (g : GraphSec) (kind : Nat) (place : Int) : Option (Nat × Nat) :=
  (g.buffers.find? fun b => b.kind == kind).map fun b =>
    (csram + b.base + b.size * (place % (max b.rot 1 : Nat)).toNat, b.size)

/-- Sixteen words at an address, as an audio engine reads them. -/
def words16 (s : State) (a : Nat) : List Int :=
  let m := heard s (s.mem.filter fun p => decide (a ≤ p.1) && decide (p.1 < a + 64))
  (List.range 16).map fun i => wordAt m (a + 4 * i)

/-- What the render of a take reads: its tick and the assignment of its far slots. -/
structure RenderIn where
  tick : TickCtx
  fa : Sparse Int

/-- Where an input sample of object o for the frame at position p stands, by sample position (R86, R92): in the head store, the
Delay SRAM, or the far window. None where it lies in neither; `some none` where the window is missed or the sample is older than the
slot's assignment, which read zero (R89, R91). -/
def tapAddr (s : State) (ri : RenderIn) (o : Nat) (slot : Option Nat) (p j : Int) : Option (Option Nat) :=
  let q := 16 * placeOf s p + (j - 16 * p)
  if j ≥ 16 * p - 6160 then
    let f := j / 16
    if f ≥ p - 2 ∧ f ≥ s.tl.adjAt then some (some (headBase + 192 * o + 64 * headCopy (q / 16) + 4 * (q % 16).toNat))
    else some (some (delayBase + 24576 * o + 4 * (q % 6144).toNat))
  else
    match slot.bind fun k => s.path.windows.find? fun w => w.slot == k && w.pos == p with
    | none => none
    | some w =>
      if !w.covers j then none
      else if w.missed then some none
      else
        match ri.fa.find? fun x => x.1 == w.slot with
        | none => some none
        | some x => if j < 16 * x.2 then some none else some (some (farStage w.slot p + 4 * (j - (16 * p - w.a - 224)).toNat))

/-- An input sample of an object; `m` holds the bytes of its rings and windows. -/
def tapAt (s : State) (ri : RenderIn) (m : Memory) (o : Nat) (slot : Option Nat) (p j : Int) : Int :=
  match tapAddr s ri o slot p j with
  | some (some a) => wordAt m a
  | _ => 0

/-- The delays a path reads at sample k of its tick (R80 to R83). -/
def pathDelays (t : TickCtx) (e : PathEntry) (fade : Bool) (k : Nat) : List Nat :=
  if fade then [e.d0]
  else if !e.hist then [e.d1]
  else if isRamp t e then [((e.d0 : Int) + divRhu (((e.d1 : Int) - e.d0) * k) t.m).toNat]
  else if e.jump && decide (k ≤ 16) then [e.d1, e.d0] else [e.d1]

/-- The sample positions a path reads over a frame (R84). -/
def pathTaps (t : TickCtx) (e : PathEntry) (fade : Bool) (p : Int) (k0 : Nat) : List Int :=
  (List.range 16).flatMap fun (i : Nat) =>
    (pathDelays t e fade (k0 + i)).flatMap fun d =>
      let c := 16 * p + (i : Int) - ((d / 32768 : Nat) : Int)
      [c + 1, c, c - 1, c - 2].map fun j => min j (16 * p + 15)

/-- What the render of a frame gives: accumulators, Farrow saturations, far taps without a source, and the damaged codewords it
read. -/
structure Rendered where
  acc : Sparse (List Int)
  isat : Nat
  clip : Nat
  hits : List Nat

/-- One path over a frame (R80 to R85, R92): the sixteen products, added into its bus. -/
def renderPath (s : State) (ri : RenderIn) (p : Int) (k0 : Nat) (fade : Bool) (m : Memory) (x : Rendered) (e : PathEntry) : Rendered :=
  let newest := 16 * p + 15
  let at_ := fun j => tapAt s ri m e.obj e.far p j
  let rs := (List.range 16).map fun (i : Nat) =>
    let fr := farrow at_ newest (16 * p + (i : Int))
    if fade then fadeSample e fr (k0 + i) else pathSample ri.tick e fr (k0 + i)
  let taps := if e.far.isSome ∨ !s.fab.inj.isEmpty then pathTaps ri.tick e fade p k0 else []
  let clip := e.far.isSome && taps.any fun j => (tapAddr s ri e.obj e.far p j).isNone
  let hits := if s.fab.inj.isEmpty then [] else taps.filterMap fun j =>
    match tapAddr s ri e.obj e.far p j with
    | some (some a) => some (a / 16 * 16)
    | _ => none
  { acc := accBus x.acc e.bus (rs.map fun r => r.1 * r.2.1), isat := x.isat + (rs.map (·.2.2)).sum, clip := x.clip + b2n clip,
    hits := hits ++ x.hits }

/-- The bytes of an object's rings and of its far windows. -/
def ringBytes (s : State) (o : Nat) (slot : Option Nat) : Memory :=
  let far := fun (a : Nat) => match slot with
    | some q => decide (farStage q 0 ≤ a) && decide (a < farStage q 0 + 3072)
    | none => false
  heard s (s.mem.filter fun p => (decide (delayBase + 24576 * o ≤ p.1) && decide (p.1 < delayBase + 24576 * (o + 1))) ||
    (decide (headBase + 192 * o ≤ p.1) && decide (p.1 < headBase + 192 * (o + 1))) || far p.1)

/-- Every path of a tick over the frame at position p (R79, R93, R96), and the slots used. A tick that does not cover the frame holds
its targets. -/
def renderPaths (s : State) (ri : RenderIn) (p : Int) : Rendered × Nat :=
  let t := ri.tick
  let k := 16 * (p - t.start) + 1
  let hold := decide (k < 1) || decide (k > t.m)
  let list := if hold then t.list.map fun e => { e with hist := true, g0 := e.g1, d0 := e.d1, jump := false } else t.list
  let k0 := if hold then 1 else k.toNat
  let fades := if k = 1 then t.fades else []
  let add := fun (fade : Bool) (x : Rendered) (e : PathEntry) => renderPath s ri p k0 fade (ringBytes s e.obj e.far) x e
  (fades.foldl (add true) (list.foldl (add false) { acc := [], isat := 0, clip := 0, hits := [] }), if k = 1 then t.slots0 else t.slots1)

/-- The memory an error in a tap is reported for: the Delay SRAM and the far windows share code 1 (R441). -/
def tapCode (a : Nat) : Nat := if headBase ≤ a ∧ a < headBase + 196608 then 2 else 1

/-- The damaged codewords of a frame's taps, each reported by a path engine that read it (R94, R441). -/
def tapHits (s : State) (hits : List Nat) : State :=
  (s.fab.inj.filter fun c => hits.contains c.1).foldl (fun s c =>
    let m := pathMaster s
    eccReport m.2 (tapCode c.1) (flips c.2 == 2) m.1 0 c.1) s

/-- Steps 3 to 5 of R18 for one take: bus samples, monitor mixes; counters of R99 and R205. `mixes`: the monitor outputs whose nodes
count (R196). Bus buffers of the graph are written (R95). -/
def renderSide (s : State) (ri : RenderIn) (nodes : Sparse Node) (mixes : Nat → Bool) (g : GraphSec) (w : Work) (x : Side) :
    Side × Nat × State :=
  let (x0, slots) := renderPaths s ri w.pos
  let acc := xptTerms nodes w.xin w.pos x0.acc
  let rows := (acc.filter fun p => decide (p.1 < busCount s) || (decide (512 ≤ p.1) && mixes (p.1 - 512))).map fun p => (p.1, requant p.2)
  let bus := (rows.filter fun p => decide (p.1 < 512)).map fun p => (p.1, p.2.1)
  let mix := (rows.filter fun p => decide (512 ≤ p.1)).map fun p => (p.1 - 512, p.2.1)
  let bsat := ((rows.filter fun p => decide (p.1 < 512)).map (·.2.2)).sum
  let msat := ((rows.filter fun p => decide (512 ≤ p.1)).map (·.2.2)).sum
  let s := tapHits s x0.hits
  let s := pathCount s Reg.PATH_ISAT 1 x0.isat
  let s := pathCount s Reg.PATH_FARCLIP 3 x0.clip
  let s := pathCount s Reg.PATH_BUSSAT 2 bsat
  let s := if msat = 0 then s else raise (addCtr s Reg.XPT_MONSAT msat) 11 1
  let s := match bufferAt g 1 (placeOf s w.pos) with
    | some (a, n) =>
      let bytes := (List.range (busCount s)).flatMap fun b =>
        (Sparse.get (fun _ => zero16) bus b).flatMap fun v => leBytes 4 (unsigned 32 v)
      blockWrite s a (bytes.take n)
    | none => s
  ({ x with rendered := true, bus := bus, mix := mix }, slots, s)

end Sys2Proof.Machine
end

