-- ==== Sys2Proof/Machine/Pipe.lean ====
section
/-! DEFINITION. The stages of the frame under processing: render, correction by groups, safety stage, emission cutoff; and emission
at the output boundary (R18 to R24, R172, R196, R198, R229, R230, R365). -/

namespace Sys2Proof.Machine

open Sys2Proof

/-- The take of a side. -/
def sideTake (s : State) (x : Side) : Option Take := if x.outgoing then s.pipe.old.map (·.take) else s.take.active

/-- The program bank of a side. -/
def sideBank (s : State) (x : Side) : Nat := if x.outgoing then (s.pipe.old.map (·.bank)).getD 0 else s.pipe.bank

/-- Stores the work. -/
def setWork (s : State) (w : Option Work) : State := { s with pipe := { s.pipe with work := w } }

/-- What a side renders from: `second` for the outgoing take's frame F of a soft cut (R96, R229). -/
def sideRender (s : State) (x : Side) (second : Bool) : RenderIn :=
  if x.outgoing then
    match s.pipe.old with
    | some o => { tick := if second then s.path.renderOld.getD s.path.render else s.path.render, fa := o.fa }
    | none => { tick := s.path.render, fa := [] }
  else { tick := s.path.render, fa := s.path.fa }

/-- The nodes of a side. -/
def sideNodes (s : State) (x : Side) : Sparse Node := if x.outgoing then (s.pipe.old.map (·.nodes)).getD [] else s.xpt.nodes

/-- The monitor configurations of a side: of the frame before, and its own (R196). -/
def sideMon (s : State) (x : Side) (second : Bool) : List Nat × List Nat :=
  if x.outgoing then
    match s.pipe.old with
    | some o => (if second then o.mon else o.monPrev, o.mon)
    | none => ([], [])
  else (s.xpt.monPrev, s.xpt.monProc)

/-- The nodes of monitor output m count: it is not TAP throughout the frame (R196). -/
def mixUsed (c : List Nat × List Nat) (m : Nat) : Bool := !(bit (c.1.getD m 0) 31 && bit (c.2.getD m 0) 31)

/-- A side rendered, with the slots its render used. -/
def sideRendered (s : State) (w : Work) (x : Side) (second : Bool) : Side × Nat × State :=
  match sideTake s x with
  | some t => renderSide s (sideRender s x second) (sideNodes s x) (mixUsed (sideMon s x second)) t.graph w x
  | none => ({ x with rendered := true }, 0, s)

/-- The slot registers of the frame rendered (R94, R98), by both takes in frame F of a soft cut (R229). The slots left over by an even division go to the lowest-numbered engines
(DESIGN CHOICE, assumption 76). -/
def slotRegs (s : State) (used : Nat) : State :=
  let u := min used (2 ^ 20 - 1)
  let s := maxF (setR s Reg.PATH_SLOTUSED u) F.PATH_SLOTPEAK_SLOTS u
  let ne := if s.hw.tk2512 then 2 else 4
  (List.range ne).foldl (fun s e =>
    setR s (Reg.PATH_PEBUSY + 4 * e) (min (2 * (used / ne + b2n (decide (e < used % ne)))) (2 ^ 18 - 1))) s

/-- PATH_RENDER: steps 3 to 5 of R18 for the frame under processing, once; BUSREADY is injected (R171). -/
def pathRender (s : State) : State :=
  match s.pipe.work with
  | none => s
  | some w =>
    if w.prime.rendered then s else
    let (a, used, s) := sideRendered s w w.prime false
    let (b, more, s) := match w.second with
      | some x => let r := sideRendered s w x true; (some r.1, r.2.1, r.2.2)
      | none => (none, 0, s)
    let s := slotRegs s (used + more)
    injectSource (setWork s (some { w with prime := a, second := b })) 0xF001 w.pos

/-- Tokens of the frame at position p that a sink of a bank has received (R172). -/
def sinkCount (s : State) (bank code : Nat) (p : Int) : Nat :=
  ((s.disp.sinks.find? fun x => x.1 == p && x.2.1 == code + 65536 * bank).map (·.2.2)).getD 0

/-- Group g of a side is complete: bus group g below 16, auxiliary group g − 16 above (R172). -/
def groupDone (s : State) (w : Work) (x : Side) (g : Nat) : Bool :=
  match sideTake s x with
  | none => false
  | some t =>
    let need := if g < 16 then t.graph.busNeed.getD g 0 else t.graph.auxNeed.getD (g - 16) 0
    if need = 0 then x.rendered else decide (sinkCount s (sideBank s x) (0xE000 + g) w.pos ≥ need)

/-- Sixteen samples the spec leaves open: a buffer the take's graph does not have (assumption 4). -/
def freeSamples : Nat → State → List Int × State
  | 0, s => ([], s)
  | n + 1, s =>
    let r := freeBits 32 s
    let q := freeSamples n r.2
    (signed 32 r.1 :: q.1, q.2)

/-- Sixteen samples of a graph buffer at a byte offset of the copy of the frame; their codewords are checked (R441). -/
def bufferSamples (s : State) (t : Take) (kind : Nat) (p : Int) (ofs : Nat) : List Int × State :=
  match bufferAt t.graph kind (placeOf s p) with
  | some (a, _) => (words16 s (a + ofs), (eccRead s (a + ofs) 64 11 0).2)
  | none => freeSamples 16 s

/-- The processed samples of a bus of a side whose group is complete (R95, R172). -/
def busSamples (s : State) (w : Work) (x : Side) (c : Nat) : List Int × State :=
  match sideTake s x with
  | none => (zero16, s)
  | some t =>
    if t.graph.busNeed.getD (c / 32) 0 = 0 then (Sparse.get (fun _ => zero16) x.bus c, s)
    else bufferSamples s t 2 w.pos (64 * c)

/-- The correction stage processes bus group g of the incoming take's buses, zeros where the group missed its cutoff (R172,
R231). -/
def correctGroup (s : State) (g : Nat) : State :=
  match s.pipe.work with
  | none => s
  | some w =>
    if w.corrected.contains g then s else
    let whole := groupDone s w w.prime g
    let r := ((List.range 32).map fun i => 32 * g + i).foldl (fun (a : Sparse (List Int) × State) c =>
      if c ≥ busCount a.2 then a else
      let (x, s) := if whole then busSamples a.2 w w.prime c else (zero16, a.2)
      let (f, s) := correctBus s c w.pos x
      let cap := match s.conv.capFrom with | some p => decide (p ≤ w.pos) | none => false
      let s := if cap && getF s F.CONV_CAP_CTRL_FEED == c then
          f.zipIdx.foldl (fun s y => capStore s 0 ((16 * placeOf s w.pos) % 65536 + ((y.2 : Nat) : Int)).toNat y.1) s
        else s
      (Sparse.put (fun _ => zero16) a.1 c f, s)) (w.feeds, s)
    setWork r.2 (some { w with corrected := g :: w.corrected, feeds := r.1 })

/-- The ceiling a take gives an output code (R198, R215). -/
def ceilOf (t : Take) (code : Nat) : Nat :=
  let sel := bits (t.safety.ceilsel.getD (code / 8) 0) (4 * (code % 8) + 2) (4 * (code % 8))
  t.safety.ceil.getD sel 0

/-- One output channel through step 1 of R198: the side, and the channels changed. -/
def ceilOne (t : Take) (a : Side × List Nat) (code : Nat) (v : List Int) : Side × List Nat :=
  let r := ceiling (ceilOf t code) v
  ({ a.1 with ch := Sparse.put (fun _ => zero16) a.1.ch code r.1 }, if r.2 then insertNat code a.2 else a.2)

/-- The groups and monitor outputs of a side whose samples are complete pass step 1 of R198 (R172, R196). An outgoing take has
its own corrected feed only on bypass channels, where the test generator applies too (R120); the others take the channel's one feed
(R231). -/
def sideSafety (s : State) (w : Work) (x : Side) (second : Bool) (hits : List Nat) : Side × List Nat × State :=
  match sideTake s x with
  | none => (x, hits, s)
  | some t =>
    let r := (List.range 32).foldl (fun (a : Side × List Nat × State) g =>
      if a.1.groups.contains g || !groupDone a.2.2 w x g || (decide (g < 16) && !w.corrected.contains g) then a else
      let y := { a.1 with groups := g :: a.1.groups }
      if g < 16 then
        ((List.range 32).map fun i => 32 * g + i).foldl (fun (a : Side × List Nat × State) c =>
          if c ≥ busCount a.2.2 then a else
          let own := second && (runFor (chanOf a.2.2 c) w.pos).len == 0
          let (v, s) := if own then (match (if genSelected a.2.2 c then a.2.2.conv.gen.out else none) with
              | some v => (v, a.2.2)
              | none => busSamples a.2.2 w x c) else (Sparse.get (fun _ => zero16) w.feeds c, a.2.2)
          let q := ceilOne t (a.1, a.2.1) c v
          (q.1, q.2, s)) (y, a.2.1, a.2.2)
      else if t.graph.auxNeed.getD (g - 16) 0 = 0 then (y, a.2)
      else
        (List.range 8).foldl (fun (a : Side × List Nat × State) i =>
          let c := 8 * (g - 16) + i
          let (v, s) := bufferSamples a.2.2 t 3 w.pos (64 * c)
          let q := ceilOne t (a.1, a.2.1) (512 + c) v
          (q.1, q.2, s)) (y, a.2.1, a.2.2)) (x, hits, s)
    let (y, hits, s) := r
    let (prev, cur) := sideMon s x second
    let ready := fun (cfg : Nat) => if bit cfg 31 then y.groups.contains (cfg % 512 / 32) || decide (cfg % 512 ≥ busCount s) else y.rendered
    let q := (List.range 128).foldl (fun (a : Side × List Nat) m =>
      let p := prev.getD m 0
      let c := cur.getD m 0
      if a.1.mons.contains m || !ready p || !ready c then a else
      let v := monBlend p c (Sparse.get (fun _ => zero16) y.mix m) (fun b => Sparse.get (fun _ => zero16) y.ch b)
      ceilOne t ({ a.1 with mons := m :: a.1.mons }, a.2) (640 + m) v) (y, hits)
    (q.1, q.2, s)

/-- SAFETY_STAGE: step 1 of R198 on every channel complete so far; each channel the ceiling changes counts once (R198, R229). -/
def safetyStage (s : State) : State :=
  match s.pipe.work with
  | none => s
  | some w =>
    let (a, hits, s) := sideSafety s w w.prime false w.hits
    let (b, hits, s) := match w.second with
      | some x => let r := sideSafety s w x true hits; (some r.1, r.2.1, r.2.2)
      | none => (none, hits, s)
    let n := hits.length - w.hits.length
    let s := if n = 0 then s else raise (addCtr s Reg.XPT_CEILHIT n) 11 2
    setWork s (some { w with prime := a, second := b, hits := hits })

/-- The output channels of a side that are not complete, rising (R20). -/
def sideMissing (s : State) (x : Side) : List Nat :=
  ((List.range 512).filter fun c => decide (c < busCount s) && !x.groups.contains (c / 32)) ++
  ((List.range 128).filter fun c => !x.groups.contains (16 + c / 8)).map (512 + ·) ++
  ((List.range 128).filter fun m => !x.mons.contains m).map (640 + ·)

/-- The frame at a position is processed but not emitted: the pipeline became shorter (R230). -/
def discarded (s : State) (p : Int) : Bool := s.pipe.cuts.any fun c => c.hard && decide (c.e < p) && decide (p < c.pos)

/-- EMISSION_CUTOFF (R20, R23, R24): the frame's output buffers are read. What is complete by now has passed its stages; a channel
that is not is emitted as zero. -/
def emissionCutoff (s : State) : State :=
  match (pathRender s).pipe.work with
  | none => s
  | some _ =>
    let s := pathRender s
    let s := (List.range 16).foldl correctGroup s
    let s := safetyStage s
    match s.pipe.work with
    | none => s
    | some w =>
      let miss := sideMissing s w.prime
      let miss := match w.second with
        | some x => (sideMissing s x).foldl (fun l c => insertNat c l) miss
        | none => miss
      let t := sideTake s w.prime
      let out : OutFrame := { pos := w.pos, ch := w.prime.ch, alt := w.second.map (·.ch), hits := w.hits, miss := miss,
                              taps := (List.range 128).filterMap fun m =>
                                let copies := fun (x : Side) second => (let c := sideMon s x second; monCopies c.1 c.2 m)
                                if copies w.prime false && (match w.second with | some x => copies x true | none => true)
                                then some (640 + m) else none,
                              due := w.pos + ((t.map (·.sys.depth)).getD 3 : Nat), lio := (t.map (·.localio)).getD LioSec.none }
      let s := convUsed s w.pos
      let s := injectToken { s with pipe := { s.pipe with work := none } } (.cutoff w.pos)
      if discarded s w.pos then s
      else
        let s := { s with pipe := { s.pipe with outq := s.pipe.outq ++ [out] } }
        match miss with
        | [] => s
        | c :: _ => logEv (addCtr s Reg.SYS_EMITMISS 1) 0x0001 [frameF (labelOf s w.pos), (2, (c : Int))]

/-- The processing of the frame just captured begins (R18, R23): the settings of the frame are those before this boundary's
commits. FRAME and CAPREADY are injected (R171). -/
def startWork (s : State) (p : Int) (xin : Sparse (List Int)) : State :=
  let (tick, s) := if s.take.active.isSome then takeList s s.path.tick else (s.path.tick, s)
  let s := { s with path := { s.path with render := tick, renderOld := s.path.oldTick, oldTick := none },
                    xpt := { s.xpt with monPrev := s.xpt.monProc, monProc := monRegs s, nodes := dropNodes s.xpt.nodes p } }
  if s.take.active.isNone then s else
  let second := match s.pipe.old with
    | some o => if o.soft && o.pos == p then some (Side.new true) else none
    | none => none
  let w : Work := { pos := p, xin := xin, prime := Side.new false, second := second, corrected := [], feeds := [], hits := [] }
  injectSource (injectSource (setWork s (some w)) 0xF000 p) 0xF002 p

/-- A ramp over a frame: up k/16, down (16 − k)/16, or zero. -/
inductive FadeKind
  | up | down | zero
deriving DecidableEq, Repr

/-- The numerator over 16 of a ramp at sample k. -/
def FadeKind.num (f : FadeKind) (k : Nat) : Int :=
  match f with
  | .up => (k : Int)
  | .down => 16 - (k : Int)
  | .zero => 0

/-- The ramps of cuts on the frame at position p (R17, R230). -/
def cutRamps (s : State) (p : Int) : List FadeKind :=
  s.pipe.cuts.flatMap fun c =>
    if !c.hard then [] else
    (if c.ramp ∧ p = c.e then [.down] else []) ++
    (if c.pos ≤ p then
      match c.up with
      | none => [.zero]
      | some u => if p < u then [.zero] else if p = u then [.up] else []
    else [])

/-- The splice fades on the frame at position p (R365). -/
def spliceFades (s : State) (p : Int) : List FadeKind :=
  (s.clk.fadeInPos.filter (· == p)).map (fun _ => .up) ++ (s.clk.fadeOutPos.filter (· == p)).map (fun _ => .down)

/-- Sixteen samples through ramps that round one by one. -/
def applyRamps (rs : List FadeKind) (y : List Int) : List Int :=
  rs.foldl (fun y r => y.zipIdx.map fun v => rhu 4 (v.1 * r.num (v.2 + 1))) y

/-- Sixteen samples through fades that round once (R365). -/
def applyFades (fs : List FadeKind) (y : List Int) : List Int :=
  if fs.isEmpty then y
  else y.zipIdx.map fun v => divRhu (v.1 * (fs.map fun r => r.num (v.2 + 1)).foldl (· * ·) 1) (16 ^ fs.length)

/-- The join of a cut, then the splice fades, in one rounding (R229, R230, R365). -/
def joinSamples (s : State) (f : OutFrame) : Sparse (List Int) :=
  let base : Sparse (List Int) := match f.alt with
    | none => f.ch
    | some o =>
      let codes := (f.ch.map (·.1)) ++ ((o.map (·.1)).filter fun c => !(f.ch.any fun p => p.1 == c))
      codes.foldl (fun m c =>
        Sparse.put (fun _ => zero16) m c (blend16 (Sparse.get (fun _ => zero16) o c) (Sparse.get (fun _ => zero16) f.ch c))) []
  let ramps := cutRamps s f.pos
  let fades := spliceFades s f.pos
  base.map fun p => (p.1, applyFades fades (applyRamps ramps p.2))

/-- Steps 2 and 3 of R198 and the fade-in of R20: the output samples and the channels the hard clip changed, a copied feed once
(R196). -/
def outputSamples (s : State) (f : OutFrame) : Sparse (List Int) × List Nat :=
  let rows := (joinSamples s f).map fun p => (p.1, muteClip s.xpt.mute p.2)
  let clipped := (rows.filter fun p => p.2.2 && !f.taps.contains p.1).map (·.1)
  let fin := rows.filterMap fun p =>
    let y := if f.miss.contains p.1 then zero16
      else if s.tl.fadeIn.contains p.1 then p.2.1.zipIdx.map fun v => rhu 4 (v.1 * ((v.2 + 1 : Nat) : Int))
      else p.2.1
    if y = zero16 then none else some (p.1, y)
  (fin, clipped)

/-- What an output boundary without a frame emits: zeros (R230). -/
def OutFrame.silent (p due : Int) (lio : LioSec) : OutFrame :=
  { pos := p, ch := [], alt := none, hits := [], miss := [], taps := [], due := due, lio := lio }

/-- A sample of magnitude 2^24 or more (R197). -/
def fullScale (x : List Int) : Bool := x.any fun v => decide (v.natAbs ≥ 2 ^ 24)

/-- The label of the frame that is emitted k boundaries from this one. -/
def outputLabel (s : State) (k : Nat) : Nat :=
  let p := posNow s + (k : Int)
  labelOf s (match s.pipe.outq.find? fun f => f.due == p with
    | some f => f.pos
    | none => p - (s.tl.depth : Int))

/-- HOUSE_MUTE records of the edges since the last output boundary name the frame emitted at this one; a release that follows a fall
since then starts at the next (R200). -/
def houseFrames (s : State) : State :=
  let f := fun (a : List LogEvent × Bool) (e : LogEvent) =>
    if e.code ≠ 0x0B02 then (a.1 ++ [e], a.2)
    else
      let rise := e.payload.head? == some 1
      (a.1 ++ [{ e with payload := pay [(1, if rise then 1 else 0), frameF (outputLabel s (if rise && a.2 then 1 else 0))] }],
        a.2 || !rise)
  if s.log.queue.any (·.code == 0x0B02) then { s with log := { s.log with queue := (s.log.queue.foldl f ([], false)).1 } } else s

/-- The frame whose output boundary this is (R23, R24, R202): the output samples leave; digests and meters take them. Answers the
peaks of feeds and monitor outputs. -/
def emitFrame (s : State) (note : State → Nat → Sparse (List Int) → State) : Sparse (Nat × Bool) × State :=
  let p := posNow s
  match s.take.active with
  | none => ([], s)
  | some t =>
    let f := (s.pipe.outq.find? fun f => f.due == p).getD (OutFrame.silent (p - (t.sys.depth : Nat)) p t.localio)
    let held := s.pipe.outq.any fun f => f.due == p
    let (out, clipped) := outputSamples s f
    let s := if clipped.isEmpty then s else raise (addCtr s Reg.XPT_HCLIP clipped.length) 11 2
    let fade := (if held then [] else s.tl.fadeIn) ++ f.miss
    let lab := labelOf s f.pos
    let s := { s with tl := { s.tl with fadeIn := fade },
                      pipe := { s.pipe with outq := s.pipe.outq.filter (fun g => decide (p < g.due)), cur := some (f.pos, lab, out) } }
    let s := tdmEmit s f.lio f.pos out
    let s := pdmEmit s f.lio (s.xpt.mute == .muted) out
    let s := if held then note s lab out else s
    let clip := fun c => f.hits.contains c || clipped.contains c || fullScale (Sparse.get (fun _ => zero16) out c)
    let codes := (out.map (·.1)) ++ (f.hits ++ clipped).filter fun c => !(out.any fun q => q.1 == c)
    let peaks := codes.foldl (fun (m : Sparse (Nat × Bool)) c =>
      let key := if c < 512 then some (512 + c) else if 640 ≤ c then some (1024 + (c - 640)) else none
      match key with
      | some k => Sparse.put (fun _ => (0, false)) m k (peakOf (Sparse.get (fun _ => zero16) out c), clip c)
      | none => m) []
    (peaks, s)

/-- Peaks of the crosspoint inputs of the frame captured (R197). -/
def inputPeaks (xin : Sparse (List Int)) (m : Sparse (Nat × Bool)) : Sparse (Nat × Bool) :=
  xin.foldl (fun m p => Sparse.put (fun _ => (0, false)) m p.1 (peakOf p.2, fullScale p.2)) m

/-- PATH_RENDER (R78, R95). -/
def execPathRender (s : State) : Host.Outcome State Fault Refusal := .next (pathRender s)

/-- CORRECTION_GROUP_START (R172): the correction stage starts on bus group g where it is complete. -/
def execCorrectionGroupStart (g : Nat) (s : State) : Host.Outcome State Fault Refusal :=
  .next (match s.pipe.work with
    | some w => if g < 16 ∧ groupDone s w w.prime g then correctGroup s g else s
    | none => s)

/-- SAFETY_STAGE (R198). -/
def execSafetyStage (s : State) : Host.Outcome State Fault Refusal := .next (safetyStage s)

/-- EMISSION_CUTOFF (R20). -/
def execEmissionCutoff (s : State) : Host.Outcome State Fault Refusal := .next (emissionCutoff s)

end Sys2Proof.Machine
end

