-- ==== Sys2Proof/Machine/Kpu.lean ====
section
/-! DEFINITION. How a kernel processor issues: names, guards, results in flight, collisions, branches, loops, stalls, interrupts,
exceptions, DMA (R130 to R161). The operations of a bundle issue one by one, V1, V0 and LS first; the CT operation completes the
bundle (assumption 20). -/

namespace Sys2Proof.Machine

open Sys2Proof

/-- The core issues bundles: RUN or HANDLER. -/
def Core.active (c : Core) : Bool := c.state == .run || c.state == .handler

/-- Whether core k may issue now. -/
def mayIssue (s : State) (k : Nat) : Bool := decide (k < coresPresent s) && (coreOf s k).active

/-- The bank the names refer to: 1 the shadow bank (R155). -/
def Core.bank (c : Core) : Nat := b2n c.hm

/-- A predicate; p0 reads 0b1111 (R135). -/
def Core.pred (c : Core) (n : Nat) : Nat := if n % 8 = 0 then 15 else Sparse.getN c.p (n % 8 + 8 * c.bank)

/-- The lanes a guard lets through (R134). -/
def Core.guardMask (c : Core) (h : KHd) : Nat := if h.gn then 15 - c.pred h.gp % 16 else c.pred h.gp % 16

/-- The physical vector register of a name; none where a handler must not name it (R136, R155). -/
def Core.vPhys (c : Core) (n : Nat) : Option Nat :=
  let n := n % 64
  if c.hm then (if n < 16 then some (64 + n) else none)
  else if c.rbase ≤ n then some (c.rbase + (n - c.rbase + c.rpos) % (64 - c.rbase)) else some n

/-- The physical accumulator of a name (R155). -/
def Core.aPhys (c : Core) (n : Nat) : Option Nat :=
  let n := n % 8
  if c.hm then (if n < 2 then some (8 + n) else none) else some n

/-- The place of an address register. -/
def Core.xKey (c : Core) (n : Nat) : Nat := n % 16 + 16 * c.bank

/-- An address register. -/
def Core.xr (c : Core) (n : Nat) : Nat := Sparse.getN c.x (c.xKey n)

/-- The lanes of a vector register. -/
def Core.vLanes (c : Core) (r : Nat) : List Int := (List.range 4).map fun k => Sparse.get0 c.v (4 * r + k)

/-- The lanes of an accumulator. -/
def Core.aLanes (c : Core) (r : Nat) : List Int := (List.range 4).map fun k => Sparse.get0 c.a (4 * r + k)

/-- Whether a mask has lane k. -/
def lane (mask k : Nat) : Bool := mask.testBit k

/-- `f` wins over `g` where both land on one register (R141). -/
def Flight.beats (f g : Flight) : Bool := decide (f.age < g.age) || (f.age == g.age && decide (f.slot > g.slot))

/-- Two results land on one register and do not both add (R140, R141). -/
def Flight.collides (f g : Flight) : Bool := f.file == g.file && f.reg == g.reg && f.file != .m && !(f.add && g.add)

/-- The lanes of `f` that no colliding winner among `due` overwrites. R141 names one result that is kept and does not speak of lanes:
two writes of one register with different lanes count as a collision, and the loser still writes the lanes the winner leaves alone
(DESIGN CHOICE, assumption 103). -/
def Flight.wins (due : List Flight) (f : Flight) : Nat :=
  due.foldl (fun m g => if f.collides g && g.beats f then andNot m g.mask else m) f.mask

/-- Results that lose a collision among those landing together (R141). -/
def losers (due : List Flight) : Nat := (due.filter fun f => due.any fun g => f.collides g && g.beats f).length

/-- A landing result in its register file; an adding one reads the accumulator now (R140). The Bool says that it saturated. -/
def landReg (c : Core) (due : List Flight) (f : Flight) : Core × Bool :=
  let m := Flight.wins due f
  let at_ := fun k => f.vals.getD k 0
  match f.file with
  | .v => ({ c with v := (List.range 4).foldl (fun t k => if lane m k then Sparse.put0 t (4 * f.reg + k) (at_ k) else t) c.v },
           f.sat &&& m != 0)
  | .a =>
    (List.range 4).foldl (fun r k =>
      if lane m k then
        let x := if f.add then Sparse.get0 c.a (4 * f.reg + k) + at_ k else at_ k
        let y := if f.wrap then wrapS 72 x else satS 72 x
        ({ r.1 with a := Sparse.put0 r.1.a (4 * f.reg + k) y }, r.2 || (!f.wrap && overS 72 x))
      else r) (c, false)
  | .x => ({ c with x := if m = 0 then c.x else Sparse.putN c.x f.reg (unsigned 32 (at_ 0)) }, false)
  | .b => ({ c with base := if m = 0 then c.base else Sparse.putN c.base f.reg (unsigned 18 (at_ 0)) }, false)
  | .l => ({ c with len := if m = 0 then c.len else Sparse.putN c.len f.reg (unsigned 19 (at_ 0)) }, false)
  | .p =>
    if f.reg % 8 = 0 then (c, false)
    else ({ c with p := Sparse.putN c.p f.reg (andNot (Sparse.getN c.p f.reg) m + ((at_ 0).toNat &&& m)) }, false)
  | .s => (c, false)
  | .m => (c, false)

/-- The stage predicates of the running pass; 0b0000 when the loop is not armed (R144). -/
def stagePreds (c : Core) : Core :=
  if c.stg = 0 then c else
  (List.range (c.stg + 1)).foldl (fun c n =>
    let on := c.armed && decide (n ≤ c.j) && decide (c.j + (c.stg + 1) ≤ c.lc0 + n)
    { c with p := Sparse.putN c.p (n + 1) (if on then 15 else 0) }) c

/-- An MTS lands in its special register (R137, R153); a handler reaches only part of FLAGS (R155). -/
def sprWrite (c : Core) (f : Flight) : Core :=
  let v := (f.vals.getD 0 0).toNat
  match f.reg with
  | 0x00 =>
    let c := { c with sf := bit v 1, wc := bit v 3, de := bit v 4 }
    if f.wrap then c else { c with ie := bit v 0 }
  | 0x01 =>
    let c := { c with lc := v }
    if v = 0 then (if c.armed then stagePreds { c with armed := false, predsDue := false } else c) else c
  | 0x05 =>
    let r := v % 128
    { c with rbase := if [16, 24, 32, 40, 48, 56, 64].contains r then r else 64, stride := bits v 9 8 + 1, rpos := 0 }
  | 0x07 => { c with ivec := v % 4096 }
  | 0x08 => { c with imask := v % 16 }
  | 0x09 => if f.wrap then { c with ipend := andNot c.ipend (v % 16) } else c
  | _ => c

/-- The special registers (R137); CYC is the core's free-running counter, given with the operation. -/
def sprRead (c : Core) (k cyc n : Nat) : Nat :=
  match n with
  | 0x00 => b2n c.ie + 2 * b2n c.sf + 4 * b2n c.hm + 8 * b2n c.wc + 16 * b2n c.de
  | 0x01 => c.lc
  | 0x02 => c.lstart
  | 0x03 => c.lend
  | 0x04 => c.j % 2 ^ 24 * 256 + c.stg
  | 0x05 => (c.stride - 1) * 256 + c.rbase
  | 0x06 => c.rpos
  | 0x07 => c.ivec
  | 0x08 => c.imask
  | 0x09 => c.ipend
  | 0x0A => c.ipc
  | 0x0B => c.ibt
  | 0x0C => c.ibd
  | 0x0D => cyc % 2 ^ 32
  | 0x0E => k
  | 0x10 => c.mbox
  | _ => 0

/-- The bytes a store in flight writes: its words under the mask (R152). -/
def storeBytes (s : State) (f : Flight) : State :=
  (List.range 4).foldl (fun s k =>
    if lane f.mask k then memWrite s (f.reg + 4 * k) (leBytes 4 (unsigned 32 (f.vals.getD k 0))) else s) s

/-- Everything that lands at the end of a bundle: registers, special registers, stores; collisions and saturations are flagged
and counted (R139 to R141, R150). Two adding results of one bundle are added and limited one after the other, V1 first, as they were
issued (DESIGN CHOICE, assumption 79). KPU_SATCNT counts the bundle at whose end saturated results land, not the one that issued them,
and a result that loses a collision in every lane does not count (DESIGN CHOICE, assumption 103). -/
def landAll (s : State) (k : Nat) (due : List Flight) : State :=
  let r := due.foldl (fun (r : Core × Bool) f => let t := landReg r.1 due f; (t.1, r.2 || t.2)) (coreOf s k, false)
  let n := losers due
  let c := (due.filter (·.file == .s)).foldl sprWrite r.1
  let c := { c with sf := c.sf || r.2, wc := c.wc || decide (n > 0) }
  let s := (due.filter (·.file == .m)).foldl storeBytes (setCore s k c)
  let s := if r.2 then addCtr s Reg.KPU_SATCNT 1 else s
  if n = 0 then s else raise (addCtr s Reg.KPU_WCOLL n) 9 1

/-- The results of a core that land one bundle later on: `n` steps. -/
def drainFlights : Nat → State → Nat → State
  | 0, s, _ => s
  | n + 1, s, k =>
    let c := coreOf s k
    if c.flight.isEmpty then s else
    let fl := c.flight.map fun f => { f with left := f.left - 1, age := f.age + 1 }
    let s := setCore s k { c with flight := fl.filter (·.left > 0) }
    drainFlights n (landAll s k (fl.filter (·.left == 0))) k

/-- An exception stops the core in FAULT, and its operations in flight complete (R158). What the other slots of the bundle that raised
it do no rule says: none of their results lands, a descriptor that its DMAQ has queued stays queued, and the bundle does not count as
issued, so CORESTAT.PC names the one before it (R164; DESIGN CHOICE, assumption 103). -/
def kpuFault (s : State) (k cause addr : Nat) : State :=
  let c := coreOf s k
  let s := drainFlights 8 (setCore s k { c with flight := c.flight.filter (·.age > 0) }) k
  let c := coreOf s k
  let s := setCore s k { c with state := .fault, cause := cause, faultPc := c.pc, faultAddr := addr, wait := none, brs := [] }
  let s := setEvent s Reg.KPU_FAULT (2 ^ k)
  let s := raise s 9 3
  let s := logEv s 0x0901 [(1, (k : Int)), (1, (cause : Int)), (2, (c.pc : Int)), (4, (addr : Int))]
  instFault s k

/-- What the CT operation of a bundle adds as the bundle completes. -/
structure CtAct where
  flights : List Flight
  branch : Option PendBr
  /-- LC, TARGET and STG of a ZLOOP -/
  loop : Option (Nat × Nat × Nat)
deriving DecidableEq, Repr

/-- Nothing. -/
def CtAct.none : CtAct := { flights := [], branch := Option.none, loop := Option.none }

/-- The loop edge at the end of the bundle at LEND (R143): the core, and the bundle that comes next. -/
def loopEdge (c : Core) : Core × Nat :=
  let next := (c.pc + 1) % 4096
  if c.armed && c.pc == c.lend then
    let z := 64 - c.rbase
    let c := { c with j := c.j + 1, rpos := if z = 0 then c.rpos else (c.rpos + c.stride) % z }
    if c.lc > 1 then (stagePreds { c with lc := c.lc - 1 }, c.lstart)
    else (stagePreds { c with lc := 0, armed := false, predsDue := false }, next)
  else (c, next)

/-- A branch that decides the next bundle, or the return of an RFI (R142, R156). An RFI outside handler mode, of which no rule speaks,
returns by IPC, IBT and IBD as they stand (DESIGN CHOICE, assumption 103). -/
def takeBranch (c : Core) (next : Nat) : Core :=
  let brs := c.brs.map fun b => { b with left := b.left - 1 }
  let rest := brs.filter (·.left > 0)
  match brs.find? (·.left == 0) with
  | some b =>
    if b.rfi then
      { c with hm := false, ie := true, state := .run, pc := c.ipc,
               brs := rest ++ (if c.ibd = 0 then [] else [{ left := c.ibd, target := c.ibt, rfi := false }]) }
    else { c with pc := b.target, brs := rest }
  | none => { c with pc := next, brs := rest }

/-- The word of a slot in the bundle a core issues (R131, R132). -/
def bundleWord (s : State) (k slot : Nat) : Nat :=
  leVal (Memory.readBytes s.mem (imemBase k + 16 * (coreOf s k).pc + 4 * slot) 4)

/-- A slot of the bundle holds an opcode that R152 does not list, under a guard that lets it execute (R134, R152). -/
def unlisted (s : State) (k : Nat) : Bool :=
  (List.range 4).any fun slot =>
    let w := bundleWord s k slot
    let m := (coreOf s k).guardMask (kHead k slot w 0)
    (kernelWord k slot w 0).isNone && (if slot < 2 then lane m 0 else m != 0)

/-- The bundle completes: its results join those in flight, what is due lands, loop edge and branches decide the next bundle. Its words
are read from instruction memory: an uncorrectable error raises ECC_I, an unlisted opcode ILLEGAL (R152, R158). -/
def closeBundle (s : State) (k : Nat) (act : CtAct) : State :=
  let e := eccRead s (imemBase k + 16 * (coreOf s k).pc) 16 (kdma k) k
  if e.1 then kpuFault e.2 k 7 (16 * (coreOf s k).pc) else
  if unlisted e.2 k then kpuFault e.2 k 1 0 else
  let s := e.2
  let c := coreOf s k
  let fl := (c.flight ++ act.flights).map fun f => { f with left := f.left - 1, age := f.age + 1 }
  let c := { c with flight := fl.filter (·.left > 0), last := c.pc, busy := c.busy + 1,
                    brs := c.brs ++ act.branch.toList }
  let edge := loopEdge c
  let c := match act.loop with
    | some (lc, target, stg) =>
      let c := { edge.1 with lc := lc, lc0 := lc, lstart := c.pc + 3, lend := target, stg := stg, j := 0 }
      if lc = 0 then { c with brs := c.brs ++ [{ left := 3, target := (target + 1) % 4096, rfi := false }] }
      else { c with armed := true, predsDue := true }
    | none => edge.1
  let c := takeBranch c edge.2
  let c := if c.predsDue && c.armed && c.pc == c.lstart && !c.hm then stagePreds { c with predsDue := false } else c
  landAll (setCore s k c) k (fl.filter (·.left == 0))

/-- Adds a result to those in flight, issued in the open bundle. -/
def issueFlight (s : State) (k : Nat) (f : Flight) : State :=
  let c := coreOf s k
  setCore s k { c with flight := c.flight ++ [f] }

/-- The slots a vector operation may stand in. -/
def vecSlot (h : KHd) : Bool := h.slot == 2 || h.slot == 3

/-- A vector operation that writes a vector register (R134, R152): `ok` its operand checks, `srcs` the vectors it reads, `f` the
value of a lane and whether it saturated. With no lane on it does not execute (assumption 21). -/
def vecOp (s : State) (h : KHd) (ok : Bool) (srcs : List Nat) (d lat : Nat) (f : List (List Int) → Nat → Int × Bool) : State :=
  if !mayIssue s h.core || !vecSlot h then s else
  let c := coreOf s h.core
  let m := c.guardMask h
  if m = 0 then s else
  if !ok || h.rsv != 0 then kpuFault s h.core 1 0 else
  match srcs.mapM c.vPhys, c.vPhys d with
  | some rs, some r =>
    let vs := rs.map c.vLanes
    let xs := (List.range 4).map (f vs)
    issueFlight s h.core { left := lat, age := 0, slot := h.slot, file := .v, reg := r, mask := m, vals := xs.map (·.1),
                           add := false, wrap := h.w, sat := ((List.range 4).map fun k => b2n (xs.getD k (0, false)).2 * 2 ^ k).sum }
  | _, _ => kpuFault s h.core 4 0

/-- A comparison of two vectors into a predicate (R152). -/
def cmpOp (s : State) (h : KHd) (a b pd : Nat) (f : Int → Int → Bool) : State :=
  if !mayIssue s h.core || !vecSlot h then s else
  let c := coreOf s h.core
  let m := c.guardMask h
  if m = 0 then s else
  if h.rsv != 0 then kpuFault s h.core 1 0 else
  match c.vPhys a, c.vPhys b with
  | some ra, some rb =>
    let va := c.vLanes ra
    let vb := c.vLanes rb
    let v := ((List.range 4).map fun k => b2n (f (va.getD k 0) (vb.getD k 0)) * 2 ^ k).sum
    issueFlight s h.core { left := 2, age := 0, slot := h.slot, file := .p, reg := pd % 8 + 8 * c.bank, mask := m, vals := [(v : Int)],
                           add := false, wrap := false, sat := 0 }
  | _, _ => kpuFault s h.core 4 0

/-- An operation that writes an accumulator (R140, R151, R152): `add` adds the lane terms `f`, else sets them. -/
def accOp (s : State) (h : KHd) (ok add : Bool) (srcs : List Nat) (acc : Nat) (f : List (List Int) → Nat → Int) : State :=
  if !mayIssue s h.core || !vecSlot h then s else
  let c := coreOf s h.core
  let m := c.guardMask h
  if m = 0 then s else
  if !ok || h.rsv != 0 then kpuFault s h.core 1 0 else
  match srcs.mapM c.vPhys, c.aPhys acc with
  | some rs, some r =>
    issueFlight s h.core { left := 4, age := 0, slot := h.slot, file := .a, reg := r, mask := m,
                           vals := (List.range 4).map (f (rs.map c.vLanes)), add := add, wrap := h.w, sat := 0 }
  | _, _ => kpuFault s h.core 4 0

/-- The effective address of an LS operation and the new value of its address register (R145). -/
def lsAddress (c : Core) (a : KAddr) (u : Nat) : Nat × Option Nat :=
  let x := c.xr a.x
  let o : Int := a.ofs * u
  let base : Int := Sparse.getN c.base (c.xKey a.x)
  let len0 := Sparse.getN c.len (c.xKey a.x)
  let len := if len0 = 0 then 2 ^ 18 else len0
  let w := fun (v : Int) => unsigned 32 v
  let rev := fun (m n : Nat) => ((List.range m).map fun i => b2n (n.testBit i) * 2 ^ (m - 1 - i)).sum
  match a.md % 4 with
  | 0 => (w ((x : Int) + o), none)
  | 1 => (x, some (w ((x : Int) + o)))
  | 2 => (x, some (w (base + ((x : Int) - base + o) % (len : Int))))
  | _ =>
    let m := (len / u).log2
    let q := unsigned m (((x : Int) - base) / (u : Int))
    let r := rev m (unsigned m ((rev m q : Int) + a.ofs))
    (x, some (w (base + (u * r : Nat))))

/-- The update of the address register joins those in flight with λ = 1 (R152). -/
def addrUpdate (s : State) (h : KHd) (a : KAddr) (v : Option Nat) : State :=
  match v with
  | none => s
  | some n => issueFlight s h.core { left := 1, age := 0, slot := 1, file := .x, reg := (coreOf s h.core).xKey a.x, mask := 15,
                                     vals := [(n : Int)], add := false, wrap := false, sat := 0 }

/-- Whether an address may be accessed with size u; ALIGN and RANGE otherwise (R146). No rule orders exceptions of one bundle: an address
that is both misaligned and out of range raises ALIGN; a load whose destination is an HREG of R155 raises its address exception or ECC_D
before HREG, a store whose source is one raises HREG first (DESIGN CHOICE, assumption 103). -/
def addrCause (addr u : Nat) : Option Nat := if addr % u ≠ 0 then some 2 else if addr ≥ 2 ^ 18 then some 3 else none

/-- A load (R145, R146, R152): `u` bytes per access, `dst` the register named, `mk` the result in flight. -/
def loadOp (s : State) (h : KHd) (a : KAddr) (u : Nat) (exec? ok : Bool) (mk : Core → List Nat → Option Flight) : State :=
  if !mayIssue s h.core || h.slot != 1 || !exec? then s else
  let c := coreOf s h.core
  if !ok || h.rsv != 0 || h.w then kpuFault s h.core 1 0 else
  let ea := lsAddress c a u
  match addrCause ea.1 u with
  | some cause => kpuFault s h.core cause ea.1
  | none =>
    let e := eccRead s (dmemBase h.core + ea.1) u (kdma h.core) h.core
    if e.1 then kpuFault e.2 h.core 6 ea.1 else
    let s := e.2
    let b := Memory.readBytes s.mem (dmemBase h.core + ea.1) u
    match mk c ((List.range (u / 4)).map fun i => leAt b (4 * i) 4) with
    | some f => addrUpdate (issueFlight s h.core f) h a ea.2
    | none => kpuFault s h.core 4 0

/-- A store: the words to store and the lanes that are stored; they reach memory at the end of the bundle (R145, R146). -/
def storeOp (s : State) (h : KHd) (a : KAddr) (u mask : Nat) (exec? ok : Bool) (words : Core → Option (List Int)) : State :=
  if !mayIssue s h.core || h.slot != 1 || !exec? then s else
  let c := coreOf s h.core
  if !ok || h.rsv != 0 || h.w then kpuFault s h.core 1 0 else
  match words c with
  | none => kpuFault s h.core 4 0
  | some ws =>
    let ea := lsAddress c a u
    match addrCause ea.1 u with
    | some cause => kpuFault s h.core cause ea.1
    | none =>
      addrUpdate (issueFlight s h.core { left := 1, age := 0, slot := 1, file := .m, reg := dmemBase h.core + ea.1, mask := mask,
                                         vals := ws, add := false, wrap := false, sat := 0 }) h a ea.2

/-- A CT operation: guarded by predicate bit 0 and completing its bundle (R134). `run` gives what it does, or the cause of its
exception. -/
def ctOp (s : State) (h : KHd) (run : Core → Except Nat CtAct) : State :=
  if !mayIssue s h.core || h.slot != 0 then s else
  let c := coreOf s h.core
  if !lane (c.guardMask h) 0 then closeBundle s h.core CtAct.none
  else if h.rsv != 0 || h.w then kpuFault s h.core 1 0
  else match run c with
    | .ok act => closeBundle s h.core act
    | .error cause => kpuFault s h.core cause 0

/-- Whether the CT operation executes now: the core issues and the guard is on. -/
def ctRuns (s : State) (h : KHd) : Bool :=
  mayIssue s h.core && h.slot == 0 && lane ((coreOf s h.core).guardMask h) 0 && h.rsv == 0 && !h.w

/-- A result of a CT operation in flight. -/
def ctFlight (file : FFile) (reg lat : Nat) (v : Int) : Flight :=
  { left := lat, age := 0, slot := 0, file := file, reg := reg, mask := 15, vals := [v], add := false, wrap := false, sat := 0 }

/-- A CT operation that writes one address register with λ = 1. -/
def ctX (s : State) (h : KHd) (d : Nat) (f : Core → Int) : State :=
  ctOp s h fun c => .ok { CtAct.none with flights := [ctFlight .x (c.xKey d) 1 (f c)] }

/-- The core stalls; its bundle has not issued (R148, R154). -/
def stallCore (s : State) (k : Nat) (w : KWait) : State := setCore s k { coreOf s k with state := .stall, wait := some w }

/-- A stalled core issues again, after `cycles` KCLK cycles. -/
def unstall (s : State) (k cycles : Nat) : State :=
  let c := coreOf s k
  setCore s k { c with state := if c.hm then .handler else .run, wait := none, busy := c.busy + cycles }

/-- A descriptor joins its channel as DMAQ issues (R148), and one that holds an uncorrectable error raises ECC_D (R158, R161). A
descriptor address that is misaligned or outside data memory is an error of R149 for its transfer, not ALIGN or RANGE (DESIGN CHOICE,
assumption 103). -/
def queueDma (s : State) (k ch addr : Nat) : State :=
  let here := decide (addr % 16 = 0 ∧ addr + 16 ≤ 2 ^ 18)
  let e := if here then eccRead s (dmemBase k + addr) 16 (kdma k) k else (false, s)
  if e.1 then kpuFault e.2 k 6 addr else
  let s := e.2
  let c := coreOf s k
  let d := if here then Memory.readBytes s.mem (dmemBase k + addr) 16 else []
  closeBundle (setCore s k (c.setDma ch (c.dma ch ++ [d]))) k CtAct.none

/-- Whether a channel can take a descriptor: fewer than 4, and the source is not DRAINING (R148, R437). -/
def dmaRoom (s : State) (k ch : Nat) : Bool :=
  decide (((coreOf s k).dma ch).length < 4) && !draining s (kdma k) k

/-- DMA_TRANSFER_DONE: the running descriptor of a channel ends, or stops with an error that discards the queue (R148, R149); an
uncorrectable error in the core's own data memory is its exception ECC_D as well (R158, R441; DESIGN CHOICE, assumption 13). While the
source drains no transfer ends (R437). -/
def dmaDone (s : State) (k ch : Nat) : State :=
  if draining s (kdma k) k then s else
  match (coreOf s k).dma ch with
  | [] => s
  | d :: rest =>
    let r := dmaTransfer s k d 65536
    match r.1 with
    | .good => setCore r.2 k ((coreOf r.2 k).setDma ch rest)
    | .error => dmaFail (setCore r.2 k ((coreOf r.2 k).setDma ch [])) k ch
    | .badData a =>
      let t := if (coreOf r.2 k).state = .fault then r.2 else kpuFault r.2 k 6 a
      dmaFail (setCore t k ((coreOf t k).setDma ch [])) k ch

/-- INTERRUPT_ENTRY (R154): at a bundle boundary, or in place of a stalled DMAQ or DMAW. -/
def interruptEntry (s : State) (k : Nat) : State :=
  let c := coreOf s k
  let waiting := match c.wait with
    | some (.dmaq ..) => true
    | some (.dmaw ..) => true
    | _ => false
  let open_ := c.flight.any (·.age == 0)
  let here := (c.state == .run && !open_) || (c.state == .stall && waiting)
  if !here || !c.ie || c.hm || c.ipend &&& c.imask == 0 || decide (c.brs.length > 1) then s else
  let b := c.brs.head?
  setCore s k { c with
    ipc := c.pc, ibt := (b.map (·.target)).getD 0, ibd := (b.map (·.left)).getD 0, brs := [], hm := true, ie := false,
    pc := c.ivec, state := .handler, wait := none, flight := c.flight.filter (·.age > 0) }

/-- TDONE ends the task when the DMA channels hold nothing (R178): what is in flight completes. -/
def finishTask (s : State) (k : Nat) : State :=
  let s := closeBundle s k CtAct.none
  if (coreOf s k).state = .fault then s else taskEnd (drainFlights 8 s k) k

/-- A TSIG that need not wait any longer (R179). -/
def finishSignal (s : State) (k arc : Nat) : State :=
  let s := closeBundle s k CtAct.none
  if (coreOf s k).state = .fault then s else taskSignal s k arc

/-- A committed write of KPU_FAULT: FAULT returns to IDLE with registers cleared, DEBUG resumes (R162, R164, R437). -/
def kpuFaultWrite (s : State) (v : Nat) : State :=
  (List.range 32).foldl (fun s k =>
    let c := coreOf s k
    if !bit v k then s
    else if c.state = .fault then
      let s := sourceReset (setR s Reg.KPU_FAULT (andNot (getR s Reg.KPU_FAULT) (2 ^ k))) k
      setCore s k { Core.cleared with busy := c.busy }
    else if c.state = .debug then setCore s k { c with state := if c.hm then .handler else .run }
    else s) s

/-- A write of KPU_MBOXk (R153, R164). -/
def mboxWrite (s : State) (k v : Nat) : State :=
  if k < coresPresent s then
    let c := coreOf s k
    setCore s k { c with mbox := v % 2 ^ 32, ipend := c.ipend ||| 2 }
  else s

/-- A committed write of KPU_CLK (R159). -/
def kpuClkWrite (s : State) (v : Nat) : State :=
  let s := if bit v 16 then setF s F.KPU_CLK_DIVREJ 0 else s
  let q := v % 8
  if q < 2 ∨ q > 4 ∨ q > getF s F.KPU_CLK_DIV_MAX then
    raise (addCtr (setEvent s Reg.KPU_CLK (2 ^ 16)) Reg.KPU_DIVREJ 1) 9 0
  else setF (setF s F.KPU_CLK_DIV_REQ q) F.KPU_CLK_DIV_CUR (if s.pwr.trip then 4 else q)

/-- Cores the active take needs: those below its NCORES (R160). -/
def coresNeeded (s : State) : Nat := match s.take.active with | some t => t.graph.ncores | none => 0

/-- Cores whose gate bit was clear before this boundary accept tasks from here on (R160). -/
def ungate (s : State) : State := { s with kpu := { s.kpu with gated := s.kpu.gated &&& getR s Reg.KPU_GATE } }

/-- Idle cores beyond the need of the take are gated (R160). A bit of KPU_GATE that the take stands against, or a core that is not idle,
stays requested and is applied at the first boundary that allows it (DESIGN CHOICE, assumption 103). -/
def gateCores (s : State) : State :=
  let want := getR s Reg.KPU_GATE
  let add := ((List.range 32).map fun k =>
    b2n (bit want k && decide (coresNeeded s ≤ k) && decide (k < coresPresent s) && (coreOf s k).state == .idle &&
      !bit s.kpu.gated k) * 2 ^ k).sum
  let s := { s with kpu := { s.kpu with gated := s.kpu.gated ||| add } }
  setR s Reg.KPU_GATESTAT s.kpu.gated

/-- The code of a core's state (R164). -/
def coreCode (s : State) (k : Nat) : Nat :=
  if bit s.kpu.gated k then 5 else
  match (coreOf s k).state with
  | .idle => 0
  | .run => 1
  | .stall => 2
  | .handler => 3
  | .fault => 4
  | .debug => 6

/-- The per-core registers at a boundary (R164). -/
def publishKpu (s : State) : State :=
  (List.range (coresPresent s)).foldl (fun s k =>
    let c := coreOf s k
    let s := setR s (Reg.KPU_CORESTAT + 0x20 * k) (coreCode s k * 2 ^ 29 + c.cause * 2 ^ 24 + c.last)
    let s := setR s (Reg.KPU_FAULTPC + 0x20 * k) c.faultPc
    setR s (Reg.KPU_FAULTADDR + 0x20 * k) c.faultAddr) s

end Sys2Proof.Machine
end

