-- ==== Sys2Proof/Machine/TakeParse.lean ====
section
/-! DEFINITION. The take container and its sections: parsing, with the tests of steps 1 to 4 of R222. Each `parse` answers none
where a length, a reserved field or a field range of step 3 fails. -/

namespace Sys2Proof.Machine

open Sys2Proof

/-- `n` records of `sz` bytes from the front; none where the bytes run out. -/
def records (sz : Nat) : Nat → Bytes → Option (List Bytes)
  | 0, _ => some []
  | n + 1, b =>
    let r := b.take sz
    if r.length < sz then none else (records sz n (b.drop sz)).map (r :: ·)

/-- `n` records of `sz` bytes from offset `o`. -/
def recordsAt (b : Bytes) (o sz n : Nat) : Option (List Bytes) := records sz n (b.drop o)

/-- The bytes [o, o + n) are present and 0. -/
def zeroAt (b : Bytes) (o n : Nat) : Bool := (sliceB b o n) == zeroBytes n

/-- A value answered only where its condition holds. -/
def guardSome {α : Type} (c : Bool) (v : α) : Option α := if c then some v else none

/-- A 32-bit field that is a sign-extended 24-bit value (R214, R287). -/
def signExt24 (v : Nat) : Bool := decide (v < 0x800000) || decide (0xFF800000 ≤ v)

/-- An index up to `hi`, or 0xFFFF for none. -/
def idxOrNone (hi v : Nat) : Bool := decide (v ≤ hi) || v == 0xFFFF

/-- An output code of R274. -/
def isOutCode (v : Nat) : Bool := idxOrNone 0x2FF v

/-- Whether a list has no repeats. -/
def noDup {α : Type} [BEq α] : List α → Bool
  | [] => true
  | x :: t => !t.contains x && noDup t

/-- The SYSTEM section (R211). -/
def parseSystem (b : Bytes) : Option SystemSec :=
  let v := beAt b 4 2
  let d := beAt b 1 1
  let t := beAt b 2 1
  let f := beAt b 3 1
  guardSome (b.length == 16 && decide (beAt b 0 1 ≤ 3) && (d == 2 || d == 3) && (t == 1 || t == 2 || t == 4 || t == 8) &&
      decide (f < 4) && (v == 0x5124 || v == 0x2512) && zeroAt b 6 2 && zeroAt b 12 4)
    { rate := beAt b 0 1, depth := d, tick := t, headroom := bit f 0, twoFit := bit f 1, variant := v }

/-- A kernel table entry (R166). -/
def parseKernel (image : Nat) (b : Bytes) : Option Kernel :=
  let k : Kernel := { entry := beAt b 0 2, len := beAt b 2 2, coreMask := beAt b 4 4, img := beAt b 8 4 }
  guardSome (decide (k.entry ≤ 4095) && decide (1 ≤ k.len ∧ k.len ≤ 4096) && zeroAt b 12 4 &&
    decide (k.img + 16 * k.len ≤ image)) k

/-- A local data table entry (R166). -/
def parseDataImg (image : Nat) (b : Bytes) : Option DataImg :=
  let d : DataImg := { coreMask := beAt b 0 4, laddr := beAt b 4 4, len := beAt b 8 4, img := beAt b 12 4 }
  guardSome (decide (d.laddr % 16 = 0 ∧ d.len % 16 = 0 ∧ d.img + d.len ≤ image)) d

/-- A task table entry (R168). -/
def parseTask (b : Bytes) : Option Task :=
  let t : Task := { kernel := beAt b 0 2, cls := beAt b 2 1, nslot := beAt b 3 1, affMode := beAt b 4 1, affCore := beAt b 5 1,
                    dlk := beAt b 6 1, arcFirst := beAt b 8 2, arcCount := beAt b 10 2,
                    args := (List.range 4).map fun n => beAt b (12 + 4 * n) 4 }
  guardSome (decide (t.cls ≤ 7 ∧ 1 ≤ t.nslot ∧ t.nslot ≤ 8 ∧ t.affMode ≤ 2 ∧ t.dlk ≤ 7 ∧ t.arcCount ≤ 1024) &&
    (t.affMode != 0 || t.affCore == 0) && zeroAt b 7 1 && zeroAt b 28 4) t

/-- An arc table entry (R169): a task index or a source port, a task index or a sink (R171). -/
def parseArc (b : Bytes) : Option Arc :=
  let a : Arc := { src := beAt b 0 2, dst := beAt b 2 2, slot := beAt b 4 1, auto := beAt b 5 1 == 1 }
  guardSome ((decide (a.src ≤ 4095) || decide (0xF000 ≤ a.src ∧ a.src ≤ 0xF002)) &&
    (decide (a.dst ≤ 4095) || decide (0xE000 ≤ a.dst ∧ a.dst ≤ 0xE01F)) &&
    decide (a.slot ≤ 7 ∧ beAt b 5 1 ≤ 1) && (decide (a.dst ≤ 4095) || a.slot == 0) && zeroAt b 6 2) a

/-- A buffer table entry (R167). -/
def parseBuffer (b : Bytes) : Option Buffer :=
  let u : Buffer := { base := beAt b 0 4, size := beAt b 4 4, rot := beAt b 8 1, kind := beAt b 9 1 }
  guardSome (decide (u.base % 16 = 0 ∧ u.size % 16 = 0 ∧ 16 ≤ u.size ∧ 1 ≤ u.rot ∧ u.rot ≤ 4 ∧ u.kind ≤ 3) && zeroAt b 10 6) u

/-- The GRAPH section and its image area (R165). A table that runs beyond the section fails as its length would. -/
def parseGraph (b : Bytes) : Option (GraphSec × Bytes) := do
  let o := fun n => beAt b n 4
  let img := b.drop (o 92)
  let nt := beAt b 4 2
  let nk := beAt b 6 2
  let na := o 8
  let nb := beAt b 12 2
  let nd := beAt b 14 2
  let nc := beAt b 16 1
  let dv := beAt b 17 1
  if b.length ≥ 96 ∧ o 0 = 0x47524150 ∧ 1 ≤ nt ∧ nt ≤ 4096 ∧ 1 ≤ nk ∧ nk ≤ 256 ∧ 1 ≤ na ∧ na ≤ 32768 ∧ 1 ≤ nb ∧ nb ≤ 4096 ∧
      nd ≤ 1024 ∧ 1 ≤ nc ∧ nc ≤ 32 ∧ 2 ≤ dv ∧ dv ≤ 4 ∧ zeroAt b 22 2 ∧ zeroAt b 68 4 ∧ beAt b 58 2 ≤ 4095 ∧ o 64 < 0x40000 ∧
      o 92 ≤ b.length then
    let ks ← (← recordsAt b (o 72) 16 nk).mapM (parseKernel img.length)
    let ts ← (← recordsAt b (o 76) 32 nt).mapM parseTask
    let as_ ← (← recordsAt b (o 80) 8 na).mapM parseArc
    let bs ← (← recordsAt b (o 84) 16 nb).mapM parseBuffer
    let ds ← (← recordsAt b (o 88) 16 nd).mapM (parseDataImg img.length)
    some ({ ncores := nc, divMax := dv, slotsTotal := beAt b 18 2, setsTotal := beAt b 20 2,
            busNeed := (List.range 16).map fun g => beAt b (24 + g) 1,
            auxNeed := (List.range 16).map fun g => beAt b (40 + g) 1,
            imemLo := beAt b 56 2, imemHi := beAt b 58 2, dmemLo := o 60, dmemHi := o 64,
            kernels := ks, tasks := ts, arcs := as_, buffers := bs, images := ds }, img)
  else none

/-- A layout entry (R42). -/
def parseSpeaker (b : Bytes) : Option Speaker :=
  guardSome (decide (beAt b 18 2 ≤ 1) && signExt24 (beAt b 20 4) && zeroAt b 24 8)
    { x := beAtS b 0 4, y := beAtS b 4 4, z := beAtS b 8 4, nx := beAtS b 12 2, ny := beAtS b 14 2, nz := beAtS b 16 2,
      present := beAt b 18 2 == 1, trim := beAtS b 20 4 }

/-- A triangle (R43). -/
def parseTriangle (b : Bytes) : Option Triangle :=
  let v := fun n => beAt b (2 * n) 2
  guardSome (decide (v 0 ≤ 575 ∧ v 1 ≤ 575 ∧ v 2 ≤ 575) && zeroAt b 6 2 && zeroAt b 44 4)
    { v0 := v 0, v1 := v 1, v2 := v 2, m := (List.range 9).map fun n => beAtS b (8 + 4 * n) 4 }

/-- A candidate set (R44). -/
def parseCandSet (b : Bytes) : Option CandSet :=
  let c : CandSet := { members := beAt b 0 2, tris := beAt b 2 2, memberOfs := beAt b 4 4, triOfs := beAt b 8 4,
                       law := beAt b 12 1, rolloff := beAt b 13 1, dref := beAt b 16 4, dmin := beAt b 20 4,
                       blur := beAt b 24 4, doff := beAtS b 28 4 }
  guardSome (decide (1 ≤ c.members ∧ c.members ≤ 512 ∧ c.tris ≤ 256 ∧ c.law ≤ 2 ∧ c.rolloff ≤ 1 ∧ 1 ≤ c.dref ∧
    c.dref ≤ 262143 ∧ 1 ≤ c.dmin ∧ c.dmin ≤ 262143 ∧ 16 ≤ c.blur ∧ c.blur ≤ 131071) && zeroAt b 14 2) c

/-- A member entry (R44). -/
def parseMember (b : Bytes) : Option (Nat × Nat) :=
  guardSome (decide (beAt b 0 2 ≤ 511 ∧ beAt b 2 2 ≤ 0x8000)) (beAt b 0 2, beAt b 2 2)

/-- An entry of the initial object table: words 0 to 5 (R49). -/
def parseInit (b : Bytes) : Option (List Nat) :=
  let w := fun n => beAt b (4 * n) 4
  guardSome (decide (w 3 ≤ 131071 ∧ w 4 < 2 ^ 24 ∧ bits (w 5) 27 26 = 0 ∧ bits (w 5) 7 6 = 0 ∧ bits (w 5) 25 24 ≠ 3))
    ((List.range 6).map w)

/-- The GEOMETRY section (R540) of a take of the given VARIANT. -/
def parseGeo (variant : Nat) (b : Bytes) : Option GeoSec := do
  let nt := beAt b 0 2
  let nc := beAt b 2 2
  let nm := beAt b 4 4
  let nl := beAt b 8 4
  let ni := beAt b 12 2
  if nt ≤ 2048 ∧ 1 ≤ nc ∧ nc ≤ 256 ∧ 1 ≤ nm ∧ nm ≤ 32768 ∧ nl ≤ 16384 ∧
      (ni = 0 ∨ ni = (if variant = 0x2512 then 512 else 1024)) ∧ zeroAt b 14 18 ∧
      b.length = 18464 + 48 * nt + 32 * nc + 4 * nm + 2 * nl + 24 * ni then
    let b := b.drop 32
    let sp ← (← records 32 576 b).mapM parseSpeaker
    let b := b.drop 18432
    let tr ← (← records 48 nt b).mapM parseTriangle
    let b := b.drop (48 * nt)
    let cs ← (← records 32 nc b).mapM parseCandSet
    let b := b.drop (32 * nc)
    let ms ← (← records 4 nm b).mapM parseMember
    let b := b.drop (4 * nm)
    let tl := (← records 2 nl b).map beVal
    let b := b.drop (2 * nl)
    let is_ ← (← records 24 ni b).mapM parseInit
    if tl.all (· ≤ 2047) then
      some { speakers := sp, tris := tr, csets := cs, members := ms, trilist := tl, init := is_ }
    else none
  else none

/-- The RENDER section (R212). FARBASE is tested only while a far slot is assigned (R89); BUDGET and the list areas are judged at
step 7 (R74, R170). -/
def parseRender (b : Bytes) : Option RenderSec :=
  let o := fun n => beAt b n 4
  let far := (List.range 64).map fun q => beAt b (48 + 2 * q) 2
  let used := far.filter (· != 0xFFFF)
  let r : RenderSec := { budget := o 0, reserve := o 4, slew := beAt b 8 2, lista := o 12, listb := o 16, farbase := beAt b 20 8,
                         kspm := o 28, floor := o 32, farslot := far }
  guardSome (b.length == 176 && decide (r.reserve ≤ r.budget ∧ r.slew ≤ 0x4000 ∧ r.floor < 2 ^ 24) && zeroAt b 10 2 && zeroAt b 36 12 && used.all (· ≤ 1023) && noDup used &&
    (used.isEmpty || r.farbase % 2 ^ 20 == 0)) r

/-- The CORRECTION section (R213). -/
def parseCorr (b : Bytes) : Option CorrSec := do
  let cs ← records 8 512 (b.drop 16)
  let r : CorrSec := { drbase := beAt b 0 8, xflen := beAt b 8 2, len := cs.map fun c => beAt c 0 1,
                       setid := cs.map fun c => beAt c 4 4 }
  guardSome (b.length == 4112 && decide (r.drbase % 2 ^ 20 = 0 ∧ 1 ≤ r.xflen ∧ r.xflen ≤ 4096) && zeroAt b 10 6 &&
    cs.all fun c => decide (beAt c 0 1 ≤ 8) && zeroAt c 1 3 && ((beAt c 4 4 == 0) == (beAt c 0 1 == 0))) r

/-- Nodes sorted by OUT, then by IN, with no pair repeated (R214). -/
def nodesSorted : List (Nat × Nat × Int) → Bool
  | a :: b :: t => (decide (a.1 < b.1) || (a.1 == b.1 && decide (a.2.1 < b.2.1))) && nodesSorted (b :: t)
  | _ => true

/-- The CROSSPOINT section (R214). -/
def parseXpt (b : Bytes) : Option XptSec := do
  let n := beAt b 0 4
  if n ≤ 16384 ∧ b.length = 528 + 8 * n ∧ zeroAt b 4 12 then
    let mc := (← records 4 128 (b.drop 16)).map beVal
    let ns ← records 8 n (b.drop 528)
    let nodes := ns.map fun r => (beAt r 0 2, beAt r 2 2, beAtS r 4 4)
    guardSome (mc.all (fun v => bits v 30 9 == 0) && nodesSorted nodes &&
      (ns.all fun r => decide (beAt r 0 2 ≤ 639 ∧ beAt r 2 2 ≤ 511 ∧ beAt r 4 4 ≠ 0) && signExt24 (beAt r 4 4)))
      { moncfg := mc, nodes := nodes }
  else none

/-- The SAFETY section (R215). -/
def parseSafety (b : Bytes) : Option SafetySec := do
  let o := fun n => beAt b n 4
  let ce := (← records 4 8 b).map beVal
  let cs := (← records 4 96 (b.drop 48)).map beVal
  guardSome (b.length == 432 && ce.all (· ≤ 0x1000000) && decide (o 32 ≤ 1) && cs.all (fun v => v &&& 0x88888888 == 0))
    { ceil := ce, adctrl := o 32, adstep := o 36, adceil := o 40, adfloor := o 44, ceilsel := cs }

/-- The NP values of R269. -/
def npOk (double : Bool) (np : Nat) : Bool :=
  if double then [12, 24, 32, 96].contains np else [6, 12, 16, 48].contains np

/-- A receive entry (R272, R269, R277). -/
def parseRx (double : Bool) (b : Bytes) : Option RxEnt :=
  let o := fun n => beAt b n 4
  let e : RxEnt := { dsta := o 0, dstb := o 4, srca := o 8, srcb := o 12, udpa := beAt b 16 2, udpb := beAt b 18 2,
                     kind := beAt b 20 1, fmt := beAt b 21 1, ch := beAt b 22 1, np := beAt b 23 1, pt := beAt b 24 1,
                     flags := beAt b 25 1, depth := beAt b 26 2, linkofs := o 28, ssrc := o 32, mapofs := beAt b 36 2 }
  let maxd := if double then (if bit e.flags 0 then 2688 else 768) else (if bit e.flags 0 then 1344 else 384)
  guardSome (decide (e.dsta ≠ 0 ∨ e.dstb ≠ 0) && decide (e.kind ≤ 1 ∧ 96 ≤ e.pt ∧ e.pt ≤ 127 ∧ e.flags ≤ 3 ∧ e.linkofs < 2 ^ 31) &&
    zeroAt b 38 10 &&
    (if e.kind = 1 then decide (e.fmt = 0 ∧ e.ch = 0 ∧ e.np = 0 ∧ e.depth = 0 ∧ e.mapofs = 0)
     else decide (e.fmt ≤ 2 ∧ 1 ≤ e.ch ∧ e.ch ≤ 64 ∧ (e.fmt = 2 → e.ch % 2 = 0) ∧ e.np ≤ e.depth ∧ e.depth ≤ maxd) &&
       npOk double e.np)) e

/-- A transmit entry (R273). -/
def parseTx (double : Bool) (b : Bytes) : Option TxEnt :=
  let o := fun n => beAt b n 4
  let e : TxEnt := { dsta := o 0, dstb := o 4, sport := beAt b 8 2, dport := beAt b 10 2, ssrc := o 12, pt := beAt b 16 1,
                     ch := beAt b 17 1, np := beAt b 18 1, csum := beAt b 19 1 == 1, seqofs := beAt b 20 2, ttl := beAt b 22 1,
                     dscp := beAt b 23 1, mapofs := beAt b 24 2 }
  guardSome (decide (96 ≤ e.pt ∧ e.pt ≤ 127 ∧ 1 ≤ e.ch ∧ e.ch ≤ 64 ∧ beAt b 19 1 ≤ 1 ∧ 1 ≤ e.ttl ∧ e.dscp ≤ 63) &&
    npOk double e.np && zeroAt b 26 6) e

/-- The STREAMS section (R271) at single or double rate. -/
def parseStreams (double : Bool) (b : Bytes) : Option StreamSec := do
  let nr := beAt b 0 2
  let nt := beAt b 2 2
  let nrc := beAt b 4 2
  let ntc := beAt b 6 2
  if nr ≤ 256 ∧ nt ≤ 128 ∧ nrc ≤ 1536 ∧ ntc ≤ 640 ∧ beAt b 8 8 % 2 ^ 20 = 0 ∧ zeroAt b 17 15 ∧
      b.length = 32 + 48 * nr + 32 * nt + 4 * nrc + 2 * ntc then
    let ext := beAt b 8 8
    let ml := beAt b 16 1
    let b := b.drop 32
    let rx ← (← records 48 nr b).mapM (parseRx double)
    let b := b.drop (48 * nr)
    let tx ← (← records 32 nt b).mapM (parseTx double)
    let b := b.drop (32 * nt)
    let rm := (← records 4 nrc b).map fun r => (beAt r 0 2, beAt r 2 2)
    let tm := (← records 2 ntc (b.drop (4 * nrc))).map beVal
    guardSome (rm.all (fun m => idxOrNone 1023 m.1 && idxOrNone 511 m.2) && tm.all isOutCode)
      { extbase := ext, mlate := ml, rx := rx, tx := tx, rxmap := rm, txmap := tm }
  else none

/-- The CLOCK section (R367). -/
def parseClock (b : Bytes) : Option ClockSec := do
  let o := fun n => beAt b n 4
  let pr := (List.range 6).map fun e => beAt b e 1
  let named := pr.filter (· != 0xFF)
  let rf ← records 8 4 (b.drop 24)
  let rc := rf.map fun r => beAt r 0 4
  let rd := rf.map fun r => beAt r 4 4
  let oc := (List.range 4).map fun n => o (56 + 4 * n)
  let cfgOk := fun (v : Nat) => let src := bits v 12 8
    decide (v &&& 0xFFFFE0E8 = 0 ∧ v % 8 ≤ 4 ∧ (src ≤ 15 ∨ src = 31))
  guardSome (b.length == 80 && named.all (· ≤ 5) && noDup named && decide (beAt b 6 1 ≤ 3 ∧ beAt b 7 1 ≤ 18 ∧ 1 ≤ beAt b 8 2 ∧
      beAt b 8 2 ≤ 600 ∧ beAt b 10 2 ≤ 3600 ∧ 100 ≤ o 12 ∧ o 12 ≤ 200000 ∧ 1 ≤ o 16 ∧ o 16 ≤ 100000) && zeroAt b 20 4 &&
      rc.all cfgOk && rd.all (fun d => decide ((signed 32 d).natAbs ≤ 100000000)) &&
      oc.all (fun v => v &&& 0x3FFFFFF8 == 0 && decide (v % 8 ≤ 5)) && o 72 &&& 0x3FFFFFFE == 0 && zeroAt b 76 4)
    { prio := ((List.range 6).map fun e => (if pr.getD e 7 = 0xFF then 7 else pr.getD e 7) * 8 ^ e).sum,
      policy := beAt b 6 1 / 2 % 2 * 2 ^ 9 + beAt b 6 1 % 2 * 2 ^ 8 + beAt b 7 1,
      qual := beAt b 10 2 * 2 ^ 16 + beAt b 8 2, tol := o 12, lockthr := o 16, refcfg := rc, refdly := rd, outcfg := oc,
      wclk := o 72 }

/-- One master's record of the FABRIC section (R433): the windows fill bytes 16 to 271. Reserved fields are judged at step 7. -/
def parseFabRec (head : Bool) (b : Bytes) : Option FabRec := do
  let ws := (← records 16 16 (b.drop 16)).map fun w => (beAt w 0 8, beAt w 8 4, beAt w 12 4)
  guardSome (ws.all fun w => decide (w.2.1 ≤ 2 ^ 28))
    { clean := head && zeroAt b 10 6 && ws.all fun w => decide (w.1 % 4096 = 0 ∧ w.1 < 2 ^ 40) && w.2.2 &&& 0x7FF0FFF8 == 0,
      prio := (List.range 16).map fun t => beAt b (t / 2) 1 / (if t % 2 = 0 then 16 else 1) % 16, slice := beAt b 8 2, wins := ws }

/-- The FABRIC section (R433). -/
def parseFabric (b : Bytes) : Option (List FabRec) := do
  if b.length = 9616 then (← records 400 24 (b.drop 16)).mapM (parseFabRec (zeroAt b 0 16)) else none

/-- A decimator channel (R397). -/
def parseDec (b : Bytes) : Option DecEnt :=
  let e : DecEnt := { src := beAt b 0 2, cset := beAt b 2 1, obj := beAt b 4 2, xin := beAt b 6 2 }
  guardSome (decide (e.src ≤ 0xF ∨ (0x1000 ≤ e.src ∧ e.src ≤ 0x10FF) ∨ e.src = 0xFFFF) && decide (e.cset ≤ 3) && zeroAt b 3 1 &&
    idxOrNone 1023 e.obj && idxOrNone 511 e.xin) e

/-- The LOCALIO section (R397): ranges, among them the two slots of I2S framing (R372), count for enabled ports and for coefficient
sets in use. -/
def parseLio (b : Bytes) : Option LioSec := do
  let ps ← records 16 16 (b.drop 16)
  let pc := ps.map fun p => beAt p 0 4
  let st := ps.map fun p => beAt p 8 4
  let im := (← records 4 256 (b.drop 272)).map fun m => (beAt m 0 2, beAt m 2 2)
  let oc := (← records 2 256 (b.drop 1296)).map beVal
  let de ← (← records 8 16 (b.drop 1808)).mapM parseDec
  let gc := (← records 4 4 (b.drop 1936)).map fun g => (let v := beVal g; if bits v 26 25 = 3 then setBits v 26 25 0 else v)
  let sr := (← records 2 32 (b.drop 1952)).map beVal
  let qs ← records 260 4 (b.drop 2016)
  let sets := qs.map fun q => (beAt q 0 2, (List.range 64).map fun t => beAtS q (4 + 4 * t) 4)
  let on := fun i => bit (pc.getD (i / 16) 0) 31
  let used := fun q => de.any fun e => e.src != 0xFFFF && e.cset == q
  let portOk := fun (p : Nat × Nat) => !bit p.1 31 || decide (1 ≤ bits p.1 26 22 ∧ bits p.1 26 22 ≤ 16 ∧ 1 ≤ bits p.2 23 16 ∧
    1 ≤ bits p.2 15 0 ∧ bits p.2 15 0 ≤ 1000 ∧ (bit p.1 20 → bits p.1 26 22 = 2))
  let setOk := fun (q : (Nat × List Int) × Nat) => !used q.2 || (decide (1 ≤ q.1.1 ∧ q.1.1 ≤ 64) && (q.1.2.drop q.1.1).all (· == 0))
  guardSome (b.length == 3056 && decide (beAt b 0 4 % 16 = 0 ∧ beAt b 4 4 % 16 = 0 ∧ beAt b 8 1 ≤ 2) && zeroAt b 9 7 &&
      ps.all (fun p => beAt p 0 4 % 2 ^ 16 == 0 && bits (beAt p 8 4) 30 24 == 0 && zeroAt p 12 4) && (pc.zip st).all portOk &&
      (im.zipIdx.all fun m => !on m.2 || (idxOrNone 1023 m.1.1 && idxOrNone 511 m.1.2)) &&
      (oc.zipIdx.all fun c => !on c.2 || isOutCode c.1) && gc.all (· % 2 ^ 25 == 0) && sr.all isOutCode &&
      qs.all (zeroAt · 2 2) && sets.zipIdx.all setOk)
    { tdmbuf := beAt b 0 4, decbuf := beAt b 4 4, micosr := beAt b 8 1, pcfg := pc, mask := ps.map fun p => beAt p 4 4,
      pstart := st, inmap := im, ocode := oc, dec := de, gcfg := gc, psrc := sr, csets := sets }

/-- The CONTINUITY section (R216). -/
def parseCont (b : Bytes) : Option ContSec :=
  guardSome (b.length == 16 && decide (1 ≤ beAt b 10 1 ∧ beAt b 11 1 ≤ 3) && zeroAt b 12 4)
    { group := beAt b 0 4, mcast := beAt b 4 4, udpport := if beAt b 8 2 = 0 then 5125 else beAt b 8 2, ttl := beAt b 10 1, ports := beAt b 11 1 }

/-- The format of the SIGNATURE section (R217). -/
def signatureOk (b : Bytes) : Bool := b.length == 80 && zeroAt b 4 12

/-- A directory entry (R209) with its body. -/
structure SectEnt where
  type : Nat
  sver : Nat
  ofs : Nat
  len : Nat
  crc : Nat
  body : Bytes
deriving DecidableEq, Repr

/-- The directory in order of the container. -/
def directory (b : Bytes) : List SectEnt :=
  (List.range (beAt b 6 2)).map fun n =>
    let e := sliceB b (48 + 16 * n) 16
    let o := beAt e 4 4
    let l := beAt e 8 4
    { type := beAt e 0 2, sver := beAt e 2 2, ofs := o, len := l, crc := beAt e 12 4, body := sliceB b o l }

/-- The directory in ascending TYPE. -/
def byType (d : List SectEnt) : List SectEnt :=
  d.foldl (fun acc e => acc.takeWhile (·.type ≤ e.type) ++ e :: acc.dropWhile (·.type ≤ e.type)) []

/-- The section types the device knows (R210). -/
def knownTypes : List Nat := [1, 2, 3, 4, 5, 6, 7, 8, 9, 10, 11, 12, 0xFF]

/-- Placement of the bodies (R209). -/
def placed (b : Bytes) (d : List SectEnt) : Bool :=
  let e0 := 48 + 16 * d.length
  d.all (fun e => decide (e.ofs % 16 = 0 ∧ e0 ≤ e.ofs ∧ e.ofs + e.len ≤ b.length)) &&
  d.zipIdx.all fun x => d.zipIdx.all fun y =>
    x.2 == y.2 || decide (x.1.ofs + x.1.len ≤ y.1.ofs ∨ y.1.ofs + y.1.len ≤ x.1.ofs)

/-- The header tests a reel store makes too (R219): LENGTH and HCRC. -/
def headerOk (b : Bytes) : Bool :=
  decide (48 ≤ b.length) && beAt b 12 4 == b.length && decide (b.length % 16 = 0) && decide (b.length ≤ 8388608) &&
  crc32c (b.take 44) == beAt b 44 4

/-- Step 1 of R222: header, directory placement, type set, and the values named at stage-begin. -/
def checkHeader (b : Bytes) (named : Option (Nat × Nat)) : Bool :=
  let d := directory b
  let n := beAt b 6 2
  let ts := d.map (·.type)
  headerOk b && beAt b 0 4 == 0x54414B45 && beAt b 4 2 == 1 && decide (7 ≤ n ∧ n ≤ 16) && decide (48 + 16 * n ≤ b.length) && placed b d &&
  ts.all knownTypes.contains && noDup ts && [1, 2, 3, 4, 5, 6, 7].all ts.contains &&
  (match named with
   | some (len, slate) => beAt b 12 4 == len && beAt b 8 4 == slate
   | none => true)

/-- The first section whose SCRC fails, in ascending TYPE (step 2 of R222). -/
def badCrc (d : List SectEnt) : Option Nat := ((byType d).find? fun e => crc32c e.body != e.crc).map (·.type)

/-- The body of a section. -/
def sectBody (d : List SectEnt) (t : Nat) : Option Bytes := (d.find? (·.type == t)).map (·.body)

/-- The canonical form of a take (R218). -/
def canonicalForm (d : List SectEnt) : Bytes :=
  ((byType d).filter (·.type != 0xFF)).flatMap fun e => beBytes 2 e.type ++ beBytes 2 e.sver ++ beBytes 4 e.len ++ e.body

/-- The sections of a take as step 3 of R222 reads them: the take, or the TYPE of the first section that fails (0xFFFF: the
header). -/
def parseSections (b : Bytes) (d : List SectEnt) : Except Nat Take := do
  let sect := fun {α : Type} (t : Nat) (p : Bytes → Option α) =>
    match d.find? (·.type == t) with
    | some e => if e.sver = 1 then (match p e.body with | some v => Except.ok v | none => .error t) else .error t
    | none => .error t
  let opt := fun {α : Type} (t : Nat) (dflt : α) (p : Bytes → Option α) =>
    if d.any (·.type == t) then sect t p else Except.ok dflt
  if beAt b 8 4 = 0 ∨ !zeroAt b 32 12 then .error 0xFFFF
  let sys ← sect 1 parseSystem
  let gr ← sect 2 parseGraph
  let geo ← sect 3 (parseGeo sys.variant)
  let ren ← sect 4 parseRender
  let cor ← sect 5 parseCorr
  let xpt ← sect 6 parseXpt
  let saf ← sect 7 parseSafety
  let str ← opt 8 StreamSec.none (parseStreams (decide (2 ≤ sys.rate)))
  let clk ← opt 9 none (fun x => (parseClock x).map some)
  let fab ← opt 10 none (fun x => (parseFabric x).map some)
  let lio ← opt 11 LioSec.none parseLio
  let con ← opt 12 ContSec.none parseCont
  let _ ← opt 0xFF () (fun x => guardSome (signatureOk x) ())
  return { slate := beAt b 8 4, digest := sliceB b 16 16, raw := b, sys := sys, graph := gr.1, images := gr.2, geo := geo, render := ren,
           corr := cor, xpt := xpt, safety := saf, streams := str, clock := clk, fabric := fab, localio := lio,
           hasLio := d.any (·.type == 11), cont := con }

/-- The status codes a check gives (R245, R222). -/
inductive CheckFail
  | format | crc | digest | signature | variant | inconsistent
deriving DecidableEq, Repr

/-- Steps 1 to 4 of R222: the take, or what failed with its section type. -/
def parseTake (b : Bytes) (named : Option (Nat × Nat)) : Except (CheckFail × Nat) Take :=
  if !checkHeader b named then .error (.format, 0xFFFF) else
  let d := directory b
  match badCrc d with
  | some t => .error (.crc, t)
  | none =>
    match parseSections b d with
    | .error t => .error (.format, t)
    | .ok k => if (sha256 (canonicalForm d)).take 16 = k.digest then .ok k else .error (.digest, 0xFFFF)

end Sys2Proof.Machine
end

