-- ==== Sys2Proof/Machine/TakeCheck.lean ====
section
/-! DEFINITION. Steps 5 to 7 of the check of a take (R222): the signature, the units of the part, and the consistency of the
sections with each other and with the block. A failed condition is named by the section type it is reported against. -/

namespace Sys2Proof.Machine

open Sys2Proof

/-- A condition of the check: the section it is reported against where it fails. -/
def failing (sect : Nat) (ok : Bool) : List Nat := if ok then [] else [sect]

/-- The lowest of the sections reported against (R222). -/
def lowest : List Nat → Option Nat
  | [] => none
  | x :: t => some (t.foldl min x)

/-- Address of image A or B in the SPI flash (R430, R498). -/
def flashImage (k : Nat) : Nat := if k = 0 then 0x90100000 else 0x90300000

/-- The bytes of a firmware image, header and body: A or B of the flash, or the one loaded from the host or the UART (R496 to
R498). -/
def imageOf (s : State) (k : Nat) : Bytes :=
  if k ≤ 1 then
    let len := beVal (Memory.readBytes s.mem (flashImage k + 8) 4)
    Memory.readBytes s.mem (flashImage k) (256 + (if len ≤ 1835008 then len else 0))
  else s.pwr.bootImage

/-- Step 5 outside and in secure mode (R217, R499): a SIGNATURE section of SLATE and H that verifies under the key KEYID names. -/
def signatureValid (s : State) (b : Bytes) : Bool :=
  let d := directory b
  match sectBody d 0xFF with
  | none => false
  | some g =>
    let img := imageOf s s.fw.running
    let k := beAt g 0 4
    decide (k < beAt img 17 1) &&
      Config.ed25519Valid (sliceB img (52 + 32 * k) 32) (sliceB g 16 64) (sliceB b 8 4 ++ sha256 (canonicalForm d))

/-- Whether two spans share a byte. -/
def spansMeet (a n b m : Nat) : Bool := decide (a < b + m ∧ b < a + n)

/-- The masters of the engines and cores that the TK2512 lacks: PE2, PE3, CONV1, KDMA4 to KDMA7 (R4, R431). -/
def absentMasters : List Nat := [4, 5, 8, 20, 21, 22, 23]

/-- Step 6 of R222: VARIANT, and every unit the take names against those of the part and of VARIANT (R5). -/
def variantFails (s : State) (t : Take) : List Nat :=
  let small := s.hw.tk2512 || t.sys.variant == 0x2512
  let nb := if small then 256 else 512
  let no := if small then 512 else 1024
  let nc := if small then 16 else 32
  let obj := fun (v : Nat) => v == 0xFFFF || decide (v < no)
  let code := fun (v : Nat) => decide (v < nb ∨ 0x200 ≤ v)
  let on := fun i => bit (t.localio.pcfg.getD (i / 16) 0) 31
  let g := t.graph
  failing 1 (!(s.hw.tk2512 && t.sys.variant == 0x5124)) ++
  failing 2 ((!small || (g.busNeed.drop 8).all (· == 0) && g.arcs.all fun a => decide (a.dst < 0xE008 ∨ 0xE010 ≤ a.dst)) &&
    decide (g.ncores ≤ nc) && g.kernels.all (fun k => decide (k.coreMask < 2 ^ nc)) &&
    g.images.all (fun k => decide (k.coreMask < 2 ^ nc)) && g.tasks.all fun x => x.affMode == 0 || decide (x.affCore < nc)) ++
  failing 3 (((t.geo.speakers.take 512).drop nb).all (!·.present) && t.geo.members.all fun m => decide (m.1 < nb)) ++
  failing 4 (t.render.farslot.all obj) ++
  failing 5 ((t.corr.len.drop nb).all (· == 0)) ++
  failing 6 ((t.xpt.nodes.all fun n => decide (n.1 < nb ∨ 512 ≤ n.1)) &&
    t.xpt.moncfg.all fun m => !bit m 31 || decide (m % 512 < nb)) ++
  failing 8 (t.streams.rxmap.all (fun m => obj m.1) && t.streams.txmap.all code) ++
  failing 10 (!small || (t.fabric.getD []).zipIdx.all fun z => !absentMasters.contains z.2 || z.1.wins.all fun w => !bit w.2.2 31) ++
  failing 11 ((t.localio.inmap.zipIdx.all fun m => !on m.2 || obj m.1.1) &&
    (t.localio.dec.all fun d => d.src == 0xFFFF || obj d.obj) && (t.localio.ocode.zipIdx.all fun c => !on c.2 || code c.1) &&
    t.localio.psrc.all code)

/-- R25 and R74: the path budget against the depth, the fit flag and the rate. -/
def budgetFails (s : State) (t : Take) : List Nat :=
  let h := if s.hw.tk2512 then 2 else 1
  failing 1 (t.sys.depth != 2 || (decide (t.render.budget ≤ 196608 / h) && t.sys.twoFit)) ++
  failing 1 (decide (t.render.budget ≤ (if doubleRate t.sys.rate then 196608 else 393216) / h))

/-- R45 and R38: indexes of the geometry tables, and the range of positions, of every layout entry whether present or not. The range
of an empty triangle list is judged like any other (DEDUCED, assumption 75). -/
def geometryFails (t : Take) : List Nat :=
  let g := t.geo
  let present := g.speakers.map (·.present)
  let has := fun k => present.getD k false
  failing 3 ((g.speakers.all fun p => decide (max p.x.natAbs (max p.y.natAbs p.z.natAbs) ≤ 131071)) &&
    g.tris.all (fun r => has r.v0 && has r.v1 && has r.v2) && g.trilist.all (fun i => decide (i < g.tris.length)) &&
    g.members.all (fun m => has m.1) &&
    (g.csets.all fun c => decide (c.memberOfs + c.members ≤ g.members.length ∧ c.triOfs + c.tris ≤ g.trilist.length) &&
      noDup (((g.members.drop c.memberOfs).take c.members).map (·.1))) &&
    g.init.all fun e => decide (bits (e.getD 5 0) 15 8 < g.csets.length))

/-- R102 and R105: the engine budgets, and a READY slot for every set. -/
def correctionFails (s : State) (t : Take) : List Nat :=
  let nb := busCount s
  let len := fun c => t.corr.len.getD c 0
  let engines := if s.hw.tk2512 then [0] else [0, 1]
  let set := fun c => match serveSlot (chanOf s c) (t.corr.setid.getD c 0) with
    | some q => slotSet ((chanOf s c).slots.getD q .empty)
    | none => none
  let used := (List.range nb).filter fun c => len c != 0
  failing 1 (engines.all fun e =>
    let cs := ((List.range nb).filter fun c => convEngine s c == e).map fun c => convCost (len c)
    decide (cs.sum + 32 * cs.foldl max 0 ≤ convBudget t.sys.rate)) ++
  failing 1 (used.all fun c => match set c with | some f => f.rate == t.sys.rate | none => true) ++
  failing 5 (used.all fun c => match set c with | some f => f.len == len c | none => false)

/-- Whether no arcs form a cycle: the arcs whose source no arc reaches drop out, round by round. -/
def acyclic : Nat → List (Nat × Nat) → Bool
  | 0, l => l.isEmpty
  | n + 1, l => l.isEmpty || acyclic n (l.filter fun a => l.any fun b => b.2 == a.1)

/-- R169, R170 and R173: the graph against itself. -/
def graphFails (t : Take) : List Nat :=
  let g := t.graph
  let nt := g.tasks.length
  let low := fun m => m % 2 ^ g.ncores
  let sorted := (g.arcs.zip (g.arcs.drop 1)).all fun p => decide (p.1.src ≤ p.2.src)
  let ends := g.arcs.all fun a => (decide (a.src < nt) || decide (0xF000 ≤ a.src ∧ a.src ≤ 0xF002)) &&
    (match g.tasks[a.dst]? with
     | some x => decide (a.slot < x.nslot)
     | none => decide (0xE000 ≤ a.dst ∧ a.dst ≤ 0xE01F) && a.slot == 0)
  let fills := g.arcs.filterMap fun a => if a.dst < nt then some (8 * a.dst + a.slot) else none
  let sink := fun n => (g.arcs.filter fun a => a.dst == 0xE000 + n).length
  let taskOk := fun (p : Task × Nat) =>
    let own := (g.arcs.drop p.1.arcFirst).take p.1.arcCount
    own.length == p.1.arcCount && own.all (·.src == p.2) && ((g.arcs.filter (·.src == p.2)).length == p.1.arcCount) &&
    (match g.kernels[p.1.kernel]? with
     | some k => low k.coreMask != 0 && (p.1.affMode == 0 || (decide (p.1.affCore < g.ncores) && bit k.coreMask p.1.affCore))
     | none => false) &&
    p.1.args.all fun a => a / 2 ^ 30 == 0 || (a / 2 ^ 30 == 1 && decide (a % 4096 < g.buffers.length))
  let kernOk := g.kernels.zipIdx.all fun p => decide (g.imemLo ≤ p.1.entry ∧ p.1.entry + p.1.len ≤ g.imemHi + 1) &&
    g.kernels.zipIdx.all fun q => p.2 == q.2 || p.1.coreMask &&& q.1.coreMask == 0 || !spansMeet p.1.entry p.1.len q.1.entry q.1.len
  failing 2 (decide (g.slotsTotal = (g.tasks.map fun x => x.nslot * (x.dlk + 2)).sum ∧ g.slotsTotal ≤ 16384 ∧
      g.setsTotal = (g.tasks.map fun x => x.dlk + 2).sum ∧ g.setsTotal ≤ 8192) &&
    sorted && ends && noDup fills && (g.tasks.zipIdx.all fun p => (List.range p.1.nslot).all fun k => fills.contains (8 * p.2 + k)) &&
    g.tasks.zipIdx.all taskOk && ((List.range 16).all fun n => sink n == g.busNeed.getD n 0 && sink (16 + n) == g.auxNeed.getD n 0) &&
    acyclic nt ((g.arcs.filter fun a => decide (a.src < nt ∧ a.dst < nt)).map fun a => (a.src, a.dst)) && kernOk &&
    g.images.all fun d => d.len == 0 || decide (g.dmemLo ≤ d.laddr ∧ d.laddr + d.len ≤ g.dmemHi + 1))

/-- R199: the ceilings against the limit. -/
def safetyFails (s : State) (t : Take) : List Nat := failing 7 (t.safety.ceil.all fun c => decide (c ≤ getF s F.XPT_CEILLIM_LIM))

/-- Whether the take assigns a far slot. -/
def farUsed (t : Take) : Bool := t.render.farslot.any (· != 0xFFFF)

/-- What the take places in the cluster SRAM: offset, size, section (R69, R167, R375, R389, R397). -/
def sramAreas (t : Take) : List (Nat × Nat × Nat) :=
  let a := 16 * 1025 + 8 * (t.render.budget - t.render.reserve)
  [(t.render.lista, a, 4), (t.render.listb, a, 4)] ++ (t.graph.buffers.map fun b => (b.base, b.size * b.rot, 2)) ++
  (if t.hasLio then [(t.localio.tdmbuf, 32768 * t.sys.depth, 11), (t.localio.decbuf, 1088 * t.sys.depth, 11)] else [])

/-- Every pair of a list, the earlier first. -/
def pairsOf {α : Type} : List α → List (α × α)
  | [] => []
  | x :: t => t.map (fun y => (x, y)) ++ pairsOf t

/-- R170, R222, R541: the areas within the cluster SRAM and free of overlap. -/
def areaFails (t : Take) : List Nat :=
  let l := sramAreas t
  failing 1 (t.graph.buffers.all fun b => b.kind == 0 || b.rot == t.sys.depth) ++
  (l.flatMap fun x => failing x.2.2 (decide (x.1 + x.2.1 ≤ 0x800000) && !spansMeet x.1 x.2.1 0x7D0000 0x30000) ++
    failing (min x.2.2 4) (!(farUsed t && spansMeet x.1 x.2.1 0x7A0000 0x30000))) ++
  ((pairsOf l).flatMap fun p => failing (min p.1.2.2 p.2.2.2) (!spansMeet p.1.1 p.1.2.1 p.2.1 p.2.2.1))

/-- The DRAM regions of a take: base, size, section (R89, R116, R277). -/
def dramRegions (s : State) (t : Take) : List (Nat × Nat × Nat) :=
  (if farUsed t then [(t.render.farbase, 0x2000000, 4)] else []) ++
  [(t.corr.drbase, if s.hw.tk2512 then 155713536 else 310902784, 5)] ++
  (if t.streams.rx.any (fun e => bit e.flags 0) then [(t.streams.extbase, 0x1800000, 8)] else [])

/-- TAKE_REELBASE (R219). -/
def reelBase (s : State) : Nat := getR64 s Reg.TAKE_REELBASE_LO Reg.TAKE_REELBASE_HI

/-- R219, R222: the regions inside the usable DRAM, clear of the reel area and of each other; R407: READY = 1 at FSP0, reported
with the region every take has (DESIGN CHOICE, assumption 40). -/
def dramFails (s : State) (t : Take) : List Nat :=
  let l := dramRegions s t
  failing 5 (s.dram.ready && s.dram.fsp == 0) ++
  (l.flatMap fun x => failing x.2.2 (decide (0x1000000000 ≤ x.1 ∧ x.1 + x.2.1 ≤ 0x1000000000 + memUsable s) &&
    !spansMeet x.1 x.2.1 (reelBase s) 0x20000000)) ++
  ((pairsOf l).flatMap fun p => failing (min p.1.2.2 p.2.2.2) (!spansMeet p.1.1 p.1.2.1 p.2.1 p.2.2.1))

/-- Each entry of a map belongs to exactly one of the ranges. -/
def mapCovered (n : Nat) (ranges : List (Nat × Nat)) : Bool :=
  ranges.all (fun r => decide (r.1 + r.2 ≤ n)) && (pairsOf ranges).all (fun p => !spansMeet p.1.1 p.1.2 p.2.1 p.2.2) &&
    (ranges.map (·.2)).sum == n

/-- MAX_FRAME of a port (R299). -/
def maxFrame (s : State) (port : Nat) : Nat := getR s (Reg.NET_MAXFRAME + 0x10000 * port)

/-- R270, R275, R277: receive and transmit entries of the STREAMS section. In chain mode port B carries leg A too (R298). -/
def streamFails (s : State) (t : Take) : List Nat :=
  let x := t.streams
  let rxA := x.rx.filter (·.dsta != 0)
  let rxB := x.rx.filter (·.dstb != 0)
  let audio := x.rx.filter (·.kind == 0)
  let rxFit := fun port (e : RxEnt) => decide (e.ch * e.np * [2, 3, 4].getD e.fmt 2 + 62 ≤ maxFrame s port)
  let txFit := fun port (e : TxEnt) => decide (e.ch * e.np * 3 + 62 ≤ maxFrame s port)
  let txA := x.tx.filter (·.dsta != 0)
  let chain := getF s F.NET_CFG_PORTMODE == 1
  failing 8 (rxA.all (rxFit 0) && rxB.all (rxFit 1) && txA.all (txFit 0) && (x.tx.filter (·.dstb != 0)).all (txFit 1) &&
    (!chain || (rxA.all (rxFit 1) && txA.all (txFit 1))) && noDup (rxA.map fun e => (e.dsta, e.udpa)) && noDup (rxB.map fun e => (e.dstb, e.udpb)) &&
    mapCovered x.rxmap.length (audio.map fun e => (e.mapofs, e.ch)) && mapCovered x.txmap.length (x.tx.map fun e => (e.mapofs, e.ch)) &&
    decide (((audio.filter fun (e : RxEnt) => !bit e.flags 0).map fun (e : RxEnt) => e.ch * e.depth * 3).sum ≤ 1835008)) ++
  failing 8 (getF s F.NET_CFG_PORTMODE != 1 || (rxB.isEmpty && x.tx.all (·.dstb == 0))) ++
  failing 12 (getF s F.NET_CFG_PORTMODE != 1 || t.cont.ports / 2 == 0)

/-- R275: no object or crosspoint input has two sources, among stream channels, slots of enabled ports and decimators. -/
def feedFails (t : Take) : List Nat :=
  let slot := fun (i : Nat) => let v := t.localio.pcfg.getD (i / 16) 0; bit v 31 && decide (i % 16 < bits v 26 22)
  let lio := (t.localio.inmap.zipIdx.filter fun m => slot m.2).map (fun m => (m.1, 11)) ++
    (t.localio.dec.filter (·.src != 0xFFFF)).map (fun d => ((d.obj, d.xin), 11))
  let all := t.streams.rxmap.map (fun m => (m, 8)) ++ lio
  let objs := (all.filter (·.1.1 != 0xFFFF)).map fun f => (f.1.1, f.2)
  let xins := (all.filter (·.1.2 != 0xFFFF)).map fun f => (f.1.2, f.2)
  let twice := fun (l : List (Nat × Nat)) => (pairsOf l).flatMap fun p => failing (min p.1.2 p.2.2) (p.1.1 != p.2.1)
  twice objs ++ twice xins

/-- R373 and R376 for the enabled ports. -/
def localFails (t : Take) : List Nat :=
  let x := t.localio
  let lim := if doubleRate t.sys.rate then 8 else 16
  let ports := (List.range 16).filter fun p => bit (x.pcfg.getD p 0) 31
  let mul := fun p => bits (x.pcfg.getD p 0) 30 27 + 1
  let slots := fun p => bits (x.pcfg.getD p 0) 26 22
  failing 1 (ports.all fun p => if bit (x.pcfg.getD p 0) 21 then lim % (slots p * mul p) == 0 else decide (slots p * mul p ≤ lim)) ++
  failing 11 (ports.all fun p => mul p == 1 || (bits (x.mask.getD p 0) (15 + slots p) 16 == 0 &&
    (List.range (slots p)).all fun j => x.inmap.getD (16 * p + j) (0xFFFF, 0xFFFF) == (0xFFFF, 0xFFFF)))

/-- R353: a TDM reference names a port in the slave role. -/
def clockFails (t : Take) : List Nat :=
  match t.clock with
  | none => []
  | some c => failing 9 (c.refcfg.all fun v => v % 8 != 4 ||
      (let p := t.localio.pcfg.getD (bits v 12 8) 0; decide (bits v 12 8 ≤ 15) && !bit p 21))

/-- Whether an enabled window holds every byte of [a, a + n), the first that decodes an address deciding (R432). -/
def windowCovers (read write : Bool) (ws : List (Nat × Nat × Nat)) : Nat → Nat → Nat → Bool
  | 0, _, n => n == 0
  | fuel + 1, a, n =>
    if n = 0 then true else
    match ws.zipIdx.find? fun w => decide (w.1.1 ≤ a ∧ a < w.1.1 + 4096 * w.1.2.1) with
    | none => false
    | some (w, i) =>
      let stop := ((ws.take i).filter fun v => decide (a < v.1)).foldl (fun m v => min m v.1) (min (a + n) (w.1 + 4096 * w.2.1))
      (!read || bit w.2.2 0) && (!write || bit w.2.2 1) && windowCovers read write ws fuel stop (a + n - stop)

/-- R433: the windows and priorities of the FABRIC section, and the windows of the graph's buffers. -/
def fabricFails (t : Take) : List Nat :=
  let on := fun (r : FabRec) => r.wins.filter fun w => bit w.2.2 31
  let tgt := fun (w : Nat × Nat × Nat) => bits w.2.2 19 16
  let reach := fun m v => if m < 16 then (resetTargets m).contains v else decide (v ≤ 6)
  let prio0 := fun (r : FabRec) => r.prio.getD 0 0
  let own := match t.fabric with
    | none => []
    | some ms =>
      let zs := ms.zipIdx
      let low := (zs.filter fun z => isClass0 z.2).foldl (fun m z => min m (prio0 z.1)) 15
      failing 10 (ms.all (·.clean) && (zs.all fun z => (on z.1).all fun w => decide (w.1 + 4096 * w.2.1 ≤ 2 ^ 40) && reach z.2 (tgt w)) &&
        zs.all fun z => isClass0 z.2 || !((resetTargets z.2).contains 0 || (on z.1).any fun w => tgt w == 0) || decide (prio0 z.1 ≤ low))
  let kdma := fun k => match t.fabric with
    | none => []
    | some ms => match ms[16 + k]? with | some r => on r | none => []
  own ++ failing 2 ((List.range ((t.graph.ncores + 3) / 4)).all fun k => t.graph.buffers.all fun b =>
    windowCovers (b.kind == 0 || b.kind == 1) (b.kind != 1) (kdma k) 34 (csram + b.base) (b.size * b.rot))

/-- Step 7 of R222: the lowest section a failed condition is reported against. -/
def inconsistent (s : State) (t : Take) : Option Nat :=
  lowest (budgetFails s t ++ geometryFails t ++ correctionFails s t ++ graphFails t ++ safetyFails s t ++ areaFails t ++ dramFails s t ++
    streamFails s t ++ feedFails t ++ localFails t ++ clockFails t ++ fabricFails t)

/-- The reply status of a failed check (R222). -/
def CheckFail.status : CheckFail → Status
  | .format => .stageFormat
  | .crc => .stageCrc
  | .digest => .stageDigest
  | .signature => .stageSignature
  | .variant => .stageVariant
  | .inconsistent => .stageInconsistent

/-- Steps 1 to 6 of R222, before the wait of R223. -/
def checkEarly (s : State) (b : Bytes) (named : Option (Nat × Nat)) : Except (CheckFail × Nat) Take :=
  match parseTake b named with
  | .error e => .error e
  | .ok t =>
    if s.hw.secure && !signatureValid s b then .error (.signature, 0xFF) else
    match lowest (variantFails s t) with
    | some sect => .error (.variant, sect)
    | none => .ok t

/-- The whole check (R222). -/
def checkTake (s : State) (b : Bytes) (named : Option (Nat × Nat)) : Except (CheckFail × Nat) Take :=
  match checkEarly s b named with
  | .error e => .error e
  | .ok t => match inconsistent s t with
    | some sect => .error (.inconsistent, sect)
    | none => .ok t

end Sys2Proof.Machine
end

