-- ==== Sys2Proof/Machine/Stage.lean ====
section
/-! DEFINITION. The staging area and its check, the reel, the cut command, and the firmware switch (R219 to R226, R237, R238). -/

namespace Sys2Proof.Machine

open Sys2Proof

/-- Stores the take block. -/
def setTake (s : State) (t : TakeSt) : State := { s with take := t }

/-- TAKE_STATUS.STAGE (R221); a copy from the reel is a load in progress. -/
def stageCode : Stage → Nat
  | .empty => 0
  | .loading => 1
  | .checking => 2
  | .checked => 3
  | .failed => 4
  | .scheduled => 5

/-- LENGTH and SLATE a stage-begin or REEL_BEGIN may name (R221). -/
def lengthOk (len : Nat) : Bool := decide (len % 16 = 0 ∧ 160 ≤ len ∧ len ≤ 8388608)

/-- The area enters FAILED: TAKE_STAGEERR, TAKE_STAGEFAIL, STAGE_FAIL and STAGEFAIL (R221, R222, R227). -/
def stageFail (s : State) (st : Status) (sect slate : Nat) : State :=
  let s := setTake s { s.take with stage := .failed, staged := none }
  let s := addCtr (setR s Reg.TAKE_STAGEERR (st.code * 65536 + sect)) Reg.TAKE_STAGEFAIL 1
  raise (logEv s 0x0C04 [(2, (st.code : Int)), (2, (sect : Int)), (4, (slate : Int))]) 12 2

/-- A copy from the reel that a new load or a discard ends owes its reply (R245; the status is DESIGN CHOICE, assumption 41). -/
def abandonCopy (s : State) : State :=
  match s.take.copying with
  | some _ => replyTo (setTake s { s.take with copying := none, ctx := none }) s.take.ctx .stageState []
  | none => s

/-- The area becomes EMPTY (R221). -/
def stageClear (s : State) : State :=
  setTake s { s.take with stage := .empty, named := none, bytes := [], staged := none, copying := none, waiting := false, cut := none }

/-- A load of LENGTH and SLATE starts (R221). -/
def startLoad (s : State) (len slate : Nat) (ctx : Option Ctx) : State :=
  let s := abandonCopy s
  replyTo (setTake s { s.take with stage := .loading, named := some (len, slate), bytes := zeroBytes len, staged := none }) ctx .ok []

/-- The usable DRAM holds the bytes [a, a + n) (R405, R409). -/
def dramHolds (s : State) (a n : Nat) : Bool := s.dram.ready && decide (a + n ≤ 0x1000000000 + memUsable s)

/-- Address of a reel slot (R219). -/
def reelAddr (s : State) (slot : Nat) : Nat := reelBase s + 8388608 * slot

/-- The reel slot, and a change of it. -/
def slotOf (s : State) (k : Nat) : ReelSlot := s.take.reel[k]?.getD ReelSlot.empty
def setSlot (s : State) (k : Nat) (v : ReelSlot) : State := setTake s { s.take with reel := s.take.reel.setIfInBounds k v }

/-- A copy from a full reel slot starts; until it ends the area is being loaded (R220, R221). Without its DRAM it reads zeros (R434). -/
def startCopy (s : State) (slot : Nat) (ctx : Option Ctx) : State :=
  let v := slotOf s slot
  if !v.full then replyTo s ctx .reelEmpty [] else
  let s := abandonCopy s
  let (b, s) := if dramHolds s (reelAddr s slot) v.len then memRead s (reelAddr s slot) v.len 13 0 else (zeroBytes v.len, s)
  setTake s { s.take with stage := .loading, named := none, bytes := b, staged := none, copying := some slot, ctx := ctx }

/-- Ranges of two takes that share a core overlap (R186). -/
def imagesOverlap (a b : Take) : Bool :=
  let meet := fun (lo hi lo' hi' : Nat) => decide (lo ≤ hi' ∧ lo' ≤ hi)
  decide (0 < min a.graph.ncores b.graph.ncores) &&
    (meet a.graph.imemLo a.graph.imemHi b.graph.imemLo b.graph.imemHi ||
     meet a.graph.dmemLo a.graph.dmemHi b.graph.dmemLo b.graph.dmemHi)

/-- The kernel and local data images of a take on core k (R166, R186). -/
def loadImages (s : State) (t : Take) (k : Nat) : State :=
  let s := t.graph.kernels.foldl (fun s x =>
    if bit x.coreMask k then memWrite s (imemBase k + 16 * x.entry) ((beWords (sliceB t.images x.img (16 * x.len))).flatMap (leBytes 4)) else s) s
  t.graph.images.foldl (fun s x => if bit x.coreMask k then memWrite s (dmemBase k + x.laddr) (sliceB t.images x.img x.len) else s) s

/-- Staging loads the images unless they overlap the active take's (R186). -/
def stageImages (s : State) (t : Take) : State :=
  let clash := match s.take.active with | some a => imagesOverlap a t | none => false
  if clash then s else (List.range (coresPresent s)).foldl (fun s k => loadImages s t k) s

/-- An earlier cut's program bank is still held (R223). -/
def bankHeld (s : State) : Bool := (List.range 2).any fun b => match bankOf s b with | some k => k.hi.isSome | none => false

/-- A discard at its commit, outside CHECKING (R221, R223). -/
def discardNow (s : State) (ctx : Option Ctx) : State :=
  if s.take.stage = .scheduled then replyTo s ctx .cutPending [] else replyTo (stageClear (abandonCopy s)) ctx .ok []

/-- What waited for the end of the check takes effect, in order (R221). -/
def stageNexts (s : State) : State :=
  let l := s.take.next
  let s := stageClear (setTake s { s.take with next := [] })
  l.foldl (fun s x => match x.1 with
    | .discard => discardNow s x.2
    | .begin_ len slate => startLoad s len slate x.2
    | .fromReel slot => startCopy s slot x.2) s

/-- The check ends with its result (R221, R222). -/
def checkEnds (s : State) (r : Except (CheckFail × Nat) Take) : State :=
  let ctx := s.take.ctx
  let s := setTake s { s.take with ctx := none, waiting := false }
  if s.take.next ≠ [] then
    stageNexts (replyTo s ctx (match r with | .ok _ => .ok | .error e => e.1.status) [])
  else
    match r with
    | .ok t => raise (replyTo (stageImages (setTake s { s.take with stage := .checked, staged := some t }) t) ctx .ok []) 12 1
    | .error e =>
      let slate := match s.take.named with | some n => n.2 | none => beAt s.take.bytes 8 4
      replyTo (stageFail s e.1.status e.2 slate) ctx e.1.status []

/-- STAGE_CHECK_DONE: the check of R222 has run as far as it can. Before step 7 it waits while a bank of an earlier cut is held
(R223). -/
def checkDone (s : State) : State :=
  if s.take.stage ≠ .checking ∨ s.take.waiting then s else
  match checkEarly s s.take.bytes s.take.named with
  | .error e => checkEnds s (.error e)
  | .ok t =>
    if bankHeld s then setTake s { s.take with waiting := true }
    else
      match inconsistent s t with
      | some sect => checkEnds s (.error (.inconsistent, sect))
      | none => checkEnds s (.ok t)

/-- STAGE_CHECK_RESUME: the bank is released and the check goes on (R223). -/
def checkResume (s : State) : State :=
  if s.take.waiting && !bankHeld s then checkDone (setTake s { s.take with waiting := false }) else s

/-- STAGE_BEGIN (R221, R223). -/
def stageBegin (s : State) (len slate : Nat) (ctx : Option Ctx) : State :=
  if s.take.stage = .scheduled then replyTo s ctx .cutPending []
  else if !lengthOk len ∨ slate = 0 then replyTo s ctx .stageFormat []
  else if s.take.stage = .checking then setTake s { s.take with next := s.take.next ++ [(.begin_ len slate, ctx)] }
  else startLoad s len slate ctx

/-- STAGE_DATA (R221). -/
def stageData (s : State) (ofs : Nat) (d : Bytes) (ctx : Option Ctx) : State :=
  if s.take.stage ≠ .loading ∨ s.take.copying.isSome then replyTo s ctx .stageState []
  else if ofs + d.length > s.take.bytes.length then replyTo s ctx .stageFormat []
  else replyTo (setTake s { s.take with bytes := patchB s.take.bytes ofs d }) ctx .ok []

/-- STAGE_END: the check starts, and replies when it ends (R221). -/
def stageEnd (s : State) (ctx : Option Ctx) : State :=
  if s.take.stage ≠ .loading ∨ s.take.copying.isSome then replyTo s ctx .stageState []
  else setTake s { s.take with stage := .checking, ctx := ctx }

/-- STAGE_FROM_REEL (R220, R221, R223). -/
def stageFromReel (s : State) (slot : Nat) (ctx : Option Ctx) : State :=
  if s.take.stage = .scheduled then replyTo s ctx .cutPending []
  else if !(slotOf s slot).full then replyTo s ctx .reelEmpty []
  else if s.take.stage = .checking then setTake s { s.take with next := s.take.next ++ [(.fromReel slot, ctx)] }
  else startCopy s slot ctx

/-- REEL_COPY_DONE: the copy ends and the check starts (R221). -/
def copyDone (s : State) : State :=
  match s.take.copying with
  | some _ => setTake s { s.take with stage := .checking, copying := none }
  | none => s

/-- A stage discard commits (R221). -/
def stageDiscard (s : State) (ctx : Option Ctx) : State :=
  if s.take.stage = .checking then setTake s { s.take with next := s.take.next ++ [(.discard, ctx)] } else discardNow s ctx

/-- The slate a staged take has, (0, zeros) without one (R221, R234). -/
def stagedSlate (s : State) : Nat × Bytes :=
  match s.take.staged with
  | some t => (t.slate, t.digest)
  | none => (0, zeroBytes 16)

/-- The slate of the active take, (0, zeros) without one (R234). -/
def activeSlate (s : State) : Nat × Bytes :=
  match s.take.active with
  | some t => (t.slate, t.digest)
  | none => (0, zeroBytes 16)

/-- STAGE_STATUS (R261). -/
def stageStatus (s : State) (ctx : Option Ctx) : State :=
  let g := stagedSlate s
  replyTo s ctx .ok (beBytes 1 (stageCode s.take.stage) ++ zeroBytes 3 ++ beBytes 4 (getR s Reg.TAKE_STAGEERR) ++ beBytes 4 g.1 ++ g.2)

/-- REEL_BEGIN: the slot becomes empty; an earlier load is abandoned (R219, R261). Without usable DRAM no load starts (R409). -/
def reelBegin (s : State) (slot len : Nat) (ctx : Option Ctx) : State :=
  if !lengthOk len then replyTo s ctx .stageFormat []
  else
    let s := setSlot s slot ReelSlot.empty
    if dramHolds s (reelAddr s slot) len then replyTo (setTake s { s.take with reelLoad := some (slot, len) }) ctx .ok []
    else replyTo (setTake s { s.take with reelLoad := none }) ctx .stageFormat []

/-- REEL_DATA (R261); without usable DRAM the store fails (R219, R409). -/
def reelData (s : State) (slot ofs : Nat) (d : Bytes) (ctx : Option Ctx) : State :=
  match s.take.reelLoad with
  | some (k, len) =>
    if k ≠ slot then replyTo s ctx .reelState []
    else if ofs + d.length > len ∨ !dramHolds s (reelAddr s slot) len then replyTo s ctx .stageFormat []
    else replyTo (dramWrite s 13 0 (reelAddr s slot + ofs) d) ctx .ok []
  | none => replyTo s ctx .reelState []

/-- REEL_END: HCRC, LENGTH and every SCRC (R219); without usable DRAM the store fails and the slot stays empty (R409). -/
def reelEnd (s : State) (slot : Nat) (ctx : Option Ctx) : State :=
  match s.take.reelLoad with
  | none => replyTo s ctx .reelState []
  | some (k, len) =>
    if k ≠ slot then replyTo s ctx .reelState [] else
    if !dramHolds s (reelAddr s slot) len then replyTo (setTake s { s.take with reelLoad := none }) ctx .stageFormat [] else
    let (b, s) := memRead s (reelAddr s slot) len 13 0
    let s := setTake s { s.take with reelLoad := none }
    let d := directory b
    if !headerOk b || decide (48 + 16 * beAt b 6 2 > len) || d.any (fun e => decide (e.ofs + e.len > len)) then
      replyTo s ctx .stageFormat []
    else if (badCrc d).isSome then replyTo s ctx .stageCrc []
    else replyTo (setSlot s slot { full := true, len := len, slate := beAt b 8 4, digest := sliceB b 16 16 }) ctx .ok []

/-- REEL_DELETE (R220). -/
def reelDelete (s : State) (slot : Nat) (ctx : Option Ctx) : State := replyTo (setSlot s slot ReelSlot.empty) ctx .ok []

/-- REEL_LIST (R261). -/
def reelList (s : State) (ctx : Option Ctx) : State :=
  replyTo s ctx .ok ((List.range 64).flatMap fun k =>
    let v := slotOf s k
    if v.full then beBytes 4 v.slate ++ v.digest else zeroBytes 20)

/-- A write of TAKE_REELBASE commits (R219): `lo` says which half. -/
def reelBaseCommit (s : State) (lo : Bool) (v : Nat) : State :=
  let old := reelBase s
  let new := if lo then old / 2 ^ 32 * 2 ^ 32 + v % 2 ^ 32 / 2 ^ 20 * 2 ^ 20 else v % 256 * 2 ^ 32 + old % 2 ^ 32
  let used := (match s.take.active with | some t => dramRegions s t | none => []) ++
    (if s.take.stage = .checked ∨ s.take.stage = .scheduled then
      match s.take.staged with | some t => dramRegions s t | none => []
     else [])
  if s.take.reel.any (·.full) ∨ used.any (fun r => spansMeet r.1 r.2.1 new 0x20000000) then s
  else setR64 s Reg.TAKE_REELBASE_LO Reg.TAKE_REELBASE_HI new

/-- A rejected cut command counts (R225). -/
def cutReject (s : State) (ctx : Option Ctx) (st : Status) : State := replyTo (addCtr s Reg.TAKE_CUTREJ 1) ctx st []

/-- CUT (R224, R225). -/
def cutCommand (s : State) (tmode hard t0 t1 : Nat) (digest : Bytes) (ctx : Option Ctx) : State :=
  let f := if tmode = 0 then t0 else frameOfPtp s.tl.rate t0 t1
  match s.take.stage, s.take.staged with
  | .scheduled, _ => cutReject s ctx .cutPending
  | .checked, some t =>
    if digest ≠ t.digest then cutReject s ctx .digestMismatch
    else if f ≤ s.tl.frame + 1 then cutReject s ctx .framePast
    else replyTo (setTake s { s.take with stage := .scheduled, cut := some (f, hard == 1) }) ctx .ok (beBytes 8 f)
  | _, _ => cutReject s ctx .notStaged

/-- CUT_CANCEL at its commit (R226). -/
def cutCancel (s : State) (ctx : Option Ctx) : State :=
  if s.take.stage = .scheduled then replyTo (setTake s { s.take with stage := .checked, cut := none }) ctx .ok []
  else replyTo s ctx .noCut []

/-- An image is valid: MAGIC, LENGTH, HCRC, BODYCRC, NTKEY; in secure mode its root key and SIG too (R497, R498). -/
def imageValid (s : State) (b : Bytes) : Bool :=
  let len := beAt b 8 4
  let body := sliceB b 256 len
  let pub := sliceB b 20 32
  let rk := beAt b 16 1
  decide (256 ≤ b.length) && beAt b 0 4 == 0x4C465749 && decide (1 ≤ len ∧ len ≤ 1835008) && body.length == len &&
  crc32c (b.take 252) == beAt b 252 4 && crc32c body == beAt b 12 4 && decide (beAt b 17 1 ≤ 4) &&
  (!s.hw.secure || (decide (rk ≤ 3) && sha256 pub == s.hw.rootDigest.getD rk [] && !bit s.hw.rootRevoked rk &&
    Config.ed25519Valid pub (sliceB b 188 64) (b.take 188 ++ body)))

/-- VERSION of a firmware image, 0 without a valid one (R264, R497). -/
def fwVersion (s : State) (k : Nat) : Nat := let b := imageOf s k; if imageValid s b then beAt b 4 4 else 0

/-- SYS_BOOT.ROOTKEY: the root key index of the image that runs (R497, R512). -/
def rootKey (s : State) (img : Nat) : State := setF s F.SYS_BOOT_ROOTKEY (beAt (imageOf s img) 16 1)

/-- The control processor restarts from an image: the watchdog is reloaded, and every queued command is answered (R237, R495;
the answer is DESIGN CHOICE, assumption 42). -/
def restartFw (s : State) (img : Nat) : State :=
  let q := s.ccp.fwQ
  let s := fwRestart { s with ccp := { s.ccp with fwQ := [] }, pwr := { s.pwr with wdt1 := false, wdtLoads := s.pwr.wdtLoads + 1 } } img
  let s := setFB (setF (rootKey s img) F.HOST_STATUS_FWREADY 0) F.HOST_STATUS_FWRESTART true
  q.foldl (fun s c => reply s c.1 .fwRestarting []) s

/-- FW_BEGIN (R237, R261): the image named is erased, and so is the image of a load it abandons. -/
def fwBegin (s : State) (img len : Nat) (ctx : Option Ctx) : State :=
  if img = s.fw.running then replyTo s ctx .fwActive []
  else if (match s.fw.sched with | some x => x.1 == img | none => false) then replyTo s ctx .fwPending []
  else
    let s := { s with mem := Sparse.clearRange s.mem (flashImage img) (flashImage img + 0x200000) }
    let s := match s.fw.load with
      | some (old, _) => { s with mem := Sparse.clearRange s.mem (flashImage old) (flashImage old + 0x200000) }
      | none => s
    replyTo { s with fw := { s.fw with load := some (img, len) } } ctx .ok []

/-- FW_DATA (R261). -/
def fwData (s : State) (ofs : Nat) (d : Bytes) (ctx : Option Ctx) : State :=
  match s.fw.load with
  | some (img, len) =>
    if ofs + d.length > len then replyTo s ctx .badParam [] else replyTo (memWrite s (flashImage img + ofs) d) ctx .ok []
  | none => replyTo s ctx .fwState []

/-- FW_END: the tests of R498 (R237, R261). -/
def fwEnd (s : State) (ctx : Option Ctx) : State :=
  match s.fw.load with
  | none => replyTo s ctx .fwState []
  | some (img, len) =>
    let b := imageOf s img
    let s := { s with fw := { s.fw with load := none } }
    replyTo s ctx (if imageValid s b && b.length == len then .ok else .fwInvalid) []

/-- FW_SWITCH (R237). -/
def fwSwitch (s : State) (img f : Nat) (ctx : Option Ctx) : State :=
  if s.fw.sched.isSome then replyTo s ctx .fwPending []
  else if img = s.fw.running then replyTo s ctx .fwActive []
  else if !imageValid s (imageOf s img) then replyTo s ctx .fwInvalid []
  else if f ≤ s.tl.frame + 1 then replyTo s ctx .framePast []
  else replyTo { s with fw := { s.fw with sched := some (img, f), schedArr := (ctx.map (·.arr)).getD 0 } } ctx .ok []

/-- FW_STATUS (R261). -/
def fwStatus (s : State) (ctx : Option Ctx) : State :=
  replyTo s ctx .ok (beBytes 1 (s.fw.running % 2) ++ beBytes 1 (b2n (imageValid s (imageOf s 0)) + 2 * b2n (imageValid s (imageOf s 1))) ++
    zeroBytes 2 ++ beBytes 4 (fwVersion s 0) ++ beBytes 4 (fwVersion s 1) ++ zeroBytes 4)

/-- A firmware switch scheduled for frame f commits (R237). -/
def fwSwitchNow (s : State) (img f : Nat) : State :=
  let old := s.fw.running
  restartFw { stamp s with fw := { s.fw with previous := old, switching := some (f, fwVersion s old) } } img

/-- The running image reports ready (R13, R238). -/
def fwReady (s : State) (v : Nat) : State :=
  if !bit v 0 then s else
  let s := setFB (setFB s F.HOST_STATUS_FWREADY true) F.HOST_STATUS_FWRESTART false
  let s := setF s F.TAKE_STATUS_FWRESTART 0
  let s := { s with fw := { s.fw with restarting := false, ready := true } }
  match s.fw.switching with
  | some (f, old) =>
    raise (logEv { s with fw := { s.fw with switching := none } } 0x0C07 [frameF f, (4, (old : Int)), (4, (fwVersion s s.fw.running : Int))]) 12 6
  | none => s

/-- No ready report within 2 s: the previous image restarts (R238). The record names the image restarted (assumption 43). -/
def fwFallback (s : State) : State :=
  if s.fw.ready ∨ s.pwr.boot ≠ .running then s else
  let p := s.fw.previous
  let s := restartFw { s with fw := { s.fw with switching := none } } p
  raise (logEv s 0x0C08 [(1, (p : Int)), (4, (fwVersion s p : Int))]) 12 7

/-- STAGE_CHECK_DONE, STAGE_CHECK_RESUME, REEL_COPY_DONE (R221 to R223). -/
def execStageCheckDone (s : State) : Host.Outcome State Fault Refusal := .next (checkDone s)
def execStageCheckResume (s : State) : Host.Outcome State Fault Refusal := .next (checkResume s)
def execReelCopyDone (s : State) : Host.Outcome State Fault Refusal := .next (copyDone s)

/-- FW_READY: the control processor writes TAKE_FWCTRL (R238). -/
def execFwReady (v : Nat) (s : State) : Host.Outcome State Fault Refusal := .next (fwReady s v)

/-- FW_FALLBACK (R238). -/
def execFwFallback (s : State) : Host.Outcome State Fault Refusal := .next (fwFallback s)

end Sys2Proof.Machine
end

