-- ==== Sys2Proof/Machine/Cut.lean ====
section
/-! DEFINITION. The cut boundary: an incoming take becomes active (R17, R49, R96, R118, R185, R186, R195, R227 to R232, R285, R368,
R433, R436, R467). -/

namespace Sys2Proof.Machine

open Sys2Proof

/-- What a resynchronisation brings to its cut (R467): K, the object table of R466 and the correction state. -/
structure RsItems where
  k : Nat
  objects : Bytes
  corr : Bytes

/-- The first bus whose set is not READY with the length code and rate the take gives it (R227). -/
def firstNotReady (s : State) (t : Take) : Option Nat :=
  (List.range (busCount s)).find? fun c =>
    let len := t.corr.len.getD c 0
    len != 0 && (match serveSlot (chanOf s c) (t.corr.setid.getD c 0) with
      | some q => match slotSet ((chanOf s c).slots.getD q .empty) with
        | some f => f.len != len || f.rate != t.sys.rate
        | none => true
      | none => true)

/-- A cut is hard (R228). -/
def cutHard (s : State) (t : Take) (asked : Bool) : Bool :=
  match s.take.active with
  | none => true
  | some a => asked || !t.sys.headroom || a.sys.rate != t.sys.rate || a.sys.depth != t.sys.depth || a.corr.len != t.corr.len ||
      imagesOverlap a t

/-- The frame number and sample index at a change of rate (R17): frames keep their positions, so what the number loses goes into
`adj`. A change of family relocks the root PLL. What waits in the queues for a frame keeps the number it names, which is then compared
with the new numbers (DESIGN CHOICE, assumption 97). -/
def cutRate (s : State) (rate : Nat) : State :=
  if rate = s.tl.rate then s else
  let s := headFlush s
  let pos := posNow s
  let f := ceilDiv (s.tl.frame * fsOf rate) (fsOf s.tl.rate)
  let relock := family44 rate != family44 s.tl.rate
  let s := { s with tl := { s.tl with
    rate := rate, frame := f, index := 16 * f, adjPrev := s.tl.adj, adjAt := pos, adj := s.tl.adj + s.tl.frame - f,
    relock := s.tl.relock || relock, relockFrames := if relock then 0 else s.tl.relockFrames } }
  if relock then clkFreeRun s else s

/-- Stores consecutive words. -/
def loadWords (s : State) (a step : Nat) (l : List Nat) : State := l.zipIdx.foldl (fun s x => setR s (a + step * x.2) x.1) s

/-- The RENDER, CORRECTION, CROSSPOINT and SAFETY sections into the registers they load (R98, R127, R205, R212 to R215). -/
def loadSections (s : State) (t : Take) : State :=
  let s := setR (setR s Reg.PATH_BUDGET t.render.budget) Reg.PATH_RESERVE t.render.reserve
  let s := setR (setR (setR s Reg.PATH_SLEW t.render.slew) Reg.PATH_LISTA t.render.lista) Reg.PATH_LISTB t.render.listb
  let s := setR64 s Reg.PATH_FARBASE_LO Reg.PATH_FARBASE_HI t.render.farbase
  let s := setR (setR64 s Reg.CONV_DRBASE_LO Reg.CONV_DRBASE_HI t.corr.drbase) Reg.CONV_XFLEN t.corr.xflen
  let s := setR (setR s Reg.CONV_ADCTRL t.safety.adctrl) Reg.CONV_ADSTEP t.safety.adstep
  let s := setR (setR s Reg.CONV_ADCEIL t.safety.adceil) Reg.CONV_ADFLOOR t.safety.adfloor
  let s := loadWords (loadWords s Reg.XPT_CEIL 4 t.safety.ceil) Reg.XPT_CEILSEL 4 t.safety.ceilsel
  setR (loadWords s Reg.XPT_MONCFG 4 t.xpt.moncfg) Reg.TAKE_CONTGRP t.cont.group

/-- The CLOCK section, or the reset values; a reference whose configuration changes is installed again, every one where the rate
changes (R367, R368), all before the selection goes by their new states. -/
def loadClock (s : State) (c : Option ClockSec) (newRate : Bool) : State :=
  let rv := fun a => (regDefault a).toNat
  let val := fun (a : Nat) (f : ClockSec → Nat) => match c with | some x => f x | none => rv a
  let prio := val Reg.CLK_PRIO (·.prio)
  let policy := val Reg.CLK_POLICY (·.policy)
  let same := getR s Reg.CLK_PRIO == prio && getR s Reg.CLK_POLICY == policy
  let fresh := fun (n : Nat) => newRate || getR s (Reg.CLK_REFCFG + 8 * n) != val (Reg.CLK_REFCFG + 8 * n) (fun x => x.refcfg.getD n 0) ||
    getR s (Reg.CLK_REFDLY + 8 * n) != val (Reg.CLK_REFDLY + 8 * n) (fun x => x.refdly.getD n 0)
  let installed := (List.range 4).filter fresh ++ (if newRate then [4, 5] else [])
  let s := setR (setR s Reg.CLK_PRIO prio) Reg.CLK_POLICY policy
  let s := setR (setR s Reg.CLK_QUAL (val Reg.CLK_QUAL (·.qual))) Reg.CLK_TOL (val Reg.CLK_TOL (·.tol))
  let s := setR s Reg.CLK_LOCKTHR (val Reg.CLK_LOCKTHR (·.lockthr))
  let s := (List.range 4).foldl (fun s n =>
    let a := Reg.CLK_REFCFG + 8 * n
    let d := Reg.CLK_REFDLY + 8 * n
    let s := setR (setR s a (val a (fun x => x.refcfg.getD n 0))) d (val d (fun x => x.refdly.getD n 0))
    setR s (Reg.CLK_OUTCFG + 4 * n) (val (Reg.CLK_OUTCFG + 4 * n) (fun x => x.outcfg.getD n 0))) s
  let s := setR s Reg.CLK_WCLKCFG (val Reg.CLK_WCLKCFG (·.wclk))
  let on := fun (s : State) (r : Nat) =>
    if r < 4 then getF s (F.CLK_REFCFG_TYPE.plus (8 * r)) != 0 else (servoOf s (r - 4)).st != .disabled
  let s := installed.foldl (fun s r => refSet s r (on s r)) s
  let s := installed.foldl afterFail s
  if same && !newRate then s else applySelection s

/-- The FABRIC section: priorities and windows 16 to 31 at every cut, slices at the first (R433, R435, R436). -/
def loadFabric (s : State) (t : Take) : State :=
  let rec_ := fun m => match t.fabric with | some ms => ms[m]? | none => none
  let slice := fun m => match rec_ m with | some r => r.slice | none => 0
  let s := (List.range 24).foldl (fun s m =>
    let base := Reg.FAB_WIN0 + 0x400 * m
    match rec_ m with
    | some r =>
      let s := r.wins.zipIdx.foldl (fun s w =>
        let a := base + 0x10 * (16 + w.2)
        setR (setR (setR (setR s a (w.1.1 % 2 ^ 32)) (a + 4) (w.1.1 / 2 ^ 32)) (a + 8) w.1.2.1) (a + 12) w.1.2.2) s
      let p := fun lo => ((List.range 8).map fun j => r.prio.getD (lo + j) 0 * 16 ^ j).sum
      setR (setR s (Reg.FAB_PRIO_LO + 0x400 * m) (p 0)) (Reg.FAB_PRIO_HI + 0x400 * m) (p 8)
    | none =>
      let s := (List.range 64).foldl (fun s w => setR s (base + 0x100 + 4 * w) (regDefault (base + 0x100 + 4 * w)).toNat) s
      [Reg.FAB_PRIO_LO, Reg.FAB_PRIO_HI].foldl (fun s a => setR s (a + 0x400 * m) (regDefault (a + 0x400 * m)).toNat) s) s
  if !s.fab.slicesSet then
    let s := (List.range 24).foldl (fun s m => setR s (Reg.FAB_SLICE + 0x400 * m) (slice m)) s
    { s with fab := { s.fab with slicesSet := true } }
  else if (List.range 24).any fun m => getR s (Reg.FAB_SLICE + 0x400 * m) != slice m then
    logEv { s with fab := { s.fab with slicesDiff := true } } 0x1103 [(4, (t.slate : Int))]
  else s

/-- Words 0 to 5 of an object entry from a take or a transfer; FAR and FARSLOT stay (R49, R50). -/
def entryWords (s : State) (o : Nat) (ws : List Nat) : List (Nat × Nat) :=
  let old := getR s (objR o 5)
  (List.range 6).map fun w => (w, if w = 5 then
    let v := ws.getD 5 0
    bits v 31 29 * 2 ^ 29 + bits old 28 28 * 2 ^ 28 + bits v 25 8 * 256 + bits old 5 0
  else ws.getD w 0)

/-- The initial object table of the incoming take (R49). -/
def loadObjects (s : State) (init : List (List Nat)) : State :=
  init.zipIdx.foldl (fun s x => if x.2 < objCount s then markChanged (objStore s x.2 (entryWords s x.2 x.1)) x.2 else s) s

/-- The merge of a resynchronisation: an entry is taken unless the unit's own carries a later applied FRAME (R466, R467). -/
def mergeObjects (s : State) (b : Bytes) : State :=
  (List.range (min (objCount s) (b.length / 32))).foldl (fun s o =>
    let e := sliceB b (32 * o) 32
    let f := beAt e 24 8
    let own := Sparse.getN s.strm.applied o
    if own > f + 1 then s else
    let s := objStore s o (entryWords s o (beWords (e.take 24)))
    { s with strm := { s.strm with applied := Sparse.putN s.strm.applied o (if f = 0 then own else f + 1) } }) s

/-- The far slots of the incoming take show in the object table (R50). -/
def farBits (s : State) (t : Take) : State :=
  let clear := fun (v : Nat) => bits v 31 29 * 2 ^ 29 + bits v 27 6 * 64
  let s := (objsWith s 5).foldl (fun s p => setR s (objR p.1 5) (clear p.2)) s
  t.render.farslot.zipIdx.foldl (fun s x =>
    if x.1 < objCount s then setR s (objR x.1 5) (clear (getR s (objR x.1 5)) + 2 ^ 28 + x.2) else s) s

/-- The geometry side of a cut (R47, R49 to R51, R67). -/
def cutGeometry (s : State) (old : Option Take) (t : Take) (rs : Option RsItems) : State :=
  let s := setF s F.GEOM_CFG_TICK t.sys.tick.log2
  let s := setR s Reg.GEOM_LAYOUT (t.geo.tris.length * 2 ^ 20 +
    ((t.geo.speakers.take 512).filter (·.present)).length * 2 ^ 10 + t.geo.csets.length)
  let s := floorCommit (kspmCommit s t.render.kspm) t.render.floor
  let s := match rs with
    | some r => mergeObjects s r.objects
    | none => loadObjects s t.geo.init
  let s := farBits { s with geo := { s.geo with tickDue := true } } t
  let same := match old with | some a => a.geo == t.geo | none => false
  if same then s else changeEnabled s

/-- The frame at which each far slot was assigned (R89). -/
def farAssign (old : Option Take) (fa : Sparse Int) (t : Take) (pos : Int) : Sparse Int :=
  t.render.farslot.zipIdx.foldl (fun m x =>
    if x.1 = 0xFFFF then m else
    let kept := match old with
      | some a => a.render.farslot.getD x.2 0xFFFF == x.1 && a.render.farbase == t.render.farbase
      | none => false
    Sparse.put (fun _ => 0) m x.2 (if kept then Sparse.get (fun _ => pos) fa x.2 else pos)) []

/-- The cluster divider stays within DIV_MAX (R159). -/
def cutDivider (s : State) (t : Take) : State :=
  let s := setF s F.KPU_CLK_DIV_MAX t.graph.divMax
  if getF s F.KPU_CLK_DIV_CUR > t.graph.divMax then setF (setF s F.KPU_CLK_DIV_CUR t.graph.divMax) F.KPU_CLK_DIV_REQ t.graph.divMax
  else s

/-- The program banks (R185): the outgoing bank ends with its last frame, the incoming one starts at the cut frame. Where the depth falls
from three frames to two, R185 calls F − 2 the last frame and R230 says that F − 1 is processed all the same and not emitted: the bank
serves F − 1 (DEDUCED, assumption 104). -/
def cutBanks (s : State) (t : Take) (hadOld hard : Bool) (pos : Int) : State :=
  let ob := s.pipe.bank
  let nb := if hadOld then 1 - ob else ob
  let s := if hadOld then
      match bankOf s ob with
      | some k => setBank s ob (some { k with hi := some (if hard then pos - 1 else pos) })
      | none => s
    else s
  setBank (clearWindow { s with pipe := { s.pipe with bank := nb } } nb) nb (some { graph := t.graph, lo := pos, hi := none })

/-- LASTAD of each channel from the correction state of a resynchronisation (R466, R467). -/
def loadLastAd (s : State) (b : Bytes) : State :=
  (List.range (min (busCount s) (b.length / 16))).foldl (fun s c =>
    let v := beAt b (16 * c + 4) 8
    if v = 0 then s else setChan s c { chanOf s c with lastAd := some v }) s

/-- The take becomes active at this boundary (R227 to R232). `named` is the frame the cut named. -/
def performCut (s : State) (t : Take) (asked : Bool) (named : Nat) (rs : Option RsItems) : State :=
  let old := s.take.active
  let hard := cutHard s t (asked || rs.isSome)
  let lab0 := s.tl.frame
  let pos := posNow s
  let first := old.isNone
  let rateNew := t.sys.rate != s.tl.rate
  let fell := match old with | some a => a.sys.depth == 3 && t.sys.depth == 2 | none => false
  let e := if fell then pos - 2 else pos - 1
  let skip := s.clk.fadeInPos.contains pos && decide ((lab0 : Int) - s.clk.splM ≠ named)
  let s := stamp s
  let s := logCommit s 0x0C01 [frameF lab0, (1, if hard then 2 else 1), (4, ((old.map (·.slate)).getD 0 : Nat)), (4, (t.slate : Int))]
  let s := if lab0 > named then logCommit s 0x0C03 [frameF named, (4, ((lab0 - named : Nat) : Int))] else s
  let overlap := match old with | some a => imagesOverlap a t | none => false
  let (oldTick, s) := if old.isSome && !hard then (let x := takeList s s.path.tick; (some x.1, x.2)) else (none, s)
  let s := match old with
    | some a => { s with
        pipe := { s.pipe with
          old := some { take := a, bank := s.pipe.bank, nodes := s.xpt.nodes, mon := s.xpt.monProc, monPrev := s.xpt.monPrev,
                        fa := s.path.fa, pos := pos, soft := !hard },
          work := s.pipe.work.map fun w => { w with prime := { w.prime with outgoing := true } } },
        path := { s.path with oldTick := oldTick } }
    | none => { s with pipe := { s.pipe with old := none } }
  let s := cutBanks s t old.isSome hard pos
  let s := cutRate s t.sys.rate
  let lab := s.tl.frame
  let s := { s with
    tl := { s.tl with depth := t.sys.depth },
    path := { s.path with fa := farAssign old s.path.fa t pos },
    xpt := { s.xpt with nodes := presetNodes t.xpt.nodes pos, monProc := t.xpt.moncfg },
    pipe := { s.pipe with imgCores := if overlap then List.range (coresPresent s) else [],
                          cuts := ({ pos := pos, e := e, hard := hard, ramp := old.isSome && !skip,
                                     up := if s.tl.relock then none else some pos } :: s.pipe.cuts).take 3 },
    clk := { s.clk with fadeOutPos := s.clk.fadeOutPos.map fun p => if p = pos - 1 then e else p } }
  let s := cutDivider (loadSections s t) t
  let s := loadFabric (loadClock s t.clock rateNew) t
  let s := { s with take := { s.take with
    active := some t, stage := .empty, named := none, bytes := [], staged := none, cut := none, prevCut := s.take.lastCut,
    lastCut := some (lab0, t.digest), lastNew := lab, cutKind := if hard then 2 else 1 }, pair := { s.pair with cutUntold := true } }
  let s := cutGeometry s old t rs
  let s := convCut s { len := t.corr.len, setid := t.corr.setid, xflen := t.corr.xflen, hard := hard, first := first,
                       rateChange := rateNew && !first, pos := pos, label := lab,
                       drold := old.map (·.corr.drbase) }
  let s := match rs with
    | some r => loadLastAd { s with conv := { s.conv with kOld := s.conv.kOff, kSince := pos, kOff := (r.k : Int) - pos } } r.corr
    | none => s
  let s := lioCut (strmCut s t.streams pos lab (rateNew && !first)) t.localio pos rateNew
  let s := addCtr s Reg.TAKE_CUTS 1
  let s := if hard then addCtr s Reg.TAKE_HARDCUTS 1 else s
  raise s 12 0

/-- The scheduled cut, at order 2 of the boundary (R30, R31, R227). -/
def cutDue (s : State) : State :=
  match s.take.stage, s.take.cut, s.take.staged with
  | .scheduled, some (f, asked), some t =>
    if s.tl.frame < f then s else
    match firstNotReady s t with
    | some c =>
      let s := logEv (addCtr s Reg.TAKE_CUTABORT 1) 0x0C02 [frameF f, (2, (c : Int))]
      raise (stageFail (setTake s { s.take with cut := none }) .setNotReady 5 t.slate) 12 3
    | none => performCut s t asked f none
  | _, _, _ => s

/-- Tasks with the tasks their tokens lead to, over at most n arcs (R169). -/
def downstream (g : GraphSec) : Nat → List Nat → List Nat
  | 0, ts => ts
  | n + 1, ts =>
    match ((g.arcs.filter fun a => ts.contains a.src && a.dst < 0xE000 && !ts.contains a.dst).map (·.dst)).eraseDups with
    | [] => ts
    | more => downstream g n (ts ++ more)

/-- The outgoing take may still run an instance on core k: one runs there, or a task whose kernel the core holds has an instance
to come (R175, R185, R186). -/
def coreAwaited (s : State) (b k : Nat) : Bool :=
  match bankOf s b with
  | some { graph := g, hi := some e, .. } =>
    let uses := fun (t : Nat) => decide (k < g.ncores) &&
      bit (g.kernels.getD (g.tasks.getD t noTask).kernel { entry := 0, len := 0, coreMask := 0, img := 0 }).coreMask k
    let past := match s.disp.cutoff with | some c => decide (e ≤ c) | none => false
    let mine := s.disp.insts.filter (·.bank == b)
    let dsts := fun (idx : Nat) => (g.arcs[idx]?.map (·.dst)).getD 0xE000
    let queued := s.disp.tokens.filterMap fun t => match t with
      | .arc bk idx _ => if bk = b then some (dsts idx) else none
      | _ => none
    let next := (mine.filter (·.st == .running)).flatMap fun i =>
      (g.arcs.filter fun a => a.src == i.task).map (·.dst)
    let coming := ((mine.filter undispatched).map (·.task) ++ queued ++ next).filter (· < g.tasks.length)
    (mine.any fun i => i.core == k && (i.st == .running || i.st == .late)) ||
    (if past then (downstream g g.tasks.length coming).any uses else (List.range g.tasks.length).any uses)
  | _ => false

/-- Images of an overlapping take load on each core once the last instance of the outgoing take has retired there (R186). -/
def cutImages (s : State) : State :=
  match s.take.active, s.pipe.imgCores with
  | some t, k :: ks =>
    let free := (k :: ks).filter fun k => !coreAwaited s (1 - s.pipe.bank) k
    let s := free.foldl (fun s k => loadImages s t k) s
    { s with pipe := { s.pipe with imgCores := s.pipe.imgCores.filter fun k => !free.contains k } }
  | _, _ => s

/-- DISPATCHER_CYCLE (R175): images due for a core that has retired its last outgoing instance are loaded before the cycle can
dispatch to it (R186). -/
def execDispatcherCycle (s : State) : Host.Outcome State Fault Refusal := .next (dispatcherCycle (cutImages s))

/-- One frame of a relock has begun; it ends at the latest after six frames at single and twelve at double rate (R17). -/
def relockFrame (s : State) : State :=
  if !s.tl.relock then s else
  let n := s.tl.relockFrames + 1
  if n ≥ (if doubleRate s.tl.rate then 12 else 6) then { s with tl := { s.tl with relock := false, relockDone := true } }
  else { s with tl := { s.tl with relockFrames := n } }

/-- At the first boundary after the relock the outputs ramp up (R17). -/
def relockRamp (s : State) : State :=
  if !s.tl.relockDone then s else
  let p := posNow s
  let s := { s with tl := { s.tl with relockDone := false },
                    pipe := { s.pipe with cuts := s.pipe.cuts.map fun (c : CutRec) => if c.up.isNone then { c with up := some p } else c } }
  applySelection s

/-- The TAKE registers at a boundary (R240 to R242). -/
def publishTake (s : State) : State :=
  let act := activeSlate s
  let stg := stagedSlate s
  let mm := s.take.peers.any fun p => p.2.mmActive || p.2.mmNext
  let s := setR s Reg.TAKE_STATUS (s.take.peers.length * 2 ^ 16 + b2n s.fw.restarting * 2 ^ 10 + b2n (s.fw.running == 1) * 2 ^ 9 +
    b2n mm * 2 ^ 8 + s.take.cutKind * 2 ^ 5 + stageCode s.take.stage * 2 + b2n s.take.active.isSome)
  let s := loadWords (setR s Reg.TAKE_ACTSLATE act.1) Reg.TAKE_ACTDIG 4 (beWords act.2)
  let s := loadWords (setR s Reg.TAKE_STGSLATE stg.1) Reg.TAKE_STGDIG 4 (beWords stg.2)
  let s := setR64 s Reg.TAKE_NEXTCUT_LO Reg.TAKE_NEXTCUT_HI (match s.take.cut with | some c => c.1 | none => 0)
  let s := setR64 s Reg.TAKE_LASTCUT_LO Reg.TAKE_LASTCUT_HI (match s.take.lastCut with | some c => c.1 | none => 0)
  setR64 s Reg.TAKE_REELMAP_LO Reg.TAKE_REELMAP_HI ((List.range 64).map fun k => b2n (slotOf s k).full * 2 ^ k).sum

/-- ROOT_PLL_RELOCK_DONE (R17): the relock ends; the outputs ramp up from the next boundary. -/
def execRootPllRelockDone (s : State) : Host.Outcome State Fault Refusal :=
  .next (if s.tl.relock then { s with tl := { s.tl with relock := false, relockDone := true } } else s)

end Sys2Proof.Machine
end

