-- ==== Sys2Proof/Machine/Beacon.lean ====
section
/-! DEFINITION. Continuity beacons and the peer table (R233 to R236, R242). -/

namespace Sys2Proof.Machine

open Sys2Proof

/-- The state committed at the most recent boundary, as a register shows it. -/
def viewBytes (s : State) (a n : Nat) : Bytes := (List.range n).flatMap fun i => beBytes 4 (getView s (a + 4 * i))

/-- A frame number of a LO/HI pair at the most recent boundary. -/
def viewFrame (s : State) (lo hi : Nat) : Nat := getView s lo + 2 ^ 32 * getView s hi

/-- The beacon (R233, R234): BSEQ counts it too. -/
def beaconBytes (s : State) (bseq : Nat) : Bytes :=
  let st := getView s Reg.TAKE_STATUS
  let stage := bits st 3 1
  let sched := stage == 5
  let role := bits (getView s Reg.PAIR_STATUS) 2 0
  let stg := viewBytes s Reg.TAKE_STGDIG 4
  let body := [0x43, 0x42, 0x01] ++ beBytes 1 (b2n (stage == 3 || sched) + 2 * b2n sched + 4 * role) ++
    beBytes 4 (getView s Reg.TAKE_CONTGRP) ++ beBytes 8 s.hw.devid ++ beBytes 4 bseq ++ beBytes 8 s.tl.frame ++
    beBytes 4 (getView s Reg.TAKE_ACTSLATE) ++ viewBytes s Reg.TAKE_ACTDIG 4 ++ beBytes 8 (viewFrame s Reg.TAKE_LASTCUT_LO Reg.TAKE_LASTCUT_HI) ++
    beBytes 4 (getView s Reg.TAKE_STGSLATE) ++ stg ++ beBytes 8 (viewFrame s Reg.TAKE_NEXTCUT_LO Reg.TAKE_NEXTCUT_HI) ++
    (if sched then stg else zeroBytes 16) ++ beBytes 4 (fwVersion s s.fw.running) ++ zeroBytes 4
  body ++ beBytes 4 (crc32c body)

/-- BEACON_SEND (R233): the 100 ms interval of the beacon engine ends. -/
def beaconSend (s : State) : State :=
  match s.take.active with
  | none => s
  | some t =>
    if t.cont.group = 0 ∨ getF s F.TAKE_BCNCTRL_ENABLE = 0 then s else
    let n := (s.take.bseq + 1) % 2 ^ 32
    let s := setTake s { s.take with bseq := n }
    let b := beaconBytes s n
    [0, 1].foldl (fun s p =>
      if bit t.cont.ports p then
        let (u, s) := freeUdp s t.cont.mcast t.cont.udpport
        sendUdp s p none { u with ttl := t.cont.ttl } b .plain enqueue3
      else s) s

/-- The group of the device (R236). -/
def ownGroup (s : State) : Nat := (s.take.active.map (·.cont.group)).getD 0

/-- The digest the device had at frame f (R236). -/
def digestAt (s : State) (f : Nat) : Option Bytes :=
  match s.take.lastCut with
  | none => none
  | some (l, d) =>
    if f ≥ l then some d else
    match s.take.prevCut with
    | some (p, q) => if p ≤ f then some q else none
    | none => none

/-- A beacon is well formed (R235). -/
def beaconOk (b : Bytes) : Bool :=
  b.length == 112 && beAt b 0 2 == 0x4342 && beAt b 2 1 == 1 && crc32c (b.take 108) == beAt b 108 4

/-- The comparison of R236: ACTIVE and NEXTCUT mismatch, or none where no comparison is made. -/
def compareBeacon (s : State) (b : Bytes) : Option (Bool × Bool) :=
  if beAt b 4 4 = 0 ∨ beAt b 4 4 ≠ ownGroup s then none else
  (digestAt s (beAt b 20 8)).map fun d =>
    let own := match s.take.stage, s.take.cut with
      | .scheduled, some c => some (c.1, (stagedSlate s).2)
      | _, _ => none
    (sliceB b 32 16 != d, match own with
      | some o => bit (beAt b 3 1) 1 && (beAt b 76 8 != o.1 || sliceB b 84 16 != o.2)
      | none => false)

/-- The lowest free entry of the peer table; none where the table is full (R235). -/
def freePeer (s : State) : Option Nat := (List.range 256).find? fun n => !s.take.peers.any (·.1 == n)

/-- Stores a peer at an entry. -/
def putPeer (s : State) (n : Nat) (p : Peer) : State :=
  let l := s.take.peers.filter (·.1 != n)
  setTake s { s.take with peers := (l.filter (·.1 < n)) ++ (n, p) :: l.filter (n < ·.1) }

/-- A beacon taken: the table, then the comparison (R235, R236). Its DEVID and BSEQ are remembered until the entry of the device
expires (DEDUCED, assumption 84). -/
def beaconTake (s : State) (b : Bytes) : State :=
  let dev := beAt b 8 8
  let f := beAt b 3 1
  let s := setTake s { s.take with seen := (dev, beAt b 16 4) :: s.take.seen }
  let found := s.take.peers.find? (·.2.devid == dev)
  match (match found with | some x => some x.1 | none => freePeer s) with
  | none => addCtr s Reg.TAKE_PEERFULL 1
  | some n =>
    let was := match found with | some x => (x.2.mmActive, x.2.mmNext) | none => (false, false)
    let cmp := compareBeacon s b
    let mm := cmp.getD was
    let s := putPeer s n
      { devid := dev, group := beAt b 4 4, role := bits f 4 2, staged := bit f 0, cutsched := bit f 1, aslate := beAt b 28 4,
        adigest := sliceB b 32 16, sslate := beAt b 56 4, nextcut := beAt b 76 8, bseq := beAt b 16 4, mmActive := mm.1,
        mmNext := mm.2, age := 0 }
    if cmp.isSome && (mm.1 || mm.2) && !(was.1 || was.2) then
      raise (logEv (addCtr s Reg.TAKE_MISMATCH 1) 0x0C05 [(8, (dev : Int)), (1, ((b2n mm.1 + 2 * b2n mm.2 : Nat) : Int)),
        frameF (beAt b 20 8), (4, ((activeSlate s).1 : Int)), (4, (beAt b 28 4 : Int))]) 12 4
    else s

/-- BEACON_RECEIVE: a datagram to the beacon port (R235). -/
def beaconReceive (s : State) (b : Bytes) : State :=
  if !beaconOk b then addCtr s Reg.TAKE_BCNBAD 1
  else if beAt b 8 8 = s.hw.devid ∨ s.take.seen.contains (beAt b 8 8, beAt b 16 4) then s
  else beaconTake s b

/-- PEER_EXPIRE: 1,000 ms have passed since the last beacon of the peer of entry n (R235). -/
def peerExpire (s : State) (n : Nat) : State :=
  match s.take.peers.find? (·.1 == n) with
  | none => s
  | some x =>
    let s := setTake s { s.take with
      peers := s.take.peers.filter (·.1 != n),
      seen := s.take.seen.filter (·.1 != x.2.devid) }
    if x.2.group ≠ 0 ∧ x.2.group = ownGroup s then raise (logEv s 0x0C06 [(8, (x.2.devid : Int))]) 12 5 else s

/-- One frame passes for the ages of the peers. -/
def agePeers (s : State) (units : Nat) : State :=
  setTake s { s.take with peers := s.take.peers.map fun p => (p.1, { p.2 with age := p.2.age + units }) }

/-- The peer table window at a boundary (R242). -/
def publishPeers (s : State) : State :=
  let g := ownGroup s
  let rows := (List.range 256).flatMap fun n => match s.take.peers.find? (·.1 == n) with
  | none => []
  | some x =>
    let p := x.2
    let w0 := 2 ^ 31 + b2n (p.group == g) * 2 ^ 30 + b2n p.mmNext * 2 ^ 29 + b2n p.mmActive * 2 ^ 28 + p.role % 8 * 2 ^ 25 +
      b2n p.staged * 2 ^ 24 + b2n p.cutsched * 2 ^ 23 + min (p.age / 56448000000) 0xFFFF
    [w0, p.devid % 2 ^ 32, p.devid / 2 ^ 32, p.aslate, beVal (p.adigest.take 4), p.sslate, p.nextcut % 2 ^ 32, p.bseq].zipIdx.map
      fun w => (Reg.TAKE_PEER0 + 32 * n + 4 * w.2, BitVec.ofNat 32 w.1)
  { s with regs := Sparse.replaceRange regDefault s.regs Reg.TAKE_PEER0 (Reg.TAKE_PEER0 + 8192) rows }

/-- BEACON_SEND, BEACON_RECEIVE, PEER_EXPIRE. -/
def execBeaconSend (s : State) : Host.Outcome State Fault Refusal := .next (beaconSend s)
def execBeaconReceive (b : List (BitVec 8)) (s : State) : Host.Outcome State Fault Refusal :=
  .next (whilePowered s fun s => beaconReceive s b)
def execPeerExpire (n : Nat) (s : State) : Host.Outcome State Fault Refusal := .next (peerExpire s n)

end Sys2Proof.Machine
end

