-- ==== Sys2Proof/Machine/Time.lean ====
section
/-! DEFINITION. Network time: offsets, the servos, steps and sets of the local time, the Pdelay responder, the launch queue and
the transmit timestamp queue (R322 to R344). -/

namespace Sys2Proof.Machine

open Sys2Proof

/-- A servo's state with what it means for its virtual reference: LOST, DISABLED or WAIT stops it (R355), LOCKED is the lock
condition of a steering PTP reference (R333, R360). -/
def servoTo (s : State) (p : Nat) (st : ServoState) : State :=
  let s := servoState s p st
  match st with
  | .lost | .disabled | .wait => refFail s (4 + p) 1
  | .locked => if s.clk.sel = 4 + p then dpllLock s else s
  | .acquire => if s.clk.sel = 4 + p then dpllLockLoss s else s
  | .measure => s

/-- The servo enables of TIME_CTRL and the port mode take effect: port B is DISABLED in chain mode (R333). -/
def applyServoEn (s : State) : State :=
  let one := fun (s : State) (p : Nat) =>
    let on := bit (getR s Reg.TIME_CTRL) p && !(p == 1 && chainMode s)
    let v := servoOf s p
    if on && v.st == .disabled then refInstall (servoTo s p .wait) (4 + p) true
    else if !on && v.st != .disabled then refInstall (servoTo s p .disabled) (4 + p) false
    else s
  one (one s 0) 1

/-- The servo computation for an accepted offset (R331). -/
def servoFilter (s : State) (p : Nat) (o : Int) : State :=
  let v := servoOf s p
  let pr := rhu 18 (o * (getR s (Reg.TIME_KP + 128 * p) : Nat))
  let i := servoClamp s p (v.i + rhu 18 (o * (getR s (Reg.TIME_KI + 128 * p) : Nat)))
  noteRequest (setServo s p { v with pt := pr, i := i, y := servoClamp s p (pr + i) })

/-- An accepted offset (R331 to R334). -/
def acceptOffset (s : State) (p : Nat) (o t2 : Int) : State :=
  let s := addCtr s (Reg.TIME_SYNCOK + 0x20 * p) 1
  let x := unsigned 64 (satS 64 o)
  let s := setR64 s (Reg.TIME_OFFSET_LO + 128 * p) (Reg.TIME_OFFSET_HI + 128 * p) x
  let s := setServo s p { servoOf s p with oPrev := some o, outRun := 0 }
  let v := servoOf s p
  let s := match v.st with
    | .wait | .lost => servoTo s p (if v.steer then .acquire else .measure)
    | _ => s
  let v := servoOf s p
  match v.st with
  | .measure =>
    setServo s p { v with sec := match v.sec with
      | some (o1, t1, _, _) => some (o1, t1, o, t2)
      | none => some (o, t2, o, t2) }
  | .acquire =>
    let s := servoFilter s p o
    let thr := 4 * getF s (F.TIME_LOCKTHR_NS.plus (128 * p))
    let run := if o.natAbs ≤ thr then v.okRun + 1 else 0
    let s := setServo s p { servoOf s p with okRun := run }
    if run ≥ 8 then servoTo s p .locked else s
  | .locked => servoFilter s p o
  | _ => s

/-- An offset from the master (R332). -/
def handleOffset (s : State) (p : Nat) (o t2 : Int) : State :=
  let v := servoOf s p
  if s.tl.relock || s.time.stepPend.isSome || v.st == .disabled then s else
  let stepThr := 4 * getF s (F.TIME_STEPTHR_NS.plus (128 * p))
  let outLim := 4 * getF s (F.TIME_OUTLIM_NS.plus (128 * p))
  let outMax := getF s (F.TIME_SVCFG_OUTMAX.plus (128 * p))
  if v.st = .acquire ∧ v.steer ∧ getF s F.TIME_CTRL_STEPEN = 1 ∧ o.natAbs > stepThr then
    enterJump { s with time := { s.time with stepPend := some (-o) } }
  else
    let far := match v.oPrev with
      | some q => decide ((o - q).natAbs > outLim)
      | none => false
    if v.st == .locked && far then
      if v.outRun < outMax then
        let s := addCtr s (Reg.TIME_OUTLIER + 0x20 * p) 1
        let s := if v.outRun = 0 then raise s 2 3 else s
        let s := if v.outRun = 0 then logEv s 0x0202 [(1, (p : Int)), (8, o)] else s
        setServo s p { servoOf s p with outRun := v.outRun + 1 }
      else acceptOffset (servoTo s p .acquire) p o t2
    else if v.st = .locked ∧ v.outRun ≥ outMax then acceptOffset (servoTo s p .acquire) p o t2
    else acceptOffset s p o t2

/-- The offset of R330 in quarter ns: o = t2 − t1 − RHU(c / 2^14) − MPD. -/
def offsetOf (s : State) (p : Nat) (t2 t1 c : Int) : Int :=
  t2 - t1 - rhu 14 c - signed 32 (getR s (Reg.TIME_MPD + 128 * p))

/-- The 80-bit port identity held at a register triple of R347. -/
def portIdAt (s : State) (a : Nat) : Nat := getR s a * 2 ^ 48 + getR s (a + 4) * 2 ^ 16 + getR s (a + 8) % 2 ^ 16

/-- Whether the servo of port p captures the message (R319, R328). -/
def captures (s : State) (p : Nat) (m : PtpMsg) : Bool :=
  (servoOf s p).st != .disabled && m.version == 2 && decide (m.minor ≤ 1) &&
  m.domain == getF s (F.TIME_SVCFG_DOMAIN.plus (128 * p)) && m.portId == portIdAt s (Reg.TIME_PMASTER0 + 128 * p)

/-- A Sync on port p (R328 to R330); in chain mode both ports feed servo A (R321). -/
def ptpSync (s : State) (p : Nat) (m : PtpMsg) : State :=
  let p := addrPort s p
  if !captures s p m then s else
  let v := servoOf s p
  let s := if v.held.isSome then addCtr s (Reg.TIME_FUMISS + 0x20 * p) 1 else s
  if m.twoStep then setServo s p { v with held := some (m.seq, (m.stamp : Int), m.corr) }
  else handleOffset (setServo s p { v with held := none }) p (offsetOf s p m.stamp m.origin m.corr) m.stamp

/-- A Follow_Up on port p (R329). -/
def followUp (s : State) (p : Nat) (m : PtpMsg) : State :=
  let p := addrPort s p
  if !captures s p m then s else
  let v := servoOf s p
  match v.held with
  | some (q, t2, c) =>
    if q = m.seq then handleOffset (setServo s p { v with held := none }) p (offsetOf s p t2 m.origin (c + m.corr)) t2
    else addCtr s (Reg.TIME_FUMISS + 0x20 * p) 1
  | none => addCtr s (Reg.TIME_FUMISS + 0x20 * p) 1

/-- No accepted offset for TIMEOUT ms: LOST, with y frozen at I (R333). -/
def servoTimeout (s : State) (p : Nat) : State :=
  let v := servoOf s p
  if v.st = .measure ∨ v.st = .acquire ∨ v.st = .locked then servoTo (noteRequest (setServo s p { v with y := v.i })) p .lost else s

/-- The end of a second in MEASURE with at least two accepted offsets reports FDIFF (R334). -/
def fdiffReport (s : State) (p : Nat) : State :=
  let v := servoOf s p
  if v.st != .measure then s else
  match v.sec with
  | some (o1, t1, o2, t2) =>
    let s := setServo s p { v with sec := none }
    if t2 ≤ t1 then s else
    let f := divRhu ((o2 - o1) * 256000000000) (4 * (t2 - t1)).toNat
    setR (setServo s p { servoOf s p with fdiff := f }) (Reg.TIME_FDIFF + 128 * p) (unsigned 32 (satS 32 f))
  | none => s

/-- The frame that ends at a splice boundary lasts one frame duration plus ρ (R363): the local time runs on for ρ. -/
def rephase (s : State) : State :=
  if spliceReady s then
    let n := spliceCycles s.tl.rate (splicePtp s) s.clk.delta
    { s with time := { s.time with now := ((s.time.now : Int) + n * ((cycleUnits s.tl.rate : Nat) : Int)).toNat } }
  else s

/-- A set or step at this boundary gives the step Δ of the splice (R323, R362): PTPA or PTPB is selected, or a switch to one of them is to
be spliced at this very boundary, whose Δ is the error at it (R363; DEDUCED, assumption 26). -/
def jumpSplices (s : State) : Bool :=
  (ptpSelected s && (s.clk.st == .acquiring || s.clk.st == .locked)) ||
  (s.clk.st == .splicePending && (s.clk.jump || splicePtp s))

/-- The local time takes a new value at a boundary, in units of 1/56,448 ns: logged and counted, with a splice at this boundary
when PTPA or PTPB is selected (R323, R362). -/
def jumpTime (s : State) (units : Nat) (kind : Nat) : State :=
  let step : Int := ((quarterNs units / 4 : Nat) : Int) - ((quarterNs s.time.now / 4 : Nat) : Int)
  let s := { s with time := { s.time with now := units, valid := true, setPend := none, stepPend := none } }
  let s := if jumpSplices s then
      let tgt := if s.clk.st = .splicePending then s.clk.target else s.clk.sel
      rephase (clkState { s with clk := { s.clk with target := tgt, delta := ptpDelta s, jump := false } } .splicePending)
    else s
  raise (addCtr (logEv s 0x0201 [(8, step), (1, (kind : Int)), frameF (dueFrame s)]) Reg.TIME_STEPS 1) 2 2

/-- The servo state LOCKED is the lock condition of a selected PTP reference (R360): one that is still LOCKED after a splice locks at the
next boundary. -/
def ptpLock (s : State) : State :=
  if ptpSelected s && (servoOf s (s.clk.sel - 4)).st == .locked then dpllLock s else s

/-- The local time at a boundary: it advances by the frame (R322), then a set wins over a step (R323). -/
def timeBoundary (s : State) : State :=
  let s := ptpLock { s with time := { s.time with now := s.time.now + frameUnits s.tl.rate } }
  let jump := s.time.setPend.isSome || s.time.stepPend.isSome
  let s := if jump && jumpSplices s then s else rephase s
  match s.time.setPend, s.time.stepPend with
  | some q, _ => jumpTime s (q * 14112) 0
  | none, some d => jumpTime s (((s.time.now : Int) + d * 14112).toNat) 1
  | none, none => s

/-- The TIME registers at a boundary (R346, R347). -/
def publishTime (s : State) : State :=
  let a := s.time.sa
  let b := s.time.sb
  let s := setR s Reg.TIME_STATUS (b2n (s.time.setPend.isSome || s.time.stepPend.isSome) * 2 ^ 9 + b2n b.steer * 2 ^ 8 +
    b2n a.steer * 2 ^ 7 + servoCode b.st * 16 + servoCode a.st)
  let q := quarterNs s.time.now
  let s := setR s Reg.TIME_NOW_NS (q % 4000000000)
  let s := setR s Reg.TIME_NOW_SLO (q / 4000000000 % 2 ^ 32)
  let s := setR s Reg.TIME_NOW_SHI (q / 4000000000 / 2 ^ 32 % 2 ^ 16)
  let s := setR s Reg.TIME_TLOFS (unsigned 32 (timelineOffset s))
  let s := setR (setR s Reg.TIME_INTEG (unsigned 32 a.i)) Reg.TIME_FREQ (unsigned 32 a.y)
  setR (setR s (Reg.TIME_INTEG + 128) (unsigned 32 b.i)) (Reg.TIME_FREQ + 128) (unsigned 32 b.y)

/-- A one-step Pdelay_Resp (R339). The PTP header layout is that of IEEE 1588 (assumption 12). -/
def pdelayRespBytes (domain corr ownId seq reqId : Nat) : Bytes :=
  [0x03, 0x02] ++ beBytes 2 54 ++ beBytes 1 domain ++ zeroBytes 3 ++ beBytes 8 corr ++ zeroBytes 4 ++ beBytes 10 ownId ++
  beBytes 2 seq ++ [0x05, 0x7F] ++ zeroBytes 10 ++ beBytes 10 reqId

/-- The IPv4 and UDP fields of a response over UDP: the group and the port of IEEE 1588 (assumption 12); the fields the spec leaves
open are free values (assumption 4). -/
def pdelayUdp (s : State) : UdpSpec × State :=
  let (tos, s) := freeBits 8 s
  let (ident, s) := freeBits 16 s
  let (df, s) := freeBits 1 s
  let (ttl, s) := freeBits 8 s
  let (cs, s) := freeBits 1 s
  ({ dstIp := 0xE000006B, sport := 319, dport := 319, tos := tos, ident := ident, frag := df * 0x4000, ttl := ttl, csum := cs == 1 }, s)

/-- A Pdelay_Req on port p: answered through Q0, or skipped while a response is queued (R339). -/
def pdelayReq (s : State) (p : Nat) (m : PdelayReq) : State :=
  if m.version != 2 || decide (m.minor ≥ 2) || !bit (getF s F.TIME_CTRL_PDRESP) p || m.domain != getF s (F.TIME_SVCFG_DOMAIN.plus (128 * p)) || !maySend s p
  then s else
  let queued := (portOf s p).q0.any fun f => match f.kind with | .pdelayResp .. => true | _ => false
  let skip := addCtr s Reg.TIME_PDSKIP 1
  if queued then skip else
  let body := pdelayRespBytes m.domain m.corr (portIdAt s (Reg.TIME_OWNID0 + 128 * p)) m.seq m.portId
  let x := if m.overUdp then pdelayUdp s else (UdpSpec.mk 0 0 0 0 0 0 0 false, s)
  let s := x.2
  let fr : Bytes × Nat :=
    if m.overUdp then (udpFrame (macOf s p) (multicastMac 0xE000006B) (ipOf s p) x.1 body, 42)
    else
      let f := beBytes 6 0x0180C200000E ++ beBytes 6 (macOf s p) ++ [0x88, 0xF7] ++ body
      (f ++ zeroBytes (60 - f.length), 14)
  match enqueue0 s p { bytes := fr.1, at_ := m.stamp, kind := .pdelayResp fr.2 m.corr m.stamp } with
  | (true, s) => s
  | (false, s) => addCtr s Reg.TIME_PDSKIP 1

/-- Launch entries of a port (R340). -/
def launchCount (v : PortSt) : Nat := (v.q0.filter fun f => match f.kind with | .launch .. => true | _ => false).length

/-- LTIME in quarter ns: the seconds bits [47:32] are those that place it nearest the local time t (R340). -/
def ltimeOf (m : LaunchReq) (t : Nat) : Nat :=
  let sec := t / 4000000000
  let hi := sec / 2 ^ 32
  let dist := fun (x : Nat) => ((x : Int) - sec).natAbs
  let c := fun (h : Nat) => h * 2 ^ 32 + m.lsec % 2 ^ 32
  let best := if hi > 0 ∧ dist (c (hi - 1)) < dist (c hi) then c (hi - 1)
    else if dist (c (hi + 1)) < dist (c hi) then c (hi + 1) else c hi
  4 * (best * 1000000000 + m.lns)

/-- The launch queue of a port takes no further entry of n bytes: 64 entries, or too little space in Q0 (R340). -/
def launchFull (s : State) (p n : Nat) : Bool :=
  decide (launchCount (portOf s p) ≥ 64) || decide (queueBytes (portOf s p).q0 + n > 8192)

/-- An accepted launch entry on port p at local time t: with the link down it completes LINKDOWN (R308), past LATEWIN it completes
LATE (R342), else it waits in Q0. -/
def launchEntry (s : State) (p : Nat) (m : LaunchReq) (t : Nat) : State :=
  let lt := ltimeOf m t
  let f : TxFrame := { bytes := m.frame, at_ := t, kind := .launch m.tag m.timed lt m.stamp m.onestep m.ptpofs m.latewin }
  if !(portOf s p).link then txLoss (complete s p m.tag .linkDown false) p Reg.NET_TXDROP
  else if m.timed && m.latewin && decide (lt + lateWin s < t) then completeLate s p f
  else (enqueue0 s p f).2

/-- A launch request at local time t (R340, R342): in chain mode an own frame leaves on both ports (R298, R321), an entry on each,
refused where either is full. -/
def launchPlace (s : State) (p : Nat) (m : LaunchReq) (t : Nat) : State :=
  let ps := txPorts s p
  let full := ps.any fun q => launchFull s q m.frame.length
  let s := { s with time := { s.time with launchFull := full } }
  if full then s else ps.foldl (fun s q => launchEntry s q m t) s

/-- LAUNCH_REQUEST: what firmware hands a port at local time t (R303, R305, R340). That this row also carries the frames firmware
takes from the control processor queue and those it sends through Q3 is DESIGN CHOICE (assumption 61). -/
def launchRequest (s : State) (p : Nat) (m : LaunchReq) (t : Nat) : State :=
  let s := setPort s p { portOf s p with cpq := (portOf s p).cpq.drop m.taken }
  if m.viaQ3 then (txPorts s p).foldl (fun s q => enqueue3 s q { bytes := m.frame, at_ := t, kind := .plain }) s
  else launchPlace s p m t

/-- The words of a timestamp (R327). -/
def stampWords (q : Nat) : List Nat := [q % 4000000000, q / 4000000000 % 2 ^ 32, q / 4000000000 / 2 ^ 32 % 2 ^ 16]

/-- A read of TIME_TSQp_W0: the oldest entry is removed, its words are latched (R344, R348). -/
def tsqRead (s : State) (p : Nat) : State :=
  let v := portOf s p
  let put := fun (s : State) (a x : Nat) =>
    let s := setR s (a + 0x40 * p) x
    { s with view := Sparse.put regDefault s.view (a + 0x40 * p) (BitVec.ofNat 32 x) }
  match v.tsq with
  | (tag, q) :: rest =>
    let w := stampWords q
    let s := put (put (put (setPort s p { v with tsq := rest }) Reg.TIME_TSQ_W1 (w.getD 0 0)) Reg.TIME_TSQ_W2 (w.getD 1 0))
      Reg.TIME_TSQ_W3 (w.getD 2 0)
    { s with rdata := beBytes 4 (2 ^ 31 + p * 2 ^ 30 + tag % 2 ^ 16) }
  | [] => { s with rdata := beBytes 4 0 }

end Sys2Proof.Machine
end

