-- ==== Sys2Proof/Machine/ClkEv.lean ====
section
/-! DEFINITION. The commands of the clock system, of network time and of the transmit side of the ports that are events of
their own: marks, faults and timers of the references and the DPLL, Syncs and the servos, pauses and launch entries (R305 to
R364). -/

namespace Sys2Proof.Machine

open Sys2Proof

/-- PTP_SYNC_RECEIVE (R328 to R330). -/
def execPtpSyncReceive (p : Nat) (m : PtpMsg) (s : State) : Host.Outcome State Fault Refusal := .next (whilePowered s fun s => ptpSync s p m)

/-- FOLLOW_UP_RECEIVE (R329). -/
def execFollowUpReceive (p : Nat) (m : PtpMsg) (s : State) : Host.Outcome State Fault Refusal := .next (whilePowered s fun s => followUp s p m)

/-- SERVO_TIMEOUT (R333). -/
def execServoTimeout (p : Nat) (s : State) : Host.Outcome State Fault Refusal := .next (servoTimeout s p)

/-- FDIFF_REPORT (R334). -/
def execFdiffReport (p : Nat) (s : State) : Host.Outcome State Fault Refusal := .next (fdiffReport s p)

/-- PDELAY_REQ_RECEIVE (R339). -/
def execPdelayReqReceive (p : Nat) (m : PdelayReq) (s : State) : Host.Outcome State Fault Refusal := .next (whilePowered s fun s => pdelayReq s p m)

/-- LAUNCH_REQUEST (R340, R342) at local time t. -/
def execLaunchRequest (p : Nat) (m : LaunchReq) (t : Nat) (s : State) : Host.Outcome State Fault Refusal :=
  .next (whilePowered s fun s => launchRequest s p m t)

/-- The MAC takes its next frame at local time t, unless a frame is on the wire (R305). -/
def idleTake (s : State) (p t : Nat) : State := if (portOf s p).wire.isSome then expireLate s p t else takeNext s p t

/-- LAUNCH_DUE (R341): at local time t a timed entry may start, or completes LATE (R342). -/
def execLaunchDue (p t : Nat) (s : State) : Host.Outcome State Fault Refusal := .next (whilePowered s fun s => idleTake s p t)

/-- LAUNCH_LATEWIN_EXPIRE (R342). -/
def execLaunchLatewinExpire (p t : Nat) (s : State) : Host.Outcome State Fault Refusal := .next (whilePowered s fun s => expireLate s p t)

/-- TSQ_READ (R344): a direct read of TIME_TSQp_W0. -/
def execTsqRead (p : Nat) (s : State) : Host.Outcome State Fault Refusal := .next (tsqRead s p)

/-- TIME_SET (R323): a write of TIME_CTRL, which commits at the next boundary; with SET the counter then takes TIME_SET. -/
def execTimeSet (v : Nat) (s : State) : Host.Outcome State Fault Refusal := .next (queueWrite s Reg.TIME_CTRL v)

/-- MEASUREMENT_WINDOW (R354): presence and frequency of REFIN0 to REFIN3, and the DCO value of the window. -/
def execMeasurementWindow (meas : List (Bool × Int)) (dco : Int) (s : State) : Host.Outcome State Fault Refusal :=
  .next (measurementWindow s meas dco)

/-- REF_STOP (R355). -/
def execRefStop (r : Nat) (s : State) : Host.Outcome State Fault Refusal := .next (refFail s r 1)

/-- A departure of the mean edge rate of a reference that is in use (R355): logged, and the reference fails. -/
def rateMismatch (s : State) (r : Nat) (offset : Int) : State :=
  if (refOf s r).st = .off then s else
  refFail (logEv s 0x0107 [(1, (r : Int)), (4, satS 32 offset)]) r 3

/-- RATE_MISMATCH (R355). -/
def execRateMismatch (r : Nat) (offset : Int) (s : State) : Host.Outcome State Fault Refusal := .next (rateMismatch s r offset)

/-- A rejected edge: counted; the ninth in a window disqualifies the reference (R355). -/
def referenceGlitch (s : State) (r : Nat) : State :=
  let v := refOf s r
  if v.st = .off then s else
  let s := addCtr (setRef s r { v with glitches := v.glitches + 1 }) Reg.CLK_GLITCHES 1
  if v.glitches + 1 > 8 then refFail s r 2 else s

/-- REFERENCE_GLITCH (R355). -/
def execReferenceGlitch (r : Nat) (s : State) : Host.Outcome State Fault Refusal := .next (referenceGlitch s r)

/-- SPLICE_STEP_MEASURE (R362): the edge of the first mark of the new reference, `lead` ns after the timeline passed its instant. -/
def execSpliceStepMeasure (lead : Int) (s : State) : Host.Outcome State Fault Refusal := .next (measureStep s lead)

/-- FASTLOCK_STEP (R359). -/
def execFastlockStep (s : State) : Host.Outcome State Fault Refusal := .next (fastlockStep s)

/-- DPLL_LOCK (R360): at the target bandwidth; towards PTPA and PTPB the servo's state is the lock condition. -/
def execDpllLock (s : State) : Host.Outcome State Fault Refusal :=
  .next (if s.clk.sel < 4 ∧ s.clk.fast.isNone then dpllLock s else s)

/-- DPLL_LOCK_LOSS (R360). -/
def execDpllLockLoss (s : State) : Host.Outcome State Fault Refusal := .next (if s.clk.sel < 4 then dpllLockLoss s else s)

/-- XOSUSPECT_CLEAR (R354): a write of CLK_CTRL. -/
def execXosuspectClear (v : Nat) (s : State) : Host.Outcome State Fault Refusal := .next (queueWrite s Reg.CLK_CTRL v)

/-- The pause of priority q, or with q = 8 of the whole port, runs out; the MAC may start a frame at local time t (R310). -/
def pauseExpire (s : State) (p q t : Nat) : State :=
  let v := portOf s p
  idleTake (setPort s p (if q ≥ 8 then { v with pause := 0 } else { v with pfc := v.pfc.setIfInBounds q 0 })) p t

/-- PAUSE_EXPIRE (R310). -/
def execPauseExpire (p q t : Nat) (s : State) : Host.Outcome State Fault Refusal := .next (whilePowered s fun s => pauseExpire s p q t)

/-- XOFF_REFRESH (R311): half the pause time has elapsed, with `fill` bytes in the receive buffer. -/
def execXoffRefresh (p fill : Nat) (s : State) : Host.Outcome State Fault Refusal := .next (whilePowered s fun s => fillControl s p fill true)

/-- MAC_FRAME_END (R305) at local time t; with no frame on the wire the MAC, idle, takes its next frame (assumption 31). -/
def execMacFrameEnd (p t : Nat) (s : State) : Host.Outcome State Fault Refusal := .next (whilePowered s fun s => takeNext (endFrame s p) p t)

/-- The code of the rate the MAC runs at in a PCS mode; in SGMII the PHY decides (R295, R316). -/
def pcsSpeed (pcs speed : Nat) : Nat := if pcs = 1 then min speed 2 else pcs

/-- Auto-negotiation runs: in-band in SGMII, by clause 37 in 1000BASE-X with AN = 1 (R295). -/
def anRuns (s : State) (p : Nat) : Bool :=
  getF s (netF p F.NET_CFG_PCS) == 1 || getF s (netF p F.NET_CFG_PCS) == 2 && getF s (netF p F.NET_CFG_AN) == 1

/-- What the port advertises in clause 37 auto-negotiation (R295). -/
structure AnAbility where
  fullDuplex : Bool
  halfDuplex : Bool
  symmetricPause : Bool
deriving DecidableEq, Repr

/-- The advertisement of port p: full duplex, and symmetric pause while RXPAUSE and TXPAUSE are set (R295). -/
def anAbility (s : State) (p : Nat) : AnAbility :=
  { fullDuplex := true, halfDuplex := false,
    symmetricPause := getF s (netF p F.NET_FC_RXPAUSE) == 1 && getF s (netF p F.NET_FC_TXPAUSE) == 1 }

/-- What the PCS of a port reports, taken at the next boundary (R312): the link is up with synchronization, negotiation completed
where it runs, and in 10GBASE-R no local fault. A port that is off, or without NETREFCLK (R539), stays down. -/
def linkChange (s : State) (p : Nat) (sync : Bool) (speed : Nat) (an lf rf : Bool) : State :=
  let pcs := getF s (netF p F.NET_CFG_PCS)
  let up := sync && s.pwr.netref && pcs != 0 && (!anRuns s p || an) && (pcs != 4 || !lf)
  setPort s p { portOf s p with linkPend := some (up, pcsSpeed pcs speed, anRuns s p && an, pcs == 4 && lf, pcs == 4 && rf) }

/-- The link of a port as its PCS last reported it (R312, R313). -/
def pcsLink (s : State) (p : Nat) : Bool := match (portOf s p).linkPend with | some x => x.1 | none => (portOf s p).link

end Sys2Proof.Machine
end

