-- ==== Sys2Proof/Machine/Pair.lean ====
section
/-! DEFINITION. Paired operation: roles, paths, digests, switchover, resynchronisation, adaptive sets (R449 to R474). Frames are frame
numbers in messages, positions in phases. -/

namespace Sys2Proof.Machine

open Sys2Proof

/-- Stores the pair block. -/
def setPair (s : State) (p : PairSt) : State := { s with pair := p }

/-- What the clappers say of the peer, the pair link first (R454). -/
def peerSeen (s : State) : Option PeerSeen :=
  if s.pair.pclap then s.pair.peerP else if s.pair.nclap then s.pair.peerN else none

/-- The peer's role code; 7 unknown (R473). -/
def peerRole (s : State) : Nat := match peerSeen s with | some p => p.role | none => 7

/-- The peer is ACTIVE on the pair link. -/
def peerActiveLink (s : State) : Bool := s.pair.pclap && (match s.pair.peerP with | some p => p.role == 1 | none => false)

/-- What a resynchronisation has received is forgotten (R465). -/
def clearItems (p : PairSt) : PairSt :=
  { p with xTake := [], xSets := [], xObj := [], xCorr := [], fa := none }

/-- The resynchronisation waits for the link, in whatever phase it is (R465). -/
def linkLost (s : State) : State :=
  match s.pair.phase with
  | some _ => setPair s { clearItems s.pair with phase := some .waitLink, settleFrom := none }
  | none => s

/-- Whether a unit of a role drives the outputs (R455). -/
def roleDrives (r : Role) : Bool := r == .active || r == .solo || r == .init

/-- The role changes at this boundary (R455); the drivers change with it, or after a switchover (cause 4) at the output boundary of
its frame (R460). -/
def roleChange (s : State) (new : Role) (cause : Nat) : State :=
  let old := s.pair.role
  if old = new ∧ new ≠ .resync then s else
  let s := setPair s (if cause = 4 then { s.pair with role := new, driveAt := some (posNow s, roleDrives new), serve := none }
    else { s.pair with role := new, driven := roleDrives new, driveAt := none, serve := none })
  let s := match new with
    | .resync => setPair s { clearItems s.pair with phase := some .waitLink, settleFrom := none }
    | _ => setPair s { s.pair with phase := none }
  let s := match new with
    | .active => setR64 s Reg.PAIR_ACTFRAME_LO Reg.PAIR_ACTFRAME_HI s.tl.frame
    | _ => s
  if old = new then s else
  let log := if cause = 4 then logCommit else logEv
  raise (log s 0x1201 [(1, (roleCode old : Int)), (1, (roleCode new : Int)), (1, (cause : Int)), frameF s.tl.frame]) 18 0

/-- The peer's RELEASE has been received: the takeover comes at the next boundary, whatever else asks for a role (R458). -/
def takeoverPending (s : State) : Bool := s.pair.pend == some (.active, 2)

/-- A role change for the next boundary. -/
def rolePend (s : State) (new : Role) (cause : Nat) : State :=
  if takeoverPending s then s else setPair s { s.pair with pend := some (new, cause) }

/-- A path is lost: by missed clappers, or at once by RELEASE (R454, R458, R459, R472). -/
def pathLost (s : State) (net released : Bool) : State :=
  let was := if net then s.pair.nclap else s.pair.pclap
  let s := if net then setPair s { s.pair with nclap := false, peerN := none }
    else linkLost (setPair s { s.pair with pclap := false, peerP := none })
  let s := if released && s.pair.role == .standby then rolePend s .active 2 else s
  if !was then s else
  let s := raise s 18 2
  let both := !s.pair.pclap && !s.pair.nclap
  let paths := if both then 3 else if net then 2 else 1
  let s := logEv s 0x1202 [(1, (paths : Int))]
  if !both then s else
  let s := raise s 18 1
  if s.pair.role == .standby && s.pair.pend.isNone then rolePend s .orphan 10 else s

/-- A clapper is well formed; `vbad` says that only its VARIANT is wrong (R453). -/
def clapperOk (s : State) (b : Bytes) : Bool × Bool :=
  let ok := beAt b 0 2 == 0x434C && beAt b 2 1 == 1 && beAt b 4 4 == getR s Reg.PAIR_KEY && beAt b 20 1 != s.hw.pairId
  (ok && beAt b 22 2 == variantOf s, ok && beAt b 22 2 != variantOf s)

/-- Two ACTIVE units, or an ORPHAN and an ACTIVE peer, meet (R455, R461). -/
def pairMeet (s : State) (net : Bool) (p : PeerSeen) : State :=
  if p.role ≠ 1 then s
  else if s.pair.role = .active then
    let own := getR64 s Reg.PAIR_ACTFRAME_LO Reg.PAIR_ACTFRAME_HI
    if own > p.actFrame ∨ (own = p.actFrame ∧ s.hw.pairId = 1) then pairRelease s |> fun s => rolePend s .resync 5 else s
  else if s.pair.role = .orphan ∧ !net then rolePend s .resync 12
  else s

/-- TRANSFER takes over the staging area: a check in progress is given up (R465; the status is DESIGN CHOICE, assumption 44). -/
def seizeStaging (s : State) : State :=
  let l := s.take.ctx :: s.take.next.map (·.2)
  let s := stageClear (setTake s { s.take with ctx := none, next := [], copying := none })
  l.foldl (fun s c => replyTo s c .notPermitted []) s

/-- TRANSFER begins, or begins anew (R465). -/
def beginTransfer (s : State) : State :=
  seizeStaging (setPair s { clearItems s.pair with phase := some .transfer, settleFrom := none })

/-- A cut that the active has performed during a resynchronisation returns it to TRANSFER (R465): its digest tells of it (DEDUCED,
assumption 88). -/
def peerCut (s : State) (old : Option PeerSeen) (p : PeerSeen) : State :=
  match s.pair.phase, old with
  | some ph, some o =>
    if (ph == .transfer || ph == .align || ph == .settle || ph == .match_) && o.digest != p.digest then beginTransfer s else s
  | _, _ => s

/-- A valid clapper on a path (R454). -/
def clapperTake (s : State) (net : Bool) (b : Bytes) : State :=
  let p : PeerSeen := { role := beAt b 3 1 % 8, actFrame := beAt b 32 8, digest := sliceB b 40 16, devid := beAt b 8 8, frame := beAt b 24 8 }
  let s := setPair s { s.pair with variantRun := false, dualRun := false }
  let s := if net then setPair s { s.pair with gotN := true } else setPair s { s.pair with gotP := true }
  if bit (beAt b 3 1) 3 then pathLost s net true
  else
    let old := if net then s.pair.peerN else s.pair.peerP
    let was := if net then s.pair.nclap else s.pair.pclap
    let s := if net then setPair s { s.pair with nclap := true, peerN := some p } else setPair s { s.pair with pclap := true, peerP := some p }
    let s := if was then s else raise s 18 2
    pairMeet (if net then s else peerCut s old p) net p

/-- A received clapper: its 56 bytes (R453). -/
def clapperReceive (s : State) (net : Bool) (b : Bytes) : State :=
  if !paired s then s else
  let r := clapperOk s b
  if r.1 then clapperTake s net b
  else if r.2 && !s.pair.variantRun then
    logEv (setPair s { s.pair with variantRun := true }) 0x1209 [(2, (beAt b 22 2 : Int))]
  else s

/-- A network datagram of the clapper group: 60 bytes with a CRC of its own (R453). -/
def netClapper (s : State) (b : Bytes) : State :=
  if b.length = 60 ∧ crc32c (b.take 56) = beAt b 56 4 then clapperReceive s true (b.take 56) else s

/-- Whether a body of n bytes is one of its type (R452). -/
def bodyLen (type n : Nat) : Bool :=
  match type with
  | 1 => n == 56
  | 2 => n == 16
  | 3 => decide (12 ≤ n) && decide (n ≤ 1036)
  | 4 => n == 24
  | 5 => n == 8
  | 6 => n == 8
  | 7 => n == 16
  | _ => true

/-- The body of a received pair-link message of a type; one with a wrong CRC or length is dropped and counted (R451). A unit that is
not paired takes none (R450), nor does one whose link is down (R451, R539). -/
def linkBody (s : State) (type : Nat) (b : Bytes) : Option Bytes × State :=
  let n := beAt b 2 2
  if !paired s || !s.pair.link then (none, s)
  else if b.length ≠ n + 8 ∨ !bodyLen (beAt b 0 1) n ∨ crc32c (b.take (4 + n)) ≠ beAt b (4 + n) 4 then
    (none, addCtr s Reg.PAIR_CRCERR 1)
  else if beAt b 0 1 ≠ type then (none, s)
  else (some (sliceB b 4 n), s)

/-- S of R464 for the active take. -/
def settleTime (s : State) : Nat :=
  match s.take.active with
  | none => 0
  | some t =>
    let dl := if farUsed t then fsOf s.tl.rate else 6144
    let lmax := (t.corr.len.map tapsOf).foldl max 0
    ceilDiv (dl + lmax) 16 + getF s F.PAIR_KSETTLE_FRAMES

/-- The longest mismatch run a standby tolerates (R462). -/
def divLimit (s : State) : Nat := let d := getF s F.PAIR_DIVMAX_FRAMES; if d = 0 then settleTime s + 256 else d

/-- A fault for which an ACTIVE unit releases its role still holds (R457). -/
def faultHeld (s : State) : Bool := s.clk.st == .fault || s.pwr.trip || s.pwr.uvRails != 0

/-- MATCH ends with 256 matching frames, once the unit's fault has cleared (R457, R465). -/
def matchDone (s : State) : State :=
  if s.pair.phase = some .match_ ∧ getR s Reg.PAIR_MATCHRUN ≥ 256 ∧ s.pair.pend.isNone ∧ !faultHeld s then rolePend s .standby 8
  else s

/-- One frame both of whose digests are held (R462). -/
def compareDigest (s : State) (f own peer : Nat) : State :=
  let s := setR (setR s Reg.PAIR_OWNDIG own) Reg.PAIR_PEERDIG peer
  if own = peer then
    matchDone (setPair (addCtr s Reg.PAIR_MATCHRUN 1) { s.pair with divRun := 0 })
  else
    let first := s.pair.divRun == 0
    let s := addCtr (setR s Reg.PAIR_MATCHRUN 0) Reg.PAIR_DIVFRM 1
    let s := logRun (setPair s { s.pair with divRun := s.pair.divRun + 1 }) 0x1204
      [frameF f, (4, (own : Int)), (4, (peer : Int))] 0 first
    let s := if first then raise s 18 3 else s
    if s.pair.role = .standby ∧ s.pair.divRun > divLimit s then rolePend s .resync 6 else s

/-- Compares every frame whose digests are both held, in order (R462). -/
def compareHeld (s : State) : State :=
  let l := s.pair.own.filter fun o => s.pair.peer.any fun p => p.1 == o.1
  let peer := s.pair.peer
  let s := setPair s { s.pair with own := s.pair.own.filter (fun o => !l.contains o),
                                   peer := s.pair.peer.filter fun p => !l.any fun o => o.1 == p.1 }
  l.foldl (fun s o => match peer.find? (·.1 == o.1) with | some p => compareDigest s o.1 o.2 p.2 | none => s) s

/-- The digest of an emitted frame (R462): every output channel of the variant in ascending number. -/
def frameDigest (s : State) (out : Sparse (List Int)) : Nat :=
  let codes := (List.range (busCount s)) ++ (List.range 256).map (512 + ·)
  crc32c (codes.flatMap fun c => (Sparse.get (fun _ => zero16) out c).flatMap fun v => leBytes 4 (unsigned 32 v))

/-- The own digest of frame `lab`, sent as DIGEST; no digest in SOLO and INIT (R452, R462). -/
def noteDigest (s : State) (lab : Nat) (out : Sparse (List Int)) : State :=
  if s.pair.role = .solo ∨ s.pair.role = .init then s else
  let d := frameDigest s out
  let s := pairSend s 2 (beBytes 8 lab ++ beBytes 4 d ++ beBytes 4 (getR s Reg.PAIR_MATCHRUN))
  compareHeld (setPair s { s.pair with own := s.pair.own ++ [(lab, d)] })

/-- Frames whose peer digest has not come by the boundary of frame N + 4 stay uncompared (R462). -/
def dropUncompared (s : State) : State :=
  let f := s.tl.frame
  let old := s.pair.own.any fun o => decide (o.1 + 4 ≤ f)
  let s := if old then setR s Reg.PAIR_MATCHRUN 0 else s
  setPair s { s.pair with own := s.pair.own.filter (fun o => decide (f < o.1 + 4)), peer := s.pair.peer.filter fun o => decide (f < o.1 + 4) }

/-- The checks of a switchover (R460). With both paths lost the peer's role is unknown and the link decides (R472). -/
def switchCheck (s : State) (f : Nat) : Option Status :=
  let own := s.pair.role
  let peer := peerRole s
  let ok := (own == .active && (peer == 2 || peer == 7)) || (own == .standby && (peer == 1 || peer == 7))
  if !ok then some .pairRole
  else if !s.pair.pclap then some .pairLink
  else if f ≤ s.tl.frame + getF s F.PAIR_LEAD_FRAMES then some .framePast
  else none

/-- The exchange of roles at its boundary (R460); no RELEASE is sent. -/
def switchNow (s : State) : State :=
  match s.pair.role with
  | .active => roleChange s .standby 4
  | .standby => roleChange s .active 4
  | _ => s

/-- PAIR_RESYNC (R455): the reply follows once RESYNC is entered. -/
def pairResync (s : State) (ctx : Option Ctx) : State :=
  let start := fun (s : State) => rolePend (match ctx with
    | some c => setPair s { s.pair with rsCtx := s.pair.rsCtx ++ [c] }
    | none => s) .resync 7
  if takeoverPending s then replyTo s ctx .pairRole [] else
  match s.pair.role with
  | .solo | .active => replyTo s ctx .pairRole []
  | .init => if peerActiveLink s then start s else replyTo s ctx .pairLink []
  | _ => start s

/-- PAIR_STATUS (0x0601, R261). -/
def pairStatus (s : State) (ctx : Option Ctx) : State :=
  replyTo s ctx .ok (beBytes 1 (roleCode s.pair.role) ++ beBytes 1 (peerRole s) ++ beBytes 1 (b2n s.pair.pclap + 2 * b2n s.pair.nclap) ++
    zeroBytes 1 ++ beBytes 4 (getR s Reg.PAIR_MATCHRUN))

/-- While a resynchronisation transfers or aligns, it owns the staging area (R465). -/
def pairOwnsStaging (s : State) : Bool := s.pair.phase == some .transfer || s.pair.phase == some .align

/-- A resynchronisation fails (R466, R468). -/
def rsFail (s : State) : State :=
  let ph : Nat := match s.pair.phase with
    | some .waitLink => 1
    | some .transfer => 2
    | some .align => 3
    | some .settle => 4
    | some .match_ => 5
    | some .failed => 6
    | none => 0
  raise (logEv (setPair s { s.pair with phase := some .failed }) 0x1206 [(1, (ph : Int))]) 18 5

/-- The peer has a cut SCHEDULED, as its beacons say (R234, R465). -/
def peerScheduled (s : State) : Bool :=
  match s.pair.peerP with
  | some p => s.take.peers.any fun x => x.2.devid == p.devid && x.2.cutsched
  | none => false

/-- A unit 1 that cut at the same frame as unit 0 with the same digest passes straight to SETTLE (R456): ACTFRAME is
the frame at which the peer became ACTIVE, numbered as after the cut (R17). -/
def sameFirstCut (s : State) : Bool :=
  match s.pair.peerP, s.take.lastCut with
  | some p, some (_, d) => s.hw.pairId == 1 && s.take.prevCut.isNone && p.actFrame == s.take.lastNew && p.digest == d
  | _, _ => false

/-- The own active take already has the peer's digest (R466). -/
def sameTake (s : State) : Bool :=
  match s.pair.peerP, s.take.active with
  | some p, some t => p.digest == t.digest
  | _, _ => false

/-- A set that XFER has loaded still converts. -/
def converting (s : State) : Bool :=
  s.conv.chans.any fun c => c.2.slots.any fun q => match q with | .converting _ => true | _ => false

/-- The phases of a resynchronisation at a boundary, before the cut (R465, R466). -/
def rsPhase (s : State) : State :=
  match s.pair.phase with
  | some .waitLink =>
    if !peerActiveLink s ∨ peerScheduled s then s
    else if sameFirstCut s then setPair s { s.pair with phase := some .settle, settleFrom := some (posNow s) }
    else beginTransfer s
  | some .transfer =>
    if s.take.stage = .failed then rsFail s
    else if (sameTake s || s.take.stage == .checked) && s.pair.xObj.length == 32768 && s.pair.xCorr.length == 8192 &&
        s.pair.xSets.isEmpty && !converting s then
      setPair s { s.pair with phase := some .align }
    else s
  | some .settle =>
    match s.pair.settleFrom with
    | some p => if posNow s ≥ p + (settleTime s : Nat) then matchDone (setPair s { s.pair with phase := some .match_ }) else s
    | none => s
  | some .match_ => matchDone s
  | _ => s

/-- The cut at FA (R467): to the transferred take, or to the own active take. -/
def rsCut (s : State) : State :=
  match s.pair.phase, s.pair.fa with
  | some .align, some (fa, k) =>
    if s.tl.frame < fa then s else
    match (if s.take.stage = .checked then s.take.staged else s.take.active) with
    | none => rsFail s
    | some t =>
      if (firstNotReady s t).isSome then rsFail s else
      let s := performCut s t true fa (some { k := k, objects := s.pair.xObj, corr := s.pair.xCorr })
      setPair s { clearItems s.pair with phase := some .settle, settleFrom := some (posNow s) }
  | _, _ => s

/-- The whole-frame re-alignment of ALIGN, at order 1 (R467): as a splice of whole frames with the reference unchanged. -/
def realignDue (s : State) : State :=
  match s.pair.realign with
  | none => s
  | some m =>
    let s := stamp (setPair s { s.pair with realign := none })
    let frame : Nat := Int.toNat ((s.tl.frame : Int) - m) % 2 ^ 60
    let index : Nat := Int.toNat ((s.tl.index : Int) - 16 * m) % 2 ^ 64
    let d : Int := divRhu (m * 16000000000) (fsOf s.tl.rate)
    let s := { s with tl := { s.tl with frame := frame, index := index, z := s.tl.z + m },
                      geo := { s.geo with tickDue := true },
                      clk := { s.clk with splStep := d, splM := satS 32 m, splFrame := frame } }
    raise (logCommit (addCtr s Reg.CLK_SPLICES 1) 0x0101 [(8, d), (4, satS 32 m), frameF frame, (1, (s.clk.sel : Int))]) 1 1

/-- Bytes stored at an offset of an item that arrives in pieces. -/
def putPiece (b : Bytes) (ofs : Nat) (d : Bytes) : Bytes := patchB (b ++ zeroBytes (ofs + d.length - b.length)) ofs d

/-- A FIR set of the peer is complete: loaded into its slot by R103 and R104. Answers whether the load is accepted, and SETID. -/
def loadPeerSet (s : State) (idx : Nat) (b : Bytes) : Bool × Nat × State :=
  let c := idx / 4
  let slot := idx % 4
  if c ≥ busCount s then (false, 0, s) else
  match parseSet b b.length b.length with
  | .error _ => (false, 0, s)
  | .ok f =>
    if slotBusy s c slot then (false, f.setid, addCtr s Reg.CONV_BUSYREJ 1) else
    let ch := chanOf s c
    (true, f.setid, setChan s c { ch with slots := ch.slots.set slot (.converting f) })

/-- SETREADY to the active (R452, R471). -/
def sendSetReady (s : State) (bus slot : Nat) (ok : Bool) (setid : Nat) : State :=
  pairSend s 6 (beBytes 2 bus ++ beBytes 1 slot ++ beBytes 1 (b2n ok) ++ beBytes 4 setid)

/-- A piece of a FIR set (R466, R471). -/
def xferSet (s : State) (idx ofs total : Nat) (d : Bytes) : State :=
  let old := match s.pair.xSets.find? (·.1 == idx) with | some x => x.2.2 | none => []
  let b := putPiece (if ofs = 0 then [] else old) ofs d
  let rest := s.pair.xSets.filter (·.1 != idx)
  if b.length < total then setPair s { s.pair with xSets := (idx, total, b) :: rest }
  else
    let (ok, id, s) := loadPeerSet (setPair s { s.pair with xSets := rest }) idx (b.take total)
    if s.pair.role ≠ .standby then s
    else if ok then setPair s { s.pair with sets := s.pair.sets ++ [(idx / 4, idx % 4, id)] }
    else sendSetReady s (idx / 4) (idx % 4) false id

/-- XFER (R466): the body of the message. -/
def xferReceive (s : State) (b : Bytes) : State :=
  let kind := beAt b 0 1
  let idx := beAt b 1 3
  let ofs := beAt b 4 4
  let total := beAt b 8 4
  let d := b.drop 12
  if ofs + d.length > total then s
  else if kind = 1 ∧ (s.pair.role = .standby ∨ s.pair.phase = some .transfer) then xferSet s idx ofs total d
  else if s.pair.phase ≠ some .transfer then s
  else
    match kind with
    | 0 =>
      let t := putPiece (if ofs = 0 then [] else s.pair.xTake) ofs d
      let s := setPair s { s.pair with xTake := t }
      if t.length < total ∨ s.take.stage = .checking then s
      else setTake s { s.take with stage := .checking, named := none, bytes := t.take total, staged := none, ctx := none }
    | 2 => setPair s { s.pair with xObj := putPiece s.pair.xObj ofs d }
    | 3 => setPair s { s.pair with xCorr := putPiece s.pair.xCorr ofs d }
    | _ => s

/-- ALIGN (R467); `phase` is the boundary phase measured over the link, in FCLK cycles. -/
def alignReceive (s : State) (phase : Int) (b : Bytes) : State :=
  if s.pair.phase ≠ some .align then s else
  let s := setR s Reg.PAIR_PHASE (unsigned 32 phase)
  if decide (phase.natAbs * 4 > frameCycles s.tl.rate) then logEv s 0x1207 [(4, phase)]
  else
    let m : Int := (s.tl.frame : Int) - (beAt b 8 8 : Nat)
    setPair s { s.pair with fa := some (beAt b 0 8, beAt b 16 8), realign := if m = 0 then none else some m }

/-- An ACTIVE unit installs adaptive sets (R470). -/
def mayInstall (s : State) : Bool :=
  s.pair.role == .active && ((s.pair.pclap && peerRole s == 2) || (!s.pair.pclap && !s.pair.nclap))

/-- The outcomes of a set change of R471 on the two units: no message carries the peer's, so it is a free value (assumption 4);
where they differ PAIR_SETDIFF is logged and counted. -/
def setOutcome (s : State) (b : Nat) (own : Status) : State :=
  let r := freeBits 16 s
  if r.1 = own.code then r.2
  else logEv (addCtr r.2 Reg.PAIR_SETDIFF 1) 0x1208 [(2, (b : Int)), (2, (own.code : Int)), (2, (r.1 : Int))]

/-- The unit issues the set change of R471 on itself: it joins the frame queue as a SET_CHANGE command does (R248, assumption 71). -/
def placeSetChange (s : State) (c slot fx x : Nat) : State :=
  if fx ≤ s.tl.frame then setOutcome s c .framePast
  else if s.ccp.frameQ.length ≥ 256 then setOutcome s c .queueFull
  else
    let n := s.ccp.arrivals
    frameAs { s with ccp := { s.ccp with arrivals := n + 1 } } (s.tl.frame + 1) n (.op (.setChange c slot fx x) none)

/-- SETREADY with OK = 1 at the active (R471): F_x is the earliest frame allowed (DESIGN CHOICE, assumption 45). -/
def setReadyReceive (s : State) (b : Bytes) : State :=
  let c := beAt b 0 2
  let slot := beAt b 2 1
  if beAt b 3 1 ≠ 1 ∨ !mayInstall s ∨ c ≥ busCount s then s else
  let fx := s.tl.frame + getF s F.PAIR_LEAD_FRAMES + primeLen ((chanOf s c).run.len)
  let s := pairSend s 7 (beBytes 2 c ++ beBytes 1 slot ++ zeroBytes 1 ++ beBytes 8 fx ++ beBytes 2 0 ++ zeroBytes 2)
  placeSetChange s c slot fx 0

/-- SETSCHED at the standby: the same set change (R471). -/
def setSchedReceive (s : State) (b : Bytes) : State :=
  if s.pair.role ≠ .standby then s else
  placeSetChange s (beAt b 0 2) (beAt b 2 1 % 4) (beAt b 4 8) (beAt b 12 2)

/-- SETREADY for every set loaded for the active that is READY by now (R471). -/
def sendReady (s : State) : State :=
  let ready := s.pair.sets.filter fun x => match (chanOf s x.1).slots.getD x.2.1 .empty with
    | .ready .. => true
    | _ => false
  let s := setPair s { s.pair with sets := s.pair.sets.filter fun x => !ready.contains x }
  ready.foldl (fun s x => sendSetReady s x.1 x.2.1 true x.2.2) s

/-- An item cut into XFER messages of up to 1,024 bytes (R452). -/
def sendXfer (s : State) (kind idx : Nat) (b : Bytes) : State :=
  (List.range (ceilDiv b.length 1024)).foldl (fun s n =>
    pairSend s 3 (beBytes 1 kind ++ beBytes 3 idx ++ beBytes 4 (1024 * n) ++ beBytes 4 b.length ++ sliceB b (1024 * n) 1024)) s

/-- The container of a FIR set (R103). -/
def setContainer (f : FirSet) : Bytes :=
  let b := beBytes 4 0x46495253 ++ beBytes 4 f.setid ++ beBytes 1 f.len ++ beBytes 1 f.rate ++ beBytes 2 (b2n f.adaptive) ++ zeroBytes 4 ++
    f.h.flatMap fun v => beBytes 4 (unsigned 32 v)
  b ++ beBytes 4 (crc32c b)

/-- The object table as XFER carries it (R466). -/
def objectBytes (s : State) : Bytes :=
  (List.range 1024).flatMap fun o => ((List.range 6).flatMap fun w => beBytes 4 (getR s (objR o w))) ++
    beBytes 8 (Sparse.getN s.strm.applied o - 1)

/-- The correction state as XFER carries it (R466). -/
def corrBytes (s : State) : Bytes :=
  (List.range 512).flatMap fun c =>
    let ch := chanOf s c
    beBytes 4 ((ch.run.ctx.map (·.set.setid)).getD 0) ++ beBytes 8 (ch.lastAd.getD 0) ++ zeroBytes 4

/-- The items of R466, in order. -/
def sendItems (s : State) (t : Take) : State :=
  let s := if (match s.pair.peerP with | some p => p.digest == t.digest | none => false) then s else sendXfer s 0 0 t.raw
  let s := s.conv.chans.foldl (fun s c => c.2.slots.zipIdx.foldl (fun s q => match q.1 with
    | .ready f _ => sendXfer s 1 (4 * c.1 + q.2) (setContainer f)
    | _ => s) s) s
  sendXfer (sendXfer s 2 0 (objectBytes s)) 3 0 (corrBytes s)

/-- ALIGN (R467). -/
def sendAlign (s : State) : State :=
  let lead := getF s F.PAIR_LEAD_FRAMES
  let k := corrCount s (posNow s + (lead : Nat))
  pairSend s 4 (beBytes 8 (s.tl.frame + lead) ++ beBytes 8 s.tl.frame ++ beBytes 8 (unsigned 64 k))

/-- Boundaries after which a resynchronisation that went well is over: a peer still in RESYNC then has begun anew (R464, R465;
DESIGN CHOICE, assumption 45). -/
def serveSpan (s : State) : Nat := 2 * getF s F.PAIR_LEAD_FRAMES + settleTime s + 256

/-- The ACTIVE unit serves a peer in RESYNC: the items of R466 in order, then ALIGN, again each PAIR_LEAD frames; then all of it again
for a peer that has begun anew, and after a cut of its own once a clapper has told the peer of it (R465 to R467; the times are
DESIGN CHOICE, assumption 45). -/
def servePeer (s : State) : State :=
  let want := s.pair.role == .active && s.pair.pclap && peerRole s == 3 && s.take.stage != .scheduled && !s.pair.cutUntold
  match want, s.take.active with
  | true, some t =>
    let n := s.pair.serve.getD 0
    let s := if s.pair.serve.isNone then sendItems s t else if (n - 1) % getF s F.PAIR_LEAD_FRAMES = 0 then sendAlign s else s
    setPair s { s.pair with serve := if n + 1 < serveSpan s then some (n + 1) else none }
  | _, _ => setPair s { s.pair with serve := none }

/-- The role of a unit at its first cut (R456). -/
def firstRole (s : State) : Role :=
  let act := (s.pair.pclap && (match s.pair.peerP with | some p => p.role == 1 | none => false)) ||
    (s.pair.nclap && (match s.pair.peerN with | some p => p.role == 1 | none => false))
  if act then .resync
  else if s.pair.pclap || s.pair.nclap then (if s.hw.pairId = 0 then .active else .resync)
  else if s.hw.pairId = 0 then .active else .orphan

/-- After a switchover the drivers change hands at the output boundary of its frame (R460). -/
def driveDue (s : State) : State :=
  match s.pair.driveAt with
  | some (p, b) => if p ≤ posNow s - (s.tl.depth : Nat) then setPair s { s.pair with driven := b, driveAt := none } else s
  | none => s

/-- An adaptive set that the ACTIVE unit has loaded goes to its standby (R470, R471, assumption 45). -/
def forwardSet (s : State) (c slot : Nat) (f : FirSet) : State :=
  if f.adaptive && mayInstall s && s.pair.pclap then sendXfer s 1 (4 * c + slot) (setContainer f) else s

/-- Role changes at a boundary, after its commits (R455, R456, R458). -/
def pairRoles (s : State) : State :=
  if !paired s then s else
  let s := if s.pair.role = .init ∧ s.take.active.isSome then roleChange s (firstRole s) 1 else s
  match s.pair.pend with
  | none => s
  | some (r, cause) =>
    let takeover := r == .active && cause == 2
    let s := roleChange (setPair s { s.pair with pend := none }) r cause
    let s := if takeover then addCtr s Reg.PAIR_TAKEOVERS 1 else s
    let s := if r = .standby ∧ cause = 8 then raise (logEv s 0x1205 [frameF s.tl.frame]) 18 4 else s
    if r ≠ .resync then s else
    let l := s.pair.rsCtx
    l.foldl (fun s c => reply s c .ok []) (setPair s { s.pair with rsCtx := [] })

/-- A configuration write commits (R450): PAIR_CFG, PAIR_KEY, PAIR_NETGRP, PAIR_NETPORT. -/
def pairCfgCommit (s : State) (a v : Nat) : State :=
  if takePresent s then raise s 18 7
  else if a = Reg.PAIR_CFG then
    let was := paired s
    let s := setF (setFB s F.PAIR_CFG_EN (bit v 31)) F.PAIR_CFG_NETPORTS v
    if paired s = was then s
    else setPair s { PairSt.reset with link := s.pair.link, role := if bit v 31 then .init else .solo }
  else setR s a (if a = Reg.PAIR_NETPORT then v % 65536 else v)

/-- A write of PAIR_CTRL commits (R459). -/
def pairCtrlCommit (s : State) (v : Nat) : State :=
  if bit v 0 ∧ s.pair.role = .orphan then rolePend s .active 11 else s

/-- The transmit legs that are multicast, as port, address and UDP port (R459). -/
def monitoredLegs (s : State) : List (Nat × Nat × Nat) :=
  match s.take.active with
  | none => []
  | some t => t.streams.tx.flatMap fun e =>
      (if isMulticastIp e.dsta then [(0, e.dsta, e.dport)] else []) ++ (if isMulticastIp e.dstb then [(1, e.dstb, e.dport)] else [])

/-- The evidence window has run without a break (R459): what the unit itself can see of its conditions holds. -/
def evidence (s : State) : State :=
  let live := (monitoredLegs s).any fun l => (portOf s l.1).link && s.strm.rx.any fun r => r.st == .running && (if l.1 = 0 then r.upA else r.upB)
  if s.pair.role = .orphan ∧ !s.pair.pclap ∧ !s.pair.nclap ∧ live then rolePend s .active 3 else s

/-- A monitored packet while ACTIVE with no clapper current (R461). -/
def monitored (s : State) : State :=
  if s.pair.role ≠ .active ∨ s.pair.pclap ∨ s.pair.nclap ∨ s.pair.dualRun then s
  else raise (logEv (setPair s { s.pair with dualRun := true }) 0x1203 []) 18 6

/-- The PAIR registers at a boundary (R473). -/
def publishPair (s : State) : State :=
  let ph : Nat := match s.pair.phase with
    | none => 0
    | some .waitLink => 1
    | some .transfer => 2
    | some .align => 3
    | some .settle => 4
    | some .match_ => 5
    | some .failed => 6
  let s := setR s Reg.PAIR_STATUS (ph * 2 ^ 20 + b2n s.pair.nclap * 2 ^ 18 + b2n s.pair.pclap * 2 ^ 17 + b2n s.pair.link * 2 ^ 16 +
    peerRole s * 2 ^ 8 + roleCode s.pair.role)
  setR (setF s F.PAIR_CFG_PAIR_ID s.hw.pairId) Reg.PAIR_SETTLE (settleTime s % 2 ^ 24)

/-- A unit that has released its role and not yet taken RESYNC says so in every clapper (R457; DEDUCED, assumption 98). -/
def releasing (s : State) : Bool := s.pair.pend == some (.resync, 9)

/-- A clapper slot of the unit's own interval ends: one without a clapper counts (R454). -/
def clapSend (s : State) : State :=
  if !paired s then s else
  let s := if s.pair.gotP then s else addCtr s Reg.PAIR_PCLAPMISS 1
  clapLink (setPair s { s.pair with gotP := false, cutUntold := false }) (releasing s)
def netClapSend (s : State) : State :=
  if !paired s then s else
  let s := if s.pair.gotN then s else addCtr s Reg.PAIR_NCLAPMISS 1
  clapNet (setPair s { s.pair with gotN := false }) (releasing s)

/-- PAIR_LINK_SYNC (R451, R465, R474); without NETREFCLK the pair link stays down (R539). -/
def linkSync (s : State) (up : Bool) : State :=
  let up := up && s.pwr.netref
  if s.pair.link = up then s else
  let s := setPair s { s.pair with link := up }
  if up ∨ !paired s then s else linkLost (addCtr s Reg.PAIR_LINKDOWN 1)

/-- A message of the pair link handed to its meaning. -/
def onLink (s : State) (type : Nat) (b : Bytes) (f : State → Bytes → State) : State :=
  match linkBody s type b with
  | (some body, s) => f s body
  | (none, s) => s

/-- DIGEST of the peer (R462). -/
def digestReceive (s : State) (b : Bytes) : State :=
  if s.pair.role = .solo ∨ s.pair.role = .init then s else
  compareHeld (setPair s { s.pair with peer := s.pair.peer ++ [(beAt b 0 8, beAt b 8 4)] })

/-- SWITCH of the peer (R460). -/
def switchReceive (s : State) (b : Bytes) : State :=
  match switchCheck s (beAt b 0 8) with
  | none => { s with pair := { s.pair with switch := some (beAt b 0 8, s.ccp.arrivals) }, ccp := { s.ccp with arrivals := s.ccp.arrivals + 1 } }
  | some _ => s

/-- The events of the pair block. -/
def execClapSend (s : State) : Host.Outcome State Fault Refusal := .next (whilePowered s clapSend)
def execNetworkClapperSend (s : State) : Host.Outcome State Fault Refusal := .next (whilePowered s netClapSend)

/-- CLAPPER_RECEIVE: a CLAP message of the pair link, or a network datagram, which carries a CRC of its own (R452, R453). -/
def execClapperReceive (net : Bool) (b : List (BitVec 8)) (s : State) : Host.Outcome State Fault Refusal :=
  .next (whilePowered s fun s =>
    if net then netClapper s b else onLink s 1 b fun s x => clapperReceive s false x)

/-- PAIR_LINK_CLAP_LOSS, NETWORK_CLAP_LOSS (R454). -/
def execPairLinkClapLoss (s : State) : Host.Outcome State Fault Refusal := .next (whilePowered s fun s => if paired s then pathLost s false false else s)
def execNetworkClapLoss (s : State) : Host.Outcome State Fault Refusal := .next (whilePowered s fun s => if paired s then pathLost s true false else s)
def execPairLinkSync (up : Bool) (s : State) : Host.Outcome State Fault Refusal := .next (linkSync s up)
def execEvidenceWindowExpire (s : State) : Host.Outcome State Fault Refusal := .next (whilePowered s evidence)

/-- FORCEACT: a write of PAIR_CTRL waits for its boundary (R459). -/
def execForceact (v : Nat) (s : State) : Host.Outcome State Fault Refusal := .next (queueWrite s Reg.PAIR_CTRL v)

/-- Messages of the pair link (R452). -/
def execDigestReceive (b : List (BitVec 8)) (s : State) : Host.Outcome State Fault Refusal := 
  .next (whilePowered s fun s => onLink s 2 b digestReceive)
def execXferReceive (b : List (BitVec 8)) (s : State) : Host.Outcome State Fault Refusal := 
  .next (whilePowered s fun s => onLink s 3 b xferReceive)
def execAlignReceive (phase : Int) (b : List (BitVec 8)) (s : State) : Host.Outcome State Fault Refusal :=
  .next (whilePowered s fun s => onLink s 4 b fun s x => alignReceive s phase x)
def execSwitchReceive (b : List (BitVec 8)) (s : State) : Host.Outcome State Fault Refusal := 
  .next (whilePowered s fun s => onLink s 5 b switchReceive)
def execSetreadyReceive (b : List (BitVec 8)) (s : State) : Host.Outcome State Fault Refusal := 
  .next (whilePowered s fun s => onLink s 6 b setReadyReceive)
def execSetschedReceive (b : List (BitVec 8)) (s : State) : Host.Outcome State Fault Refusal := 
  .next (whilePowered s fun s => onLink s 7 b setSchedReceive)

/-- RESYNC_TIMEOUT (R468). -/
def execResyncTimeout (s : State) : Host.Outcome State Fault Refusal :=
  .next (whilePowered s fun s => match s.pair.phase with
    | some .transfer | some .align | some .settle | some .match_ => rsFail s
    | _ => s)

end Sys2Proof.Machine
end

