-- ==== Sys2Proof/Machine/Profile.lean ====
section
/-! DEFINITION. Venue Profile 1, the preset of the ROM: the default correction slots (R105) and the routing and monitoring
(R203). -/

namespace Sys2Proof.Machine

open Sys2Proof

/-- The length code Venue Profile 1 gives a bus (R105): 256 taps for buses 0 to 63, the others bypass. -/
def venueLen (c : Nat) : Nat := if c < 64 then 2 else 0

/-- The unit impulse of bus c, for 48 kHz (R105; the rate: DESIGN CHOICE, assumption 80). -/
def venueSet (c : Nat) : FirSet :=
  { setid := 0x56500000 + c, len := venueLen c, rate := 1, adaptive := false, h := 0x40000000 :: List.replicate 255 0 }

/-- The slots of a bus that has a default set: READY in slot 0, the others empty (R105). -/
def venueSlots (c : Nat) : List FirSlot := [.ready (venueSet c) (convertSet (venueSet c).len (venueSet c).h), .empty, .empty, .empty]

/-- The ROM places the default correction slots as it starts (R105; the moment: DESIGN CHOICE, assumption 80). -/
def venuePlace (s : State) : State :=
  (List.range 64).foldl (fun s c => setChan s c { chanOf s c with slots := venueSlots c }) s

/-- The nodes of the preset: bus i from input i at 1.0, and monitor 64 from inputs 0 to 63 at 0.125 (R203). -/
def venueNodes : List (Nat × Nat × Int) :=
  ((List.range 64).map fun i => (i, i, 0x400000)) ++ (List.range 64).map fun i => (512 + 64, i, 0x080000)

/-- The monitor configurations of the preset, as XPT_MONCFG holds them: TAP of bus m for monitors 0 to 63, MIX for the others
(R203). -/
def venueMon (m : Nat) : Nat := if m < 64 then 2 ^ 31 + m else 0

/-- The crosspoint section of the preset (R203, R214). -/
def venueXpt : XptSec := { moncfg := (List.range 128).map venueMon, nodes := venueNodes }

/-- The ceilings of the preset in a SAFETY section: every channel selects ceiling 0, which is 1.0 (R203). -/
def venueSafety (x : SafetySec) : SafetySec :=
  { x with ceil := 0x01000000 :: x.ceil.drop 1, ceilsel := List.replicate 96 0 }

/-- A take with the routing, the monitoring and the ceilings of the preset (R203). -/
def venueTake (t : Take) : Take := { t with xpt := venueXpt, safety := venueSafety t.safety }

end Sys2Proof.Machine
end

