-- ==== Sys2Proof/Machine/Recorder.lean ====
section
/-! DEFINITION. The recorder of the script log: runs, the full log, the spill file, START and CLEAR (R477 to R485). -/

namespace Sys2Proof.Machine

open Sys2Proof

/-- The records the recorder can still reach: all of them, or the spill file once the log SRAM has failed (R485). -/
def liveRecs (l : LogSt) : List LogRec := if l.failed then l.spill else l.recs

/-- The record last written. -/
def lastRec (l : LogSt) : Option LogRec := (liveRecs l).getLast?

/-- One further occurrence counted into the record with this SEQ (R479); a failed log SRAM is not written (R485). -/
def bumpRec (l : LogSt) (seq : Nat) : LogSt :=
  let f := fun (r : LogRec) => if r.seq = seq then { r with rep := satAdd 16 r.rep 1 } else r
  if l.failed then { l with spill := l.spill.map f } else { l with recs := l.recs.map f }

/-- Whether the recorder can still count into the record with this SEQ: one in the failed log SRAM is out of reach, as one that
LOG_CLEAR removed is (R479, R485; DESIGN CHOICE, assumption 94). -/
def holdsRec (l : LogSt) (seq : Nat) : Bool := (liveRecs l).any (·.seq == seq)

/-- The record a run's events count into, when it is still held (R479). -/
def runRec (l : LogSt) (code run : Nat) : Option Nat :=
  match l.runs.find? fun x => x.1 == code && x.2.1 == run with
  | some x => if holdsRec l x.2.2 then some x.2.2 else none
  | none => none

/-- The run's record is the one with this SEQ from now on. -/
def setRun (l : LogSt) (code : Nat) (run : Option Nat) (seq : Nat) : LogSt :=
  match run with
  | some k => { l with runs := (code, k, seq) :: l.runs.filter fun x => !(x.1 == code && x.2.1 == k) }
  | none => l

/-- The run's first record is lost: none of its events counts into an older run's record (R479). -/
def dropRun (l : LogSt) (code : Nat) (run : Option Nat) : LogSt :=
  match run with
  | some k => { l with runs := l.runs.filter fun x => !(x.1 == code && x.2.1 == k),
                       held := l.held.map fun h => (h.1, if h.1.code = code ∧ h.2 = some k then none else h.2) }
  | none => l

/-- The SEQ of the record an event adds to instead of making a new one (R479). -/
def repeatOf (l : LogSt) (e : LogEvent) : Option Nat :=
  let same := match lastRec l with
    | some r => if r.code = e.code ∧ r.payload = e.payload then some r.seq else none
    | none => none
  match e.run with
  | some k => if e.first then same else
      match runRec l e.code k with
      | some q => some q
      | none => same
  | none => same

/-- A record of an event as it stands at this boundary (R475, R481). -/
def protoRec (s : State) (e : LogEvent) (cseq : Nat) : LogRec :=
  { seq := 0, rep := 0, code := e.code, frame := s.tl.frame, cseq := cseq, ns := localNs s, sec := localSec s,
    hours := e.hours, pcyc := 0, spill := false, prestart := false, gap := false, timeValid := s.time.valid,
    payload := e.payload, bad := false }

/-- The log SRAM bytes of slot i are written: the codewords they fill are whole (R444). -/
def slotWritten (s : State) (i n : Nat) : State :=
  let a := codeBase 8 + 64 * i
  whole s fun c => decide (a ≤ c) && decide (c < a + n)

/-- Writes a new record: into the log SRAM, as LOG_FULL in its last slot, or into the spill file (R477, R480, R485). -/
def writeRec (s : State) (r : LogRec) (run : Option Nat) : State :=
  let l := s.log
  let r := { r with seq := l.head, hours := (getR s Reg.LOG_HOURS + r.hours) % 2 ^ 32, pcyc := getF s F.LOG_PCYC_PCYC,
                    gap := l.gap }
  let lose := { s with log := dropRun { l with lost := satAdd 32 l.lost 1 } r.code run }
  if l.failed then
    if l.spill.length < 8 then
      let l := setRun { l with spill := l.spill ++ [{ r with spill := true }], head := (l.head + 1) % 2 ^ 32, gap := false }
        r.code run l.head
      raise { s with log := l } 19 0
    else lose
  else if l.full then lose
  else if l.recs.length ≥ 8191 then
    let f : LogRec := { r with code := 0x1301, payload := pay [(2, (r.code : Int)), frameF r.frame] }
    let l' := { l with recs := l.recs ++ [f], head := (l.head + 1) % 2 ^ 32, gap := false, full := true, lost := satAdd 32 l.lost 1 }
    raise (raise (slotWritten { s with log := dropRun l' r.code run } l.recs.length 64) 19 0) 19 1
  else
    let l' := setRun { l with recs := l.recs ++ [r], head := (l.head + 1) % 2 ^ 32, gap := false } r.code run l.head
    raise (slotWritten { s with log := l' } l.recs.length 64) 19 0

/-- The held event that an event adds to instead of being held itself: the last one of its run, or an equal one held last (R479,
R481; before START the last event held stands for the last record written, DEDUCED, assumption 94). -/
def heldFor (l : LogSt) (e : LogEvent) : Option Nat :=
  let n := l.held.length
  let mine := fun i => match l.held[i]? with | some h => h.1.code == e.code && h.2 == e.run | none => false
  match (if e.run.isSome && !e.first then (List.range n).reverse.find? mine else none) with
  | some i => some i
  | none =>
    match l.held.getLast? with
    | some h => if h.1.code = e.code ∧ h.1.payload = e.payload then some (n - 1) else none
    | none => none

/-- An event counts into a held one (R479, R481). -/
def bumpHeld (s : State) (e : LogEvent) (i : Nat) : State :=
  { s with log := { s.log with held := s.log.held.modify i fun h => ({ h.1 with rep := satAdd 16 h.1.rep 1 }, e.run) } }

/-- The held events but LOG_SRAM_FAIL, whose place is slot 0 of the spill file (R485). -/
def heldEvents (l : LogSt) : List (LogRec × Option Nat) := l.held.filter (·.1.code != 0x1303)

/-- Before START: at most 32 events are held (R481). -/
def holdEvent (s : State) (e : LogEvent) (cseq : Nat) : State :=
  let l := s.log
  if (heldEvents l).length < 32 ∨ e.code = 0x1303 then
    { s with log := { l with held := l.held ++ [({ protoRec s e cseq with prestart := true }, e.run)] } }
  else { s with log := dropRun { l with lost := satAdd 32 l.lost 1 } e.code e.run }

/-- Removes every record and writes LOG_CLEARED as the first of the new log, with the number of the clear (R483). A clear that waited
for START while the log SRAM failed leaves the spill file (assumption 94). -/
def doClear (s : State) (cseq : Nat) : State :=
  let l := s.log
  let e : LogEvent := { code := 0x1302, payload := pay [(4, (l.recs.length : Int)), (4, (l.lost : Int))], run := none,
                        first := false, cseq := some cseq, hours := l.hoursCnt }
  let s := { s with log := { l with recs := [], first := (l.spill.head?.map (·.seq)).getD l.head, full := false, lost := 0 } }
  writeRec s (protoRec s e cseq) none

/-- Whether an event that needs a new record gets one, be it LOG_FULL, or is held before START (R480, R481, R485). -/
def hasRoom (l : LogSt) (code : Nat) : Bool :=
  if !l.started then decide ((heldEvents l).length < 32) || code == 0x1303
  else if l.failed then decide (l.spill.length < 8) else !l.full

/-- An event that adds to no record: it takes its own number where it reports no committed change, and is recorded or held (R478).
An event that leaves no record takes no number. -/
def newEvent (s : State) (e : LogEvent) : State :=
  let s := if e.cseq.isSome ∨ !hasRoom s.log e.code then s else stamp s
  let c := e.cseq.getD s.tl.commitSeq
  if s.log.started then writeRec s (protoRec s e c) e.run else holdEvent s e c

/-- The log SRAM fails at a byte offset in the middle of the recorder's work: LOG_SRAM_FAIL is written before what was in progress
(R485). -/
def failNow (s : State) (ofs : Nat) : State :=
  let s := logSramFail s ofs
  match s.log.queue with
  | e :: q => newEvent { s with log := { s.log with queue := q } } e
  | [] => s

/-- An event counts into the record with this SEQ (R479). In the log SRAM word 1 is merged into its codeword, which is read with its
ECC; where that is uncorrectable the event has its record in the spill file (R441, R485). -/
def bumpEvent (s : State) (e : LogEvent) (q : Nat) : State :=
  if s.log.failed then { s with log := setRun (bumpRec s.log q) e.code e.run q } else
  let i := (q + 2 ^ 32 - s.log.first) % 2 ^ 32
  let x := eccRead s (codeBase 8 + 64 * i) 16 14 0
  if x.1 then newEvent (failNow x.2 (64 * i)) e
  else slotWritten { x.2 with log := setRun (bumpRec x.2.log q) e.code e.run q } i 16

/-- One event of the queue at its boundary: a clear, a repeat, a held event or a record (R478, R479). -/
def writeEvent (s : State) (e : LogEvent) : State :=
  if e.code = 0x1302 then
    match e.cseq with
    | some c => doClear s c
    | none => s
  else if s.log.started then
    match repeatOf s.log e with
    | some q => bumpEvent s e q
    | none => newEvent s e
  else
    match heldFor s.log e with
    | some i => bumpHeld s e i
    | none => newEvent s e

/-- The recorder at a boundary: the records of committed changes in commit order, then every other event in order of
detection (R478). A failure of the log SRAM is recorded before all others (R485). -/
def flushLog (s : State) : State :=
  let q := s.log.queue
  let gone := s.log.lostRuns
  let s := { s with log := { s.log with queue := [], lostRuns := [] } }
  let fail := q.filter fun e => e.code == 0x1303
  let rest := q.filter fun e => e.code != 0x1303
  let s := (fail ++ rest.filter (·.cseq.isSome) ++ rest.filter (·.cseq.isNone)).foldl writeEvent s
  { s with log := gone.foldl (fun l x => dropRun l x.1 (some x.2)) s.log }

/-- START commits: a failure of the log SRAM is recorded first of all (R485), the waiting clears act in their order, then the held
events are written with PRESTART (R481). -/
def logStart (s : State) : State :=
  if s.log.started then s else
  let l := s.log
  let s := { s with log := { l with started := true, clearWait := [], held := [] } }
  let s := (l.held.filter (·.1.code == 0x1303)).foldl (fun s r => writeRec s r.1 r.2) s
  (heldEvents l).foldl (fun s r => writeRec s r.1 r.2) (l.clearWait.foldl doClear s)

/-- CLEAR commits (R483): refused while the log SRAM has failed. Before START it waits for START (R481). It is a change and no event:
the queue holds its place among the records, whatever room events have. -/
def logClear (s : State) : State :=
  if s.log.failed then s
  else if !s.log.started then { s with log := { s.log with clearWait := s.log.clearWait ++ [s.tl.commitSeq] } }
  else
    let e : LogEvent := { code := 0x1302, payload := [], run := none, first := false, cseq := some s.tl.commitSeq, hours := s.log.hoursCnt }
    { s with log := { s.log with queue := s.log.queue ++ [e] } }

/-- A reader's read of one record of the script log. One in the log SRAM is read with its ECC: an uncorrectable error reads as
zero words and puts the recorder into the failed state, with the offset of its codeword (R441, R482, R485). -/
def logFetch (s : State) (seq : Nat) : Option LogRec × State :=
  match findRec s.log seq with
  | none => (none, s)
  | some r =>
    if r.spill then (some r, s) else
    let a := codeBase 8 + 64 * ((seq + 2 ^ 32 - s.log.first) % 2 ^ 32)
    let x := eccRead s a 64 0 0
    if x.1 || r.bad then (some { r with bad := true }, logSramFail x.2 (ueFirst s a 64 - codeBase 8)) else (some r, x.2)

end Sys2Proof.Machine
end

