-- ==== Sys2Proof/Machine/Boot.lean ====
section
/-! DEFINITION. Power sequencing, reset, boot, the watchdog, thermal supervision, PMBus and the Dark state (R489 to R513,
R539). -/

namespace Sys2Proof.Machine

open Sys2Proof

/-- Stores the power block. -/
def setPwr (s : State) (p : PwrSt) : State := { s with pwr := p }

/-- The causes of FAULT_N that hold, as PWR_STATUS.FAULTSRC shows them (R491, R511). -/
def faultSources (s : State) : Nat :=
  b2n (s.clk.st == .fault) + 2 * b2n s.dram.trainFail + 4 * b2n s.fab.storm + 8 * b2n s.log.failed +
  16 * b2n (s.pwr.seq == .failed) + 32 * b2n s.pwr.trip + 64 * b2n (s.pwr.seq == .dark || s.pwr.seq == .darkening)

/-- FAULT_N is asserted (R491, R507, R539). -/
def faultN (s : State) : Bool := !powered s || faultSources s != 0

/-- The PWR registers at a boundary (R511). -/
def publishPwr (s : State) : State :=
  let s := setFB (setF s F.PWR_STATUS_FAULTSRC (faultSources s)) F.PWR_STATUS_TRIP s.pwr.trip
  setFB s F.PWR_STATUS_UV (s.pwr.uvRails != 0)

/-- Words that reads show at once where no boundary comes (R364, R490; assumption 30). -/
def showNow (s : State) (l : List Nat) : State :=
  { s with view := l.foldl (fun v a => Sparse.put regDefault v a (Sparse.get regDefault s.regs a)) s.view }

/-- In FAULT the frame sequencer is stopped and no boundary comes: the event is recorded, an ACTIVE unit of a pair releases its role
and takes RESYNC, and CLK_STATUS, PWR_STATUS, PAIR_STATUS and the pins show the state at once (R364, R457, R491, R539;
assumption 30). -/
def enterClkFault (s : State) (cause : Nat) : State :=
  if s.clk.st = .fault then s else
  let s := raise (logEv (clkState s .fault) 0x0108 [(1, (cause : Int))]) 1 5
  let s := publishPwr (publishPair (publishClk (flushLog (pairRoles (pairRelease s)))))
  showNow s [Reg.CLK_STATUS, Reg.PWR_STATUS, Reg.PAIR_STATUS]

/-- XO_IN_FAULT (R352): `stopped`, or off frequency; the monitor is suspended while NETREFCLK is absent (R539). -/
def execXoInFault (stopped : Bool) (s : State) : Host.Outcome State Fault Refusal :=
  .next (if s.pwr.netref then enterClkFault s (if stopped then 1 else 2) else s)

/-- ROOT_PLL_UNLOCK (R364). -/
def execRootPllUnlock (s : State) : Host.Outcome State Fault Refusal := .next (enterClkFault s 3)

/-- The fused and pin-given registers (R3, R98, R162, R264, R267, R505, R511, R512). -/
def identRegs (s : State) (cause : Nat) : State :=
  let s := setR64 s Reg.SYS_DEVID_LO Reg.SYS_DEVID_HI s.hw.devid
  let s := setFB (setR s Reg.SYS_RSTCAUSE cause) F.HOST_STATUS_SECURE s.hw.secure
  let s := setF (setF s F.SYS_BOOT_MODE s.hw.bootmode) F.PAIR_CFG_PAIR_ID s.hw.pairId
  let s := if s.hw.igrade then setR s Reg.PWR_TWARN 0x690 else s
  if s.hw.tk2512 then
    let s := setR (setR s Reg.SYS_ID 0x4C592512) Reg.KPU_PRESENT 0xFFFF
    setF (setF (setF s F.PATH_STATUS_PEPRESENT 3) F.CONV_STATUS_PRESENT 1) F.HOST_PCIID_DEVICE 0x2512
  else s

/-- The registers as a reset leaves them; those of the always-on domain are kept (R494). -/
def resetRegisters (old new : State) (cause : Nat) : State :=
  let s := identRegs new cause
  let s := if new.clk.st = .fault then setF (setF s F.CLK_STATUS_REF_STATE 7) F.PWR_STATUS_FAULTSRC (faultSources s) else s
  let s := setR (setR s Reg.PWR_LASTSHUT (getR old Reg.PWR_LASTSHUT)) Reg.PWR_WAKECFG (getR old Reg.PWR_WAKECFG)
  { s with view := s.regs }

/-- A reset of every block (R494): `cause` as SYS_RSTCAUSE shows it, `xo` XO_IN runs at its release, `test` TEST_MODE is high
(R539). The flash, the fuses, the straps and the levels of the other pins are the board's. -/
def deviceReset (s : State) (cause : Nat) (xo test : Bool) : State :=
  let new : State := { State.reset with
    pending := s.pending, hw := s.hw, regs := [], view := [], freeCtr := s.freeCtr,
    mem := s.mem.filter fun c => decide (0x90000000 ≤ c.1) && decide (c.1 < 0xA0000000),
    ccp := { CcpSt.reset with perst := s.ccp.perst },
    fw := { FwSt.reset with pref := s.fw.pref },
    clk := if xo then ClkSt.reset else { ClkSt.reset with st := .fault },
    pwr := { PwrSt.reset with netref := s.pwr.netref, seq := if test then .held else .raising 0, en := if test then 0 else 1 },
    xpt := { XptSt.reset with house := s.xpt.house, houseLow := s.xpt.house },
    lio := { LioSt.reset with clear := s.lio.clear } }
  resetRegisters s new cause

/-- A reset that makes an ACTIVE unit release its role (R457): the reset wipes the queues, but the clappers with RELEASE have left on
both paths. -/
def releaseReset (s : State) (cause : Nat) (xo test : Bool) : State :=
  let r := pairRelease s
  let t := deviceReset r cause xo test
  let sent := r.portA.q1.drop s.portA.q1.length ++ r.portB.q1.drop s.portB.q1.length
  { t with pair := { t.pair with tx := r.pair.tx.drop s.pair.tx.length, farewell := sent.map (·.bytes) } }

/-- The ROM starts an image of firmware, with the watchdog on at 2,000 ms (R495, R498, R512). -/
def startFirmware (s : State) (img : Nat) (fallback : Bool) : State :=
  let s := setF (setFB (rootKey s img) F.SYS_BOOT_IMAGE (img == 1)) F.SYS_BOOT_FALLBACK (b2n fallback)
  let s := setF s F.PWR_WDT_MS 2000
  { s with pwr := { s.pwr with boot := .running, wdt1 := false, wdtLoads := s.pwr.wdtLoads + 1 },
           fw := { s.fw with running := img, previous := img, restarting := false, ready := false } }

/-- A boot from flash: the preferred image, else the other, else the recovery UART (R498). -/
def flashBoot (s : State) : State :=
  let p := s.fw.pref
  if imageValid s (imageOf s p) then startFirmware s p false
  else if imageValid s (imageOf s (1 - p)) then startFirmware s (1 - p) true
  else setPwr s { s.pwr with boot := .uart }

/-- The ROM runs once the rails are up and the root PLL has locked (R496, R499, R500, R539). It holds Venue Profile 1, whose default
correction slots are there from its start (R105). -/
def romStart (s : State) : State :=
  if s.clk.st = .fault then s else
  let s := venuePlace s
  match s.hw.bootmode with
  | 1 => setPwr s { s.pwr with boot := .pcieWait }
  | 2 => setPwr s { s.pwr with boot := .uart }
  | 3 => if s.hw.secure then flashBoot s else setPwr s { s.pwr with boot := .debugHold }
  | _ => flashBoot s

/-- A write of SYS_BOOTGO commits: the image the host placed is tested and started (R496, R498). -/
def bootGo (s : State) : State :=
  if s.pwr.boot = .pcieWait ∧ imageValid s s.pwr.bootImage then startFirmware s 2 false else s

/-- An image arrives over the recovery UART: the ROM tests it and starts it (R496, R498). -/
def uartBoot (s : State) (image : Bytes) : State :=
  let t := setPwr s { s.pwr with bootImage := image }
  if s.pwr.boot = .uart ∧ imageValid t image then startFirmware t 2 false else s

/-- The clock system restarts as after reset under the configuration it has (R356, R508): every reference with a TYPE and every
enabled servo is FAILED, none is selected and none steers. -/
def restartClk (s : State) : State :=
  let on := fun r => if r < 4 then getF s (F.CLK_REFCFG_TYPE.plus (8 * r)) != 0 else (servoOf s (r - 4)).st != .disabled
  updateSteer ((List.range 6).foldl (fun s r => refInstall s r (on r)) { s with clk := ClkSt.reset })

/-- The wake from the Dark state is complete (R508). -/
def wakeDone (s : State) : State :=
  let s := restartClk { s with pwr := { s.pwr with seq := .up }, tl := { s.tl with rate := 1, relock := false },
                               dram := { s.dram with selfRef := .out } }
  logEv s 0x1406 [(1, (getR s Reg.PWR_WAKECAUSE : Int))]

/-- PWR_GOOD of group g has been high for 100 µs: the next enable rises, or the sequence is complete (R490, R500, R508). -/
def pwrGoodRise (s : State) (g : Nat) : State :=
  match s.pwr.seq with
  | .raising k =>
    if k ≠ g then s else
    let s := setF s F.PWR_STATUS_PGOOD (getF s F.PWR_STATUS_PGOOD ||| 2 ^ g)
    if g ≥ 5 then romStart (setPwr s { s.pwr with seq := .up })
    else setPwr s { s.pwr with seq := .raising (g + 1), en := s.pwr.en ||| 2 ^ (g + 1) }
  | .waking k =>
    if k ≠ g then s else
    let s := setF s F.PWR_STATUS_PGOOD (getF s F.PWR_STATUS_PGOOD ||| 2 ^ g)
    if g = 0 then setPwr s { s.pwr with seq := .waking 2, en := s.pwr.en ||| 4 } else wakeDone s
  | _ => s

/-- Every enable falls: the control processor has no supply, and its watchdog nothing to restart (R490, R506). -/
def enablesDown (s : State) (q : SeqState) (kind : Nat) : State :=
  let s := setF (setPwr s { s.pwr with seq := q, en := 0, boot := .sequencing }) F.PWR_STATUS_PGOOD 0
  showNow (publishPwr (setR s Reg.PWR_LASTSHUT kind)) [Reg.PWR_STATUS, Reg.PWR_LASTSHUT]

/-- SEQUENCE_TIMEOUT (R490): the PWR_GOOD awaited is late. -/
def sequenceTimeout (s : State) : State :=
  let fail := fun (g : Nat) => enablesDown (setR s Reg.PWR_SEQSTAT (2 ^ 31 + g % 8)) .failed 1
  match s.pwr.seq with
  | .raising g => fail g
  | .waking g => fail g
  | _ => s

/-- The lowest voltage of rail k in mV that is not under voltage (R489, R492): 95% of nominal, rounded up; for VDD_KPU the minimum of
R159 for the divider in effect, less 25 mV. The nominal of VDD_KPU is its setting, which no register holds (assumption 95). -/
def railLimit (s : State) (k : Nat) : Nat :=
  if k = 2 then [725, 675, 625].getD (getF s F.KPU_CLK_DIV_CUR - 2) 625
  else ceilDiv (([750, 800, 0, 1050, 500, 850, 1200, 1800, 750].getD k 0) * 95) 100

/-- The group whose PWR_GOOD watches rail k; the board powers the last two rails (R489). -/
def railGroup (k : Nat) : Option Nat := [some 0, some 1, some 2, some 3, some 4, some 5, some 5].getD k none

/-- Rail k goes under voltage, or comes back (R492). -/
def railState (s : State) (k mv : Nat) (under : Bool) : State :=
  if under = bit s.pwr.uvRails k then s
  else if !under then setPwr s { s.pwr with uvRails := andNot s.pwr.uvRails (2 ^ k) }
  else
    let s := setPwr s { s.pwr with uvRails := s.pwr.uvRails ||| 2 ^ k }
    let s := raise (addCtr s Reg.PWR_UVCNT 1) 20 4
    let s := logEv s 0x1402 [(1, (k : Int)), (2, (mv : Int)), frameF s.tl.frame]
    pairRelease (fmuteSet s 0)

/-- PGOOD follows the PWR_GOOD pin of a group whose enable is up (R511). -/
def pgoodPin (s : State) (k : Nat) (low : Bool) : State :=
  match railGroup k with
  | some g =>
    if !powered s || !bit s.pwr.en g then s else
    let p := getF s F.PWR_STATUS_PGOOD
    setF s F.PWR_STATUS_PGOOD (if low then andNot p (2 ^ g) else p ||| 2 ^ g)
  | none => s

/-- RAIL_UNDERVOLTAGE (R492): for 2 µs the monitor of rail k has read `mv`, and the PWR_GOOD of its group has been `low`. -/
def railUndervoltage (s : State) (k mv : Nat) (low : Bool) : State :=
  let k := k % 9
  let s := pgoodPin (setR s (Reg.PWR_RAILMV + 4 * k) (mv % 4096)) k low
  railState s k mv (low || decide (mv < railLimit s k))

/-- VDD_KPU at a boundary: its last reading against the limit of the divider now in effect (R159, R492). A reading of 0 is none yet
(assumption 95). -/
def kpuRail (s : State) : State :=
  let mv := getR s (Reg.PWR_RAILMV + 8)
  if mv = 0 then s else railState s 2 mv (!bit (getF s F.PWR_STATUS_PGOOD) 2 || decide (mv < railLimit s 2))

/-- A write of PWR_WDT (R495, R511): it acts at once. -/
def wdtWrite (s : State) (v : Nat) : State :=
  let s := setF s F.PWR_WDT_MS v
  if bit v 31 then setPwr s { s.pwr with wdt1 := false, wdtLoads := s.pwr.wdtLoads + 1 } else s

/-- WDT_EXPIRE (R495): the first expiry restarts the control processor, the second resets the device. -/
def wdtExpire (s : State) (rel : WdtIn) : State :=
  if s.pwr.boot ≠ .running then s
  else if s.pwr.wdt1 then releaseReset s 8 rel.xo rel.test
  else
    let s := restartFw s s.fw.running
    let s := setPwr s { s.pwr with wdt1 := true }
    logEv (raise (addCtr s Reg.PWR_WDT1CNT 1) 20 3) 0x1407 []

/-- THERMAL_SAMPLE (R504 to R506): the eight sensors in 1/16 °C. -/
def thermalSample (s : State) (temps : List Int) : State :=
  let t := (List.range 8).map fun k => temps.getD k 0
  let s := t.zipIdx.foldl (fun s x => setR s (Reg.PWR_TEMP + 4 * x.2) (unsigned 16 x.1)) s
  let top := t.foldl max (t.headD 0)
  let s := setF s F.PWR_STATUS_TMAX (unsigned 16 top)
  let warn := signed 16 (getF s F.PWR_TWARN_TEMP)
  let s :=
    if getF s F.PWR_STATUS_WARN = 0 then
      if top ≥ warn then
        let k := t.findIdx (· == top)
        raise (logEv (addCtr (setFB s F.PWR_STATUS_WARN true) Reg.PWR_WARNCNT 1) 0x1403 [(1, (k : Int)), (2, top)]) 20 5
      else s
    else if top ≤ warn - 80 then setFB s F.PWR_STATUS_WARN false
    else s
  if s.pwr.trip ∧ top ≤ 1840 then setPwr s { s.pwr with trip := false } else s

/-- THERMAL_TRIP (R506): sensor k reached +125 °C. -/
def thermalTrip (s : State) (k : Nat) (temp : Int) : State :=
  if s.pwr.trip then s else
  let s := setPwr s { s.pwr with trip := true }
  let s := raise (logEv s 0x1404 [(1, (k : Int)), (2, temp), frameF s.tl.frame]) 20 6
  pairRelease (fmuteSet s 1)

/-- The divider at a boundary: 4 while the trip holds, then the request again; VDD_KPU is watched for it (R492, R506, R510). -/
def tripDivider (s : State) : State :=
  kpuRail (setF s F.KPU_CLK_DIV_CUR (if s.pwr.trip then 4 else getF s F.KPU_CLK_DIV_REQ))

/-- THERMAL_SHUTDOWN (R506): a sensor stayed at +125 °C or above for 100 ms after the trip. -/
def thermalShutdown (s : State) : State := if s.pwr.trip then enablesDown s .off 2 else s

/-- A write of PWR_PMBCMD (R502, R511): it acts at once. While a transaction runs GO starts none. -/
def pmbWrite (s : State) (v : Nat) : State :=
  let s := setR s Reg.PWR_PMBCMD (bits v 30 28 * 2 ^ 28 + bits v 22 8 * 2 ^ 8)
  if bit v 31 ∧ getF s F.PWR_PMBSTAT_BUSY = 0 then
    setPwr (setFB s F.PWR_PMBSTAT_BUSY true) { s.pwr with pmbRead := bits v 29 28 == 3 }
  else s

/-- PMBUS_DONE (R502): the transaction ends; a read word brings `data`. -/
def pmbusDone (s : State) (nack pec : Bool) (data : Nat) : State :=
  if getF s F.PWR_PMBSTAT_BUSY = 0 then s else
  let s := setFB s F.PWR_PMBSTAT_BUSY false
  let s := if nack then setFB s F.PWR_PMBSTAT_NACK true else s
  let s := if pec then setFB s F.PWR_PMBSTAT_PECERR true else s
  let s := if s.pwr.pmbRead && !nack then setR s Reg.PWR_PMBDATA (data % 65536) else s
  raise s 20 1

/-- A wake cause of R508: bit 0 port A, 1 port B, 2 HOST_WAKE_N. -/
def wakeStart (s : State) (b : Nat) : State :=
  if s.pwr.seq ≠ .dark ∨ !bit (getR s Reg.PWR_WAKECFG) b then s else
  let s := raise (setR s Reg.PWR_WAKECAUSE (2 ^ b)) 20 0
  setPwr s { s.pwr with seq := .waking 0, en := s.pwr.en ||| 1 }

/-- The Dark state may not be entered (R507). -/
def darkRefused (s : State) : Bool :=
  (paired s && s.pair.role == .active) || s.dram.training.isSome || (match s.dram.change with | some c => c.running | none => false)

/-- PWR_DARK.ENTER commits (R507): refused, or the output frame of this boundary is the last one; `darkFinish` follows at its end. -/
def darkCommit (s : State) : State :=
  if darkRefused s then setEvent s Reg.PWR_DARK (2 ^ 30)
  else logEv (setPwr s { s.pwr with seq := .darkening }) 0x1405 [frameF s.tl.frame]

/-- A command that the Dark state discards owes its reply (R245; the status is DESIGN CHOICE, assumption 46). -/
def dropChange (s : State) (c : Change) : State :=
  match c with
  | .op _ ctx => replyTo s ctx .notPermitted []
  | _ => s

/-- Scheduled cuts and commands, the active and the staged take are discarded (R507). -/
def darkDiscard (s : State) : State :=
  let s := abandonCopy s
  let s := replyTo (s.ccp.frameQ.foldl (fun s c => dropChange s c.2.2) s) s.take.ctx .notPermitted []
  let s := s.take.next.foldl (fun s x => replyTo s x.2 .notPermitted []) s
  let s := s.ccp.snaps.foldl (fun s x => reply s x.ctx .notPermitted []) s
  let s := { s with ccp := { s.ccp with frameQ := [], snaps := [] } }
  stageClear (setTake s { s.take with active := none, ctx := none, next := [] })

/-- A port in the Dark state: dispatch, flow control and transmission have stopped, and what waited is gone (R314). -/
def portDark (v : PortSt) : PortSt :=
  { v with held := [], pauseQ := [], q0 := [], q1 := [], q2 := [], q3 := [], q3wait := [], wire := none, pause := 0,
           pfc := Vector.replicate 8 0, xoff := false, loopRun := false }

/-- Steps 2 to 5 of R507: the requests the DRAM controller accepted complete (R416); what belongs to the active take ends with it; DRAM enters self-refresh; groups 2 and 0 fall. -/
def darkFinish (s : State) : State :=
  let s := strmDark (darkDiscard (drainDram s))
  let s := setF s F.PWR_STATUS_PGOOD (andNot (getF s F.PWR_STATUS_PGOOD) 5)
  let s := setR (setR s Reg.PATH_FARACT_LO 0) Reg.PATH_FARACT_HI 0
  let chans := s.conv.chans.map fun c => (c.1, { c.2 with run := ConvRun.off, old := none, hist := [] })
  { s with portA := portDark s.portA, portB := portDark s.portB, geo := GeoSt.reset, path := PathSt.reset, kpu := KpuSt.reset, disp := DispSt.reset, pipe := PipeSt.reset,
           conv := { s.conv with chans := chans, miss := [], gen := GenSt.reset, load := none, capFrom := none },
           strm := { StrmSt.reset with applied := s.strm.applied },
           lio := { LioSt.reset with clear := s.lio.clear },
           xpt := { s.xpt with nodes := [], monProc := List.replicate 128 0, monPrev := List.replicate 128 0 },
           dram := { s.dram with selfRef := .dark, reqs := [], open_ := [], pd := 0 },
           pair := { s.pair with switch := none, realign := none, link := false, pclap := false, nclap := false, peerP := none,
                                 peerN := none, own := [], peer := [] },
           pwr := { s.pwr with seq := .dark, en := andNot s.pwr.en 5 } }

/-- POWER_ON_RESET, RESET_N, BROWNOUT (R493, R494): `xo`, `test` as `deviceReset` has them. RESET_N releases the role (R457). -/
def execPowerOnReset (xo test : Bool) (s : State) : Host.Outcome State Fault Refusal := .next (deviceReset s 1 xo test)
def execResetN (xo test : Bool) (s : State) : Host.Outcome State Fault Refusal := .next (releaseReset s 2 xo test)
def execBrownout (xo test : Bool) (s : State) : Host.Outcome State Fault Refusal := .next (deviceReset s 4 xo test)

/-- PWR_GOOD_RISE (R490). -/
def execPwrGoodRise (g : Nat) (s : State) : Host.Outcome State Fault Refusal := .next (pwrGoodRise s g)
def execSequenceTimeout (s : State) : Host.Outcome State Fault Refusal := .next (sequenceTimeout s)

/-- SYS_BOOTGO (R496): the host has written an image into the control processor SRAM and writes the register, or an image has come
over the recovery UART. -/
def execSysBootgo (load : BootLoad) (v : Nat) (s : State) : Host.Outcome State Fault Refusal :=
  .next (if load.uart then uartBoot s load.image
    else queueWrite (setPwr s { s.pwr with bootImage := load.image }) Reg.SYS_BOOTGO v)

/-- CKEY_WRITE (R499): the control processor writes word w of control key k. -/
def execCkeyWrite (k w v : Nat) (s : State) : Host.Outcome State Fault Refusal :=
  .next (pendNow s (.write (Reg.SYS_CKEY + 32 * (k % 4) + 4 * (w % 8)) [v] true))

/-- RAIL_UNDERVOLTAGE (R492). -/
def execRailUndervoltage (rail mv : Nat) (low : Bool) (s : State) : Host.Outcome State Fault Refusal :=
  .next (railUndervoltage s rail mv low)

/-- WDT_KICK, WDT_EXPIRE (R495). -/
def execWdtKick (v : Nat) (s : State) : Host.Outcome State Fault Refusal := .next (wdtWrite s v)
def execWdtExpire (rel : WdtIn) (s : State) : Host.Outcome State Fault Refusal := .next (wdtExpire s rel)

/-- THERMAL_SAMPLE, THERMAL_TRIP, THERMAL_SHUTDOWN (R504 to R506). -/
def execThermalSample (temps : List Int) (s : State) : Host.Outcome State Fault Refusal := .next (thermalSample s temps)
def execThermalTrip (sensor : Nat) (temp : Int) (s : State) : Host.Outcome State Fault Refusal := .next (thermalTrip s sensor temp)
def execThermalShutdown (s : State) : Host.Outcome State Fault Refusal := .next (thermalShutdown s)

/-- PWR_DARK_ENTER (R507): a write of PWR_DARK waits for its boundary. -/
def execPwrDarkEnter (v : Nat) (s : State) : Host.Outcome State Fault Refusal := .next (queueWrite s Reg.PWR_DARK v)

/-- HOST_WAKE (R508). -/
def execHostWake (s : State) : Host.Outcome State Fault Refusal := .next (wakeStart s 2)

/-- PMBUS_TRANSACTION, PMBUS_DONE, PMB_ALERT (R502). -/
def execPmbusTransaction (v : Nat) (s : State) : Host.Outcome State Fault Refusal := .next (pmbWrite s v)
def execPmbusDone (nack pec : Bool) (data : Nat) (s : State) : Host.Outcome State Fault Refusal := .next (pmbusDone s nack pec data)
def execPmbAlert (s : State) : Host.Outcome State Fault Refusal := .next (logEv (raise s 20 2) 0x1408 [])

/-- HOURS_TICK (R481). -/
def execHoursTick (s : State) : Host.Outcome State Fault Refusal := .next { s with log := { s.log with hoursCnt := s.log.hoursCnt + 1 } }

end Sys2Proof.Machine
end

