-- ==== Sys2Proof/Machine/RegAcc.lean ====
section
/-! DEFINITION. Register accesses: direct reads and their effects, the writes that act at once, and what a committed word does
(R5, R8, R9, R13, R32, R36, R252, R259, R265). -/

namespace Sys2Proof.Machine

open Sys2Proof

/-- The registers of units fused off on the TK2512: they read 0 and ignore writes (R4, R5). -/
def unitAbsent (s : State) (a : Nat) : Bool :=
  let o := a % 0x10000
  let within := fun (lo hi : Nat) => decide (lo ≤ o ∧ o < hi)
  s.hw.tk2512 && (match a / 0x10000 with
    | 6 => within 0xC000 0x10000
    | 7 => within 0x3C 0x44
    | 8 => o == 0x10 || o == 0x18 || o == 0x20 || within 0xE0 0x100 || within 0x6000 0x8000
    | 9 => within 0x1200 0x1400
    | 10 => within 0x140 0x180
    | 11 => within 0x180 0x200 || within 0x5000 0x6000
    | 17 => within 0x1000 0x7000 && [4, 5, 8, 20, 21, 22, 23].contains ((o - 0x1000) / 0x400)
    | _ => false)

/-- The registers whose writes act at once and whose reads return the current value (R13, R252). -/
def atOnce (a : Nat) : Bool :=
  [Reg.HOST_CMDTAIL, Reg.HOST_RPLHEAD, Reg.HOST_CAUSEEN, Reg.HOST_INTSTAT, Reg.HOST_INTEN, Reg.LOG_RDSEQ, Reg.TAKE_FWCTRL,
   Reg.PWR_WDT, Reg.PWR_PMBCMD].contains a ||
  (decide (Reg.KPU_MBOX ≤ a) && decide (a < Reg.KPU_MBOX + 1024) && (a - Reg.KPU_MBOX) % 32 == 0)

/-- The words a read of offset a latches (R36, R67, R98, R127, R240, R264, R291, R346, R370, R427, R446, R473). -/
def latches (a : Nat) : List Nat :=
  if a = Reg.TIME_NOW_NS then [Reg.TIME_NOW_SLO, Reg.TIME_NOW_SHI]
  else if [Reg.SYS_DEVID_LO, Reg.SYS_FRAME_LO, Reg.SYS_INDEX_LO, Reg.CLK_SPLSTEP_LO, Reg.CLK_SPLFRAME_LO, Reg.CLK_SPLSUM_LO,
      Reg.TIME_OFFSET_LO, Reg.TIME_OFFSET_LO + 128, Reg.STRM_EXTBASE_LO, Reg.GEOM_TICKF_LO, Reg.PATH_FARBASE_LO,
      Reg.CONV_DRBASE_LO, Reg.CONV_KCOUNT_LO, Reg.CONV_GEN_INC0_LO, Reg.CONV_GEN_RATIO_LO].contains a ||
    [Reg.CONV_GEN_INCEND_LO, Reg.CONV_CAP_START_LO, Reg.TAKE_NEXTCUT_LO, Reg.TAKE_LASTCUT_LO, Reg.TAKE_REELBASE_LO,
      Reg.TAKE_REELMAP_LO, Reg.MEM_USABLE_LO, Reg.FAB_ERRADDR_LO, Reg.FAB_ERRFRAME_LO, Reg.PAIR_ACTFRAME_LO].contains a
  then [a + 4]
  else []

/-- A word that reads as latched by the read of its low word. -/
def latched (a : Nat) : Bool :=
  (decide (4 ≤ a) && (latches (a - 4)).contains a) || (decide (8 ≤ a) && (latches (a - 8)).contains a)

/-- The bits of a word that read back (R8): RW, RO, W1C and RC fields. -/
def readMask (a : Nat) : Nat := maskOf .rw a + maskOf .ro a + maskOf .w1c a + maskOf .rc a

/-- TIME_TSQp_W0 as a read of it returns it (R348). -/
def tsqWord (s : State) (p : Nat) : Nat :=
  match (portOf s p).tsq with
  | (tag, _) :: _ => 2 ^ 31 + p * 2 ^ 30 + tag % 2 ^ 16
  | [] => 0

/-- The word at BAR0 offset a as a read without side effects returns it (R32, R252, R260). -/
def peekReg (s : State) (a : Nat) : Nat :=
  if unitAbsent s a then 0
  else if a = Reg.TIME_TSQ_W0 then tsqWord s 0
  else if a = Reg.TIME_TSQ_W0 + 0x40 then tsqWord s 1
  else (if atOnce a then getR s a else getView s a) &&& readMask a

/-- RC fields that hold a largest value since the last read. -/
def peakField (a : Nat) (f : FieldRow) : Bool :=
  [Reg.PATH_SLOTPEAK, Reg.CONV_PEAK, Reg.CONV_PEAK + 4, Reg.MEM_C0PEAK, Reg.GEOM_EVALPEAK, Reg.TIME_TCRESMAX,
   Reg.TIME_TCRESMAX + 128].contains a ||
  (decide (Reg.DISP_QMAX ≤ a) && decide (a < Reg.DISP_QMAX + 32)) ||
  (decide (Reg.STRM_RX7 ≤ a) && decide (a < Reg.STRM_RX7 + 0x2000) && (a - Reg.STRM_RX7) % 32 == 0 &&
    f.lo == 16)

/-- A read clears the RC fields of a word: what was counted after the value shown stays (R8, R9). -/
def clearRc (s : State) (a : Nat) : State :=
  match regRowAt a with
  | none => s
  | some r =>
    (r.fields.filter fun f => f.acc == .rc).foldl (fun s f =>
      let cur := bits (getR s a) f.hi f.lo
      let shown := bits (getView s a) f.hi f.lo
      let new := if peakField a f then (if cur = shown then 0 else cur) else cur - shown
      let s := setR s a (setBits (getR s a) f.hi f.lo new)
      { s with view := Sparse.put regDefault s.view a (BitVec.ofNat 32 (setBits (getView s a) f.hi f.lo 0)) }) s

/-- Word 5 of the status window of a KIND 1 receive entry: STREAMID, RO (R293). -/
def streamIdWord (s : State) (a : Nat) : Bool :=
  decide (Reg.STRM_RX_LOST ≤ a) && decide (a < Reg.STRM_RX_LOST + 0x2000) && decide ((a - Reg.STRM_RX_LOST) % 32 = 0) &&
  match s.strm.rx[(a - Reg.STRM_RX_LOST) / 32]? with
  | some x => x.ent.kind == 1
  | none => false

/-- A direct read: its word, and its effects (R8, R32, R36, R252). -/
def readReg (s : State) (a : Nat) : Nat × State :=
  let v := if latched a then (Sparse.get regDefault s.latch a).toNat &&& readMask a else peekReg s a
  if unitAbsent s a then (0, s)
  else if a = Reg.TIME_TSQ_W0 then (v, tsqRead s 0)
  else if a = Reg.TIME_TSQ_W0 + 0x40 then (v, tsqRead s 1)
  else
    let s := { s with latch := (latches a).foldl (fun l b => Sparse.put regDefault l b (BitVec.ofNat 32 (peekReg s b))) s.latch }
    (v, if maskOf .rc a = 0 || streamIdWord s a then s else clearRc s a)

/-- `n` consecutive words, each as a direct read (R259). -/
def readRegs : Nat → Nat → State → List Nat × State
  | 0, _, s => ([], s)
  | n + 1, a, s =>
    let x := readReg s a
    let y := readRegs n (a + 4) x.2
    (x.1 :: y.1, y.2)

/-- A word stored by its access types (R8): RW bits take the value, W1C bits written as 1 clear. -/
def storeWord (s : State) (a v : Nat) : State :=
  let rw := maskOf .rw a
  setR s a (andNot (andNot (getR s a) rw) (v &&& maskOf .w1c a) ||| (v &&& rw))

/-- Block n's INTSTAT has been written: a cause that stays set is sent again (R265). -/
def resend (s : State) (n : Nat) : State := if enabledCause s n then sendVector s n else s

/-- A new HOST_CMDTAIL (R253): a tail that is no multiple of 16, or leaves too much pending, is ignored. -/
def ringTail (s : State) (v : Nat) : State :=
  if v % 16 ≠ 0 ∨ (v % 65536 + 65536 - getR s Reg.HOST_CMDHEAD) % 65536 > 65520 then raise s 21 2
  else setR s Reg.HOST_CMDTAIL (v % 65536)

/-- A new HOST_RPLHEAD (R253): one beyond HOST_RPLTAIL is ignored. -/
def ringHead (s : State) (v : Nat) : State :=
  let v := v % 65536 / 16 * 16
  let head := getR s Reg.HOST_RPLHEAD
  if (v + 65536 - head) % 65536 > (getR s Reg.HOST_RPLTAIL + 65536 - head) % 65536 then raise s 21 2
  else setR s Reg.HOST_RPLHEAD v

/-- Stores a word both as it stands and as reads show it. -/
def setShown (s : State) (a v : Nat) : State :=
  let s := setR s a v
  { s with view := Sparse.put regDefault s.view a (BitVec.ofNat 32 v) }

/-- The words of the read window for a record, zero without one (R482, R488). -/
def showRecord (s : State) (r : Option LogRec) : State :=
  let w := match r with
    | some r => if r.bad then none else some (recWords r)
    | none => none
  let s := setShown s Reg.LOG_RDSTAT (b2n w.isSome)
  (List.range 16).foldl (fun s i => setShown s (Reg.LOG_RDDATA + 4 * i) ((w.getD []).getD i 0)) s

/-- A write of LOG_RDSEQ selects a record at once (R482). -/
def rdSelect (s : State) (v : Nat) : State :=
  let s := setR s Reg.LOG_RDSEQ v
  let x := logFetch s (v % 2 ^ 32)
  showRecord x.2 x.1

/-- A word the host writes to a register that acts at once (R13, R252). TAKE_FWCTRL takes effect only when the control processor
writes it (R240): the row FW_READY. -/
def writeNow (s : State) (a v : Nat) : State :=
  if a = Reg.HOST_CMDTAIL then ringTail s v
  else if a = Reg.HOST_RPLHEAD then ringHead s v
  else if a = Reg.HOST_CAUSEEN then sendRisen s (setR s a (v % 2 ^ 22))
  else if a = Reg.HOST_INTEN then sendRisen s (storeWord s a v)
  else if a = Reg.HOST_INTSTAT then resend (storeWord s a v) 21
  else if a = Reg.LOG_RDSEQ then rdSelect s v
  else if a = Reg.TAKE_FWCTRL then s
  else if a = Reg.PWR_WDT then wdtWrite s v
  else if a = Reg.PWR_PMBCMD then pmbWrite s v
  else mboxWrite s ((a - Reg.KPU_MBOX) / 32) v

/-- SYS words (R499, R512). -/
def commitSys (s : State) (a v : Nat) (fw : Bool) : State :=
  if a = Reg.SYS_BOOTGO then (if bit v 0 then bootGo s else s)
  else if Reg.SYS_CKEY ≤ a ∧ a < Reg.SYS_CKEY + 128 then
    if !fw then s else
    let k := (a - Reg.SYS_CKEY) / 32
    let key := patchB (ckey s k) ((a - Reg.SYS_CKEY) % 32) (beBytes 4 v)
    setF { s with pwr := { s.pwr with ckeys := s.pwr.ckeys.setIfInBounds k key } } F.SYS_CKEYVALID_VALID (getF s F.SYS_CKEYVALID_VALID ||| 2 ^ k)
  else storeWord s a v

/-- CLK words (R354, R357, R368, R370). -/
def commitClk (s : State) (a v : Nat) : State :=
  if a = Reg.CLK_CTRL then
    let s := setFB s F.CLK_CTRL_FORCEHOLD (bit v 1)
    let s := if bit v 0 then { s with clk := { s.clk with xoSuspect := false } } else s
    applySelection s
  else if a = Reg.CLK_PRIO then
    let e := fun i => let x := bits v (3 * i + 2) (3 * i); if x = 6 then 7 else x
    applySelection (setR s a ((List.range 6).map fun i => e i * 8 ^ i).sum)
  else if a = Reg.CLK_POLICY then applySelection (storeWord s a (setBits v 4 0 (min (bits v 4 0) 18)))
  else if a = Reg.CLK_TOL then setR s a (clampN 100 200000 (v % 2 ^ 18))
  else if Reg.CLK_REFCFG ≤ a ∧ a < Reg.CLK_REFCFG + 32 then
    let n := (a - Reg.CLK_REFCFG) / 8
    let old := getR s a
    let t := bits v 2 0
    let s := if (a - Reg.CLK_REFCFG) % 8 = 0 then storeWord s a (if t ≥ 5 then v - t else v) else storeWord s a v
    if getR s a = old then s else refInstall s n (bits (getR s (Reg.CLK_REFCFG + 8 * n)) 2 0 != 0)
  else if Reg.CLK_OUTCFG ≤ a ∧ a < Reg.CLK_OUTCFG + 16 then storeWord s a (if bits v 2 0 ≥ 6 then v - bits v 2 0 else v)
  else storeWord s a v

/-- TIME words (R323, R346, R347). A SET that commits loads TIME_SET at the boundary after (R346; DEDUCED, assumption 26). -/
def commitTime (s : State) (a v : Nat) : State :=
  if a = Reg.TIME_CTRL then
    let s := applyServoEn (storeWord s a (if bits v 5 4 = 3 then v - 0x30 else v))
    if bit v 8 then
      let sec := getR s Reg.TIME_SET_SLO + 2 ^ 32 * getR s Reg.TIME_SET_SHI
      enterJump { s with time := { s.time with setPend := some (4000000000 * sec + getR s Reg.TIME_SET_NS) } }
    else s
  else if (a = Reg.TIME_SVCFG ∨ a = Reg.TIME_SVCFG + 128) ∧ bits v 15 8 = 0 then storeWord s a (v + 256)
  else storeWord s a v

/-- NETx words (R295, R296, R299, R311). The link comes down where the PCS changes and where auto-negotiation starts. -/
def commitNet (s : State) (p a v : Nat) : State :=
  let o := a - p * 0x10000
  if o = Reg.NET_CFG then
    let old := getR s a
    let v := if bits v 2 0 ≥ 5 then v - bits v 2 0 else v
    let v := if p = 1 then setBits v 8 8 0 else v
    let board := fun (x : Nat) => bits x 3 0 + bits x 8 8 * 256
    if takePresent s ∧ board v ≠ board old then
      raise (storeWord s a (setBits (setBits v 3 0 (bits old 3 0)) 8 8 (bits old 8 8))) (3 + p) 5
    else
      let s := storeWord s a v
      let starts := bits v 2 0 = 2 && bit v 3 && !bit old 3
      let s := if bits v 2 0 = bits old 2 0 && !starts then s else linkChange s p false 0 false false false
      if bits v 8 8 = bits old 8 8 then s else applyServoEn s
  else if o = Reg.NET_MAXFRAME then setR s a (clampN 1518 9216 (v % 2 ^ 14))
  else if o = Reg.NET_FCTHR then
    let x := bits v 31 16
    setR s a (x * 2 ^ 16 + (if bits v 15 0 < x then bits v 15 0 else x - 1))
  else storeWord s a v

/-- CONV words (R120, R125, R127). -/
def commitConv (s : State) (a v : Nat) : State :=
  if a = Reg.CONV_XFLEN then setR s a (clampN 1 4096 (v % 2 ^ 13))
  else if a = Reg.CONV_GEN_CTRL then storeWord s a (if bits v 1 0 = 3 then v - 3 else v)
  else if a = Reg.CONV_CAP_CTRL then capCommit (storeWord s a v) (posNow s) s.tl.index
  else storeWord s a v

/-- DISP words (R184, R188). -/
def commitDisp (s : State) (a v : Nat) : State :=
  if a = Reg.DISP_CANCEL then
    if bit v 31 then
      { s with disp := { s.disp with cancels := s.disp.cancels ++ [(bits v 12 12, bits v 11 0, s.tl.frame)] } }
    else s
  else if a = Reg.DISP_CFG then
    let s := storeWord s a v
    if bit v 31 then (List.range 16).foldl (fun s i => setR s (Reg.DISP_HIST + 4 * i) 0) s else s
  else storeWord s a v

/-- XPT words (R193, R199, R201, R205). -/
def commitXpt (s : State) (a v : Nat) : State :=
  if a = Reg.XPT_NGAIN then ngainCommit s v
  else if a = Reg.XPT_CEILLIM then ceilLimCommit s v
  else if a = Reg.XPT_FMUTE then fmuteClear s v
  else if a = Reg.XPT_FMUTESET then (if bit v 0 then fmuteSet s 2 else s)
  else if a = Reg.XPT_MCTRL then (if bit v 31 then holdClear s else s)
  else storeWord s a v

/-- LOG_CTRL (R481, R483): a CLEAR in the same write as START acts first; at START firmware logs PWR_BOOT (R500, R513). -/
def logCtrlCommit (s : State) (v : Nat) : State :=
  let s := if bit v 1 then logClear s else s
  if !bit v 0 ∨ s.log.started then s else
  let s := logStart s
  if s.pwr.boot ≠ .running then s else
  logEv s 0x1401 [(1, (getR s Reg.SYS_RSTCAUSE : Int)), (1, (getF s F.SYS_BOOT_MODE : Int)), (1, (getF s F.SYS_BOOT_IMAGE : Int)),
    (1, (getF s F.SYS_BOOT_FALLBACK : Int)), (4, (fwVersion s s.fw.running : Int)), (1, (getR s Reg.PWR_LASTSHUT : Int))]

/-- What a word does at its commit, the commit number apart. `fw`: the control processor wrote it. -/
def commitWord (s : State) (a v : Nat) (fw : Bool) : State :=
  if unitAbsent s a then s else
  match a / 0x10000 with
  | 0 => commitSys s a v fw
  | 1 => commitClk s a v
  | 2 => commitTime s a v
  | 3 => commitNet s 0 a v
  | 4 => commitNet s 1 a v
  | 6 =>
    if a = Reg.GEOM_CTRL then geomCtrlCommit s v
    else if a = Reg.GEOM_KSPM then kspmCommit s v
    else if a = Reg.GEOM_FLOOR then floorCommit s v
    else if Reg.GEOM_OBJ_X ≤ a ∧ maskOf .rw a ≠ 0 then objWrite s ((a - Reg.GEOM_OBJ_X) / 32) ((a - Reg.GEOM_OBJ_X) % 32 / 4) v
    else storeWord s a v
  | 7 => if a = Reg.PATH_SLEW then setR s a (min (v % 2 ^ 15) 0x4000) else storeWord s a v
  | 8 => commitConv s a v
  | 9 => if a = Reg.KPU_CLK then kpuClkWrite s v else if a = Reg.KPU_FAULT then kpuFaultWrite s v else storeWord s a v
  | 10 => commitDisp s a v
  | 11 => commitXpt s a v
  | 12 =>
    if a = Reg.TAKE_REELBASE_LO then reelBaseCommit s true v
    else if a = Reg.TAKE_REELBASE_HI then reelBaseCommit s false v
    else storeWord s a v
  | 13 =>
    if Reg.TDM_MASK ≤ a ∧ a < Reg.TDM_MASK + 512 ∧ (a - Reg.TDM_MASK) % 32 = 0 then maskCommit s ((a - Reg.TDM_MASK) / 32) v
    else storeWord s a v
  | 15 => if Reg.PDM_GCFG ≤ a ∧ a < Reg.PDM_GCFG + 16 then spanCommit s ((a - Reg.PDM_GCFG) / 4) v else storeWord s a v
  | 16 =>
    if a = Reg.MEM_CFG then memCfgCommit s v
    else if a = Reg.MEM_FSPREQ then fspReqCommit s v
    else if a = Reg.MEM_TRAINCTRL then trainCtrlCommit s v
    else if a = Reg.MEM_RHTHR then setR s a (max 512 (v % 2 ^ 16))
    else storeWord s a v
  | 17 =>
    if a = Reg.FAB_CTRL then
      let s := storeWord s a v
      if bit v 1 then { s with fab := { s.fab with storm := false } } else s
    else storeWord s a v
  | 18 =>
    if a = Reg.PAIR_CFG ∨ a = Reg.PAIR_KEY ∨ a = Reg.PAIR_NETGRP ∨ a = Reg.PAIR_NETPORT then pairCfgCommit s a v
    else if a = Reg.PAIR_CTRL then pairCtrlCommit s v
    else if a = Reg.PAIR_EVIDMS then setR s a (clampN 10 10000 (v % 2 ^ 14))
    else storeWord s a v
  | 19 =>
    if a = Reg.LOG_CTRL then logCtrlCommit s v
    else if (a = Reg.LOG_HOURS ∨ a = Reg.LOG_PCYC) ∧ s.log.started then s
    else storeWord s a v
  | 20 =>
    if a = Reg.PWR_DARK then
      let s := storeWord s a v
      if bit v 31 then darkCommit s else s
    else storeWord s a v
  | _ => storeWord s a v

/-- A write can do something at an offset: a register of a unit that is present has a field there that is not read-only (R5, R8,
R252). -/
def writable (s : State) (a : Nat) : Bool := maskOf .rw a + maskOf .w1c a + maskOf .wo a != 0 && !unitAbsent s a

/-- A word as it commits: a 1 that would clear an event bit the hardware has set at this boundary does nothing (R9). -/
def keepFresh (s : State) (a v : Nat) : Nat := andNot v (Sparse.getN s.ccp.fresh a &&& maskOf .w1c a)

/-- A word commits (R13, R14, R30): it takes its number, acts, and may raise or send again the cause of its block (R265). One that
can do nothing where it goes is ignored and takes no number (R8, R252); any other takes its number whether or not it changes the
value there (DESIGN CHOICE, assumption 70). -/
def commitWrite (s : State) (a v : Nat) (fw : Bool) : State :=
  if !writable s a then s else
  let n := a / 0x10000
  let t := commitWord (stamp s) a (keepFresh s a v) fw
  match intStatAt n with
  | some i => if a = i then resend t n else if a = i + 4 then sendRisen s t else t
  | none => t

/-- A MODIFY at its commit: the value of its RW bits; everything else is written as 0 (R259). The old value of XPT_NGAIN is the
gain of the node selected at that moment (R193). -/
def modifyValue (s : State) (a mask v : Nat) : Nat :=
  let rw := maskOf .rw a
  let old := (if a = Reg.XPT_NGAIN then ngainRead s else getR s a) &&& rw
  (andNot old (mask &&& rw)) ||| (v &&& mask &&& rw)

/-- A direct write arrives: it acts at once or waits for the boundary (R13, R252). -/
def hostWrite (s : State) (a v : Nat) : State := if atOnce a then writeNow s a v else queueWrite s a v

/-- REGISTER_WRITE (R252): a direct write over PCIe, of a register whose offset is a. With a byte enable clear it is ignored. -/
def registerWrite (s : State) (a v be : Nat) : State :=
  if !pcieUp s then s
  else if be % 16 ≠ 15 then addCtr s Reg.HOST_PARTWR 1
  else hostWrite s (a % 0x4000000 / 4 * 4) v

/-- REGISTER_READ (R36, R252): a direct read over PCIe. -/
def registerRead (s : State) (a : Nat) : State :=
  if !pcieUp s then s else
  let x := readReg s (a % 0x4000000 / 4 * 4)
  { x.2 with rdata := beBytes 4 x.1 }

/-- INTSTAT_CLEAR (R265): a write of block n's INTSTAT; that of HOST acts at once (R13). -/
def intstatClear (s : State) (n v : Nat) : State :=
  match intStatAt n with
  | some a => hostWrite s a v
  | none => s

/-- The host writes entry n of the MSI-X table in BAR4 (R251): message address, message data, and the mask bit. A pending vector
is sent as its entry is unmasked (R265). -/
def msixEntry (s : State) (n addr data : Nat) (masked : Bool) : State :=
  if n ≥ 32 ∨ !pcieUp s then s else
  let s := { s with ccp := { s.ccp with msixAddr := Sparse.putN s.ccp.msixAddr n (addr % 2 ^ 64 / 4 * 4),
                                        msixData := Sparse.putN s.ccp.msixData n (data % 2 ^ 32) } }
  if masked then { s with ccp := { s.ccp with msixMask := s.ccp.msixMask ||| 2 ^ n } } else
  let pend := bit s.ccp.msixPend n
  let s := { s with ccp := { s.ccp with msixMask := andNot s.ccp.msixMask (2 ^ n), msixPend := andNot s.ccp.msixPend (2 ^ n) } }
  if pend then sendVector s n else s

/-- PCIE_PERST (R539): the endpoint resets while the pin is low; audio and the control processor go on. -/
def pciePerst (s : State) (low : Bool) : State :=
  { s with ccp := { s.ccp with perst := low, msixMask := if low then 0xFFFFFFFF else s.ccp.msixMask,
                               msixAddr := if low then [] else s.ccp.msixAddr, msixData := if low then [] else s.ccp.msixData,
                               msixPend := if low then 0 else s.ccp.msixPend } }

/-- REGISTER_READ, INTSTAT_CLEAR, MSIX_VECTOR_UNMASK, PCIE_PERST. -/
def execRegisterRead (a : Nat) (s : State) : Host.Outcome State Fault Refusal := .next (registerRead s a)
def execIntstatClear (n v : Nat) (s : State) : Host.Outcome State Fault Refusal := .next (intstatClear s n v)
def execMsixVectorUnmask (n : MsixEntry) (s : State) : Host.Outcome State Fault Refusal :=
  .next (msixEntry s n.entry n.addr n.data n.masked)
def execPciePerst (low : Bool) (s : State) : Host.Outcome State Fault Refusal := .next (pciePerst s low)

/-- HOST_CAUSEEN_WRITE (R265): `inten` names HOST_INTEN instead. -/
def execHostCauseenWrite (inten : Bool) (v : Nat) (s : State) : Host.Outcome State Fault Refusal :=
  .next (writeNow s (if inten then Reg.HOST_INTEN else Reg.HOST_CAUSEEN) v)

/-- LOG_START, LOG_CTRL_CLEAR (R481, R483): a write of LOG_CTRL waits for its boundary. -/
def execLogStart (v : Nat) (s : State) : Host.Outcome State Fault Refusal := .next (queueWrite s Reg.LOG_CTRL v)
def execLogCtrlClear (v : Nat) (s : State) : Host.Outcome State Fault Refusal := .next (queueWrite s Reg.LOG_CTRL v)

/-- LOG_RDSEQ_SELECT (R482). -/
def execLogRdseqSelect (v : Nat) (s : State) : Host.Outcome State Fault Refusal := .next (rdSelect s v)

end Sys2Proof.Machine
end

