-- ==== Sys2Proof/Machine/Ccp.lean ====
section
/-! DEFINITION. The hardware command engine and the firmware queue: the steps a CCP packet goes through, and what every
opcode does (R246 to R250, R257 to R262). -/

namespace Sys2Proof.Machine

open Sys2Proof

/-- Payload bytes of the reply to an accepted command, known from its parameters (R257, R261). -/
def replySize : CcpOp → Nat
  | .identify => 36
  | .ping d => d.length
  | .time => 32
  | .read _ n => 4 * n
  | .snapshot _ l => 16 + 4 * (l.map (·.2)).sum
  | .stageStatus => 28
  | .cut _ _ _ _ _ => 8
  | .reelList => 1280
  | .logRead _ n => 12 + 64 * n
  | .logInfo => 20
  | .logSpill => 512
  | .pairStatus => 8
  | .setQuery _ => 32
  | .fwStatus => 16
  | _ => 0

/-- A range of n words from a BAR0 offset on (R259). -/
def rangeOk (a n : Nat) : Bool := a % 4 == 0 && decide (1 ≤ n) && decide (a + 4 * n ≤ 0x4000000)

/-- A frame number has 60 bits (R12). -/
def frameOk (f : Nat) : Bool := decide (f < 2 ^ 60)

/-- The codeword ECC_INJECT names: the byte offset within the region of memory k (R444). -/
def injectAddr (s : State) (k ofs : Nat) : Option Nat :=
  let a := codeBase k + ofs / 16 * 16
  if k ≤ 8 ∧ memCode s a = some k then some a else none

/-- Parameters lie in range (step 8 of R246). -/
def paramsOk (s : State) : CcpOp → Bool
  | .read a n => rangeOk a n && decide (n ≤ 4096)
  | .write a l => rangeOk a l.length && decide (l.length ≤ 4091)
  | .modify a _ _ => rangeOk a 1 && maskOf .rw a != 0 && !unitAbsent s a
  | .snapshot f l =>
    frameOk f && decide (1 ≤ l.length ∧ l.length ≤ 16) && l.all (fun r => rangeOk r.1 r.2) && decide ((l.map (·.2)).sum ≤ 4092)
  | .stageData o _ => o % 16 == 0
  | .stageFromReel k => decide (k < 64)
  | .cut m h t0 t1 _ => decide (h ≤ 1) && (if m = 0 then frameOk t0 && t1 == 0 else m == 1 && decide (t1 < 1000000000))
  | .reelBegin k _ => decide (k < 64)
  | .reelData k _ _ => decide (k < 64)
  | .reelEnd k => decide (k < 64)
  | .reelDelete k => decide (k < 64)
  | .logRead _ n => decide (1 ≤ n ∧ n ≤ 255)
  | .pairSwitchover f => frameOk f
  | .setBegin _ k _ => decide (k ≤ 3)
  | .setChange _ k f x => decide (k ≤ 3) && frameOk f && decide (x ≤ 4096)
  | .setQuery b => decide (b < busCount s)
  | .genStart f => frameOk f
  | .genStop f => frameOk f
  | .fwBegin i n => decide (i ≤ 1) && decide (n ≤ 0x200000)
  | .fwSwitch i f => decide (i ≤ 1) && frameOk f
  | .memFsp t => decide (t ≤ 1)
  | .eccInject k kind o => decide (kind ≤ 1) && (injectAddr s k o).isSome
  | _ => true

/-- The opcodes the hardware command engine executes itself, whether known or not (R250). -/
def hwOpcode (code : Nat) : Bool := code / 256 == 2

/-- The opcodes that accept the AT flag (R261). -/
def atOpcode (code : Nat) : Bool := code == 0x0202 || code == 0x0203

/-- A resynchronisation owns the staging area: stage, cut and set commands are not permitted (R465). -/
def stagingOp (code : Nat) : Bool := code / 256 == 3 || code == 0x0401 || code == 0x0402 || (decide (0x0701 ≤ code) && decide (code ≤ 0x0705))

/-- A change waits for the first boundary after now, among the others in its order of arrival (R30 order 4, R249). -/
def pendOp (s : State) (op : CcpOp) (ctx : Ctx) : State := pendAs s ctx.arr (.op op (some ctx))

/-- A change goes into the frame queue and is replied to (R248). -/
def queueFrame (s : State) (f : Nat) (c : Change) (ctx : Ctx) : State :=
  if f ≤ s.tl.frame then reply s ctx .framePast []
  else if s.ccp.frameQ.length ≥ 256 then reply s ctx .queueFull []
  else reply (frameAs s f ctx.arr c) ctx .ok []

/-- SET_CHANGE, marked F in R261, goes into the frame queue (R248). It is judged where it commits, before its prime begins (R117,
R119): it waits there for the next boundary, at order 3 of R30, and is replied to then (DEDUCED, assumption 71). -/
def setChangeCmd (s : State) (b k fx x : Nat) (ctx : Ctx) : State :=
  if fx ≤ s.tl.frame then reply s ctx .framePast []
  else if s.ccp.frameQ.length ≥ 256 then reply s ctx .queueFull []
  else frameAs s (s.tl.frame + 1) ctx.arr (.op (.setChange b k fx x) (some ctx))

/-- READ (R259). -/
def readCmd (s : State) (a n : Nat) (ctx : Ctx) : State :=
  let x := readRegs n a s
  reply x.2 ctx .ok (x.1.flatMap (beBytes 4))

/-- Consecutive words, each as a direct write (R259). -/
def writeWords : State → Nat → List Nat → State
  | s, _, [] => s
  | s, a, v :: t => writeWords (hostWrite s a v) (a + 4) t

/-- WRITE, with AT or without (R248, R259). -/
def writeCmd (s : State) (at_ : Option Nat) (a : Nat) (l : List Nat) (ctx : Ctx) : State :=
  match at_ with
  | some f => queueFrame s f (.write a l false) ctx
  | none => reply (writeWords s a l) ctx .ok []

/-- MODIFY, with AT or without (R248, R259). -/
def modifyCmd (s : State) (at_ : Option Nat) (a m v : Nat) (ctx : Ctx) : State :=
  match at_ with
  | some f => queueFrame s f (.modify a m v) ctx
  | none =>
    reply (if atOnce a then writeNow s a (modifyValue s a m v) else pendAs s ctx.arr (.modify a m v)) ctx .ok []

/-- SNAPSHOT (R260): the reply follows its capture. -/
def snapshotCmd (s : State) (f : Nat) (l : List (Nat × Nat)) (ctx : Ctx) : State :=
  if f ≠ 0 ∧ f ≤ s.tl.frame then reply s ctx .framePast []
  else if s.ccp.snaps.length ≥ 8 then reply s ctx .queueFull []
  else { s with ccp := { s.ccp with snaps := s.ccp.snaps ++ [{ frame := f, ranges := l, ctx := ctx }] } }

/-- IDENTIFY (R261). -/
def identifyBytes (s : State) : Bytes :=
  beBytes 4 (peekReg s Reg.SYS_ID) ++ beBytes 4 (peekReg s Reg.SYS_STEP) ++ beBytes 4 (peekReg s Reg.SYS_DEVID_HI) ++
  beBytes 4 (peekReg s Reg.SYS_DEVID_LO) ++ beBytes 4 (fwVersion s 0) ++ beBytes 4 (fwVersion s 1) ++ beBytes 1 (s.fw.running % 2) ++
  beBytes 1 (b2n s.hw.secure) ++ beBytes 1 s.hw.pairId ++ beBytes 1 (roleCode s.pair.role) ++ beBytes 8 (memUsable s)

/-- TIME (R261): values of the most recent boundary. -/
def timeBytes (s : State) : Bytes :=
  beBytes 8 s.tl.frame ++ beBytes 8 s.tl.index ++ beBytes 4 (getView s Reg.TIME_NOW_SHI) ++ beBytes 4 (getView s Reg.TIME_NOW_SLO) ++
  beBytes 4 (getView s Reg.TIME_NOW_NS / 4) ++ beBytes 1 s.tl.rate ++ beBytes 1 s.tl.depth ++
  beBytes 1 (bits (getView s Reg.CLK_STATUS) 2 0) ++ zeroBytes 1

/-- Up to `n` records from a SEQ on, below the head (R482). -/
def logRecords : Nat → Nat → State → List Bytes × State
  | 0, _, s => ([], s)
  | n + 1, seq, s =>
    if seq = s.log.head then ([], s) else
    match logFetch s seq with
    | (none, s) => ([], s)
    | (some r, s) =>
      let x := logRecords n ((seq + 1) % 2 ^ 32) s
      (recBytes r :: x.1, x.2)

/-- LOG_READ (R261, R482). -/
def logReadCmd (s : State) (first n : Nat) (ctx : Ctx) : State :=
  let h1 := s.log.head
  if (first + 2 ^ 32 - s.log.first) % 2 ^ 32 ≥ (h1 + 2 ^ 32 - s.log.first) % 2 ^ 32 then reply s ctx .logRange []
  else
    let x := logRecords n first s
    reply x.2 ctx .ok (beBytes 4 h1 ++ beBytes 4 x.1.length ++ x.1.flatMap id ++ beBytes 4 x.2.log.head)

/-- LOG_INFO (R261). -/
def logInfoBytes (s : State) : Bytes :=
  let l := s.log
  beBytes 4 l.head ++ beBytes 4 l.first ++ beBytes 4 l.recs.length ++ beBytes 4 (b2n l.full + 2 * b2n l.failed) ++ beBytes 4 l.lost

/-- LOG_SPILL (R261, R485): the eight slots, zero where empty. -/
def logSpillBytes (s : State) : Bytes := ((s.log.spill.flatMap recBytes) ++ zeroBytes 512).take 512

/-- SET_BEGIN (R104, R261). -/
def setBeginCmd (s : State) (bus slot size : Nat) (ctx : Ctx) : State :=
  if bus ≥ busCount s ∨ size > 32788 then reply s ctx .setInvalid []
  else if slotBusy s bus slot then reply (addCtr s Reg.CONV_BUSYREJ 1) ctx .convBusy []
  else
    let l : SetLoad := { bus := bus, slot := slot, size := size, bytes := zeroBytes size, got := 0 }
    reply { s with conv := { s.conv with load := some l } } ctx .ok []

/-- SET_DATA (R261): bytes received count for the length that SET_END judges (R104). -/
def setDataCmd (s : State) (ofs : Nat) (d : Bytes) (ctx : Ctx) : State :=
  match s.conv.load with
  | some l =>
    if ofs + d.length > l.size then reply s ctx .setInvalid []
    else
      let l' := { l with bytes := patchB l.bytes ofs d, got := l.got + d.length }
      reply { s with conv := { s.conv with load := some l' } } ctx .ok []
  | none => reply s ctx .setInvalid []

/-- SET_QUERY: the channel entry of R129 as it reads. -/
def setQueryBytes (s : State) (bus : Nat) : Bytes := (List.range 8).flatMap fun i => beBytes 4 (peekReg s (Reg.CONV_CH0 + 32 * bus + 4 * i))

/-- ECC_INJECT (R444). -/
def eccInjectCmd (s : State) (k kind ofs : Nat) (ctx : Ctx) : State :=
  if s.hw.secure then reply s ctx .notPermitted [] else
  match injectAddr s k ofs with
  | some a => reply (injectAt s a (if kind = 0 then 1 else 3)) ctx .ok []
  | none => reply s ctx .badParam []

/-- LOG_CLEAR: refused while the log SRAM has failed (R483). -/
def logClearCmd (s : State) (ctx : Ctx) : State :=
  if s.log.failed then reply s ctx .notPermitted [] else pendOp s .logClear ctx

/-- PAIR_SWITCHOVER: checked, placed in the frame queue, and sent to the peer (R460). -/
def pairSwitchCmd (s : State) (f : Nat) (ctx : Ctx) : State :=
  match switchCheck s f with
  | some st => reply s ctx st []
  | none =>
    if s.ccp.frameQ.length ≥ 256 then reply s ctx .queueFull []
    else
      reply (pairSend (frameAs s f ctx.arr (.op (.pairSwitchover f) none)) 5 (beBytes 8 f)) ctx .ok []

/-- SET_END; an adaptive set accepted by the ACTIVE unit goes to its standby (R104, R471). -/
def setEndCmd (s : State) (ctx : Ctx) : State :=
  let x := setEnd s
  let s' := match x.1, s.conv.load with
    | .ok, some l => (match parseSet l.bytes l.got l.size with
      | .ok f => forwardSet x.2 l.bus l.slot f
      | .error _ => x.2)
    | _, _ => x.2
  reply s' ctx x.1 []

/-- A command the engine executes itself (R250, R259, R260). -/
def hwExec (s : State) (at_ : Option Nat) (op : CcpOp) (ctx : Ctx) : State :=
  match op with
  | .read a n => readCmd s a n ctx
  | .write a l => writeCmd s at_ a l ctx
  | .modify a m v => modifyCmd s at_ a m v ctx
  | .snapshot f l => snapshotCmd s f l ctx
  | _ => s

/-- Firmware executes one command (R248, R249, R261). -/
def fwExec (s : State) (op : CcpOp) (ctx : Ctx) : State :=
  if pairOwnsStaging s && stagingOp (opcodeOf op) then reply s ctx .notPermitted [] else
  match op with
  | .identify => reply s ctx .ok (identifyBytes s)
  | .ping d => reply s ctx .ok d
  | .time => reply s ctx .ok (timeBytes s)
  | .stageBegin n g => stageBegin s n g (some ctx)
  | .stageData o d => stageData s o d (some ctx)
  | .stageEnd => stageEnd s (some ctx)
  | .stageFromReel k => stageFromReel s k (some ctx)
  | .stageDiscard => if s.take.stage = .scheduled then reply s ctx .cutPending [] else pendOp s .stageDiscard ctx
  | .stageStatus => stageStatus s (some ctx)
  | .cut m h t0 t1 g => cutCommand s m h t0 t1 g (some ctx)
  | .cutCancel => pendOp s .cutCancel ctx
  | .reelBegin k n => reelBegin s k n (some ctx)
  | .reelData k o d => reelData s k o d (some ctx)
  | .reelEnd k => reelEnd s k (some ctx)
  | .reelDelete k => reelDelete s k (some ctx)
  | .reelList => reelList s (some ctx)
  | .logRead a n => logReadCmd s a n ctx
  | .logInfo => reply s ctx .ok (logInfoBytes s)
  | .logSpill => reply s ctx .ok (logSpillBytes s)
  | .logClear => logClearCmd s ctx
  | .pairStatus => pairStatus s (some ctx)
  | .pairSwitchover f => pairSwitchCmd s f ctx
  | .pairResync => pairResync s (some ctx)
  | .setBegin b k n => setBeginCmd s b k n ctx
  | .setData o d => setDataCmd s o d ctx
  | .setEnd => setEndCmd s ctx
  | .setChange b k f x => setChangeCmd s b k f x ctx
  | .setQuery b => reply s ctx .ok (setQueryBytes s b)
  | .genStart f => queueFrame s f (.op (.genStart f) none) ctx
  | .genStop f => queueFrame s f (.op (.genStop f) none) ctx
  | .fwBegin i n => fwBegin s i n (some ctx)
  | .fwData o d => fwData s o d (some ctx)
  | .fwEnd => fwEnd s (some ctx)
  | .fwSwitch i f => fwSwitch s i f (some ctx)
  | .fwStatus => fwStatus s (some ctx)
  | .metaInject _ => reply s ctx .ok []
  | .memFsp t => fspRequest s t (some ctx)
  | .memRetrain => memTrain s (getF s F.MEM_TRAINCTRL_SETS) (some ctx)
  | .eccInject k kind o => eccInjectCmd s k kind o ctx
  | _ => s

/-- What a CCP change does at its boundary, with its reply where one is owed (R30, R119, R120, R221, R226, R460, R483). -/
def opCommit (s : State) (op : CcpOp) (ctx : Option Ctx) : State :=
  match op with
  | .stageDiscard =>
    let s := if s.take.stage = .scheduled ∨ s.take.stage = .empty then s else stamp s
    stageDiscard s ctx
  | .cutCancel => cutCancel (if s.take.stage = .scheduled then stamp s else s) ctx
  | .logClear => if s.log.failed then replyTo s ctx .notPermitted [] else replyTo (logClear (stamp s)) ctx .ok []
  | .setChange b k f x =>
    let r := setChange s b k f x
    if ctx.isNone then setOutcome r.2 b r.1 else replyTo r.2 ctx r.1 []
  | .genStart _ => { stamp s with conv := { s.conv with gen := { s.conv.gen with from_ := some (posNow s), till := none } } }
  | .genStop _ => { stamp s with conv := { s.conv with gen := { s.conv.gen with till := some (posNow s) } } }
  | .pairSwitchover _ => switchNow (stamp s)
  | .fwSwitch img f => fwSwitchNow s img f
  | _ => s

/-- A word of a write at its commit (R13): that of a register of at-once writes too leaves the event bits of this boundary (R9). -/
def commitAny (s : State) (a v : Nat) (fw : Bool) : State :=
  if atOnce a then writeNow s a (keepFresh s a v) else commitWrite s a v fw

/-- Words of a WRITE at their commit, each with its own number (R13, R14). -/
def commitWords (fw : Bool) : State → Nat → List Nat → State
  | s, _, [] => s
  | s, a, v :: t => commitWords fw (commitAny s a v fw) (a + 4) t

/-- A change commits (R30 orders 3 and 4). -/
def commitChange (s : State) : Change → State
  | .write a l fw => commitWords fw s a l
  | .modify a m v => commitAny s a (modifyValue s a m v) false
  | .op c ctx => opCommit s c ctx

/-- Firmware executes its queue through the command with this session, number and opcode (R249); only firmware that is ready
does (R238). -/
def fwRun (x : Sess) (seq code : Nat) : Nat → State → State
  | 0, s => s
  | n + 1, s =>
    if !s.fw.ready then s else
    match s.ccp.fwQ with
    | [] => s
    | (ctx, _, op) :: rest =>
      let s := fwExec { s with ccp := { s.ccp with fwQ := rest } } op ctx
      if ctx.sess = x ∧ ctx.seq = seq ∧ ctx.opcode = code then s else fwRun x seq code n s

/-- A command without a valid TAG, or without AUTH where it must carry it, is dropped (R258). -/
def authDrop (s : State) (x : Sess) : State :=
  let s := raise (addCtr s Reg.HOST_AUTHFAIL 1) 21 4
  match x with
  | .udp ip port =>
    let s' := logRun s 0x1501 [(4, (ip : Int)), (2, (port : Int))] 0 (!s.ccp.authRun)
    { s' with ccp := { s'.ccp with authRun := true } }
  | _ => s

/-- Step 2 of R246. -/
def authOk (s : State) (x : Sess) (p : CcpPkt) : Bool :=
  match p.auth with
  | some (k, tag) => keyValid s k && ccpTag s p.body k == tag
  | none => !(isUdp x && s.hw.secure)

/-- Step 3 of R246: whether the packet is a new command, and what else the sequence rules do with it (R247). -/
def sequenceRule (s : State) (ctx : Ctx) : Bool × State :=
  let v := (sessionOf s ctx.sess).getD { sess := ctx.sess, last := [], cached := none, highest := none }
  let kept := putSession s v
  match v.last.find? (·.1 == ctx.seq) with
  | some (_, done) =>
    if !done then (false, kept)
    else if (v.last.head?.map (·.1)) = some ctx.seq then
      match v.cached with
      | some b => (false, placeReply (addCtr kept Reg.HOST_RETRY 1) ctx b)
      | none => (false, kept)
    else (false, placeReply (addCtr kept Reg.HOST_DUP 1) ctx (replyPacket kept ctx Status.duplicate.code []))
  | none =>
    let stale := match v.highest with | some h => isUdp ctx.sess && s.hw.secure && serialBefore ctx.seq h | none => false
    if stale then (false, placeReply kept ctx (replyPacket kept ctx Status.seqStale.code []))
    else
      let high := match v.highest with | some h => if serialBefore h ctx.seq then ctx.seq else h | none => ctx.seq
      (true, putSession s { v with last := ((ctx.seq, false) :: v.last).take 8, cached := none, highest := some high })

/-- The reply to a UDP command fits one frame of the port it arrived on (R257). -/
def replyFits (s : State) (ctx : Ctx) (op : CcpOp) : Bool :=
  let tag := if getF s (netF ctx.nport F.NET_CFG_TXTAG) = 1 then 4 else 0
  !isUdp ctx.sess || decide (46 + tag + 20 + (if ctx.auth.isSome then 20 else 0) + replySize op ≤ getR s (netR ctx.nport Reg.NET_MAXFRAME) % 2 ^ 14)

/-- Steps 6 to 9 of R246. -/
def checkCommand (s : State) (ctx : Ctx) (at_ : Option Nat) (b : Bytes) : Except Status CcpOp :=
  match parseParams ctx.opcode b with
  | .error e => .error e
  | .ok op =>
    if !paramsOk s op then .error .badParam
    else if !replyFits s ctx op then .error .badLength
    else match at_ with
      | some f => if f ≤ s.tl.frame then .error .framePast else .ok op
      | none => .ok op

/-- Steps 4 to 10 of R246 for a new command. The metadata of META_INJECT is complete as it arrives (R288); firmware replies. -/
def takeCommand (s : State) (ctx : Ctx) (p : CcpPkt) : State :=
  let s := addCtr s Reg.HOST_CMDS 1
  let at_ := bit p.flags 1
  if p.version ≠ 1 then reply s ctx .badVersion []
  else if bit p.flags 0 || p.flags / 8 != 0 || p.status != 0 || (at_ && !atOpcode p.opcode) then reply s ctx .badFlags []
  else if at_ && decide (p.payload.length < 8) then reply s ctx .badLength []
  else
    let f := if at_ then some (beAt p.payload 0 8) else none
    match checkCommand s ctx f (if at_ then p.payload.drop 8 else p.payload) with
    | .error e => reply s ctx e []
    | .ok op =>
      if hwOpcode p.opcode then hwExec s f op ctx
      else if s.fw.restarting then reply s ctx .fwRestarting []
      else if s.ccp.fwQ.length ≥ 32 then reply s ctx .queueFull []
      else
        let s := match op with | .metaInject d => metaInject s d | _ => s
        { s with ccp := { s.ccp with fwQ := s.ccp.fwQ ++ [(ctx, f, op)] } }

/-- A packet of the right form goes through steps 2 to 10 of R246. -/
def takePkt (s : State) (x : Sess) (nport mac : Nat) (p : CcpPkt) : State :=
  if !authOk s x p then authDrop s x else
  let s := if isUdp x then { s with ccp := { s.ccp with authRun := false } } else s
  let ctx : Ctx := {
    sess := x, nport := nport, mac := mac, seq := p.seq, opcode := p.opcode, auth := p.auth.map (·.1), arr := s.ccp.arrivals }
  match sequenceRule s ctx with
  | (true, s) => takeCommand { s with ccp := { s.ccp with arrivals := s.ccp.arrivals + 1 } } ctx p
  | (false, s) => s

/-- A packet that fails step 1 is dropped (R246, R266). -/
def badPacket (s : State) : State := raise (addCtr s Reg.HOST_BADCRC 1) 21 3

/-- The engine takes one packet (R246). -/
def takePacket (s : State) (x : Sess) (nport mac : Nat) (b : Bytes) : State :=
  match parsePacket b with
  | none => badPacket s
  | some p => takePkt s x nport mac p

/-- `n` bytes of the command ring from an offset on (R253). -/
def cmdBytes (s : State) (head n : Nat) : Bytes := (List.range n).map fun i => Memory.read s.ccp.bar2 ((head + i) % 65536)

/-- HOST_CMDHEAD advances (R253). -/
def cmdHead (s : State) (v : Nat) : State := raise (setR s Reg.HOST_CMDHEAD (v % 65536)) 21 1

/-- The engine takes the packet at HOST_CMDHEAD; one that fails step 1 discards every byte up to the tail (R253). -/
def ringTake (s : State) : State :=
  let head := getR s Reg.HOST_CMDHEAD
  let tail := getR s Reg.HOST_CMDTAIL
  let n := (tail + 65536 - head) % 65536
  let len := packetLen (cmdBytes s head 16)
  match (if len ≤ n then parsePacket (cmdBytes s head len) else none) with
  | none => raise (cmdHead (badPacket s) tail) 21 2
  | some p => takePkt (cmdHead s (head + (len + 15) / 16 * 16)) .pcie 0 0 p

/-- The engine takes packets from the command ring while no reply waits for ring space (R253). -/
def drainRing : Nat → State → State
  | 0, s => s
  | n + 1, s =>
    if s.ccp.ringHeld ≠ [] ∨ getR s Reg.HOST_CMDHEAD = getR s Reg.HOST_CMDTAIL then s else drainRing n (ringTake s)

/-- The command ring after anything that may have moved its tail or freed reply space. -/
def serveRing (s : State) : State := drainRing 4096 s

/-- The engine takes packets from the quad-SPI buffer while the reply queue can hold a reply (R255). -/
def drainSpi : Nat → State → State
  | 0, s => s
  | n + 1, s =>
    match s.ccp.spiIn with
    | [] => s
    | b :: t =>
      if s.ccp.spiHeld ≠ [] ∨ (s.ccp.spiOut.map (·.length)).sum + 16424 > 65536 then s
      else drainSpi n (takePacket (raise { s with ccp := { s.ccp with spiIn := t } } 21 1) .qspi 0 0 b)

/-- The quad-SPI buffer holds two packets. -/
def serveSpi (s : State) : State := drainSpi 2 s

/-- Whether the interface of a session can deliver a command (R539). -/
def sessUp (s : State) (x : Sess) : Bool := if x = .pcie then pcieUp s else powered s

/-- HOST_CMDTAIL_WRITE: the host has placed `data` in the ring at the tail and writes the new tail (R253). -/
def cmdTailWrite (s : State) (data : Bytes) (v : Nat) : State :=
  if !pcieUp s then s else
  let s := { s with ccp := { s.ccp with bar2 := ringStore s.ccp.bar2 0 (getR s Reg.HOST_CMDTAIL) (data.take 65536) } }
  serveRing (writeNow s Reg.HOST_CMDTAIL v)

/-- WRITE_CMD (R254, R255): the packet is taken when the chip select rises. -/
def writeCmdSpi (s : State) (b : Bytes) : State :=
  if !powered s then s
  else if s.ccp.spiIn.length ≥ 2 then
    let s := { s with ccp := { s.ccp with spiOvf := true } }
    raise (addCtr s Reg.HOST_SPIOVF 1) 21 6
  else serveRing (serveSpi { s with ccp := { s.ccp with spiIn := s.ccp.spiIn ++ [b] } })

/-- A host places one packet in the command ring, padded to 16 bytes, where it has room for it (R253). -/
def ringSend (s : State) (b : Bytes) : State :=
  let tail := getR s Reg.HOST_CMDTAIL
  let b := padTo 16 b
  if b.length > ringFree (getR s Reg.HOST_CMDHEAD) tail then s else cmdTailWrite s b ((tail + b.length) % 65536)

/-- A packet arrives over the transport of its session: the command ring (R253), quad-SPI (R255) or UDP (R256). -/
def deliverPacket (s : State) (x : Sess) (nport mac : Nat) (b : Bytes) : State :=
  match x with
  | .pcie => ringSend s b
  | .qspi => writeCmdSpi s b
  | .udp _ _ => takePacket s x nport mac b

/-- A command row: its packet arrives, and firmware that is ready executes its queue through it (R246, R249). A packet that repeats a
command still waiting there is a resend, which step 3 of R246 drops. -/
def ccpCommand (h : CcpHdr) (op : CcpOp) (s : State) : State :=
  if !sessUp s h.sess then s else
  serveRing (fwRun h.sess (h.seq % 2 ^ 32) (opcodeOf op) 32 (deliverPacket s h.sess h.nport h.mac (commandPacket h op)))

/-- IDENTIFY (R261): one command packet over its session. -/
def execIdentify (h : CcpHdr) (s : State) : Host.Outcome State Fault Refusal :=
  .next (ccpCommand h .identify s)

/-- PING (R261). -/
def execPing (h : CcpHdr) (data : List (BitVec 8)) (s : State) : Host.Outcome State Fault Refusal :=
  .next (ccpCommand h (.ping data) s)

/-- TIME (R261). -/
def execTime (h : CcpHdr) (s : State) : Host.Outcome State Fault Refusal :=
  .next (ccpCommand h .time s)

/-- READ (R261). -/
def execRead (h : CcpHdr) (a n : Nat) (s : State) : Host.Outcome State Fault Refusal :=
  .next (ccpCommand h (.read a n) s)

/-- WRITE (R261). -/
def execWrite (h : CcpHdr) (a : Nat) (l : List Nat) (s : State) : Host.Outcome State Fault Refusal :=
  .next (ccpCommand h (.write a l) s)

/-- MODIFY (R261). -/
def execModify (h : CcpHdr) (a m v : Nat) (s : State) : Host.Outcome State Fault Refusal :=
  .next (ccpCommand h (.modify a m v) s)

/-- SNAPSHOT (R261). -/
def execSnapshot (h : CcpHdr) (f : Nat) (l : List (Nat × Nat)) (s : State) : Host.Outcome State Fault Refusal :=
  .next (ccpCommand h (.snapshot f l) s)

/-- STAGE_BEGIN (R261). -/
def execStageBegin (h : CcpHdr) (n g : Nat) (s : State) : Host.Outcome State Fault Refusal :=
  .next (ccpCommand h (.stageBegin n g) s)

/-- STAGE_DATA (R261). -/
def execStageData (h : CcpHdr) (o : Nat) (d : List (BitVec 8)) (s : State) : Host.Outcome State Fault Refusal :=
  .next (ccpCommand h (.stageData o d) s)

/-- STAGE_END (R261). -/
def execStageEnd (h : CcpHdr) (s : State) : Host.Outcome State Fault Refusal :=
  .next (ccpCommand h .stageEnd s)

/-- STAGE_FROM_REEL (R261). -/
def execStageFromReel (h : CcpHdr) (k : Nat) (s : State) : Host.Outcome State Fault Refusal :=
  .next (ccpCommand h (.stageFromReel k) s)

/-- STAGE_DISCARD (R261). -/
def execStageDiscard (h : CcpHdr) (s : State) : Host.Outcome State Fault Refusal :=
  .next (ccpCommand h .stageDiscard s)

/-- STAGE_STATUS (R261). -/
def execStageStatus (h : CcpHdr) (s : State) : Host.Outcome State Fault Refusal :=
  .next (ccpCommand h .stageStatus s)

/-- CUT (R261). -/
def execCut (h : CcpHdr) (m hard t0 t1 : Nat) (g : List (BitVec 8)) (s : State) : Host.Outcome State Fault Refusal :=
  .next (ccpCommand h (.cut m hard t0 t1 g) s)

/-- CUT_CANCEL (R261). -/
def execCutCancel (h : CcpHdr) (s : State) : Host.Outcome State Fault Refusal :=
  .next (ccpCommand h .cutCancel s)

/-- REEL_BEGIN (R261). -/
def execReelBegin (h : CcpHdr) (k n : Nat) (s : State) : Host.Outcome State Fault Refusal :=
  .next (ccpCommand h (.reelBegin k n) s)

/-- REEL_DATA (R261). -/
def execReelData (h : CcpHdr) (k o : Nat) (d : List (BitVec 8)) (s : State) : Host.Outcome State Fault Refusal :=
  .next (ccpCommand h (.reelData k o d) s)

/-- REEL_END (R261). -/
def execReelEnd (h : CcpHdr) (k : Nat) (s : State) : Host.Outcome State Fault Refusal :=
  .next (ccpCommand h (.reelEnd k) s)

/-- REEL_DELETE (R261). -/
def execReelDelete (h : CcpHdr) (k : Nat) (s : State) : Host.Outcome State Fault Refusal :=
  .next (ccpCommand h (.reelDelete k) s)

/-- REEL_LIST (R261). -/
def execReelList (h : CcpHdr) (s : State) : Host.Outcome State Fault Refusal :=
  .next (ccpCommand h .reelList s)

/-- LOG_READ (R261). -/
def execLogRead (h : CcpHdr) (a n : Nat) (s : State) : Host.Outcome State Fault Refusal :=
  .next (ccpCommand h (.logRead a n) s)

/-- LOG_INFO (R261). -/
def execLogInfo (h : CcpHdr) (s : State) : Host.Outcome State Fault Refusal :=
  .next (ccpCommand h .logInfo s)

/-- LOG_SPILL (R261). -/
def execLogSpill (h : CcpHdr) (s : State) : Host.Outcome State Fault Refusal :=
  .next (ccpCommand h .logSpill s)

/-- LOG_CLEAR (R261). -/
def execLogClear (h : CcpHdr) (s : State) : Host.Outcome State Fault Refusal :=
  .next (ccpCommand h .logClear s)

/-- PAIR_STATUS (R261). -/
def execPairStatus (h : CcpHdr) (s : State) : Host.Outcome State Fault Refusal :=
  .next (ccpCommand h .pairStatus s)

/-- PAIR_SWITCHOVER (R261). -/
def execPairSwitchover (h : CcpHdr) (f : Nat) (s : State) : Host.Outcome State Fault Refusal :=
  .next (ccpCommand h (.pairSwitchover f) s)

/-- PAIR_RESYNC (R261). -/
def execPairResync (h : CcpHdr) (s : State) : Host.Outcome State Fault Refusal :=
  .next (ccpCommand h .pairResync s)

/-- SET_BEGIN (R261). -/
def execSetBegin (h : CcpHdr) (b k n : Nat) (s : State) : Host.Outcome State Fault Refusal :=
  .next (ccpCommand h (.setBegin b k n) s)

/-- SET_DATA (R261). -/
def execSetData (h : CcpHdr) (o : Nat) (d : List (BitVec 8)) (s : State) : Host.Outcome State Fault Refusal :=
  .next (ccpCommand h (.setData o d) s)

/-- SET_END (R261). -/
def execSetEnd (h : CcpHdr) (s : State) : Host.Outcome State Fault Refusal :=
  .next (ccpCommand h .setEnd s)

/-- SET_CHANGE (R261). -/
def execSetChange (h : CcpHdr) (b k f x : Nat) (s : State) : Host.Outcome State Fault Refusal :=
  .next (ccpCommand h (.setChange b k f x) s)

/-- SET_QUERY (R261). -/
def execSetQuery (h : CcpHdr) (b : Nat) (s : State) : Host.Outcome State Fault Refusal :=
  .next (ccpCommand h (.setQuery b) s)

/-- GEN_START (R261). -/
def execGenStart (h : CcpHdr) (f : Nat) (s : State) : Host.Outcome State Fault Refusal :=
  .next (ccpCommand h (.genStart f) s)

/-- GEN_STOP (R261). -/
def execGenStop (h : CcpHdr) (f : Nat) (s : State) : Host.Outcome State Fault Refusal :=
  .next (ccpCommand h (.genStop f) s)

/-- FW_BEGIN (R261). -/
def execFwBegin (h : CcpHdr) (i n : Nat) (s : State) : Host.Outcome State Fault Refusal :=
  .next (ccpCommand h (.fwBegin i n) s)

/-- FW_DATA (R261). -/
def execFwData (h : CcpHdr) (o : Nat) (d : List (BitVec 8)) (s : State) : Host.Outcome State Fault Refusal :=
  .next (ccpCommand h (.fwData o d) s)

/-- FW_END (R261). -/
def execFwEnd (h : CcpHdr) (s : State) : Host.Outcome State Fault Refusal :=
  .next (ccpCommand h .fwEnd s)

/-- FW_SWITCH (R261). -/
def execFwSwitch (h : CcpHdr) (i f : Nat) (s : State) : Host.Outcome State Fault Refusal :=
  .next (ccpCommand h (.fwSwitch i f) s)

/-- FW_STATUS (R261). -/
def execFwStatus (h : CcpHdr) (s : State) : Host.Outcome State Fault Refusal :=
  .next (ccpCommand h .fwStatus s)

/-- META_INJECT (R261). -/
def execMetaInject (h : CcpHdr) (b : List (BitVec 8)) (s : State) : Host.Outcome State Fault Refusal :=
  .next (ccpCommand h (.metaInject b) s)

/-- MEM_FSP (R261). -/
def execMemFsp (h : CcpHdr) (t : Nat) (s : State) : Host.Outcome State Fault Refusal :=
  .next (ccpCommand h (.memFsp t) s)

/-- MEM_RETRAIN (R261). -/
def execMemRetrain (h : CcpHdr) (s : State) : Host.Outcome State Fault Refusal :=
  .next (ccpCommand h .memRetrain s)

/-- ECC_INJECT (R261). -/
def execEccInject (h : CcpHdr) (k kind o : Nat) (s : State) : Host.Outcome State Fault Refusal :=
  .next (ccpCommand h (.eccInject k kind o) s)

end Sys2Proof.Machine
end

