-- ==== Sys2Proof/Machine/NetRx.lean ====
section
/-! DEFINITION. Receive paths of the Ethernet ports: classes of frames, filters, dispatch, flow control, PTP forwarding, chain
mode and wake patterns (R299 to R313, R276, R328, R336, R337). -/

namespace Sys2Proof.Machine

open Sys2Proof

/-- The flags of a received frame by the bits of R300: RUNT 1, OVERSIZE 2, TRUNC 4, FCS 8, ALIGN 16 (R299). -/
def frameFlags (s : State) (p : Nat) (b : Bytes) (codeErr align : Bool) : Nat :=
  let n := b.length
  let trunc := decide (n > 9600)
  let fcs := codeErr || (!trunc && decide (5 ≤ n) && crc32e (b.take (n - 4)) != leAt b (n - 4) 4)
  b2n (decide (n < 64)) + 2 * b2n (decide (n > getF s (netF p F.NET_MAXFRAME_M)) && !trunc) + 4 * b2n trunc + 8 * b2n fcs + 16 * b2n align

/-- The one counter of a bad frame (R300). -/
def badCounter (flags : Nat) : Nat :=
  if bit flags 2 then Reg.NET_TRUNC else if bit flags 0 then Reg.NET_RUNT else if bit flags 1 then Reg.NET_OVERSIZE
  else if bit flags 4 then Reg.NET_ALIGN else Reg.NET_FCSERR

/-- A frame goes into the control processor queue with its status word (R300, R303). -/
def cpqPut (s : State) (p flags stamp : Nat) (tagged : Bool) (b : Bytes) : State :=
  let v := portOf s p
  if v.cpq.length ≥ 128 then raise (addCtr s (netR p Reg.NET_CPQDROP) 1) (3 + p) 2
  else
    let st := b2n tagged * 2 ^ 22 + p * 2 ^ 21 + flags * 2 ^ 16 + b.length
    setPort s p { v with cpq := v.cpq ++ [{ status := st, stamp := stamp, bytes := b }] }

/-- A dropped frame of a filter (R301 to R303). -/
def filtered (s : State) (p : Nat) : State := addCtr s (netR p Reg.NET_FILT) 1

/-- The multicast addresses that the active take, the pair block and PTP require on a port (R301, R459). -/
def takeMulticasts (s : State) (p : Nat) : List Nat :=
  let leg := if chainMode s then 0 else p
  let rx := s.strm.rx.map fun x => if leg = 0 then x.ent.dsta else x.ent.dstb
  let bcn := match s.take.active with | some t => [t.cont.mcast] | none => []
  let clap := if paired s then [getR s Reg.PAIR_NETGRP] else []
  let orphan := if s.pair.role = .orphan then ((monitoredLegs s).filter fun l => l.1 == leg).map (·.2.1) else []
  ((rx ++ bcn ++ clap ++ orphan).filter isMulticastIp).map multicastMac ++ [0x011B19000000, 0x0180C200000E]

/-- The hash index of a multicast address (R301). -/
def mcHash (mac : Nat) : Nat := crc32e (beBytes 6 mac) / 2 ^ 26

/-- An address stands in a valid entry of the exact table of a port (R301). -/
def exactOk (s : State) (p mac : Nat) : Bool :=
  (List.range 32).any fun e =>
    let x := netR p Reg.NET_XMC0 + 8 * e
    bit (getR s (x + 4)) 31 && getR s (x + 4) % 2 ^ 16 * 2 ^ 32 + getR s x == mac

/-- A multicast address passes the filter of a port (R301). -/
def multicastOk (s : State) (p mac : Nat) : Bool :=
  let h := mcHash mac
  (takeMulticasts s p).contains mac ||
  bit (getR s (netR p (if h < 32 then Reg.NET_MCHASH_LO else Reg.NET_MCHASH_HI))) (h % 32) ||
  getF s (netF p F.NET_CFG_ALLMULTI) == 1

/-- A multicast or broadcast address. -/
def groupMac (mac : Nat) : Bool := mac / 2 ^ 40 % 2 == 1

/-- The address filter (R301); in chain mode a frame of either port is classified by the settings of port A (R298). A port whose
MAC address is zero accepts no unicast frame (R297). -/
def addressOk (s : State) (p mac : Nat) : Bool :=
  let q := addrPort s p
  if mac = 2 ^ 48 - 1 then true
  else if groupMac mac then exactOk s q mac || multicastOk s q mac
  else macOf s p != 0 && (mac == macOf s p || exactOk s q mac)

/-- An IPv4/UDP datagram in a frame, taken apart. `at_`: where the UDP header begins. -/
structure UdpView where
  src : Nat
  dst : Nat
  sport : Nat
  dport : Nat
  frag : Bool
  ipOpt : Bool
  ipBad : Bool
  udpBad : Bool
  at_ : Nat
  payload : Bytes
deriving DecidableEq, Repr

/-- The UDP datagram of an untagged frame without FCS; a fragment that holds no UDP header is none. -/
def udpView (f : Bytes) : Option UdpView :=
  let ihl := 4 * (beAt f 14 1 % 16)
  let u := 14 + ihl
  let fr := beAt f 20 2
  if beAt f 12 2 ≠ 0x0800 ∨ beAt f 14 1 / 16 ≠ 4 ∨ ihl < 20 ∨ beAt f 23 1 ≠ 17 ∨ fr % 2 ^ 13 ≠ 0 ∨ f.length < u + 8 then none
  else
    let ulen := beAt f (u + 4) 2
    let dg := sliceB f u ulen
    let pseudo := sliceB f 26 8 ++ [0, 17] ++ beBytes 2 ulen
    some { src := beAt f 26 4, dst := beAt f 30 4, sport := beAt f u 2, dport := beAt f (u + 2) 2, frag := bit fr 13,
           ipOpt := decide (ihl > 20), ipBad := inetChecksum (sliceB f 14 ihl) != 0,
           udpBad := beAt f (u + 6) 2 != 0 && inetChecksum (pseudo ++ dg) != 0, at_ := u, payload := dg.drop 8 }

/-- The RTP packet of a datagram (R269, R276): padding, CSRC list and header extension are skipped. -/
def rtpView (u : UdpView) (stamp : Nat) : RtpPkt :=
  let b := u.payload
  let b0 := beAt b 0 1
  let o := 12 + 4 * (b0 % 16)
  let o := if bit b0 4 then o + 4 + 4 * beAt b (o + 2) 2 else o
  let pad := if bit b0 5 then beAt b (b.length - 1) 1 else 0
  { frag := u.frag, ipOpt := u.ipOpt, ipBad := u.ipBad, udpBad := u.udpBad, version := b0 / 64, pt := beAt b 1 1 % 128,
    seq := beAt b 2 2, ts := beAt b 4 4, ssrc := beAt b 8 4, payload := (b.take (b.length - pad)).drop o, stamp := stamp }

/-- The receive stream a datagram belongs to, of leg 0 or 1 (R276). -/
def legMatch (s : State) (leg : Nat) (u : UdpView) : Option Nat :=
  s.strm.rx.findIdx? fun x =>
    let e := x.ent
    let d := if leg = 0 then (e.dsta, e.udpa, e.srca) else (e.dstb, e.udpb, e.srcb)
    legPresent e leg && d.1 == u.dst && d.2.1 == u.dport && (d.2.2 == 0 || d.2.2 == u.src)

/-- Where the PTP header of an untagged frame begins: EtherType 0x88F7, or UDP ports 319 and 320 (R303). -/
def ptpAt (f : Bytes) : Option Nat :=
  if beAt f 12 2 = 0x88F7 then some 14
  else match udpView f with
    | some u => if u.dport = 319 ∨ u.dport = 320 then some (u.at_ + 8) else none
    | none => none

/-- messageType of a PTP message of a version the hardware handles (R319). -/
def ptpType (f : Bytes) (o : Nat) : Option Nat :=
  if beAt f (o + 1) 1 % 16 = 2 ∧ beAt f (o + 1) 1 / 16 ≤ 1 then some (beAt f o 1 % 16) else none

/-- A PTP message of a frame (R328 to R330); header layout by IEEE 1588 (assumption 12). -/
def ptpMsg (f : Bytes) (o stamp : Nat) : PtpMsg :=
  { version := beAt f (o + 1) 1 % 16, minor := beAt f (o + 1) 1 / 16, domain := beAt f (o + 4) 1, portId := beAt f (o + 20) 10,
    seq := beAt f (o + 30) 2, twoStep := bit (beAt f (o + 6) 1) 1,
    origin := 4 * (beAt f (o + 34) 6 * 1000000000 + beAt f (o + 40) 4), corr := beAtS f (o + 8) 8, stamp := stamp }

/-- The time engine takes a PTP message; the control processor queue gets every one (R328, R339). -/
def timeEngine (s : State) (p : Nat) (f : Bytes) (o stamp : Nat) : State :=
  let m := ptpMsg f o stamp
  match ptpType f o with
  | some 0 => ptpSync s p m
  | some 8 => followUp s p m
  | some 2 => pdelayReq s p { version := m.version, minor := m.minor, domain := m.domain, seq := m.seq, portId := m.portId, corr := beAt f (o + 8) 8,
                              stamp := stamp, overUdp := o != 14 }
  | _ => s

/-- A received PAUSE or priority flow control frame (R303, R310). -/
def macControl (s : State) (p : Nat) (f : Bytes) : State :=
  let v := portOf s p
  let acted := fun (s : State) => raise (addCtr s (netR p Reg.NET_PAUSERX) 1) (3 + p) 0
  let op := beAt f 14 2
  if op = 0x0001 then
    if getF s (netF p F.NET_FC_RXPAUSE) = 1 then acted (setPort s p { v with pause := beAt f 16 2 }) else s
  else if op = 0x0101 then
    let pri := (List.range 8).filter fun i => bit (beAt f 16 2) i && bit (getF s (netF p F.NET_FC_PFCPRI)) i
    if getF s (netF p F.NET_FC_RXPFC) = 1 ∧ pri ≠ [] then
      acted (setPort s p { v with pfc := pri.foldl (fun l i => l.setIfInBounds i (beAt f (18 + 2 * i) 2)) v.pfc })
    else s
  else filtered s p

/-- The consumer of a frame that passed the filters (R303). `f`: the frame without tag and FCS; `whole`: as it goes into the
control processor queue. -/
def dispatch (s : State) (p stamp : Nat) (tagged : Bool) (f whole : Bytes) : State :=
  let toCpu := fun (s : State) => cpqPut s p 0 stamp tagged whole
  let leg := if chainMode s then 0 else p
  if beAt f 12 2 = 0x8808 then macControl s p f else
  match ptpAt f with
  | some o => toCpu (timeEngine s p f o stamp)
  | none =>
    match udpView f with
    | none => toCpu s
    | some u =>
      match legMatch s leg u with
      | some r => streamPacket s r leg (rtpView u stamp)
      | none =>
        let bcn := match s.take.active with | some t => t.cont.mcast != 0 && u.dst == t.cont.mcast && u.dport == t.cont.udpport | none => false
        if u.dst = ipOf s p ∧ u.dport = 5124 then
          if u.frag then badPacket s else serveRing (takePacket s (.udp u.src u.sport) p (beAt f 6 6) u.payload)
        else if bcn then beaconReceive s u.payload
        else if paired s && u.dst == getR s Reg.PAIR_NETGRP && u.dport == getR s Reg.PAIR_NETPORT then netClapper s u.payload
        else toCpu (if s.take.active.isSome then addCtr s Reg.STRM_RXUNK 1 else s)

/-- A monitored packet of the pair block (R459, R461). -/
def monitorFrame (s : State) (p : Nat) (f : Bytes) : State :=
  let leg := if chainMode s then 0 else p
  match udpView f with
  | some u => if (monitoredLegs s).contains (leg, u.dst, u.dport) && u.src != ipOf s p then monitored s else s
  | none => s

/-- A good frame delivered to the device: VLAN rules and dispatch (R302, R303). `b`: as received, with FCS. -/
def deliver (s : State) (p stamp : Nat) (b : Bytes) : State :=
  let tagged := beAt b 12 2 == 0x8100
  let inner := beAt b 16 2
  if beAt b 12 2 = 0x88A8 ∨ (tagged ∧ (inner = 0x8100 ∨ inner = 0x88A8)) then cpqPut s p 0 stamp tagged b
  else
    let vid := beAt b 14 2 % 4096
    let q := addrPort s p
    if tagged && getF s (netF q F.NET_CFG_VLANFILT) == 1 && vid != 0 && vid != getF s (netF q F.NET_VLAN_VID) then filtered s p
    else
      let w := if tagged then b.take 12 ++ b.drop 16 else b
      let f := w.take (w.length - 4)
      dispatch (monitorFrame s p f) p stamp tagged f w

/-- Forwards a frame out of the other port in chain mode (R309, R336, R337). -/
def forwardFrame (s : State) (p stamp : Nat) (b : Bytes) : State :=
  let q := 1 - p
  let tagged := beAt b 12 2 == 0x8100
  let f := let w := if tagged then b.take 12 ++ b.drop 16 else b; w.take (w.length - 4)
  let raw := b.take (b.length - 4)
  let plain := enqueue2 s q { bytes := raw, at_ := stamp, kind := .forward }
  let tc := getF s F.TIME_CTRL_TCMODE
  let event := fun (o extra : Nat) (corr : Bool) =>
    match enqueue0 s q { bytes := raw, at_ := stamp, kind := .event (o + (if tagged then 4 else 0)) stamp extra corr } with
    | (true, s) => s
    | (false, s) => raise (addCtr s Reg.TIME_TCDROP 1) 2 4
  if !maySend s q then s
  else if tc = 0 then plain
  else match ptpAt f with
    | none => plain
    | some o =>
      match ptpType f o with
      | some 0 => event o (if tc = 2 then getR s (Reg.TIME_LINKDLY + 128 * p) * 16384 else 0) true
      | some 1 => if tc = 1 then event o 0 true else s
      | some 2 => if tc = 1 then event o 0 false else s
      | some 3 => if tc = 1 then event o 0 false else s
      | some 10 => if tc = 1 then plain else s
      | _ => plain

/-- A frame without tag and FCS is a PTP event message that a transparent clock forwards by R336 and R337. -/
def tcEvent (s : State) (f : Bytes) : Bool :=
  getF s F.TIME_CTRL_TCMODE != 0 && (match (ptpAt f).bind (ptpType f) with | some k => decide (k ≤ 3) | none => false)

/-- A good frame in chain mode (R309); PTP event messages to 01-80-C2-00-00-0E are forwarded by R336 and R337, which R309 puts
first. -/
def chainFrame (s : State) (p stamp : Nat) (b : Bytes) : State :=
  let own := macOf s p
  let src := beAt b 6 6
  let dst := beAt b 0 6
  if own ≠ 0 ∧ src = own then
    let first := !(portOf s p).loopRun
    let s := setPort s p { portOf s p with loopRun := true }
    raise (logRun (addCtr s (netR p Reg.NET_LOOP) 1) (if p = 0 then 0x0302 else 0x0402) [] 0 first) (3 + p) 6
  else
    let s := setPort s p { portOf s p with loopRun := false }
    let tagged := beAt b 12 2 == 0x8100
    let f := let w := if tagged then b.take 12 ++ b.drop 16 else b; w.take (w.length - 4)
    if beAt b (if tagged then 16 else 12) 2 = 0x8808 ∨ dst / 16 = 0x0180C200000 then
      deliver (if tcEvent s f then forwardFrame s p stamp b else s) p stamp b
    else if !groupMac dst then
      if own ≠ 0 ∧ dst = own then deliver s p stamp b else forwardFrame s p stamp b
    else
      let s := forwardFrame s p stamp b
      if addressOk s p dst then deliver s p stamp b else filtered s p

/-- CRC-16 of the wake detector (R313). -/
def crc16 (b : Bytes) : Nat :=
  b.foldl (fun c x => (List.range 8).foldl (fun c i =>
    let top := bit c 15 != bit x.toNat (7 - i)
    (c * 2 % 65536) ^^^ (if top then 0x1021 else 0)) c) 0xFFFF

/-- Wake pattern j of port p matches a frame (R313). -/
def wakeMatch (s : State) (p j : Nat) (b : Bytes) : Bool :=
  let at_ := netR p Reg.NET_WAKEMASK + 0x100 * j
  let sel := (List.range 1024).filter fun k => bit (getR s (at_ + 4 * (k / 32))) (k % 32)
  bit (getF s (netF p F.NET_WAKECTRL_PATEN)) j && sel != [] && sel.all (fun k => decide (k < b.length)) &&
  crc16 (sel.map fun k => b.getD k 0) == getR s (at_ + 0x80) % 2 ^ 16

/-- The wake detector of the Dark state (R313). -/
def wakeDetect (s : State) (p : Nat) (b : Bytes) : State :=
  let hits := (List.range 8).filter fun j => wakeMatch s p j b
  if hits = [] then s
  else
    let s := setF s (netF p F.NET_WAKESTAT_PAT) (getF s (netF p F.NET_WAKESTAT_PAT) ||| (hits.map (2 ^ ·)).sum)
    wakeStart (raise s (3 + p) 4) p

/-- A frame as it was received, in its place in the order of R35: bad ones by R300, good ones by R301 and R309. -/
def passSound (s : State) (p : Nat) (h : RxHeld) : State :=
  if h.flags ≠ 0 then
    if getF s (netF p F.NET_CFG_DELIVER_BAD) = 1 then
      cpqPut s p h.flags h.stamp (beAt h.bytes 12 2 == 0x8100) (h.bytes.take 9600)
    else s
  else if chainMode s then chainFrame s p h.stamp h.bytes
  else if addressOk s p (beAt h.bytes 0 6) then deliver s p h.stamp h.bytes
  else filtered s p

/-- A frame in its place in the order of R35, read from the packet buffers: with an uncorrectable codeword it is dropped (R441). -/
def passFrame (s : State) (p : Nat) (h : RxHeld) : State :=
  let r := frameBad s h.bytes.length
  if r.1 then r.2 else passSound r.2 p h

/-- Ingress stamp order, port A first on a tie (R35). -/
def ingressBefore (a b : Nat × Nat) : Bool := decide (a.1 < b.1 ∨ a.1 = b.1 ∧ a.2 < b.2)

/-- Frames received by both ports pass in the order of their ingress stamps, port A first on a tie (R35). `busy`: a frame that a port
is still receiving, its stamp and port; a frame that follows it waits. -/
def passFrames (s : State) (busy : Option (Nat × Nat)) : State :=
  let key := fun (x : Nat × RxHeld) => (x.2.stamp, x.1)
  let all := sortBy (fun a b => ingressBefore (key a) (key b)) (s.portA.held.map (0, ·) ++ s.portB.held.map (1, ·))
  let waits := fun x => match busy with | some k => !ingressBefore (key x) k | none => false
  let keep := fun (p : Nat) => (all.filter fun x => x.1 == p && waits x).map (·.2)
  let s := { s with portA := { s.portA with held := keep 0 }, portB := { s.portB with held := keep 1 } }
  (all.filter fun x => !waits x).foldl (fun s x => passFrame s x.1 x.2) s

/-- The ingress stamp of a capture on port p (R325). -/
def ingressStamp (s : State) (p cap : Nat) : Nat := ((cap : Int) - signed 16 (getF s (F.TIME_LAT_RXLAT.plus (128 * p)))).toNat

/-- A frame arrives on port p with its FCS, the first octet after its start delimiter captured at `cap` quarter ns; `fill` bytes wait
in the receive buffer, and `other` is the capture of the frame the other port is receiving at that moment (R35, R299 to R311,
R325). -/
def frameReceive (s : State) (p : Nat) (b : Bytes) (cap : Nat) (codeErr align : Bool) (fill : Nat) (other : Option Nat) : State :=
  if b.isEmpty ∨ !s.pwr.netref ∨ !pcsOn s p then s else
  let flags := frameFlags s p b codeErr align
  if s.pwr.seq = .dark then (if flags = 0 then wakeDetect s p b else s)
  else if !powered s then s
  else
    let busy := other.map fun c => (ingressStamp s (1 - p) c, 1 - p)
    let n := (b.take 9600).length
    if fill + n > 65536 then
      passFrames (fillControl (raise (addCtr s (netR p Reg.NET_RXOVF) 1) (3 + p) 2) p 65536 false) busy
    else
      let s := fillControl s p (fill + n) false
      let s := if flags ≠ 0 then raise (addCtr s (netR p (badCounter flags)) 1) (3 + p) 1 else addCtr s (netR p Reg.NET_RXOK) 1
      let v := portOf s p
      passFrames (setPort s p { v with held := v.held ++ [{ stamp := ingressStamp s p cap, flags := flags, bytes := b }] }) busy

/-- FRAME_RECEIVE (R299 to R313). -/
def execFrameReceive (p : Nat) (b : List (BitVec 8)) (cap : Nat) (codeErr : Bool) (align : Bool) (fill : RxSide)
    (s : State) : Host.Outcome State Fault Refusal := .next (frameReceive s (p % 2) b cap codeErr align fill.fill fill.other)

/-- The link of a port changes (R312). Frames that waited for one still arriving there pass, for a frame being received when the
link drops is lost; in the Dark state a link that comes up may wake the device (R313). -/
def linkEvent (s : State) (p : Nat) (sync : Bool) (speed : Nat) (an lf rf : Bool) : State :=
  let was := pcsLink s p
  let s := linkChange s p sync speed an lf rf
  let up := pcsLink s p
  let s := if up then s else passFrames s none
  if s.pwr.seq == .dark && up && !was && getF s (netF p F.NET_WAKECTRL_LINKWAKE) == 1 then
    wakeStart (raise (setFB s (netF p F.NET_WAKESTAT_LINK) true) (3 + p) 4) p
  else s

/-- LINK_STATE_CHANGE (R312). -/
def execLinkStateChange (p : Nat) (sync : Bool) (speed : Nat) (an : Bool) (lf : Bool) (rf : Bool) (s : State) :
    Host.Outcome State Fault Refusal := .next (linkEvent s p sync speed an lf rf)

/-- NETREFCLK_LOSS (R539): NETREFCLK stops or returns. -/
def execNetrefclkLoss (lost : Bool) (s : State) : Host.Outcome State Fault Refusal :=
  .next (let s := setPwr s { s.pwr with netref := !lost }
    if !lost then s else
    linkSync ([0, 1].foldl (fun s p => linkEvent s p false 0 false false false) s) false)

end Sys2Proof.Machine
end

