-- ==== Sys2Proof/Machine/HostIf.lean ====
section
/-! DEFINITION. The host's side of the rings and of quad-SPI, and direct writes that may reach the command ring (R252 to
R255). -/

namespace Sys2Proof.Machine

open Sys2Proof

/-- HOST_RPLHEAD_WRITE (R253). -/
def rplHeadWrite (s : State) (v : Nat) : State := if !pcieUp s then s else writeNow s Reg.HOST_RPLHEAD v

/-- Places held replies in order while they fit. -/
def placeHeld : Nat → State → State
  | 0, s => s
  | n + 1, s =>
    match s.ccp.ringHeld with
    | [] => s
    | b :: t =>
      match ringPlace s b with
      | (true, s) => placeHeld n { s with ccp := { s.ccp with ringHeld := t } }
      | (false, s) => s

/-- REPLY_HOLD_RELEASE: held replies are placed as ring space allows, and the engine goes on (R253). -/
def replyRelease (s : State) : State := if !powered s then s else serveRing (placeHeld s.ccp.ringHeld.length s)

/-- The status word of quad-SPI (R254). -/
def spiStatus (s : State) : Nat :=
  let r := match s.ccp.spiOut with | b :: _ => b.length | [] => 0
  r * 2 ^ 16 + b2n (irqAsserted s) * 8 + b2n s.ccp.spiOvf * 4 + b2n (!s.ccp.spiOut.isEmpty) * 2 + b2n (decide (s.ccp.spiIn.length < 2))

/-- READ_STAT (R254). -/
def readStat (s : State) : State :=
  if !powered s then s else { s with rdata := beBytes 4 (spiStatus s), ccp := { s.ccp with spiOvf := false } }

/-- READ_RPL (R254). -/
def readRpl (s : State) : State := if !powered s then s else { s with rdata := s.ccp.spiOut.headD [] }

/-- ACK_RPL (R254, R255): the oldest reply leaves, replies that waited follow in order, and the engine goes on. -/
def ackRpl (s : State) : State :=
  if !powered s then s else
  let held := s.ccp.spiHeld
  let s := { s with ccp := { s.ccp with spiOut := s.ccp.spiOut.drop 1, spiHeld := [] } }
  serveSpi (serveRing (held.foldl spiPlace s))

/-- HOST_CMDTAIL_WRITE, HOST_RPLHEAD_WRITE, REPLY_HOLD_RELEASE (R253). -/
def execHostCmdtailWrite (data : List (BitVec 8)) (v : Nat) (s : State) : Host.Outcome State Fault Refusal :=
  .next (cmdTailWrite s data v)
def execHostRplheadWrite (v : Nat) (s : State) : Host.Outcome State Fault Refusal := .next (rplHeadWrite s v)
def execReplyHoldRelease (s : State) : Host.Outcome State Fault Refusal := .next (replyRelease s)

/-- READ_STAT, WRITE_CMD, READ_RPL, ACK_RPL (R254, R255). -/
def execReadStat (s : State) : Host.Outcome State Fault Refusal := .next (readStat s)
def execWriteCmd (b : List (BitVec 8)) (s : State) : Host.Outcome State Fault Refusal := .next (writeCmdSpi s b)
def execReadRpl (s : State) : Host.Outcome State Fault Refusal := .next (readRpl s)
def execAckRpl (s : State) : Host.Outcome State Fault Refusal := .next (ackRpl s)

/-- QSPI_UNKNOWN_INSTRUCTION (R254). -/
def execQspiUnknownInstruction (s : State) : Host.Outcome State Fault Refusal :=
  .next (if powered s then addCtr s Reg.HOST_SPIBAD 1 else s)

/-- REGISTER_WRITE (R252): offset, word and byte enables; a write of HOST_CMDTAIL hands packets to the engine (R253). -/
def execRegisterWrite (a v be : Nat) (s : State) : Host.Outcome State Fault Refusal := .next (serveRing (registerWrite s a v be))

end Sys2Proof.Machine
end

