-- ==== Sys2Proof/Machine/Boundary.lean ====
section
/-! DEFINITION. The frame boundary: capture, the commits in their fixed order, the tick, emission, and the registers as they read
from the boundary on (R12, R18 to R36). -/

namespace Sys2Proof.Machine

open Sys2Proof

/-- The timeline advances by one frame (R11, R12, R36). -/
def advanceTimeline (s : State) : State :=
  { s with tl := { s.tl with frame := (s.tl.frame + 1) % 2 ^ 60, index := (s.tl.index + 16) % 2 ^ 64 } }

/-- The packets of the frame whose emission has ended leave (R22, R283). -/
def transmitEmitted (s : State) : State :=
  match s.pipe.cur with
  | some (p, lab, out) => strmTransmit s p lab out
  | none => s

/-- A change sets the local time: it writes TIME_CTRL with SET (R323). -/
def setsTime : Change → Bool
  | .write a l _ => decide (a ≤ Reg.TIME_CTRL) && bit (l.getD ((Reg.TIME_CTRL - a) / 4) 0) 8
  | .modify a m v => a == Reg.TIME_CTRL && bit m 8 && bit v 8
  | .op .. => false

/-- A set that commits at this boundary cancels the step that is pending (R323, R345): it takes effect at the next one
(assumption 26). -/
def cancelStep (s : State) : State :=
  let due := (s.ccp.pend.map fun c => c.2) ++ (s.ccp.frameQ.filter fun c => decide (c.1 ≤ dueFrame s)).map fun c => c.2.2
  if due.any setsTime then { s with time := { s.time with stepPend := none } } else s

/-- What ends with the frame: its emission cutoff if none was commanded, its emission, its time, its fabric and DRAM deadlines. -/
def endOfFrame (s : State) : State :=
  let s := emissionCutoff { s with pair := { s.pair with tx := [] } }
  let s := timeBoundary (cancelStep (advanceTimeline s))
  let s := agePeers s (903168000000000 / fsOf s.tl.rate)
  let s := transmitEmitted (linkBoundary (linkBoundary s 0) 1)
  let s := expireReqs (clearMiss (fabBoundary s))
  let keep := fun (l : List Int) => l.filter fun p => decide (posNow s ≤ p + 8)
  relockRamp (relockFrame { s with clk := { s.clk with fadeInPos := keep s.clk.fadeInPos, fadeOutPos := keep s.clk.fadeOutPos } })

/-- Order 1 of R30: splice re-alignment (R363, R467). -/
def spliceDue (s : State) : State :=
  let s := if spliceReady s then splice { s with geo := { s.geo with tickDue := true } } else s
  realignDue s

/-- The frame that ends is captured under the label it had (R18, R278, R375, R387); answers the crosspoint inputs. With no active
take nothing is mapped, and every ring takes zeros (R88). -/
def captureFrame (s : State) (lab : Nat) (bi : BoundaryIn) : Sparse (List Int) × State :=
  let p := posNow s - 1
  match s.take.active with
  | none => ([], objCapture s p [])
  | some t =>
    let x := strmCapture s t p lab { objs := [], xins := [] }
    let y := lioCapture x.2 t.localio bi p lab x.1
    let s := farStore (objCapture y.2 p y.1.objs) t p y.1.objs
    (y.1.xins, s)

/-- The frame captured goes to the processing stage, with the settings that held during it (R18, R23). -/
def beginProcessing (s : State) (xin : Sparse (List Int)) : State :=
  let p := posNow s
  let s := injectToken (startWork s (p - 1) xin) (.boundary p)
  ungate (convBoundary s (p - 1))

/-- The changes that name a frame, each with that frame and its place in the order of arrival: the frame queue, the firmware switch,
the peer's switchover (R237, R248, R460). -/
def namedChanges (s : State) : List (Nat × Nat × Change) :=
  s.ccp.frameQ ++ (s.fw.sched.toList.map fun x => (x.2, s.fw.schedArr, Change.op (.fwSwitch x.1 x.2) none)) ++
    s.pair.switch.toList.map fun x => (x.1, x.2, Change.op (.pairSwitchover x.1) none)

/-- Those due, in ascending order of the frame they name, then of arrival (R30, R31). A change that waits across a cut that changes
the rate keeps the number it names (assumption 97). -/
def dueChanges (s : State) : List (Nat × Nat × Change) :=
  sortBy (fun a b => decide (a.1 < b.1 ∨ a.1 = b.1 ∧ a.2.1 < b.2.1)) ((namedChanges s).filter fun c => decide (c.1 ≤ s.tl.frame))

/-- What is due leaves its queue. -/
def takeDue (s : State) : State :=
  let later := fun (f : Nat) => decide (s.tl.frame < f)
  { s with ccp := { s.ccp with frameQ := s.ccp.frameQ.filter fun c => later c.1 },
           fw := { s.fw with sched := s.fw.sched.filter fun x => later x.2 },
           pair := { s.pair with switch := s.pair.switch.filter fun x => later x.1 } }

/-- Order 3 of R30. -/
def commitFrameAddressed (s : State) : State := (dueChanges s).foldl (fun s c => commitChange s c.2.2) (takeDue s)

/-- Order 4 of R30: in order of arrival (R249). -/
def commitPending (s : State) : State :=
  let l := sortBy (fun a b => decide (a.1 < b.1)) s.ccp.pend
  l.foldl (fun s c => commitChange s c.2) { s with ccp := { s.ccp with pend := [] } }

/-- Orders 1 to 4 of R30, with the capture of the frame that ends. -/
def commitBoundary (s : State) (bi : BoundaryIn) : Sparse (List Int) × State :=
  let lab := (s.tl.frame + 2 ^ 60 - 1) % 2 ^ 60
  let s := spliceDue s
  let x := captureFrame (releaseMasks s (posNow s)) lab bi
  let s := beginProcessing (masksSettle x.2 (posNow x.2)) x.1
  let s := rsCut (cutDue (rsPhase s))
  (x.1, endJump (tripDivider (commitPending (commitFrameAddressed s))))

/-- The SYS and HOST registers as they read from this boundary on (R36, R265, R267). -/
def publishSys (s : State) : State :=
  let s := setR64 s Reg.SYS_FRAME_LO Reg.SYS_FRAME_HI s.tl.frame
  let s := setR64 s Reg.SYS_INDEX_LO Reg.SYS_INDEX_HI s.tl.index
  let s := setR s Reg.SYS_COMMITSEQ s.tl.commitSeq
  let s := setR s Reg.SYS_PIPE (16 * s.tl.depth * 2 ^ 8 + b2n (family44 s.tl.rate) * 2 ^ 7 + s.tl.rate * 16 + s.tl.depth)
  let udp := (s.ccp.sessions.filter fun x => isUdp x.sess).length
  let s := setF (setFB s F.HOST_STATUS_RPLHOLD (!s.ccp.ringHeld.isEmpty)) F.HOST_STATUS_UDPSESS udp
  let s := setFB (setFB s F.HOST_STATUS_FWRESTART s.fw.restarting) F.HOST_STATUS_FWREADY s.fw.ready
  let s := setR s Reg.HOST_QUEUES (s.ccp.frameQ.length * 2 ^ 16 + s.ccp.fwQ.length)
  setR s Reg.HOST_CAUSE (causes s)

/-- Every register the hardware writes, as it reads from this boundary on (R32). -/
def publish (s : State) : State :=
  let act := s.take.active.isSome
  let s := publishPwr (publishPeers (publishTake (publishPair (publishLog s))))
  let s := publishTime (publishClk (publishNet (publishNet s 0) 1))
  let s := publishMem (publishDrains (publishFab s))
  let s := publishXpt (publishConv (publishDisp (publishKpu s) act) (posNow s - 1) act) act
  let s := publishSys (publishLio (publishGeom (publishStrm s act)))
  let s := showRecord s (findRec s.log (getR s Reg.LOG_RDSEQ))
  { s with view := s.regs }

/-- The log of this boundary (R478). -/
def logBoundary (s : State) : State := flushLog s

/-- Order 6 of R30: a SNAPSHOT is taken and replied to (R33, R260, R261). -/
def snapNow (s : State) (x : Snap) : State :=
  let words := x.ranges.flatMap fun r => (List.range r.2).map fun i => peekReg s (r.1 + 4 * i)
  reply s x.ctx .ok (beBytes 8 s.tl.frame ++ beBytes 4 s.tl.commitSeq ++ beBytes 4 words.length ++ words.flatMap (beBytes 4))

/-- The SNAPSHOTs of this boundary. -/
def snapshots (s : State) : State :=
  let due := s.ccp.snaps.filter fun x => decide (x.frame ≤ s.tl.frame)
  due.foldl snapNow { s with ccp := { s.ccp with snaps := s.ccp.snaps.filter fun x => decide (s.tl.frame < x.frame) } }

/-- The output boundary: mute, emission, digest, meters (R23, R197, R202, R462). -/
def emission (s : State) (xin : Sparse (List Int)) : State :=
  let x := emitFrame (decideMute (houseFrames s)) noteDigest
  meterBoundary x.2 (inputPeaks xin x.1)

/-- Order 5 of R30 and the tick (R51 to R54). -/
def tickBoundary (s : State) : State :=
  let s := dropRunEnd s
  if s.take.active.isNone then s else
  let x := metaTick s
  farFetch (geomTick x.2 x.1)

/-- Event bits set from here on are set at this boundary (R9). -/
def clearFresh (s : State) : State := { s with ccp := { s.ccp with fresh := [] } }

/-- The Dark state is accepted (R507): the frame emitted at this boundary ramps down. -/
def darkBoundary (s : State) (xin : Sparse (List Int)) : State :=
  let e := posNow s - (s.tl.depth : Nat)
  let cut : CutRec := { pos := e + 1, e := e, hard := true, ramp := true, up := none }
  let s := emission { s with pipe := { s.pipe with cuts := cut :: s.pipe.cuts } } xin
  publish (logBoundary s)

/-- The frame that ramped down has been emitted: its packets leave, and everything stops (R507). -/
def darkEnd (s : State) : State :=
  publish (logBoundary (darkFinish (transmitEmitted (advanceTimeline (clearFresh s)))))

/-- The rest of a boundary after its commits. -/
def afterCommits (s : State) (xin : Sparse (List Int)) : State :=
  let s := driveDue (gateCores (cutImages (pairRoles s)))
  let s := emission (tdmStates (tickBoundary s) (posNow s)) xin
  let s := servePeer (sendReady (dropUncompared s))
  serveRing (snapshots (publish (logBoundary (missRecords s))))

/-- FRAME_BOUNDARY: the media sample index reaches the next multiple of 16. Without power or with the clock system in FAULT the
frame sequencer stands still (R364). -/
def frameBoundary (s : State) (bi : BoundaryIn) : State :=
  if !powered s ∨ s.clk.st = .fault then s
  else if s.pwr.seq = .darkening then darkEnd s else
  let x := commitBoundary (endOfFrame (clearFresh s)) bi
  if x.2.pwr.seq = .darkening then darkBoundary x.2 x.1 else afterCommits x.2 x.1

/-- FRAME_BOUNDARY (R30). -/
def execFrameBoundary (bi : BoundaryIn) (s : State) : Host.Outcome State Fault Refusal := .next (frameBoundary s bi)

end Sys2Proof.Machine
end

