-- ==== Sys2Proof/Machine/FabReg.lean ====
section
/-! DEFINITION. Requests at the fabric, master resets and draining, and bursts at the targets that are no plain memory: the
registers, the log SRAM and the outbound MSI-X window (R430 to R438). Byte order and partial words: assumption 93. -/

namespace Sys2Proof.Machine

open Sys2Proof

/-- A word that master m writes to the register of offset a. A write of the control processor counts as firmware's, so that
TAKE_FWCTRL and the command keys take it (R238, R258); every other master's is a direct write (R13, R252). -/
def fabRegWrite (m : Nat) (s : State) (a v : Nat) : State :=
  if m ≠ 0 then hostWrite s a v
  else if a = Reg.TAKE_FWCTRL then fwReady s v
  else if atOnce a then writeNow s a v
  else pendNow s (.write a [v] true)

/-- The whole words of the bytes d, which begin at offset a: each with its offset. -/
def wholeWords (a : Nat) (d : Bytes) : List (Nat × Nat) :=
  let skip := (4 - a % 4) % 4
  (List.range ((d.length - skip) / 4)).map fun i => (a + skip + 4 * i, leAt d (skip + 4 * i) 4)

/-- A burst at the registers ends: its whole words are written in address order, or its words are read with the side effects of
direct reads (R36, R252). -/
def regBurst (s : State) (b : Burst) : State :=
  let a := b.addr - regionBase 11
  match b.write with
  | some d => serveRing ((wholeWords a d).foldl (fun s w => fabRegWrite b.master s w.1 w.2) s)
  | none =>
    let x := readRegs ((a + b.len + 3) / 4 - a / 4) (a / 4 * 4) s
    { x.2 with rdata := ((x.1.flatMap (leBytes 4)).drop (a % 4)).take b.len }

/-- A byte of the log SRAM at offset o: the record that stands there in the form of R476, else what the memory holds. -/
def logSramByte (s : State) (o : Nat) : Byte :=
  match s.log.recs[o / 64]? with
  | some r => if ueByte s (regionBase 10 + o) then 0 else (recBytes r).getD (o % 64) 0
  | none => readByte s (regionBase 10 + o)

/-- A granted burst is carried out by its target (R430, R434). A write to the MSI-X window leaves the device. -/
def carryOut (s : State) (b : Burst) : State :=
  if b.drained && b.write == some [] then s
  else if b.target = 11 then regBurst s b
  else if b.target = 12 then { s with rdata := if b.write.isSome then s.rdata else zeroBytes b.len }
  else if b.target = 10 && b.write.isNone then
    { burstEnd s b with rdata := (List.range b.len).map fun i => logSramByte s (b.addr - regionBase 10 + i) }
  else burstEnd s b

/-- A burst ends; what a draining one reads is discarded (R437). -/
def finishBurst (s : State) (b : Burst) : State :=
  let t := carryOut s b
  if b.drained && b.write.isNone then { t with rdata := s.rdata } else t

/-- A burst ends and retires. -/
def endBurst (s : State) (b : Burst) : State := retire (finishBurst s b) b

/-- A request that its issuer may send: decoded and passed on, or answered with a decode or parity error, which its master handles
(R432, R434). -/
def fabAsk (s : State) (r : FabReq) : State :=
  let write := !r.data.isEmpty
  let n := if write then r.data.length else r.len
  let refuse := fun (kind : Nat) =>
    masterError { fabError s kind r.master r.source r.addr with rdata := if write then [] else zeroBytes n } r.master r.source r.addr
  if r.parity then refuse 1
  else match fabTarget s r.master r.addr n write with
    | none => refuse 0
    | some t =>
      let b : Burst := { master := r.master, source := r.source, target := t, addr := r.addr,
                         write := if write then some r.data else none, len := n, drained := false }
      let s := { s with fab := { s.fab with waiting := s.fab.waiting ++ [b] } }
      if s.fab.current.any (·.target == t) then s else grant s t

/-- The issuer of a request must wait: its source drains, or its port has 64 transactions outstanding (R431, R437). -/
def mustStall (s : State) (m src : Nat) : Bool := draining s m src || decide (64 ≤ portLoad s m)

/-- Stalled requests whose issuers need wait no longer go on, in order; those behind another of their source stay behind it. -/
def wakeStalled (s : State) : State :=
  let r := s.fab.stalled.foldl (fun (a : List FabReq × State) r =>
    if mustStall a.2 r.master r.source || a.1.any (fun q => q.master == r.master && q.source == r.source) then (a.1 ++ [r], a.2)
    else (a.1, fabAsk a.2 r)) ([], { s with fab := { s.fab with stalled := [] } })
  { r.2 with fab := { r.2.fab with stalled := r.1 } }

/-- The last outstanding transaction of a draining source retires (R437): the reset is released, and what stalled goes on. -/
def drainEnd (s : State) (m src cycles : Nat) : State :=
  match s.fab.drains.find? fun d => d.master == m && d.source == src with
  | none => s
  | some d =>
    let mine := fun (b : Burst) => b.master == m && b.source == src && b.drained
    let done := s.fab.current.filter mine
    let s := { s with fab := { s.fab with current := s.fab.current.filter fun b => !mine b,
                                          waiting := s.fab.waiting.filter fun b => !mine b } }
    let s := done.foldl (fun s b => grant (finishBurst s b) b.target) s
    let s := { s with fab := { s.fab with drains := s.fab.drains.filter fun x => x != d } }
    let s := addCtr (publishDrains s) Reg.FAB_DRAINS 1
    wakeStalled (raise (logEv s 0x1104 [(1, (m : Int)), (1, (src : Int)), (1, (d.total : Int)), (4, (cycles : Int))]) 17 4)

/-- FABRIC_REQUEST (R432, R434): a request of a DRAINING source stalls, and so does one beyond 64 outstanding on its port (R431, R437). -/
def execFabricRequest (m src a len : Nat) (data : Bytes) (parity : Bool) (s : State) : Host.Outcome State Fault Refusal :=
  let n := if data.isEmpty then len else data.length
  let r : FabReq := { master := m, source := src, addr := a, len := len, data := data, parity := parity }
  if n == 0 || decide (n > 1024) then .next s
  else if mustStall s m src then .next { s with fab := { s.fab with stalled := s.fab.stalled ++ [r] } }
  else .next (fabAsk s r)

/-- MASTER_RESET (R437, R438): `beats` beats of the write in progress had been issued. -/
def execMasterReset (m src beats : Nat) (s : State) : Host.Outcome State Fault Refusal := .next (masterReset s m src beats 0)

/-- FAB_DRAIN_EVENT (R437). -/
def execFabDrainEvent (m src cycles : Nat) (s : State) : Host.Outcome State Fault Refusal := .next (drainEnd s m src cycles)

/-- BURST_GRANT: the burst of target t ends and the next waiting one is granted (R435). -/
def execBurstGrant (t : Nat) (s : State) : Host.Outcome State Fault Refusal :=
  let done := s.fab.current.filter (·.target == t)
  let s := { s with fab := { s.fab with current := s.fab.current.filter fun b => b.target != t } }
  .next (wakeStalled (grant (done.foldl endBurst s) t))

end Sys2Proof.Machine
end

