-- ==== Sys2Proof/Machine/KpuCt.lean ====
section
/-! DEFINITION. The CT operations of the kernel processors and the events around a core (R142 to R164). -/

namespace Sys2Proof.Machine

open Sys2Proof

/-- Whether a NOP outside the CT slot executes (R134, assumption 21): bit 0 in the LS slot, any lane in a vector slot. -/
def nopOn (c : Core) (h : KHd) : Bool := if h.slot = 1 then lane (c.guardMask h) 0 else c.guardMask h != 0

/-- NOP does nothing in any slot; in the CT slot it completes the bundle (R132, R152). The bits of a word that has no format (NOP, SWI,
RFI, BKPT), and W in a vector NOP, are taken as reserved: not 0, they raise ILLEGAL (DESIGN CHOICE, assumption 103). -/
def execNop (h : KHd) (s : State) : Host.Outcome State Fault Refusal :=
  .next (if h.slot = 0 then ctOp s h fun _ => .ok CtAct.none
    else if mayIssue s h.core && nopOn (coreOf s h.core) h && (h.rsv != 0 || h.w) then kpuFault s h.core 1 0 else s)

/-- ADD: xd = xa + xb. -/
def execAddX (h : KHd) (b a d : Nat) (s : State) : Host.Outcome State Fault Refusal :=
  .next (ctX s h d fun c => ((c.xr a + c.xr b : Nat) : Int))

/-- SUB: xd = xa - xb. -/
def execSubX (h : KHd) (b a d : Nat) (s : State) : Host.Outcome State Fault Refusal :=
  .next (ctX s h d fun c => ((c.xr a : Nat) : Int) - (c.xr b : Nat))

/-- AND. -/
def execAndX (h : KHd) (b a d : Nat) (s : State) : Host.Outcome State Fault Refusal :=
  .next (ctX s h d fun c => ((c.xr a &&& c.xr b : Nat) : Int))

/-- OR. -/
def execOrX (h : KHd) (b a d : Nat) (s : State) : Host.Outcome State Fault Refusal :=
  .next (ctX s h d fun c => ((c.xr a ||| c.xr b : Nat) : Int))

/-- XOR. -/
def execXorX (h : KHd) (b a d : Nat) (s : State) : Host.Outcome State Fault Refusal :=
  .next (ctX s h d fun c => ((c.xr a ^^^ c.xr b : Nat) : Int))

/-- SHL: xd = xa << xb[4:0]. -/
def execShl (h : KHd) (b a d : Nat) (s : State) : Host.Outcome State Fault Refusal :=
  .next (ctX s h d fun c => ((c.xr a <<< (c.xr b % 32) : Nat) : Int))

/-- SHR: xd = xa >> xb[4:0], logical. -/
def execShr (h : KHd) (b a d : Nat) (s : State) : Host.Outcome State Fault Refusal :=
  .next (ctX s h d fun c => ((c.xr a >>> (c.xr b % 32) : Nat) : Int))

/-- SRA: xd = floor(xa / 2^(xb[4:0])). -/
def execSra (h : KHd) (b a d : Nat) (s : State) : Host.Outcome State Fault Refusal :=
  .next (ctX s h d fun c => signed 32 (c.xr a) / ((2 ^ (c.xr b % 32) : Nat) : Int))

/-- ADDI: xd = xa + SIMM12. -/
def execAddi (h : KHd) (simm : Int) (a d : Nat) (s : State) : Host.Outcome State Fault Refusal :=
  .next (ctX s h d fun c => ((c.xr a : Nat) : Int) + simm)

/-- MOVI: H = 0 sign-extends IMM16; H = 1 writes xd[31:16] and keeps xd[15:0]. -/
def execMovi (h : KHd) (hi : Bool) (imm d : Nat) (s : State) : Host.Outcome State Fault Refusal :=
  .next (ctX s h d fun c => if hi then ((imm % 65536 * 65536 + c.xr d % 65536 : Nat) : Int) else signed 16 imm)

/-- CMP: pd = 0b1111 where the condition holds, else 0b0000; COND 6 and 7 are ILLEGAL. -/
def execCmp (h : KHd) (cond b a pd : Nat) (s : State) : Host.Outcome State Fault Refusal :=
  .next (ctOp s h fun c =>
    let x := c.xr a
    let y := c.xr b
    let sx := signed 32 x
    let sy := signed 32 y
    let t : Option Bool := match cond with
      | 0 => some (x == y)
      | 1 => some (x != y)
      | 2 => some (decide (sx < sy))
      | 3 => some (decide (sx ≥ sy))
      | 4 => some (decide (x < y))
      | 5 => some (decide (x ≥ y))
      | _ => none
    match t with
    | some t => .ok { CtAct.none with flights := [ctFlight .p (pd % 8 + 8 * c.bank) 1 (if t then 15 else 0)] }
    | none => .error 1)

/-- MOVV: xd = lane LANE of v, λ = 2. -/
def execMovv (h : KHd) (ln v d : Nat) (s : State) : Host.Outcome State Fault Refusal :=
  .next (ctOp s h fun c =>
    match c.vPhys v with
    | some r => .ok { CtAct.none with flights := [ctFlight .x (c.xKey d) 2 ((c.vLanes r).getD (ln % 4) 0)] }
    | none => .error 4)

/-- A branch issued now decides the bundle three after its own (R142). -/
def branchTo (t : Nat) : Option PendBr := some { left := 3, target := t % 4096, rfi := false }

/-- BR: branch to TARGET. -/
def execBr (h : KHd) (target : Nat) (s : State) : Host.Outcome State Fault Refusal :=
  .next (ctOp s h fun _ => .ok { CtAct.none with branch := branchTo target })

/-- BRX: branch to xa[11:0]. -/
def execBrx (h : KHd) (_b a _d : Nat) (s : State) : Host.Outcome State Fault Refusal :=
  .next (ctOp s h fun c => .ok { CtAct.none with branch := branchTo (c.xr a) })

/-- CALL: x15 = t + 3; branch to TARGET. -/
def execCall (h : KHd) (target : Nat) (s : State) : Host.Outcome State Fault Refusal :=
  .next (ctOp s h fun c => .ok { CtAct.none with branch := branchTo target, flights := [ctFlight .x (c.xKey 15) 1 ((c.pc + 3 : Nat) : Int)] })

/-- ZLOOP arms the loop (R143): HREG in a handler, ILLEGAL operands, NEST while a loop is armed. -/
def execZloop (h : KHd) (a stg target : Nat) (s : State) : Host.Outcome State Fault Refusal :=
  .next (ctOp s h fun c =>
    if c.hm then .error 4
    else if stg ≥ 7 ∨ target < c.pc + 3 ∨ c.pc ≥ 4093 then .error 1
    else if c.armed then .error 5
    else .ok { CtAct.none with loop := some (c.xr a, target, stg) })

/-- SETBASE: BASE_d = xa[17:0]. -/
def execSetbase (h : KHd) (_b a d : Nat) (s : State) : Host.Outcome State Fault Refusal :=
  .next (ctOp s h fun c => .ok { CtAct.none with flights := [ctFlight .b (c.xKey d) 1 ((c.xr a % 2 ^ 18 : Nat) : Int)] })

/-- SETLEN: LEN_d = xa[18:0]; 0 means 2^18. -/
def execSetlen (h : KHd) (_b a d : Nat) (s : State) : Host.Outcome State Fault Refusal :=
  .next (ctOp s h fun c => .ok { CtAct.none with flights := [ctFlight .l (c.xKey d) 1 ((c.xr a % 2 ^ 19 : Nat) : Int)] })

/-- MFS: X = SPR. `cyc` is the core's KCLK counter as the operation issues (R137). -/
def execMfs (h : KHd) (spr x cyc : Nat) (s : State) : Host.Outcome State Fault Refusal :=
  .next (ctX s h x fun c => ((sprRead c h.core cyc (spr % 256) : Nat) : Int))

/-- MTS: SPR = X, for bundles after this one; in a handler only FLAGS (SF, WC, DE), IMASK and IPEND (R155). -/
def execMts (h : KHd) (spr x : Nat) (s : State) : Host.Outcome State Fault Refusal :=
  .next (ctOp s h fun c =>
    if c.hm && !(spr == 0 || spr == 8 || spr == 9) then .error 4
    else .ok { CtAct.none with flights := [{ ctFlight .s (spr % 256) 1 ((c.xr x : Nat) : Int) with wrap := c.hm }] })

/-- DMAQ: queues the descriptor at xa on channel CH, or stalls while the queue is full (R148). -/
def execDmaq (h : KHd) (a ch : Nat) (s : State) : Host.Outcome State Fault Refusal :=
  .next (if ctRuns s h then
      let addr := (coreOf s h.core).xr a
      if dmaRoom s h.core ch then queueDma s h.core ch addr else stallCore s h.core (.dmaq ch addr)
    else ctOp s h fun _ => .ok CtAct.none)

/-- DMAQ_QUEUE_SPACE: a stalled DMAQ issues once its channel has space; `cycles` it stalled (R148). -/
def execDmaqQueueSpace (k cycles : Nat) (s : State) : Host.Outcome State Fault Refusal :=
  .next (match (coreOf s k).wait with
    | some (.dmaq ch addr) => if dmaRoom s k ch then queueDma (unstall s k cycles) k ch addr else s
    | _ => s)

/-- DMAW: waits for channel CH to have nothing queued or running (R148). -/
def execDmaw (h : KHd) (_a ch : Nat) (s : State) : Host.Outcome State Fault Refusal :=
  .next (if ctRuns s h then
      if ((coreOf s h.core).dma ch).isEmpty then closeBundle s h.core CtAct.none else stallCore s h.core (.dmaw ch)
    else ctOp s h fun _ => .ok CtAct.none)

/-- DMAW_RETURN: a waiting DMAW returns (R148). -/
def execDmawReturn (k cycles : Nat) (s : State) : Host.Outcome State Fault Refusal :=
  .next (match (coreOf s k).wait with
    | some (.dmaw ch) => if ((coreOf s k).dma ch).isEmpty then closeBundle (unstall s k cycles) k CtAct.none else s
    | _ => s)

/-- DMA_TRANSFER_DONE (R148, R149). -/
def execDmaTransferDone (k ch : Nat) (s : State) : Host.Outcome State Fault Refusal := .next (dmaDone s k ch)

/-- TDONE: ends the task once the DMA channels have drained (R178). -/
def execTdone (h : KHd) (s : State) : Host.Outcome State Fault Refusal :=
  .next (if ctRuns s h then
      if (coreOf s h.core).dmaIdle then finishTask s h.core else stallCore s h.core .tdone
    else ctOp s h fun _ => .ok CtAct.none)

/-- TDONE_DRAIN_END: the channels have drained and the task ends (R178). -/
def execTdoneDrainEnd (k cycles : Nat) (s : State) : Host.Outcome State Fault Refusal :=
  .next (match (coreOf s k).wait with
    | some .tdone => if (coreOf s k).dmaIdle then finishTask (unstall s k cycles) k else s
    | _ => s)

/-- TSIG: sends a token on the arc named in xa once the DMA channels have drained (R179). -/
def execTsig (h : KHd) (a : Nat) (s : State) : Host.Outcome State Fault Refusal :=
  .next (if ctRuns s h then
      let arc := (coreOf s h.core).xr a % 2 ^ 15
      if (coreOf s h.core).dmaIdle then finishSignal s h.core arc else stallCore s h.core (.tsig arc)
    else ctOp s h fun _ => .ok CtAct.none)

/-- TSIG_DRAIN_END: the channels have drained and the token is sent (R179). -/
def execTsigDrainEnd (k cycles : Nat) (s : State) : Host.Outcome State Fault Refusal :=
  .next (match (coreOf s k).wait with
    | some (.tsig arc) => if (coreOf s k).dmaIdle then finishSignal (unstall s k cycles) k arc else s
    | _ => s)

/-- SWI raises the SWI interrupt cause (R153). -/
def execSwi (h : KHd) (s : State) : Host.Outcome State Fault Refusal :=
  .next (if ctRuns s h then
      let c := coreOf s h.core
      ctOp (setCore s h.core { c with ipend := c.ipend ||| 8 }) h fun _ => .ok CtAct.none
    else ctOp s h fun _ => .ok CtAct.none)

/-- RFI: after its two delay bundles it returns from the handler (R156). -/
def execRfi (h : KHd) (s : State) : Host.Outcome State Fault Refusal :=
  .next (ctOp s h fun _ => .ok { CtAct.none with branch := some { left := 3, target := 0, rfi := true } })

/-- BKPT halts the core in the DEBUG state (R152). -/
def execBkpt (h : KHd) (s : State) : Host.Outcome State Fault Refusal :=
  .next (if ctRuns s h then
      let s := closeBundle s h.core CtAct.none
      let c := coreOf s h.core
      if c.active then setCore s h.core { c with state := .debug } else s
    else ctOp s h fun _ => .ok CtAct.none)

/-- INTERRUPT_ENTRY (R154). -/
def execInterruptEntry (k : Nat) (s : State) : Host.Outcome State Fault Refusal := .next (interruptEntry s k)

/-- KPU_MBOX: a write acts at once: MBOX takes the value and its cause is raised (R13, R153, R164). -/
def execKpuMbox (k v : Nat) (s : State) : Host.Outcome State Fault Refusal := .next (mboxWrite s k v)

/-- KPU_FAULT_CLEAR: the write of KPU_FAULT waits for its boundary (R162). -/
def execKpuFaultClear (v : Nat) (s : State) : Host.Outcome State Fault Refusal := .next (queueWrite s Reg.KPU_FAULT v)

/-- KPU_DIV_REQUEST: the write of KPU_CLK waits for its boundary (R159). -/
def execKpuDivRequest (v : Nat) (s : State) : Host.Outcome State Fault Refusal := .next (queueWrite s Reg.KPU_CLK v)

/-- KPU_GATE_REQUEST: the write of KPU_GATE waits for its boundary (R160). -/
def execKpuGateRequest (v : Nat) (s : State) : Host.Outcome State Fault Refusal := .next (queueWrite s Reg.KPU_GATE v)

end Sys2Proof.Machine
end

