-- ==== Sys2Proof/Machine/KpuMem.lean ====
section
/-! DEFINITION. Loads and stores of the kernel processors (R145, R146, R152). All execute by bit 0 of their guard; LDV, LDS and STV then
go by its lanes (R134, assumption 21). -/

namespace Sys2Proof.Machine

open Sys2Proof

/-- LS operations execute when bit 0 of the guard is on (R134). -/
def laneZero (s : State) (h : KHd) : Bool := lane ((coreOf s h.core).guardMask h) 0

/-- A loaded vector in flight, λ = 3 (R152). -/
def loadedV (h : KHd) (v : Nat) (c : Core) (vals : List Int) : Option Flight :=
  (c.vPhys v).map fun r => { left := 3, age := 0, slot := 1, file := .v, reg := r, mask := c.guardMask h, vals := vals, add := false,
                             wrap := false, sat := 0 }

/-- LDV: v = 16 bytes at the address. -/
def execLdv (h : KHd) (a : KAddr) (v : Nat) (s : State) : Host.Outcome State Fault Refusal :=
  .next (loadOp s h a 16 (laneZero s h) true fun c ws => loadedV h v c (ws.map (signed 32)))

/-- LDS: every lane of v = the word at the address. -/
def execLds (h : KHd) (a : KAddr) (v : Nat) (s : State) : Host.Outcome State Fault Refusal :=
  .next (loadOp s h a 4 (laneZero s h) true fun c ws => loadedV h v c (List.replicate 4 (signed 32 (ws.headD 0))))

/-- STV: 16 bytes at the address = v, per guarded lane. -/
def execStv (h : KHd) (a : KAddr) (v : Nat) (s : State) : Host.Outcome State Fault Refusal :=
  .next (storeOp s h a 16 ((coreOf s h.core).guardMask h) (laneZero s h) true fun c => (c.vPhys v).map c.vLanes)

/-- STS: the word at the address = lane 0 of v. -/
def execSts (h : KHd) (a : KAddr) (v : Nat) (s : State) : Host.Outcome State Fault Refusal :=
  .next (storeOp s h a 4 1 (laneZero s h) true fun c => (c.vPhys v).map c.vLanes)

/-- LDX: x(V[3:0]) = the word at the address; V[5:4] must be 0. -/
def execLdx (h : KHd) (a : KAddr) (v : Nat) (s : State) : Host.Outcome State Fault Refusal :=
  .next (loadOp s h a 4 (laneZero s h) (decide (v < 16)) fun c ws =>
    some { left := 3, age := 0, slot := 1, file := .x, reg := c.xKey v, mask := 15, vals := [(ws.headD 0 : Nat)], add := false,
           wrap := false, sat := 0 })

/-- STX: the word at the address = x(V[3:0]); the table asks nothing of V[5:4], unlike LDX. -/
def execStx (h : KHd) (a : KAddr) (v : Nat) (s : State) : Host.Outcome State Fault Refusal :=
  .next (storeOp s h a 4 1 (laneZero s h) true fun c => some [(c.xr (v % 16) : Nat)])

end Sys2Proof.Machine
end

