-- ==== Sys2Proof/Machine/KpuVec.lean ====
section
/-! DEFINITION. The vector and MAC operations of the kernel processors, one meaning each (R150 to R152). -/

namespace Sys2Proof.Machine

open Sys2Proof

/-- A lane result limited to 32 bits, or kept modulo 2^32 with W = 1; the Bool says that it was limited (R150). -/
def fin32 (h : KHd) (x : Int) : Int × Bool := if h.w then (wrapS 32 x, false) else (satS 32 x, overS 32 x)

/-- A lane result that needs no limiting. -/
def exact (x : Int) : Int × Bool := (x, false)

/-- Lane k of source i. -/
def src (vs : List (List Int)) (i k : Nat) : Int := (vs.getD i []).getD k 0

/-- A lane operation on bit patterns. -/
def onBits (f : Nat → Nat → Nat) (a b : Int) : Int := signed 32 (f (unsigned 32 a) (unsigned 32 b))

/-- SAT_N or the low N bits, sign-extended (VNAR, R152). -/
def narrow (h : KHd) (n : Nat) (a : Int) : Int × Bool :=
  let x := rhu 24 (a * 2 ^ (n - 1))
  if h.w then (wrapS n x, false) else (satS n x, overS n x)

/-- The lane product of a complex multiplication (R152): lane k of the pair, conj(b) with `conj`. -/
def cmul (conj : Bool) (vs : List (List Int)) (k : Nat) : Int :=
  let e := k / 2 * 2
  let ar := src vs 0 e
  let ai := src vs 0 (e + 1)
  let br := src vs 1 e
  let bi := if conj then -(src vs 1 (e + 1)) else src vs 1 (e + 1)
  if k % 2 = 0 then ar * br - ai * bi else ar * bi + ai * br

/-- VADD: d = a + b. -/
def execVadd (h : KHd) (b a d : Nat) (s : State) : Host.Outcome State Fault Refusal :=
  .next (vecOp s h true [a, b] d 2 fun v k => fin32 h (src v 0 k + src v 1 k))

/-- VSUB: d = a - b. -/
def execVsub (h : KHd) (b a d : Nat) (s : State) : Host.Outcome State Fault Refusal :=
  .next (vecOp s h true [a, b] d 2 fun v k => fin32 h (src v 0 k - src v 1 k))

/-- VNEG: d = -a; B must be 0. -/
def execVneg (h : KHd) (b a d : Nat) (s : State) : Host.Outcome State Fault Refusal :=
  .next (vecOp s h (b == 0) [a] d 2 fun v k => fin32 h (-(src v 0 k)))

/-- VABS: d = |a|. -/
def execVabs (h : KHd) (_b a d : Nat) (s : State) : Host.Outcome State Fault Refusal :=
  .next (vecOp s h true [a] d 2 fun v k => fin32 h (src v 0 k).natAbs)

/-- VMIN: d = min(a, b). -/
def execVmin (h : KHd) (b a d : Nat) (s : State) : Host.Outcome State Fault Refusal :=
  .next (vecOp s h true [a, b] d 2 fun v k => exact (min (src v 0 k) (src v 1 k)))

/-- VMAX: d = max(a, b). -/
def execVmax (h : KHd) (b a d : Nat) (s : State) : Host.Outcome State Fault Refusal :=
  .next (vecOp s h true [a, b] d 2 fun v k => exact (max (src v 0 k) (src v 1 k)))

/-- VAND. -/
def execVand (h : KHd) (b a d : Nat) (s : State) : Host.Outcome State Fault Refusal :=
  .next (vecOp s h true [a, b] d 2 fun v k => exact (onBits (· &&& ·) (src v 0 k) (src v 1 k)))

/-- VOR. -/
def execVor (h : KHd) (b a d : Nat) (s : State) : Host.Outcome State Fault Refusal :=
  .next (vecOp s h true [a, b] d 2 fun v k => exact (onBits (· ||| ·) (src v 0 k) (src v 1 k)))

/-- VXOR. -/
def execVxor (h : KHd) (b a d : Nat) (s : State) : Host.Outcome State Fault Refusal :=
  .next (vecOp s h true [a, b] d 2 fun v k => exact (onBits (· ^^^ ·) (src v 0 k) (src v 1 k)))

/-- VSHL: d = a × 2^(b[5:0]). -/
def execVshl (h : KHd) (b a d : Nat) (s : State) : Host.Outcome State Fault Refusal :=
  .next (vecOp s h true [a, b] d 2 fun v k => fin32 h (src v 0 k * 2 ^ (unsigned 6 (src v 1 k))))

/-- VSHR: d = RHU(a / 2^(b[5:0])). -/
def execVshr (h : KHd) (b a d : Nat) (s : State) : Host.Outcome State Fault Refusal :=
  .next (vecOp s h true [a, b] d 2 fun v k => fin32 h (rhu (unsigned 6 (src v 1 k)) (src v 0 k)))

/-- VLSR: a shifted right logically by b[5:0]. -/
def execVlsr (h : KHd) (b a d : Nat) (s : State) : Host.Outcome State Fault Refusal :=
  .next (vecOp s h true [a, b] d 2 fun v k => exact (onBits (fun x y => x >>> (y % 64)) (src v 0 k) (src v 1 k)))

/-- VSHLI: d = a × 2^(IMM8[5:0]). -/
def execVshli (h : KHd) (imm a d : Nat) (s : State) : Host.Outcome State Fault Refusal :=
  .next (vecOp s h true [a] d 2 fun v k => fin32 h (src v 0 k * 2 ^ (imm % 64)))

/-- VSHRI: d = RHU(a / 2^(IMM8[5:0])). -/
def execVshri (h : KHd) (imm a d : Nat) (s : State) : Host.Outcome State Fault Refusal :=
  .next (vecOp s h true [a] d 2 fun v k => fin32 h (rhu (imm % 64) (src v 0 k)))

/-- VMOV: d = a. -/
def execVmov (h : KHd) (_b a d : Nat) (s : State) : Host.Outcome State Fault Refusal :=
  .next (vecOp s h true [a] d 2 fun v k => exact (src v 0 k))

/-- VBCAST: every lane takes lane IMM8[1:0] of a. -/
def execVbcast (h : KHd) (imm a d : Nat) (s : State) : Host.Outcome State Fault Refusal :=
  .next (vecOp s h true [a] d 2 fun v _ => exact (src v 0 (imm % 4)))

/-- VPERM: lane k takes lane IMM8[2k+1:2k] of a. -/
def execVperm (h : KHd) (imm a d : Nat) (s : State) : Host.Outcome State Fault Refusal :=
  .next (vecOp s h true [a] d 2 fun v k => exact (src v 0 (imm / 4 ^ k % 4)))

/-- VMUL: d = RHU(a × b / 2^24). -/
def execVmul (h : KHd) (b a d : Nat) (s : State) : Host.Outcome State Fault Refusal :=
  .next (vecOp s h true [a, b] d 4 fun v k => fin32 h (rhu 24 (src v 0 k * src v 1 k)))

/-- VMULQ: d = RHU(a × b / 2^30). -/
def execVmulq (h : KHd) (b a d : Nat) (s : State) : Host.Outcome State Fault Refusal :=
  .next (vecOp s h true [a, b] d 4 fun v k => fin32 h (rhu 30 (src v 0 k * src v 1 k)))

/-- VNAR: N = IMM8[4:0], 8 to 24. -/
def execVnar (h : KHd) (imm a d : Nat) (s : State) : Host.Outcome State Fault Refusal :=
  .next (vecOp s h (decide (8 ≤ imm % 32) && decide (imm % 32 ≤ 24)) [a] d 2 fun v k => narrow h (imm % 32) (src v 0 k))

/-- VCMPEQ: bit k of pd = (a = b). -/
def execVcmpeq (h : KHd) (b a pd : Nat) (s : State) : Host.Outcome State Fault Refusal :=
  .next (cmpOp s h a b pd fun x y => x == y)

/-- VCMPLT: bit k of pd = (a < b). -/
def execVcmplt (h : KHd) (b a pd : Nat) (s : State) : Host.Outcome State Fault Refusal :=
  .next (cmpOp s h a b pd fun x y => decide (x < y))

/-- VCMPLE: bit k of pd = (a ≤ b). -/
def execVcmple (h : KHd) (b a pd : Nat) (s : State) : Host.Outcome State Fault Refusal :=
  .next (cmpOp s h a b pd fun x y => decide (x ≤ y))

/-- VMOVX: every lane takes x(A[3:0]); A[5:4] and B must be 0. -/
def execVmovx (h : KHd) (b a d : Nat) (s : State) : Host.Outcome State Fault Refusal :=
  .next (vecOp s h (decide (a < 16) && b == 0) [] d 2 fun _ _ => exact (signed 32 ((coreOf s h.core).xr a)))

/-- MUL: acc = a × b. -/
def execMul (h : KHd) (_ln b a acc : Nat) (s : State) : Host.Outcome State Fault Refusal :=
  .next (accOp s h true false [a, b] acc fun v k => src v 0 k * src v 1 k)

/-- MAC: acc += a × b. -/
def execMac (h : KHd) (_ln b a acc : Nat) (s : State) : Host.Outcome State Fault Refusal :=
  .next (accOp s h true true [a, b] acc fun v k => src v 0 k * src v 1 k)

/-- MSU: acc -= a × b. -/
def execMsu (h : KHd) (_ln b a acc : Nat) (s : State) : Host.Outcome State Fault Refusal :=
  .next (accOp s h true true [a, b] acc fun v k => -(src v 0 k * src v 1 k))

/-- MULB: acc = a × b_(LANE). -/
def execMulb (h : KHd) (ln b a acc : Nat) (s : State) : Host.Outcome State Fault Refusal :=
  .next (accOp s h true false [a, b] acc fun v k => src v 0 k * src v 1 (ln % 4))

/-- MACB: acc += a × b_(LANE). -/
def execMacb (h : KHd) (ln b a acc : Nat) (s : State) : Host.Outcome State Fault Refusal :=
  .next (accOp s h true true [a, b] acc fun v k => src v 0 k * src v 1 (ln % 4))

/-- MSUB: acc -= a × b_(LANE). -/
def execMsub (h : KHd) (ln b a acc : Nat) (s : State) : Host.Outcome State Fault Refusal :=
  .next (accOp s h true true [a, b] acc fun v k => -(src v 0 k * src v 1 (ln % 4)))

/-- CMAC: acc += a × b on lane pairs. -/
def execCmac (h : KHd) (_ln b a acc : Nat) (s : State) : Host.Outcome State Fault Refusal :=
  .next (accOp s h true true [a, b] acc fun v k => cmul false v k)

/-- CMACJ: acc += a × conj(b) on lane pairs. -/
def execCmacj (h : KHd) (_ln b a acc : Nat) (s : State) : Host.Outcome State Fault Refusal :=
  .next (accOp s h true true [a, b] acc fun v k => cmul true v k)

/-- ACLR: acc = 0. -/
def execAclr (h : KHd) (_shift acc _v : Nat) (s : State) : Host.Outcome State Fault Refusal :=
  .next (accOp s h true false [] acc fun _ _ => 0)

/-- ACCLD: acc = v × 2^SHIFT, SHIFT from 0 to 40. -/
def execAccld (h : KHd) (shift acc v : Nat) (s : State) : Host.Outcome State Fault Refusal :=
  .next (accOp s h (decide (shift ≤ 40)) false [v] acc fun x k => src x 0 k * 2 ^ shift)

/-- ACCADD: acc += v × 2^SHIFT, SHIFT from 0 to 40. -/
def execAccadd (h : KHd) (shift acc v : Nat) (s : State) : Host.Outcome State Fault Refusal :=
  .next (accOp s h (decide (shift ≤ 40)) true [v] acc fun x k => src x 0 k * 2 ^ shift)

/-- ARND: v = SAT_32(RHU(acc / 2^SHIFT)); the accumulator is read at issue (R140). -/
def execArnd (h : KHd) (shift acc v : Nat) (s : State) : Host.Outcome State Fault Refusal :=
  .next (match (coreOf s h.core).aPhys acc with
    | some r => vecOp s h true [] v 2 fun _ k => fin32 h (rhu (shift % 64) (((coreOf s h.core).aLanes r).getD k 0))
    | none => if mayIssue s h.core && vecSlot h && (coreOf s h.core).guardMask h != 0 then kpuFault s h.core (if h.rsv != 0 then 1 else 4) 0 else s)

end Sys2Proof.Machine
end

