-- ==== Sys2Proof/Machine/Dispatch.lean ====
section
/-! DEFINITION. What each command does: one arm per row of the table, each one direct call of its meaning. -/

namespace Sys2Proof.Machine

open Sys2Proof

def exec (i : Instr) (s : State) : Host.Outcome State Fault Refusal :=
  match i with
  | .frameBoundary bi => Sys2Proof.Machine.execFrameBoundary bi s
  | .pathRender => Sys2Proof.Machine.execPathRender s
  | .correctionGroupStart g => Sys2Proof.Machine.execCorrectionGroupStart g s
  | .convBlockWork c p => Sys2Proof.Machine.execConvBlockWork c p s
  | .setConversionDone c slot => Sys2Proof.Machine.execSetConversionDone c slot s
  | .safetyStage => Sys2Proof.Machine.execSafetyStage s
  | .emissionCutoff => Sys2Proof.Machine.execEmissionCutoff s
  | .rootPllRelockDone => Sys2Proof.Machine.execRootPllRelockDone s
  | .dispatcherCycle => Sys2Proof.Machine.execDispatcherCycle s
  | .tdoneDrainEnd k cycles => Sys2Proof.Machine.execTdoneDrainEnd k cycles s
  | .tsigDrainEnd k cycles => Sys2Proof.Machine.execTsigDrainEnd k cycles s
  | .nop h => Sys2Proof.Machine.execNop h s
  | .vadd h b a d => Sys2Proof.Machine.execVadd h b a d s
  | .vsub h b a d => Sys2Proof.Machine.execVsub h b a d s
  | .vneg h b a d => Sys2Proof.Machine.execVneg h b a d s
  | .vabs h b a d => Sys2Proof.Machine.execVabs h b a d s
  | .vmin h b a d => Sys2Proof.Machine.execVmin h b a d s
  | .vmax h b a d => Sys2Proof.Machine.execVmax h b a d s
  | .vand h b a d => Sys2Proof.Machine.execVand h b a d s
  | .vor h b a d => Sys2Proof.Machine.execVor h b a d s
  | .vxor h b a d => Sys2Proof.Machine.execVxor h b a d s
  | .vshl h b a d => Sys2Proof.Machine.execVshl h b a d s
  | .vshr h b a d => Sys2Proof.Machine.execVshr h b a d s
  | .vlsr h b a d => Sys2Proof.Machine.execVlsr h b a d s
  | .vshli h imm a d => Sys2Proof.Machine.execVshli h imm a d s
  | .vshri h imm a d => Sys2Proof.Machine.execVshri h imm a d s
  | .vmov h b a d => Sys2Proof.Machine.execVmov h b a d s
  | .vbcast h imm a d => Sys2Proof.Machine.execVbcast h imm a d s
  | .vperm h imm a d => Sys2Proof.Machine.execVperm h imm a d s
  | .vmul h b a d => Sys2Proof.Machine.execVmul h b a d s
  | .vmulq h b a d => Sys2Proof.Machine.execVmulq h b a d s
  | .vnar h imm a d => Sys2Proof.Machine.execVnar h imm a d s
  | .vcmpeq h b a pd => Sys2Proof.Machine.execVcmpeq h b a pd s
  | .vcmplt h b a pd => Sys2Proof.Machine.execVcmplt h b a pd s
  | .vcmple h b a pd => Sys2Proof.Machine.execVcmple h b a pd s
  | .vmovx h b a d => Sys2Proof.Machine.execVmovx h b a d s
  | .mul h ln b a acc => Sys2Proof.Machine.execMul h ln b a acc s
  | .mac h ln b a acc => Sys2Proof.Machine.execMac h ln b a acc s
  | .msu h ln b a acc => Sys2Proof.Machine.execMsu h ln b a acc s
  | .mulb h ln b a acc => Sys2Proof.Machine.execMulb h ln b a acc s
  | .macb h ln b a acc => Sys2Proof.Machine.execMacb h ln b a acc s
  | .msub h ln b a acc => Sys2Proof.Machine.execMsub h ln b a acc s
  | .cmac h ln b a acc => Sys2Proof.Machine.execCmac h ln b a acc s
  | .cmacj h ln b a acc => Sys2Proof.Machine.execCmacj h ln b a acc s
  | .aclr h shift acc v => Sys2Proof.Machine.execAclr h shift acc v s
  | .accld h shift acc v => Sys2Proof.Machine.execAccld h shift acc v s
  | .accadd h shift acc v => Sys2Proof.Machine.execAccadd h shift acc v s
  | .arnd h shift acc v => Sys2Proof.Machine.execArnd h shift acc v s
  | .ldv h a v => Sys2Proof.Machine.execLdv h a v s
  | .lds h a v => Sys2Proof.Machine.execLds h a v s
  | .stv h a v => Sys2Proof.Machine.execStv h a v s
  | .sts h a v => Sys2Proof.Machine.execSts h a v s
  | .ldx h a v => Sys2Proof.Machine.execLdx h a v s
  | .stx h a v => Sys2Proof.Machine.execStx h a v s
  | .addX h b a d => Sys2Proof.Machine.execAddX h b a d s
  | .subX h b a d => Sys2Proof.Machine.execSubX h b a d s
  | .andX h b a d => Sys2Proof.Machine.execAndX h b a d s
  | .orX h b a d => Sys2Proof.Machine.execOrX h b a d s
  | .xorX h b a d => Sys2Proof.Machine.execXorX h b a d s
  | .shl h b a d => Sys2Proof.Machine.execShl h b a d s
  | .shr h b a d => Sys2Proof.Machine.execShr h b a d s
  | .sra h b a d => Sys2Proof.Machine.execSra h b a d s
  | .addi h simm a d => Sys2Proof.Machine.execAddi h simm a d s
  | .movi h hi imm d => Sys2Proof.Machine.execMovi h hi imm d s
  | .cmp h cond b a pd => Sys2Proof.Machine.execCmp h cond b a pd s
  | .movv h ln v d => Sys2Proof.Machine.execMovv h ln v d s
  | .br h target => Sys2Proof.Machine.execBr h target s
  | .brx h b a d => Sys2Proof.Machine.execBrx h b a d s
  | .call h target => Sys2Proof.Machine.execCall h target s
  | .zloop h a stg target => Sys2Proof.Machine.execZloop h a stg target s
  | .setbase h b a d => Sys2Proof.Machine.execSetbase h b a d s
  | .setlen h b a d => Sys2Proof.Machine.execSetlen h b a d s
  | .mfs h spr x cyc => Sys2Proof.Machine.execMfs h spr x cyc s
  | .mts h spr x => Sys2Proof.Machine.execMts h spr x s
  | .dmaq h a ch => Sys2Proof.Machine.execDmaq h a ch s
  | .dmaqQueueSpace k cycles => Sys2Proof.Machine.execDmaqQueueSpace k cycles s
  | .dmaw h a ch => Sys2Proof.Machine.execDmaw h a ch s
  | .dmawReturn k cycles => Sys2Proof.Machine.execDmawReturn k cycles s
  | .dmaTransferDone k ch => Sys2Proof.Machine.execDmaTransferDone k ch s
  | .tdone h => Sys2Proof.Machine.execTdone h s
  | .tsig h a => Sys2Proof.Machine.execTsig h a s
  | .swi h => Sys2Proof.Machine.execSwi h s
  | .rfi h => Sys2Proof.Machine.execRfi h s
  | .bkpt h => Sys2Proof.Machine.execBkpt h s
  | .interruptEntry k => Sys2Proof.Machine.execInterruptEntry k s
  | .kpuMbox k v => Sys2Proof.Machine.execKpuMbox k v s
  | .kpuFaultClear v => Sys2Proof.Machine.execKpuFaultClear v s
  | .kpuDivRequest v => Sys2Proof.Machine.execKpuDivRequest v s
  | .kpuGateRequest v => Sys2Proof.Machine.execKpuGateRequest v s
  | .dispCancel v => Sys2Proof.Machine.execDispCancel v s
  | .dispHistclr v => Sys2Proof.Machine.execDispHistclr v s
  | .geomForce v => Sys2Proof.Machine.execGeomForce v s
  | .xptNgainWrite v => Sys2Proof.Machine.execXptNgainWrite v s
  | .xptCeillimWrite v => Sys2Proof.Machine.execXptCeillimWrite v s
  | .xptFmuteSet v => Sys2Proof.Machine.execXptFmuteSet v s
  | .xptFmuteClear v => Sys2Proof.Machine.execXptFmuteClear v s
  | .xptHoldClear v => Sys2Proof.Machine.execXptHoldClear v s
  | .houseMuteAssert => Sys2Proof.Machine.execHouseMuteAssert s
  | .houseMuteRelease => Sys2Proof.Machine.execHouseMuteRelease s
  | .identify h => Sys2Proof.Machine.execIdentify h s
  | .ping h data => Sys2Proof.Machine.execPing h data s
  | .time h => Sys2Proof.Machine.execTime h s
  | .read h a n => Sys2Proof.Machine.execRead h a n s
  | .write h a l => Sys2Proof.Machine.execWrite h a l s
  | .modify h a m v => Sys2Proof.Machine.execModify h a m v s
  | .snapshot h f l => Sys2Proof.Machine.execSnapshot h f l s
  | .stageBegin h n g => Sys2Proof.Machine.execStageBegin h n g s
  | .stageData h o d => Sys2Proof.Machine.execStageData h o d s
  | .stageEnd h => Sys2Proof.Machine.execStageEnd h s
  | .stageFromReel h k => Sys2Proof.Machine.execStageFromReel h k s
  | .reelCopyDone => Sys2Proof.Machine.execReelCopyDone s
  | .stageCheckResume => Sys2Proof.Machine.execStageCheckResume s
  | .stageCheckDone => Sys2Proof.Machine.execStageCheckDone s
  | .stageDiscard h => Sys2Proof.Machine.execStageDiscard h s
  | .stageStatus h => Sys2Proof.Machine.execStageStatus h s
  | .cut h m hard t0 t1 g => Sys2Proof.Machine.execCut h m hard t0 t1 g s
  | .cutCancel h => Sys2Proof.Machine.execCutCancel h s
  | .reelBegin h k n => Sys2Proof.Machine.execReelBegin h k n s
  | .reelData h k o d => Sys2Proof.Machine.execReelData h k o d s
  | .reelEnd h k => Sys2Proof.Machine.execReelEnd h k s
  | .reelDelete h k => Sys2Proof.Machine.execReelDelete h k s
  | .reelList h => Sys2Proof.Machine.execReelList h s
  | .logRead h a n => Sys2Proof.Machine.execLogRead h a n s
  | .logInfo h => Sys2Proof.Machine.execLogInfo h s
  | .logSpill h => Sys2Proof.Machine.execLogSpill h s
  | .logClear h => Sys2Proof.Machine.execLogClear h s
  | .pairStatus h => Sys2Proof.Machine.execPairStatus h s
  | .pairSwitchover h f => Sys2Proof.Machine.execPairSwitchover h f s
  | .pairResync h => Sys2Proof.Machine.execPairResync h s
  | .setBegin h b k n => Sys2Proof.Machine.execSetBegin h b k n s
  | .setData h o d => Sys2Proof.Machine.execSetData h o d s
  | .setEnd h => Sys2Proof.Machine.execSetEnd h s
  | .setChange h b k f x => Sys2Proof.Machine.execSetChange h b k f x s
  | .setQuery h b => Sys2Proof.Machine.execSetQuery h b s
  | .genStart h f => Sys2Proof.Machine.execGenStart h f s
  | .genStop h f => Sys2Proof.Machine.execGenStop h f s
  | .fwBegin h img n => Sys2Proof.Machine.execFwBegin h img n s
  | .fwData h o d => Sys2Proof.Machine.execFwData h o d s
  | .fwEnd h => Sys2Proof.Machine.execFwEnd h s
  | .fwSwitch h img f => Sys2Proof.Machine.execFwSwitch h img f s
  | .fwStatus h => Sys2Proof.Machine.execFwStatus h s
  | .fwReady v => Sys2Proof.Machine.execFwReady v s
  | .fwFallback => Sys2Proof.Machine.execFwFallback s
  | .metaInject h b => Sys2Proof.Machine.execMetaInject h b s
  | .memFsp h t => Sys2Proof.Machine.execMemFsp h t s
  | .memRetrain h => Sys2Proof.Machine.execMemRetrain h s
  | .eccInject h k kind o => Sys2Proof.Machine.execEccInject h k kind o s
  | .hostCmdtailWrite data v => Sys2Proof.Machine.execHostCmdtailWrite data v s
  | .hostRplheadWrite v => Sys2Proof.Machine.execHostRplheadWrite v s
  | .replyHoldRelease => Sys2Proof.Machine.execReplyHoldRelease s
  | .readStat => Sys2Proof.Machine.execReadStat s
  | .writeCmd b => Sys2Proof.Machine.execWriteCmd b s
  | .readRpl => Sys2Proof.Machine.execReadRpl s
  | .ackRpl => Sys2Proof.Machine.execAckRpl s
  | .qspiUnknownInstruction => Sys2Proof.Machine.execQspiUnknownInstruction s
  | .intstatClear n v => Sys2Proof.Machine.execIntstatClear n v s
  | .msixVectorUnmask n => Sys2Proof.Machine.execMsixVectorUnmask n s
  | .registerWrite a v be => Sys2Proof.Machine.execRegisterWrite a v be s
  | .pciePerst low => Sys2Proof.Machine.execPciePerst low s
  | .streamPacketReceive r leg m => Sys2Proof.Machine.execStreamPacketReceive r leg m s
  | .streamLegDown r leg => Sys2Proof.Machine.execStreamLegDown r leg s
  | .ompReceive => Sys2Proof.Machine.execOmpReceive s
  | .frameReceive p b cap codeErr align fill => Sys2Proof.Machine.execFrameReceive p b cap codeErr align fill s
  | .pauseExpire p q t => Sys2Proof.Machine.execPauseExpire p q t s
  | .xoffRefresh p fill => Sys2Proof.Machine.execXoffRefresh p fill s
  | .macFrameEnd p t => Sys2Proof.Machine.execMacFrameEnd p t s
  | .linkStateChange p up speed an lf rf => Sys2Proof.Machine.execLinkStateChange p up speed an lf rf s
  | .ptpSyncReceive p m => Sys2Proof.Machine.execPtpSyncReceive p m s
  | .followUpReceive p m => Sys2Proof.Machine.execFollowUpReceive p m s
  | .servoTimeout p => Sys2Proof.Machine.execServoTimeout p s
  | .fdiffReport p => Sys2Proof.Machine.execFdiffReport p s
  | .pdelayReqReceive p m => Sys2Proof.Machine.execPdelayReqReceive p m s
  | .launchRequest p m t => Sys2Proof.Machine.execLaunchRequest p m t s
  | .launchDue p t => Sys2Proof.Machine.execLaunchDue p t s
  | .tsqRead p => Sys2Proof.Machine.execTsqRead p s
  | .timeSet v => Sys2Proof.Machine.execTimeSet v s
  | .measurementWindow meas dco => Sys2Proof.Machine.execMeasurementWindow meas dco s
  | .refStop r => Sys2Proof.Machine.execRefStop r s
  | .rateMismatch r offset => Sys2Proof.Machine.execRateMismatch r offset s
  | .spliceStepMeasure delta => Sys2Proof.Machine.execSpliceStepMeasure delta s
  | .fastlockStep => Sys2Proof.Machine.execFastlockStep s
  | .dpllLock => Sys2Proof.Machine.execDpllLock s
  | .dpllLockLoss => Sys2Proof.Machine.execDpllLockLoss s
  | .xoInFault stopped => Sys2Proof.Machine.execXoInFault stopped s
  | .rootPllUnlock => Sys2Proof.Machine.execRootPllUnlock s
  | .xosuspectClear v => Sys2Proof.Machine.execXosuspectClear v s
  | .tdmMaskRelease p idx m => Sys2Proof.Machine.execTdmMaskRelease p idx m s
  | .tdmZeroxTimeout p out j => Sys2Proof.Machine.execTdmZeroxTimeout p out j s
  | .decSettled c => Sys2Proof.Machine.execDecSettled c s
  | .pdmLoadStrobe g phase => Sys2Proof.Machine.execPdmLoadStrobe g phase s
  | .pdmClearAssert => Sys2Proof.Machine.execPdmClearAssert s
  | .pdmClearRelease => Sys2Proof.Machine.execPdmClearRelease s
  | .dramRequest q => Sys2Proof.Machine.execDramRequest q s
  | .agePromotion id t => Sys2Proof.Machine.execAgePromotion id t s
  | .dramRequestComplete ch hit => Sys2Proof.Machine.execDramRequestComplete ch hit s
  | .refresh => Sys2Proof.Machine.execRefresh s
  | .wckDqOscillatorRead counts => Sys2Proof.Machine.execWckDqOscillatorRead counts s
  | .mr4Poll rates => Sys2Proof.Machine.execMr4Poll rates s
  | .rowHammerRefresh bank row => Sys2Proof.Machine.execRowHammerRefresh bank row s
  | .rowHammerTableClear => Sys2Proof.Machine.execRowHammerTableClear s
  | .powerDownEntry rank => Sys2Proof.Machine.execPowerDownEntry rank s
  | .selfRefreshEntry issued => Sys2Proof.Machine.execSelfRefreshEntry issued s
  | .memTrainStart v => Sys2Proof.Machine.execMemTrainStart v s
  | .memTrainingDone fsp1 fsp0 ms => Sys2Proof.Machine.execMemTrainingDone fsp1 fsp0 ms s
  | .memFspreqGo v => Sys2Proof.Machine.execMemFspreqGo v s
  | .memFspChangeDone t ms => Sys2Proof.Machine.execMemFspChangeDone t ms s
  | .fabricRequest m src a len data parity => Sys2Proof.Machine.execFabricRequest m src a len data parity s
  | .burstGrant t => Sys2Proof.Machine.execBurstGrant t s
  | .masterReset m src beats => Sys2Proof.Machine.execMasterReset m src beats s
  | .fabDrainEvent m src cycles => Sys2Proof.Machine.execFabDrainEvent m src cycles s
  | .eccStormWindow => Sys2Proof.Machine.execEccStormWindow s
  | .stormClear v => Sys2Proof.Machine.execStormClear v s
  | .scrub => Sys2Proof.Machine.execScrub s
  | .clapSend => Sys2Proof.Machine.execClapSend s
  | .networkClapperSend => Sys2Proof.Machine.execNetworkClapperSend s
  | .clapperReceive net b => Sys2Proof.Machine.execClapperReceive net b s
  | .pairLinkClapLoss => Sys2Proof.Machine.execPairLinkClapLoss s
  | .networkClapLoss => Sys2Proof.Machine.execNetworkClapLoss s
  | .pairLinkSync up => Sys2Proof.Machine.execPairLinkSync up s
  | .evidenceWindowExpire => Sys2Proof.Machine.execEvidenceWindowExpire s
  | .forceact v => Sys2Proof.Machine.execForceact v s
  | .digestReceive b => Sys2Proof.Machine.execDigestReceive b s
  | .switchReceive b => Sys2Proof.Machine.execSwitchReceive b s
  | .xferReceive b => Sys2Proof.Machine.execXferReceive b s
  | .alignReceive phase b => Sys2Proof.Machine.execAlignReceive phase b s
  | .resyncTimeout => Sys2Proof.Machine.execResyncTimeout s
  | .setreadyReceive b => Sys2Proof.Machine.execSetreadyReceive b s
  | .setschedReceive b => Sys2Proof.Machine.execSetschedReceive b s
  | .beaconSend => Sys2Proof.Machine.execBeaconSend s
  | .beaconReceive b => Sys2Proof.Machine.execBeaconReceive b s
  | .peerExpire n => Sys2Proof.Machine.execPeerExpire n s
  | .logStart v => Sys2Proof.Machine.execLogStart v s
  | .logCtrlClear v => Sys2Proof.Machine.execLogCtrlClear v s
  | .logRdseqSelect v => Sys2Proof.Machine.execLogRdseqSelect v s
  | .hoursTick => Sys2Proof.Machine.execHoursTick s
  | .powerOnReset xo test => Sys2Proof.Machine.execPowerOnReset xo test s
  | .resetN xo test => Sys2Proof.Machine.execResetN xo test s
  | .brownout xo test => Sys2Proof.Machine.execBrownout xo test s
  | .pwrGoodRise g => Sys2Proof.Machine.execPwrGoodRise g s
  | .sequenceTimeout => Sys2Proof.Machine.execSequenceTimeout s
  | .sysBootgo load v => Sys2Proof.Machine.execSysBootgo load v s
  | .ckeyWrite k w v => Sys2Proof.Machine.execCkeyWrite k w v s
  | .railUndervoltage rail mv under => Sys2Proof.Machine.execRailUndervoltage rail mv under s
  | .wdtKick v => Sys2Proof.Machine.execWdtKick v s
  | .wdtExpire rel => Sys2Proof.Machine.execWdtExpire rel s
  | .thermalSample temps => Sys2Proof.Machine.execThermalSample temps s
  | .thermalTrip sensor temp => Sys2Proof.Machine.execThermalTrip sensor temp s
  | .thermalShutdown => Sys2Proof.Machine.execThermalShutdown s
  | .pwrDarkEnter v => Sys2Proof.Machine.execPwrDarkEnter v s
  | .hostWake => Sys2Proof.Machine.execHostWake s
  | .pmbusTransaction v => Sys2Proof.Machine.execPmbusTransaction v s
  | .pmbusDone nack pec data => Sys2Proof.Machine.execPmbusDone nack pec data s
  | .pmbAlert => Sys2Proof.Machine.execPmbAlert s
  | .referenceGlitch r => Sys2Proof.Machine.execReferenceGlitch r s
  | .launchLatewinExpire p t => Sys2Proof.Machine.execLaunchLatewinExpire p t s
  | .registerRead a => Sys2Proof.Machine.execRegisterRead a s
  | .hostCauseenWrite inten v => Sys2Proof.Machine.execHostCauseenWrite inten v s
  | .netrefclkLoss lost => Sys2Proof.Machine.execNetrefclkLoss lost s

end Sys2Proof.Machine
end

