-- ==== Sys2Proof/Machine/Pins.lean ====
section
/-! DEFINITION. What the output pins carry, computed from the state: TDM ports, pulse-density outputs, clock outputs and the status
pins of the clock system (R364, R366, R372, R380 to R383, R390, R393 to R396, R457, R463, R501, R507). -/

namespace Sys2Proof.Machine

open Sys2Proof

/-- How the device drives its local outputs (R364, R457, R463, R501, R507): not at all without its rails or in a pair role that
drives nothing, low in FAULT, as before the first cut without an active take, else as the take says. -/
inductive OutPhase
  | tri | fault | precut | run
deriving DecidableEq, Repr

/-- The phase of the local outputs. Letting the drivers go comes before the low level of FAULT, since a unit of a pair that faults
releases them (R457; DEDUCED, assumption 85). -/
def outPhase (s : State) : OutPhase :=
  if !powered s || !s.pair.driven then .tri
  else if s.clk.st = .fault then .fault
  else if s.take.active.isNone then .precut
  else .run

/-- What a TDM port drives on DOUT in a slot of a period (R380, R383): tristated, low, or a word. -/
inductive Dout
  | tri
  | low
  | word (w : Nat)
deriving DecidableEq, Repr

/-- DOUT before the first cut, and of a port that is off (R383). -/
def precutDout (s : State) : Dout := if getF s F.TDM_PRECUT_DOUTTRI = 1 then .tri else .low

/-- The word of slot j in the output block of port p that sample i of the media timeline reads: of the frame whose output boundary
is the one before it (R24, R375). Each period carries the sample of its assigned index, so that an index a slip skips is not sent
and one it keeps is sent again (R378). An uncorrectable codeword reads as zero (R441). -/
def tdmOutWord (s : State) (p : Nat) (i : Int) (j : Nat) : Nat :=
  match s.take.active with
  | none => 0
  | some t =>
    let n := i / 16 - (s.tl.depth : Int)
    let a := tdmOutAt s t.localio p n + 4 * (16 * (i % 16).toNat + j)
    leVal ((List.range 4).map fun b => readByte s (a + b))

/-- The DOUT pin of port p in slot j of period m of the sample with position i (R380 to R383). -/
def doutOf (s : State) (p : Nat) (i : Int) (m j : Nat) : Dout :=
  let q := tdmOf s p
  let masked : Dout := if bit q.pcfg 16 then .tri else .word 0
  match outPhase s with
  | .tri => .tri
  | .fault => .low
  | .precut => precutDout s
  | .run =>
    match q.st with
    | .off => precutDout s
    | .priming => masked
    | .stopping => if !bit (maskAt q i m) (16 + j) then masked else .word (if q.zerox then tdmOutWord s p i j else 0)
    | .run => if !bit (maskAt q i m) (16 + j) then masked else .word (tdmOutWord s p i j)

/-- The bit of a slot word in BCLK cycle b of its slot: MSB first (R372). -/
def tdmBit (w b : Nat) : Bool := bit w (31 - b % 32)

/-- FS in BCLK cycle b of a period, b counted from the MSB of slot 0 (R372): high for one BCLK, or in I2S framing high for slot 1;
FSDLY puts the FS edge one BCLK earlier, FSPOL inverts. -/
def tdmFs (pcfg b : Nat) : Bool :=
  let c := (b + b2n (bit pcfg 17)) % (32 * tdmSlots pcfg)
  (if bit pcfg 20 then decide (c ≥ 32) else c == 0) != bit pcfg 18

/-- Data is sampled on the rising edge of BCLK and driven on the falling one; BPOL swaps them (R372). -/
def tdmSampleRising (pcfg : Nat) : Bool := !bit pcfg 19

/-- What a clock pin does: tristated or received, low, or running. -/
inductive ClkPin
  | tri | low | run
deriving DecidableEq, Repr

/-- BCLK and FS of port p (R372, R381, R383, R463, R501): a master port that drives its outputs runs them. -/
def tdmClock (s : State) (p : Nat) : ClkPin :=
  let q := tdmOf s p
  match outPhase s with
  | .tri => .tri
  | .fault => .low
  | .precut => if getF s F.TDM_PRECUT_CLKON = 1 then .run else .low
  | .run => if q.st = .off then .low else if tdmMaster q.pcfg then .run else .tri

/-- MIC_CLK runs whenever a channel takes a microphone source (R384). -/
def micClock (s : State) : ClkPin :=
  match outPhase s with
  | .tri => .tri
  | .fault => .low
  | _ => if s.lio.decs.toList.any fun d => decide (d.r ≠ 0 ∧ d.src < 16) then .run else .low

/-- What the pins of a group carry (R393 to R396). -/
inductive PdmOut
  | tri | low | high | idle
  /-- the bits of its eight outputs -/
  | bits (b : List Nat)
deriving DecidableEq, Repr

/-- The pins of group g: PDM_CLEAR_N overrides every state but tristate and FAULT (R395). -/
def pdmPins (s : State) (g : Nat) : PdmOut :=
  let cfg := pdmCfg s g
  match outPhase s with
  | .tri => .tri
  | .fault => .low
  | _ =>
    if s.lio.clear then (if bits cfg 26 25 = 1 then .low else if bits cfg 26 25 = 2 then .high else .idle)
    else match (pdmOf s g).out with
      | some b => .bits b
      | none => .idle

/-- PDM_CLKg, at 64 or 128 times fs (R390, R463, R501). -/
def pdmClock (s : State) : ClkPin :=
  match outPhase s with
  | .tri => .tri
  | .fault => .low
  | _ => .run

/-- What a clock output carries (R366). -/
inductive OutClk
  | tri | low | mclk | mclkHalf | mclkQuarter
  /-- fs with its edge at the sample instant rising, or falling -/
  | sample (rising : Bool)
  /-- high for one MCLK period from each frame boundary -/
  | strobe
  /-- high for 100 ms from each instant at which the nanoseconds of local time are 0 -/
  | pps
deriving DecidableEq, Repr

/-- SQUELCH acts: FREE_RUN, HOLDOVER_UNAVERAGED and FAULT (R366), as CLK_STATUS shows the state. -/
def untrusted (s : State) : Bool := [0, 4, 7].contains (getF s F.CLK_STATUS_REF_STATE)

/-- A clock output with its EN and SQUELCH. -/
def outClk (s : State) (en squelch : Bool) (c : OutClk) : OutClk :=
  if outPhase s = .tri then .tri else if !en || (squelch && untrusted s) then .low else c

/-- CLKOUTn (R366). -/
def clkOut (s : State) (n : Nat) : OutClk :=
  let f := fun (x : Fld) => getF s (x.plus (4 * n))
  outClk s (f F.CLK_OUTCFG_EN == 1) (f F.CLK_OUTCFG_SQUELCH == 1)
    ([OutClk.mclk, .mclkHalf, .mclkQuarter, .sample true, .strobe, .pps].getD (f F.CLK_OUTCFG_SEL) .mclk)

/-- WCLK_OUT (R366): its active edge is at each sample instant. -/
def wclkOut (s : State) : OutClk :=
  outClk s (getF s F.CLK_WCLKCFG_EN == 1) (getF s F.CLK_WCLKCFG_SQUELCH == 1) (.sample (getF s F.CLK_WCLKCFG_POL == 0))

/-- The pins of the interfaces that are neither local audio nor clock outputs, as the reset table lists them (R523). -/
inductive BusPin
  | qspiIo | flashIo | flashSck | flashCsN | uartTx | jtagTdo | pmbScl | pmbSda | hostIrqN | memResetN | memSignal | laneTx
deriving DecidableEq, Repr

/-- What such a pin carries: a level, nothing (an internal pull, where it has one, stays connected), nothing with an open drain
released, an idle transmitter or DRAM signal, or what its interface does. -/
inductive PinLevel
  | low | high | highZ | released | idle | functional
deriving DecidableEq, Repr

/-- The reset state of the table of R523. -/
def resetLevel : BusPin → PinLevel
  | .qspiIo | .flashIo | .jtagTdo => .highZ
  | .flashSck | .memResetN => .low
  | .flashCsN | .uartTx => .high
  | .pmbScl | .pmbSda | .hostIrqN => .released
  | .memSignal | .laneTx => .idle

/-- The internal pull of such a pin, which stays connected in every state (R523): only the data lines of the two quad-SPI
interfaces have one, upwards. -/
def pulledUp (p : BusPin) : Bool := p == .qspiIo || p == .flashIo

/-- The reset state holds until the device logic is up, with the state of R501 for the other outputs; then the interfaces drive
their pins (R523). What they carry in the Dark state no rule says; there the model keeps the reset state, but for the DRAM's reset,
which self-refresh needs released (R421, R507; DESIGN CHOICE, assumption 85). -/
def busPin (s : State) (p : BusPin) : PinLevel :=
  if powered s || (p == .memResetN && s.dram.selfRef == .dark) then .functional else resetLevel p

/-- The pins LOCK, REF_SEL and REF_STATE, which change with CLK_STATUS (R364, R370, R523). -/
def statusPins (s : State) : Nat × Nat × Nat :=
  (getF s F.CLK_STATUS_LOCK, getF s F.CLK_STATUS_REF_SEL, getF s F.CLK_STATUS_REF_STATE)

end Sys2Proof.Machine
end

