-- ==== Sys2Proof/Safety.lean ====
section
/-! DEFINITION. What counts as a safe state of the block, and the words the statements are written in. -/

namespace Sys2Proof.Machine

open Sys2Proof

/-- A step answers a next state. -/
def Goes (s : State) : Prop := ∃ t, step s = .next t

/-- The queues of the command engine keep their limits (R248, R250, R255, R260). -/
def QueuesBounded (s : State) : Prop :=
  s.ccp.frameQ.length ≤ 256 ∧ s.ccp.fwQ.length ≤ 32 ∧ s.ccp.snaps.length ≤ 8 ∧ s.ccp.spiIn.length ≤ 2

/-- The memory behind the fabric is in its canonical form. -/
def MemoryCanonical (s : State) : Prop := Memory.wf s.mem = true

/-- The register file is in its canonical form: offsets rising, none listed at what it reads unlisted. -/
def RegsCanonical (s : State) : Prop := Sparse.wf regDefault s.regs = true

/-- The lists of a take are as long as its sections have it (R212 to R215, R271, R397, R433). -/
def TakeFits (t : Take) : Prop :=
  t.safety.ceil.length = 8 ∧ t.safety.ceilsel.length = 96 ∧ t.xpt.moncfg.length = 128 ∧ t.localio.dec.length = 16 ∧
  t.localio.gcfg.length = 4 ∧ t.streams.tx.length ≤ 128 ∧ ∀ ms, t.fabric = some ms → ∀ r ∈ ms, r.wins.length = 16

/-- A vector operation executes: the core issues bundles, the slot is V0 or V1, no reserved bit is set and the guard lets some
lane through (R133, R134). -/
def VecActs (s : State) (h : KHd) : Prop :=
  mayIssue s h.core = true ∧ vecSlot h = true ∧ h.rsv = 0 ∧ (coreOf s h.core).guardMask h ≠ 0

/-- A CT operation executes: the core issues bundles, the slot is CT, bit 20 and the reserved bits are 0 and the guard is on
(R133, R134). -/
def CtActs (s : State) (h : KHd) : Prop :=
  mayIssue s h.core = true ∧ h.slot = 0 ∧ h.rsv = 0 ∧ h.w = false ∧ lane ((coreOf s h.core).guardMask h) 0 = true

/-- An LS operation may execute: the core issues bundles, the slot is LS, bit 20 and the reserved bits are 0 (R133). -/
def LsIssues (s : State) (h : KHd) : Prop :=
  mayIssue s h.core = true ∧ h.slot = 1 ∧ h.rsv = 0 ∧ h.w = false

/-- Lane k of physical vector register r, a signed value. -/
def laneOf (c : Core) (r k : Nat) : Int := Sparse.get0 c.v (4 * r + k)

/-- What an operation of a vector slot puts into flight for vector register r: lane values `y`, landing after `lat` bundles;
`sat` marks the lanes that were limited. -/
def vecFlight (c : Core) (h : KHd) (r lat : Nat) (y : Nat → Int) (sat : Nat → Bool) : Flight :=
  { left := lat, age := 0, slot := h.slot, file := .v, reg := r, mask := c.guardMask h, vals := [y 0, y 1, y 2, y 3],
    add := false, wrap := h.w, sat := b2n (sat 0) + b2n (sat 1) * 2 + b2n (sat 2) * 4 + b2n (sat 3) * 8 }

/-- The state with exact lane results `x` on their way to r: limited to 32 bits by saturation, or modulo 2^32 with W = 1 (R150). -/
def issuesLimited (s : State) (h : KHd) (r lat : Nat) (x : Nat → Int) : State :=
  issueFlight s h.core (vecFlight (coreOf s h.core) h r lat (fun k => if h.w then wrapS 32 (x k) else satS 32 (x k))
    (fun k => !h.w && overS 32 (x k)))

/-- The state with lane results that need no limit on their way to r. -/
def issuesExact (s : State) (h : KHd) (r lat : Nat) (x : Nat → Int) : State :=
  issueFlight s h.core (vecFlight (coreOf s h.core) h r lat x fun _ => false)

/-- The state with a predicate result on its way to pd: bit k where `p k` holds (R152). -/
def issuesPred (s : State) (h : KHd) (pd : Nat) (p : Nat → Bool) : State :=
  issueFlight s h.core
    { left := 2, age := 0, slot := h.slot, file := .p, reg := pd % 8 + 8 * b2n (coreOf s h.core).hm,
      mask := (coreOf s h.core).guardMask h,
      vals := [((b2n (p 0) + b2n (p 1) * 2 + b2n (p 2) * 4 + b2n (p 3) * 8 : Nat) : Int)], add := false, wrap := false, sat := 0 }

/-- The state with lane terms `x` on their way to accumulator r, added as they land with `add` (R140). -/
def issuesAcc (s : State) (h : KHd) (r : Nat) (add : Bool) (x : Nat → Int) : State :=
  issueFlight s h.core
    { left := 4, age := 0, slot := h.slot, file := .a, reg := r, mask := (coreOf s h.core).guardMask h,
      vals := [x 0, x 1, x 2, x 3], add := add, wrap := h.w, sat := 0 }

/-- The bundle completes with one more result on its way: register `reg` of a file, after `lat` bundles. -/
def ctWrites (s : State) (h : KHd) (file : FFile) (reg lat : Nat) (v : Int) : State :=
  closeBundle s h.core { CtAct.none with flights := [ctFlight file reg lat v] }

/-- The bundle completes with nothing more. -/
def ctCloses (s : State) (h : KHd) : State := closeBundle s h.core CtAct.none

/-- The bundle core k issues reads without error and holds no opcode that R152 does not list. -/
def BundleReads (s : State) (k : Nat) : Prop :=
  eccRead s (imemBase k + 16 * (coreOf s k).pc) 16 (kdma k) k = (false, s) ∧ unlisted s k = false

/-- Core k has nothing in flight, no branch pending and no loop armed, and its bundle reads well: a completing bundle does nothing
beyond what its operations do. -/
def Quiet (s : State) (k : Nat) : Prop :=
  (coreOf s k).flight = [] ∧ (coreOf s k).brs = [] ∧ (coreOf s k).armed = false ∧ BundleReads s k

/-- Core k stops in FAULT with a cause, the bundle that raised it and an address, and nothing left waiting (R158). -/
def StoppedWith (t : State) (k cause pc addr : Nat) : Prop :=
  (coreOf t k).state = .fault ∧ (coreOf t k).cause = cause ∧ (coreOf t k).faultPc = pc ∧ (coreOf t k).faultAddr = addr ∧
  (coreOf t k).brs = [] ∧ (coreOf t k).wait = none

/-- A core after one bundle that wrote nothing: the next bundle follows, the issued one is the last (R137, R164). -/
def nextBundle (c : Core) : Core := { c with pc := (c.pc + 1) % 4096, last := c.pc, busy := c.busy + 1 }

/-- Store of one word or one vector on its way to memory, landing as the bundle ends. -/
def storeFlight (k ea mask : Nat) (ws : List Int) : Flight :=
  { left := 1, age := 0, slot := 1, file := .m, reg := dmemBase k + ea, mask := mask, vals := ws, add := false, wrap := false,
    sat := 0 }

/-- A load on its way to a register, landing after 3 bundles. -/
def loadFlight (file : FFile) (r mask : Nat) (ws : List Int) : Flight :=
  { left := 3, age := 0, slot := 1, file := file, reg := r, mask := mask, vals := ws, add := false, wrap := false, sat := 0 }

/-- The little-endian word at an address of core k's data memory. -/
def dmemWord (s : State) (k ea : Nat) : Nat :=
  (Memory.read s.mem (dmemBase k + ea)).toNat + 256 * (Memory.read s.mem (dmemBase k + ea + 1)).toNat +
  65536 * (Memory.read s.mem (dmemBase k + ea + 2)).toNat + 16777216 * (Memory.read s.mem (dmemBase k + ea + 3)).toNat

/-- The command row of an operation. -/
def commandOf (h : CcpHdr) : CcpOp → Instr
  | .identify => .identify h
  | .ping d => .ping h d
  | .time => .time h
  | .read a n => .read h a n
  | .write a l => .write h a l
  | .modify a m v => .modify h a m v
  | .snapshot f l => .snapshot h f l
  | .stageBegin n g => .stageBegin h n g
  | .stageData o d => .stageData h o d
  | .stageEnd => .stageEnd h
  | .stageFromReel k => .stageFromReel h k
  | .stageDiscard => .stageDiscard h
  | .stageStatus => .stageStatus h
  | .cut m x t0 t1 g => .cut h m x t0 t1 g
  | .cutCancel => .cutCancel h
  | .reelBegin k n => .reelBegin h k n
  | .reelData k o d => .reelData h k o d
  | .reelEnd k => .reelEnd h k
  | .reelDelete k => .reelDelete h k
  | .reelList => .reelList h
  | .logRead a n => .logRead h a n
  | .logInfo => .logInfo h
  | .logSpill => .logSpill h
  | .logClear => .logClear h
  | .pairStatus => .pairStatus h
  | .pairSwitchover f => .pairSwitchover h f
  | .pairResync => .pairResync h
  | .setBegin b k n => .setBegin h b k n
  | .setData o d => .setData h o d
  | .setEnd => .setEnd h
  | .setChange b k f x => .setChange h b k f x
  | .setQuery b => .setQuery h b
  | .genStart f => .genStart h f
  | .genStop f => .genStop h f
  | .fwBegin i n => .fwBegin h i n
  | .fwData o d => .fwData h o d
  | .fwEnd => .fwEnd h
  | .fwSwitch i f => .fwSwitch h i f
  | .fwStatus => .fwStatus h
  | .metaInject b => .metaInject h b
  | .memFsp t => .memFsp h t
  | .memRetrain => .memRetrain h
  | .eccInject k kind o => .eccInject h k kind o

/-- Every parameter of a command fits its field of R261. -/
def ccpFits : CcpOp → Prop
  | .read a n => a < 2 ^ 32 ∧ n < 2 ^ 16
  | .write a l => a < 2 ^ 32 ∧ l.length < 2 ^ 16 ∧ ∀ v ∈ l, v < 2 ^ 32
  | .modify a m v => a < 2 ^ 32 ∧ m < 2 ^ 32 ∧ v < 2 ^ 32
  | .snapshot f l => f < 2 ^ 64 ∧ l.length < 2 ^ 16 ∧ ∀ r ∈ l, r.1 < 2 ^ 32 ∧ r.2 < 2 ^ 16
  | .stageBegin n g => n < 2 ^ 32 ∧ g < 2 ^ 32
  | .stageData o d => o < 2 ^ 32 ∧ d.length % 16 = 0
  | .stageFromReel k => k < 2 ^ 8
  | .cut m x t0 t1 g => m < 2 ^ 8 ∧ x < 2 ^ 8 ∧ t0 < 2 ^ 64 ∧ t1 < 2 ^ 32 ∧ g.length = 16
  | .reelBegin k n => k < 2 ^ 8 ∧ n < 2 ^ 32
  | .reelData k o _ => k < 2 ^ 8 ∧ o < 2 ^ 32
  | .reelEnd k => k < 2 ^ 8
  | .reelDelete k => k < 2 ^ 8
  | .logRead a n => a < 2 ^ 32 ∧ n < 2 ^ 16
  | .pairSwitchover f => f < 2 ^ 64
  | .setBegin b k n => b < 2 ^ 16 ∧ k < 2 ^ 8 ∧ n < 2 ^ 32
  | .setData o _ => o < 2 ^ 32
  | .setChange b k f x => b < 2 ^ 16 ∧ k < 2 ^ 8 ∧ f < 2 ^ 64 ∧ x < 2 ^ 16
  | .setQuery b => b < 2 ^ 16
  | .genStart f => f < 2 ^ 64
  | .genStop f => f < 2 ^ 64
  | .fwBegin i n => i < 2 ^ 8 ∧ n < 2 ^ 32
  | .fwData o _ => o < 2 ^ 32
  | .fwSwitch i f => i < 2 ^ 8 ∧ f < 2 ^ 64
  | .memFsp t => t < 2 ^ 8
  | .eccInject k kind o => k < 2 ^ 8 ∧ kind < 2 ^ 8 ∧ o < 2 ^ 32
  | _ => True

/-- A plain command header: version 1, no flags, status 0, a 32-bit SEQ (R243). -/
def PlainHdr (h : CcpHdr) : Prop := h.version = 1 ∧ h.flags = 0 ∧ h.status = 0 ∧ h.seq < 2 ^ 32

/-- Nothing waits on the host's transports: the command ring is empty and no reply waits for ring space; the quad-SPI buffer is empty
and its reply queue has room for a reply (R253, R255). -/
def TransportIdle (s : State) : Prop :=
  getR s Reg.HOST_CMDTAIL % 16 = 0 ∧ getR s Reg.HOST_CMDTAIL < 65536 ∧ getR s Reg.HOST_CMDHEAD = getR s Reg.HOST_CMDTAIL ∧
  s.ccp.ringHeld = [] ∧ s.ccp.spiIn = [] ∧ s.ccp.spiHeld = [] ∧ (s.ccp.spiOut.map (·.length)).sum + 16424 ≤ 65536

/-- The block once the engine has taken a command's packet from its transport: HOST_CMDHEAD and HOST_CMDTAIL behind it in the command
ring, space again in the quad-SPI buffer (R253, R255). -/
def arrived (s : State) (h : CcpHdr) (op : CcpOp) : State :=
  let b := padTo 16 (commandPacket h op)
  let tail := getR s Reg.HOST_CMDTAIL
  match h.sess with
  | .pcie => cmdHead (setR { s with ccp := { s.ccp with bar2 := ringStore s.ccp.bar2 0 tail b } } Reg.HOST_CMDTAIL
      ((tail + b.length) % 65536)) (tail + b.length)
  | .qspi => raise s 21 1
  | .udp _ _ => s

/-- The engine goes on with what else its transports hold after a command (R253, R255). -/
def servedOn (x : Sess) (s : State) : State :=
  match x with
  | .pcie => drainRing 4095 s
  | .qspi => serveRing s
  | .udp _ _ => s

/-- The context a plain command's reply goes back to (R247). -/
def ctxOf (s : State) (h : CcpHdr) (op : CcpOp) : Ctx :=
  { sess := h.sess, nport := if isUdp h.sess then h.nport else 0, mac := if isUdp h.sess then h.mac else 0, seq := h.seq,
    opcode := opcodeOf op, auth := none, arr := s.ccp.arrivals }

/-- The block once steps 1 to 4 of R246 have let a plain command through: its session has it, and it counts in HOST_CMDS. -/
def received (s : State) (h : CcpHdr) (op : CcpOp) : State :=
  let s := if isUdp h.sess then { s with ccp := { s.ccp with authRun := false } } else s
  let r := (sequenceRule s (ctxOf s h op)).2
  addCtr { r with ccp := { r.ccp with arrivals := r.ccp.arrivals + 1 } } Reg.HOST_CMDS 1

/-- A plain command is new to its session (step 3 of R246): its SEQ is none of the last eight, and not stale. -/
def newCommand (s : State) (h : CcpHdr) (op : CcpOp) : Prop :=
  (sequenceRule (if isUdp h.sess then { s with ccp := { s.ccp with authRun := false } } else s) (ctxOf s h op)).1 = true

/-- The block with a register write waiting for the next boundary (R13, R30 order 4). -/
def waits (s : State) (a v : Nat) (fw : Bool) : State :=
  { s with ccp := { s.ccp with pend := s.ccp.pend ++ [(s.ccp.arrivals, .write a [v] fw)], arrivals := s.ccp.arrivals + 1 } }

/-- Everything but the register file, the log, the interrupt delivery and the free-value counter is as before. -/
def SameBut (s t : State) : Prop :=
  t = { s with regs := t.regs, view := t.view, log := t.log, ccp := t.ccp, freeCtr := t.freeCtr }

end Sys2Proof.Machine
end

