-- ==== Sys2Proof/Certificates/Slice0/Obligations.lean ====
section
/-! DEFINITION. The statements for the provers. -/

open Sys2Proof Sys2Proof.Machine

/-- A step runs the command at the front of the queue on the block with the rest of the queue; on an empty queue the block idles
(the model's choice, assumption 1). Every command completes in every state: none is refused and none stops the block. -/
def Obligations.StepRunsFront : Prop :=
  (∀ (c : Instr) (rest : List Instr) (s : State), step { s with pending := c :: rest } = exec c { s with pending := rest }) ∧
  (∀ s : State, s.pending = [] → step s = .next s) ∧
  (∀ (c : Instr) (s : State), ∃ t, exec c s = .next t)

/-- Vector arithmetic (R150, R152): each lane is computed exactly, rounded half up where fraction bits drop, and limited to 32
bits (or kept modulo 2^32 with W = 1); VMIN and VMAX need no limit; VNAR limits to N bits. The result lands after λ bundles. -/
def Obligations.VectorArithmetic : Prop :=
  ∀ (s : State) (h : KHd) (a b d ra rb rd : Nat), VecActs s h →
    (coreOf s h.core).vPhys a = some ra → (coreOf s h.core).vPhys b = some rb → (coreOf s h.core).vPhys d = some rd →
    let A := laneOf (coreOf s h.core) ra
    let B := laneOf (coreOf s h.core) rb
    exec (.vadd h b a d) s = .next (issuesLimited s h rd 2 fun k => A k + B k) ∧
    exec (.vsub h b a d) s = .next (issuesLimited s h rd 2 fun k => A k - B k) ∧
    exec (.vneg h 0 a d) s = .next (issuesLimited s h rd 2 fun k => -(A k)) ∧
    exec (.vabs h b a d) s = .next (issuesLimited s h rd 2 fun k => if A k < 0 then -(A k) else A k) ∧
    exec (.vmin h b a d) s = .next (issuesExact s h rd 2 fun k => if A k ≤ B k then A k else B k) ∧
    exec (.vmax h b a d) s = .next (issuesExact s h rd 2 fun k => if A k ≤ B k then B k else A k) ∧
    exec (.vmul h b a d) s = .next (issuesLimited s h rd 4 fun k => (A k * B k + 2 ^ 23) / 2 ^ 24) ∧
    exec (.vmulq h b a d) s = .next (issuesLimited s h rd 4 fun k => (A k * B k + 2 ^ 29) / 2 ^ 30) ∧
    (∀ imm : Nat, 8 ≤ imm % 32 → imm % 32 ≤ 24 →
      let x := fun k => (A k * 2 ^ (imm % 32 - 1) + 2 ^ 23) / 2 ^ 24
      exec (.vnar h imm a d) s = .next (issueFlight s h.core (vecFlight (coreOf s h.core) h rd 2
        (fun k => if h.w then wrapS (imm % 32) (x k) else satS (imm % 32) (x k)) fun k => !h.w && overS (imm % 32) (x k))))

/-- Shifts, bit operations and moves of the vector slots (R152). -/
def Obligations.VectorBitsAndMoves : Prop :=
  ∀ (s : State) (h : KHd) (a b d imm ra rb rd : Nat), VecActs s h →
    (coreOf s h.core).vPhys a = some ra → (coreOf s h.core).vPhys b = some rb → (coreOf s h.core).vPhys d = some rd →
    let A := laneOf (coreOf s h.core) ra
    let B := laneOf (coreOf s h.core) rb
    let n := fun k => unsigned 6 (B k)
    let pat := unsigned 32
    exec (.vand h b a d) s = .next (issuesExact s h rd 2 fun k => signed 32 (pat (A k) &&& pat (B k))) ∧
    exec (.vor h b a d) s = .next (issuesExact s h rd 2 fun k => signed 32 (pat (A k) ||| pat (B k))) ∧
    exec (.vxor h b a d) s = .next (issuesExact s h rd 2 fun k => signed 32 (pat (A k) ^^^ pat (B k))) ∧
    exec (.vshl h b a d) s = .next (issuesLimited s h rd 2 fun k => A k * 2 ^ n k) ∧
    exec (.vshr h b a d) s = .next (issuesLimited s h rd 2 fun k => rhu (n k) (A k)) ∧
    exec (.vlsr h b a d) s = .next (issuesExact s h rd 2 fun k => signed 32 (pat (A k) >>> n k)) ∧
    exec (.vshli h imm a d) s = .next (issuesLimited s h rd 2 fun k => A k * 2 ^ (imm % 64)) ∧
    exec (.vshri h imm a d) s = .next (issuesLimited s h rd 2 fun k => rhu (imm % 64) (A k)) ∧
    exec (.vmov h b a d) s = .next (issuesExact s h rd 2 A) ∧
    exec (.vbcast h imm a d) s = .next (issuesExact s h rd 2 fun _ => A (imm % 4)) ∧
    exec (.vperm h imm a d) s = .next (issuesExact s h rd 2 fun k => A (imm / 4 ^ k % 4)) ∧
    (∀ x : Nat, x < 16 →
      exec (.vmovx h 0 x d) s = .next (issuesExact s h rd 2 fun _ => signed 32 ((coreOf s h.core).xr x))) ∧
    (∀ acc r shift : Nat, (coreOf s h.core).aPhys acc = some r → shift < 64 →
      exec (.arnd h shift acc d) s =
        .next (issuesLimited s h rd 2 fun k => rhu shift (Sparse.get0 (coreOf s h.core).a (4 * r + k))))

/-- Vector comparisons (R152): bit k of pd says whether the relation holds in lane k; only the guarded bits are written.
Accumulator operations (R140, R151, R152): the exact lane terms, set or added as they land after 4 bundles. -/
def Obligations.VectorComparesAndTerms : Prop :=
  (∀ (s : State) (h : KHd) (a b pd ra rb : Nat), VecActs s h →
    (coreOf s h.core).vPhys a = some ra → (coreOf s h.core).vPhys b = some rb →
    let A := laneOf (coreOf s h.core) ra
    let B := laneOf (coreOf s h.core) rb
    exec (.vcmpeq h b a pd) s = .next (issuesPred s h pd fun k => decide (A k = B k)) ∧
    exec (.vcmplt h b a pd) s = .next (issuesPred s h pd fun k => decide (A k < B k)) ∧
    exec (.vcmple h b a pd) s = .next (issuesPred s h pd fun k => decide (A k ≤ B k))) ∧
  (∀ (s : State) (h : KHd) (a b ln acc shift ra rb r : Nat), VecActs s h →
    (coreOf s h.core).vPhys a = some ra → (coreOf s h.core).vPhys b = some rb → (coreOf s h.core).aPhys acc = some r →
    let A := laneOf (coreOf s h.core) ra
    let B := laneOf (coreOf s h.core) rb
    exec (.mul h ln b a acc) s = .next (issuesAcc s h r false fun k => A k * B k) ∧
    exec (.mac h ln b a acc) s = .next (issuesAcc s h r true fun k => A k * B k) ∧
    exec (.msu h ln b a acc) s = .next (issuesAcc s h r true fun k => -(A k * B k)) ∧
    exec (.mulb h ln b a acc) s = .next (issuesAcc s h r false fun k => A k * B (ln % 4)) ∧
    exec (.macb h ln b a acc) s = .next (issuesAcc s h r true fun k => A k * B (ln % 4)) ∧
    exec (.msub h ln b a acc) s = .next (issuesAcc s h r true fun k => -(A k * B (ln % 4))) ∧
    (let re := fun k => A k * B k - A (k + 1) * B (k + 1)
     let im := fun k => A k * B (k + 1) + A (k + 1) * B k
     exec (.cmac h ln b a acc) s = .next (issuesAcc s h r true fun k => if k % 2 = 0 then re k else im (k - 1))) ∧
    (let re := fun k => A k * B k + A (k + 1) * B (k + 1)
     let im := fun k => -(A k * B (k + 1)) + A (k + 1) * B k
     exec (.cmacj h ln b a acc) s = .next (issuesAcc s h r true fun k => if k % 2 = 0 then re k else im (k - 1))) ∧
    exec (.aclr h shift acc a) s = .next (issuesAcc s h r false fun _ => 0) ∧
    (shift ≤ 40 → exec (.accld h shift acc a) s = .next (issuesAcc s h r false fun k => A k * 2 ^ shift) ∧
                  exec (.accadd h shift acc a) s = .next (issuesAcc s h r true fun k => A k * 2 ^ shift)))

/-- Address-register operations of the CT slot (R150, R152): the result joins the bundle with λ = 1 (MOVV: 2) and wraps modulo
2^32 as it lands. MFS reads the special registers of R137: FLAGS, LC, LSTART, LEND, LSTG, RCFG, RPOS, IVEC, IMASK, IPEND, IPC, IBT, IBD,
CYC, which comes with the row (assumption 9), the core's own number and MBOX; a number that names none reads 0. -/
def Obligations.AddressArithmetic : Prop :=
  ∀ (s : State) (h : KHd) (a b d : Nat), CtActs s h →
    let c := coreOf s h.core
    let X := fun (n : Nat) => ((c.xr n : Nat) : Int)
    let S := fun (n : Nat) => signed 32 (c.xr n)
    let out := ctWrites s h .x (c.xKey d) 1
    exec (.addX h b a d) s = .next (out (X a + X b)) ∧
    exec (.subX h b a d) s = .next (out (X a - X b)) ∧
    exec (.andX h b a d) s = .next (out ((c.xr a &&& c.xr b : Nat) : Int)) ∧
    exec (.orX h b a d) s = .next (out ((c.xr a ||| c.xr b : Nat) : Int)) ∧
    exec (.xorX h b a d) s = .next (out ((c.xr a ^^^ c.xr b : Nat) : Int)) ∧
    exec (.shl h b a d) s = .next (out (X a * 2 ^ (c.xr b % 32))) ∧
    exec (.shr h b a d) s = .next (out ((c.xr a / 2 ^ (c.xr b % 32) : Nat) : Int)) ∧
    exec (.sra h b a d) s = .next (out (S a / 2 ^ (c.xr b % 32))) ∧
    (∀ simm : Int, exec (.addi h simm a d) s = .next (out (X a + simm))) ∧
    (∀ imm : Nat, exec (.movi h false imm d) s = .next (out (signed 16 imm)) ∧
                  exec (.movi h true imm d) s = .next (out ((imm % 65536 * 65536 + c.xr d % 65536 : Nat) : Int))) ∧
    (∀ v r ln : Nat, c.vPhys v = some r → ln < 4 →
      exec (.movv h ln v d) s = .next (ctWrites s h .x (c.xKey d) 2 (laneOf c r ln))) ∧
    (∀ cyc : Nat,
      exec (.mfs h 0x00 d cyc) s = .next (out ((b2n c.ie + 2 * b2n c.sf + 4 * b2n c.hm + 8 * b2n c.wc + 16 * b2n c.de : Nat) : Int)) ∧
      exec (.mfs h 0x01 d cyc) s = .next (out (c.lc : Nat)) ∧ exec (.mfs h 0x02 d cyc) s = .next (out (c.lstart : Nat)) ∧
      exec (.mfs h 0x03 d cyc) s = .next (out (c.lend : Nat)) ∧ exec (.mfs h 0x06 d cyc) s = .next (out (c.rpos : Nat)) ∧
      exec (.mfs h 0x07 d cyc) s = .next (out (c.ivec : Nat)) ∧ exec (.mfs h 0x08 d cyc) s = .next (out (c.imask : Nat)) ∧
      exec (.mfs h 0x09 d cyc) s = .next (out (c.ipend : Nat)) ∧ exec (.mfs h 0x0A d cyc) s = .next (out (c.ipc : Nat)) ∧
      exec (.mfs h 0x0D d cyc) s = .next (out (cyc % 2 ^ 32 : Nat)) ∧ exec (.mfs h 0x0E d cyc) s = .next (out (h.core : Nat)) ∧
      exec (.mfs h 0x10 d cyc) s = .next (out (c.mbox : Nat)) ∧
      exec (.mfs h 0x04 d cyc) s = .next (out ((c.j % 2 ^ 24 * 256 + c.stg : Nat) : Int)) ∧
      exec (.mfs h 0x05 d cyc) s = .next (out (((c.stride - 1) * 256 + c.rbase : Nat) : Int)) ∧
      exec (.mfs h 0x0B d cyc) s = .next (out (c.ibt : Nat)) ∧ exec (.mfs h 0x0C d cyc) s = .next (out (c.ibd : Nat)) ∧
      ∀ spr : Nat, (spr = 0x0F ∨ 0x11 ≤ spr) → spr < 256 → exec (.mfs h spr d cyc) s = .next (out 0))

/-- In a quiet core an address-register operation completes its bundle: xd takes the result modulo 2^32, the next bundle follows,
and nothing else of the block changes (R139, R150, R152). -/
def Obligations.AddressResultLands : Prop :=
  ∀ (s : State) (h : KHd) (a b d : Nat) (simm : Int), CtActs s h → Quiet s h.core →
    let c := coreOf s h.core
    let lands := fun (v : Int) => setCore s h.core { nextBundle c with x := Sparse.putN c.x (c.xKey d) (v % 2 ^ 32).toNat }
    exec (.addX h b a d) s = .next (lands ((c.xr a : Nat) + (c.xr b : Nat))) ∧
    exec (.subX h b a d) s = .next (lands ((c.xr a : Nat) - (c.xr b : Nat))) ∧
    exec (.addi h simm a d) s = .next (lands ((c.xr a : Nat) + simm)) ∧
    exec (.sra h b a d) s = .next (lands (signed 32 (c.xr a) / 2 ^ (c.xr b % 32))) ∧
    exec (.setbase h 0 a d) s =
      .next (setCore s h.core { nextBundle c with base := Sparse.putN c.base (c.xKey d) (c.xr a % 2 ^ 18) }) ∧
    exec (.setlen h 0 a d) s =
      .next (setCore s h.core { nextBundle c with len := Sparse.putN c.len (c.xKey d) (c.xr a % 2 ^ 19) }) ∧
    exec (.nop h) s = .next (setCore s h.core (nextBundle c))

/-- Comparison, base and length registers, special registers and branches of the CT slot: what each adds to its bundle (R142,
R143, R152, R156). -/
def Obligations.CtControl : Prop :=
  ∀ (s : State) (h : KHd) (a b d t : Nat), CtActs s h →
    let c := coreOf s h.core
    let X := c.xr
    let S := fun (n : Nat) => signed 32 (c.xr n)
    let pred := fun (p : Bool) => ctWrites s h .p (d % 8 + 8 * b2n c.hm) 1 (if p then 15 else 0)
    let br := fun (fl : List Flight) (target : Nat) (rfi : Bool) =>
      closeBundle s h.core { flights := fl, branch := some { left := 3, target := target, rfi := rfi }, loop := none }
    exec (.cmp h 0 b a d) s = .next (pred (decide (X a = X b))) ∧ exec (.cmp h 1 b a d) s = .next (pred (decide (X a ≠ X b))) ∧
    exec (.cmp h 2 b a d) s = .next (pred (decide (S a < S b))) ∧ exec (.cmp h 3 b a d) s = .next (pred (decide (S b ≤ S a))) ∧
    exec (.cmp h 4 b a d) s = .next (pred (decide (X a < X b))) ∧ exec (.cmp h 5 b a d) s = .next (pred (decide (X b ≤ X a))) ∧
    exec (.nop h) s = .next (ctCloses s h) ∧
    exec (.setbase h 0 a d) s = .next (ctWrites s h .b (c.xKey d) 1 ((X a % 2 ^ 18 : Nat) : Int)) ∧
    exec (.setlen h 0 a d) s = .next (ctWrites s h .l (c.xKey d) 1 ((X a % 2 ^ 19 : Nat) : Int)) ∧
    (t < 4096 →
      exec (.br h t) s = .next (br [] t false) ∧ exec (.brx h 0 a 0) s = .next (br [] (X a % 4096) false) ∧
      exec (.call h t) s = .next (br [ctFlight .x (c.xKey 15) 1 ((c.pc + 3 : Nat) : Int)] t false)) ∧
    exec (.rfi h) s = .next (br [] 0 true) ∧
    (∀ spr : Nat, spr < 256 → (c.hm = false ∨ spr = 0 ∨ spr = 8 ∨ spr = 9) →
      exec (.mts h spr a) s = .next (closeBundle s h.core
        { flights := [{ ctFlight .s spr 1 ((X a : Nat) : Int) with wrap := c.hm }], branch := none, loop := none })) ∧
    (∀ stg : Nat, c.hm = false → stg < 7 → c.pc + 3 ≤ t → c.pc < 4093 → c.armed = false →
      exec (.zloop h a stg t) s = .next (closeBundle s h.core { flights := [], branch := none, loop := some (X a, t, stg) }))

/-- How results land (R139 to R141, R144, R150): one in flight counts its bundles down and lands as the last of them completes. A vector
or predicate result takes the lanes its mask lets through, an accumulator its lane terms, added or set, limited to 72 bits or kept modulo
2^72; a limited lane sets FLAGS.SF and counts the bundle once in KPU_SATCNT. Of two results for one vector register the later issued wins,
FLAGS.WC is set and KPU_WCOLL counts; two adding results both add. The stage predicates say which passes run in the loop body. That the loser of
a collision still writes the lanes the winner leaves alone, and which bundle a saturation counts in, is the model's choice (assumption
103), as is the order of two additions of one bundle (assumption 79). -/
def Obligations.VectorResultsLand : Prop :=
  (∀ (s : State) (h : KHd) (f g : Flight), CtActs s h → BundleReads s h.core →
    let k := h.core
    let c := coreOf s k
    let on := fun (f : Flight) (j : Nat) => lane f.mask j
    let val := fun (f : Flight) (j : Nat) => f.vals.getD j 0
    let A := fun (c : Core) (r j : Nat) => Sparse.get0 c.a (4 * r + j)
    let limited := fun (f : Flight) (x : Int) => if f.wrap then wrapS 72 x else satS 72 x
    let counts := fun (t : State) (sat : Bool) =>
      (coreOf t k).sf = (c.sf || sat) ∧ getR t Reg.KPU_SATCNT = if sat then satAdd 32 (getR s Reg.KPU_SATCNT) 1 else getR s Reg.KPU_SATCNT
    c.brs = [] → c.armed = false → ∃ t, exec (.nop h) s = .next t ∧
      let u := coreOf t k
      (c.flight = [f] → 1 < f.left →
        t = setCore s k { nextBundle c with flight := [{ f with left := f.left - 1, age := f.age + 1 }] }) ∧
      (c.flight = [f] → f.left = 1 → u.flight = [] ∧ u.pc = (c.pc + 1) % 4096 ∧
        (f.file = .v → (∀ j, j < 4 → laneOf u f.reg j = if on f j then val f j else laneOf c f.reg j) ∧
          (∀ r j, j < 4 → r ≠ f.reg → laneOf u r j = laneOf c r j) ∧ counts t (decide (f.sat &&& f.mask ≠ 0)) ∧ u.wc = c.wc ∧
          u.a = c.a ∧ u.x = c.x ∧ u.p = c.p ∧ t.mem = s.mem) ∧
        (f.file = .a → (∀ j, j < 4 → A u f.reg j =
            if on f j then limited f (if f.add then A c f.reg j + val f j else val f j) else A c f.reg j) ∧
          (∀ r j, j < 4 → r ≠ f.reg → A u r j = A c r j) ∧
          counts t (!f.wrap && (List.range 4).any fun j => on f j && overS 72 (if f.add then A c f.reg j + val f j else val f j)) ∧
          u.v = c.v ∧ u.x = c.x ∧ u.p = c.p ∧ t.mem = s.mem) ∧
        (f.file = .p → (f.reg % 8 = 0 → u.p = c.p) ∧
          (f.reg % 8 ≠ 0 → ∀ j, j < 4 → lane (Sparse.getN u.p f.reg) j = if on f j then lane (val f 0).toNat j else lane (Sparse.getN c.p f.reg) j) ∧
          (∀ r, r ≠ f.reg → Sparse.getN u.p r = Sparse.getN c.p r) ∧ u.v = c.v ∧ u.a = c.a ∧ u.x = c.x ∧ t.mem = s.mem)) ∧
      (c.flight = [f, g] → f.left = 1 → g.left = 1 → f.file = .v → g.file = .v → g.reg = f.reg → g.beats f = true → f.beats g = false →
        (∀ j, j < 4 → laneOf u f.reg j = if on g j then val g j else if on f j then val f j else laneOf c f.reg j) ∧
        u.wc = true ∧ getR t Reg.KPU_WCOLL = satAdd 32 (getR s Reg.KPU_WCOLL) 1 ∧ bit (getR t Reg.KPU_INTSTAT) 1 = true) ∧
      (c.flight = [f, g] → f.left = 1 → g.left = 1 → f.file = .a → g.file = .a → g.reg = f.reg → f.add = true → g.add = true →
        f.wrap = true → g.wrap = true → (∀ j, j < 4 → A u f.reg j =
          wrapS 72 (A c f.reg j + (if on f j then val f j else 0) + (if on g j then val g j else 0)) ∨ (on f j = false ∧ on g j = false ∧ A u f.reg j = A c f.reg j)) ∧
        u.wc = c.wc ∧ getR t Reg.KPU_WCOLL = getR s Reg.KPU_WCOLL)) ∧
  (∀ (f g : Flight), g.beats f = true ↔ g.age < f.age ∨ (g.age = f.age ∧ f.slot < g.slot)) ∧
  (∀ (c : Core) (n m : Nat), (c.stg = 0 → stagePreds c = c) ∧
    (c.stg ≠ 0 → n ≤ c.stg → Sparse.getN (stagePreds c).p (n + 1) =
      if c.armed = true ∧ n ≤ c.j ∧ c.j + (c.stg + 1) ≤ c.lc0 + n then 15 else 0) ∧
    (m = 0 ∨ c.stg + 1 < m → Sparse.getN (stagePreds c).p m = Sparse.getN c.p m)) ∧
  (∀ (s : State) (h : KHd) (n : Nat), CtActs s h → BundleReads s h.core →
    let c := coreOf s h.core
    c.flight = [] → c.brs = [] → c.armed = true → c.stg ≠ 0 → n ≤ c.stg → ∃ t, exec (.nop h) s = .next t ∧
      let preds := Sparse.getN (coreOf t h.core).p (n + 1)
      (c.pc = c.lend → preds = if 1 < c.lc ∧ n ≤ c.j + 1 ∧ c.j + 1 + (c.stg + 1) ≤ c.lc0 + n then 15 else 0) ∧
      (c.pc ≠ c.lend → c.predsDue = true → c.hm = false → (c.pc + 1) % 4096 = c.lstart →
        preds = if n ≤ c.j ∧ c.j + (c.stg + 1) ≤ c.lc0 + n then 15 else 0) ∧
      (c.pc ≠ c.lend → c.predsDue = false → preds = Sparse.getN c.p (n + 1)))

/-- A branch decides the third bundle after its own; the two bundles between issue normally (R142). ZLOOP arms the loop, or with LC = 0
sends the core past the body (R143). A loop edge (R143): at LEND the pass counts, the rotation advances, and the next bundle is LSTART
while LC > 1, else the loop ends. -/
def Obligations.BranchesAndLoops : Prop :=
  (∀ (s s1 s2 s3 : State) (h h1 h2 : KHd) (target : Nat), CtActs s h → Quiet s h.core → target < 4096 →
    (coreOf s h.core).hm = false → h1.core = h.core → h2.core = h.core → CtActs s1 h1 → CtActs s2 h2 →
    BundleReads s1 h.core → BundleReads s2 h.core → exec (.br h target) s = .next s1 → exec (.nop h1) s1 = .next s2 →
    exec (.nop h2) s2 = .next s3 →
    let pc := (coreOf s h.core).pc
    (coreOf s1 h.core).pc = (pc + 1) % 4096 ∧ (coreOf s2 h.core).pc = (pc + 2) % 4096 ∧ (coreOf s3 h.core).pc = target ∧
    (coreOf s3 h.core).brs = []) ∧
  (∀ (s : State) (h : KHd) (a stg target : Nat), CtActs s h → Quiet s h.core →
    let c := coreOf s h.core
    c.hm = false → stg < 7 → c.pc + 3 ≤ target → target < 4096 → c.pc < 4093 →
    ∃ t, exec (.zloop h a stg target) s = .next t ∧
      (coreOf t h.core).lc = c.xr a ∧ (coreOf t h.core).lstart = c.pc + 3 ∧ (coreOf t h.core).lend = target ∧
      (coreOf t h.core).stg = stg ∧ (coreOf t h.core).pc = c.pc + 1 ∧ (coreOf t h.core).armed = decide (c.xr a ≠ 0) ∧
      (coreOf t h.core).brs.map (·.target) = (if c.xr a = 0 then [(target + 1) % 4096] else [])) ∧
  (∀ (s : State) (h : KHd), CtActs s h → (coreOf s h.core).flight = [] → (coreOf s h.core).brs = [] →
    BundleReads s h.core →
    let c := coreOf s h.core
    c.armed = true → c.pc = c.lend → c.stg = 0 → c.predsDue = false →
    ∃ t, exec (.nop h) s = .next t ∧ (coreOf t h.core).j = c.j + 1 ∧
      (c.rbase < 64 → (coreOf t h.core).rpos = (c.rpos + c.stride) % (64 - c.rbase)) ∧
      (1 < c.lc → (coreOf t h.core).lc = c.lc - 1 ∧ (coreOf t h.core).pc = c.lstart ∧ (coreOf t h.core).armed = true) ∧
      (c.lc ≤ 1 → (coreOf t h.core).lc = 0 ∧ (coreOf t h.core).pc = (c.lend + 1) % 4096 ∧ (coreOf t h.core).armed = false))

/-- Exceptions stop the core in FAULT with their cause and bundle; ALIGN and RANGE with the address as well (R143, R146, R152,
R155, R158). A bundle whose words read with an uncorrectable error raises ECC_I, one that holds an unlisted opcode ILLEGAL. That an address
both misaligned and out of range raises ALIGN is the model's choice (assumption 103). -/
def Obligations.ExceptionsStopTheCore : Prop :=
  ∀ (s : State) (h : KHd) (a b d : Nat), mayIssue s h.core = true →
    let c := coreOf s h.core
    let stops := fun (i : Instr) (cause addr : Nat) => ∃ t, exec i s = .next t ∧ StoppedWith t h.core cause c.pc addr
    (vecSlot h = true → c.guardMask h ≠ 0 →
      (h.rsv ≠ 0 → stops (.vadd h b a d) 1 0 ∧ stops (.vcmpeq h b a d) 1 0 ∧ stops (.mac h 0 b a d) 1 0) ∧
      (b % 32 < 8 ∨ 24 < b % 32 → stops (.vnar h b a d) 1 0) ∧
      (40 < b → stops (.accld h b a d) 1 0 ∧ stops (.accadd h b a d) 1 0) ∧
      (h.rsv = 0 → c.hm = true → 16 ≤ d % 64 → stops (.vadd h b a d) 4 0 ∧ stops (.vmov h b a d) 4 0)) ∧
    (h.slot = 0 → lane (c.guardMask h) 0 = true →
      (h.rsv ≠ 0 ∨ h.w = true → stops (.addX h b a d) 1 0 ∧ stops (.br h a) 1 0) ∧
      (CtActs s h → stops (.cmp h 6 b a d) 1 0 ∧ stops (.cmp h 7 b a d) 1 0 ∧
        (c.hm = true → stops (.zloop h a 0 b) 4 0 ∧ stops (.mts h 1 a) 4 0) ∧
        (c.hm = false → b < c.pc + 3 → stops (.zloop h a 0 b) 1 0) ∧
        (c.hm = false → c.pc + 3 ≤ b → c.pc < 4093 → c.armed = true → stops (.zloop h a 0 b) 5 0))) ∧
    (h.slot = 1 → h.rsv = 0 → h.w = false → lane (c.guardMask h) 0 = true → c.xr b < 2 ^ 32 →
      (c.xr b % 16 ≠ 0 → stops (.ldv h { ofs := 0, md := 0, x := b } d) 2 (c.xr b)) ∧
      (c.xr b % 16 = 0 → 2 ^ 18 ≤ c.xr b → stops (.ldv h { ofs := 0, md := 0, x := b } d) 3 (c.xr b))) ∧
    (CtActs s h → (eccRead s (imemBase h.core + 16 * c.pc) 16 (kdma h.core) h.core).1 = true → stops (.nop h) 7 (16 * c.pc)) ∧
    (CtActs s h → s.fab.inj = [] → unlisted s h.core = true → stops (.nop h) 1 0)

/-- Loads and stores (R134, R145, R146, R152): with predicate bit 0 on, an aligned access within data memory reads its words
little-endian and sends the result to its register, or sends the words to memory; the address register takes its update. Addresses of the offset, post-increment
and modulo forms: the address used, and the register afterwards; the bit-reversed form uses the register as it stands. -/
def Obligations.LoadsAndStores : Prop :=
  (∀ (c : Core) (x u : Nat) (ofs : Int), 0 < u →
      let xn : Int := (c.xr x : Nat)
      let base : Int := Sparse.getN c.base (c.xKey x)
      let l := Sparse.getN c.len (c.xKey x)
      let len : Int := if l = 0 then 2 ^ 18 else (l : Int)
      lsAddress c { ofs := ofs, md := 0, x := x } u = (((xn + ofs * u) % 2 ^ 32).toNat, none) ∧
      lsAddress c { ofs := ofs, md := 1, x := x } u = (c.xr x, some ((xn + ofs * u) % 2 ^ 32).toNat) ∧
      lsAddress c { ofs := ofs, md := 2, x := x } u = (c.xr x, some ((base + (xn - base + ofs * u) % len) % 2 ^ 32).toNat) ∧
      (lsAddress c { ofs := ofs, md := 3, x := x } u).1 = c.xr x) ∧
  ∀ (s : State) (h : KHd) (a : KAddr) (v : Nat), LsIssues s h → lane ((coreOf s h.core).guardMask h) 0 = true →
    let c := coreOf s h.core
    let k := h.core
    let m := c.guardMask h
    let e16 := (lsAddress c a 16).1
    let e4 := (lsAddress c a 4).1
    let upd := fun (t : State) (u : Nat) => addrUpdate t h a (lsAddress c a u).2
    let W := fun (ea : Nat) => dmemWord s k ea
    (∀ r : Nat, c.vPhys v = some r →
      (e16 % 16 = 0 → e16 < 2 ^ 18 →
        (eccRead s (dmemBase k + e16) 16 (kdma k) k = (false, s) →
          exec (.ldv h a v) s = .next (upd (issueFlight s k (loadFlight .v r m
            [signed 32 (W e16), signed 32 (W (e16 + 4)), signed 32 (W (e16 + 8)), signed 32 (W (e16 + 12))])) 16)) ∧
        exec (.stv h a v) s = .next (upd (issueFlight s k (storeFlight k e16 m [laneOf c r 0, laneOf c r 1, laneOf c r 2, laneOf c r 3])) 16)) ∧
      (e4 % 4 = 0 → e4 < 2 ^ 18 →
        (eccRead s (dmemBase k + e4) 4 (kdma k) k = (false, s) →
          exec (.lds h a v) s = .next (upd (issueFlight s k (loadFlight .v r m
            [signed 32 (W e4), signed 32 (W e4), signed 32 (W e4), signed 32 (W e4)])) 4)) ∧
        exec (.sts h a v) s = .next (upd (issueFlight s k (storeFlight k e4 1 [laneOf c r 0, laneOf c r 1, laneOf c r 2, laneOf c r 3])) 4))) ∧
    (e4 % 4 = 0 → e4 < 2 ^ 18 →
      (v < 16 → eccRead s (dmemBase k + e4) 4 (kdma k) k = (false, s) →
        exec (.ldx h a v) s = .next (upd (issueFlight s k (loadFlight .x (c.xKey v) 15 [((W e4 : Nat) : Int)])) 4)) ∧
      exec (.stx h a v) s = .next (upd (issueFlight s k (storeFlight k e4 1 [((c.xr (v % 16) : Nat) : Int)])) 4))

/-- A vector store reaches memory as its bundle ends: the guarded lanes lie little-endian at the address, every other byte of
memory reads as before, and the memory keeps its canonical form (R134, R146, R152). -/
def Obligations.VectorStoreReachesMemory : Prop :=
  ∀ (s s1 s2 : State) (h h0 : KHd) (a : KAddr) (v r : Nat), LsIssues s h → lane ((coreOf s h.core).guardMask h) 0 = true →
    (coreOf s h.core).vPhys v = some r → Quiet s h.core → s.fab.inj = [] → h0.core = h.core → CtActs s1 h0 →
    let c := coreOf s h.core
    let ea := (lsAddress c a 16).1
    ea % 16 = 0 → ea < 2 ^ 18 → exec (.stv h a v) s = .next s1 → exec (.nop h0) s1 = .next s2 →
    (MemoryCanonical s → MemoryCanonical s2) ∧
    (∀ p : Nat, (∀ k : Nat, k < 4 → lane (c.guardMask h) k = true →
        p < dmemBase h.core + ea + 4 * k ∨ dmemBase h.core + ea + 4 * k + 4 ≤ p) → Memory.read s2.mem p = Memory.read s.mem p) ∧
    (∀ k : Nat, k < 4 → lane (c.guardMask h) k = true → dmemWord s2 h.core (ea + 4 * k) = (laneOf c r k % 2 ^ 32).toNat)

/-- A guard that lets nothing through leaves the block as it is; a CT operation then only completes its bundle (R134). That a guarded-off
operation raises no ILLEGAL for reserved bits is the model's reading of R134 and R152 (assumption 21, DEDUCED). -/
def Obligations.GuardedOffHasNoEffect : Prop :=
  ∀ (s : State) (h : KHd) (a b d : Nat) (x : KAddr), (coreOf s h.core).guardMask h = 0 →
    (h.slot ≠ 0 → exec (.vadd h b a d) s = .next s ∧ exec (.vcmplt h b a d) s = .next s ∧ exec (.mac h 0 b a d) s = .next s ∧
      exec (.ldv h x d) s = .next s ∧ exec (.stv h x d) s = .next s ∧ exec (.lds h x d) s = .next s ∧
      exec (.sts h x d) s = .next s ∧ exec (.ldx h x d) s = .next s ∧ exec (.stx h x d) s = .next s ∧ exec (.nop h) s = .next s) ∧
    (h.slot = 0 → mayIssue s h.core = true →
      exec (.addX h b a d) s = .next (ctCloses s h) ∧ exec (.br h a) s = .next (ctCloses s h) ∧
      exec (.tdone h) s = .next (ctCloses s h) ∧ exec (.dmaq h a b) s = .next (ctCloses s h))

/-- DMAQ, DMAW, TDONE and TSIG (R148, R158, R178, R179): a descriptor joins its channel's queue (one outside data memory in error, one
that reads uncorrectable as ECC_D); each stalls the core while it must wait, and its event lets it go on once the wait is over; the
stalled KCLK cycles count as busy. A core that does not wait passes the event by. That a descriptor outside data memory is one in error
is the model's choice (assumption 103); the stalled cycles come with the row (assumption 9). -/
def Obligations.DmaAndTaskWaits : Prop :=
  (∀ (s : State) (h : KHd) (a ch : Nat), CtActs s h →
    let k := h.core
    let c := coreOf s k
    let addr := c.xr a
    let arc := addr % 2 ^ 15
    let inside := addr % 16 = 0 ∧ addr + 16 ≤ 2 ^ 18
    let read := eccRead s (dmemBase k + addr) 16 (kdma k) k
    let queued := fun (d : Bytes) => closeBundle (setCore s k (c.setDma ch (c.dma ch ++ [d]))) k CtAct.none
    let stalls := fun (w : KWait) => setCore s k { c with state := .stall, wait := some w }
    (dmaRoom s k ch = true → inside → read = (false, s) →
      exec (.dmaq h a ch) s = .next (queued (Memory.readBytes s.mem (dmemBase k + addr) 16))) ∧
    (dmaRoom s k ch = true → inside → read.1 = true → exec (.dmaq h a ch) s = .next (kpuFault read.2 k 6 addr)) ∧
    (dmaRoom s k ch = true → ¬ inside → exec (.dmaq h a ch) s = .next (queued [])) ∧
    (dmaRoom s k ch = false → exec (.dmaq h a ch) s = .next (stalls (.dmaq ch addr))) ∧
    (c.dma ch = [] → exec (.dmaw h a ch) s = .next (ctCloses s h)) ∧
    (c.dma ch ≠ [] → exec (.dmaw h a ch) s = .next (stalls (.dmaw ch))) ∧
    (c.dmaIdle = true → exec (.tdone h) s = .next (finishTask s k) ∧ exec (.tsig h a) s = .next (finishSignal s k arc)) ∧
    (c.dmaIdle = false → exec (.tdone h) s = .next (stalls .tdone) ∧ exec (.tsig h a) s = .next (stalls (.tsig arc)))) ∧
  (∀ (s : State) (k cycles ch addr arc : Nat),
    let c := coreOf s k
    let goesOn := setCore s k { c with state := if c.hm then .handler else .run, wait := none, busy := c.busy + cycles }
    (c.wait = some (.dmaq ch addr) → dmaRoom s k ch = true →
      exec (.dmaqQueueSpace k cycles) s = .next (queueDma goesOn k ch addr)) ∧
    (c.wait = some (.dmaw ch) → c.dma ch = [] → exec (.dmawReturn k cycles) s = .next (closeBundle goesOn k CtAct.none)) ∧
    (c.wait = some .tdone → c.dmaIdle = true → exec (.tdoneDrainEnd k cycles) s = .next (finishTask goesOn k)) ∧
    (c.wait = some (.tsig arc) → c.dmaIdle = true → exec (.tsigDrainEnd k cycles) s = .next (finishSignal goesOn k arc)) ∧
    (c.wait = none → exec (.dmaqQueueSpace k cycles) s = .next s ∧ exec (.dmawReturn k cycles) s = .next s ∧
      exec (.tdoneDrainEnd k cycles) s = .next s ∧ exec (.tsigDrainEnd k cycles) s = .next s))

/-- A transfer of one page ends while the core's source is not DRAINING (R147, R148, R149, R437): a remote-to-local transfer has its bytes
in data memory, a local-to-remote one at the remote address, and the next descriptor runs; one that cannot go discards the channel's
queue, sets FLAGS.DE and raises the DMAERR cause. That the bytes moved are those the source holds as DMA_TRANSFER_DONE comes is the
model's choice (assumption 13, DESIGN CHOICE): the spec does not say when a transfer reads them. -/
def Obligations.DmaTransferEnds : Prop :=
  ∀ (s : State) (k ch : Nat) (d : Bytes) (rest : List Bytes), k < 32 → (coreOf s k).dma ch = d :: rest →
    draining s (kdma k) k = false →
    let c := coreOf s k
    let out := decide (2 ^ 31 ≤ leAt d 0 4)
    let la := leAt d 0 4 % 2 ^ 31
    let n := leAt d 4 4
    let ra := leAt d 8 4 + leAt d 12 4 * 2 ^ 32
    (d.length = 16 → la % 16 = 0 → n % 16 = 0 → ra % 16 = 0 → 16 ≤ n → la + n ≤ 2 ^ 18 → ra % 4096 + n ≤ 4096 → ra < 2 ^ 40 →
      (fabTarget s (kdma k) ra n out).isSome = true →
      (out = false → eccRead s ra n (kdma k) k = (false, s) → exec (.dmaTransferDone k ch) s =
        .next (setCore (memWrite s (dmemBase k + la) (Memory.readBytes s.mem ra n)) k (c.setDma ch rest))) ∧
      (out = true → eccRead s (dmemBase k + la) n (kdma k) k = (false, s) → exec (.dmaTransferDone k ch) s =
        .next (setCore (memWrite s ra (Memory.readBytes s.mem (dmemBase k + la) n)) k (c.setDma ch rest)))) ∧
    (d = [] ∨ n < 16 ∨ 65536 < n → c.state ≠ .fault → ∃ t, exec (.dmaTransferDone k ch) s = .next t ∧
      (coreOf t k).de = true ∧ (coreOf t k).dma ch = [] ∧ (coreOf t k).ipend = c.ipend ||| 4)

/-- An interrupt is entered at a bundle boundary (R154): the next bundle and a pending branch are saved, HM = 1, IE = 0, and IVEC
issues next; RFI takes it back (R156). The software interrupt, the breakpoint and the mailbox of a core (R152, R153, R164). -/
def Obligations.InterruptsAndMailbox : Prop :=
  (∀ (s : State) (k : Nat),
    let c := coreOf s k
    (c.state = .run → (∀ f ∈ c.flight, f.age ≠ 0) → c.ie = true → c.hm = false → c.ipend &&& c.imask ≠ 0 → c.brs.length ≤ 1 →
      exec (.interruptEntry k) s = .next (setCore s k { c with
        ipc := c.pc, ibt := (c.brs.head?.map (·.target)).getD 0, ibd := (c.brs.head?.map (·.left)).getD 0, brs := [],
        hm := true, ie := false, pc := c.ivec, state := .handler, wait := none })) ∧
    (c.ie = false ∨ c.hm = true ∨ c.ipend &&& c.imask = 0 → exec (.interruptEntry k) s = .next s) ∧
    (∀ next : Nat, c.brs = [{ left := 1, target := 0, rfi := true }] →
      takeBranch c next = { c with
        hm := false, ie := true, state := .run, pc := c.ipc,
        brs := if c.ibd = 0 then [] else [{ left := c.ibd, target := c.ibt, rfi := false }] })) ∧
  (∀ (s : State) (h : KHd) (v : Nat),
    let c := coreOf s h.core
    (CtActs s h → Quiet s h.core → s.fab.inj = [] →
      exec (.swi h) s = .next (setCore s h.core { nextBundle c with ipend := c.ipend ||| 8 }) ∧
      exec (.bkpt h) s = .next (setCore s h.core { nextBundle c with state := .debug })) ∧
    (h.core < coresPresent s →
      exec (.kpuMbox h.core v) s = .next (setCore s h.core { c with mbox := v % 2 ^ 32, ipend := c.ipend ||| 2 })) ∧
    (coresPresent s ≤ h.core → exec (.kpuMbox h.core v) s = .next s))

/-- Every command survives its packet (R243, R244, R246, R261): the packet built for it passes step 1, its header and payload come
back as they were sent, and its opcode and payload spell the same command with every parameter at its value. -/
def Obligations.CommandPacketRoundTrip : Prop :=
  ∀ (h : CcpHdr) (op : CcpOp), h.version < 256 → h.flags < 256 → h.status < 65536 → h.seq < 2 ^ 32 → h.f < 2 ^ 64 →
    h.keyId < 2 ^ 32 → h.tag.length = 16 → ccpFits op →
    let at_ := bit h.flags 1
    let auth := bit h.flags 2
    let payload := (if at_ then beBytes 8 h.f else []) ++ paramBytes op
    payload.length ≤ 16384 →
    parseParams (opcodeOf op) (paramBytes op) = .ok op ∧
    ∃ p, parsePacket (commandPacket h op) = some p ∧ p.version = h.version ∧ p.flags = h.flags ∧ p.opcode = opcodeOf op ∧
      p.status = h.status ∧ p.seq = h.seq ∧ p.payload = payload ∧
      p.auth = (if auth then some (h.keyId, h.tag) else none) ∧
      (commandPacket h op).length = 20 + payload.length + (if auth then 20 else 0)

/-- Every plain command that arrives over an idle transport and passes the steps of R246 is executed: opcodes 0x02xx by the engine,
all others by firmware that is ready with an empty queue (R246, R249, R250, R253, R255). The metadata of META_INJECT is complete as
its packet arrives (R288). -/
def Obligations.CommandsReachTheirExecution : Prop :=
  ∀ (s : State) (h : CcpHdr) (op : CcpOp), PlainHdr h → ccpFits op → (paramBytes op).length ≤ 16384 →
    sessUp s h.sess = true → TransportIdle s → (isUdp h.sess && s.hw.secure) = false → s.ccp.fwQ = [] →
    let a := arrived s h op
    newCommand a h op →
    let r := received a h op
    let c := ctxOf a h op
    paramsOk r op = true → replyFits r c op = true →
    (hwOpcode (opcodeOf op) = true → exec (commandOf h op) s =
      .next (serveRing (fwRun h.sess h.seq (opcodeOf op) 32 (servedOn h.sess (hwExec r none op c))))) ∧
    (hwOpcode (opcodeOf op) = false → s.fw.ready = true → s.fw.restarting = false →
      exec (commandOf h op) s = .next (serveRing (fwExec (match op with | .metaInject d => metaInject r d | _ => r) op c)))

/-- The steps of R246. A packet that fails step 1, or whose TAG fails step 2, is dropped without a reply and counted. At step 3 a command
whose execution has not been replied to is dropped, the last one replied to is answered with the cached reply, an earlier one of the
last eight with DUPLICATE. One that fails a step from 4 to 10 is answered with that step's status and not executed. -/
def Obligations.CommandChecks : Prop :=
  (∀ (s : State) (x : Sess) (port mac : Nat) (b : Bytes),
    let taken := takePacket s x port mac b
    let unsigned_ := raise (addCtr s Reg.HOST_AUTHFAIL 1) 21 4
    (parsePacket b = none → taken = raise (addCtr s Reg.HOST_BADCRC 1) 21 3) ∧
    (∀ q, parsePacket b = some q → authOk s x q = false →
      (isUdp x = false → taken = unsigned_) ∧
      (∀ ip src, x = .udp ip src →
        let d := logRun unsigned_ 0x1501 [(4, (ip : Int)), (2, (src : Int))] 0 (!unsigned_.ccp.authRun)
        taken = { d with ccp := { d.ccp with authRun := true } })) ∧
    (∀ q v, parsePacket b = some q → authOk s x q = true →
      let r := if isUdp x then { s with ccp := { s.ccp with authRun := false } } else s
      let ctx : Ctx := { sess := x, nport := port, mac := mac, seq := q.seq, opcode := q.opcode, auth := q.auth.map (·.1),
                         arr := s.ccp.arrivals }
      let kept := putSession r v
      sessionOf r x = some v →
      (v.last.find? (·.1 == q.seq) = some (q.seq, false) → taken = kept) ∧
      (∀ c, v.last.head? = some (q.seq, true) → v.cached = some c → taken = placeReply (addCtr kept Reg.HOST_RETRY 1) ctx c) ∧
      (v.last.find? (·.1 == q.seq) = some (q.seq, true) → v.last.head?.map (·.1) ≠ some q.seq →
        taken = placeReply (addCtr kept Reg.HOST_DUP 1) ctx (replyPacket kept ctx Status.duplicate.code [])))) ∧
  ∀ (s : State) (ctx : Ctx) (p : CcpPkt), p.opcode = ctx.opcode →
    let r := addCtr s Reg.HOST_CMDS 1
    let answers := fun (st : Status) => takeCommand s ctx p = reply r ctx st []
    let plain := p.version = 1 ∧ p.flags = 0 ∧ p.status = 0
    (p.version ≠ 1 → answers .badVersion) ∧
    (p.version = 1 → (bit p.flags 0 = true ∨ 8 ≤ p.flags ∨ p.status ≠ 0 ∨ (bit p.flags 1 = true ∧ p.opcode ≠ 0x0202 ∧ p.opcode ≠ 0x0203)) →
      answers .badFlags) ∧
    (plain → p.opcode = 0 ∨ p.opcode = 0x0204 ∨ 0x0A20 < p.opcode → answers .badOpcode) ∧
    (plain → p.opcode = 0x0201 → p.payload.length ≠ 8 → answers .badLength) ∧
    (plain → p.opcode = 0x0302 → (p.payload.length - 4) % 16 ≠ 0 → answers .badLength) ∧
    (plain → p.opcode = 0x0201 → p.payload.length = 8 → beAt p.payload 6 2 = 0 →
      (beAt p.payload 0 4 % 4 ≠ 0 ∨ beAt p.payload 4 2 = 0 ∨ 4096 < beAt p.payload 4 2) → answers .badParam) ∧
    (p.version = 1 → p.flags = 2 → p.status = 0 → p.opcode = 0x0203 → p.payload.length = 20 →
      let a := beAt (p.payload.drop 8) 0 4
      paramsOk r (.modify a 0 0) = true → isUdp ctx.sess = false → beAt p.payload 0 8 ≤ s.tl.frame → answers .framePast) ∧
    (∀ op, plain → checkCommand r ctx none p.payload = .ok op → hwOpcode p.opcode = false →
      (s.fw.restarting = true → answers .fwRestarting) ∧
      (s.fw.restarting = false → 32 ≤ s.ccp.fwQ.length → answers .queueFull) ∧
      (s.fw.restarting = false → s.ccp.fwQ.length < 32 →
        let q := match op with | .metaInject d => metaInject r d | _ => r
        takeCommand s ctx p = { q with ccp := { q.ccp with fwQ := q.ccp.fwQ ++ [(ctx, none, op)] } }))

/-- The commands the engine executes itself (R248, R259, R260): READ returns its words, WRITE and MODIFY act as direct accesses or
join the frame queue, SNAPSHOT waits for its frame; a full queue is QUEUE_FULL and a frame that has begun FRAME_PAST. -/
def Obligations.EngineCommands : Prop :=
  ∀ (s : State) (ctx : Ctx) (a n m v f : Nat) (l : List Nat) (rs : List (Nat × Nat)),
    hwExec s none (.read a n) ctx = reply (readRegs n a s).2 ctx .ok ((readRegs n a s).1.flatMap (beBytes 4)) ∧
    hwExec s none (.write a l) ctx = reply (writeWords s a l) ctx .ok [] ∧
    (atOnce a = false → hwExec s none (.modify a m v) ctx =
      reply { s with ccp := { s.ccp with pend := s.ccp.pend ++ [(ctx.arr, .modify a m v)] } } ctx .ok []) ∧
    (atOnce a = true → hwExec s none (.modify a m v) ctx = reply (writeNow s a (modifyValue s a m v)) ctx .ok []) ∧
    (∀ op c, (op = .write a l ∧ c = .write a l false ∨ op = .modify a m v ∧ c = .modify a m v) →
      (f ≤ s.tl.frame → hwExec s (some f) op ctx = reply s ctx .framePast []) ∧
      (s.tl.frame < f → 256 ≤ s.ccp.frameQ.length → hwExec s (some f) op ctx = reply s ctx .queueFull []) ∧
      (s.tl.frame < f → s.ccp.frameQ.length < 256 → hwExec s (some f) op ctx =
        reply { s with ccp := { s.ccp with frameQ := s.ccp.frameQ ++ [(f, ctx.arr, c)] } } ctx .ok [])) ∧
    (f ≠ 0 → f ≤ s.tl.frame → hwExec s none (.snapshot f rs) ctx = reply s ctx .framePast []) ∧
    ((f = 0 ∨ s.tl.frame < f) → 8 ≤ s.ccp.snaps.length → hwExec s none (.snapshot f rs) ctx = reply s ctx .queueFull []) ∧
    ((f = 0 ∨ s.tl.frame < f) → s.ccp.snaps.length < 8 → hwExec s none (.snapshot f rs) ctx =
      { s with ccp := { s.ccp with snaps := s.ccp.snaps ++ [{ frame := f, ranges := rs, ctx := ctx }] } })

/-- The commands that only ask (R261, R482): each reply carries the fields of R261 in their order. Two clauses are the model's reading:
the time of TIME is that of the last boundary, in whole nanoseconds (assumption 57, DEDUCED), and STAGE_STATUS names the slate of the
take that the area holds checked, 0 without one (assumption 63, DEDUCED). -/
def Obligations.QueryReplies : Prop :=
  ∀ (s : State) (ctx : Ctx) (d : Bytes) (b : Nat), pairOwnsStaging s = false →
    let w := fun (n v : Nat) => beBytes n v
    let reg := fun (a : Nat) => w 4 (peekReg s a)
    let l := s.log
    fwExec s (.ping d) ctx = reply s ctx .ok d ∧
    fwExec s .identify ctx = reply s ctx .ok (reg Reg.SYS_ID ++ reg Reg.SYS_STEP ++ reg Reg.SYS_DEVID_HI ++ reg Reg.SYS_DEVID_LO ++
      w 4 (fwVersion s 0) ++ w 4 (fwVersion s 1) ++ w 1 (s.fw.running % 2) ++ w 1 (b2n s.hw.secure) ++ w 1 s.hw.pairId ++
      w 1 (roleCode s.pair.role) ++ w 8 (memUsable s)) ∧
    fwExec s .time ctx = reply s ctx .ok (w 8 s.tl.frame ++ w 8 s.tl.index ++ w 4 (getView s Reg.TIME_NOW_SHI) ++
      w 4 (getView s Reg.TIME_NOW_SLO) ++ w 4 (getView s Reg.TIME_NOW_NS / 4) ++ w 1 s.tl.rate ++ w 1 s.tl.depth ++
      w 1 (bits (getView s Reg.CLK_STATUS) 2 0) ++ w 1 0) ∧
    fwExec s .stageStatus ctx = reply s ctx .ok (w 1 (stageCode s.take.stage) ++ w 3 0 ++ w 4 (getR s Reg.TAKE_STAGEERR) ++
      w 4 (stagedSlate s).1 ++ (stagedSlate s).2) ∧
    fwExec s .reelList ctx = reply s ctx .ok ((List.range 64).flatMap fun k =>
      if (slotOf s k).full then w 4 (slotOf s k).slate ++ (slotOf s k).digest else w 20 0) ∧
    fwExec s .logInfo ctx = reply s ctx .ok (w 4 l.head ++ w 4 l.first ++ w 4 l.recs.length ++ w 4 (b2n l.full + 2 * b2n l.failed) ++
      w 4 l.lost) ∧
    (l.spill = [] → fwExec s .logSpill ctx = reply s ctx .ok (w 512 0)) ∧
    fwExec s .pairStatus ctx = reply s ctx .ok (w 1 (roleCode s.pair.role) ++ w 1 (peerRole s) ++
      w 1 (b2n s.pair.pclap + 2 * b2n s.pair.nclap) ++ w 1 0 ++ w 4 (getR s Reg.PAIR_MATCHRUN)) ∧
    fwExec s (.setQuery b) ctx = reply s ctx .ok ((List.range 8).flatMap fun i => reg (Reg.CONV_CH0 + 32 * b + 4 * i)) ∧
    fwExec s .fwStatus ctx = reply s ctx .ok (w 1 (s.fw.running % 2) ++ w 1 (b2n (imageValid s (imageOf s 0)) +
      2 * b2n (imageValid s (imageOf s 1))) ++ w 2 0 ++ w 4 (fwVersion s 0) ++ w 4 (fwVersion s 1) ++ w 4 0) ∧
    (∀ a n, (l.head + 2 ^ 32 - l.first) % 2 ^ 32 ≤ (a + 2 ^ 32 - l.first) % 2 ^ 32 →
      fwExec s (.logRead a n) ctx = reply s ctx .logRange []) ∧
    (∀ a r, (a + 2 ^ 32 - l.first) % 2 ^ 32 < (l.head + 2 ^ 32 - l.first) % 2 ^ 32 → s.fab.inj = [] → findRec l a = some r → r.bad = false →
      fwExec s (.logRead a 1) ctx = reply s ctx .ok (w 4 l.head ++ w 4 1 ++ recBytes r ++ w 4 l.head))

/-- Loading a take into the staging area (R221, R223). A copy reads its reel slot as it starts, zeros where the DRAM is not usable (R434). -/
def Obligations.StagingCommands : Prop :=
  ∀ (s : State) (ctx : Ctx) (n g o k : Nat) (d : Bytes), pairOwnsStaging s = false →
    let t := s.take
    let put := fun (x : TakeSt) => { s with take := x }
    (t.stage = .scheduled → fwExec s (.stageBegin n g) ctx = reply s ctx .cutPending [] ∧
      fwExec s (.stageFromReel k) ctx = reply s ctx .cutPending [] ∧ fwExec s .stageDiscard ctx = reply s ctx .cutPending []) ∧
    (t.stage ≠ .scheduled → (n % 16 ≠ 0 ∨ n < 160 ∨ 8388608 < n ∨ g = 0) → fwExec s (.stageBegin n g) ctx = reply s ctx .stageFormat []) ∧
    (t.stage ≠ .scheduled → t.stage ≠ .checking → t.copying = none → n % 16 = 0 → 160 ≤ n → n ≤ 8388608 → g ≠ 0 →
      fwExec s (.stageBegin n g) ctx = reply (put { t with stage := .loading, named := some (n, g), bytes := zeroBytes n, staged := none }) ctx .ok []) ∧
    (t.stage ≠ .loading → fwExec s (.stageData o d) ctx = reply s ctx .stageState [] ∧ fwExec s .stageEnd ctx = reply s ctx .stageState []) ∧
    (t.stage = .loading → t.copying = none →
      (o + d.length ≤ t.bytes.length → fwExec s (.stageData o d) ctx = reply (put { t with bytes := patchB t.bytes o d }) ctx .ok []) ∧
      (t.bytes.length < o + d.length → fwExec s (.stageData o d) ctx = reply s ctx .stageFormat []) ∧
      fwExec s .stageEnd ctx = put { t with stage := .checking, ctx := some ctx }) ∧
    (t.stage ≠ .scheduled → (slotOf s k).full = false → fwExec s (.stageFromReel k) ctx = reply s ctx .reelEmpty []) ∧
    (t.stage ≠ .scheduled → t.stage ≠ .checking → t.copying = none → (slotOf s k).full = true →
      let n := (slotOf s k).len
      let m := if dramHolds s (reelAddr s k) n = true then memRead s (reelAddr s k) n 13 0 else (zeroBytes n, s)
      fwExec s (.stageFromReel k) ctx = { m.2 with take := { m.2.take with
        stage := .loading, named := none, bytes := m.1, staged := none, copying := some k, ctx := some ctx } }) ∧
    (t.stage ≠ .scheduled → fwExec s .stageDiscard ctx = { s with ccp := { s.ccp with pend := s.ccp.pend ++ [(ctx.arr, .op .stageDiscard (some ctx))] } }) ∧
    (t.stage ≠ .scheduled → t.stage ≠ .checking → t.copying = none →
      stageDiscard s (some ctx) = reply (put { t with
        stage := .empty, named := none, bytes := [], staged := none, copying := none, waiting := false, cut := none }) ctx .ok [])

/-- The check of a staged take ends (R221 to R223): a container without fault is CHECKED and its images are loaded; one with a fault is
FAILED, TAKE_STAGEERR names the step's status and the section it failed at, STAGE_FAIL is logged and the command is answered with that
status; before step 7 the check waits while an earlier cut holds a program bank. -/
def Obligations.StagingCheckEnds : Prop :=
  ∀ (s : State), s.take.stage = .checking → s.take.waiting = false → s.take.next = [] →
    let early := checkEarly s s.take.bytes s.take.named
    let ended := { s.take with ctx := none, waiting := false }
    let slate := match s.take.named with | some n => n.2 | none => beAt s.take.bytes 8 4
    let failed := fun (st : Status) (sect : Nat) => replyTo (raise (logEv
      (addCtr (setR { s with take := { ended with stage := .failed, staged := none } } Reg.TAKE_STAGEERR (st.code * 65536 + sect))
        Reg.TAKE_STAGEFAIL 1) 0x0C04 [(2, (st.code : Int)), (2, (sect : Int)), (4, (slate : Int))]) 12 2) s.take.ctx st []
    let checked := fun (x : Take) => raise (replyTo (stageImages { s with take := { ended with stage := .checked, staged := some x } } x)
      s.take.ctx .ok []) 12 1
    (∀ e, early = .error e → exec .stageCheckDone s = .next (failed e.1.status e.2)) ∧
    (∀ x, early = .ok x → bankHeld s = true → exec .stageCheckDone s = .next { s with take := { s.take with waiting := true } }) ∧
    (∀ x, early = .ok x → bankHeld s = false →
      (∀ sect, inconsistent s x = some sect → exec .stageCheckDone s = .next (failed .stageInconsistent sect)) ∧
      (inconsistent s x = none → exec .stageCheckDone s = .next (checked x))) ∧
    (∀ (x : Take) (u : State), (stageImages u x).take = u.take ∧ (stageImages u x).regs = u.regs) ∧
    (∀ r : State, r.take.waiting = true → bankHeld r = false → r.take.stage = .checking →
      exec .stageCheckResume r = exec .stageCheckDone { r with take := { r.take with waiting := false } }) ∧
    (∀ (r : State) (k : Nat), r.take.copying = some k →
      exec .reelCopyDone r = .next { r with take := { r.take with stage := .checking, copying := none } })

/-- Scheduling and cancelling a cut (R224 to R226): a cut names a frame or a PTP time (R15), is checked on arrival, and each
rejection leaves the state of the staging area and counts in TAKE_CUTREJ; a cancel acts where it commits. -/
def Obligations.CutCommands : Prop :=
  ∀ (s : State) (ctx : Ctx) (mode hard t0 t1 : Nat) (g : Bytes) (x : Take), pairOwnsStaging s = false → mode ≤ 1 →
    let rejected := fun (st : Status) => reply (addCtr s Reg.TAKE_CUTREJ 1) ctx st []
    let f := if mode = 0 then t0 else ((t0 * 1000000000 + t1) * fsOf s.tl.rate + 15999999999) / 16000000000
    let cut := fwExec s (.cut mode hard t0 t1 g) ctx
    (s.take.stage = .scheduled → cut = rejected .cutPending) ∧
    (s.take.stage ≠ .scheduled → s.take.stage ≠ .checked → cut = rejected .notStaged) ∧
    (s.take.stage = .checked → s.take.staged = some x →
      (g ≠ x.digest → cut = rejected .digestMismatch) ∧
      (g = x.digest → f ≤ s.tl.frame + 1 → cut = rejected .framePast) ∧
      (g = x.digest → s.tl.frame + 1 < f → cut =
        reply { s with take := { s.take with stage := .scheduled, cut := some (f, hard == 1) } } ctx .ok (beBytes 8 f))) ∧
    fwExec s .cutCancel ctx = { s with ccp := { s.ccp with pend := s.ccp.pend ++ [(ctx.arr, .op .cutCancel (some ctx))] } } ∧
    (s.take.stage = .scheduled → cutCancel s (some ctx) = reply { s with take := { s.take with stage := .checked, cut := none } } ctx .ok []) ∧
    (s.take.stage ≠ .scheduled → cutCancel s (some ctx) = reply s ctx .noCut [])

/-- The reel (R219, R220, R261, R409): a load empties its slot, its data goes to the slot's memory, and its end tests the container. Without
usable DRAM for the slot each fails. That such a store is answered with STAGE_FORMAT is the model's choice (assumption 105), and so is that REEL_DELETE leaves a
load of its slot open (assumption 39). -/
def Obligations.ReelCommands : Prop :=
  ∀ (s : State) (ctx : Ctx) (k n o : Nat) (d : Bytes), k < 64 →
    let b := memRead s (reelAddr s k) n 13 0
    let ended := { b.2 with take := { b.2.take with reelLoad := none } }
    let holds := dramHolds s (reelAddr s k) n = true
    let emptied := fun (l : Option (Nat × Nat)) =>
      { s with take := { s.take with reel := s.take.reel.setIfInBounds k ReelSlot.empty, reelLoad := l } }
    (n % 16 ≠ 0 ∨ n < 160 ∨ 8388608 < n → fwExec s (.reelBegin k n) ctx = reply s ctx .stageFormat []) ∧
    (n % 16 = 0 → 160 ≤ n → n ≤ 8388608 →
      (holds → fwExec s (.reelBegin k n) ctx = reply (emptied (some (k, n))) ctx .ok []) ∧
      (¬ holds → fwExec s (.reelBegin k n) ctx = reply (emptied none) ctx .stageFormat [])) ∧
    (s.take.reelLoad = none → fwExec s (.reelData k o d) ctx = reply s ctx .reelState [] ∧
      fwExec s (.reelEnd k) ctx = reply s ctx .reelState []) ∧
    (∀ j, s.take.reelLoad = some (j, n) → j ≠ k → fwExec s (.reelData k o d) ctx = reply s ctx .reelState [] ∧
      fwExec s (.reelEnd k) ctx = reply s ctx .reelState []) ∧
    (s.take.reelLoad = some (k, n) → holds → o + d.length ≤ n →
      fwExec s (.reelData k o d) ctx = reply (dramWrite s 13 0 (reelAddr s k + o) d) ctx .ok []) ∧
    (s.take.reelLoad = some (k, n) → n < o + d.length ∨ ¬ holds → fwExec s (.reelData k o d) ctx = reply s ctx .stageFormat []) ∧
    (s.take.reelLoad = some (k, n) → ¬ holds →
      fwExec s (.reelEnd k) ctx = reply { s with take := { s.take with reelLoad := none } } ctx .stageFormat []) ∧
    (s.take.reelLoad = some (k, n) → holds → headerOk b.1 = false → fwExec s (.reelEnd k) ctx = reply ended ctx .stageFormat []) ∧
    (s.take.reelLoad = some (k, n) → holds → headerOk b.1 = true → 48 + 16 * beAt b.1 6 2 ≤ n →
      (directory b.1).any (fun e => decide (e.ofs + e.len > n)) = false →
      (badCrc (directory b.1) ≠ none → fwExec s (.reelEnd k) ctx = reply ended ctx .stageCrc []) ∧
      (badCrc (directory b.1) = none → fwExec s (.reelEnd k) ctx = reply { ended with take := { ended.take with
        reel := ended.take.reel.setIfInBounds k { full := true, len := n, slate := beAt b.1 8 4, digest := sliceB b.1 16 16 } } } ctx .ok [])) ∧
    fwExec s (.reelDelete k) ctx =
      reply { s with take := { s.take with reel := s.take.reel.setIfInBounds k ReelSlot.empty } } ctx .ok []

/-- Firmware images (R237, R238, R261, R498). That FW_BEGIN erases the whole area of its image and that of a load it abandons (assumption
39), and that a restart answers every queued command (assumption 42), are the model's choices. -/
def Obligations.FirmwareCommands : Prop :=
  ∀ (s : State) (ctx : Ctx) (i n o f : Nat) (d : Bytes),
    (i = s.fw.running → fwExec s (.fwBegin i n) ctx = reply s ctx .fwActive []) ∧
    (∀ g, i ≠ s.fw.running → s.fw.sched = some (i, g) → fwExec s (.fwBegin i n) ctx = reply s ctx .fwPending []) ∧
    (i ≠ s.fw.running → s.fw.sched = none →
      let erased := Sparse.clearRange s.mem (flashImage i) (flashImage i + 0x200000)
      let loads := fun (m : Memory) => reply { s with mem := m, fw := { s.fw with load := some (i, n) } } ctx .ok []
      (s.fw.load = none → fwExec s (.fwBegin i n) ctx = loads erased) ∧
      (∀ k l, s.fw.load = some (k, l) →
        fwExec s (.fwBegin i n) ctx = loads (Sparse.clearRange erased (flashImage k) (flashImage k + 0x200000)))) ∧
    (s.fw.load = none → fwExec s (.fwData o d) ctx = reply s ctx .fwState [] ∧ fwExec s .fwEnd ctx = reply s ctx .fwState []) ∧
    (s.fw.load = some (i, n) →
      (o + d.length ≤ n → fwExec s (.fwData o d) ctx = reply (memWrite s (flashImage i + o) d) ctx .ok []) ∧
      (n < o + d.length → fwExec s (.fwData o d) ctx = reply s ctx .badParam []) ∧
      (let st := if imageValid s (imageOf s i) = true ∧ (imageOf s i).length = n then Status.ok else Status.fwInvalid
       fwExec s .fwEnd ctx = reply { s with fw := { s.fw with load := none } } ctx st [])) ∧
    (s.fw.sched ≠ none → fwExec s (.fwSwitch i f) ctx = reply s ctx .fwPending []) ∧
    (s.fw.sched = none → i = s.fw.running → fwExec s (.fwSwitch i f) ctx = reply s ctx .fwActive []) ∧
    (s.fw.sched = none → i ≠ s.fw.running → imageValid s (imageOf s i) = false → fwExec s (.fwSwitch i f) ctx = reply s ctx .fwInvalid []) ∧
    (s.fw.sched = none → i ≠ s.fw.running → imageValid s (imageOf s i) = true →
      (f ≤ s.tl.frame + 1 → fwExec s (.fwSwitch i f) ctx = reply s ctx .framePast []) ∧
      (s.tl.frame + 1 < f → fwExec s (.fwSwitch i f) ctx =
        reply { s with fw := { s.fw with sched := some (i, f), schedArr := ctx.arr } } ctx .ok [])) ∧
    (∃ t, exec (.fwReady 1) s = .next t ∧ t.fw.ready = true ∧ t.fw.restarting = false ∧ t.fw.running = s.fw.running ∧ t.fw.switching = none) ∧
    exec (.fwReady 0) s = .next s ∧
    (s.fw.ready = true → exec .fwFallback s = .next s) ∧
    (s.fw.ready = false → s.pwr.boot = .running →
      ∃ t, exec .fwFallback s = .next t ∧ t.fw.running = s.fw.previous ∧ t.fw.ready = false ∧ t.fw.switching = none ∧ t.ccp.fwQ = [])

/-- Set loads and changes, the test generator, injected metadata, log, pair and error-injection commands (R104, R117, R120, R261,
R444, R455, R460, R472, R483). That SET_CHANGE waits for the next boundary, where it is judged (assumption 71), that the OFFSET of
ECC_INJECT counts from the base of its memory (assumption 58), and that PAIR_RESYNC is refused while a takeover is pending (assumption
88) are the model's readings. -/
def Obligations.SetAndServiceCommands : Prop :=
  ∀ (s : State) (ctx : Ctx) (b k n o f x : Nat) (d : Bytes), pairOwnsStaging s = false →
    let pends := fun (op : CcpOp) => { s with ccp := { s.ccp with pend := s.ccp.pend ++ [(ctx.arr, .op op (some ctx))] } }
    let load := fun (l : Option SetLoad) => { s with conv := { s.conv with load := l } }
    let queued := fun (n : Nat) (op : CcpOp) (c : Option Ctx) =>
      { s with ccp := { s.ccp with frameQ := s.ccp.frameQ ++ [(n, ctx.arr, .op op c)] } }
    let queues := fun (op : CcpOp) => queued f op none
    let mayExchange := s.pair.role = .active ∧ (peerRole s = 2 ∨ peerRole s = 7) ∨ s.pair.role = .standby ∧ (peerRole s = 1 ∨ peerRole s = 7)
    (busCount s ≤ b ∨ 32788 < n → fwExec s (.setBegin b k n) ctx = reply s ctx .setInvalid []) ∧
    (b < busCount s → n ≤ 32788 → slotBusy s b k = true →
      fwExec s (.setBegin b k n) ctx = reply (addCtr s Reg.CONV_BUSYREJ 1) ctx .convBusy []) ∧
    (b < busCount s → n ≤ 32788 → slotBusy s b k = false → fwExec s (.setBegin b k n) ctx =
      reply (load (some { bus := b, slot := k, size := n, bytes := zeroBytes n, got := 0 })) ctx .ok []) ∧
    (s.conv.load = none → fwExec s (.setData o d) ctx = reply s ctx .setInvalid [] ∧ fwExec s .setEnd ctx = reply s ctx .setInvalid []) ∧
    (∀ l, s.conv.load = some l →
      (o + d.length ≤ l.size → fwExec s (.setData o d) ctx =
        reply (load (some { l with bytes := patchB l.bytes o d, got := l.got + d.length })) ctx .ok []) ∧
      (∀ st, parseSet l.bytes l.got l.size = .error st → fwExec s .setEnd ctx = reply (load none) ctx st []) ∧
      (∀ q, parseSet l.bytes l.got l.size = .ok q → slotBusy s l.bus l.slot = false →
        fwExec s .setEnd ctx = reply (forwardSet (setChan (load none) l.bus { chanOf s l.bus with
          slots := (chanOf s l.bus).slots.set l.slot (.converting q) }) l.bus l.slot q) ctx .ok [])) ∧
    (f ≤ s.tl.frame → fwExec s (.setChange b k f x) ctx = reply s ctx .framePast []) ∧
    (s.tl.frame < f → 256 ≤ s.ccp.frameQ.length → fwExec s (.setChange b k f x) ctx = reply s ctx .queueFull []) ∧
    (s.tl.frame < f → s.ccp.frameQ.length < 256 →
      fwExec s (.setChange b k f x) ctx = queued (s.tl.frame + 1) (.setChange b k f x) (some ctx)) ∧
    (f ≤ s.tl.frame → fwExec s (.genStart f) ctx = reply s ctx .framePast [] ∧ fwExec s (.genStop f) ctx = reply s ctx .framePast []) ∧
    (s.tl.frame < f → s.ccp.frameQ.length < 256 →
      fwExec s (.genStart f) ctx = reply (queues (.genStart f)) ctx .ok [] ∧
      fwExec s (.genStop f) ctx = reply (queues (.genStop f)) ctx .ok []) ∧
    fwExec s (.metaInject d) ctx = reply s ctx .ok [] ∧
    (s.hw.secure = true → fwExec s (.eccInject k n o) ctx = reply s ctx .notPermitted []) ∧
    (∀ a, s.hw.secure = false → injectAddr s k o = some a → s.fab.inj = [] →
      fwExec s (.eccInject k 0 o) ctx = reply { s with fab := { s.fab with inj := [(a, 1)] } } ctx .ok [] ∧
      fwExec s (.eccInject k 1 o) ctx = reply { s with fab := { s.fab with inj := [(a, 3)] } } ctx .ok []) ∧
    (s.log.failed = true → fwExec s .logClear ctx = reply s ctx .notPermitted []) ∧
    (s.log.failed = false → fwExec s .logClear ctx = pends .logClear) ∧
    (s.pair.role = .solo ∨ s.pair.role = .active → fwExec s .pairResync ctx = reply s ctx .pairRole []) ∧
    (takeoverPending s = true → fwExec s .pairResync ctx = reply s ctx .pairRole []) ∧
    (s.pair.role = .standby ∨ s.pair.role = .orphan → takeoverPending s = false → fwExec s .pairResync ctx =
      { s with pair := { s.pair with rsCtx := s.pair.rsCtx ++ [ctx], pend := some (.resync, 7) } }) ∧
    (¬ mayExchange → fwExec s (.pairSwitchover f) ctx = reply s ctx .pairRole []) ∧
    (mayExchange → s.pair.pclap = false → fwExec s (.pairSwitchover f) ctx = reply s ctx .pairLink []) ∧
    (mayExchange → s.pair.pclap = true → f ≤ s.tl.frame + getF s F.PAIR_LEAD_FRAMES →
      fwExec s (.pairSwitchover f) ctx = reply s ctx .framePast []) ∧
    (mayExchange → s.pair.pclap = true → s.tl.frame + getF s F.PAIR_LEAD_FRAMES < f →
      s.ccp.frameQ.length < 256 →
      fwExec s (.pairSwitchover f) ctx = reply (pairSend (queues (.pairSwitchover f)) 5 (beBytes 8 f)) ctx .ok [])

/-- Training and frequency changes asked for by command, and how they end (R403, R407 to R409, R411, R412). That a training leaves READY
only with results for the set point in use, that results of a set point which fails again no longer stand, and that a take which has come
to stand since the request keeps the controller at FSP0 are the model's choices (assumption 86). -/
def Obligations.MemoryTrainingAndFsp : Prop :=
  ∀ (s : State) (ctx : Ctx) (t v ms : Nat) (a b : TrainSet),
    let d := s.dram
    let busy := d.training.isSome ∨ d.change.isSome
    let with_ := fun (x : MemSt) => { s with dram := x }
    let able := bit d.trained t = true ∨ dramSupported s = true
    (takePresent s = true ∨ busy → dramSupported s = true → fwExec s .memRetrain ctx = reply s ctx .notPermitted []) ∧
    (dramSupported s = false → fwExec s .memRetrain ctx = reply (raise s 16 0) ctx .notPermitted []) ∧
    (takePresent s = false → dramSupported s = true → ¬ busy → fwExec s .memRetrain ctx =
      with_ { d with training := some (getF s F.MEM_TRAINCTRL_SETS % 4), trainCtx := some ctx }) ∧
    (takePresent s = true → fwExec s (.memFsp 1) ctx = reply (setF s F.MEM_FSPSTAT_STATUS Status.notPermitted.code) ctx .notPermitted []) ∧
    (takePresent s = false → d.change.isSome = true → fwExec s (.memFsp t) ctx = reply (setF s F.MEM_FSPSTAT_STATUS Status.memBusy.code) ctx .memBusy []) ∧
    (takePresent s = false → d.change = none → t ≠ d.fsp → bit d.trained t = false → dramSupported s = false → fwExec s (.memFsp t) ctx =
      reply (setF (raise s 16 0) F.MEM_FSPSTAT_STATUS Status.notPermitted.code) ctx .notPermitted []) ∧
    (takePresent s = false → d.change = none → t ≠ d.fsp → able → d.training.isSome = true → fwExec s (.memFsp t) ctx =
      addCtr (with_ { d with change := some { target := t, deferred := true, running := false, upto := d.nextId, ctx := some ctx } })
        Reg.MEM_DEFER 1) ∧
    (takePresent s = false → ¬ busy → t ≠ d.fsp → able → fwExec s (.memFsp t) ctx =
      with_ { d with change := some { target := t, deferred := false, running := true, upto := d.nextId, ctx := some ctx } }) ∧
    exec (.memTrainStart v) s = .next (queueWrite s Reg.MEM_TRAINCTRL v) ∧ exec (.memFspreqGo v) s = .next (queueWrite s Reg.MEM_FSPREQ v) ∧
    (d.training = none → exec (.memTrainingDone a b ms) s = .next s) ∧
    (d.training = some 1 → (trainFails b).1 = 0 → ∃ u, exec (.memTrainingDone a b ms) s = .next u ∧
      u.dram.ready = bit (d.trained ||| 1) d.fsp ∧ u.dram.training = none ∧ u.dram.trainCtx = none ∧ u.dram.trained = d.trained ||| 1) ∧
    (d.training = some 1 → (trainFails b).1 ≠ 0 → ∃ u, exec (.memTrainingDone a b ms) s = .next u ∧
      u.dram.ready = false ∧ u.dram.trainFail = true ∧ u.dram.training = none ∧ u.dram.trained = andNot d.trained 1 ∧
      (d.trainCtx = none → getR64 u Reg.MEM_USABLE_LO Reg.MEM_USABLE_HI = 0)) ∧
    (d.change = none → exec (.memFspChangeDone a ms) s = .next s) ∧
    (∀ c, d.change = some c → c.running = true → bit d.trained c.target = true → ¬ (c.target = 1 ∧ takePresent s = true) →
      ∃ u, exec (.memFspChangeDone a ms) s = .next u ∧ u.dram.change = none ∧ u.dram.fsp = c.target) ∧
    (∀ c, d.change = some c → c.running = true → c.target = 1 → takePresent s = true →
      ∃ u, exec (.memFspChangeDone a ms) s = .next u ∧ u.dram.change = none ∧ u.dram.fsp = d.fsp ∧ u.dram.trained = d.trained)

/-- The DRAM address map of R405 loses nothing: two addresses with the same channel, slot, bank, rank, row and byte are the same
address. A DRAM request joins its channel's queue in the class of the function that issues it (R413, R414) with the page hint of its
window; earlier requests to the same addresses inherit the class (R416), and self-refresh ends for it (R420, R422). One that no window
decodes to the usable DRAM is a decode error, which its master handles (R405, R434, R445). Requests enter by their row (assumption 90)
and belong to the channel of their first byte (assumption 28): both are the model's. -/
def Obligations.DramRequestQueues : Prop :=
  (∀ (ranks a b : Nat), 0 < ranks → 0x1000000000 ≤ a → 0x1000000000 ≤ b → dramChan a = dramChan b → dramSlot a = dramSlot b →
    dramBank a = dramBank b → dramRank ranks a = dramRank ranks b → dramRow ranks a = dramRow ranks b → a % 256 = b % 256 → a = b) ∧
  (∀ k c p j : Nat, dramClass (.dma k) = 1 ∧ dramClass .control = 2 ∧ dramClass .command = 2 ∧ dramClass .reel = 3 ∧
    dramClass .logMirror = 3 ∧ dramClass .scrub = 3 ∧ dramClass (.farWin k c) = 0 ∧ dramClass (.convWindow c p) = 0 ∧
    dramClass (.convCoef c p j k) = 0 ∧ dramClass (.convLine c p j) = 0 ∧ dramClass (.extStore k) = 0) ∧
  (∀ (s : State) (q : DramIn), powered s = true →
    let write := !q.write.isEmpty
    let n := if write then q.write.length else q.len
    let port := dramPort s q.use
    let d := s.dram
    let r : DramReq := {
      id := d.nextId, chan := dramChan q.addr, master := port.1, cls := dramClass q.use, native := dramClass q.use, head := false,
      addr := q.addr, write := q.write, len := n, closed := pageClosed s port.1 q.addr,
      due := q.deadline.map (fun f => (f : Int) + s.tl.z + s.tl.adj), use := q.use, at_ := q.at_, passed := 0, missed := false }
    let lower := fun (e : DramReq) => !e.head && reqOverlap e r && decide (e.cls > r.cls)
    let queues := d.reqs.filter (fun e => !lower e) ++ (d.reqs.filter lower).map (fun e => { e with cls := r.cls }) ++ [r]
    (n = 0 ∨ q.addr < 0x1000000000 → exec (.dramRequest q) s = .next s) ∧
    (0 < n → 0x1000000000 ≤ q.addr → fabTarget s port.1 q.addr n write ≠ some 0 → exec (.dramRequest q) s =
      .next (masterError (fabError s 0 port.1 port.2 q.addr) port.1 port.2 q.addr)) ∧
    (0 < n → 0x1000000000 ≤ q.addr → fabTarget s port.1 q.addr n write = some 0 →
      ∃ t, exec (.dramRequest q) s = .next t ∧ t.dram.reqs = queues ∧ t.dram.nextId = d.nextId + 1 ∧ t.mem = s.mem ∧
        (d.selfRef = .entering ∨ d.selfRef = .in_ → t.dram.selfRef = .out) ∧
        (d.selfRef = .out → t.regs = s.regs)))

/-- What a channel does with the request it serves (R406, R414 to R416): a read returns its bytes, a write stores its strobed bytes
and nothing else; the request leaves its queue. A read whose port waits for an earlier one is held back (R416). None is served while a training runs or, for those that came after it began, a
frequency change (R411, R412). An aged request moves to the head list. -/
def Obligations.DramRequestServed : Prop :=
  ∀ (s : State) (ch id at_ : Nat) (hit : Bool) (r : DramReq), powered s = true →
    (s.dram.reqs = [] → exec (.dramRequestComplete ch hit) s = .next s) ∧
    (s.dram.reqs = [r] → r.chan = ch → r.due = none → s.fab.inj = [] → s.dram.heldReads = [] →
      s.dram.training = none → s.dram.change = none → ∃ t, exec (.dramRequestComplete ch hit) s = .next t ∧ t.dram.reqs = [] ∧
        t.dram.heldReads = [] ∧ (r.write = [] → t.rdata = Memory.readBytes s.mem r.addr r.len ∧ t.mem = s.mem) ∧
        (r.write ≠ [] → t.rdata = s.rdata ∧ ∀ p : Nat, Memory.read t.mem p =
          (if r.addr ≤ p then ((r.write.getD (p - r.addr) none).getD (Memory.read s.mem p)) else Memory.read s.mem p))) ∧
    (∀ e : DramReq, s.dram.reqs = [e, r] → e.master = r.master → e.id < r.id → e.write = [] → r.write = [] → e.chan ≠ ch → r.chan = ch →
      r.due = none → s.fab.inj = [] → s.dram.heldReads = [] → s.dram.training = none → s.dram.change = none →
      reqOverlap e r = false → ∃ t, exec (.dramRequestComplete ch hit) s = .next t ∧ t.dram.reqs.map (·.id) = [e.id] ∧
        t.dram.heldReads = [(r.master, r.id, Memory.readBytes s.mem r.addr r.len)] ∧ t.rdata = s.rdata) ∧
    ((s.dram.training ≠ none ∨ ∃ c, s.dram.change = some c ∧ c.running = true ∧ ∀ e ∈ s.dram.reqs, c.upto ≤ e.id) →
      exec (.dramRequestComplete ch hit) s = .next s) ∧
    (s.dram.reqs = [r] → r.id = id → r.head = false → r.at_ + getF s (if r.native = 0 then F.MEM_AGE0_NS else F.MEM_AGE1_NS) < at_ →
      exec (.agePromotion id at_) s = .next (addCtr { s with dram := { s.dram with reqs := [{ r with head := true }] } } Reg.MEM_PROMO 1)) ∧
    (s.dram.reqs = [r] → at_ ≤ r.at_ + getF s (if r.native = 0 then F.MEM_AGE0_NS else F.MEM_AGE1_NS) →
      exec (.agePromotion id at_) s = .next s)

/-- The maintenance of the DRAM (R410, R417 to R422). -/
def Obligations.DramMaintenance : Prop :=
  ∀ (s : State) (counts : List Nat) (rank bank row : Nat) (rates : List (Nat × Bool)), powered s = true →
    let d := s.dram
    let with_ := fun (x : MemSt) => { s with dram := x }
    (d.selfRef = .out → exec .refresh s = .next (with_ { d with open_ := [], pd := 0 })) ∧
    (d.selfRef = .in_ → exec .refresh s = .next s) ∧
    (d.fsp ≠ 0 ∨ d.ready = false → exec (.wckDqOscillatorRead counts) s = .next s) ∧
    (d.fsp = 0 → d.ready = true → ∃ t, exec (.wckDqOscillatorRead [rank]) s = .next t ∧
      let old := signed 8 (getF s F.MEM_LANE2_TRACK)
      let goal := clampI (-32) 32 (driftOf rank (d.n0.getD 0 0))
      signed 8 (getF t F.MEM_LANE2_TRACK) = if old < goal then old + 1 else if goal < old then old - 1 else old) ∧
    (rates.all (fun r => !r.2) = true → exec (.mr4Poll rates) s = .next (with_ { d with hotRef := false })) ∧
    (rates.any (·.2) = true → ∃ t, exec (.mr4Poll rates) s = .next t ∧ t.dram.hotRef = true) ∧
    (d.rhDue.contains (bank, row) = true → ∃ t, exec (.rowHammerRefresh bank row) s = .next t ∧
      t.dram.rhDue = d.rhDue.filter (· != (bank, row)) ∧ t.dram.open_ = d.open_.filter (·.1 != bank) ∧
      t.dram.rh = d.rh.map fun e => if e.bank = bank ∧ e.row = row then { e with count := 0 } else e) ∧
    exec .rowHammerTableClear s = .next (with_ { d with rh := [] }) ∧
    (getF s F.MEM_PDTIMER_CK = 0 → exec (.powerDownEntry rank) s = .next s) ∧
    (getF s F.MEM_PDTIMER_CK ≠ 0 → d.reqs = [] → d.open_ = [] → rank < dramRanks s → d.ready = true → d.selfRef = .out →
      exec (.powerDownEntry rank) s = .next (with_ { d with pd := d.pd ||| 2 ^ rank })) ∧
    (getF s F.MEM_SRCTRL_IDLE = 0 ∨ takePresent s = true → exec (.selfRefreshEntry false) s = .next s ∧ exec (.selfRefreshEntry true) s = .next s) ∧
    (getF s F.MEM_SRCTRL_IDLE ≠ 0 → takePresent s = false → d.training = none → d.change = none → d.reqs = [] → d.ready = true →
      (d.selfRef = .out → exec (.selfRefreshEntry false) s = .next (with_ { d with selfRef := .entering })) ∧
      (d.selfRef = .entering → exec (.selfRefreshEntry true) s = .next (with_ { d with selfRef := .in_, open_ := [], pd := 0 })))

/-- A request at the fabric (R430 to R435, R437): a parity error or a decode error is counted, answered with zero beats and not
performed, and its master handles it, a core's DMA as the error of R149; one whose source drains or whose port has 64 transactions
outstanding stalls its issuer; any other waits at its target. The next burst of a target is one of the highest priority waiting for it
(R435). That the lowest running channel of a core takes an error that belongs to no descriptor is the model's choice (assumption 100). -/
def Obligations.FabricRequests : Prop :=
  (∀ (s : State) (m src a len : Nat) (data : Bytes) (parity : Bool),
    let write := !data.isEmpty
    let n := if write then data.length else len
    let b : Nat → Burst := fun t => {
      master := m, source := src, target := t, addr := a, write := if write then some data else none, len := n, drained := false }
    let asked := exec (.fabricRequest m src a len data parity) s
    let refused := fun (kind : Nat) =>
      masterError { fabError s kind m src a with rdata := if write then [] else zeroBytes n } m src a
    (n = 0 ∨ 1024 < n → asked = .next s) ∧
    (1 ≤ n → n ≤ 1024 → draining s m src = true ∨ 64 ≤ portLoad s m → asked = .next { s with fab := { s.fab with
      stalled := s.fab.stalled ++ [{ master := m, source := src, addr := a, len := len, data := data, parity := parity }] } }) ∧
    (draining s m src = false → portLoad s m < 64 → 1 ≤ n → n ≤ 1024 →
      (parity = true → asked = .next (refused 1)) ∧
      (parity = false → fabTarget s m a n write = none → asked = .next (refused 0)) ∧
      (∀ t, parity = false → fabTarget s m a n write = some t →
        (s.fab.current.any (fun x => x.target == t) = true →
          asked = .next { s with fab := { s.fab with waiting := s.fab.waiting ++ [b t] } }) ∧
        (s.fab.current = [] → s.fab.waiting = [] → ∃ u, asked = .next u ∧ u.fab.current = [b t] ∧ u.fab.waiting = [] ∧ u.mem = s.mem))) ∧
    (fabError s 0 m src a).mem = s.mem ∧
    (16 ≤ m → src < 32 → (coreOf s src).state ≠ .fault → (coreOf (masterError s m src a) src).de = true ∧
      (coreOf (masterError s m src a) src).ipend = (coreOf s src).ipend ||| 4)) ∧
  (∀ (s : State) (t : Nat) (b x : Burst), nextGrant s t = some b → x ∈ s.fab.waiting → x.target = t →
    b ∈ s.fab.waiting ∧ b.target = t ∧ fabPrio s x.master t ≤ fabPrio s b.master t)

/-- A granted burst is carried out whole and the target grants the next (R434, R435). At a memory a write lands and a read returns
its bytes; of the log SRAM a read returns the records that stand there. At the registers a word written acts as the control
processor's or as a direct write, and a word read is read directly (R252; byte order: assumption 93). A write to the PCIe window
leaves the device. Requests that stalled then go on as far as they may (R431, R437). -/
def Obligations.FabricBurstsEnd : Prop :=
  ∀ (s : State) (b : Burst), s.fab.current = [b] → s.fab.waiting = [] → s.fab.inj = [] → b.drained = false →
    let idle := { s with fab := { s.fab with current := [] } }
    let o := b.addr - regionBase 11
    (b.target = 11 → regionBase 11 ≤ b.addr → o % 4 = 0 →
      (∀ d, b.write = some d → d.length = 4 → exec (.burstGrant 11) s = .next (wakeStalled (grant (serveRing (
        if b.master ≠ 0 then hostWrite idle o (leAt d 0 4)
        else if o = Reg.TAKE_FWCTRL then fwReady idle (leAt d 0 4)
        else if atOnce o then writeNow idle o (leAt d 0 4)
        else pendNow idle (.write o [leAt d 0 4] true))) 11))) ∧
      (b.write = none → b.len = 4 → exec (.burstGrant 11) s =
        .next (wakeStalled (grant { (readReg idle o).2 with rdata := leBytes 4 (readReg idle o).1 } 11)))) ∧
    (b.target ≠ 11 → s.fab.stalled = [] → ∃ t, exec (.burstGrant b.target) s = .next t ∧ t.fab.current = [] ∧ t.fab.waiting = [] ∧
      (∀ d, b.write = some d → b.target ≠ 12 → (MemoryCanonical s → MemoryCanonical t) ∧
        ∀ p : Nat, Memory.read t.mem p = if b.addr ≤ p ∧ p < b.addr + d.length then d.getD (p - b.addr) 0 else Memory.read s.mem p) ∧
      (b.write.isSome = true → b.target = 12 → t.mem = s.mem ∧ t.rdata = s.rdata) ∧
      (b.write = none → t.mem = s.mem ∧
        (b.target ≠ 10 → b.target ≠ 12 → t.rdata = Memory.readBytes s.mem b.addr b.len) ∧
        (b.target = 10 → ∀ (k : Nat) (r : LogRec), b.addr = regionBase 10 + 64 * k → b.len = 64 → s.log.recs[k]? = some r →
          t.rdata = recBytes r)))

/-- Master resets, drains, storms and scrubbing (R437, R438, R442, R443): what a master reset finds outstanding drains, and of a write in
progress the beats already issued stand; once the last of it has retired the source is released and counted. The cycles of a drain come
with its row (assumption 9), and where the scrubber's share of a memory begins anew is the model's reading (assumption 15). -/
def Obligations.FabricService : Prop :=
  ∀ (s : State) (m src beats cycles v : Nat),
    (outstanding s m src = 0 → s.fab.drains = [] → s.fab.current = [] → s.fab.waiting = [] → ∃ t, exec (.masterReset m src beats) s = .next t ∧
      t.fab.drains = [] ∧ t.mem = s.mem) ∧
    (∀ b d, s.fab.current = [b] → liveBurst m src b = true → b.write = some d → b.target ≠ 0 → b.target ≠ 11 → b.target ≠ 12 →
      ∃ t, exec (.masterReset m src beats) s = .next t ∧ t.mem = Memory.writeBytes s.mem b.addr (d.take (64 * beats))) ∧
    (0 < outstanding s m src → s.fab.drains = [] → ∃ t, exec (.masterReset m src beats) s = .next t ∧
      t.fab.drains = [{ master := m, source := src, left := outstanding s m src, total := outstanding s m src }] ∧
      outstanding t m src = 0 ∧ draining t m src = true) ∧
    (draining s m src = false → exec (.fabDrainEvent m src cycles) s = .next s) ∧
    (∀ d, s.fab.drains = [d] → d.master = m → d.source = src → s.fab.stalled = [] →
      (∀ b ∈ s.fab.current, ¬ (b.master = m ∧ b.source = src ∧ b.drained = true)) → ∃ t, exec (.fabDrainEvent m src cycles) s = .next t ∧
      t.fab.drains = [] ∧ draining t m src = false ∧ t.mem = s.mem ∧
      getR t Reg.FAB_DRAINS = satAdd 32 (getR s Reg.FAB_DRAINS) 1) ∧
    (s.fab.errSum ≤ getF s F.FAB_UEMAX_COUNT → exec .eccStormWindow s = .next { s with fab := { s.fab with errSum := 0 } }) ∧
    (getF s F.FAB_UEMAX_COUNT < s.fab.errSum → ∃ t, exec .eccStormWindow s = .next t ∧ t.fab.storm = true ∧ t.fab.errSum = 0) ∧
    (∃ t, exec (.stormClear v) s = .next t ∧ t = queueWrite s Reg.FAB_CTRL v ∧
      (bit v 1 = true → (commitWrite s Reg.FAB_CTRL v false).fab.storm = false)) ∧
    (getF s F.FAB_CTRL_SCRUBEN = 0 → exec .scrub s = .next s) ∧
    (getF s F.FAB_CTRL_SCRUBEN ≠ 0 → s.fab.inj = [] → ∃ t, exec .scrub s = .next t ∧ t.mem = s.mem ∧ t.fab.inj = [] ∧
      (s.fab.scrub.length = 9 → ∀ k, k < 9 →
        let n := if k = 0 then getF s F.FAB_SCRUBDRAM_BYTES else getF s F.FAB_SCRUBSRAM_BYTES
        t.fab.scrub.getD k 0 = if codeSize s k = 0 then 0 else (s.fab.scrub.getD k 0 + n) % codeSize s k))

/-- What reset leaves (R3, R12, R36, R264, R364, R512, and the reset columns of the register tables): the values the spec gives,
read as a direct read returns them. The part is a TK5124 and the unit is SOLO, its fuses and straps being the model's choice (assumption
6); what the spec gives no reset value begins empty (assumption 7). -/
def Obligations.ResetValues : Prop :=
  let r := State.reset
  r.pending = [] ∧ r.tl.frame = 0 ∧ r.tl.index = 0 ∧ r.tl.commitSeq = 0 ∧ r.tl.rate = 1 ∧ r.take.active = none ∧ r.take.stage = .empty ∧
  r.clk.st = .freeRun ∧ r.pair.role = .solo ∧ r.log.started = false ∧ r.ccp.frameQ = [] ∧ r.fw.ready = false ∧
  peekReg r Reg.SYS_ID = 0x4C595124 ∧ peekReg r Reg.SYS_RSTCAUSE = 1 ∧ peekReg r Reg.KPU_PRESENT = 0xFFFFFFFF ∧
  peekReg r Reg.KPU_CLK = 0x222 ∧ peekReg r Reg.PAIR_EVIDMS = 200 ∧ peekReg r Reg.MEM_RHTHR = 4096 ∧
  QueuesBounded r ∧ MemoryCanonical r ∧ RegsCanonical r

/-- The commands that only write a register whose writes wait for the boundary (R13, R252): each joins the changes that commit at
order 4 of the next boundary, and changes nothing else. What those writes do as they commit, each with its own commit number (R13, R14,
R159, R162, R184, R199, R201, R205, R442, R495, R496, R499, R507). A 1 written over an event bit clears it, unless the event came at
this boundary (R9). An image that comes over the recovery UART is tested and started like any other (R496, R498); that it comes with
the row SYS_BOOTGO is the model's choice (assumption 96). The mute of an undervoltage or a trip stays while its cause holds; which word
takes a commit number is the model's choice (assumption 70). -/
def Obligations.RegisterWritesCommit : Prop :=
  (∀ (s : State) (v k w : Nat) (image : Bytes),
    exec (.kpuFaultClear v) s = .next (waits s Reg.KPU_FAULT v false) ∧
    exec (.kpuDivRequest v) s = .next (waits s Reg.KPU_CLK v false) ∧
    exec (.kpuGateRequest v) s = .next (waits s Reg.KPU_GATE v false) ∧
    exec (.dispCancel v) s = .next (waits s Reg.DISP_CANCEL v false) ∧
    exec (.dispHistclr v) s = .next (waits s Reg.DISP_CFG v false) ∧
    exec (.xptNgainWrite v) s = .next (waits s Reg.XPT_NGAIN v false) ∧
    exec (.xptCeillimWrite v) s = .next (waits s Reg.XPT_CEILLIM v false) ∧
    exec (.xptFmuteSet v) s = .next (waits s Reg.XPT_FMUTESET v false) ∧
    exec (.xptFmuteClear v) s = .next (waits s Reg.XPT_FMUTE v false) ∧
    exec (.xptHoldClear v) s = .next (waits s Reg.XPT_MCTRL v false) ∧
    exec (.timeSet v) s = .next (waits s Reg.TIME_CTRL v false) ∧
    exec (.xosuspectClear v) s = .next (waits s Reg.CLK_CTRL v false) ∧
    exec (.forceact v) s = .next (waits s Reg.PAIR_CTRL v false) ∧
    exec (.logStart v) s = .next (waits s Reg.LOG_CTRL v false) ∧
    exec (.logCtrlClear v) s = .next (waits s Reg.LOG_CTRL v false) ∧
    exec (.pwrDarkEnter v) s = .next (waits s Reg.PWR_DARK v false) ∧
    exec (.geomForce v) s = .next (waits s Reg.GEOM_CTRL v false) ∧
    exec (.sysBootgo ⟨image, false⟩ v) s = .next (waits { s with pwr := { s.pwr with bootImage := image } } Reg.SYS_BOOTGO v false) ∧
    (k < 4 → w < 8 → exec (.ckeyWrite k w v) s = .next (waits s (Reg.SYS_CKEY + 32 * k + 4 * w) v true)) ∧
    (s.pwr.boot = .uart → imageValid s image = true → ∃ t, exec (.sysBootgo ⟨image, true⟩ v) s = .next t ∧
      t.pwr.boot = .running ∧ t.fw.running = 2 ∧ getF t F.PWR_WDT_MS = 2000) ∧
    (s.pwr.boot ≠ .uart ∨ imageValid s image = false → exec (.sysBootgo ⟨image, true⟩ v) s = .next s)) ∧
  (∀ (s : State) (v k : Nat), s.hw.tk2512 = false →
    let c := fun (a : Nat) => commitWrite s a v false
    let event := fun (x : State) => bit (getR x Reg.TAKE_INTSTAT) k
    (bit (maskOf .w1c Reg.TAKE_INTSTAT) k = true → event s = true → bit v k = true →
      event (c Reg.TAKE_INTSTAT) = bit (Sparse.getN s.ccp.fresh Reg.TAKE_INTSTAT) k) ∧
    (s.ccp.fresh = [] →
      (∀ a ∈ [Reg.KPU_CLK, Reg.KPU_GATE, Reg.XPT_CEILLIM, Reg.XPT_FMUTE, Reg.XPT_MCTRL, Reg.DISP_CANCEL, Reg.TIME_CTRL, Reg.SYS_CKEY],
        (c a).tl.commitSeq = (s.tl.commitSeq + 1) % 2 ^ 32) ∧
      (k < 32 → (coreOf s k).state = .fault → v = 2 ^ k → coreOf (c Reg.KPU_FAULT) k = { Core.cleared with busy := (coreOf s k).busy }) ∧
      (k < 32 → (coreOf s k).state = .debug → (coreOf s k).hm = false → v = 2 ^ k → coreOf (c Reg.KPU_FAULT) k = { coreOf s k with state := .run }) ∧
      ((v = 2 ∨ v = 3 ∨ v = 4) → v ≤ getF s F.KPU_CLK_DIV_MAX → s.pwr.trip = false →
        getF (c Reg.KPU_CLK) F.KPU_CLK_DIV_REQ = v ∧ getF (c Reg.KPU_CLK) F.KPU_CLK_DIV_CUR = v) ∧
      ((v < 2 ∨ 4 < v ∨ getF s F.KPU_CLK_DIV_MAX < v) → v < 8 →
        getF (c Reg.KPU_CLK) F.KPU_CLK_DIVREJ = 1 ∧ getF (c Reg.KPU_CLK) F.KPU_CLK_DIV_CUR = getF s F.KPU_CLK_DIV_CUR) ∧
      (getF s F.XPT_CEILLIM_LOCKED = 0 → v < 2 ^ 25 → getR (c Reg.XPT_CEILLIM) Reg.XPT_CEILLIM = 2 ^ 31 + v) ∧
      (getF s F.XPT_CEILLIM_LOCKED = 1 → getR (c Reg.XPT_CEILLIM) Reg.XPT_CEILLIM = getR s Reg.XPT_CEILLIM) ∧
      (bit v 0 = true → bit (getF (c Reg.XPT_FMUTESET) F.XPT_FMUTE_CAUSE) 2 = true) ∧
      (s.pwr.uvRails ≠ 0 → bit (getF (c Reg.XPT_FMUTE) F.XPT_FMUTE_CAUSE) 0 = bit (getF s F.XPT_FMUTE_CAUSE) 0) ∧
      (s.pwr.uvRails = 0 → s.pwr.trip = false → v = 7 → getF (c Reg.XPT_FMUTE) F.XPT_FMUTE_CAUSE = 0) ∧
      (bit v 31 = true → (c Reg.XPT_MCTRL).xpt.holds = []) ∧
      (bit v 31 = true → (c Reg.DISP_CANCEL).disp.cancels = s.disp.cancels ++ [(bits v 12 12, bits v 11 0, s.tl.frame)]) ∧
      (bit v 0 = true → (c Reg.CLK_CTRL).clk.xoSuspect = false) ∧
      (v = 0x80000000 → darkRefused s = false → (c Reg.PWR_DARK).pwr.seq = .darkening) ∧
      (v = 0x80000000 → darkRefused s = true → (c Reg.PWR_DARK).pwr.seq = s.pwr.seq ∧ getF (c Reg.PWR_DARK) F.PWR_DARK_DARKREJ = 1) ∧
      (v = 1 → s.log.started = false → (c Reg.LOG_CTRL).log.started = true ∧ (c Reg.LOG_CTRL).log.held = []) ∧
      (v = 1 → s.pwr.boot = .pcieWait → imageValid s s.pwr.bootImage = true →
        (c Reg.SYS_BOOTGO).pwr.boot = .running ∧ (c Reg.SYS_BOOTGO).fw.running = 2 ∧ getF (c Reg.SYS_BOOTGO) F.PWR_WDT_MS = 2000) ∧
      (k < 4 → (commitWrite s (Reg.SYS_CKEY + 32 * k) v true).pwr.ckeys =
        s.pwr.ckeys.setIfInBounds k (patchB (ckey s k) 0 (beBytes 4 v))) ∧
      (k < 4 → (commitWrite s (Reg.SYS_CKEY + 32 * k) v false).pwr.ckeys = s.pwr.ckeys)))

/-- Direct accesses over PCIe, which answers from the lock of the root PLL on (R5, R8, R13, R32, R36, R252, R265, R528): a write with a byte enable clear is only counted, a write of a register
that waits joins the next boundary, a read returns the value of the most recent boundary. -/
def Obligations.DirectAccesses : Prop :=
  ∀ (s : State) (a v be n : Nat), pcieUp s = true → a % 4 = 0 → a < 0x4000000 →
    (be % 16 ≠ 15 → exec (.registerWrite a v be) s = .next (serveRing (addCtr s Reg.HOST_PARTWR 1))) ∧
    (atOnce a = false → exec (.registerWrite a v 15) s = .next (serveRing (waits s a v false))) ∧
    (∃ t, exec (.registerRead a) s = .next t ∧ t.mem = s.mem ∧ t.tl = s.tl ∧ t.log = s.log ∧
      (latched a = false → unitAbsent s a = false → a ≠ Reg.TIME_TSQ_W0 → a ≠ Reg.TIME_TSQ_W0 + 0x40 →
        t.rdata = beBytes 4 ((if atOnce a then getR s a else getView s a) &&& readMask a)) ∧
      (unitAbsent s a = true → t = { s with rdata := beBytes 4 0 })) ∧
    (n < 22 → n ≠ 0 → n ≠ 21 → ∃ x, intStatAt n = some x ∧ exec (.intstatClear n v) s = .next (waits s x v false)) ∧
    exec (.intstatClear 21 v) s = .next (resend (storeWord s Reg.HOST_INTSTAT v) 21) ∧
    getR (storeWord s Reg.HOST_INTSTAT v) Reg.HOST_INTSTAT =
      andNot (getR s Reg.HOST_INTSTAT) (v &&& maskOf .w1c Reg.HOST_INTSTAT) ∧
    exec (.hostCauseenWrite false v) s = .next (sendRisen s (setR s Reg.HOST_CAUSEEN (v % 2 ^ 22)))

/-- The rings and the quad-SPI port (R253 to R255): a command ring write stores its bytes at the tail, a bad tail or head is
ignored, a reply that waits goes out once the reply ring has room for it, a full buffer sets OVERFLOW, the status reads as R254 lays
it out, and an acknowledged reply leaves. MSI-X and the PCIe reset pin (R251, R265, R539): a masked vector pends, a table entry takes
its address and data, unmasking sends what pends, and PERST# masks every vector without touching the rest of the block; the table is
PCIe's (assumption 66). Which queues wait for the largest reply is the model's reading of R255 (assumption 58). -/
def Obligations.HostTransportsAndMsix : Prop :=
  (∀ (s : State) (data : Bytes) (v : Nat), pcieUp s = true →
    let stored := { s with ccp := { s.ccp with bar2 := ringStore s.ccp.bar2 0 (getR s Reg.HOST_CMDTAIL) (data.take 65536) } }
    let head := getR s Reg.HOST_RPLHEAD
    let tail := getR s Reg.HOST_RPLTAIL
    (v % 16 ≠ 0 → exec (.hostCmdtailWrite data v) s = .next (serveRing (raise stored 21 2))) ∧
    (v % 16 = 0 → v < 65536 → (v + 65536 - getR s Reg.HOST_CMDHEAD) % 65536 ≤ 65520 →
      exec (.hostCmdtailWrite data v) s = .next (serveRing (setR stored Reg.HOST_CMDTAIL v))) ∧
    (v < 65536 → v % 16 = 0 → (v + 65536 - head) % 65536 ≤ (tail + 65536 - head) % 65536 →
      exec (.hostRplheadWrite v) s = .next (setR s Reg.HOST_RPLHEAD v)) ∧
    (v < 65536 → v % 16 = 0 → (tail + 65536 - head) % 65536 < (v + 65536 - head) % 65536 →
      exec (.hostRplheadWrite v) s = .next (raise s 21 2)) ∧
    (s.ccp.ringHeld = [] → exec .replyHoldRelease s = .next (serveRing s)) ∧
    (∀ b, s.ccp.ringHeld = [b] → (padTo 16 b).length ≤ ringFree head tail →
      let placed := raise (setR { s with ccp := { s.ccp with bar2 := ringStore s.ccp.bar2 0x10000 tail (padTo 16 b) } } Reg.HOST_RPLTAIL
        ((tail + (padTo 16 b).length) % 65536)) 21 0
      exec .replyHoldRelease s = .next (serveRing { placed with ccp := { placed.ccp with ringHeld := [] } })) ∧
    (∀ b t, s.ccp.ringHeld = b :: t → (padTo 16 b).length > ringFree head tail → exec .replyHoldRelease s = .next s) ∧
    exec .readStat s = .next { s with
      rdata := beBytes 4 (((s.ccp.spiOut.head?.map (·.length)).getD 0) * 65536 + b2n (irqAsserted s) * 8 + b2n s.ccp.spiOvf * 4 +
        b2n (decide (s.ccp.spiOut ≠ [])) * 2 + b2n (decide (s.ccp.spiIn.length < 2))),
      ccp := { s.ccp with spiOvf := false } } ∧
    (2 ≤ s.ccp.spiIn.length → exec (.writeCmd data) s =
      .next (raise (addCtr { s with ccp := { s.ccp with spiOvf := true } } Reg.HOST_SPIOVF 1) 21 6)) ∧
    (s.ccp.spiIn.length < 2 → exec (.writeCmd data) s =
      .next (serveRing (serveSpi { s with ccp := { s.ccp with spiIn := s.ccp.spiIn ++ [data] } }))) ∧
    (65536 < (s.ccp.spiOut.map (·.length)).sum + 16424 ∨ s.ccp.spiHeld ≠ [] → serveSpi s = s) ∧
    exec .readRpl s = .next { s with rdata := s.ccp.spiOut.headD [] } ∧
    exec .ackRpl s = .next (serveSpi (serveRing (s.ccp.spiHeld.foldl spiPlace
      { s with ccp := { s.ccp with spiOut := s.ccp.spiOut.drop 1, spiHeld := [] } }))) ∧
    exec .qspiUnknownInstruction s = .next (addCtr s Reg.HOST_SPIBAD 1)) ∧
  (∀ (s : State) (n addr data : Nat) (low : Bool), n < 22 → pcieUp s = true →
    let ccp := s.ccp
    let sent := Sparse.putN ccp.msixSent n (Sparse.getN ccp.msixSent n + 1)
    let entry := { ccp with msixAddr := Sparse.putN ccp.msixAddr n (addr % 2 ^ 64 / 4 * 4),
                            msixData := Sparse.putN ccp.msixData n (data % 2 ^ 32) }
    let unmasked := { entry with msixMask := andNot ccp.msixMask (2 ^ n), msixPend := andNot ccp.msixPend (2 ^ n) }
    (bit ccp.msixMask n = true → sendVector s n = { s with ccp := { ccp with msixPend := ccp.msixPend ||| 2 ^ n } }) ∧
    (bit ccp.msixMask n = false → sendVector s n =
      { s with ccp := { ccp with msixSent := sent, msixLast := (Sparse.getN ccp.msixAddr n, Sparse.getN ccp.msixData n) } }) ∧
    exec (.msixVectorUnmask ⟨n, addr, data, true⟩) s = .next { s with ccp := { entry with msixMask := ccp.msixMask ||| 2 ^ n } } ∧
    (bit ccp.msixPend n = false → exec (.msixVectorUnmask ⟨n, addr, data, false⟩) s = .next { s with ccp := unmasked }) ∧
    (bit ccp.msixPend n = true → exec (.msixVectorUnmask ⟨n, addr, data, false⟩) s =
      .next { s with ccp := { unmasked with msixSent := sent, msixLast := (addr % 2 ^ 64 / 4 * 4, data % 2 ^ 32) } }) ∧
    exec (.pciePerst low) s = .next { s with ccp := { ccp with
      perst := low, msixMask := if low then 0xFFFFFFFF else ccp.msixMask, msixAddr := if low then [] else ccp.msixAddr,
      msixData := if low then [] else ccp.msixData, msixPend := if low then 0 else ccp.msixPend } })

/-- The house mute, the mute gain and the monitor of the safety stage (R198, R200 to R202): the mute holds for at least the next
output frame, ramps up over one frame and never ramps down; no sample leaves above its ceiling or the clip limits. That the ramp begins at
the first boundary after the pin reads high is the model's reading of R200 and R202 (assumption 83, DEDUCED). -/
def Obligations.MuteAndCeiling : Prop :=
  ∀ (s : State) (c : Nat) (x : List Int) (m : MuteState),
    (s.xpt.house = true → exec .houseMuteAssert s = .next s) ∧
    (s.xpt.house = false → exec .houseMuteRelease s = .next s ∧
      ∃ t, exec .houseMuteAssert s = .next t ∧ t.xpt = { s.xpt with house := true, houseLow := true }) ∧
    (s.xpt.house = true → ∃ t, exec .houseMuteRelease s = .next t ∧ t.xpt = { s.xpt with house := false } ∧ t.regs = s.regs) ∧
    (s.xpt.house = true ∨ s.xpt.houseLow = true ∨ getF s F.XPT_FMUTE_CAUSE ≠ 0 → (decideMute s).xpt.mute = .muted) ∧
    (s.xpt.house = false → s.xpt.houseLow = false → getF s F.XPT_FMUTE_CAUSE = 0 →
      (decideMute s).xpt.mute = if s.xpt.mute = .muted then .ramp else .full) ∧
    (∀ y ∈ (ceiling c x).1, -(c : Int) ≤ y ∧ y ≤ c) ∧
    (∀ y ∈ (muteClip m x).1, -16777216 ≤ y ∧ y ≤ 16777215) ∧
    (∀ y ∈ (muteClip .muted x).1, y = 0) ∧
    ((∀ y ∈ x, -16777216 ≤ y ∧ y ≤ 16777215) → muteClip .full x = (x, false))

/-- A frame boundary (R30, R31, R249, R364, R507). Without power, or with the clock system in FAULT, none comes; the boundary after the one
that accepted the Dark state ends its last output frame and everything stops. Else, after the frame that ends: the splice or
re-alignment (order 1), the capture under the old label, the cut (order 2), the frame-addressed changes (order 3), the waiting changes
(order 4), the metadata tick (order 5), the emission, the log, the registers, and the SNAPSHOTs (order 6). The frame number advances
modulo 2^60 and the index by 16. Changes of order 3, the firmware switch and the peer's switchover among them, commit by the frame they
name and then by arrival, those of order 4 by arrival. -/
def Obligations.FrameBoundaryOrder : Prop :=
  (∀ (s : State) (bi : BoundaryIn), powered s = false ∨ s.clk.st = .fault → exec (.frameBoundary bi) s = .next s) ∧
  (∀ (s : State) (bi : BoundaryIn), s.pwr.seq = .darkening → s.clk.st ≠ .fault → exec (.frameBoundary bi) s =
    .next (publish (logBoundary (darkFinish (transmitEmitted (advanceTimeline (clearFresh s))))))) ∧
  (∀ (s : State) (bi : BoundaryIn), s.pwr.seq = .up → s.clk.st ≠ .fault →
    let ended := endOfFrame (clearFresh s)
    let spliced := spliceDue ended
    let captured := captureFrame (releaseMasks spliced (posNow spliced)) ((ended.tl.frame + 2 ^ 60 - 1) % 2 ^ 60) bi
    let processing := beginProcessing (masksSettle captured.2 (posNow captured.2)) captured.1
    let cut := rsCut (cutDue (rsPhase processing))
    let committed := endJump (tripDivider (commitPending (commitFrameAddressed cut)))
    (committed.pwr.seq = .darkening → exec (.frameBoundary bi) s = .next (darkBoundary committed captured.1)) ∧
    (committed.pwr.seq ≠ .darkening →
      let roles := driveDue (gateCores (cutImages (pairRoles committed)))
      let emitted := emission (tdmStates (tickBoundary roles) (posNow roles)) captured.1
      let sent := servePeer (sendReady (dropUncompared emitted))
      exec (.frameBoundary bi) s = .next (serveRing (snapshots (publish (logBoundary (missRecords sent))))))) ∧
  (∀ s : State, (advanceTimeline s).tl.frame = (s.tl.frame + 1) % 2 ^ 60 ∧ (advanceTimeline s).tl.index = (s.tl.index + 16) % 2 ^ 64) ∧
  (∀ s : State,
    (∀ c, c ∈ dueChanges s ↔ c.1 ≤ s.tl.frame ∧ (c ∈ s.ccp.frameQ ∨
      (∃ i f, s.fw.sched = some (i, f) ∧ c = (f, s.fw.schedArr, .op (.fwSwitch i f) none)) ∨
      (∃ f n, s.pair.switch = some (f, n) ∧ c = (f, n, .op (.pairSwitchover f) none)))) ∧
    (dueChanges s).Pairwise (fun c d => c.1 < d.1 ∨ c.1 = d.1 ∧ c.2.1 ≤ d.2.1) ∧
    commitFrameAddressed s = (dueChanges s).foldl (fun x c => commitChange x c.2.2) (takeDue s) ∧
    (∀ c, c ∈ (takeDue s).ccp.frameQ ↔ c ∈ s.ccp.frameQ ∧ s.tl.frame < c.1)) ∧
  (∀ s : State, ∃ l : List (Nat × Change), l.Perm s.ccp.pend ∧ l.Pairwise (fun c d => c.1 ≤ d.1) ∧
    commitPending s = l.foldl (fun x c => commitChange x c.2) { s with ccp := { s.ccp with pend := [] } }) ∧
  (∀ (s : State) (a : Nat), getView (publish s) a = getR (publish s) a)

/-- A cut at its boundary (R227 to R232, R240): before its frame nothing happens; a take with a correction set that is not READY makes
the area FAILED with SET_NOT_READY, and the active take plays on; else the staged take becomes the active one, the area is EMPTY and TAKE_LASTCUT
holds the frame. Depth, rate, nodes, monitor configuration, banks and the registers of the sections are those of the incoming take from
its frame on, the outgoing take ends with that frame or before it, and the cut takes one commit number. That TAKE_LASTCUT holds the
number at the old rate is the model's choice (assumption 36), as is that frames named in the queues keep theirs (assumption 97). -/
def Obligations.CutTakesEffect : Prop :=
  (∀ (s : State) (t : Take) (f c : Nat) (asked : Bool),
    (s.take.stage ≠ .scheduled → cutDue s = s) ∧
    (s.take.stage = .scheduled → s.take.cut = some (f, asked) → s.take.staged = some t →
      (s.tl.frame < f → cutDue s = s) ∧
      (f ≤ s.tl.frame → firstNotReady s t = some c → let u := cutDue s
        u.take = { s.take with stage := .failed, staged := none, cut := none } ∧
        getR u Reg.TAKE_CUTABORT = satAdd 32 (getR s Reg.TAKE_CUTABORT) 1 ∧
        getR u Reg.TAKE_STAGEERR = (Status.setNotReady.code * 65536 + 5) % 2 ^ 32 ∧ u.tl = s.tl ∧ u.pipe = s.pipe ∧ u.disp = s.disp) ∧
      (f ≤ s.tl.frame → firstNotReady s t = none → cutDue s = performCut s t asked f none))) ∧
  (∀ (s : State) (t : Take) (asked : Bool) (named : Nat),
    let u := performCut s t asked named none
    let hard := cutHard s t asked
    let pos := posNow s
    u.take = { s.take with
      active := some t, stage := .empty, named := none, bytes := [], staged := none, cut := none, prevCut := s.take.lastCut,
      lastCut := some (s.tl.frame, t.digest), lastNew := u.tl.frame, cutKind := if hard then 2 else 1 } ∧
    u.tl.depth = t.sys.depth ∧ u.tl.rate = t.sys.rate ∧ u.tl.commitSeq = (s.tl.commitSeq + 1) % 2 ^ 32 ∧
    u.tl.frame = (if t.sys.rate = s.tl.rate then s.tl.frame else ceilDiv (s.tl.frame * fsOf t.sys.rate) (fsOf s.tl.rate)) ∧
    (posNow u = pos) ∧
    u.xpt.nodes = presetNodes t.xpt.nodes pos ∧ u.xpt.monProc = t.xpt.moncfg ∧
    bankOf u u.pipe.bank = some { graph := t.graph, lo := pos, hi := none } ∧
    (s.take.active = none → hard = true ∧ u.pipe.old = none ∧ u.pipe.bank = s.pipe.bank) ∧
    (∀ a, s.take.active = some a → u.pipe.bank = 1 - s.pipe.bank ∧
      u.pipe.old.map (fun o => (o.take, o.bank, o.pos, o.soft)) = some (a, s.pipe.bank, pos, !hard) ∧
      (∀ b, bankOf s s.pipe.bank = some b → s.pipe.bank < 2 →
        bankOf u s.pipe.bank = some { b with hi := some (if hard then pos - 1 else pos) })) ∧
    (TakeFits t → getR u Reg.TAKE_CUTS = satAdd 32 (getR s Reg.TAKE_CUTS) 1 ∧
      getR u Reg.TAKE_HARDCUTS = (if hard then satAdd 32 (getR s Reg.TAKE_HARDCUTS) 1 else getR s Reg.TAKE_HARDCUTS) ∧
      bit (getR u Reg.TAKE_INTSTAT) 0 = true ∧ getR u Reg.PATH_BUDGET = t.render.budget % 2 ^ 32 ∧
      getR u Reg.PATH_SLEW = t.render.slew % 2 ^ 32 ∧ getR u Reg.CONV_XFLEN = t.corr.xflen % 2 ^ 32 ∧
      getR u Reg.TAKE_CONTGRP = t.cont.group % 2 ^ 32 ∧
      (∀ k, k < 8 → getR u (Reg.XPT_CEIL + 4 * k) = t.safety.ceil.getD k 0 % 2 ^ 32) ∧
      (∀ m, m < 128 → getR u (Reg.XPT_MONCFG + 4 * m) = t.xpt.moncfg.getD m 0 % 2 ^ 32))) ∧
  (∀ (s : State) (f : Nat) (d : Bytes), s.take.lastCut = some (f, d) → f < 2 ^ 64 →
    getR64 (publishTake s) Reg.TAKE_LASTCUT_LO Reg.TAKE_LASTCUT_HI = f) ∧
  (∀ (s : State) (t a : Take) (asked : Bool), (s.take.active = none → cutHard s t asked = true) ∧
    (s.take.active = some a → (cutHard s t asked = true ↔ asked = true ∨ t.sys.headroom = false ∨ a.sys.rate ≠ t.sys.rate ∨
      a.sys.depth ≠ t.sys.depth ∨ a.corr.len ≠ t.corr.len ∨ imagesOverlap a t = true)))

/-- Nodes and meters of the crosspoint (R191 to R197): a committed gain is approached from the gain applied to the last sample before its
frame, in equal steps over the samples its RAMP code says, exactly; before its frame and at every other node nothing changes. A write for an
output there is not, or for one node too many, is rejected and counts. The nodes of a take are in force without a ramp. A node adds its
input, sample by sample, at its gain. A meter takes a higher peak at once and decays; HOLD keeps its peak for its time; CLIP stays. -/
def Obligations.NodeRampsAndMeters : Prop :=
  (∀ (tbl : Sparse Node) (out inp code : Nat) (g : Int) (n : Int), inp < 512 →
    let x := nodeOf tbl out inp
    let y := nodeOf (setNode tbl out inp g code n) out inp
    let g0 := x.gain (n - 1) 16
    let len : Nat := ([16, 1, 64, 256] : List Nat).getD code 16
    (∀ k, y.gain (n - 1) k = x.gain (n - 1) k) ∧
    (∀ (m : Int) (k : Nat), n ≤ m → 1 ≤ k → let d := 16 * (m - n) + k
      y.gain m k = if len ≤ d then g else g0 + divRhu ((g - g0) * d) len) ∧
    (∀ o i, i < 512 → (o, i) ≠ (out, inp) → nodeOf (setNode tbl out inp g code n) o i = nodeOf tbl o i)) ∧
  (∀ (s : State) (v : Nat),
    let out := getF s F.XPT_NSEL_OUT
    let inp := getF s F.XPT_NSEL_IN
    let g := signed 24 v
    let full := g ≠ 0 ∧ (nodeOf s.xpt.nodes out inp).active (posNow s) = false ∧ 16384 ≤ activeNodes s.xpt.nodes (posNow s)
    let t := commitWord s Reg.XPT_NGAIN v false
    (busCount s ≤ out → out < 512 → t.xpt = s.xpt ∧ t.log = s.log ∧ getR t Reg.XPT_NODEREJ = satAdd 32 (getR s Reg.XPT_NODEREJ) 1) ∧
    (640 ≤ out ∨ ((out < busCount s ∨ 512 ≤ out) ∧ full) → t.xpt = s.xpt ∧ getR t Reg.XPT_NODEREJ = satAdd 32 (getR s Reg.XPT_NODEREJ) 1) ∧
    ((out < busCount s ∨ 512 ≤ out) → out < 640 → ¬ full →
      t.xpt = { s.xpt with nodes := setNode s.xpt.nodes out inp g (bits v 25 24) (posNow s) } ∧
      getR t Reg.XPT_NODEREJ = getR s Reg.XPT_NODEREJ) ∧
    getF t F.XPT_NSEL_IN = if getF s F.XPT_NSEL_INC = 1 then (inp + 1) % 512 else inp) ∧
  (∀ (l : List (Nat × Nat × Int)) (n m : Int) (out inp k : Nat) (g : Int), (∀ y ∈ l, y.2.1 < 512) → (out, inp, g) ∈ l →
    (∀ y ∈ l, y.1 = out → y.2.1 = inp → y.2.2 = g) → (nodeOf (presetNodes l n) out inp).gain m k = g) ∧
  (∀ (x : Node) (xin : Sparse (List Int)) (n : Int) (out inp k : Nat), inp < 512 → k < 16 → x.active n = true →
    let v := Sparse.get (fun _ => zero16) xin inp
    v.length = 16 → (Sparse.get (fun _ => zero16) (xptTerms [(512 * out + inp, x)] xin n []) out).getD k 0 = v.getD k 0 * x.gain n (k + 1)) ∧
  (∀ (dk hold p cnt lv hd cl : Nat) (clip : Bool), let r := meterStep dk hold p clip (lv, hd, cl) cnt
    r.1.1 = max p (lv * dk / 2 ^ 24) ∧ r.1.2.2 = (if clip then 1 else cl) ∧
    (hd ≤ p → r.1.2.1 = p ∧ r.2 = hold) ∧ (p < hd → 0 < cnt → r.1.2.1 = hd ∧ r.2 = cnt - 1) ∧
    (p < hd → cnt = 0 → r.1.2.1 = max p (hd * dk / 2 ^ 24) ∧ r.2 = 0)) ∧
  (∀ (s : State) (peaks : Sparse (Nat × Bool)) (m : Nat), m < 1152 → RegsCanonical s →
    let a := Reg.XPT_METER_LEVEL + 16 * m
    let pk := Sparse.get (fun _ => (0, false)) peaks m
    let r := meterStep (getF s F.XPT_MDECAY_DK) (getF s F.XPT_MHOLD_FRAMES) pk.1 pk.2 (getR s a, getR s (a + 4), getR s (a + 8))
      (Sparse.getN s.xpt.holds m)
    let t := meterBoundary s peaks
    getR t a = r.1.1 % 2 ^ 32 ∧ getR t (a + 4) = r.1.2.1 % 2 ^ 32 ∧ getR t (a + 8) = r.1.2.2 % 2 ^ 32 ∧
    (0 < pk.1 ∨ 0 < getR s (a + 4) → Sparse.getN t.xpt.holds m = r.2))

/-- The stages of the frame under processing (R18, R20, R78, R172, R198): the render, once; the correction of a bus group that is
complete, once; the ceiling on every group complete so far; the emission cutoff, which queues the frame for its output boundary.
Without a frame under processing the first three do nothing, as does the cutoff. A set's conversion ends (R104); the block work of a
channel, where it is due (R108); and the end of a relock (R17). That a cutoff finishes what is complete and not commanded is the model's
choice (assumption 11), as are the order of the records in the convolution region (assumption 18) and the label of a frame (assumption 33). -/
def Obligations.PipelineStages : Prop :=
  (∀ (s : State) (g : Nat), s.pipe.work = none → exec .pathRender s = .next s ∧ exec (.correctionGroupStart g) s = .next s ∧
    exec .safetyStage s = .next s ∧ exec .emissionCutoff s = .next s) ∧
  (∀ (s : State) (w : Work) (x : Side), s.pipe.work = some w →
    let r := sideRendered s w w.prime false
    let q := sideRendered r.2.2 w x true
    let rendered := fun (t : State) (n : Nat) (b : Option Side) =>
      injectSource (setWork (slotRegs t n) (some { w with prime := r.1, second := b })) 0xF001 w.pos
    (w.prime.rendered = true → exec .pathRender s = .next s) ∧
    (w.prime.rendered = false → w.second = none → exec .pathRender s = .next (rendered r.2.2 r.2.1 none)) ∧
    (w.prime.rendered = false → w.second = some x → exec .pathRender s = .next (rendered q.2.2 (r.2.1 + q.2.1) (some q.1))) ∧
    r.1.rendered = true) ∧
  (∀ (s : State) (w : Work) (g : Nat), s.pipe.work = some w → g < 16 →
    (groupDone s w w.prime g = false ∨ g ∈ w.corrected → exec (.correctionGroupStart g) s = .next s) ∧
    (groupDone s w w.prime g = true → g ∉ w.corrected → ∃ t v, exec (.correctionGroupStart g) s = .next t ∧ t = correctGroup s g ∧
      t.pipe.work = some v ∧ v = { w with corrected := g :: w.corrected, feeds := v.feeds } ∧
      ∀ c, c / 32 ≠ g → Sparse.get (fun _ => zero16) v.feeds c = Sparse.get (fun _ => zero16) w.feeds c)) ∧
  (∀ (s : State) (w : Work) (x : Side), s.pipe.work = some w →
    let r := sideSafety s w w.prime false w.hits
    let q := sideSafety r.2.2 w x true r.2.1
    let counted := fun (t : State) (hits : List Nat) =>
      if hits.length - w.hits.length = 0 then t else raise (addCtr t Reg.XPT_CEILHIT (hits.length - w.hits.length)) 11 2
    (w.second = none → exec .safetyStage s =
      .next (setWork (counted r.2.2 r.2.1) (some { w with prime := r.1, second := none, hits := r.2.1 }))) ∧
    (w.second = some x → exec .safetyStage s =
      .next (setWork (counted q.2.2 q.2.1) (some { w with prime := r.1, second := some q.1, hits := q.2.1 }))) ∧
    (∀ k ∈ w.prime.groups, k ∈ r.1.groups) ∧
    (∀ g, g < 16 → g ∈ w.corrected → groupDone s w w.prime g = true → g ∈ r.1.groups)) ∧
  (∀ (s : State) (w : Work), s.pipe.work = some w → w.prime.outgoing = false → ∃ t, exec .emissionCutoff s = .next t ∧
    t.pipe.work = none ∧ Token.cutoff w.pos ∈ t.disp.tokens ∧
    (s.pipe.cuts = [] → ∃ out, t.pipe.outq = s.pipe.outq ++ [out] ∧ out.pos = w.pos ∧
      out.due = w.pos + ((s.take.active.map (·.sys.depth)).getD 3 : Nat))) ∧
  (∀ (s : State) (c slot : Nat), let ch := chanOf s c
    (∀ f, ch.slots.getD slot .empty = .converting f → let x : FirSlot := .ready f (convertSet f.len f.h)
      exec (.setConversionDone c slot) s =
        .next (raise (storeSlot (setChan s c { ch with slots := ch.slots.set slot x }) c slot x) 8 1)) ∧
    ((∀ f, ch.slots.getD slot .empty ≠ .converting f) → exec (.setConversionDone c slot) s = .next s)) ∧
  (∀ (s : State) (c p : Nat), let n := posNow s - 1
    let r := prepRun (chanOf s c) (runFor (chanOf s c) n) n
    let k := ((partitions r.len).filter (·.1 == p)).length
    let x := fftReal (blockWindow s c p n).1 0
    let lines := (0, x) :: (delayLine s c p r.blocks k).1
    let into := fun (reserve : Bool) (v : ConvCtx) => (blockInto s c p n reserve lines v).1
    (blockDue s c p r n = false → exec (.convBlockWork c p) s = .next s) ∧
    (blockDue s c p r n = true → s.fab.inj = [] → ∃ t, exec (.convBlockWork c p) s = .next t ∧
      runFor (chanOf t c) n = { r with
        ctx := r.ctx.map (into false),
        chg := (match r.chg with | g :: l => { g with ctx := g.ctx.map (into true) } :: l | [] => []),
        blocks := if k > 1 then r.blocks + 1 else r.blocks, done := p :: r.done } ∧
      (∀ q, q ≠ c → chanOf t q = chanOf s q) ∧ t.regs = s.regs ∧ t.pipe = s.pipe ∧ (k ≤ 1 → t.mem = s.mem) ∧
      (MemoryCanonical s → ∀ a, (a < lineAddr s c r.blocks ∨ lineAddr s c r.blocks + (specBytes x p).length ≤ a) →
        Memory.read t.mem a = Memory.read s.mem a))) ∧
  (∀ s : State, (s.tl.relock = true → exec .rootPllRelockDone s = .next { s with tl := { s.tl with relock := false, relockDone := true } }) ∧
    (s.tl.relock = false → exec .rootPllRelockDone s = .next s))

/-- The sample and gain of an admitted path (R80 to R83): a ramp moves gain and delay linearly and reaches its targets exactly, its
delay never moves by more than S, which is PATH_SLEW, per sample; a jump crossfades over 16 samples or steps; a new path fades in
over 16 samples; the default of S is 4,096 and the hardware maximum 16,384. -/
def Obligations.PathSamples : Prop :=
  (∀ (t : TickCtx) (e : PathEntry) (fr : Nat → Int × Nat) (k : Nat), 0 < t.m →
    let g := fun (k : Nat) => e.g0 + divRhu ((e.g1 - e.g0) * k) t.m
    let d := fun (k : Nat) => (e.d0 : Int) + divRhu (((e.d1 : Int) - e.d0) * k) t.m
    let ramp := ((e.d1 : Int) - e.d0).natAbs ≤ t.slew * t.m
    (e.hist = true → ramp → pathSample t e fr k = ((fr (d k).toNat).1, g k, (fr (d k).toNat).2)) ∧
    (e.hist = true → ¬ ramp → pathSample t e fr k =
      if e.jump = true ∧ k ≤ 16 then
        (divRhu ((fr e.d1).1 * k + (fr e.d0).1 * (16 - (k : Int))) 16, g k, (fr e.d1).2 + (fr e.d0).2)
      else ((fr e.d1).1, g k, (fr e.d1).2)) ∧
    (e.hist = false → pathSample t e fr k = ((fr e.d1).1, (if k ≤ 16 then divRhu (e.g1 * k) 16 else e.g1), (fr e.d1).2)) ∧
    g t.m = e.g1 ∧ d t.m = e.d1 ∧ (k ≤ t.m → 0 ≤ d k) ∧
    (ramp → d (k + 1) - d k ≤ t.slew ∧ d k - d (k + 1) ≤ t.slew) ∧
    (t.slew = 0 → e.d1 ≠ e.d0 → ¬ ramp)) ∧
  (∀ (s : State) (x : Take) (kept : Nat → Bool) (objs : List (Nat × ObjTargets)),
    let k := (pathTick s x kept objs).path.tick
    k.slew = getF s F.PATH_SLEW_S ∧ k.m = 16 * (x.sys.tick - s.tl.frame % x.sys.tick)) ∧
  getF State.reset F.PATH_SLEW_S = 4096 ∧
  (∀ (s : State) (v : Nat), getR (commitWord s Reg.PATH_SLEW v false) Reg.PATH_SLEW = min (v % 2 ^ 15) 16384)

/-- The arithmetic of the geometry engine (R39, R64): products round half up and limit to Q2.22, a distance is 16 times the square
root rounded half up, NORM rounds each weight over the root of the sum of squares; what evaluating an object costs. -/
def Obligations.GeometryArithmetic : Prop :=
  (∀ (a b : Int), let x := (a * b + 2 ^ 21) / 2 ^ 22
    (mul22 a b).1 = (if x < -8388608 then -8388608 else if 8388607 < x then 8388607 else x) ∧
    ((mul22 a b).2 = 0 ↔ (-8388608 ≤ x ∧ x ≤ 8388607)) ∧ (mul22 a b).2 ≤ 1) ∧
  (∀ (k d : Nat), prop k d = ((d * k + 2 ^ 20) / 2 ^ 21 : Nat)) ∧
  (∀ n : Nat, 4 * (256 * n) < (2 * dist16 n + 1) ^ 2 ∧ (dist16 n ≠ 0 → (2 * dist16 n - 1) ^ 2 ≤ 4 * (256 * n))) ∧
  (∀ (xs : List Nat) (j : Nat), j < xs.length → let sum := (xs.map fun x => x * x).sum
    let x := xs.getD j 0
    let y := (norm22 xs).getD j 0
    0 < sum → 4 * (x * x * 2 ^ 44) < (2 * y + 1) ^ 2 * sum ∧ (y ≠ 0 → (2 * y - 1) ^ 2 * sum ≤ 4 * (x * x * 2 ^ 44))) ∧
  (∀ (g : GeoSec) (o : ObjIn) (c : CandSet), g.csets[o.cset]? = some c →
    (o.mode = 0 → o.size = 0 → evalCost g o = 4 + c.tris) ∧ (o.mode = 0 → o.size ≠ 0 → evalCost g o = 4 + 7 * c.tris) ∧
    (o.mode ≠ 0 → evalCost g o = 4 + c.members))

/-- A dispatcher cycle takes the first four tokens, the arcs among them first, then the deadlines, then every host cancel; it releases
the banks that have wholly retired and starts the first ready instance a core is free for, in the order of R175. An instance starts as
R177 says; a token fills its slot and makes the instance ready with its last one; a token for a full slot or a closed instance only counts (R174). Images that
waited for a core are loaded before (R186; the moment is the model's choice, assumption 35), and one row is one cycle (assumption
14). -/
def Obligations.DispatcherCycle : Prop :=
  ∀ (s : State) (i : Inst) (k idx f : Nat) (b : Bank) (a : Arc),
    let u := cutImages s
    let front := u.disp.tokens.take 4
    let u1 := front.foldl (fun v t => match t with | .arc b n f => takeToken v b n f | _ => v)
      { u with disp := { u.disp with tokens := u.disp.tokens.drop 4 } }
    let u2 := front.foldl deadlineToken u1
    let u3 := u2.disp.cancels.foldl hostCancel { u2 with disp := { u2.disp with cancels := [] } }
    let u4 := releaseBank (releaseBank u3 0) 1
    let ends := fun (v : State) => let w := noteDepths v
      exec .dispatcherCycle s = .next { w with disp := { w.disp with cycle := w.disp.cycle + 1 } }
    (pickReady u4 = none → ends u4) ∧
    (pickReady u4 = some (i, k) → ends (startInst u4 i k)) ∧
    (s.pipe.imgCores = [] → u = s) ∧
    (∀ n : Nat, front = [.arc n idx f] → s.disp.cancels = [] → s.pipe.imgCores = [] → s.disp.bank0.bind (·.hi) = none → s.disp.bank1.bind (·.hi) = none →
      u4 = takeToken { s with disp := { s.disp with tokens := s.disp.tokens.drop 4 } } n idx f) ∧
    (∃ t, exec .dispatcherCycle s = .next t ∧ t.disp.cycle = s.disp.cycle + 1 ∧ t.disp.tokens = s.disp.tokens.drop 4 ∧
      t.disp.cancels = []) ∧
    (pickReady s = some (i, k) → i ∈ s.disp.insts ∧ i.st = .ready ∧ pickCore s i = some k ∧ (coreOf s k).state = .idle ∧
      ∀ j ∈ s.disp.insts, j.st = .ready → pickCore s j ≠ none → readyBefore s j i = false) ∧
    (pickReady s = none → ∀ j ∈ s.disp.insts, j.st = .ready → pickCore s j = none) ∧
    (k < 32 → bankOf s i.bank = some b →
      let u := startInst s i k
      let c := coreOf u k
      c.state = .run ∧ c.pc = (b.graph.kernels.getD (taskOf s i.bank i.task).kernel { entry := 0, len := 0, coreMask := 0, img := 0 }).entry ∧
      c.ie = false ∧ c.hm = false ∧ c.armed = false ∧ c.brs = [] ∧ Sparse.getN c.x 14 = i.bank * 4096 + i.task ∧
      { i with st := .running, core := k, slots := 0 } ∈ u.disp.insts) ∧
    (bankOf s i.bank = some b → b.graph.arcs[idx]? = some a → a.dst < 0xE000 → findInst s i.bank a.dst f = none →
      deadlinePassed s (taskOf s i.bank a.dst).dlk f = true → takeToken s i.bank idx f = addCtr s Reg.DISP_STALETOK 1) ∧
    (bankOf s i.bank = some b → b.graph.arcs[idx]? = some a → a.dst < 0xE000 → findInst s i.bank a.dst f = none →
      deadlinePassed s (taskOf s i.bank a.dst).dlk f = false → ∃ x ∈ (takeToken s i.bank idx f).disp.insts,
        x.bank = i.bank ∧ x.task = a.dst ∧ x.frame = f ∧ x.slots = 2 ^ a.slot ∧
        x.st = (if 2 ^ a.slot = 2 ^ (taskOf s i.bank a.dst).nslot - 1 then .ready else .waiting)) ∧
    (bankOf s i.bank = some b → b.graph.arcs[idx]? = some a → a.dst < 0xE000 → findInst s i.bank a.dst f = some i →
      (i.st = .waiting → bit i.slots a.slot = false → let y := i.slots ||| 2 ^ a.slot
        (if y = 2 ^ (taskOf s i.bank a.dst).nslot - 1 then { i with slots := y, st := .ready, readyAt := s.disp.cycle } else { i with slots := y })
          ∈ (takeToken s i.bank idx f).disp.insts) ∧
      ((i.st = .waiting ∨ i.st = .ready) → bit i.slots a.slot = true →
        takeToken s i.bank idx f = addCtr s Reg.DISP_DUPTOK 1) ∧
      (i.st ≠ .waiting → i.st ≠ .ready → takeToken s i.bank idx f = addCtr s Reg.DISP_STALETOK 1))

/-- The script log (R477 to R480, R482, R485): records follow one another by SEQ; the last slot takes LOG_FULL and a full log loses
events; a failed log SRAM leaves the eight spill slots; an event like the last record's adds to its repeat count; a write of
LOG_RDSEQ shows the record at once. A run whose first event is lost counts into no older record, and a failed log SRAM is out of reach (the
model's choices, assumption 94); the window of LOG_RDSEQ is assumption 60. -/
def Obligations.LogRecorder : Prop :=
  ∀ (s : State) (r : LogRec) (run : Option Nat) (e : LogEvent) (v : Nat),
    let l := s.log
    let filled := { r with seq := l.head, hours := (getR s Reg.LOG_HOURS + r.hours) % 2 ^ 32, pcyc := getF s F.LOG_PCYC_PCYC, gap := l.gap }
    let t := (writeRec s r run).log
    let loses := writeRec s r run = { s with log := dropRun { l with lost := satAdd 32 l.lost 1 } r.code run }
    let once := fun (x : LogRec) => if x.seq = r.seq then { x with rep := satAdd 16 x.rep 1 } else x
    (l.failed = false → l.full = false → l.recs.length < 8191 →
      t.recs = l.recs ++ [filled] ∧ t.head = (l.head + 1) % 2 ^ 32 ∧ t.full = false ∧ t.lost = l.lost) ∧
    (l.failed = false → l.full = false → 8191 ≤ l.recs.length → t.full = true ∧ t.lost = satAdd 32 l.lost 1 ∧
      ∃ f, t.recs = l.recs ++ [f] ∧ f.code = 0x1301 ∧ f.seq = l.head) ∧
    (l.failed = false → l.full = true → loses) ∧
    (l.failed = true → l.spill.length < 8 → t.recs = l.recs ∧ t.spill = l.spill ++ [{ filled with spill := true }]) ∧
    (l.failed = true → 8 ≤ l.spill.length → loses) ∧
    (eventsWaiting l < 256 → (pushEvent s e).log = { l with queue := l.queue ++ [e] }) ∧
    (256 ≤ eventsWaiting l → (pushEvent s e).log = { l with
      lost := satAdd 32 l.lost 1, gap := true, lostRuns := (if e.first then e.run.toList.map (e.code, ·) else []) ++ l.lostRuns }) ∧
    (l.started = true → e.code ≠ 0x1302 → e.run = none → lastRec l = some r → r.code = e.code → r.payload = e.payload → s.fab.inj = [] →
      (writeEvent s e).log = if l.failed then { l with spill := l.spill.map once } else { l with recs := l.recs.map once }) ∧
    (s.fab.inj = [] → findRec l (v % 2 ^ 32) = some r → r.bad = false → ∃ u, exec (.logRdseqSelect v) s = .next u ∧ u.log = l ∧
      getR u Reg.LOG_RDSEQ = v % 2 ^ 32 ∧ getR u Reg.LOG_RDSTAT = 1 ∧
      ∀ i : Nat, i < 16 → getR u (Reg.LOG_RDDATA + 4 * i) = (recWords r).getD i 0 % 2 ^ 32) ∧
    (findRec l (v % 2 ^ 32) = none → ∃ u, exec (.logRdseqSelect v) s = .next u ∧ u.log = l ∧ getR u Reg.LOG_RDSTAT = 0)

/-- Resets, the power sequence, the thermal trip and what the always-on domain does (R457, R481, R490, R492, R494, R495, R500, R502, R506, R508,
R539). The model's choices: what a reset keeps (assumptions 6 and 51), the operands that say whether XO_IN runs and TEST_MODE is high at its
release and that a PWR_GOOD is low (assumptions 10 and 52), the limit of VDD_KPU (assumption 95), and that an ACTIVE unit's drivers let go
(assumption 85). -/
def Obligations.PowerAndReset : Prop :=
  ∀ (s : State) (xo test low nack pec : Bool) (g k mv v data : Nat) (temp : Int),
    let p := s.pwr
    let released := { PairSt.reset with tx := [pairMsg 1 (clapperBody s ((s.pair.cseqP + 1) % 2 ^ 32) true)] }
    let resets := fun (i : Instr) (cause : Nat) (high : Bool) => ∃ t, exec i s = .next t ∧
      t.pending = s.pending ∧ t.hw = s.hw ∧ t.tl = TlSt.reset ∧ t.take = TakeSt.reset ∧ t.kpu = KpuSt.reset ∧ t.log = LogSt.reset ∧
      t.pair = (if (cause = 2 ∨ cause = 8) ∧ s.pair.role = .active then { released with farewell := t.pair.farewell } else PairSt.reset) ∧
      t.pwr.seq = (if high then .held else .raising 0) ∧ t.clk.st = (if xo then .freeRun else .fault) ∧
      t.mem = s.mem.filter (fun c => decide (0x90000000 ≤ c.1) && decide (c.1 < 0xA0000000)) ∧
      getR t Reg.SYS_RSTCAUSE = cause ∧ getR t Reg.PWR_LASTSHUT = getR s Reg.PWR_LASTSHUT
    resets (.powerOnReset xo test) 1 test ∧ resets (.resetN xo test) 2 test ∧ resets (.brownout xo test) 4 test ∧
    (p.boot = .running → p.wdt1 = true → resets (.wdtExpire ⟨xo, test⟩) 8 test) ∧
    (p.boot = .running → p.wdt1 = false → ∃ t, exec (.wdtExpire ⟨xo, test⟩) s = .next t ∧ t.pwr.wdt1 = true ∧ t.fw.restarting = true ∧
      t.fw.ready = false ∧ t.ccp.fwQ = [] ∧ t.fw.running = s.fw.running) ∧
    (p.boot ≠ .running → exec (.wdtExpire ⟨xo, test⟩) s = .next s) ∧
    (bit v 31 = true → ∃ t, exec (.wdtKick v) s = .next t ∧ t.pwr = { p with wdt1 := false, wdtLoads := p.wdtLoads + 1 }) ∧
    (bit v 31 = false → ∃ t, exec (.wdtKick v) s = .next t ∧ t.pwr = p) ∧
    (p.seq = .raising g → g < 5 → ∃ t, exec (.pwrGoodRise g) s = .next t ∧ t.pwr = { p with seq := .raising (g + 1), en := p.en ||| 2 ^ (g + 1) } ∧
      bit (getF t F.PWR_STATUS_PGOOD) g = true) ∧
    (p.seq = .raising 5 → ∃ t, exec (.pwrGoodRise 5) s = .next t ∧ t.pwr.seq = .up ∧ t.pwr.en = p.en ∧
      (s.clk.st = .fault → t.pwr.boot = p.boot) ∧
      (s.clk.st ≠ .fault → (s.hw.bootmode = 1 → t.pwr.boot = .pcieWait) ∧ (s.hw.bootmode = 2 → t.pwr.boot = .uart) ∧
        (s.hw.bootmode = 3 → s.hw.secure = false → t.pwr.boot = .debugHold) ∧
        (s.hw.bootmode = 0 → t.pwr.boot = .running ∧ getF t F.PWR_WDT_MS = 2000 ∨ t.pwr.boot = .uart))) ∧
    (p.seq = .waking 0 → ∃ t, exec (.pwrGoodRise 0) s = .next t ∧ t.pwr = { p with seq := .waking 2, en := p.en ||| 4 }) ∧
    (p.seq = .waking 2 → ∃ t, exec (.pwrGoodRise 2) s = .next t ∧ t.pwr = { p with seq := .up } ∧
      t.dram.selfRef = .out ∧ t.tl.rate = 1) ∧
    ((∀ q, p.seq ≠ .raising q ∧ p.seq ≠ .waking q) → exec (.pwrGoodRise g) s = .next s ∧ exec .sequenceTimeout s = .next s) ∧
    (p.seq = .raising g ∨ p.seq = .waking g → ∃ t, exec .sequenceTimeout s = .next t ∧ t.pwr = { p with seq := .failed, en := 0, boot := .sequencing } ∧
      getF t F.PWR_STATUS_PGOOD = 0 ∧ getR t Reg.PWR_LASTSHUT = 1 ∧ getR t Reg.PWR_SEQSTAT = 2 ^ 31 + g % 8) ∧
    (∀ q, q < 9 → q ≠ 2 → railLimit s q = [713, 760, 0, 998, 475, 808, 1140, 1710, 713].getD q 0) ∧
    (getF s F.KPU_CLK_DIV_CUR = 2 → railLimit s 2 = 725) ∧ (getF s F.KPU_CLK_DIV_CUR = 3 → railLimit s 2 = 675) ∧
    (getF s F.KPU_CLK_DIV_CUR = 4 → railLimit s 2 = 625) ∧
    (k < 9 → ∃ t, exec (.railUndervoltage k mv low) s = .next t ∧ getR t (Reg.PWR_RAILMV + 4 * k) = mv % 4096 ∧
      (low = true ∨ mv < railLimit s k → bit p.uvRails k = false → t.pwr = { p with uvRails := p.uvRails ||| 2 ^ k } ∧
        bit (getF t F.XPT_FMUTE_CAUSE) 0 = true ∧ getR t Reg.PWR_UVCNT = satAdd 32 (getR s Reg.PWR_UVCNT) 1 ∧
        (s.pair.role = .active → t.pair.driven = false ∧ t.pair.pend = some (.resync, 9))) ∧
      (low = false → railLimit s k ≤ mv → bit p.uvRails k = true → t.pwr = { p with uvRails := andNot p.uvRails (2 ^ k) } ∧ t.xpt = s.xpt) ∧
      (bit p.uvRails k = decide (low = true ∨ mv < railLimit s k) → t.pwr = p ∧ t.xpt = s.xpt ∧ t.log = s.log) ∧
      (∀ q, railGroup k = some q → powered s = true → bit p.en q = true → bit (getF t F.PWR_STATUS_PGOOD) q = !low)) ∧
    (p.seq ≠ .dark ∨ bit (getR s Reg.PWR_WAKECFG) 2 = false → exec .hostWake s = .next s) ∧
    (p.seq = .dark → bit (getR s Reg.PWR_WAKECFG) 2 = true → ∃ t, exec .hostWake s = .next t ∧
      t.pwr = { p with seq := .waking 0, en := p.en ||| 1 } ∧ getR t Reg.PWR_WAKECAUSE = 4) ∧
    (getF s F.PWR_PMBSTAT_BUSY = 0 → bit v 31 = true → ∃ t, exec (.pmbusTransaction v) s = .next t ∧
      getF t F.PWR_PMBSTAT_BUSY = 1 ∧ t.pwr = { p with pmbRead := decide (bits v 29 28 = 3) }) ∧
    (getF s F.PWR_PMBSTAT_BUSY = 0 → exec (.pmbusDone nack pec data) s = .next s) ∧
    (getF s F.PWR_PMBSTAT_BUSY = 1 → ∃ t, exec (.pmbusDone nack pec data) s = .next t ∧ getF t F.PWR_PMBSTAT_BUSY = 0 ∧
      (nack = true → getF t F.PWR_PMBSTAT_NACK = 1) ∧ (pec = true → getF t F.PWR_PMBSTAT_PECERR = 1) ∧
      (p.pmbRead = true → nack = false → getR t Reg.PWR_PMBDATA = data % 65536)) ∧
    (p.trip = true → exec (.thermalTrip k temp) s = .next s) ∧
    (p.trip = false → ∃ t, exec (.thermalTrip k temp) s = .next t ∧ t.pwr = { p with trip := true } ∧
      bit (getF t F.XPT_FMUTE_CAUSE) 1 = true ∧ (s.pair.role = .active → t.pair.driven = false)) ∧
    (p.trip = false → exec .thermalShutdown s = .next s) ∧
    (p.trip = true → ∃ t, exec .thermalShutdown s = .next t ∧ t.pwr = { p with seq := .off, en := 0, boot := .sequencing } ∧ getR t Reg.PWR_LASTSHUT = 2) ∧
    exec .pmbAlert s = .next (logEv (raise s 20 2) 0x1408 []) ∧
    exec .hoursTick s = .next { s with log := { s.log with hoursCnt := s.log.hoursCnt + 1 } } ∧
    exec (.netrefclkLoss false) s = .next { s with pwr := { p with netref := true } } ∧
    (s.portA.held = [] → s.portB.held = [] → ∃ t, exec (.netrefclkLoss true) s = .next t ∧ t.pwr = { p with netref := false } ∧
      t.pair.link = false ∧ ∀ q, q < 2 →
        (portOf t q).linkPend = some (false, pcsSpeed (getF s (netF q F.NET_CFG_PCS)) 0, false, false, false))

/-- The thermal warning (R504, R505): every sample reads back; WARN sets as the highest sensor rises to PWR_TWARN, with its count, its
record and its interrupt, clears 5 °C below, and nothing else of the device moves; the threshold after a reset goes by the grade. -/
def Obligations.ThermalWarning : Prop :=
  ∀ (s : State) (t0 t1 t2 t3 t4 t5 t6 t7 : Int) (k : Nat) (xo test : Bool),
    let temps := [t0, t1, t2, t3, t4, t5, t6, t7]
    let top := max (max (max (max (max (max (max t0 t1) t2) t3) t4) t5) t6) t7
    let warn := signed 16 (getF s F.PWR_TWARN_TEMP)
    let on := getF s F.PWR_STATUS_WARN = 1
    (∃ t, exec (.thermalSample temps) s = .next t ∧
      (k < 8 → getR t (Reg.PWR_TEMP + 4 * k) = unsigned 16 (temps.getD k 0)) ∧
      getF t F.PWR_STATUS_TMAX = unsigned 16 top ∧
      (¬ on → warn ≤ top → getF t F.PWR_STATUS_WARN = 1 ∧ getR t Reg.PWR_WARNCNT = satAdd 32 (getR s Reg.PWR_WARNCNT) 1 ∧
        bit (getR t Reg.PWR_INTSTAT) 5 = true ∧
        (eventsWaiting s.log < 256 → ∃ e, t.log.queue = s.log.queue ++ [e] ∧ e.code = 0x1403 ∧ temps.getD (leAt e.payload 0 1) 0 = top ∧
          leAt e.payload 1 2 = unsigned 16 top)) ∧
      (on → top ≤ warn - 80 → getF t F.PWR_STATUS_WARN = 0) ∧
      (on → warn - 80 < top → getF t F.PWR_STATUS_WARN = 1) ∧
      (¬ on → top < warn → getF t F.PWR_STATUS_WARN = getF s F.PWR_STATUS_WARN) ∧
      ((on ∨ top < warn) → t.log = s.log ∧ t.ccp = s.ccp) ∧
      t = { s with regs := t.regs, log := t.log, ccp := t.ccp,
                   pwr := { s.pwr with trip := s.pwr.trip && decide (1840 < top) } }) ∧
    (∃ t, exec (.powerOnReset xo test) s = .next t ∧ getF t F.PWR_TWARN_TEMP = if s.hw.igrade then 16 * 105 else 16 * 100)

/-- STREAM_PACKET_RECEIVE (R276, R277, R281, R286, R288): a packet for an entry or a leg the take does not have, and a malformed one,
only count; one that ends before the present frame counts late and stores nothing; one in its window runs the stream, counts on its
leg, and its samples lie in the store, which for an entry with EXT marks them as lying in its DRAM rings; without power none is
taken (R314); a metadata packet waits for its completion, a duplicate does not.
STREAM_LEG_DOWN (R281): the stream goes on over its other leg, or is DOWN. OMP_RECEIVE (R286 to R289): a bad packet and one for a
frame too far ahead only count; one good entry joins the metadata store. That a metadata packet waits for its row is the model's choice
(assumption 24), and so is the place of a sample in the store (assumption 101). -/
def Obligations.StreamPackets : Prop :=
  (∀ (s : State) (r leg : Nat) (m : RtpPkt), leg < 2 → (powered s = false → exec (.streamPacketReceive r leg m) s = .next s) ∧
    (s.strm.rx[r]? = none → (powered s = true → exec (.streamPacketReceive r leg m) s = .next (addCtr s Reg.STRM_RXUNK 1)) ∧
      exec (.streamLegDown r leg) s = .next s)) ∧
  (∀ (s : State) (r leg : Nat) (m : RtpPkt) (x : RxSt), leg < 2 → s.strm.rx[r]? = some x →
    let got := exec (.streamPacketReceive r leg m) s
    let ent := x.ent
    let w : Int := ((16 * s.tl.frame : Nat) : Int)
    let si := w - 2 ^ 31 + (((m.ts + ent.linkofs : Nat) : Int) - (w - 2 ^ 31)) % 2 ^ 32
    (powered s = true → legPresent ent leg = false → got = .next (addCtr s Reg.STRM_RXUNK 1)) ∧
    (powered s = true → legPresent ent leg = true → rxBad s ent m = true →
      got = .next (addCtr (addF s (F.STRM_RX7_FMTERR.plus (32 * r)) 1) Reg.STRM_RXBAD 1)) ∧
    (powered s = true → legPresent ent leg = true → rxBad s ent m = false → ent.kind = 0 →
      (si + ent.np - 1 < w → ∃ t z, got = .next t ∧ t.strm.rx[r]? = some z ∧ z.store = x.store ∧ z.st = x.st ∧
        getF t (F.STRM_RX6_LATE.plus (32 * r)) = satAdd 16 (getF s (F.STRM_RX6_LATE.plus (32 * r))) 1) ∧
      (w ≤ si → si + ent.np - 1 < w + ent.depth → 0 < ent.np → x.store = [] → 0 ≤ samplePos s w →
        (bit ent.flags 0 = true → s.fab.inj = []) →
        ∃ t z, got = .next t ∧ t.strm.rx[r]? = some z ∧ z.st = .running ∧ (if leg = 0 then z.upA else z.upB) = true ∧
          (∀ i : Nat, i < ent.np → Sparse.get (fun _ => []) z.store (samplePos s (si + i)).toNat =
            if bit ent.flags 0 then [1] else rxSamples ent m.payload i) ∧
          getF t (F.STRM_RX0_LASTSEQ.plus (32 * r)) = m.seq % 65536 ∧
          getR t (rxR r (1 + leg)) = satAdd 32 (getR s (rxR r (1 + leg))) 1 ∧
          (bit ent.flags 0 = false → t.mem = s.mem))) ∧
    (powered s = true → legPresent ent leg = true → rxBad s ent m = false → ent.kind ≠ 0 → ∃ t z, got = .next t ∧ t.strm.rx[r]? = some z ∧
      z.st = .running ∧ z.dups = (if x.dups.contains m.seq then x.dups else (m.seq :: x.dups).take 64) ∧
      t.strm.omp = (if x.dups.contains m.seq then s.strm.omp else s.strm.omp ++ [(s.strm.packets, m.payload)])) ∧
    (let up := if leg = 0 then x.upA else x.upB
     let other := if leg = 0 then x.upB else x.upA
     let down := if leg = 0 then { x with upA := false } else { x with upB := false }
     let out := if leg = 0 then { down with outA := true } else { down with outB := true }
     let lost := exec (.streamLegDown r leg) s
     (up = false → lost = .next s) ∧
     (up = true → other = true → lost = .next (raise (logEv (setRx s r out) 0x0503 [(2, (r : Int)), (1, (leg : Int)), (1, 0),
       frameF (frameNow s)]) 5 3)) ∧
     (up = true → other = false → x.st = .running →
       lost = .next (raise (logEv (setRx s r { down with st := .down }) 0x0502 [(2, (r : Int)), frameF (frameNow s)]) 5 4)) ∧
     (up = true → other = false → x.st ≠ .running → lost = .next (setRx s r down)))) ∧
  (∀ s : State, s.strm.omp = [] → exec .ompReceive s = .next s) ∧
  (∀ (s : State) (pk : Nat) (b : Bytes) (rest : List (Nat × Bytes)) (e : MetaEnt), s.strm.omp = (pk, b) :: rest →
    let u := { s with strm := { s.strm with omp := rest } }
    let frame := beAt b 8 8
    (metaPacketOk b = false → exec .ompReceive s = .next (metaCount u Reg.STRM_METABAD)) ∧
    (metaPacketOk b = true → s.tl.frame + 256 < frame →
      exec .ompReceive s = .next (metaDrop u Reg.STRM_METAEARLY 2 (beAt b 16 2) frame)) ∧
    (metaPacketOk b = true → frame ≤ s.tl.frame + 256 → frame + getF s F.STRM_MLATE_FRAMES < s.tl.frame →
      exec .ompReceive s = .next (metaDrop u Reg.STRM_METAPAST 1 (beAt b 16 2) frame)) ∧
    (metaPacketOk b = true → beAt b 6 2 = 1 → frame ≤ s.tl.frame + 256 → s.tl.frame ≤ frame + getF s F.STRM_MLATE_FRAMES →
      metaEntry (sliceB b 16 32) frame (match s.strm.lastTick with | some l => decide (frame ≤ l) | none => false) pk = some e →
      s.strm.meta_.length < 8192 →
      exec .ompReceive s = .next { s with strm := { s.strm with omp := rest, meta_ := s.strm.meta_ ++ [e] } }))

/-- Received frames (R35, R295, R299 to R303, R311, R312, R325): with flow control off, a bad frame counts once in the counter of its
fault, a frame the filter turns away is counted, one that passes is delivered, and one that finds the receive buffer full is lost.
Frames pass in the order of their ingress stamps, port A first on a tie. Flow control holds the link partner off above XOFF and
lets it go on at or below XON. The link is up as the PCS of its mode reports it; with it down every queued frame is discarded. Frames come
with their FCS, and a change of the link waits for its boundary: the model's choices (assumptions 61, 68, 89). -/
def Obligations.FrameReception : Prop :=
  ∀ (s : State) (p cap fill : Nat) (b : Bytes) (code align : Bool) (other : Option Nat), p < 2 →
    let got := exec (.frameReceive p b cap code align ⟨fill, other⟩) s
    let flags := frameFlags s p b code align
    let ok := addCtr s (netR p Reg.NET_RXOK) 1
    let counted := raise (addCtr s (netR p (badCounter flags)) 1) (3 + p) 1
    let stamp := ((cap : Int) - signed 16 (getF s (F.TIME_LAT_RXLAT.plus (128 * p)))).toNat
    let waits := match other with
      | some c => ingressBefore (ingressStamp s (1 - p) c, 1 - p) (stamp, p)
      | none => false
    let fc := getF s (netF p F.NET_FC_TXPAUSE) = 0 ∧ getF s (netF p F.NET_FC_TXPFC) = 0
    let v := portOf s p
    let free := s.portA.held = [] ∧ s.portB.held = []
    let quiet := fun (u : State) => { u with portA := { u.portA with held := [] }, portB := { u.portB with held := [] } }
    let own := fun (y : Bytes) => ({ bytes := y, at_ := quarterNs s.time.now, kind := .pause } : TxFrame)
    let paused := fun (x : Bool) (q : Nat) => setPort s p { v with xoff := x, pauseQ := v.pauseQ ++ (pauseFrames s p q).map own }
    (b = [] ∨ s.pwr.netref = false ∨ pcsOn s p = false → got = .next s) ∧
    (powered s = false → s.pwr.seq ≠ .dark → got = .next s) ∧
    (b ≠ [] → s.pwr.netref = true → pcsOn s p = true → powered s = true → fc → free → s.fab.inj = [] →
      (65536 < fill + (b.take 9600).length → got = .next (raise (addCtr s (netR p Reg.NET_RXOVF) 1) (3 + p) 2)) ∧
      (fill + (b.take 9600).length ≤ 65536 →
        (waits = false → flags ≠ 0 → getF counted (netF p F.NET_CFG_DELIVER_BAD) = 0 → got = .next counted) ∧
        (waits = false → flags = 0 → chainMode ok = false → addressOk ok p (beAt b 0 6) = false → got = .next (filtered ok p)) ∧
        (waits = false → flags = 0 → chainMode ok = false → addressOk ok p (beAt b 0 6) = true → got = .next (deliver ok p stamp b)) ∧
        (waits = false → flags = 0 → chainMode ok = true → got = .next (chainFrame ok p stamp b)) ∧
        (waits = true → flags = 0 → got = .next (setPort ok p { v with held := [{ stamp := stamp, flags := 0, bytes := b }] })))) ∧
    (let pause := decide (getF s (netF p F.NET_FC_RXPAUSE) = 1 ∧ getF s (netF p F.NET_FC_TXPAUSE) = 1)
     anAbility s p = { fullDuplex := true, halfDuplex := false, symmetricPause := pause }) ∧
    (∀ x y, s.portA.held = [x] → s.portB.held = [y] → passFrames s none =
      if y.stamp < x.stamp then passFrame (passFrame (quiet s) 1 y) 0 x else passFrame (passFrame (quiet s) 0 x) 1 y) ∧
    (fc ∨ powered s = false → exec (.xoffRefresh p fill) s = .next s) ∧
    (¬ fc → powered s = true → maySend s p = true → v.link = true →
      (v.xoff = true → fill ≤ 64 * getF s (netF p F.NET_FCTHR_XON) → exec (.xoffRefresh p fill) s = .next (paused false 0)) ∧
      (v.xoff = true → 64 * getF s (netF p F.NET_FCTHR_XON) < fill →
        exec (.xoffRefresh p fill) s = .next (paused true (getF s (netF p F.NET_FC_QUANTA)))) ∧
      (v.xoff = false → 64 * getF s (netF p F.NET_FCTHR_XOFF) < fill →
        exec (.xoffRefresh p fill) s = .next (paused true (getF s (netF p F.NET_FC_QUANTA))))) ∧
    (s.pwr.seq ≠ .dark → free → ∀ (sync an lf rf : Bool) (speed : Nat),
      let pcs := getF s (netF p F.NET_CFG_PCS)
      let neg := pcs = 1 ∨ pcs = 2 ∧ getF s (netF p F.NET_CFG_AN) = 1
      let up := decide (sync = true ∧ s.pwr.netref = true ∧ pcs ≠ 0 ∧ (neg → an = true) ∧ (pcs = 4 → lf = false))
      let change := (up, if pcs = 1 then min speed 2 else pcs, decide (neg ∧ an = true), decide (pcs = 4 ∧ lf = true),
        decide (pcs = 4 ∧ rf = true))
      exec (.linkStateChange p sync speed an lf rf) s = .next (setPort s p { v with linkPend := some change })) ∧
    (v.link = true → ∀ speed, v.linkPend = some (false, speed, false, false, false) →
      let u := portOf (linkBoundary s p) p
      u.link = false ∧ u.pauseQ = [] ∧ u.q0 = [] ∧ u.q1 = [] ∧ u.q2 = [] ∧ u.q3 = [] ∧ u.q3wait = [] ∧ u.wire = none)

/-- The transmit side of a port (R305, R308, R310, R311, R339 to R344): the port's own pause frames go first, then the
lowest-numbered queue that may send; a frame that ends is counted, pauses run out, timed entries leave when due or complete LATE,
launch requests join or are turned away, and the timestamp queue is read oldest first. Without power nothing is sent (R314). The model's
choices: an idle MAC takes its next frame at MAC_FRAME_END (assumption 31); the frames of the packet buffers stand in no fixed place
(assumption 91); an own frame of chain mode is an entry on each port (assumption 92). -/
def Obligations.TransmitAndLaunch : Prop :=
  ∀ (s : State) (p q t : Nat) (f g : TxFrame) (m : LaunchReq) (d : PdelayReq) (tag x : Nat) (rest : List (Nat × Nat))
      (more : List TxFrame), p < 2 →
    let v := portOf s p
    let able := powered s = true ∧ s.fab.inj = [] ∧ v.wire = none ∧ v.link = true ∧ maySend s p = true ∧ pcsOn s p = true
    let idle := able ∧ v.pauseQ = [] ∧ v.pause = 0 ∧ v.pfc = Vector.replicate 8 0
    let entry : TxFrame := { bytes := m.frame, at_ := t, kind := .launch m.tag m.timed (ltimeOf m t) m.stamp m.onestep m.ptpofs m.latewin }
    let full := fun (b : Bool) (u : State) => { u with time := { u.time with launchFull := b } }
    let w := { v with cpq := v.cpq.drop m.taken }
    let down : Completion := { tag := m.tag, status := .linkDown, stampLost := false }
    let launch := exec (.launchRequest p m t) s
    let onTime := m.timed = false ∨ m.latewin = false ∨ t ≤ ltimeOf m t + lateWin s
    (powered s = false → ∀ i ∈ [Instr.macFrameEnd p t, .pauseExpire p q t, .launchRequest p m t, .launchDue p t,
      .launchLatewinExpire p t, .pdelayReqReceive p d], exec i s = .next s) ∧
    (idle → v.q0 = [] → v.q1 = [] → v.q2 = [] → v.q3 = [] → exec (.macFrameEnd p t) s = .next s) ∧
    (idle → v.q0 = [] → v.q1 = [f] → f.kind = .media → t ≤ f.at_ + 4000 * getF s (netF p F.NET_STALE_US) →
      ∃ u, exec (.macFrameEnd p t) s = .next u ∧ (portOf u p).q1 = [] ∧ (portOf u p).q2 = v.q2 ∧ (portOf u p).q3 = v.q3 ∧
        (portOf u p).wire.map (·.bytes) = some (let b := tagFrame s p 1 f f.bytes; b ++ leBytes 4 (crc32e b))) ∧
    (able → v.pauseQ = g :: more → g.kind = .pause → ∃ u, exec (.macFrameEnd p t) s = .next u ∧ (portOf u p).pauseQ = more ∧
      (portOf u p).q1 = v.q1 ∧ (portOf u p).wire.map (·.bytes) = some (g.bytes ++ leBytes 4 (crc32e g.bytes))) ∧
    (powered s = true → v.wire = some f → v.pauseQ = [] → v.q0 = [] → v.q1 = [] → v.q2 = [] → v.q3 = [] →
      ∃ u, exec (.macFrameEnd p t) s = .next u ∧ portOf u p = { v with wire := none } ∧
        getR u (netR p Reg.NET_TXOK) = satAdd 32 (getR s (netR p Reg.NET_TXOK)) 1 ∧
        (f.kind = .pause → getR u (netR p Reg.NET_PAUSETX) = satAdd 32 (getR s (netR p Reg.NET_PAUSETX)) 1) ∧
        (f.kind = .forward → getR u (netR p Reg.NET_FWDOK) = satAdd 32 (getR s (netR p Reg.NET_FWDOK)) 1)) ∧
    (powered s = true → s.fab.inj = [] → v.wire = some f → v.link = true → maySend s p = true → pcsOn s p = true → v.pauseQ = [] →
      v.pause = 0 → v.pfc = Vector.replicate 8 0 → v.q0 = [] → v.q1 = [g] → f.kind = .media → g.kind = .media →
      t ≤ g.at_ + 4000 * getF s (netF p F.NET_STALE_US) → ∃ u, exec (.macFrameEnd p t) s = .next u ∧ (portOf u p).q1 = [] ∧
        getR u (netR p Reg.NET_TXOK) = satAdd 32 (getR s (netR p Reg.NET_TXOK)) 1 ∧
        (portOf u p).wire.map (·.bytes) = some (let b := tagFrame s p 1 g g.bytes; b ++ leBytes 4 (crc32e b))) ∧
    (powered s = true → 8 ≤ q → ∃ u, exec (.pauseExpire p q t) s = .next u ∧ (portOf u p).pause = 0) ∧
    (powered s = true → q < 8 → ∃ u, exec (.pauseExpire p q t) s = .next u ∧ (portOf u p).pfc[q]? = some 0 ∧ (portOf u p).pause = v.pause) ∧
    (powered s = true → m.viaQ3 = true → chainMode s = false →
      launch = .next (enqueue3 (setPort s p w) p { bytes := m.frame, at_ := t, kind := .plain })) ∧
    (powered s = true → m.viaQ3 = false → chainMode s = false →
      (launchFull s p m.frame.length = true → launch = .next (full true (setPort s p w))) ∧
      (launchFull s p m.frame.length = false →
        (v.link = true → onTime → launch = .next (full false (setPort s p { w with q0 := v.q0 ++ [entry] }))) ∧
        (v.link = true → ¬ onTime → ∃ u, launch = .next u ∧ (portOf u p).q0 = v.q0 ∧
          (portOf u p).done = v.done ++ [{ tag := m.tag, status := .late, stampLost := false }] ∧
          getR u (Reg.TIME_LATE + 0x20 * p) = satAdd 32 (getR s (Reg.TIME_LATE + 0x20 * p)) 1) ∧
        (v.link = false → launch =
          .next (txLoss (full false (setPort s p { w with done := v.done ++ [down] })) p Reg.NET_TXDROP)))) ∧
    (powered s = true → m.viaQ3 = false → chainMode s = true → p = 0 → m.timed = false → s.portA.link = true → s.portB.link = true →
      launchFull s 0 m.frame.length = false → launchFull s 1 m.frame.length = false → ∃ u, launch = .next u ∧
        u.portA.q0 = s.portA.q0 ++ [entry] ∧ u.portB.q0 = s.portB.q0 ++ [entry]) ∧
    (powered s = true → ∀ lt st os po, f.kind = .launch tag true lt st os po true → v.q0 = [f] →
      (lt + lateWin s < t → ∃ u, exec (.launchLatewinExpire p t) s = .next u ∧ (portOf u p).q0 = [] ∧
        (portOf u p).done = v.done ++ [{ tag := tag, status := .late, stampLost := false }]) ∧
      (t < lt + lateWin s → exec (.launchLatewinExpire p t) s = .next s) ∧
      (idle → lt ≤ t → t ≤ lt + lateWin s → ∃ u, exec (.launchDue p t) s = .next u ∧ (portOf u p).q0 = [] ∧ (portOf u p).wire ≠ none) ∧
      (idle → t < lt → v.q1 = [] → v.q2 = [] → v.q3 = [] → exec (.launchDue p t) s = .next s)) ∧
    (v.tsq = [] → exec (.tsqRead p) s = .next { s with rdata := beBytes 4 0 }) ∧
    (v.tsq = (tag, x) :: rest → ∃ u, exec (.tsqRead p) s = .next u ∧ (portOf u p).tsq = rest ∧
      u.rdata = beBytes 4 (2 ^ 31 + p * 2 ^ 30 + tag % 2 ^ 16) ∧
      getR u (Reg.TIME_TSQ_W1 + 0x40 * p) = x % 4000000000 ∧ getR u (Reg.TIME_TSQ_W2 + 0x40 * p) = x / 4000000000 % 2 ^ 32) ∧
    (d.version ≠ 2 ∨ 2 ≤ d.minor ∨ bit (getF s F.TIME_CTRL_PDRESP) p = false ∨
      d.domain ≠ getF s (F.TIME_SVCFG_DOMAIN.plus (128 * p)) ∨ maySend s p = false → exec (.pdelayReqReceive p d) s = .next s) ∧
    (powered s = true → d.version = 2 → d.minor ≤ 1 → bit (getF s F.TIME_CTRL_PDRESP) p = true →
      d.domain = getF s (F.TIME_SVCFG_DOMAIN.plus (128 * p)) → maySend s p = true →
      ((∃ o c i, ∃ y ∈ v.q0, y.kind = .pdelayResp o c i) → exec (.pdelayReqReceive p d) s = .next (addCtr s Reg.TIME_PDSKIP 1)) ∧
      (v.q0 = [] → v.link = true → d.overUdp = false → ∃ u, exec (.pdelayReqReceive p d) s = .next u ∧
        (portOf u p).q0.map (·.kind) = [.pdelayResp 14 d.corr d.stamp] ∧ u.regs = s.regs))

/-- Network time (R328 to R334): a two-step Sync waits for its Follow_Up, whose offset goes to the servo; a message a servo does not
capture changes nothing; a servo without an accepted offset for its timeout is LOST with y frozen at its integral; a servo that
measures reports its frequency difference. A step while PTPA or PTPB is selected enters SPLICE_PENDING at once (R362), and the steering
servo's output is the DPLL's request (R351), which it follows at once (the model's choice, assumption 102). Where the fields of a PTP
message lie is presumed (assumption 12). -/
def Obligations.NetworkTime : Prop :=
  ∀ (s : State) (p : Nat) (m : PtpMsg) (o t2 c : Int) (o1 t1 o2 : Int), p < 2 →
    let n := addrPort s p
    let v := servoOf s n
    let sv := servoOf s p
    let clamp := servoClamp s p
    (captures s n m = false ∨ powered s = false → exec (.ptpSyncReceive p m) s = .next s ∧ exec (.followUpReceive p m) s = .next s) ∧
    (powered s = true → captures s n m = true →
      let missed := addCtr s (Reg.TIME_FUMISS + 0x20 * n) 1
      let u := if v.held = none then s else missed
      (m.twoStep = true →
        exec (.ptpSyncReceive p m) s = .next (setServo u n { v with held := some (m.seq, (m.stamp : Int), m.corr) })) ∧
      (m.twoStep = false → exec (.ptpSyncReceive p m) s =
        .next (handleOffset (setServo u n { v with held := none }) n (offsetOf u n m.stamp m.origin m.corr) m.stamp)) ∧
      (v.held = some (m.seq, t2, c) → exec (.followUpReceive p m) s =
        .next (handleOffset (setServo s n { v with held := none }) n (offsetOf s n t2 m.origin (c + m.corr)) t2)) ∧
      ((∀ a b, v.held ≠ some (m.seq, a, b)) → exec (.followUpReceive p m) s = .next missed)) ∧
    offsetOf s p t2 t1 c = t2 - t1 - rhu 14 c - signed 32 (getR s (Reg.TIME_MPD + 128 * p)) ∧
    (sv.st = .disabled ∨ s.tl.relock = true ∨ s.time.stepPend ≠ none → handleOffset s p o t2 = s) ∧
    (s.tl.relock = false → s.time.stepPend = none → sv.st = .acquire → sv.steer = true → getF s F.TIME_CTRL_STEPEN = 1 →
      4 * getF s (F.TIME_STEPTHR_NS.plus (128 * p)) < o.natAbs →
      let u := { s with time := { s.time with stepPend := some (-o) } }
      (ptpSelected s = false ∨ (s.clk.st ≠ .acquiring ∧ s.clk.st ≠ .locked) → handleOffset s p o t2 = u) ∧
      (ptpSelected s = true → s.clk.st = .acquiring ∨ s.clk.st = .locked → handleOffset s p o t2 =
        raise { u with clk := { s.clk with st := .splicePending, lockedWin := false, target := s.clk.sel, jump := true } } 1 0)) ∧
    (let i := clamp (sv.i + rhu 18 (o * (getR s (Reg.TIME_KI + 128 * p) : Nat)))
     let P := rhu 18 (o * (getR s (Reg.TIME_KP + 128 * p) : Nat))
     let t := servoFilter s p o
     servoOf t p = { sv with pt := P, i := i, y := clamp (P + i) } ∧ t.regs = s.regs ∧
     (sv.steer = true → p = 0 ∨ s.time.sa.steer = false → t.clk.request = clampI (-128000000) 128000000 (-clamp (P + i))) ∧
     t.clk = { s.clk with request := t.clk.request,
                          dco := if dpllSteers s = true ∧ ptpSelected s = true then t.clk.request else s.clk.dco }) ∧
    (sv.st = .disabled ∨ sv.st = .wait ∨ sv.st = .lost → exec (.servoTimeout p) s = .next s) ∧
    (sv.st = .measure ∨ sv.st = .acquire ∨ sv.st = .locked →
      ∃ t, exec (.servoTimeout p) s = .next t ∧ (servoOf t p).st = .lost ∧ (servoOf t p).y = sv.i) ∧
    (sv.st ≠ .measure ∨ sv.sec = none → exec (.fdiffReport p) s = .next s) ∧
    (sv.st = .measure → sv.sec = some (o1, t1, o2, t2) → t1 < t2 →
      let f := divRhu ((o2 - o1) * 256000000000) (4 * (t2 - t1)).toNat
      ∃ t, exec (.fdiffReport p) s = .next t ∧ (servoOf t p).fdiff = f ∧ (servoOf t p).sec = none ∧
        getR t (Reg.TIME_FDIFF + 128 * p) = unsigned 32 (satS 32 f))

/-- The clock system (R354 to R364). A window ends: the vote over the first two references of the table that are measured without
fault, the deviation of the XO, its count of windows beyond TOL and its record, the holdover history and time; every reference is
judged, and the selection rules apply. A judged reference qualifies after QUAL windows in tolerance, and WTR more where it owes them;
the fourth window in a row out of tolerance disqualifies it. Faults disqualify a reference at once. The first mark of the new
reference gives the step of a splice, which moves the timeline by whole frames. The DPLL locks on a reference input at its target
bandwidth, loses lock, and halves a wide bandwidth. Loss of the XO or of the root PLL is FAULT, which CLK_STATUS shows at once and in which an ACTIVE unit
lets its drivers go (R457). The model's choices: windows, marks and timers come as rows (assumption 10), a splice waits for its set or
step (assumption 26), FAULT shows at once (assumption 30), the sign of a step and the rounding of its remainder (assumption 74). -/
def Obligations.ClockSystem : Prop :=
  (∀ (s : State) (meas : List (Bool × Int)) (dco : Int),
    let c := s.clk
    let m := fun (k : Nat) => if k < 4 then meas.getD k (false, 0) else (servoPresent (servoOf s (k - 4)), servoFreq s (k - 4))
    let votes := ((prioTable s).filter fun k => decide (k < 6) && (m k).1 && !(refOf s k).faultWin && (refOf s k).st != .off).take 2
    let v : Int := match votes with | [a, b] => median3 0 (m a).2 (m b).2 | _ => 0
    let tol := getF s F.CLK_TOL_PPB
    let run := if votes.length = 2 ∧ tol < v.natAbs then c.xoRun + 1 else 0
    let out : Int := if dpllSteers s = true ∧ ptpSelected s = false then clampI (-128000000) 128000000 dco else c.dco
    let good := c.lockedWin = true ∧ c.st = .locked ∧ (refOf s c.sel).st = .qualified ∧ (refOf s c.sel).faultWin = false ∧
      ((m c.sel).2 - v).natAbs ≤ tol
    let windowed := { s with clk := { c with
      dco := out, vote := votes.length, dxo := -v, xoRun := run, lockedWin := decide (c.st = .locked),
      holdTime := if c.st = .holdover ∨ c.st = .holdoverUnaveraged then c.holdTime + 1 else c.holdTime } }
    let judged := fun (t : State) =>
      let u := (List.range 6).foldl (fun u r => refWindow u v (votes.length == 2) r (m r)) t
      applySelection { u with clk := { u.clk with
        hist := if good ∧ (refOf u c.sel).st = .qualified then (u.clk.dco :: u.clk.hist).take 60 else u.clk.hist } }
    (c.st = .fault → exec (.measurementWindow meas dco) s = .next s) ∧
    (c.st ≠ .fault → run < 4 ∨ c.xoSuspect = true → exec (.measurementWindow meas dco) s = .next (judged windowed)) ∧
    (c.st ≠ .fault → 4 ≤ run → c.xoSuspect = false → exec (.measurementWindow meas dco) s = .next (judged
      (raise (logEv { windowed with clk := { windowed.clk with xoSuspect := true } } 0x0106 [(4, -v)]) 1 4)))) ∧
  (∀ (s : State) (v f : Int) (three : Bool) (r : Nat), r < 6 →
    let x := refOf s r
    let d := f - v
    let tol := getF s F.CLK_TOL_PPB
    let qual := getF s F.CLK_QUAL_QUAL
    let wtr := getF s F.CLK_QUAL_WTR
    let devs := (d :: x.devs).take 16
    let w := { x with freq := f, dev := d, devs := devs, badRun := 0, glitches := 0, faultWin := false }
    let becomes := fun (y : RefSt) => refWindow s v three r (true, f) = setRef s r y
    (x.st = .off → becomes { x with faultWin := false, glitches := 0 }) ∧
    (x.faultWin = false → d.natAbs ≤ tol → (three = false ∨ devs.sum.natAbs ≤ 2000) →
      (x.st = .failed → becomes { w with st := .qualifying, timer := qual }) ∧
      (x.st = .qualifying → 1 < x.timer → becomes { w with timer := x.timer - 1 }) ∧
      (x.st = .qualifying → x.timer ≤ 1 → x.owed = true → wtr ≠ 0 → becomes { w with st := .wtr, timer := wtr }) ∧
      (x.st = .wtr → 1 < x.timer → becomes { w with timer := x.timer - 1 }) ∧
      (x.st = .wtr → x.timer ≤ 1 → refWindow s v three r (true, f) = refQualified (setRef s r w) r) ∧
      (x.st = .qualified → becomes w)) ∧
    (x.st ≠ .off → x.st ≠ .failed → tol < d.natAbs → 3 ≤ x.badRun →
      (refOf (refWindow s v three r (true, f)) r).st = .failed ∧ (refOf (refWindow s v three r (true, f)) r).cause = 4)) ∧
  (∀ (s : State) (r : Nat) (offset : Int), r < 6 →
    let v := refOf s r
    let failed := fun (i : Instr) (cause glitches : Nat) => ∃ t, exec i s = .next t ∧
      refOf t r = { v with st := .failed, cause := cause, owed := v.owed || v.ever, timer := 0, badRun := 0, glitches := glitches, faultWin := true } ∧
      (∀ q, q ≠ r → refOf t q = refOf s q) ∧ getR t Reg.CLK_REFFAILS = satAdd 32 (getR s Reg.CLK_REFFAILS) 1
    let glitched := addCtr (setRef s r { v with glitches := v.glitches + 1 }) Reg.CLK_GLITCHES 1
    (v.st ≠ .off → v.st ≠ .failed → failed (.refStop r) 1 v.glitches ∧ failed (.rateMismatch r offset) 3 v.glitches ∧
      (8 ≤ v.glitches → failed (.referenceGlitch r) 2 (v.glitches + 1))) ∧
    (v.st = .off ∨ v.st = .failed → exec (.refStop r) s = .next (setRef s r { v with faultWin := true })) ∧
    (v.st = .failed → exec (.rateMismatch r offset) s =
      .next (setRef (logEv s 0x0107 [(1, (r : Int)), (4, satS 32 offset)]) r { v with faultWin := true })) ∧
    (v.st ≠ .off → v.glitches < 8 → exec (.referenceGlitch r) s = .next glitched) ∧
    (v.st = .off → exec (.rateMismatch r offset) s = .next s ∧ exec (.referenceGlitch r) s = .next s)) ∧
  (∀ (s : State) (lead : Int),
    let c := s.clk
    let pending := fun (d : Int) => raise { s with clk := { c with st := .splicePending, lockedWin := false, delta := d } } 1 0
    (c.st = .switching → 4 ≤ c.target → exec (.spliceStepMeasure lead) s =
      .next (pending (((s.tl.index * sampleUnits s.tl.rate : Nat) : Int) - s.time.now))) ∧
    (c.st = .switching → c.target < 4 → exec (.spliceStepMeasure lead) s = .next (pending (markDelta s c.target lead))) ∧
    (c.st ≠ .switching → exec (.spliceStepMeasure lead) s = .next s) ∧
    (splice s).tl.frame = ((s.tl.frame : Int) - spliceFrames s.tl.rate c.delta).toNat % 2 ^ 60 ∧
    (splice s).tl.index = ((s.tl.index : Int) - 16 * spliceFrames s.tl.rate c.delta).toNat % 2 ^ 64) ∧
  (∀ (rate : Nat) (delta : Int), 2 * (delta - spliceFrames rate delta * (frameUnits rate : Nat)).natAbs ≤ frameUnits rate) ∧
  (∀ s : State, s.clk.st = .splicePending → s.clk.jump = true → spliceReady s = false ∧ clkCode s.clk.st = 6) ∧
  (∀ (s : State) (stopped : Bool),
    let c := s.clk
    let t := bwTarget s
    let w := min (16 * t) 1000000
    let faults := fun (i : Instr) => ∃ u, exec i s = .next u ∧ u.clk = { c with st := .fault, lockedWin := false } ∧
      getView u Reg.CLK_STATUS % 8 = 7 ∧ bit (getView u Reg.PWR_STATUS) 22 = true ∧ (s.pair.role = .active → u.pair.driven = false)
    (∀ b, c.fast = some b → exec .fastlockStep s = .next { s with clk := { c with fast := if b / 2 ≤ t then none else some (b / 2) } }) ∧
    (c.fast = none → exec .fastlockStep s = .next s) ∧
    (c.st = .acquiring → c.sel < 4 → c.fast = none →
      exec .dpllLock s = .next (raise { s with clk := { c with st := .locked, lockedWin := false } } 1 0)) ∧
    (c.st ≠ .acquiring ∨ 4 ≤ c.sel ∨ c.fast ≠ none → exec .dpllLock s = .next s) ∧
    (c.st = .locked → c.sel < 4 → exec .dpllLockLoss s = .next (raise { s with clk := { c with
      st := .acquiring, lockedWin := false, fast := if getF s F.CLK_POLICY_FASTLOCK = 1 ∧ t < w then some w else none } } 1 0)) ∧
    (c.st ≠ .locked ∨ 4 ≤ c.sel → exec .dpllLockLoss s = .next s) ∧
    (c.st ≠ .fault → faults .rootPllUnlock ∧ (s.pwr.netref = true → faults (.xoInFault stopped))) ∧
    (s.pwr.netref = false ∨ c.st = .fault → exec (.xoInFault stopped) s = .next s) ∧
    (c.st = .fault → exec .rootPllUnlock s = .next s))

/-- Local audio I/O. The settings a pulse-density group plays by are those of its last load strobe, a slave port's first covered period comes
from the row's operands, and a span write holds its idle period until the strobe after it: the model's choices (assumption 25), as is
tristate before the low level of FAULT (assumption 85). TDM_MASK_RELEASE (R379): a shadow mask gets the first period it covers, and covers every period from there on.
TDM_ZEROX_TIMEOUT (R382): a gate whose timeout falls in the coming frame counts its forced change once; past its timeout a gate ramps, crossing or not. DEC_SETTLED (R388): raised
once, in the frame of the last unsettled output. PDM_LOAD_STROBE (R391 to R394): the strobe takes the oldest queued frame, or zeros
and counts a miss; a span write makes its period idle; a muted frame carries the idle pattern; any other is modulated. PDM_CLEAR_N
(R395): falls once, and as it rises every group starts from zero states. The pins of a group in FAULT and under PDM_CLEAR_N (R364,
R395, R463). -/
def Obligations.LocalAudio : Prop :=
  (∀ (s : State) (p idx m mask : Nat), p < 16 →
    let q := tdmOf s p
    let first := if tdmDrives s q then maskFirst (sampleCycles s) q.pcfg (posNow s) else (samplePos s (idx : Int), m)
    (q.shadow = some (mask, none) → ∃ t, exec (.tdmMaskRelease p idx m) s = .next t ∧
      tdmOf t p = { q with shadow := some (mask, some first) } ∧
      getR t (Reg.TDM_MASKIDX + 0x20 * p) = unsigned 32 (first.1 - 16 * (s.tl.z + s.tl.adj)) ∧
      (∀ (i : Int) (k : Nat), maskAt (tdmOf t p) i k = if first.1 < i ∨ (first.1 = i ∧ first.2 ≤ k) then mask else q.mask) ∧
      t.mem = s.mem ∧ t.tl = s.tl) ∧
    ((∀ v, q.shadow ≠ some (v, none)) → exec (.tdmMaskRelease p idx m) s = .next s)) ∧
  (∀ (s : State) (p j : Nat) (out : Bool) (x : Gate), p < 16 →
    let q := tdmOf s p
    let gates := if out then q.gout else q.gin
    let due := (x.ph = .opening ∨ x.ph = .closing) ∧ x.counted = false ∧ gateLimit s q < x.n + 16 * tdmMul q.pcfg
    (gates[j]? = some x → due → ∃ t, exec (.tdmZeroxTimeout p out j) s = .next t ∧
      tdmOf t p = (if out then { q with gout := q.gout.set j { x with counted := true } }
        else { q with gin := q.gin.set j { x with counted := true } }) ∧
      getR t Reg.TDM_ZXFORCE = satAdd 32 (getR s Reg.TDM_ZXFORCE) 1) ∧
    (gates[j]? = none ∨ (gates[j]? = some x ∧ ¬ due) → exec (.tdmZeroxTimeout p out j) s = .next s)) ∧
  (∀ (lim : Nat) (x : Gate) (y : Int), let h := { x with prev := some y }
    (x.ph = .opening → lim ≤ x.n → gateStep lim x y = (rhu 4 y, { h with ph := .ramping, n := 1 }, !x.counted)) ∧
    (x.ph = .closing → lim ≤ x.n → gateStep lim x y = (rhu 4 (y * 15), { h with ph := .fading, n := 1 }, !x.counted)) ∧
    (x.n < lim → crosses x y = true → (x.ph = .opening → gateStep lim x y = (y, { h with ph := .opened }, false)) ∧
      (x.ph = .closing → gateStep lim x y = (0, { h with ph := .closed }, false))) ∧
    (x.n < lim → crosses x y = false → (x.ph = .opening → gateStep lim x y = (0, { h with n := x.n + 1 }, false)) ∧
      (x.ph = .closing → gateStep lim x y = (y, { h with n := x.n + 1 }, false)))) ∧
  (∀ (s : State) (c : Nat) (d : DecCh), s.lio.decs[c]? = some d →
    (d.told = false → 0 < d.left → d.left ≤ 16 → exec (.decSettled c) s =
      .next (raise { s with lio := { s.lio with decs := s.lio.decs.setIfInBounds c { d with told := true } } } 14 0)) ∧
    (d.told = true ∨ d.left = 0 ∨ 16 < d.left → exec (.decSettled c) s = .next s)) ∧
  (∀ (s : State) (g : Nat) (phase : Int), g < 4 →
    let w := pdmOf s g
    let new := getR s (Reg.PDM_GCFG + 4 * g)
    let playing := bit w.cfg 31
    let pinStrobe := bit (if playing then w.cfg else new) 29
    let zeros := List.replicate 8 PdmMod.zero
    let f := w.queue.head?.getD { ch := List.replicate 8 zero16, mute := false }
    let span := bits new 28 27
    let taken := { w with queue := w.queue.drop 1, errRun := decide (w.queue = []), run := true, cfg := new }
    let rs := (List.range 8).map fun i =>
      pdmPeriod (if bit new 30 then 128 else 64) span (w.mods.getD i PdmMod.zero) (f.ch.getD i zero16)
    (pinStrobe = false ∨ (playing = false ∧ bit new 31 = false) → exec (.pdmLoadStrobe g phase) s = .next s) ∧
    (pinStrobe = true → playing = true ∨ bit new 31 = true → ∃ t, exec (.pdmLoadStrobe g phase) s = .next t ∧
      getR t Reg.PDM_LOADMISS = (if w.queue = [] then satAdd 32 (getR s Reg.PDM_LOADMISS) 1 else getR s Reg.PDM_LOADMISS) ∧
      getR t (Reg.PDM_STRBPH + 4 * g) = unsigned 32 phase ∧
      (bit new 31 = false → pdmOf t g = PdmGroup.idle) ∧
      (bit new 31 = true →
        (w.spanPend = true → pdmOf t g = { taken with mods := zeros, spanPend := false, spanIdle := true, out := none }) ∧
        (w.spanPend = false → f.mute = true → pdmOf t g = { taken with span := span, spanIdle := false, mods := zeros, out := none }) ∧
        (w.spanPend = false → f.mute = false → pdmOf t g =
          { taken with span := span, spanIdle := false, mods := rs.map (·.2.1), out := some (rs.map (·.1)) })))) ∧
  (∀ s : State, (s.lio.clear = true → exec .pdmClearAssert s = .next s) ∧
    (s.lio.clear = false → ∃ t, exec .pdmClearAssert s = .next t ∧ t.lio = { s.lio with clear := true } ∧
      getR t Reg.PDM_CLEARS = satAdd 32 (getR s Reg.PDM_CLEARS) 1) ∧
    ∃ t, exec .pdmClearRelease s = .next t ∧ t = { s with lio := t.lio } ∧ t.lio.clear = false ∧ t.lio.ports = s.lio.ports ∧
      t.lio.decs = s.lio.decs ∧ ∀ g, g < 4 →
        pdmOf t g = { pdmOf s g with run := false, mods := List.replicate 8 PdmMod.zero, out := none }) ∧
  (∀ (s : State) (g : Nat), let idle := bits (if bit (pdmOf s g).cfg 31 then (pdmOf s g).cfg else getR s (Reg.PDM_GCFG + 4 * g)) 26 25
    (powered s = false ∨ s.pair.driven = false → pdmPins s g = .tri) ∧
    (powered s = true → s.pair.driven = true → s.clk.st = .fault → pdmPins s g = .low) ∧
    (powered s = true → s.pair.driven = true → s.clk.st ≠ .fault → s.lio.clear = true →
      pdmPins s g = if idle = 1 then .low else if idle = 2 then .high else .idle))

/-- Clappers and beacons (R233 to R236, R452 to R458): a paired unit sends a clapper each interval and counts a slot without one; a
valid clapper makes its path current; RELEASE takes the role over; with both paths lost a standby is an orphan. The beacon engine
numbers its beacons; the table holds the last beacon of each peer until it expires. A clapper with a wrong length or CRC counts for nothing,
and a unit that has released its role says RELEASE until it has taken RESYNC. The model's choices: the clapper slot is the unit's own
interval (assumption 38), a clapper carries RELEASE while RESYNC is pending (assumption 98), how the peer table is filled (assumptions
37 and 84). -/
def Obligations.ClappersAndBeacons : Prop :=
  ∀ (s : State) (b x : Bytes) (n : Nat) (t : Take) (e : Peer),
    let p := s.pair
    let missed := if p.gotP then s else addCtr s Reg.PAIR_PCLAPMISS 1
    let link := linkBody s 1 b
    let act := beAt x 3 1
    (paired s = false → exec .clapSend s = .next s ∧ exec .networkClapperSend s = .next s ∧ exec .pairLinkClapLoss s = .next s ∧
      exec .networkClapLoss s = .next s) ∧
    (powered s = false → ∀ i ∈ [Instr.clapSend, .networkClapperSend, .pairLinkClapLoss, .networkClapLoss, .clapperReceive false b,
      .clapperReceive true b, .beaconReceive b], exec i s = .next s) ∧
    (powered s = true → paired s = true → ∃ u, exec .clapSend s = .next u ∧ u.pair = { p with gotP := false, cutUntold := false, cseqP := (p.cseqP + 1) % 2 ^ 32, tx :=
      p.tx ++ [pairMsg 1 (clapperBody missed ((p.cseqP + 1) % 2 ^ 32) (decide (p.pend = some (.resync, 9))))] } ∧ u.regs = missed.regs) ∧
    (powered s = true → paired s = true → ∃ u, exec .networkClapperSend s = .next u ∧ u.pair = { p with gotN := false, cseqN := (p.cseqN + 1) % 2 ^ 32 }) ∧
    (powered s = true → link.1 = none → exec (.clapperReceive false b) s = .next link.2) ∧
    (b.length ≠ 60 ∨ crc32c (b.take 56) ≠ beAt b 56 4 → exec (.clapperReceive true b) s = .next s) ∧
    (powered s = true → link = (some x, s) → clapperOk s x = (true, false) →
      (bit act 3 = false → ∃ u, exec (.clapperReceive false b) s = .next u ∧ u.pair.pclap = true ∧ u.pair.gotP = true ∧
        u.pair.peerP = some { role := act % 8, actFrame := beAt x 32 8, digest := sliceB x 40 16, devid := beAt x 8 8, frame := beAt x 24 8 }) ∧
      (bit act 3 = true → p.role = .standby → ∃ u, exec (.clapperReceive false b) s = .next u ∧ u.pair.pclap = false ∧
        u.pair.pend = some (.active, 2))) ∧
    (powered s = true → paired s = true → b.length = 60 → crc32c (b.take 56) = beAt b 56 4 → clapperOk s (b.take 56) = (true, false) →
      bit (beAt (b.take 56) 3 1) 3 = false → ∃ u, exec (.clapperReceive true b) s = .next u ∧ u.pair.nclap = true ∧ u.pair.gotN = true) ∧
    (powered s = true → paired s = true → p.pclap = true → p.nclap = false → p.role = .standby → p.pend = none →
      ∃ u, exec .pairLinkClapLoss s = .next u ∧ u.pair.pclap = false ∧ u.pair.pend = some (.orphan, 10)) ∧
    (powered s = true → paired s = true → p.nclap = true → p.pclap = true →
      ∃ u, exec .networkClapLoss s = .next u ∧ u.pair.nclap = false ∧ u.pair.pclap = true ∧ u.pair.pend = p.pend) ∧
    (s.take.active = none → exec .beaconSend s = .next s) ∧
    (s.take.active = some t → t.cont.group = 0 ∨ getF s F.TAKE_BCNCTRL_ENABLE = 0 → exec .beaconSend s = .next s) ∧
    (s.take.active = some t → t.cont.group ≠ 0 → getF s F.TAKE_BCNCTRL_ENABLE = 1 → ∃ u, exec .beaconSend s = .next u ∧
      u.take = { s.take with bseq := (s.take.bseq + 1) % 2 ^ 32 } ∧ u.mem = s.mem) ∧
    (powered s = true → beaconOk b = false → exec (.beaconReceive b) s = .next (addCtr s Reg.TAKE_BCNBAD 1)) ∧
    (powered s = true → beaconOk b = true → beAt b 8 8 = s.hw.devid ∨ (beAt b 8 8, beAt b 16 4) ∈ s.take.seen → exec (.beaconReceive b) s = .next s) ∧
    (powered s = true → beaconOk b = true → beAt b 8 8 ≠ s.hw.devid → (beAt b 8 8, beAt b 16 4) ∉ s.take.seen → s.take.peers = [] →
      ∃ u y, exec (.beaconReceive b) s = .next u ∧ u.take.peers = [(0, y)] ∧ y.devid = beAt b 8 8 ∧ y.group = beAt b 4 4 ∧
        y.aslate = beAt b 28 4 ∧ y.adigest = sliceB b 32 16 ∧ y.nextcut = beAt b 76 8 ∧ y.bseq = beAt b 16 4 ∧ y.age = 0) ∧
    ((∀ y ∈ s.take.peers, y.1 ≠ n) → exec (.peerExpire n) s = .next s) ∧
    (s.take.peers = [(n, e)] → ∃ u, exec (.peerExpire n) s = .next u ∧ u.take.peers = [] ∧ u.regs = (if e.group ≠ 0 ∧ e.group = ownGroup s then
      (raise s 12 5).regs else s.regs))

/-- The messages of the pair link and the resynchronisation (R451, R459, R460, R462, R465 to R468, R471): a message with a wrong CRC
or length is dropped and counted, none is taken while the link is down; each other has the effect of its type. A takeover that RELEASE has
made pending stands (R458), and a loss of the link returns a resynchronisation in any phase to WAITLINK. The model's choices: details of roles and
phases (assumptions 38 and 88), the frame of an adaptive change (assumption 45), what a resynchronising unit refuses (assumption 56). -/
def Obligations.PairMessages : Prop :=
  ∀ (s : State) (b x : Bytes) (phase : Int) (n f d own peer : Nat),
    let p := s.pair
    let with_ := fun (q : PairSt) => { s with pair := q }
    let is := fun (type : Nat) => linkBody s type b = (some x, s)
    let msgs := [Instr.digestReceive b, .switchReceive b, .xferReceive b, .alignReceive phase b, .setreadyReceive b, .setschedReceive b]
    let bad := addCtr s Reg.PAIR_CRCERR 1
    let fx := s.tl.frame + getF s F.PAIR_LEAD_FRAMES + primeLen ((chanOf s (beAt x 0 2)).run.len)
    let placed := fun (u : State) (op : CcpOp) => { u with ccp := { u.ccp with
      arrivals := s.ccp.arrivals + 1, frameQ := s.ccp.frameQ ++ [(s.tl.frame + 1, s.ccp.arrivals, .op op none)] } }
    (powered s = false → ∀ i ∈ .resyncTimeout :: .evidenceWindowExpire :: msgs, exec i s = .next s) ∧
    (powered s = true → paired s = false → ∀ i ∈ msgs, exec i s = .next s) ∧
    (powered s = true → paired s = true → p.link = false → ∀ i ∈ msgs, exec i s = .next s) ∧
    (powered s = true → paired s = true → p.link = true →
      b.length ≠ beAt b 2 2 + 8 ∨ bodyLen (beAt b 0 1) (beAt b 2 2) = false ∨ crc32c (b.take (4 + beAt b 2 2)) ≠ beAt b (4 + beAt b 2 2) 4 →
      ∀ i ∈ msgs, exec i s = .next bad) ∧
    (∀ n, (bodyLen 1 n = true ↔ n = 56) ∧ (bodyLen 2 n = true ↔ n = 16) ∧ (bodyLen 3 n = true ↔ 12 ≤ n ∧ n ≤ 1036) ∧
      (bodyLen 4 n = true ↔ n = 24) ∧ (bodyLen 5 n = true ↔ n = 8) ∧ (bodyLen 6 n = true ↔ n = 8) ∧ (bodyLen 7 n = true ↔ n = 16)) ∧
    (powered s = true → is 2 → p.role ≠ .solo → p.role ≠ .init → p.own = [] →
      exec (.digestReceive b) s = .next (with_ { p with peer := p.peer ++ [(beAt x 0 8, beAt x 8 4)] })) ∧
    (powered s = true → is 2 → p.role ≠ .solo → p.role ≠ .init → p.own = [(beAt x 0 8, d)] → p.peer = [] → exec (.digestReceive b) s =
      .next (compareDigest (with_ { p with own := [], peer := [] }) (beAt x 0 8) d (beAt x 8 4))) ∧
    (own = peer → (compareDigest s f own peer).pair.divRun = 0 ∧
      getR (compareDigest s f own peer) Reg.PAIR_MATCHRUN = satAdd 32 (getR s Reg.PAIR_MATCHRUN) 1) ∧
    (own ≠ peer → let u := compareDigest s f own peer
      u.pair.divRun = p.divRun + 1 ∧ getR u Reg.PAIR_MATCHRUN = 0 ∧
      (p.role = .standby → divLimit s < p.divRun + 1 → p.pend ≠ some (.active, 2) → u.pair.pend = some (.resync, 6)) ∧
      (p.role ≠ .standby ∨ p.divRun + 1 ≤ divLimit s → u.pair.pend = p.pend)) ∧
    (p.pend = some (.active, 2) → (compareDigest s f own peer).pair.pend = p.pend) ∧
    (∀ ph, p.phase = some ph → (linkLost s).pair = { p with
      phase := some .waitLink, settleFrom := none, xTake := [], xSets := [], xObj := [], xCorr := [], fa := none }) ∧
    (powered s = true → is 5 → (p.role = .active ∧ peerRole s = 2 ∨ p.role = .standby ∧ peerRole s = 1) → p.pclap = true →
      s.tl.frame + getF s F.PAIR_LEAD_FRAMES < beAt x 0 8 →
      exec (.switchReceive b) s = .next { s with
        pair := { p with switch := some (beAt x 0 8, s.ccp.arrivals) }, ccp := { s.ccp with arrivals := s.ccp.arrivals + 1 } }) ∧
    (powered s = true → is 5 → p.role ≠ .active → p.role ≠ .standby → exec (.switchReceive b) s = .next s) ∧
    (powered s = true → is 3 → p.phase = some .transfer → beAt x 4 4 + (x.drop 12).length ≤ beAt x 8 4 → beAt x 0 1 = 2 →
      exec (.xferReceive b) s = .next (with_ { p with xObj := putPiece p.xObj (beAt x 4 4) (x.drop 12) })) ∧
    (powered s = true → is 3 → p.phase = some .transfer → beAt x 4 4 + (x.drop 12).length ≤ beAt x 8 4 → beAt x 0 1 = 0 → beAt x 4 4 = 0 →
      (x.drop 12).length < beAt x 8 4 → exec (.xferReceive b) s = .next (with_ { p with xTake := putPiece [] 0 (x.drop 12) })) ∧
    (powered s = true → is 3 → p.phase ≠ some .transfer → p.role ≠ .standby → exec (.xferReceive b) s = .next s) ∧
    (powered s = true → is 4 → p.phase ≠ some .align → exec (.alignReceive phase b) s = .next s) ∧
    (powered s = true → is 4 → p.phase = some .align → phase.natAbs * 4 ≤ frameCycles s.tl.rate → ∃ u, exec (.alignReceive phase b) s = .next u ∧
      let m := (s.tl.frame : Int) - (beAt x 8 8 : Nat)
      u.pair = { p with fa := some (beAt x 0 8, beAt x 16 8), realign := if m = 0 then none else some m } ∧
      getR u Reg.PAIR_PHASE = unsigned 32 phase) ∧
    (powered s = true → is 6 → beAt x 3 1 = 1 → mayInstall s = true → beAt x 0 2 < busCount s → s.tl.frame < fx → s.ccp.frameQ.length < 256 →
      exec (.setreadyReceive b) s = .next (placed (pairSend s 7 (beBytes 2 (beAt x 0 2) ++ beBytes 1 (beAt x 2 1) ++ zeroBytes 1 ++ beBytes 8 fx ++ beBytes 2 0 ++ zeroBytes 2))
        (.setChange (beAt x 0 2) (beAt x 2 1) fx 0))) ∧
    (powered s = true → is 7 → p.role = .standby → s.tl.frame < beAt x 4 8 → s.ccp.frameQ.length < 256 →
      exec (.setschedReceive b) s = .next (placed s (.setChange (beAt x 0 2) (beAt x 2 1 % 4) (beAt x 4 8) (beAt x 12 2)))) ∧
    (powered s = true → is 7 → p.role ≠ .standby → exec (.setschedReceive b) s = .next s) ∧
    ((∀ q ∈ [RsPhase.transfer, .align, .settle, .match_], p.phase ≠ some q) → exec .resyncTimeout s = .next s) ∧
    (powered s = true → (∃ q ∈ [RsPhase.transfer, .align, .settle, .match_], p.phase = some q) →
      ∃ u, exec .resyncTimeout s = .next u ∧ u.pair = { p with phase := some .failed }) ∧
    (p.link = true → (paired s = true → exec (.pairLinkSync false) s =
        .next (linkLost (addCtr (with_ { p with link := false }) Reg.PAIR_LINKDOWN 1))) ∧
      (paired s = false → exec (.pairLinkSync false) s = .next (with_ { p with link := false })) ∧
      (s.pwr.netref = true → exec (.pairLinkSync true) s = .next s)) ∧
    (p.link = false → s.pwr.netref = true → exec (.pairLinkSync true) s = .next (with_ { p with link := true })) ∧
    (p.role ≠ .orphan ∨ p.pclap = true ∨ p.nclap = true → exec .evidenceWindowExpire s = .next s) ∧
    (powered s = true → p.role = .orphan → p.pend ≠ some (.active, 2) → p.pclap = false → p.nclap = false →
      (∃ l ∈ monitoredLegs s, (portOf s l.1).link = true ∧ ∃ r ∈ s.strm.rx, r.st = .running ∧ (if l.1 = 0 then r.upA else r.upB) = true) →
      exec .evidenceWindowExpire s = .next (with_ { p with pend := some (.active, 3) })) ∧
    (n = settleTime s + 256 → getF s F.PAIR_DIVMAX_FRAMES = 0 → divLimit s = n)

/-- Whatever command a step takes, the memories keep their canonical form: addresses rising, no byte listed that reads as a byte
nothing has written (the model's own form of memory, assumption 3). -/
def Obligations.EveryStepKeepsMemoryCanonical : Prop :=
  ∀ s t : State, MemoryCanonical s → step s = .next t → MemoryCanonical t

/-- Whatever command a step takes, the queues of the command engine keep their limits: 256 commands that wait for a frame, 32 for
firmware, 8 snapshots, 2 quad-SPI packets (R248, R250, R255, R260). -/
def Obligations.EveryStepKeepsQueuesBounded : Prop :=
  ∀ s t : State, QueuesBounded s → step s = .next t → QueuesBounded t

/-- Whatever command a step takes, the register file keeps its canonical form: offsets rising, none listed that holds what it
reads unlisted (the model's own form of the registers, assumption 7). -/
def Obligations.EveryStepKeepsRegsCanonical : Prop :=
  ∀ s t : State, RegsCanonical s → step s = .next t → RegsCanonical t
end

