-- ==== Sys2Proof/Laws/Sparse.lean ====
section
/-! SUPPORT. Laws of sparse storage and of byte memories: what a read gives after a write, and that every operation keeps the
canonical form. -/

namespace Sys2Proof.Machine

theorem Sparse.get_dropWhile {α : Type} (d : Nat → α) (m : Sparse α) (k b : Nat) (h : k < b) :
    Sparse.get d (m.dropWhile fun p => decide (p.1 ≤ k)) b = Sparse.get d m b := by
  induction m with
  | nil => rfl
  | cons p t ih =>
    obtain ⟨a, w⟩ := p
    by_cases hk : a ≤ k
    · simp only [List.dropWhile_cons, hk, decide_true, ↓reduceIte, ih, Sparse.get]
      rw [if_neg (by omega), if_neg (by omega)]
    · simp only [List.dropWhile_cons, hk, decide_false, Bool.false_eq_true, ↓reduceIte, Sparse.get]

theorem Sparse.get_dropWhile_low {α : Type} (d : Nat → α) (m : Sparse α) (k b : Nat) (h : b ≤ k) :
    Sparse.get d (m.dropWhile fun p => decide (p.1 ≤ k)) b = d b := by
  induction m with
  | nil => rfl
  | cons p t ih =>
    obtain ⟨a, w⟩ := p
    by_cases hk : a ≤ k
    · simp only [List.dropWhile_cons, hk, decide_true, ↓reduceIte, ih]
    · simp only [List.dropWhile_cons, hk, decide_false, Bool.false_eq_true, ↓reduceIte, Sparse.get]
      rw [if_neg (by omega), if_pos (by omega)]

/-- A read after a write: the value written at its key, every other key as before. -/
theorem Sparse.get_put {α : Type} [DecidableEq α] (d : Nat → α) (m : Sparse α) (k : Nat) (v : α) (b : Nat) :
    Sparse.get d (Sparse.put d m k v) b = if b = k then v else Sparse.get d m b := by
  induction m with
  | nil =>
    simp only [Sparse.put, Sparse.get]
    by_cases hv : v = d k <;> by_cases hb : b = k <;> simp [hv, hb, Sparse.get]
  | cons p t ih =>
    obtain ⟨a, w⟩ := p
    simp only [Sparse.put]
    rcases Nat.lt_trichotomy k a with h1 | h1 | h1
    · rw [if_pos h1]
      by_cases hv : v = d k <;> by_cases hb : b = k
      · subst hb; simp [hv, Sparse.get, Nat.ne_of_lt h1, h1]
      · simp [hv, hb]
      · subst hb; simp [hv, Sparse.get]
      · simp only [hv, ↓reduceIte, Sparse.get, hb]
        by_cases hl : b < k
        · rw [if_pos hl, if_neg (by omega), if_pos (by omega)]
        · rw [if_neg hl]
    · subst h1
      rw [if_neg (by omega), if_pos rfl]
      by_cases hv : v = d k <;> by_cases hb : b = k
      · subst hb; simp [hv, Sparse.get_dropWhile_low]
      · simp only [hv, ↓reduceIte, hb, Sparse.get]
        by_cases hl : b < k
        · rw [Sparse.get_dropWhile_low _ _ _ _ (by omega), if_pos hl]
        · rw [Sparse.get_dropWhile _ _ _ _ (by omega), if_neg hl]
      · subst hb; simp [hv, Sparse.get]
      · simp [hv, hb, Sparse.get]
    · rw [if_neg (by omega), if_neg (by omega)]
      simp only [Sparse.get, ih]
      by_cases hb : b = k
      · subst hb; simp [Nat.ne_of_gt h1, Nat.not_lt_of_gt h1]
      · simp [hb]

theorem Sparse.get_put_same {α : Type} [DecidableEq α] (d : Nat → α) (m : Sparse α) (k : Nat) (v : α) :
    Sparse.get d (Sparse.put d m k v) k = v := by simp [Sparse.get_put]

theorem Sparse.get_put_ne {α : Type} [DecidableEq α] (d : Nat → α) (m : Sparse α) (k : Nat) (v : α) (b : Nat) (h : b ≠ k) :
    Sparse.get d (Sparse.put d m k v) b = Sparse.get d m b := by simp [Sparse.get_put, h]

theorem Sparse.wfFrom_mono {α : Type} [DecidableEq α] (d : Nat → α) (m : Sparse α) (lo hi : Nat) (h : lo ≤ hi)
    (w : Sparse.wfFrom d hi m = true) : Sparse.wfFrom d lo m = true := by
  cases m with
  | nil => rfl
  | cons p t =>
    obtain ⟨a, v⟩ := p
    simp only [Sparse.wfFrom, Bool.and_eq_true, decide_eq_true_eq] at w ⊢
    exact ⟨⟨by omega, w.1.2⟩, w.2⟩

theorem Sparse.dropWhile_wf {α : Type} [DecidableEq α] (d : Nat → α) (m : Sparse α) (k : Nat)
    (w : Sparse.wfFrom d (k + 1) m = true) : m.dropWhile (fun p => decide (p.1 ≤ k)) = m := by
  cases m with
  | nil => rfl
  | cons p t =>
    simp only [Sparse.wfFrom, Bool.and_eq_true, decide_eq_true_eq] at w
    have h : ¬ p.1 ≤ k := by have := w.1.1; omega
    simp [h]

theorem Sparse.wfFrom_put {α : Type} [DecidableEq α] (d : Nat → α) (m : Sparse α) (lo k : Nat) (v : α) (hk : lo ≤ k)
    (w : Sparse.wfFrom d lo m = true) : Sparse.wfFrom d lo (Sparse.put d m k v) = true := by
  induction m generalizing lo with
  | nil =>
    simp only [Sparse.put]
    split
    · rfl
    · simp_all [Sparse.wfFrom]
  | cons p t ih =>
    obtain ⟨a, x⟩ := p
    have w' := w
    simp only [Sparse.wfFrom, Bool.and_eq_true, decide_eq_true_eq] at w
    simp only [Sparse.put]
    split
    · split
      · exact w'
      · rename_i h1 h2
        simp only [Sparse.wfFrom, Bool.and_eq_true, decide_eq_true_eq]
        exact ⟨⟨hk, h2⟩, ⟨by omega, w.1.2⟩, w.2⟩
    · split
      · rename_i h1 h2
        split
        · rw [h2, Sparse.dropWhile_wf d t a w.2]
          exact Sparse.wfFrom_mono d t lo (a + 1) (by omega) w.2
        · rename_i h3
          simp only [Sparse.wfFrom, Bool.and_eq_true, decide_eq_true_eq]
          exact ⟨⟨hk, h3⟩, by rw [h2]; exact w.2⟩
      · simp only [Sparse.wfFrom, Bool.and_eq_true, decide_eq_true_eq]
        exact ⟨w.1, ih (a + 1) (by omega) w.2⟩

/-- A write keeps the canonical form. -/
theorem Sparse.wf_put {α : Type} [DecidableEq α] (d : Nat → α) (m : Sparse α) (k : Nat) (v : α) (w : Sparse.wf d m = true) :
    Sparse.wf d (Sparse.put d m k v) = true := Sparse.wfFrom_put d m 0 k v (Nat.zero_le k) w

theorem Sparse.wfFrom_filter {α : Type} [DecidableEq α] (d : Nat → α) (m : Sparse α) (lo : Nat) (f : Nat × α → Bool)
    (w : Sparse.wfFrom d lo m = true) : Sparse.wfFrom d lo (m.filter f) = true := by
  induction m generalizing lo with
  | nil => rfl
  | cons p t ih =>
    simp only [Sparse.wfFrom, Bool.and_eq_true, decide_eq_true_eq] at w
    simp only [List.filter_cons]
    split
    · simp only [Sparse.wfFrom, Bool.and_eq_true, decide_eq_true_eq]
      exact ⟨w.1, ih _ w.2⟩
    · exact ih _ (Sparse.wfFrom_mono d t lo (p.1 + 1) (by omega) w.2)

/-- Forgetting keys keeps the canonical form. -/
theorem Sparse.wf_filter {α : Type} [DecidableEq α] (d : Nat → α) (m : Sparse α) (f : Nat × α → Bool)
    (w : Sparse.wf d m = true) : Sparse.wf d (m.filter f) = true := Sparse.wfFrom_filter d m 0 f w

theorem Sparse.wf_clearRange {α : Type} [DecidableEq α] (d : Nat → α) (m : Sparse α) (lo hi : Nat) (w : Sparse.wf d m = true) :
    Sparse.wf d (Sparse.clearRange m lo hi) = true := Sparse.wf_filter d m _ w

theorem Sparse.wfFrom_append {α : Type} [DecidableEq α] (d : Nat → α) (x y : Sparse α) (lo mid : Nat) (h : lo ≤ mid)
    (wx : Sparse.wfFrom d lo x = true) (hx : ∀ p ∈ x, p.1 < mid) (wy : Sparse.wfFrom d mid y = true) :
    Sparse.wfFrom d lo (x ++ y) = true := by
  induction x generalizing lo with
  | nil => exact Sparse.wfFrom_mono d y lo mid h wy
  | cons p t ih =>
    simp only [Sparse.wfFrom, Bool.and_eq_true, decide_eq_true_eq] at wx
    simp only [List.cons_append, Sparse.wfFrom, Bool.and_eq_true, decide_eq_true_eq]
    refine ⟨wx.1, ih (p.1 + 1) ?_ wx.2 (fun q hq => hx q (List.mem_cons_of_mem p hq))⟩
    exact hx p List.mem_cons_self

theorem Sparse.wfFrom_high {α : Type} [DecidableEq α] (d : Nat → α) (m : Sparse α) (lo hi : Nat)
    (w : Sparse.wfFrom d lo m = true) : Sparse.wfFrom d hi (m.filter fun p => decide (hi ≤ p.1)) = true := by
  induction m generalizing lo with
  | nil => rfl
  | cons p t ih =>
    simp only [Sparse.wfFrom, Bool.and_eq_true, decide_eq_true_eq] at w
    simp only [List.filter_cons]
    split
    · rename_i h1
      simp only [Sparse.wfFrom, Bool.and_eq_true, decide_eq_true_eq]
      exact ⟨⟨by simpa using h1, w.1.2⟩, Sparse.wfFrom_filter d t _ _ w.2⟩
    · exact ih _ w.2

theorem Memory.wf_write (m : Memory) (a : Nat) (b : Byte) (w : Memory.wf m = true) : Memory.wf (Memory.write m a b) = true :=
  Sparse.wf_put Memory.blank m a b w

theorem Memory.wf_writeBytes (m : Memory) (a : Nat) (b : Bytes) (w : Memory.wf m = true) :
    Memory.wf (Memory.writeBytes m a b) = true := by
  induction b generalizing m a with
  | nil => exact w
  | cons x t ih => exact ih _ _ (Memory.wf_write m a x w)

/-- A byte of memory after a write. -/
theorem Memory.read_write (m : Memory) (a : Nat) (b : Byte) (p : Nat) :
    Memory.read (Memory.write m a b) p = if p = a then b else Memory.read m p := Sparse.get_put Memory.blank m a b p

/-- A byte of memory after a byte string is stored: a byte of the string inside its range, else as before. -/
theorem Memory.read_writeBytes (m : Memory) (a : Nat) (b : Bytes) (p : Nat) :
    Memory.read (Memory.writeBytes m a b) p =
      if a ≤ p ∧ p < a + b.length then b.getD (p - a) 0 else Memory.read m p := by
  induction b generalizing m a with
  | nil => simp [Memory.writeBytes]
  | cons x t ih =>
    simp only [Memory.writeBytes, ih, Memory.read_write, List.length_cons]
    by_cases h1 : p = a
    · subst h1; rw [if_neg (by omega), if_pos (by omega)]; simp
    · by_cases h2 : a + 1 ≤ p ∧ p < a + 1 + t.length
      · rw [if_pos h2, if_pos (by omega)]
        obtain ⟨n, rfl⟩ : ∃ n, p = a + 1 + n := ⟨p - (a + 1), by omega⟩
        have e1 : a + 1 + n - (a + 1) = n := by omega
        have e2 : a + 1 + n - a = n + 1 := by omega
        simp [e1, e2]
      · rw [if_neg h2, if_neg h1, if_neg (by omega)]

end Sys2Proof.Machine
end

