-- ==== Sys2Proof/Laws/Mem.lean ====
section
/-! SUPPORT. Laws of the memory operations that are shared by the families: whole blocks, stores through the fabric, and the
frames that leave the head store. Every one keeps the canonical form. -/

namespace Sys2Proof.Machine

open Sys2Proof

set_option Elab.async false

theorem Sparse.wfFrom_zip {α : Type} [DecidableEq α] (d : Nat → α) (b : List α) (a n : Nat) (f : Nat × α → Bool)
    (hf : ∀ p, f p = true → p.2 ≠ d p.1) :
    Sparse.wfFrom d (a + n) (((b.zipIdx n).map fun x => (a + x.2, x.1)).filter f) = true := by
  induction b generalizing n with
  | nil => rfl
  | cons x t ih =>
    simp only [List.zipIdx_cons, List.map_cons, List.filter_cons]
    split
    · rename_i h
      simp only [Sparse.wfFrom, Bool.and_eq_true, decide_eq_true_eq]
      exact ⟨⟨Nat.le_refl _, hf _ h⟩, ih (n + 1)⟩
    · exact Sparse.wfFrom_mono d _ _ (a + (n + 1)) (by omega) (ih (n + 1))

/-- Replacing a range by a block whose kept entries rise from its low end keeps the canonical form. -/
theorem Sparse.wf_replaceRange {α : Type} [DecidableEq α] (d : Nat → α) (m : Sparse α) (lo hi : Nat) (block : Sparse α)
    (h : lo ≤ hi) (w : Sparse.wf d m = true)
    (wb : Sparse.wfFrom d lo (block.filter fun p => lo ≤ p.1 && p.1 < hi && p.2 ≠ d p.1) = true) :
    Sparse.wf d (Sparse.replaceRange d m lo hi block) = true := by
  unfold Sparse.replaceRange Sparse.wf
  apply Sparse.wfFrom_append d _ _ 0 hi (Nat.zero_le _)
  · apply Sparse.wfFrom_append d _ _ 0 lo (Nat.zero_le _) (Sparse.wfFrom_filter d m 0 _ w) _ wb
    intro p hp
    simpa using (List.mem_filter.1 hp).2
  · intro p hp
    rcases List.mem_append.1 hp with hp | hp
    · have := (List.mem_filter.1 hp).2
      simp only [decide_eq_true_eq] at this
      omega
    · have := (List.mem_filter.1 hp).2
      simp only [Bool.and_eq_true, decide_eq_true_eq] at this
      omega
  · exact Sparse.wfFrom_high d m 0 hi w

/-- Storing a block of bytes keeps the canonical form. -/
theorem wf_memBlock (m : Memory) (a : Nat) (b : Bytes) (w : Memory.wf m = true) : Memory.wf (memBlock m a b) = true := by
  apply Sparse.wf_replaceRange Memory.blank m a (a + b.length) _ (Nat.le_add_right _ _) w
  exact Sparse.wfFrom_zip Memory.blank b a 0 _ (by
    intro p hp
    simp only [Bool.and_eq_true, decide_eq_true_eq] at hp
    exact hp.2)

/-- The frame that leaves the head store for the Delay SRAM keeps the canonical form. -/
theorem wf_headOut (m : Memory) (r : Nat) (q : Int) (w : Memory.wf m = true) : Memory.wf (headOut m r q) = true := by
  unfold headOut
  dsimp only
  generalize m.filter (fun p => inHead r p.1) = gone
  have key : ∀ (l : Memory) (m : Memory), Memory.wf m = true →
      Memory.wf (l.foldl (fun m p => Memory.write m (delayOf q p.1) p.2) m) = true := by
    intro l
    induction l with
    | nil => exact fun _ h => h
    | cons p t ih => exact fun m h => ih _ (Memory.wf_write m _ _ h)
  exact key gone _ (Sparse.wf_filter Memory.blank m _ w)

/-- A store of bytes through the fabric keeps the canonical form. -/
theorem wf_memWrite (s : State) (a : Nat) (b : Bytes) (w : Memory.wf s.mem = true) : Memory.wf (memWrite s a b).mem = true :=
  Memory.wf_writeBytes s.mem a b w

/-- Every byte after a store through the fabric: a byte stored inside the stored range, every other as before. -/
theorem read_memWrite (s : State) (a : Nat) (b : Bytes) (p : Nat) :
    Memory.read (memWrite s a b).mem p = if a ≤ p ∧ p < a + b.length then b.getD (p - a) 0 else Memory.read s.mem p :=
  Memory.read_writeBytes s.mem a b p

@[simp] theorem memWrite_regs (s : State) (a : Nat) (b : Bytes) : (memWrite s a b).regs = s.regs := rfl
@[simp] theorem memWrite_kpu (s : State) (a : Nat) (b : Bytes) : (memWrite s a b).kpu = s.kpu := rfl
@[simp] theorem memWrite_pending (s : State) (a : Nat) (b : Bytes) : (memWrite s a b).pending = s.pending := rfl
@[simp] theorem memWrite_log (s : State) (a : Nat) (b : Bytes) : (memWrite s a b).log = s.log := rfl
@[simp] theorem memWrite_ccp (s : State) (a : Nat) (b : Bytes) : (memWrite s a b).ccp = s.ccp := rfl

/-- With no damaged codeword a read meets no error and reports nothing. -/
theorem eccRead_none (s : State) (a n m src : Nat) (h : s.fab.inj = []) : eccRead s a n m src = (false, s) := by
  simp [eccRead, h]

/-- With no damaged codeword a read returns the bytes of memory and changes nothing. -/
theorem memRead_none (s : State) (a n m src : Nat) (h : s.fab.inj = []) :
    memRead s a n m src = ((List.range n).map fun i => Memory.read s.mem (a + i), s) := by
  simp [memRead, eccRead_none s a n m src h, readByte, ueByte, h]

end Sys2Proof.Machine
end

