-- ==== Sys2Proof/Laws/State.lean ====
section
/-! SUPPORT. The updates of State: each changes its own field and no other. -/

namespace Sys2Proof.Machine

open Sys2Proof

set_option Elab.async false

/-! setR changes regs and nothing else. -/

@[simp] theorem setR_pending (s : State) (a v : Nat) : (setR s a v).pending = s.pending := rfl
@[simp] theorem setR_hw (s : State) (a v : Nat) : (setR s a v).hw = s.hw := rfl
@[simp] theorem setR_view (s : State) (a v : Nat) : (setR s a v).view = s.view := rfl
@[simp] theorem setR_latch (s : State) (a v : Nat) : (setR s a v).latch = s.latch := rfl
@[simp] theorem setR_tl (s : State) (a v : Nat) : (setR s a v).tl = s.tl := rfl
@[simp] theorem setR_log (s : State) (a v : Nat) : (setR s a v).log = s.log := rfl
@[simp] theorem setR_ccp (s : State) (a v : Nat) : (setR s a v).ccp = s.ccp := rfl
@[simp] theorem setR_pwr (s : State) (a v : Nat) : (setR s a v).pwr = s.pwr := rfl
@[simp] theorem setR_portA (s : State) (a v : Nat) : (setR s a v).portA = s.portA := rfl
@[simp] theorem setR_portB (s : State) (a v : Nat) : (setR s a v).portB = s.portB := rfl
@[simp] theorem setR_time (s : State) (a v : Nat) : (setR s a v).time = s.time := rfl
@[simp] theorem setR_clk (s : State) (a v : Nat) : (setR s a v).clk = s.clk := rfl
@[simp] theorem setR_geo (s : State) (a v : Nat) : (setR s a v).geo = s.geo := rfl
@[simp] theorem setR_path (s : State) (a v : Nat) : (setR s a v).path = s.path := rfl
@[simp] theorem setR_kpu (s : State) (a v : Nat) : (setR s a v).kpu = s.kpu := rfl
@[simp] theorem setR_disp (s : State) (a v : Nat) : (setR s a v).disp = s.disp := rfl
@[simp] theorem setR_fab (s : State) (a v : Nat) : (setR s a v).fab = s.fab := rfl
@[simp] theorem setR_fw (s : State) (a v : Nat) : (setR s a v).fw = s.fw := rfl
@[simp] theorem setR_conv (s : State) (a v : Nat) : (setR s a v).conv = s.conv := rfl
@[simp] theorem setR_xpt (s : State) (a v : Nat) : (setR s a v).xpt = s.xpt := rfl
@[simp] theorem setR_strm (s : State) (a v : Nat) : (setR s a v).strm = s.strm := rfl
@[simp] theorem setR_take (s : State) (a v : Nat) : (setR s a v).take = s.take := rfl
@[simp] theorem setR_pipe (s : State) (a v : Nat) : (setR s a v).pipe = s.pipe := rfl
@[simp] theorem setR_pair (s : State) (a v : Nat) : (setR s a v).pair = s.pair := rfl
@[simp] theorem setR_lio (s : State) (a v : Nat) : (setR s a v).lio = s.lio := rfl
@[simp] theorem setR_dram (s : State) (a v : Nat) : (setR s a v).dram = s.dram := rfl
@[simp] theorem setR_mem (s : State) (a v : Nat) : (setR s a v).mem = s.mem := rfl
@[simp] theorem setR_rdata (s : State) (a v : Nat) : (setR s a v).rdata = s.rdata := rfl
@[simp] theorem setR_freeCtr (s : State) (a v : Nat) : (setR s a v).freeCtr = s.freeCtr := rfl

/-! setF changes regs and nothing else. -/

@[simp] theorem setF_pending (s : State) (f : Fld) (v : Nat) : (setF s f v).pending = s.pending := rfl
@[simp] theorem setF_hw (s : State) (f : Fld) (v : Nat) : (setF s f v).hw = s.hw := rfl
@[simp] theorem setF_view (s : State) (f : Fld) (v : Nat) : (setF s f v).view = s.view := rfl
@[simp] theorem setF_latch (s : State) (f : Fld) (v : Nat) : (setF s f v).latch = s.latch := rfl
@[simp] theorem setF_tl (s : State) (f : Fld) (v : Nat) : (setF s f v).tl = s.tl := rfl
@[simp] theorem setF_log (s : State) (f : Fld) (v : Nat) : (setF s f v).log = s.log := rfl
@[simp] theorem setF_ccp (s : State) (f : Fld) (v : Nat) : (setF s f v).ccp = s.ccp := rfl
@[simp] theorem setF_pwr (s : State) (f : Fld) (v : Nat) : (setF s f v).pwr = s.pwr := rfl
@[simp] theorem setF_portA (s : State) (f : Fld) (v : Nat) : (setF s f v).portA = s.portA := rfl
@[simp] theorem setF_portB (s : State) (f : Fld) (v : Nat) : (setF s f v).portB = s.portB := rfl
@[simp] theorem setF_time (s : State) (f : Fld) (v : Nat) : (setF s f v).time = s.time := rfl
@[simp] theorem setF_clk (s : State) (f : Fld) (v : Nat) : (setF s f v).clk = s.clk := rfl
@[simp] theorem setF_geo (s : State) (f : Fld) (v : Nat) : (setF s f v).geo = s.geo := rfl
@[simp] theorem setF_path (s : State) (f : Fld) (v : Nat) : (setF s f v).path = s.path := rfl
@[simp] theorem setF_kpu (s : State) (f : Fld) (v : Nat) : (setF s f v).kpu = s.kpu := rfl
@[simp] theorem setF_disp (s : State) (f : Fld) (v : Nat) : (setF s f v).disp = s.disp := rfl
@[simp] theorem setF_fab (s : State) (f : Fld) (v : Nat) : (setF s f v).fab = s.fab := rfl
@[simp] theorem setF_fw (s : State) (f : Fld) (v : Nat) : (setF s f v).fw = s.fw := rfl
@[simp] theorem setF_conv (s : State) (f : Fld) (v : Nat) : (setF s f v).conv = s.conv := rfl
@[simp] theorem setF_xpt (s : State) (f : Fld) (v : Nat) : (setF s f v).xpt = s.xpt := rfl
@[simp] theorem setF_strm (s : State) (f : Fld) (v : Nat) : (setF s f v).strm = s.strm := rfl
@[simp] theorem setF_take (s : State) (f : Fld) (v : Nat) : (setF s f v).take = s.take := rfl
@[simp] theorem setF_pipe (s : State) (f : Fld) (v : Nat) : (setF s f v).pipe = s.pipe := rfl
@[simp] theorem setF_pair (s : State) (f : Fld) (v : Nat) : (setF s f v).pair = s.pair := rfl
@[simp] theorem setF_lio (s : State) (f : Fld) (v : Nat) : (setF s f v).lio = s.lio := rfl
@[simp] theorem setF_dram (s : State) (f : Fld) (v : Nat) : (setF s f v).dram = s.dram := rfl
@[simp] theorem setF_mem (s : State) (f : Fld) (v : Nat) : (setF s f v).mem = s.mem := rfl
@[simp] theorem setF_rdata (s : State) (f : Fld) (v : Nat) : (setF s f v).rdata = s.rdata := rfl
@[simp] theorem setF_freeCtr (s : State) (f : Fld) (v : Nat) : (setF s f v).freeCtr = s.freeCtr := rfl

/-! setFB changes regs and nothing else. -/

@[simp] theorem setFB_pending (s : State) (f : Fld) (b : Bool) : (setFB s f b).pending = s.pending := rfl
@[simp] theorem setFB_hw (s : State) (f : Fld) (b : Bool) : (setFB s f b).hw = s.hw := rfl
@[simp] theorem setFB_view (s : State) (f : Fld) (b : Bool) : (setFB s f b).view = s.view := rfl
@[simp] theorem setFB_latch (s : State) (f : Fld) (b : Bool) : (setFB s f b).latch = s.latch := rfl
@[simp] theorem setFB_tl (s : State) (f : Fld) (b : Bool) : (setFB s f b).tl = s.tl := rfl
@[simp] theorem setFB_log (s : State) (f : Fld) (b : Bool) : (setFB s f b).log = s.log := rfl
@[simp] theorem setFB_ccp (s : State) (f : Fld) (b : Bool) : (setFB s f b).ccp = s.ccp := rfl
@[simp] theorem setFB_pwr (s : State) (f : Fld) (b : Bool) : (setFB s f b).pwr = s.pwr := rfl
@[simp] theorem setFB_portA (s : State) (f : Fld) (b : Bool) : (setFB s f b).portA = s.portA := rfl
@[simp] theorem setFB_portB (s : State) (f : Fld) (b : Bool) : (setFB s f b).portB = s.portB := rfl
@[simp] theorem setFB_time (s : State) (f : Fld) (b : Bool) : (setFB s f b).time = s.time := rfl
@[simp] theorem setFB_clk (s : State) (f : Fld) (b : Bool) : (setFB s f b).clk = s.clk := rfl
@[simp] theorem setFB_geo (s : State) (f : Fld) (b : Bool) : (setFB s f b).geo = s.geo := rfl
@[simp] theorem setFB_path (s : State) (f : Fld) (b : Bool) : (setFB s f b).path = s.path := rfl
@[simp] theorem setFB_kpu (s : State) (f : Fld) (b : Bool) : (setFB s f b).kpu = s.kpu := rfl
@[simp] theorem setFB_disp (s : State) (f : Fld) (b : Bool) : (setFB s f b).disp = s.disp := rfl
@[simp] theorem setFB_fab (s : State) (f : Fld) (b : Bool) : (setFB s f b).fab = s.fab := rfl
@[simp] theorem setFB_fw (s : State) (f : Fld) (b : Bool) : (setFB s f b).fw = s.fw := rfl
@[simp] theorem setFB_conv (s : State) (f : Fld) (b : Bool) : (setFB s f b).conv = s.conv := rfl
@[simp] theorem setFB_xpt (s : State) (f : Fld) (b : Bool) : (setFB s f b).xpt = s.xpt := rfl
@[simp] theorem setFB_strm (s : State) (f : Fld) (b : Bool) : (setFB s f b).strm = s.strm := rfl
@[simp] theorem setFB_take (s : State) (f : Fld) (b : Bool) : (setFB s f b).take = s.take := rfl
@[simp] theorem setFB_pipe (s : State) (f : Fld) (b : Bool) : (setFB s f b).pipe = s.pipe := rfl
@[simp] theorem setFB_pair (s : State) (f : Fld) (b : Bool) : (setFB s f b).pair = s.pair := rfl
@[simp] theorem setFB_lio (s : State) (f : Fld) (b : Bool) : (setFB s f b).lio = s.lio := rfl
@[simp] theorem setFB_dram (s : State) (f : Fld) (b : Bool) : (setFB s f b).dram = s.dram := rfl
@[simp] theorem setFB_mem (s : State) (f : Fld) (b : Bool) : (setFB s f b).mem = s.mem := rfl
@[simp] theorem setFB_rdata (s : State) (f : Fld) (b : Bool) : (setFB s f b).rdata = s.rdata := rfl
@[simp] theorem setFB_freeCtr (s : State) (f : Fld) (b : Bool) : (setFB s f b).freeCtr = s.freeCtr := rfl

/-! addCtr changes regs and nothing else. -/

@[simp] theorem addCtr_pending (s : State) (a n : Nat) : (addCtr s a n).pending = s.pending := rfl
@[simp] theorem addCtr_hw (s : State) (a n : Nat) : (addCtr s a n).hw = s.hw := rfl
@[simp] theorem addCtr_view (s : State) (a n : Nat) : (addCtr s a n).view = s.view := rfl
@[simp] theorem addCtr_latch (s : State) (a n : Nat) : (addCtr s a n).latch = s.latch := rfl
@[simp] theorem addCtr_tl (s : State) (a n : Nat) : (addCtr s a n).tl = s.tl := rfl
@[simp] theorem addCtr_log (s : State) (a n : Nat) : (addCtr s a n).log = s.log := rfl
@[simp] theorem addCtr_ccp (s : State) (a n : Nat) : (addCtr s a n).ccp = s.ccp := rfl
@[simp] theorem addCtr_pwr (s : State) (a n : Nat) : (addCtr s a n).pwr = s.pwr := rfl
@[simp] theorem addCtr_portA (s : State) (a n : Nat) : (addCtr s a n).portA = s.portA := rfl
@[simp] theorem addCtr_portB (s : State) (a n : Nat) : (addCtr s a n).portB = s.portB := rfl
@[simp] theorem addCtr_time (s : State) (a n : Nat) : (addCtr s a n).time = s.time := rfl
@[simp] theorem addCtr_clk (s : State) (a n : Nat) : (addCtr s a n).clk = s.clk := rfl
@[simp] theorem addCtr_geo (s : State) (a n : Nat) : (addCtr s a n).geo = s.geo := rfl
@[simp] theorem addCtr_path (s : State) (a n : Nat) : (addCtr s a n).path = s.path := rfl
@[simp] theorem addCtr_kpu (s : State) (a n : Nat) : (addCtr s a n).kpu = s.kpu := rfl
@[simp] theorem addCtr_disp (s : State) (a n : Nat) : (addCtr s a n).disp = s.disp := rfl
@[simp] theorem addCtr_fab (s : State) (a n : Nat) : (addCtr s a n).fab = s.fab := rfl
@[simp] theorem addCtr_fw (s : State) (a n : Nat) : (addCtr s a n).fw = s.fw := rfl
@[simp] theorem addCtr_conv (s : State) (a n : Nat) : (addCtr s a n).conv = s.conv := rfl
@[simp] theorem addCtr_xpt (s : State) (a n : Nat) : (addCtr s a n).xpt = s.xpt := rfl
@[simp] theorem addCtr_strm (s : State) (a n : Nat) : (addCtr s a n).strm = s.strm := rfl
@[simp] theorem addCtr_take (s : State) (a n : Nat) : (addCtr s a n).take = s.take := rfl
@[simp] theorem addCtr_pipe (s : State) (a n : Nat) : (addCtr s a n).pipe = s.pipe := rfl
@[simp] theorem addCtr_pair (s : State) (a n : Nat) : (addCtr s a n).pair = s.pair := rfl
@[simp] theorem addCtr_lio (s : State) (a n : Nat) : (addCtr s a n).lio = s.lio := rfl
@[simp] theorem addCtr_dram (s : State) (a n : Nat) : (addCtr s a n).dram = s.dram := rfl
@[simp] theorem addCtr_mem (s : State) (a n : Nat) : (addCtr s a n).mem = s.mem := rfl
@[simp] theorem addCtr_rdata (s : State) (a n : Nat) : (addCtr s a n).rdata = s.rdata := rfl
@[simp] theorem addCtr_freeCtr (s : State) (a n : Nat) : (addCtr s a n).freeCtr = s.freeCtr := rfl

/-! addF changes regs and nothing else. -/

@[simp] theorem addF_pending (s : State) (f : Fld) (n : Nat) : (addF s f n).pending = s.pending := rfl
@[simp] theorem addF_hw (s : State) (f : Fld) (n : Nat) : (addF s f n).hw = s.hw := rfl
@[simp] theorem addF_view (s : State) (f : Fld) (n : Nat) : (addF s f n).view = s.view := rfl
@[simp] theorem addF_latch (s : State) (f : Fld) (n : Nat) : (addF s f n).latch = s.latch := rfl
@[simp] theorem addF_tl (s : State) (f : Fld) (n : Nat) : (addF s f n).tl = s.tl := rfl
@[simp] theorem addF_log (s : State) (f : Fld) (n : Nat) : (addF s f n).log = s.log := rfl
@[simp] theorem addF_ccp (s : State) (f : Fld) (n : Nat) : (addF s f n).ccp = s.ccp := rfl
@[simp] theorem addF_pwr (s : State) (f : Fld) (n : Nat) : (addF s f n).pwr = s.pwr := rfl
@[simp] theorem addF_portA (s : State) (f : Fld) (n : Nat) : (addF s f n).portA = s.portA := rfl
@[simp] theorem addF_portB (s : State) (f : Fld) (n : Nat) : (addF s f n).portB = s.portB := rfl
@[simp] theorem addF_time (s : State) (f : Fld) (n : Nat) : (addF s f n).time = s.time := rfl
@[simp] theorem addF_clk (s : State) (f : Fld) (n : Nat) : (addF s f n).clk = s.clk := rfl
@[simp] theorem addF_geo (s : State) (f : Fld) (n : Nat) : (addF s f n).geo = s.geo := rfl
@[simp] theorem addF_path (s : State) (f : Fld) (n : Nat) : (addF s f n).path = s.path := rfl
@[simp] theorem addF_kpu (s : State) (f : Fld) (n : Nat) : (addF s f n).kpu = s.kpu := rfl
@[simp] theorem addF_disp (s : State) (f : Fld) (n : Nat) : (addF s f n).disp = s.disp := rfl
@[simp] theorem addF_fab (s : State) (f : Fld) (n : Nat) : (addF s f n).fab = s.fab := rfl
@[simp] theorem addF_fw (s : State) (f : Fld) (n : Nat) : (addF s f n).fw = s.fw := rfl
@[simp] theorem addF_conv (s : State) (f : Fld) (n : Nat) : (addF s f n).conv = s.conv := rfl
@[simp] theorem addF_xpt (s : State) (f : Fld) (n : Nat) : (addF s f n).xpt = s.xpt := rfl
@[simp] theorem addF_strm (s : State) (f : Fld) (n : Nat) : (addF s f n).strm = s.strm := rfl
@[simp] theorem addF_take (s : State) (f : Fld) (n : Nat) : (addF s f n).take = s.take := rfl
@[simp] theorem addF_pipe (s : State) (f : Fld) (n : Nat) : (addF s f n).pipe = s.pipe := rfl
@[simp] theorem addF_pair (s : State) (f : Fld) (n : Nat) : (addF s f n).pair = s.pair := rfl
@[simp] theorem addF_lio (s : State) (f : Fld) (n : Nat) : (addF s f n).lio = s.lio := rfl
@[simp] theorem addF_dram (s : State) (f : Fld) (n : Nat) : (addF s f n).dram = s.dram := rfl
@[simp] theorem addF_mem (s : State) (f : Fld) (n : Nat) : (addF s f n).mem = s.mem := rfl
@[simp] theorem addF_rdata (s : State) (f : Fld) (n : Nat) : (addF s f n).rdata = s.rdata := rfl
@[simp] theorem addF_freeCtr (s : State) (f : Fld) (n : Nat) : (addF s f n).freeCtr = s.freeCtr := rfl

/-! maxF changes regs and nothing else. -/

@[simp] theorem maxF_pending (s : State) (f : Fld) (v : Nat) : (maxF s f v).pending = s.pending := by unfold maxF; split <;> rfl
@[simp] theorem maxF_hw (s : State) (f : Fld) (v : Nat) : (maxF s f v).hw = s.hw := by unfold maxF; split <;> rfl
@[simp] theorem maxF_view (s : State) (f : Fld) (v : Nat) : (maxF s f v).view = s.view := by unfold maxF; split <;> rfl
@[simp] theorem maxF_latch (s : State) (f : Fld) (v : Nat) : (maxF s f v).latch = s.latch := by unfold maxF; split <;> rfl
@[simp] theorem maxF_tl (s : State) (f : Fld) (v : Nat) : (maxF s f v).tl = s.tl := by unfold maxF; split <;> rfl
@[simp] theorem maxF_log (s : State) (f : Fld) (v : Nat) : (maxF s f v).log = s.log := by unfold maxF; split <;> rfl
@[simp] theorem maxF_ccp (s : State) (f : Fld) (v : Nat) : (maxF s f v).ccp = s.ccp := by unfold maxF; split <;> rfl
@[simp] theorem maxF_pwr (s : State) (f : Fld) (v : Nat) : (maxF s f v).pwr = s.pwr := by unfold maxF; split <;> rfl
@[simp] theorem maxF_portA (s : State) (f : Fld) (v : Nat) : (maxF s f v).portA = s.portA := by unfold maxF; split <;> rfl
@[simp] theorem maxF_portB (s : State) (f : Fld) (v : Nat) : (maxF s f v).portB = s.portB := by unfold maxF; split <;> rfl
@[simp] theorem maxF_time (s : State) (f : Fld) (v : Nat) : (maxF s f v).time = s.time := by unfold maxF; split <;> rfl
@[simp] theorem maxF_clk (s : State) (f : Fld) (v : Nat) : (maxF s f v).clk = s.clk := by unfold maxF; split <;> rfl
@[simp] theorem maxF_geo (s : State) (f : Fld) (v : Nat) : (maxF s f v).geo = s.geo := by unfold maxF; split <;> rfl
@[simp] theorem maxF_path (s : State) (f : Fld) (v : Nat) : (maxF s f v).path = s.path := by unfold maxF; split <;> rfl
@[simp] theorem maxF_kpu (s : State) (f : Fld) (v : Nat) : (maxF s f v).kpu = s.kpu := by unfold maxF; split <;> rfl
@[simp] theorem maxF_disp (s : State) (f : Fld) (v : Nat) : (maxF s f v).disp = s.disp := by unfold maxF; split <;> rfl
@[simp] theorem maxF_fab (s : State) (f : Fld) (v : Nat) : (maxF s f v).fab = s.fab := by unfold maxF; split <;> rfl
@[simp] theorem maxF_fw (s : State) (f : Fld) (v : Nat) : (maxF s f v).fw = s.fw := by unfold maxF; split <;> rfl
@[simp] theorem maxF_conv (s : State) (f : Fld) (v : Nat) : (maxF s f v).conv = s.conv := by unfold maxF; split <;> rfl
@[simp] theorem maxF_xpt (s : State) (f : Fld) (v : Nat) : (maxF s f v).xpt = s.xpt := by unfold maxF; split <;> rfl
@[simp] theorem maxF_strm (s : State) (f : Fld) (v : Nat) : (maxF s f v).strm = s.strm := by unfold maxF; split <;> rfl
@[simp] theorem maxF_take (s : State) (f : Fld) (v : Nat) : (maxF s f v).take = s.take := by unfold maxF; split <;> rfl
@[simp] theorem maxF_pipe (s : State) (f : Fld) (v : Nat) : (maxF s f v).pipe = s.pipe := by unfold maxF; split <;> rfl
@[simp] theorem maxF_pair (s : State) (f : Fld) (v : Nat) : (maxF s f v).pair = s.pair := by unfold maxF; split <;> rfl
@[simp] theorem maxF_lio (s : State) (f : Fld) (v : Nat) : (maxF s f v).lio = s.lio := by unfold maxF; split <;> rfl
@[simp] theorem maxF_dram (s : State) (f : Fld) (v : Nat) : (maxF s f v).dram = s.dram := by unfold maxF; split <;> rfl
@[simp] theorem maxF_mem (s : State) (f : Fld) (v : Nat) : (maxF s f v).mem = s.mem := by unfold maxF; split <;> rfl
@[simp] theorem maxF_rdata (s : State) (f : Fld) (v : Nat) : (maxF s f v).rdata = s.rdata := by unfold maxF; split <;> rfl
@[simp] theorem maxF_freeCtr (s : State) (f : Fld) (v : Nat) : (maxF s f v).freeCtr = s.freeCtr := by unfold maxF; split <;> rfl

/-! setR64 changes regs and nothing else. -/

@[simp] theorem setR64_pending (s : State) (lo hi v : Nat) : (setR64 s lo hi v).pending = s.pending := rfl
@[simp] theorem setR64_hw (s : State) (lo hi v : Nat) : (setR64 s lo hi v).hw = s.hw := rfl
@[simp] theorem setR64_view (s : State) (lo hi v : Nat) : (setR64 s lo hi v).view = s.view := rfl
@[simp] theorem setR64_latch (s : State) (lo hi v : Nat) : (setR64 s lo hi v).latch = s.latch := rfl
@[simp] theorem setR64_tl (s : State) (lo hi v : Nat) : (setR64 s lo hi v).tl = s.tl := rfl
@[simp] theorem setR64_log (s : State) (lo hi v : Nat) : (setR64 s lo hi v).log = s.log := rfl
@[simp] theorem setR64_ccp (s : State) (lo hi v : Nat) : (setR64 s lo hi v).ccp = s.ccp := rfl
@[simp] theorem setR64_pwr (s : State) (lo hi v : Nat) : (setR64 s lo hi v).pwr = s.pwr := rfl
@[simp] theorem setR64_portA (s : State) (lo hi v : Nat) : (setR64 s lo hi v).portA = s.portA := rfl
@[simp] theorem setR64_portB (s : State) (lo hi v : Nat) : (setR64 s lo hi v).portB = s.portB := rfl
@[simp] theorem setR64_time (s : State) (lo hi v : Nat) : (setR64 s lo hi v).time = s.time := rfl
@[simp] theorem setR64_clk (s : State) (lo hi v : Nat) : (setR64 s lo hi v).clk = s.clk := rfl
@[simp] theorem setR64_geo (s : State) (lo hi v : Nat) : (setR64 s lo hi v).geo = s.geo := rfl
@[simp] theorem setR64_path (s : State) (lo hi v : Nat) : (setR64 s lo hi v).path = s.path := rfl
@[simp] theorem setR64_kpu (s : State) (lo hi v : Nat) : (setR64 s lo hi v).kpu = s.kpu := rfl
@[simp] theorem setR64_disp (s : State) (lo hi v : Nat) : (setR64 s lo hi v).disp = s.disp := rfl
@[simp] theorem setR64_fab (s : State) (lo hi v : Nat) : (setR64 s lo hi v).fab = s.fab := rfl
@[simp] theorem setR64_fw (s : State) (lo hi v : Nat) : (setR64 s lo hi v).fw = s.fw := rfl
@[simp] theorem setR64_conv (s : State) (lo hi v : Nat) : (setR64 s lo hi v).conv = s.conv := rfl
@[simp] theorem setR64_xpt (s : State) (lo hi v : Nat) : (setR64 s lo hi v).xpt = s.xpt := rfl
@[simp] theorem setR64_strm (s : State) (lo hi v : Nat) : (setR64 s lo hi v).strm = s.strm := rfl
@[simp] theorem setR64_take (s : State) (lo hi v : Nat) : (setR64 s lo hi v).take = s.take := rfl
@[simp] theorem setR64_pipe (s : State) (lo hi v : Nat) : (setR64 s lo hi v).pipe = s.pipe := rfl
@[simp] theorem setR64_pair (s : State) (lo hi v : Nat) : (setR64 s lo hi v).pair = s.pair := rfl
@[simp] theorem setR64_lio (s : State) (lo hi v : Nat) : (setR64 s lo hi v).lio = s.lio := rfl
@[simp] theorem setR64_dram (s : State) (lo hi v : Nat) : (setR64 s lo hi v).dram = s.dram := rfl
@[simp] theorem setR64_mem (s : State) (lo hi v : Nat) : (setR64 s lo hi v).mem = s.mem := rfl
@[simp] theorem setR64_rdata (s : State) (lo hi v : Nat) : (setR64 s lo hi v).rdata = s.rdata := rfl
@[simp] theorem setR64_freeCtr (s : State) (lo hi v : Nat) : (setR64 s lo hi v).freeCtr = s.freeCtr := rfl

/-! stamp changes tl and nothing else. -/

@[simp] theorem stamp_pending (s : State) : (stamp s).pending = s.pending := rfl
@[simp] theorem stamp_hw (s : State) : (stamp s).hw = s.hw := rfl
@[simp] theorem stamp_regs (s : State) : (stamp s).regs = s.regs := rfl
@[simp] theorem stamp_view (s : State) : (stamp s).view = s.view := rfl
@[simp] theorem stamp_latch (s : State) : (stamp s).latch = s.latch := rfl
@[simp] theorem stamp_log (s : State) : (stamp s).log = s.log := rfl
@[simp] theorem stamp_ccp (s : State) : (stamp s).ccp = s.ccp := rfl
@[simp] theorem stamp_pwr (s : State) : (stamp s).pwr = s.pwr := rfl
@[simp] theorem stamp_portA (s : State) : (stamp s).portA = s.portA := rfl
@[simp] theorem stamp_portB (s : State) : (stamp s).portB = s.portB := rfl
@[simp] theorem stamp_time (s : State) : (stamp s).time = s.time := rfl
@[simp] theorem stamp_clk (s : State) : (stamp s).clk = s.clk := rfl
@[simp] theorem stamp_geo (s : State) : (stamp s).geo = s.geo := rfl
@[simp] theorem stamp_path (s : State) : (stamp s).path = s.path := rfl
@[simp] theorem stamp_kpu (s : State) : (stamp s).kpu = s.kpu := rfl
@[simp] theorem stamp_disp (s : State) : (stamp s).disp = s.disp := rfl
@[simp] theorem stamp_fab (s : State) : (stamp s).fab = s.fab := rfl
@[simp] theorem stamp_fw (s : State) : (stamp s).fw = s.fw := rfl
@[simp] theorem stamp_conv (s : State) : (stamp s).conv = s.conv := rfl
@[simp] theorem stamp_xpt (s : State) : (stamp s).xpt = s.xpt := rfl
@[simp] theorem stamp_strm (s : State) : (stamp s).strm = s.strm := rfl
@[simp] theorem stamp_take (s : State) : (stamp s).take = s.take := rfl
@[simp] theorem stamp_pipe (s : State) : (stamp s).pipe = s.pipe := rfl
@[simp] theorem stamp_pair (s : State) : (stamp s).pair = s.pair := rfl
@[simp] theorem stamp_lio (s : State) : (stamp s).lio = s.lio := rfl
@[simp] theorem stamp_dram (s : State) : (stamp s).dram = s.dram := rfl
@[simp] theorem stamp_mem (s : State) : (stamp s).mem = s.mem := rfl
@[simp] theorem stamp_rdata (s : State) : (stamp s).rdata = s.rdata := rfl
@[simp] theorem stamp_freeCtr (s : State) : (stamp s).freeCtr = s.freeCtr := rfl

/-! queueWrite changes ccp and nothing else. -/

@[simp] theorem queueWrite_pending (s : State) (a v : Nat) : (queueWrite s a v).pending = s.pending := rfl
@[simp] theorem queueWrite_hw (s : State) (a v : Nat) : (queueWrite s a v).hw = s.hw := rfl
@[simp] theorem queueWrite_regs (s : State) (a v : Nat) : (queueWrite s a v).regs = s.regs := rfl
@[simp] theorem queueWrite_view (s : State) (a v : Nat) : (queueWrite s a v).view = s.view := rfl
@[simp] theorem queueWrite_latch (s : State) (a v : Nat) : (queueWrite s a v).latch = s.latch := rfl
@[simp] theorem queueWrite_tl (s : State) (a v : Nat) : (queueWrite s a v).tl = s.tl := rfl
@[simp] theorem queueWrite_log (s : State) (a v : Nat) : (queueWrite s a v).log = s.log := rfl
@[simp] theorem queueWrite_pwr (s : State) (a v : Nat) : (queueWrite s a v).pwr = s.pwr := rfl
@[simp] theorem queueWrite_portA (s : State) (a v : Nat) : (queueWrite s a v).portA = s.portA := rfl
@[simp] theorem queueWrite_portB (s : State) (a v : Nat) : (queueWrite s a v).portB = s.portB := rfl
@[simp] theorem queueWrite_time (s : State) (a v : Nat) : (queueWrite s a v).time = s.time := rfl
@[simp] theorem queueWrite_clk (s : State) (a v : Nat) : (queueWrite s a v).clk = s.clk := rfl
@[simp] theorem queueWrite_geo (s : State) (a v : Nat) : (queueWrite s a v).geo = s.geo := rfl
@[simp] theorem queueWrite_path (s : State) (a v : Nat) : (queueWrite s a v).path = s.path := rfl
@[simp] theorem queueWrite_kpu (s : State) (a v : Nat) : (queueWrite s a v).kpu = s.kpu := rfl
@[simp] theorem queueWrite_disp (s : State) (a v : Nat) : (queueWrite s a v).disp = s.disp := rfl
@[simp] theorem queueWrite_fab (s : State) (a v : Nat) : (queueWrite s a v).fab = s.fab := rfl
@[simp] theorem queueWrite_fw (s : State) (a v : Nat) : (queueWrite s a v).fw = s.fw := rfl
@[simp] theorem queueWrite_conv (s : State) (a v : Nat) : (queueWrite s a v).conv = s.conv := rfl
@[simp] theorem queueWrite_xpt (s : State) (a v : Nat) : (queueWrite s a v).xpt = s.xpt := rfl
@[simp] theorem queueWrite_strm (s : State) (a v : Nat) : (queueWrite s a v).strm = s.strm := rfl
@[simp] theorem queueWrite_take (s : State) (a v : Nat) : (queueWrite s a v).take = s.take := rfl
@[simp] theorem queueWrite_pipe (s : State) (a v : Nat) : (queueWrite s a v).pipe = s.pipe := rfl
@[simp] theorem queueWrite_pair (s : State) (a v : Nat) : (queueWrite s a v).pair = s.pair := rfl
@[simp] theorem queueWrite_lio (s : State) (a v : Nat) : (queueWrite s a v).lio = s.lio := rfl
@[simp] theorem queueWrite_dram (s : State) (a v : Nat) : (queueWrite s a v).dram = s.dram := rfl
@[simp] theorem queueWrite_mem (s : State) (a v : Nat) : (queueWrite s a v).mem = s.mem := rfl
@[simp] theorem queueWrite_rdata (s : State) (a v : Nat) : (queueWrite s a v).rdata = s.rdata := rfl
@[simp] theorem queueWrite_freeCtr (s : State) (a v : Nat) : (queueWrite s a v).freeCtr = s.freeCtr := rfl

/-! pushEvent changes log and nothing else. -/

@[simp] theorem pushEvent_pending (s : State) (e : LogEvent) : (pushEvent s e).pending = s.pending := by unfold pushEvent; split <;> rfl
@[simp] theorem pushEvent_hw (s : State) (e : LogEvent) : (pushEvent s e).hw = s.hw := by unfold pushEvent; split <;> rfl
@[simp] theorem pushEvent_regs (s : State) (e : LogEvent) : (pushEvent s e).regs = s.regs := by unfold pushEvent; split <;> rfl
@[simp] theorem pushEvent_view (s : State) (e : LogEvent) : (pushEvent s e).view = s.view := by unfold pushEvent; split <;> rfl
@[simp] theorem pushEvent_latch (s : State) (e : LogEvent) : (pushEvent s e).latch = s.latch := by unfold pushEvent; split <;> rfl
@[simp] theorem pushEvent_tl (s : State) (e : LogEvent) : (pushEvent s e).tl = s.tl := by unfold pushEvent; split <;> rfl
@[simp] theorem pushEvent_ccp (s : State) (e : LogEvent) : (pushEvent s e).ccp = s.ccp := by unfold pushEvent; split <;> rfl
@[simp] theorem pushEvent_pwr (s : State) (e : LogEvent) : (pushEvent s e).pwr = s.pwr := by unfold pushEvent; split <;> rfl
@[simp] theorem pushEvent_portA (s : State) (e : LogEvent) : (pushEvent s e).portA = s.portA := by unfold pushEvent; split <;> rfl
@[simp] theorem pushEvent_portB (s : State) (e : LogEvent) : (pushEvent s e).portB = s.portB := by unfold pushEvent; split <;> rfl
@[simp] theorem pushEvent_time (s : State) (e : LogEvent) : (pushEvent s e).time = s.time := by unfold pushEvent; split <;> rfl
@[simp] theorem pushEvent_clk (s : State) (e : LogEvent) : (pushEvent s e).clk = s.clk := by unfold pushEvent; split <;> rfl
@[simp] theorem pushEvent_geo (s : State) (e : LogEvent) : (pushEvent s e).geo = s.geo := by unfold pushEvent; split <;> rfl
@[simp] theorem pushEvent_path (s : State) (e : LogEvent) : (pushEvent s e).path = s.path := by unfold pushEvent; split <;> rfl
@[simp] theorem pushEvent_kpu (s : State) (e : LogEvent) : (pushEvent s e).kpu = s.kpu := by unfold pushEvent; split <;> rfl
@[simp] theorem pushEvent_disp (s : State) (e : LogEvent) : (pushEvent s e).disp = s.disp := by unfold pushEvent; split <;> rfl
@[simp] theorem pushEvent_fab (s : State) (e : LogEvent) : (pushEvent s e).fab = s.fab := by unfold pushEvent; split <;> rfl
@[simp] theorem pushEvent_fw (s : State) (e : LogEvent) : (pushEvent s e).fw = s.fw := by unfold pushEvent; split <;> rfl
@[simp] theorem pushEvent_conv (s : State) (e : LogEvent) : (pushEvent s e).conv = s.conv := by unfold pushEvent; split <;> rfl
@[simp] theorem pushEvent_xpt (s : State) (e : LogEvent) : (pushEvent s e).xpt = s.xpt := by unfold pushEvent; split <;> rfl
@[simp] theorem pushEvent_strm (s : State) (e : LogEvent) : (pushEvent s e).strm = s.strm := by unfold pushEvent; split <;> rfl
@[simp] theorem pushEvent_take (s : State) (e : LogEvent) : (pushEvent s e).take = s.take := by unfold pushEvent; split <;> rfl
@[simp] theorem pushEvent_pipe (s : State) (e : LogEvent) : (pushEvent s e).pipe = s.pipe := by unfold pushEvent; split <;> rfl
@[simp] theorem pushEvent_pair (s : State) (e : LogEvent) : (pushEvent s e).pair = s.pair := by unfold pushEvent; split <;> rfl
@[simp] theorem pushEvent_lio (s : State) (e : LogEvent) : (pushEvent s e).lio = s.lio := by unfold pushEvent; split <;> rfl
@[simp] theorem pushEvent_dram (s : State) (e : LogEvent) : (pushEvent s e).dram = s.dram := by unfold pushEvent; split <;> rfl
@[simp] theorem pushEvent_mem (s : State) (e : LogEvent) : (pushEvent s e).mem = s.mem := by unfold pushEvent; split <;> rfl
@[simp] theorem pushEvent_rdata (s : State) (e : LogEvent) : (pushEvent s e).rdata = s.rdata := by unfold pushEvent; split <;> rfl
@[simp] theorem pushEvent_freeCtr (s : State) (e : LogEvent) : (pushEvent s e).freeCtr = s.freeCtr := by unfold pushEvent; split <;> rfl

/-! setCore changes kpu and nothing else. -/

@[simp] theorem setCore_pending (s : State) (k : Nat) (c : Core) : (setCore s k c).pending = s.pending := rfl
@[simp] theorem setCore_hw (s : State) (k : Nat) (c : Core) : (setCore s k c).hw = s.hw := rfl
@[simp] theorem setCore_regs (s : State) (k : Nat) (c : Core) : (setCore s k c).regs = s.regs := rfl
@[simp] theorem setCore_view (s : State) (k : Nat) (c : Core) : (setCore s k c).view = s.view := rfl
@[simp] theorem setCore_latch (s : State) (k : Nat) (c : Core) : (setCore s k c).latch = s.latch := rfl
@[simp] theorem setCore_tl (s : State) (k : Nat) (c : Core) : (setCore s k c).tl = s.tl := rfl
@[simp] theorem setCore_log (s : State) (k : Nat) (c : Core) : (setCore s k c).log = s.log := rfl
@[simp] theorem setCore_ccp (s : State) (k : Nat) (c : Core) : (setCore s k c).ccp = s.ccp := rfl
@[simp] theorem setCore_pwr (s : State) (k : Nat) (c : Core) : (setCore s k c).pwr = s.pwr := rfl
@[simp] theorem setCore_portA (s : State) (k : Nat) (c : Core) : (setCore s k c).portA = s.portA := rfl
@[simp] theorem setCore_portB (s : State) (k : Nat) (c : Core) : (setCore s k c).portB = s.portB := rfl
@[simp] theorem setCore_time (s : State) (k : Nat) (c : Core) : (setCore s k c).time = s.time := rfl
@[simp] theorem setCore_clk (s : State) (k : Nat) (c : Core) : (setCore s k c).clk = s.clk := rfl
@[simp] theorem setCore_geo (s : State) (k : Nat) (c : Core) : (setCore s k c).geo = s.geo := rfl
@[simp] theorem setCore_path (s : State) (k : Nat) (c : Core) : (setCore s k c).path = s.path := rfl
@[simp] theorem setCore_disp (s : State) (k : Nat) (c : Core) : (setCore s k c).disp = s.disp := rfl
@[simp] theorem setCore_fab (s : State) (k : Nat) (c : Core) : (setCore s k c).fab = s.fab := rfl
@[simp] theorem setCore_fw (s : State) (k : Nat) (c : Core) : (setCore s k c).fw = s.fw := rfl
@[simp] theorem setCore_conv (s : State) (k : Nat) (c : Core) : (setCore s k c).conv = s.conv := rfl
@[simp] theorem setCore_xpt (s : State) (k : Nat) (c : Core) : (setCore s k c).xpt = s.xpt := rfl
@[simp] theorem setCore_strm (s : State) (k : Nat) (c : Core) : (setCore s k c).strm = s.strm := rfl
@[simp] theorem setCore_take (s : State) (k : Nat) (c : Core) : (setCore s k c).take = s.take := rfl
@[simp] theorem setCore_pipe (s : State) (k : Nat) (c : Core) : (setCore s k c).pipe = s.pipe := rfl
@[simp] theorem setCore_pair (s : State) (k : Nat) (c : Core) : (setCore s k c).pair = s.pair := rfl
@[simp] theorem setCore_lio (s : State) (k : Nat) (c : Core) : (setCore s k c).lio = s.lio := rfl
@[simp] theorem setCore_dram (s : State) (k : Nat) (c : Core) : (setCore s k c).dram = s.dram := rfl
@[simp] theorem setCore_mem (s : State) (k : Nat) (c : Core) : (setCore s k c).mem = s.mem := rfl
@[simp] theorem setCore_rdata (s : State) (k : Nat) (c : Core) : (setCore s k c).rdata = s.rdata := rfl
@[simp] theorem setCore_freeCtr (s : State) (k : Nat) (c : Core) : (setCore s k c).freeCtr = s.freeCtr := rfl

/-! setBank changes disp and nothing else. -/

@[simp] theorem setBank_pending (s : State) (b : Nat) (v : Option Bank) : (setBank s b v).pending = s.pending := by unfold setBank; split <;> rfl
@[simp] theorem setBank_hw (s : State) (b : Nat) (v : Option Bank) : (setBank s b v).hw = s.hw := by unfold setBank; split <;> rfl
@[simp] theorem setBank_regs (s : State) (b : Nat) (v : Option Bank) : (setBank s b v).regs = s.regs := by unfold setBank; split <;> rfl
@[simp] theorem setBank_view (s : State) (b : Nat) (v : Option Bank) : (setBank s b v).view = s.view := by unfold setBank; split <;> rfl
@[simp] theorem setBank_latch (s : State) (b : Nat) (v : Option Bank) : (setBank s b v).latch = s.latch := by unfold setBank; split <;> rfl
@[simp] theorem setBank_tl (s : State) (b : Nat) (v : Option Bank) : (setBank s b v).tl = s.tl := by unfold setBank; split <;> rfl
@[simp] theorem setBank_log (s : State) (b : Nat) (v : Option Bank) : (setBank s b v).log = s.log := by unfold setBank; split <;> rfl
@[simp] theorem setBank_ccp (s : State) (b : Nat) (v : Option Bank) : (setBank s b v).ccp = s.ccp := by unfold setBank; split <;> rfl
@[simp] theorem setBank_pwr (s : State) (b : Nat) (v : Option Bank) : (setBank s b v).pwr = s.pwr := by unfold setBank; split <;> rfl
@[simp] theorem setBank_portA (s : State) (b : Nat) (v : Option Bank) : (setBank s b v).portA = s.portA := by unfold setBank; split <;> rfl
@[simp] theorem setBank_portB (s : State) (b : Nat) (v : Option Bank) : (setBank s b v).portB = s.portB := by unfold setBank; split <;> rfl
@[simp] theorem setBank_time (s : State) (b : Nat) (v : Option Bank) : (setBank s b v).time = s.time := by unfold setBank; split <;> rfl
@[simp] theorem setBank_clk (s : State) (b : Nat) (v : Option Bank) : (setBank s b v).clk = s.clk := by unfold setBank; split <;> rfl
@[simp] theorem setBank_geo (s : State) (b : Nat) (v : Option Bank) : (setBank s b v).geo = s.geo := by unfold setBank; split <;> rfl
@[simp] theorem setBank_path (s : State) (b : Nat) (v : Option Bank) : (setBank s b v).path = s.path := by unfold setBank; split <;> rfl
@[simp] theorem setBank_kpu (s : State) (b : Nat) (v : Option Bank) : (setBank s b v).kpu = s.kpu := by unfold setBank; split <;> rfl
@[simp] theorem setBank_fab (s : State) (b : Nat) (v : Option Bank) : (setBank s b v).fab = s.fab := by unfold setBank; split <;> rfl
@[simp] theorem setBank_fw (s : State) (b : Nat) (v : Option Bank) : (setBank s b v).fw = s.fw := by unfold setBank; split <;> rfl
@[simp] theorem setBank_conv (s : State) (b : Nat) (v : Option Bank) : (setBank s b v).conv = s.conv := by unfold setBank; split <;> rfl
@[simp] theorem setBank_xpt (s : State) (b : Nat) (v : Option Bank) : (setBank s b v).xpt = s.xpt := by unfold setBank; split <;> rfl
@[simp] theorem setBank_strm (s : State) (b : Nat) (v : Option Bank) : (setBank s b v).strm = s.strm := by unfold setBank; split <;> rfl
@[simp] theorem setBank_take (s : State) (b : Nat) (v : Option Bank) : (setBank s b v).take = s.take := by unfold setBank; split <;> rfl
@[simp] theorem setBank_pipe (s : State) (b : Nat) (v : Option Bank) : (setBank s b v).pipe = s.pipe := by unfold setBank; split <;> rfl
@[simp] theorem setBank_pair (s : State) (b : Nat) (v : Option Bank) : (setBank s b v).pair = s.pair := by unfold setBank; split <;> rfl
@[simp] theorem setBank_lio (s : State) (b : Nat) (v : Option Bank) : (setBank s b v).lio = s.lio := by unfold setBank; split <;> rfl
@[simp] theorem setBank_dram (s : State) (b : Nat) (v : Option Bank) : (setBank s b v).dram = s.dram := by unfold setBank; split <;> rfl
@[simp] theorem setBank_mem (s : State) (b : Nat) (v : Option Bank) : (setBank s b v).mem = s.mem := by unfold setBank; split <;> rfl
@[simp] theorem setBank_rdata (s : State) (b : Nat) (v : Option Bank) : (setBank s b v).rdata = s.rdata := by unfold setBank; split <;> rfl
@[simp] theorem setBank_freeCtr (s : State) (b : Nat) (v : Option Bank) : (setBank s b v).freeCtr = s.freeCtr := by unfold setBank; split <;> rfl

/-! setPort changes portA and portB and nothing else. -/

@[simp] theorem setPort_pending (s : State) (p : Nat) (v : PortSt) : (setPort s p v).pending = s.pending := by unfold setPort; split <;> rfl
@[simp] theorem setPort_hw (s : State) (p : Nat) (v : PortSt) : (setPort s p v).hw = s.hw := by unfold setPort; split <;> rfl
@[simp] theorem setPort_regs (s : State) (p : Nat) (v : PortSt) : (setPort s p v).regs = s.regs := by unfold setPort; split <;> rfl
@[simp] theorem setPort_view (s : State) (p : Nat) (v : PortSt) : (setPort s p v).view = s.view := by unfold setPort; split <;> rfl
@[simp] theorem setPort_latch (s : State) (p : Nat) (v : PortSt) : (setPort s p v).latch = s.latch := by unfold setPort; split <;> rfl
@[simp] theorem setPort_tl (s : State) (p : Nat) (v : PortSt) : (setPort s p v).tl = s.tl := by unfold setPort; split <;> rfl
@[simp] theorem setPort_log (s : State) (p : Nat) (v : PortSt) : (setPort s p v).log = s.log := by unfold setPort; split <;> rfl
@[simp] theorem setPort_ccp (s : State) (p : Nat) (v : PortSt) : (setPort s p v).ccp = s.ccp := by unfold setPort; split <;> rfl
@[simp] theorem setPort_pwr (s : State) (p : Nat) (v : PortSt) : (setPort s p v).pwr = s.pwr := by unfold setPort; split <;> rfl
@[simp] theorem setPort_time (s : State) (p : Nat) (v : PortSt) : (setPort s p v).time = s.time := by unfold setPort; split <;> rfl
@[simp] theorem setPort_clk (s : State) (p : Nat) (v : PortSt) : (setPort s p v).clk = s.clk := by unfold setPort; split <;> rfl
@[simp] theorem setPort_geo (s : State) (p : Nat) (v : PortSt) : (setPort s p v).geo = s.geo := by unfold setPort; split <;> rfl
@[simp] theorem setPort_path (s : State) (p : Nat) (v : PortSt) : (setPort s p v).path = s.path := by unfold setPort; split <;> rfl
@[simp] theorem setPort_kpu (s : State) (p : Nat) (v : PortSt) : (setPort s p v).kpu = s.kpu := by unfold setPort; split <;> rfl
@[simp] theorem setPort_disp (s : State) (p : Nat) (v : PortSt) : (setPort s p v).disp = s.disp := by unfold setPort; split <;> rfl
@[simp] theorem setPort_fab (s : State) (p : Nat) (v : PortSt) : (setPort s p v).fab = s.fab := by unfold setPort; split <;> rfl
@[simp] theorem setPort_fw (s : State) (p : Nat) (v : PortSt) : (setPort s p v).fw = s.fw := by unfold setPort; split <;> rfl
@[simp] theorem setPort_conv (s : State) (p : Nat) (v : PortSt) : (setPort s p v).conv = s.conv := by unfold setPort; split <;> rfl
@[simp] theorem setPort_xpt (s : State) (p : Nat) (v : PortSt) : (setPort s p v).xpt = s.xpt := by unfold setPort; split <;> rfl
@[simp] theorem setPort_strm (s : State) (p : Nat) (v : PortSt) : (setPort s p v).strm = s.strm := by unfold setPort; split <;> rfl
@[simp] theorem setPort_take (s : State) (p : Nat) (v : PortSt) : (setPort s p v).take = s.take := by unfold setPort; split <;> rfl
@[simp] theorem setPort_pipe (s : State) (p : Nat) (v : PortSt) : (setPort s p v).pipe = s.pipe := by unfold setPort; split <;> rfl
@[simp] theorem setPort_pair (s : State) (p : Nat) (v : PortSt) : (setPort s p v).pair = s.pair := by unfold setPort; split <;> rfl
@[simp] theorem setPort_lio (s : State) (p : Nat) (v : PortSt) : (setPort s p v).lio = s.lio := by unfold setPort; split <;> rfl
@[simp] theorem setPort_dram (s : State) (p : Nat) (v : PortSt) : (setPort s p v).dram = s.dram := by unfold setPort; split <;> rfl
@[simp] theorem setPort_mem (s : State) (p : Nat) (v : PortSt) : (setPort s p v).mem = s.mem := by unfold setPort; split <;> rfl
@[simp] theorem setPort_rdata (s : State) (p : Nat) (v : PortSt) : (setPort s p v).rdata = s.rdata := by unfold setPort; split <;> rfl
@[simp] theorem setPort_freeCtr (s : State) (p : Nat) (v : PortSt) : (setPort s p v).freeCtr = s.freeCtr := by unfold setPort; split <;> rfl

/-! setServo changes time and nothing else. -/

@[simp] theorem setServo_pending (s : State) (p : Nat) (v : Servo) : (setServo s p v).pending = s.pending := by unfold setServo; split <;> rfl
@[simp] theorem setServo_hw (s : State) (p : Nat) (v : Servo) : (setServo s p v).hw = s.hw := by unfold setServo; split <;> rfl
@[simp] theorem setServo_regs (s : State) (p : Nat) (v : Servo) : (setServo s p v).regs = s.regs := by unfold setServo; split <;> rfl
@[simp] theorem setServo_view (s : State) (p : Nat) (v : Servo) : (setServo s p v).view = s.view := by unfold setServo; split <;> rfl
@[simp] theorem setServo_latch (s : State) (p : Nat) (v : Servo) : (setServo s p v).latch = s.latch := by unfold setServo; split <;> rfl
@[simp] theorem setServo_tl (s : State) (p : Nat) (v : Servo) : (setServo s p v).tl = s.tl := by unfold setServo; split <;> rfl
@[simp] theorem setServo_log (s : State) (p : Nat) (v : Servo) : (setServo s p v).log = s.log := by unfold setServo; split <;> rfl
@[simp] theorem setServo_ccp (s : State) (p : Nat) (v : Servo) : (setServo s p v).ccp = s.ccp := by unfold setServo; split <;> rfl
@[simp] theorem setServo_pwr (s : State) (p : Nat) (v : Servo) : (setServo s p v).pwr = s.pwr := by unfold setServo; split <;> rfl
@[simp] theorem setServo_portA (s : State) (p : Nat) (v : Servo) : (setServo s p v).portA = s.portA := by unfold setServo; split <;> rfl
@[simp] theorem setServo_portB (s : State) (p : Nat) (v : Servo) : (setServo s p v).portB = s.portB := by unfold setServo; split <;> rfl
@[simp] theorem setServo_clk (s : State) (p : Nat) (v : Servo) : (setServo s p v).clk = s.clk := by unfold setServo; split <;> rfl
@[simp] theorem setServo_geo (s : State) (p : Nat) (v : Servo) : (setServo s p v).geo = s.geo := by unfold setServo; split <;> rfl
@[simp] theorem setServo_path (s : State) (p : Nat) (v : Servo) : (setServo s p v).path = s.path := by unfold setServo; split <;> rfl
@[simp] theorem setServo_kpu (s : State) (p : Nat) (v : Servo) : (setServo s p v).kpu = s.kpu := by unfold setServo; split <;> rfl
@[simp] theorem setServo_disp (s : State) (p : Nat) (v : Servo) : (setServo s p v).disp = s.disp := by unfold setServo; split <;> rfl
@[simp] theorem setServo_fab (s : State) (p : Nat) (v : Servo) : (setServo s p v).fab = s.fab := by unfold setServo; split <;> rfl
@[simp] theorem setServo_fw (s : State) (p : Nat) (v : Servo) : (setServo s p v).fw = s.fw := by unfold setServo; split <;> rfl
@[simp] theorem setServo_conv (s : State) (p : Nat) (v : Servo) : (setServo s p v).conv = s.conv := by unfold setServo; split <;> rfl
@[simp] theorem setServo_xpt (s : State) (p : Nat) (v : Servo) : (setServo s p v).xpt = s.xpt := by unfold setServo; split <;> rfl
@[simp] theorem setServo_strm (s : State) (p : Nat) (v : Servo) : (setServo s p v).strm = s.strm := by unfold setServo; split <;> rfl
@[simp] theorem setServo_take (s : State) (p : Nat) (v : Servo) : (setServo s p v).take = s.take := by unfold setServo; split <;> rfl
@[simp] theorem setServo_pipe (s : State) (p : Nat) (v : Servo) : (setServo s p v).pipe = s.pipe := by unfold setServo; split <;> rfl
@[simp] theorem setServo_pair (s : State) (p : Nat) (v : Servo) : (setServo s p v).pair = s.pair := by unfold setServo; split <;> rfl
@[simp] theorem setServo_lio (s : State) (p : Nat) (v : Servo) : (setServo s p v).lio = s.lio := by unfold setServo; split <;> rfl
@[simp] theorem setServo_dram (s : State) (p : Nat) (v : Servo) : (setServo s p v).dram = s.dram := by unfold setServo; split <;> rfl
@[simp] theorem setServo_mem (s : State) (p : Nat) (v : Servo) : (setServo s p v).mem = s.mem := by unfold setServo; split <;> rfl
@[simp] theorem setServo_rdata (s : State) (p : Nat) (v : Servo) : (setServo s p v).rdata = s.rdata := by unfold setServo; split <;> rfl
@[simp] theorem setServo_freeCtr (s : State) (p : Nat) (v : Servo) : (setServo s p v).freeCtr = s.freeCtr := by unfold setServo; split <;> rfl

/-! setRef changes clk and nothing else. -/

@[simp] theorem setRef_pending (s : State) (r : Nat) (v : RefSt) : (setRef s r v).pending = s.pending := rfl
@[simp] theorem setRef_hw (s : State) (r : Nat) (v : RefSt) : (setRef s r v).hw = s.hw := rfl
@[simp] theorem setRef_regs (s : State) (r : Nat) (v : RefSt) : (setRef s r v).regs = s.regs := rfl
@[simp] theorem setRef_view (s : State) (r : Nat) (v : RefSt) : (setRef s r v).view = s.view := rfl
@[simp] theorem setRef_latch (s : State) (r : Nat) (v : RefSt) : (setRef s r v).latch = s.latch := rfl
@[simp] theorem setRef_tl (s : State) (r : Nat) (v : RefSt) : (setRef s r v).tl = s.tl := rfl
@[simp] theorem setRef_log (s : State) (r : Nat) (v : RefSt) : (setRef s r v).log = s.log := rfl
@[simp] theorem setRef_ccp (s : State) (r : Nat) (v : RefSt) : (setRef s r v).ccp = s.ccp := rfl
@[simp] theorem setRef_pwr (s : State) (r : Nat) (v : RefSt) : (setRef s r v).pwr = s.pwr := rfl
@[simp] theorem setRef_portA (s : State) (r : Nat) (v : RefSt) : (setRef s r v).portA = s.portA := rfl
@[simp] theorem setRef_portB (s : State) (r : Nat) (v : RefSt) : (setRef s r v).portB = s.portB := rfl
@[simp] theorem setRef_time (s : State) (r : Nat) (v : RefSt) : (setRef s r v).time = s.time := rfl
@[simp] theorem setRef_geo (s : State) (r : Nat) (v : RefSt) : (setRef s r v).geo = s.geo := rfl
@[simp] theorem setRef_path (s : State) (r : Nat) (v : RefSt) : (setRef s r v).path = s.path := rfl
@[simp] theorem setRef_kpu (s : State) (r : Nat) (v : RefSt) : (setRef s r v).kpu = s.kpu := rfl
@[simp] theorem setRef_disp (s : State) (r : Nat) (v : RefSt) : (setRef s r v).disp = s.disp := rfl
@[simp] theorem setRef_fab (s : State) (r : Nat) (v : RefSt) : (setRef s r v).fab = s.fab := rfl
@[simp] theorem setRef_fw (s : State) (r : Nat) (v : RefSt) : (setRef s r v).fw = s.fw := rfl
@[simp] theorem setRef_conv (s : State) (r : Nat) (v : RefSt) : (setRef s r v).conv = s.conv := rfl
@[simp] theorem setRef_xpt (s : State) (r : Nat) (v : RefSt) : (setRef s r v).xpt = s.xpt := rfl
@[simp] theorem setRef_strm (s : State) (r : Nat) (v : RefSt) : (setRef s r v).strm = s.strm := rfl
@[simp] theorem setRef_take (s : State) (r : Nat) (v : RefSt) : (setRef s r v).take = s.take := rfl
@[simp] theorem setRef_pipe (s : State) (r : Nat) (v : RefSt) : (setRef s r v).pipe = s.pipe := rfl
@[simp] theorem setRef_pair (s : State) (r : Nat) (v : RefSt) : (setRef s r v).pair = s.pair := rfl
@[simp] theorem setRef_lio (s : State) (r : Nat) (v : RefSt) : (setRef s r v).lio = s.lio := rfl
@[simp] theorem setRef_dram (s : State) (r : Nat) (v : RefSt) : (setRef s r v).dram = s.dram := rfl
@[simp] theorem setRef_mem (s : State) (r : Nat) (v : RefSt) : (setRef s r v).mem = s.mem := rfl
@[simp] theorem setRef_rdata (s : State) (r : Nat) (v : RefSt) : (setRef s r v).rdata = s.rdata := rfl
@[simp] theorem setRef_freeCtr (s : State) (r : Nat) (v : RefSt) : (setRef s r v).freeCtr = s.freeCtr := rfl

/-! setChan changes conv and nothing else. -/

@[simp] theorem setChan_pending (s : State) (c : Nat) (v : ConvCh) : (setChan s c v).pending = s.pending := rfl
@[simp] theorem setChan_hw (s : State) (c : Nat) (v : ConvCh) : (setChan s c v).hw = s.hw := rfl
@[simp] theorem setChan_regs (s : State) (c : Nat) (v : ConvCh) : (setChan s c v).regs = s.regs := rfl
@[simp] theorem setChan_view (s : State) (c : Nat) (v : ConvCh) : (setChan s c v).view = s.view := rfl
@[simp] theorem setChan_latch (s : State) (c : Nat) (v : ConvCh) : (setChan s c v).latch = s.latch := rfl
@[simp] theorem setChan_tl (s : State) (c : Nat) (v : ConvCh) : (setChan s c v).tl = s.tl := rfl
@[simp] theorem setChan_log (s : State) (c : Nat) (v : ConvCh) : (setChan s c v).log = s.log := rfl
@[simp] theorem setChan_ccp (s : State) (c : Nat) (v : ConvCh) : (setChan s c v).ccp = s.ccp := rfl
@[simp] theorem setChan_pwr (s : State) (c : Nat) (v : ConvCh) : (setChan s c v).pwr = s.pwr := rfl
@[simp] theorem setChan_portA (s : State) (c : Nat) (v : ConvCh) : (setChan s c v).portA = s.portA := rfl
@[simp] theorem setChan_portB (s : State) (c : Nat) (v : ConvCh) : (setChan s c v).portB = s.portB := rfl
@[simp] theorem setChan_time (s : State) (c : Nat) (v : ConvCh) : (setChan s c v).time = s.time := rfl
@[simp] theorem setChan_clk (s : State) (c : Nat) (v : ConvCh) : (setChan s c v).clk = s.clk := rfl
@[simp] theorem setChan_geo (s : State) (c : Nat) (v : ConvCh) : (setChan s c v).geo = s.geo := rfl
@[simp] theorem setChan_path (s : State) (c : Nat) (v : ConvCh) : (setChan s c v).path = s.path := rfl
@[simp] theorem setChan_kpu (s : State) (c : Nat) (v : ConvCh) : (setChan s c v).kpu = s.kpu := rfl
@[simp] theorem setChan_disp (s : State) (c : Nat) (v : ConvCh) : (setChan s c v).disp = s.disp := rfl
@[simp] theorem setChan_fab (s : State) (c : Nat) (v : ConvCh) : (setChan s c v).fab = s.fab := rfl
@[simp] theorem setChan_fw (s : State) (c : Nat) (v : ConvCh) : (setChan s c v).fw = s.fw := rfl
@[simp] theorem setChan_xpt (s : State) (c : Nat) (v : ConvCh) : (setChan s c v).xpt = s.xpt := rfl
@[simp] theorem setChan_strm (s : State) (c : Nat) (v : ConvCh) : (setChan s c v).strm = s.strm := rfl
@[simp] theorem setChan_take (s : State) (c : Nat) (v : ConvCh) : (setChan s c v).take = s.take := rfl
@[simp] theorem setChan_pipe (s : State) (c : Nat) (v : ConvCh) : (setChan s c v).pipe = s.pipe := rfl
@[simp] theorem setChan_pair (s : State) (c : Nat) (v : ConvCh) : (setChan s c v).pair = s.pair := rfl
@[simp] theorem setChan_lio (s : State) (c : Nat) (v : ConvCh) : (setChan s c v).lio = s.lio := rfl
@[simp] theorem setChan_dram (s : State) (c : Nat) (v : ConvCh) : (setChan s c v).dram = s.dram := rfl
@[simp] theorem setChan_mem (s : State) (c : Nat) (v : ConvCh) : (setChan s c v).mem = s.mem := rfl
@[simp] theorem setChan_rdata (s : State) (c : Nat) (v : ConvCh) : (setChan s c v).rdata = s.rdata := rfl
@[simp] theorem setChan_freeCtr (s : State) (c : Nat) (v : ConvCh) : (setChan s c v).freeCtr = s.freeCtr := rfl

/-! setTdm changes lio and nothing else. -/

@[simp] theorem setTdm_pending (s : State) (p : Nat) (v : TdmPort) : (setTdm s p v).pending = s.pending := rfl
@[simp] theorem setTdm_hw (s : State) (p : Nat) (v : TdmPort) : (setTdm s p v).hw = s.hw := rfl
@[simp] theorem setTdm_regs (s : State) (p : Nat) (v : TdmPort) : (setTdm s p v).regs = s.regs := rfl
@[simp] theorem setTdm_view (s : State) (p : Nat) (v : TdmPort) : (setTdm s p v).view = s.view := rfl
@[simp] theorem setTdm_latch (s : State) (p : Nat) (v : TdmPort) : (setTdm s p v).latch = s.latch := rfl
@[simp] theorem setTdm_tl (s : State) (p : Nat) (v : TdmPort) : (setTdm s p v).tl = s.tl := rfl
@[simp] theorem setTdm_log (s : State) (p : Nat) (v : TdmPort) : (setTdm s p v).log = s.log := rfl
@[simp] theorem setTdm_ccp (s : State) (p : Nat) (v : TdmPort) : (setTdm s p v).ccp = s.ccp := rfl
@[simp] theorem setTdm_pwr (s : State) (p : Nat) (v : TdmPort) : (setTdm s p v).pwr = s.pwr := rfl
@[simp] theorem setTdm_portA (s : State) (p : Nat) (v : TdmPort) : (setTdm s p v).portA = s.portA := rfl
@[simp] theorem setTdm_portB (s : State) (p : Nat) (v : TdmPort) : (setTdm s p v).portB = s.portB := rfl
@[simp] theorem setTdm_time (s : State) (p : Nat) (v : TdmPort) : (setTdm s p v).time = s.time := rfl
@[simp] theorem setTdm_clk (s : State) (p : Nat) (v : TdmPort) : (setTdm s p v).clk = s.clk := rfl
@[simp] theorem setTdm_geo (s : State) (p : Nat) (v : TdmPort) : (setTdm s p v).geo = s.geo := rfl
@[simp] theorem setTdm_path (s : State) (p : Nat) (v : TdmPort) : (setTdm s p v).path = s.path := rfl
@[simp] theorem setTdm_kpu (s : State) (p : Nat) (v : TdmPort) : (setTdm s p v).kpu = s.kpu := rfl
@[simp] theorem setTdm_disp (s : State) (p : Nat) (v : TdmPort) : (setTdm s p v).disp = s.disp := rfl
@[simp] theorem setTdm_fab (s : State) (p : Nat) (v : TdmPort) : (setTdm s p v).fab = s.fab := rfl
@[simp] theorem setTdm_fw (s : State) (p : Nat) (v : TdmPort) : (setTdm s p v).fw = s.fw := rfl
@[simp] theorem setTdm_conv (s : State) (p : Nat) (v : TdmPort) : (setTdm s p v).conv = s.conv := rfl
@[simp] theorem setTdm_xpt (s : State) (p : Nat) (v : TdmPort) : (setTdm s p v).xpt = s.xpt := rfl
@[simp] theorem setTdm_strm (s : State) (p : Nat) (v : TdmPort) : (setTdm s p v).strm = s.strm := rfl
@[simp] theorem setTdm_take (s : State) (p : Nat) (v : TdmPort) : (setTdm s p v).take = s.take := rfl
@[simp] theorem setTdm_pipe (s : State) (p : Nat) (v : TdmPort) : (setTdm s p v).pipe = s.pipe := rfl
@[simp] theorem setTdm_pair (s : State) (p : Nat) (v : TdmPort) : (setTdm s p v).pair = s.pair := rfl
@[simp] theorem setTdm_dram (s : State) (p : Nat) (v : TdmPort) : (setTdm s p v).dram = s.dram := rfl
@[simp] theorem setTdm_mem (s : State) (p : Nat) (v : TdmPort) : (setTdm s p v).mem = s.mem := rfl
@[simp] theorem setTdm_rdata (s : State) (p : Nat) (v : TdmPort) : (setTdm s p v).rdata = s.rdata := rfl
@[simp] theorem setTdm_freeCtr (s : State) (p : Nat) (v : TdmPort) : (setTdm s p v).freeCtr = s.freeCtr := rfl

/-! setPdm changes lio and nothing else. -/

@[simp] theorem setPdm_pending (s : State) (g : Nat) (v : PdmGroup) : (setPdm s g v).pending = s.pending := rfl
@[simp] theorem setPdm_hw (s : State) (g : Nat) (v : PdmGroup) : (setPdm s g v).hw = s.hw := rfl
@[simp] theorem setPdm_regs (s : State) (g : Nat) (v : PdmGroup) : (setPdm s g v).regs = s.regs := rfl
@[simp] theorem setPdm_view (s : State) (g : Nat) (v : PdmGroup) : (setPdm s g v).view = s.view := rfl
@[simp] theorem setPdm_latch (s : State) (g : Nat) (v : PdmGroup) : (setPdm s g v).latch = s.latch := rfl
@[simp] theorem setPdm_tl (s : State) (g : Nat) (v : PdmGroup) : (setPdm s g v).tl = s.tl := rfl
@[simp] theorem setPdm_log (s : State) (g : Nat) (v : PdmGroup) : (setPdm s g v).log = s.log := rfl
@[simp] theorem setPdm_ccp (s : State) (g : Nat) (v : PdmGroup) : (setPdm s g v).ccp = s.ccp := rfl
@[simp] theorem setPdm_pwr (s : State) (g : Nat) (v : PdmGroup) : (setPdm s g v).pwr = s.pwr := rfl
@[simp] theorem setPdm_portA (s : State) (g : Nat) (v : PdmGroup) : (setPdm s g v).portA = s.portA := rfl
@[simp] theorem setPdm_portB (s : State) (g : Nat) (v : PdmGroup) : (setPdm s g v).portB = s.portB := rfl
@[simp] theorem setPdm_time (s : State) (g : Nat) (v : PdmGroup) : (setPdm s g v).time = s.time := rfl
@[simp] theorem setPdm_clk (s : State) (g : Nat) (v : PdmGroup) : (setPdm s g v).clk = s.clk := rfl
@[simp] theorem setPdm_geo (s : State) (g : Nat) (v : PdmGroup) : (setPdm s g v).geo = s.geo := rfl
@[simp] theorem setPdm_path (s : State) (g : Nat) (v : PdmGroup) : (setPdm s g v).path = s.path := rfl
@[simp] theorem setPdm_kpu (s : State) (g : Nat) (v : PdmGroup) : (setPdm s g v).kpu = s.kpu := rfl
@[simp] theorem setPdm_disp (s : State) (g : Nat) (v : PdmGroup) : (setPdm s g v).disp = s.disp := rfl
@[simp] theorem setPdm_fab (s : State) (g : Nat) (v : PdmGroup) : (setPdm s g v).fab = s.fab := rfl
@[simp] theorem setPdm_fw (s : State) (g : Nat) (v : PdmGroup) : (setPdm s g v).fw = s.fw := rfl
@[simp] theorem setPdm_conv (s : State) (g : Nat) (v : PdmGroup) : (setPdm s g v).conv = s.conv := rfl
@[simp] theorem setPdm_xpt (s : State) (g : Nat) (v : PdmGroup) : (setPdm s g v).xpt = s.xpt := rfl
@[simp] theorem setPdm_strm (s : State) (g : Nat) (v : PdmGroup) : (setPdm s g v).strm = s.strm := rfl
@[simp] theorem setPdm_take (s : State) (g : Nat) (v : PdmGroup) : (setPdm s g v).take = s.take := rfl
@[simp] theorem setPdm_pipe (s : State) (g : Nat) (v : PdmGroup) : (setPdm s g v).pipe = s.pipe := rfl
@[simp] theorem setPdm_pair (s : State) (g : Nat) (v : PdmGroup) : (setPdm s g v).pair = s.pair := rfl
@[simp] theorem setPdm_dram (s : State) (g : Nat) (v : PdmGroup) : (setPdm s g v).dram = s.dram := rfl
@[simp] theorem setPdm_mem (s : State) (g : Nat) (v : PdmGroup) : (setPdm s g v).mem = s.mem := rfl
@[simp] theorem setPdm_rdata (s : State) (g : Nat) (v : PdmGroup) : (setPdm s g v).rdata = s.rdata := rfl
@[simp] theorem setPdm_freeCtr (s : State) (g : Nat) (v : PdmGroup) : (setPdm s g v).freeCtr = s.freeCtr := rfl

/-! setTake changes take and nothing else. -/

@[simp] theorem setTake_pending (s : State) (t : TakeSt) : (setTake s t).pending = s.pending := rfl
@[simp] theorem setTake_hw (s : State) (t : TakeSt) : (setTake s t).hw = s.hw := rfl
@[simp] theorem setTake_regs (s : State) (t : TakeSt) : (setTake s t).regs = s.regs := rfl
@[simp] theorem setTake_view (s : State) (t : TakeSt) : (setTake s t).view = s.view := rfl
@[simp] theorem setTake_latch (s : State) (t : TakeSt) : (setTake s t).latch = s.latch := rfl
@[simp] theorem setTake_tl (s : State) (t : TakeSt) : (setTake s t).tl = s.tl := rfl
@[simp] theorem setTake_log (s : State) (t : TakeSt) : (setTake s t).log = s.log := rfl
@[simp] theorem setTake_ccp (s : State) (t : TakeSt) : (setTake s t).ccp = s.ccp := rfl
@[simp] theorem setTake_pwr (s : State) (t : TakeSt) : (setTake s t).pwr = s.pwr := rfl
@[simp] theorem setTake_portA (s : State) (t : TakeSt) : (setTake s t).portA = s.portA := rfl
@[simp] theorem setTake_portB (s : State) (t : TakeSt) : (setTake s t).portB = s.portB := rfl
@[simp] theorem setTake_time (s : State) (t : TakeSt) : (setTake s t).time = s.time := rfl
@[simp] theorem setTake_clk (s : State) (t : TakeSt) : (setTake s t).clk = s.clk := rfl
@[simp] theorem setTake_geo (s : State) (t : TakeSt) : (setTake s t).geo = s.geo := rfl
@[simp] theorem setTake_path (s : State) (t : TakeSt) : (setTake s t).path = s.path := rfl
@[simp] theorem setTake_kpu (s : State) (t : TakeSt) : (setTake s t).kpu = s.kpu := rfl
@[simp] theorem setTake_disp (s : State) (t : TakeSt) : (setTake s t).disp = s.disp := rfl
@[simp] theorem setTake_fab (s : State) (t : TakeSt) : (setTake s t).fab = s.fab := rfl
@[simp] theorem setTake_fw (s : State) (t : TakeSt) : (setTake s t).fw = s.fw := rfl
@[simp] theorem setTake_conv (s : State) (t : TakeSt) : (setTake s t).conv = s.conv := rfl
@[simp] theorem setTake_xpt (s : State) (t : TakeSt) : (setTake s t).xpt = s.xpt := rfl
@[simp] theorem setTake_strm (s : State) (t : TakeSt) : (setTake s t).strm = s.strm := rfl
@[simp] theorem setTake_pipe (s : State) (t : TakeSt) : (setTake s t).pipe = s.pipe := rfl
@[simp] theorem setTake_pair (s : State) (t : TakeSt) : (setTake s t).pair = s.pair := rfl
@[simp] theorem setTake_lio (s : State) (t : TakeSt) : (setTake s t).lio = s.lio := rfl
@[simp] theorem setTake_dram (s : State) (t : TakeSt) : (setTake s t).dram = s.dram := rfl
@[simp] theorem setTake_mem (s : State) (t : TakeSt) : (setTake s t).mem = s.mem := rfl
@[simp] theorem setTake_rdata (s : State) (t : TakeSt) : (setTake s t).rdata = s.rdata := rfl
@[simp] theorem setTake_freeCtr (s : State) (t : TakeSt) : (setTake s t).freeCtr = s.freeCtr := rfl

/-! setPair changes pair and nothing else. -/

@[simp] theorem setPair_pending (s : State) (p : PairSt) : (setPair s p).pending = s.pending := rfl
@[simp] theorem setPair_hw (s : State) (p : PairSt) : (setPair s p).hw = s.hw := rfl
@[simp] theorem setPair_regs (s : State) (p : PairSt) : (setPair s p).regs = s.regs := rfl
@[simp] theorem setPair_view (s : State) (p : PairSt) : (setPair s p).view = s.view := rfl
@[simp] theorem setPair_latch (s : State) (p : PairSt) : (setPair s p).latch = s.latch := rfl
@[simp] theorem setPair_tl (s : State) (p : PairSt) : (setPair s p).tl = s.tl := rfl
@[simp] theorem setPair_log (s : State) (p : PairSt) : (setPair s p).log = s.log := rfl
@[simp] theorem setPair_ccp (s : State) (p : PairSt) : (setPair s p).ccp = s.ccp := rfl
@[simp] theorem setPair_pwr (s : State) (p : PairSt) : (setPair s p).pwr = s.pwr := rfl
@[simp] theorem setPair_portA (s : State) (p : PairSt) : (setPair s p).portA = s.portA := rfl
@[simp] theorem setPair_portB (s : State) (p : PairSt) : (setPair s p).portB = s.portB := rfl
@[simp] theorem setPair_time (s : State) (p : PairSt) : (setPair s p).time = s.time := rfl
@[simp] theorem setPair_clk (s : State) (p : PairSt) : (setPair s p).clk = s.clk := rfl
@[simp] theorem setPair_geo (s : State) (p : PairSt) : (setPair s p).geo = s.geo := rfl
@[simp] theorem setPair_path (s : State) (p : PairSt) : (setPair s p).path = s.path := rfl
@[simp] theorem setPair_kpu (s : State) (p : PairSt) : (setPair s p).kpu = s.kpu := rfl
@[simp] theorem setPair_disp (s : State) (p : PairSt) : (setPair s p).disp = s.disp := rfl
@[simp] theorem setPair_fab (s : State) (p : PairSt) : (setPair s p).fab = s.fab := rfl
@[simp] theorem setPair_fw (s : State) (p : PairSt) : (setPair s p).fw = s.fw := rfl
@[simp] theorem setPair_conv (s : State) (p : PairSt) : (setPair s p).conv = s.conv := rfl
@[simp] theorem setPair_xpt (s : State) (p : PairSt) : (setPair s p).xpt = s.xpt := rfl
@[simp] theorem setPair_strm (s : State) (p : PairSt) : (setPair s p).strm = s.strm := rfl
@[simp] theorem setPair_take (s : State) (p : PairSt) : (setPair s p).take = s.take := rfl
@[simp] theorem setPair_pipe (s : State) (p : PairSt) : (setPair s p).pipe = s.pipe := rfl
@[simp] theorem setPair_lio (s : State) (p : PairSt) : (setPair s p).lio = s.lio := rfl
@[simp] theorem setPair_dram (s : State) (p : PairSt) : (setPair s p).dram = s.dram := rfl
@[simp] theorem setPair_mem (s : State) (p : PairSt) : (setPair s p).mem = s.mem := rfl
@[simp] theorem setPair_rdata (s : State) (p : PairSt) : (setPair s p).rdata = s.rdata := rfl
@[simp] theorem setPair_freeCtr (s : State) (p : PairSt) : (setPair s p).freeCtr = s.freeCtr := rfl

/-! setPwr changes pwr and nothing else. -/

@[simp] theorem setPwr_pending (s : State) (p : PwrSt) : (setPwr s p).pending = s.pending := rfl
@[simp] theorem setPwr_hw (s : State) (p : PwrSt) : (setPwr s p).hw = s.hw := rfl
@[simp] theorem setPwr_regs (s : State) (p : PwrSt) : (setPwr s p).regs = s.regs := rfl
@[simp] theorem setPwr_view (s : State) (p : PwrSt) : (setPwr s p).view = s.view := rfl
@[simp] theorem setPwr_latch (s : State) (p : PwrSt) : (setPwr s p).latch = s.latch := rfl
@[simp] theorem setPwr_tl (s : State) (p : PwrSt) : (setPwr s p).tl = s.tl := rfl
@[simp] theorem setPwr_log (s : State) (p : PwrSt) : (setPwr s p).log = s.log := rfl
@[simp] theorem setPwr_ccp (s : State) (p : PwrSt) : (setPwr s p).ccp = s.ccp := rfl
@[simp] theorem setPwr_portA (s : State) (p : PwrSt) : (setPwr s p).portA = s.portA := rfl
@[simp] theorem setPwr_portB (s : State) (p : PwrSt) : (setPwr s p).portB = s.portB := rfl
@[simp] theorem setPwr_time (s : State) (p : PwrSt) : (setPwr s p).time = s.time := rfl
@[simp] theorem setPwr_clk (s : State) (p : PwrSt) : (setPwr s p).clk = s.clk := rfl
@[simp] theorem setPwr_geo (s : State) (p : PwrSt) : (setPwr s p).geo = s.geo := rfl
@[simp] theorem setPwr_path (s : State) (p : PwrSt) : (setPwr s p).path = s.path := rfl
@[simp] theorem setPwr_kpu (s : State) (p : PwrSt) : (setPwr s p).kpu = s.kpu := rfl
@[simp] theorem setPwr_disp (s : State) (p : PwrSt) : (setPwr s p).disp = s.disp := rfl
@[simp] theorem setPwr_fab (s : State) (p : PwrSt) : (setPwr s p).fab = s.fab := rfl
@[simp] theorem setPwr_fw (s : State) (p : PwrSt) : (setPwr s p).fw = s.fw := rfl
@[simp] theorem setPwr_conv (s : State) (p : PwrSt) : (setPwr s p).conv = s.conv := rfl
@[simp] theorem setPwr_xpt (s : State) (p : PwrSt) : (setPwr s p).xpt = s.xpt := rfl
@[simp] theorem setPwr_strm (s : State) (p : PwrSt) : (setPwr s p).strm = s.strm := rfl
@[simp] theorem setPwr_take (s : State) (p : PwrSt) : (setPwr s p).take = s.take := rfl
@[simp] theorem setPwr_pipe (s : State) (p : PwrSt) : (setPwr s p).pipe = s.pipe := rfl
@[simp] theorem setPwr_pair (s : State) (p : PwrSt) : (setPwr s p).pair = s.pair := rfl
@[simp] theorem setPwr_lio (s : State) (p : PwrSt) : (setPwr s p).lio = s.lio := rfl
@[simp] theorem setPwr_dram (s : State) (p : PwrSt) : (setPwr s p).dram = s.dram := rfl
@[simp] theorem setPwr_mem (s : State) (p : PwrSt) : (setPwr s p).mem = s.mem := rfl
@[simp] theorem setPwr_rdata (s : State) (p : PwrSt) : (setPwr s p).rdata = s.rdata := rfl
@[simp] theorem setPwr_freeCtr (s : State) (p : PwrSt) : (setPwr s p).freeCtr = s.freeCtr := rfl

/-! setRx changes strm and nothing else. -/

@[simp] theorem setRx_pending (s : State) (r : Nat) (x : RxSt) : (setRx s r x).pending = s.pending := rfl
@[simp] theorem setRx_hw (s : State) (r : Nat) (x : RxSt) : (setRx s r x).hw = s.hw := rfl
@[simp] theorem setRx_regs (s : State) (r : Nat) (x : RxSt) : (setRx s r x).regs = s.regs := rfl
@[simp] theorem setRx_view (s : State) (r : Nat) (x : RxSt) : (setRx s r x).view = s.view := rfl
@[simp] theorem setRx_latch (s : State) (r : Nat) (x : RxSt) : (setRx s r x).latch = s.latch := rfl
@[simp] theorem setRx_tl (s : State) (r : Nat) (x : RxSt) : (setRx s r x).tl = s.tl := rfl
@[simp] theorem setRx_log (s : State) (r : Nat) (x : RxSt) : (setRx s r x).log = s.log := rfl
@[simp] theorem setRx_ccp (s : State) (r : Nat) (x : RxSt) : (setRx s r x).ccp = s.ccp := rfl
@[simp] theorem setRx_pwr (s : State) (r : Nat) (x : RxSt) : (setRx s r x).pwr = s.pwr := rfl
@[simp] theorem setRx_portA (s : State) (r : Nat) (x : RxSt) : (setRx s r x).portA = s.portA := rfl
@[simp] theorem setRx_portB (s : State) (r : Nat) (x : RxSt) : (setRx s r x).portB = s.portB := rfl
@[simp] theorem setRx_time (s : State) (r : Nat) (x : RxSt) : (setRx s r x).time = s.time := rfl
@[simp] theorem setRx_clk (s : State) (r : Nat) (x : RxSt) : (setRx s r x).clk = s.clk := rfl
@[simp] theorem setRx_geo (s : State) (r : Nat) (x : RxSt) : (setRx s r x).geo = s.geo := rfl
@[simp] theorem setRx_path (s : State) (r : Nat) (x : RxSt) : (setRx s r x).path = s.path := rfl
@[simp] theorem setRx_kpu (s : State) (r : Nat) (x : RxSt) : (setRx s r x).kpu = s.kpu := rfl
@[simp] theorem setRx_disp (s : State) (r : Nat) (x : RxSt) : (setRx s r x).disp = s.disp := rfl
@[simp] theorem setRx_fab (s : State) (r : Nat) (x : RxSt) : (setRx s r x).fab = s.fab := rfl
@[simp] theorem setRx_fw (s : State) (r : Nat) (x : RxSt) : (setRx s r x).fw = s.fw := rfl
@[simp] theorem setRx_conv (s : State) (r : Nat) (x : RxSt) : (setRx s r x).conv = s.conv := rfl
@[simp] theorem setRx_xpt (s : State) (r : Nat) (x : RxSt) : (setRx s r x).xpt = s.xpt := rfl
@[simp] theorem setRx_take (s : State) (r : Nat) (x : RxSt) : (setRx s r x).take = s.take := rfl
@[simp] theorem setRx_pipe (s : State) (r : Nat) (x : RxSt) : (setRx s r x).pipe = s.pipe := rfl
@[simp] theorem setRx_pair (s : State) (r : Nat) (x : RxSt) : (setRx s r x).pair = s.pair := rfl
@[simp] theorem setRx_lio (s : State) (r : Nat) (x : RxSt) : (setRx s r x).lio = s.lio := rfl
@[simp] theorem setRx_dram (s : State) (r : Nat) (x : RxSt) : (setRx s r x).dram = s.dram := rfl
@[simp] theorem setRx_mem (s : State) (r : Nat) (x : RxSt) : (setRx s r x).mem = s.mem := rfl
@[simp] theorem setRx_rdata (s : State) (r : Nat) (x : RxSt) : (setRx s r x).rdata = s.rdata := rfl
@[simp] theorem setRx_freeCtr (s : State) (r : Nat) (x : RxSt) : (setRx s r x).freeCtr = s.freeCtr := rfl

/-! setWork changes pipe and nothing else. -/

@[simp] theorem setWork_pending (s : State) (w : Option Work) : (setWork s w).pending = s.pending := rfl
@[simp] theorem setWork_hw (s : State) (w : Option Work) : (setWork s w).hw = s.hw := rfl
@[simp] theorem setWork_regs (s : State) (w : Option Work) : (setWork s w).regs = s.regs := rfl
@[simp] theorem setWork_view (s : State) (w : Option Work) : (setWork s w).view = s.view := rfl
@[simp] theorem setWork_latch (s : State) (w : Option Work) : (setWork s w).latch = s.latch := rfl
@[simp] theorem setWork_tl (s : State) (w : Option Work) : (setWork s w).tl = s.tl := rfl
@[simp] theorem setWork_log (s : State) (w : Option Work) : (setWork s w).log = s.log := rfl
@[simp] theorem setWork_ccp (s : State) (w : Option Work) : (setWork s w).ccp = s.ccp := rfl
@[simp] theorem setWork_pwr (s : State) (w : Option Work) : (setWork s w).pwr = s.pwr := rfl
@[simp] theorem setWork_portA (s : State) (w : Option Work) : (setWork s w).portA = s.portA := rfl
@[simp] theorem setWork_portB (s : State) (w : Option Work) : (setWork s w).portB = s.portB := rfl
@[simp] theorem setWork_time (s : State) (w : Option Work) : (setWork s w).time = s.time := rfl
@[simp] theorem setWork_clk (s : State) (w : Option Work) : (setWork s w).clk = s.clk := rfl
@[simp] theorem setWork_geo (s : State) (w : Option Work) : (setWork s w).geo = s.geo := rfl
@[simp] theorem setWork_path (s : State) (w : Option Work) : (setWork s w).path = s.path := rfl
@[simp] theorem setWork_kpu (s : State) (w : Option Work) : (setWork s w).kpu = s.kpu := rfl
@[simp] theorem setWork_disp (s : State) (w : Option Work) : (setWork s w).disp = s.disp := rfl
@[simp] theorem setWork_fab (s : State) (w : Option Work) : (setWork s w).fab = s.fab := rfl
@[simp] theorem setWork_fw (s : State) (w : Option Work) : (setWork s w).fw = s.fw := rfl
@[simp] theorem setWork_conv (s : State) (w : Option Work) : (setWork s w).conv = s.conv := rfl
@[simp] theorem setWork_xpt (s : State) (w : Option Work) : (setWork s w).xpt = s.xpt := rfl
@[simp] theorem setWork_strm (s : State) (w : Option Work) : (setWork s w).strm = s.strm := rfl
@[simp] theorem setWork_take (s : State) (w : Option Work) : (setWork s w).take = s.take := rfl
@[simp] theorem setWork_pair (s : State) (w : Option Work) : (setWork s w).pair = s.pair := rfl
@[simp] theorem setWork_lio (s : State) (w : Option Work) : (setWork s w).lio = s.lio := rfl
@[simp] theorem setWork_dram (s : State) (w : Option Work) : (setWork s w).dram = s.dram := rfl
@[simp] theorem setWork_mem (s : State) (w : Option Work) : (setWork s w).mem = s.mem := rfl
@[simp] theorem setWork_rdata (s : State) (w : Option Work) : (setWork s w).rdata = s.rdata := rfl
@[simp] theorem setWork_freeCtr (s : State) (w : Option Work) : (setWork s w).freeCtr = s.freeCtr := rfl
/-! pendAs changes ccp and nothing else. -/

@[simp] theorem pendAs_pending (s : State) (n : Nat) (c : Change) : (pendAs s n c).pending = s.pending := rfl
@[simp] theorem pendAs_hw (s : State) (n : Nat) (c : Change) : (pendAs s n c).hw = s.hw := rfl
@[simp] theorem pendAs_regs (s : State) (n : Nat) (c : Change) : (pendAs s n c).regs = s.regs := rfl
@[simp] theorem pendAs_view (s : State) (n : Nat) (c : Change) : (pendAs s n c).view = s.view := rfl
@[simp] theorem pendAs_latch (s : State) (n : Nat) (c : Change) : (pendAs s n c).latch = s.latch := rfl
@[simp] theorem pendAs_tl (s : State) (n : Nat) (c : Change) : (pendAs s n c).tl = s.tl := rfl
@[simp] theorem pendAs_log (s : State) (n : Nat) (c : Change) : (pendAs s n c).log = s.log := rfl
@[simp] theorem pendAs_pwr (s : State) (n : Nat) (c : Change) : (pendAs s n c).pwr = s.pwr := rfl
@[simp] theorem pendAs_portA (s : State) (n : Nat) (c : Change) : (pendAs s n c).portA = s.portA := rfl
@[simp] theorem pendAs_portB (s : State) (n : Nat) (c : Change) : (pendAs s n c).portB = s.portB := rfl
@[simp] theorem pendAs_time (s : State) (n : Nat) (c : Change) : (pendAs s n c).time = s.time := rfl
@[simp] theorem pendAs_clk (s : State) (n : Nat) (c : Change) : (pendAs s n c).clk = s.clk := rfl
@[simp] theorem pendAs_geo (s : State) (n : Nat) (c : Change) : (pendAs s n c).geo = s.geo := rfl
@[simp] theorem pendAs_path (s : State) (n : Nat) (c : Change) : (pendAs s n c).path = s.path := rfl
@[simp] theorem pendAs_kpu (s : State) (n : Nat) (c : Change) : (pendAs s n c).kpu = s.kpu := rfl
@[simp] theorem pendAs_disp (s : State) (n : Nat) (c : Change) : (pendAs s n c).disp = s.disp := rfl
@[simp] theorem pendAs_fab (s : State) (n : Nat) (c : Change) : (pendAs s n c).fab = s.fab := rfl
@[simp] theorem pendAs_fw (s : State) (n : Nat) (c : Change) : (pendAs s n c).fw = s.fw := rfl
@[simp] theorem pendAs_conv (s : State) (n : Nat) (c : Change) : (pendAs s n c).conv = s.conv := rfl
@[simp] theorem pendAs_xpt (s : State) (n : Nat) (c : Change) : (pendAs s n c).xpt = s.xpt := rfl
@[simp] theorem pendAs_strm (s : State) (n : Nat) (c : Change) : (pendAs s n c).strm = s.strm := rfl
@[simp] theorem pendAs_take (s : State) (n : Nat) (c : Change) : (pendAs s n c).take = s.take := rfl
@[simp] theorem pendAs_pipe (s : State) (n : Nat) (c : Change) : (pendAs s n c).pipe = s.pipe := rfl
@[simp] theorem pendAs_pair (s : State) (n : Nat) (c : Change) : (pendAs s n c).pair = s.pair := rfl
@[simp] theorem pendAs_lio (s : State) (n : Nat) (c : Change) : (pendAs s n c).lio = s.lio := rfl
@[simp] theorem pendAs_dram (s : State) (n : Nat) (c : Change) : (pendAs s n c).dram = s.dram := rfl
@[simp] theorem pendAs_mem (s : State) (n : Nat) (c : Change) : (pendAs s n c).mem = s.mem := rfl
@[simp] theorem pendAs_rdata (s : State) (n : Nat) (c : Change) : (pendAs s n c).rdata = s.rdata := rfl
@[simp] theorem pendAs_freeCtr (s : State) (n : Nat) (c : Change) : (pendAs s n c).freeCtr = s.freeCtr := rfl

/-! pendNow changes ccp and nothing else. -/

@[simp] theorem pendNow_pending (s : State) (c : Change) : (pendNow s c).pending = s.pending := rfl
@[simp] theorem pendNow_hw (s : State) (c : Change) : (pendNow s c).hw = s.hw := rfl
@[simp] theorem pendNow_regs (s : State) (c : Change) : (pendNow s c).regs = s.regs := rfl
@[simp] theorem pendNow_view (s : State) (c : Change) : (pendNow s c).view = s.view := rfl
@[simp] theorem pendNow_latch (s : State) (c : Change) : (pendNow s c).latch = s.latch := rfl
@[simp] theorem pendNow_tl (s : State) (c : Change) : (pendNow s c).tl = s.tl := rfl
@[simp] theorem pendNow_log (s : State) (c : Change) : (pendNow s c).log = s.log := rfl
@[simp] theorem pendNow_pwr (s : State) (c : Change) : (pendNow s c).pwr = s.pwr := rfl
@[simp] theorem pendNow_portA (s : State) (c : Change) : (pendNow s c).portA = s.portA := rfl
@[simp] theorem pendNow_portB (s : State) (c : Change) : (pendNow s c).portB = s.portB := rfl
@[simp] theorem pendNow_time (s : State) (c : Change) : (pendNow s c).time = s.time := rfl
@[simp] theorem pendNow_clk (s : State) (c : Change) : (pendNow s c).clk = s.clk := rfl
@[simp] theorem pendNow_geo (s : State) (c : Change) : (pendNow s c).geo = s.geo := rfl
@[simp] theorem pendNow_path (s : State) (c : Change) : (pendNow s c).path = s.path := rfl
@[simp] theorem pendNow_kpu (s : State) (c : Change) : (pendNow s c).kpu = s.kpu := rfl
@[simp] theorem pendNow_disp (s : State) (c : Change) : (pendNow s c).disp = s.disp := rfl
@[simp] theorem pendNow_fab (s : State) (c : Change) : (pendNow s c).fab = s.fab := rfl
@[simp] theorem pendNow_fw (s : State) (c : Change) : (pendNow s c).fw = s.fw := rfl
@[simp] theorem pendNow_conv (s : State) (c : Change) : (pendNow s c).conv = s.conv := rfl
@[simp] theorem pendNow_xpt (s : State) (c : Change) : (pendNow s c).xpt = s.xpt := rfl
@[simp] theorem pendNow_strm (s : State) (c : Change) : (pendNow s c).strm = s.strm := rfl
@[simp] theorem pendNow_take (s : State) (c : Change) : (pendNow s c).take = s.take := rfl
@[simp] theorem pendNow_pipe (s : State) (c : Change) : (pendNow s c).pipe = s.pipe := rfl
@[simp] theorem pendNow_pair (s : State) (c : Change) : (pendNow s c).pair = s.pair := rfl
@[simp] theorem pendNow_lio (s : State) (c : Change) : (pendNow s c).lio = s.lio := rfl
@[simp] theorem pendNow_dram (s : State) (c : Change) : (pendNow s c).dram = s.dram := rfl
@[simp] theorem pendNow_mem (s : State) (c : Change) : (pendNow s c).mem = s.mem := rfl
@[simp] theorem pendNow_rdata (s : State) (c : Change) : (pendNow s c).rdata = s.rdata := rfl
@[simp] theorem pendNow_freeCtr (s : State) (c : Change) : (pendNow s c).freeCtr = s.freeCtr := rfl

/-! frameAs changes ccp and nothing else. -/

@[simp] theorem frameAs_pending (s : State) (f n : Nat) (c : Change) : (frameAs s f n c).pending = s.pending := rfl
@[simp] theorem frameAs_hw (s : State) (f n : Nat) (c : Change) : (frameAs s f n c).hw = s.hw := rfl
@[simp] theorem frameAs_regs (s : State) (f n : Nat) (c : Change) : (frameAs s f n c).regs = s.regs := rfl
@[simp] theorem frameAs_view (s : State) (f n : Nat) (c : Change) : (frameAs s f n c).view = s.view := rfl
@[simp] theorem frameAs_latch (s : State) (f n : Nat) (c : Change) : (frameAs s f n c).latch = s.latch := rfl
@[simp] theorem frameAs_tl (s : State) (f n : Nat) (c : Change) : (frameAs s f n c).tl = s.tl := rfl
@[simp] theorem frameAs_log (s : State) (f n : Nat) (c : Change) : (frameAs s f n c).log = s.log := rfl
@[simp] theorem frameAs_pwr (s : State) (f n : Nat) (c : Change) : (frameAs s f n c).pwr = s.pwr := rfl
@[simp] theorem frameAs_portA (s : State) (f n : Nat) (c : Change) : (frameAs s f n c).portA = s.portA := rfl
@[simp] theorem frameAs_portB (s : State) (f n : Nat) (c : Change) : (frameAs s f n c).portB = s.portB := rfl
@[simp] theorem frameAs_time (s : State) (f n : Nat) (c : Change) : (frameAs s f n c).time = s.time := rfl
@[simp] theorem frameAs_clk (s : State) (f n : Nat) (c : Change) : (frameAs s f n c).clk = s.clk := rfl
@[simp] theorem frameAs_geo (s : State) (f n : Nat) (c : Change) : (frameAs s f n c).geo = s.geo := rfl
@[simp] theorem frameAs_path (s : State) (f n : Nat) (c : Change) : (frameAs s f n c).path = s.path := rfl
@[simp] theorem frameAs_kpu (s : State) (f n : Nat) (c : Change) : (frameAs s f n c).kpu = s.kpu := rfl
@[simp] theorem frameAs_disp (s : State) (f n : Nat) (c : Change) : (frameAs s f n c).disp = s.disp := rfl
@[simp] theorem frameAs_fab (s : State) (f n : Nat) (c : Change) : (frameAs s f n c).fab = s.fab := rfl
@[simp] theorem frameAs_fw (s : State) (f n : Nat) (c : Change) : (frameAs s f n c).fw = s.fw := rfl
@[simp] theorem frameAs_conv (s : State) (f n : Nat) (c : Change) : (frameAs s f n c).conv = s.conv := rfl
@[simp] theorem frameAs_xpt (s : State) (f n : Nat) (c : Change) : (frameAs s f n c).xpt = s.xpt := rfl
@[simp] theorem frameAs_strm (s : State) (f n : Nat) (c : Change) : (frameAs s f n c).strm = s.strm := rfl
@[simp] theorem frameAs_take (s : State) (f n : Nat) (c : Change) : (frameAs s f n c).take = s.take := rfl
@[simp] theorem frameAs_pipe (s : State) (f n : Nat) (c : Change) : (frameAs s f n c).pipe = s.pipe := rfl
@[simp] theorem frameAs_pair (s : State) (f n : Nat) (c : Change) : (frameAs s f n c).pair = s.pair := rfl
@[simp] theorem frameAs_lio (s : State) (f n : Nat) (c : Change) : (frameAs s f n c).lio = s.lio := rfl
@[simp] theorem frameAs_dram (s : State) (f n : Nat) (c : Change) : (frameAs s f n c).dram = s.dram := rfl
@[simp] theorem frameAs_mem (s : State) (f n : Nat) (c : Change) : (frameAs s f n c).mem = s.mem := rfl
@[simp] theorem frameAs_rdata (s : State) (f n : Nat) (c : Change) : (frameAs s f n c).rdata = s.rdata := rfl
@[simp] theorem frameAs_freeCtr (s : State) (f n : Nat) (c : Change) : (frameAs s f n c).freeCtr = s.freeCtr := rfl

/-! The field an update of a whole part stores. -/

@[simp] theorem setTake_take (s : State) (t : TakeSt) : (setTake s t).take = t := rfl
@[simp] theorem setPair_pair (s : State) (p : PairSt) : (setPair s p).pair = p := rfl
@[simp] theorem setPwr_pwr (s : State) (p : PwrSt) : (setPwr s p).pwr = p := rfl
@[simp] theorem setWork_work (s : State) (w : Option Work) : (setWork s w).pipe.work = w := rfl

end Sys2Proof.Machine
end

