-- ==== Sys2Proof/Laws/Ops.lean ====
section
/-! SUPPORT. The named operations of Ops.lean and the accessors of the block's parts: what a read gives after a write, and what
raising a cause, logging an event and taking a free value leave unchanged. -/

namespace Sys2Proof.Machine

open Sys2Proof

set_option Elab.async false

/-! Registers. -/

theorem getR_setR (s : State) (a v b : Nat) : getR (setR s a v) b = if b = a then v % 2 ^ 32 else getR s b := by
  unfold getR setR
  simp only [Sparse.get_put]
  split <;> simp

@[simp] theorem getR_setR_same (s : State) (a v : Nat) : getR (setR s a v) a = v % 2 ^ 32 := by simp [getR_setR]

theorem getR_setR_ne (s : State) (a v b : Nat) (h : b ≠ a) : getR (setR s a v) b = getR s b := by simp [getR_setR, h]

theorem getR_lt (s : State) (a : Nat) : getR s a < 2 ^ 32 := (Sparse.get regDefault s.regs a).isLt

/-- A register read depends on the register file only. -/
theorem getR_congr (s t : State) (a : Nat) (h : s.regs = t.regs) : getR s a = getR t a := by unfold getR; rw [h]

theorem getF_congr (s t : State) (f : Fld) (h : s.regs = t.regs) : getF s f = getF t f := by unfold getF; rw [getR_congr s t _ h]

theorem getView_congr (s t : State) (a : Nat) (h : s.view = t.view) : getView s a = getView t a := by unfold getView; rw [h]

theorem getF_setR_ne (s : State) (f : Fld) (a v : Nat) (h : f.addr ≠ a) : getF (setR s a v) f = getF s f := by
  unfold getF; rw [getR_setR_ne s a v f.addr h]

theorem getR_addCtr (s : State) (a n b : Nat) :
    getR (addCtr s a n) b = if b = a then satAdd 32 (getR s a) n % 2 ^ 32 else getR s b := getR_setR s a _ b

theorem setR_regs_wf (s : State) (a v : Nat) (h : Sparse.wf regDefault s.regs = true) : Sparse.wf regDefault (setR s a v).regs = true :=
  Sparse.wf_put regDefault s.regs a _ h

/-! Parts of the block by number. -/

theorem coreOf_congr (s t : State) (k : Nat) (h : s.kpu = t.kpu) : coreOf s k = coreOf t k := by unfold coreOf; rw [h]

theorem coreOf_setCore (s : State) (k : Nat) (c : Core) (j : Nat) :
    coreOf (setCore s k c) j = if j = k ∧ k < 32 then c else coreOf s j := by
  unfold coreOf setCore
  simp only [Vector.getElem?_setIfInBounds]
  by_cases h : k = j
  · subst h; by_cases hk : k < 32 <;> simp [hk]
  · have h2 : ¬ j = k := fun e => h e.symm
    simp [h, h2]

@[simp] theorem coreOf_setCore_same (s : State) (k : Nat) (c : Core) (h : k < 32) : coreOf (setCore s k c) k = c := by
  simp [coreOf_setCore, h]

@[simp] theorem setCore_setCore (s : State) (k : Nat) (c d : Core) : setCore (setCore s k c) k d = setCore s k d := by
  simp only [setCore, State.mk.injEq, KpuSt.mk.injEq, true_and, and_true]
  apply Vector.ext
  intro i hi
  simp [Vector.getElem_setIfInBounds]

@[simp] theorem portOf_setPort (s : State) (p : Nat) (v : PortSt) : portOf (setPort s p v) p = v := by
  unfold portOf setPort; by_cases h : p = 0 <;> simp [h]

theorem portOf_setPort_ne (s : State) (p q : Nat) (v : PortSt) (h : ¬ (p = 0 ↔ q = 0)) : portOf (setPort s p v) q = portOf s q := by
  unfold portOf setPort; by_cases hp : p = 0 <;> by_cases hq : q = 0 <;> simp_all

@[simp] theorem servoOf_setServo (s : State) (p : Nat) (v : Servo) : servoOf (setServo s p v) p = v := by
  unfold servoOf setServo; by_cases h : p = 0 <;> simp [h]

@[simp] theorem refOf_setRef (s : State) (r : Nat) (v : RefSt) (h : r < 6) : refOf (setRef s r v) r = v := by
  simp [refOf, setRef, h]

theorem refOf_setRef_ne (s : State) (r q : Nat) (v : RefSt) (h : r ≠ q) : refOf (setRef s r v) q = refOf s q := by
  simp [refOf, setRef, h]

@[simp] theorem chanOf_setChan (s : State) (c : Nat) (v : ConvCh) : chanOf (setChan s c v) c = v := by
  simp [chanOf, setChan, Sparse.get_put]

theorem chanOf_setChan_ne (s : State) (c d : Nat) (v : ConvCh) (h : d ≠ c) : chanOf (setChan s c v) d = chanOf s d := by
  simp [chanOf, setChan, Sparse.get_put, h]

@[simp] theorem tdmOf_setTdm (s : State) (p : Nat) (v : TdmPort) (h : p < 16) : tdmOf (setTdm s p v) p = v := by
  simp [tdmOf, setTdm, h]

@[simp] theorem pdmOf_setPdm (s : State) (g : Nat) (v : PdmGroup) (h : g < 4) : pdmOf (setPdm s g v) g = v := by
  simp [pdmOf, setPdm, h]

@[simp] theorem bankOf_setBank (s : State) (b : Nat) (v : Option Bank) : bankOf (setBank s b v) b = v := by
  unfold bankOf setBank; by_cases h : b = 0 <;> simp [h]

/-! Folds: what every step keeps, the whole keeps. -/

theorem foldl_keeps {α β γ : Type} (g : β → γ) (f : β → α → β) (h : ∀ b a, g (f b a) = g b) (l : List α) (b : β) :
    g (l.foldl f b) = g b := by
  induction l generalizing b with
  | nil => rfl
  | cons a t ih => rw [List.foldl_cons, ih, h]

theorem foldl_invariant {α β : Type} (p : β → Prop) (f : β → α → β) (h : ∀ b a, p b → p (f b a)) (l : List α) (b : β) (hb : p b) :
    p (l.foldl f b) := by
  induction l generalizing b with
  | nil => exact hb
  | cons a t ih => exact ih _ (h b a hb)

/-! Interrupt delivery: sending vectors changes the command engine's part only; raising a cause also sets its INTSTAT bit. -/

theorem sendVector_eq (s : State) (n : Nat) : sendVector s n = { s with ccp := (sendVector s n).ccp } := by
  unfold sendVector
  repeat' split
  all_goals rfl

@[simp] theorem sendVector_pending (s : State) (n : Nat) : (sendVector s n).pending = s.pending := by rw [sendVector_eq]
@[simp] theorem sendVector_hw (s : State) (n : Nat) : (sendVector s n).hw = s.hw := by rw [sendVector_eq]
@[simp] theorem sendVector_regs (s : State) (n : Nat) : (sendVector s n).regs = s.regs := by rw [sendVector_eq]
@[simp] theorem sendVector_view (s : State) (n : Nat) : (sendVector s n).view = s.view := by rw [sendVector_eq]
@[simp] theorem sendVector_latch (s : State) (n : Nat) : (sendVector s n).latch = s.latch := by rw [sendVector_eq]
@[simp] theorem sendVector_tl (s : State) (n : Nat) : (sendVector s n).tl = s.tl := by rw [sendVector_eq]
@[simp] theorem sendVector_log (s : State) (n : Nat) : (sendVector s n).log = s.log := by rw [sendVector_eq]
@[simp] theorem sendVector_pwr (s : State) (n : Nat) : (sendVector s n).pwr = s.pwr := by rw [sendVector_eq]
@[simp] theorem sendVector_portA (s : State) (n : Nat) : (sendVector s n).portA = s.portA := by rw [sendVector_eq]
@[simp] theorem sendVector_portB (s : State) (n : Nat) : (sendVector s n).portB = s.portB := by rw [sendVector_eq]
@[simp] theorem sendVector_time (s : State) (n : Nat) : (sendVector s n).time = s.time := by rw [sendVector_eq]
@[simp] theorem sendVector_clk (s : State) (n : Nat) : (sendVector s n).clk = s.clk := by rw [sendVector_eq]
@[simp] theorem sendVector_geo (s : State) (n : Nat) : (sendVector s n).geo = s.geo := by rw [sendVector_eq]
@[simp] theorem sendVector_path (s : State) (n : Nat) : (sendVector s n).path = s.path := by rw [sendVector_eq]
@[simp] theorem sendVector_kpu (s : State) (n : Nat) : (sendVector s n).kpu = s.kpu := by rw [sendVector_eq]
@[simp] theorem sendVector_disp (s : State) (n : Nat) : (sendVector s n).disp = s.disp := by rw [sendVector_eq]
@[simp] theorem sendVector_fab (s : State) (n : Nat) : (sendVector s n).fab = s.fab := by rw [sendVector_eq]
@[simp] theorem sendVector_fw (s : State) (n : Nat) : (sendVector s n).fw = s.fw := by rw [sendVector_eq]
@[simp] theorem sendVector_conv (s : State) (n : Nat) : (sendVector s n).conv = s.conv := by rw [sendVector_eq]
@[simp] theorem sendVector_xpt (s : State) (n : Nat) : (sendVector s n).xpt = s.xpt := by rw [sendVector_eq]
@[simp] theorem sendVector_strm (s : State) (n : Nat) : (sendVector s n).strm = s.strm := by rw [sendVector_eq]
@[simp] theorem sendVector_take (s : State) (n : Nat) : (sendVector s n).take = s.take := by rw [sendVector_eq]
@[simp] theorem sendVector_pipe (s : State) (n : Nat) : (sendVector s n).pipe = s.pipe := by rw [sendVector_eq]
@[simp] theorem sendVector_pair (s : State) (n : Nat) : (sendVector s n).pair = s.pair := by rw [sendVector_eq]
@[simp] theorem sendVector_lio (s : State) (n : Nat) : (sendVector s n).lio = s.lio := by rw [sendVector_eq]
@[simp] theorem sendVector_dram (s : State) (n : Nat) : (sendVector s n).dram = s.dram := by rw [sendVector_eq]
@[simp] theorem sendVector_mem (s : State) (n : Nat) : (sendVector s n).mem = s.mem := by rw [sendVector_eq]
@[simp] theorem sendVector_rdata (s : State) (n : Nat) : (sendVector s n).rdata = s.rdata := by rw [sendVector_eq]
@[simp] theorem sendVector_freeCtr (s : State) (n : Nat) : (sendVector s n).freeCtr = s.freeCtr := by rw [sendVector_eq]

theorem sendRisen_eq (s t : State) : sendRisen s t = { t with ccp := (sendRisen s t).ccp } := by
  refine foldl_invariant (fun u => u = { t with ccp := u.ccp }) _ (fun u n hu => ?_) _ t rfl
  split
  · rw [sendVector_eq, hu]
  · exact hu

@[simp] theorem sendRisen_pending (s t : State) : (sendRisen s t).pending = t.pending := by rw [sendRisen_eq]
@[simp] theorem sendRisen_hw (s t : State) : (sendRisen s t).hw = t.hw := by rw [sendRisen_eq]
@[simp] theorem sendRisen_regs (s t : State) : (sendRisen s t).regs = t.regs := by rw [sendRisen_eq]
@[simp] theorem sendRisen_view (s t : State) : (sendRisen s t).view = t.view := by rw [sendRisen_eq]
@[simp] theorem sendRisen_latch (s t : State) : (sendRisen s t).latch = t.latch := by rw [sendRisen_eq]
@[simp] theorem sendRisen_tl (s t : State) : (sendRisen s t).tl = t.tl := by rw [sendRisen_eq]
@[simp] theorem sendRisen_log (s t : State) : (sendRisen s t).log = t.log := by rw [sendRisen_eq]
@[simp] theorem sendRisen_pwr (s t : State) : (sendRisen s t).pwr = t.pwr := by rw [sendRisen_eq]
@[simp] theorem sendRisen_portA (s t : State) : (sendRisen s t).portA = t.portA := by rw [sendRisen_eq]
@[simp] theorem sendRisen_portB (s t : State) : (sendRisen s t).portB = t.portB := by rw [sendRisen_eq]
@[simp] theorem sendRisen_time (s t : State) : (sendRisen s t).time = t.time := by rw [sendRisen_eq]
@[simp] theorem sendRisen_clk (s t : State) : (sendRisen s t).clk = t.clk := by rw [sendRisen_eq]
@[simp] theorem sendRisen_geo (s t : State) : (sendRisen s t).geo = t.geo := by rw [sendRisen_eq]
@[simp] theorem sendRisen_path (s t : State) : (sendRisen s t).path = t.path := by rw [sendRisen_eq]
@[simp] theorem sendRisen_kpu (s t : State) : (sendRisen s t).kpu = t.kpu := by rw [sendRisen_eq]
@[simp] theorem sendRisen_disp (s t : State) : (sendRisen s t).disp = t.disp := by rw [sendRisen_eq]
@[simp] theorem sendRisen_fab (s t : State) : (sendRisen s t).fab = t.fab := by rw [sendRisen_eq]
@[simp] theorem sendRisen_fw (s t : State) : (sendRisen s t).fw = t.fw := by rw [sendRisen_eq]
@[simp] theorem sendRisen_conv (s t : State) : (sendRisen s t).conv = t.conv := by rw [sendRisen_eq]
@[simp] theorem sendRisen_xpt (s t : State) : (sendRisen s t).xpt = t.xpt := by rw [sendRisen_eq]
@[simp] theorem sendRisen_strm (s t : State) : (sendRisen s t).strm = t.strm := by rw [sendRisen_eq]
@[simp] theorem sendRisen_take (s t : State) : (sendRisen s t).take = t.take := by rw [sendRisen_eq]
@[simp] theorem sendRisen_pipe (s t : State) : (sendRisen s t).pipe = t.pipe := by rw [sendRisen_eq]
@[simp] theorem sendRisen_pair (s t : State) : (sendRisen s t).pair = t.pair := by rw [sendRisen_eq]
@[simp] theorem sendRisen_lio (s t : State) : (sendRisen s t).lio = t.lio := by rw [sendRisen_eq]
@[simp] theorem sendRisen_dram (s t : State) : (sendRisen s t).dram = t.dram := by rw [sendRisen_eq]
@[simp] theorem sendRisen_mem (s t : State) : (sendRisen s t).mem = t.mem := by rw [sendRisen_eq]
@[simp] theorem sendRisen_rdata (s t : State) : (sendRisen s t).rdata = t.rdata := by rw [sendRisen_eq]
@[simp] theorem sendRisen_freeCtr (s t : State) : (sendRisen s t).freeCtr = t.freeCtr := by rw [sendRisen_eq]

theorem raise_eq (s : State) (n b : Nat) : raise s n b = { s with regs := (raise s n b).regs, ccp := (raise s n b).ccp } := by
  unfold raise
  split
  · rw [sendRisen_eq]; rfl
  · rfl

@[simp] theorem raise_pending (s : State) (n b : Nat) : (raise s n b).pending = s.pending := by rw [raise_eq]
@[simp] theorem raise_hw (s : State) (n b : Nat) : (raise s n b).hw = s.hw := by rw [raise_eq]
@[simp] theorem raise_view (s : State) (n b : Nat) : (raise s n b).view = s.view := by rw [raise_eq]
@[simp] theorem raise_latch (s : State) (n b : Nat) : (raise s n b).latch = s.latch := by rw [raise_eq]
@[simp] theorem raise_tl (s : State) (n b : Nat) : (raise s n b).tl = s.tl := by rw [raise_eq]
@[simp] theorem raise_log (s : State) (n b : Nat) : (raise s n b).log = s.log := by rw [raise_eq]
@[simp] theorem raise_pwr (s : State) (n b : Nat) : (raise s n b).pwr = s.pwr := by rw [raise_eq]
@[simp] theorem raise_portA (s : State) (n b : Nat) : (raise s n b).portA = s.portA := by rw [raise_eq]
@[simp] theorem raise_portB (s : State) (n b : Nat) : (raise s n b).portB = s.portB := by rw [raise_eq]
@[simp] theorem raise_time (s : State) (n b : Nat) : (raise s n b).time = s.time := by rw [raise_eq]
@[simp] theorem raise_clk (s : State) (n b : Nat) : (raise s n b).clk = s.clk := by rw [raise_eq]
@[simp] theorem raise_geo (s : State) (n b : Nat) : (raise s n b).geo = s.geo := by rw [raise_eq]
@[simp] theorem raise_path (s : State) (n b : Nat) : (raise s n b).path = s.path := by rw [raise_eq]
@[simp] theorem raise_kpu (s : State) (n b : Nat) : (raise s n b).kpu = s.kpu := by rw [raise_eq]
@[simp] theorem raise_disp (s : State) (n b : Nat) : (raise s n b).disp = s.disp := by rw [raise_eq]
@[simp] theorem raise_fab (s : State) (n b : Nat) : (raise s n b).fab = s.fab := by rw [raise_eq]
@[simp] theorem raise_fw (s : State) (n b : Nat) : (raise s n b).fw = s.fw := by rw [raise_eq]
@[simp] theorem raise_conv (s : State) (n b : Nat) : (raise s n b).conv = s.conv := by rw [raise_eq]
@[simp] theorem raise_xpt (s : State) (n b : Nat) : (raise s n b).xpt = s.xpt := by rw [raise_eq]
@[simp] theorem raise_strm (s : State) (n b : Nat) : (raise s n b).strm = s.strm := by rw [raise_eq]
@[simp] theorem raise_take (s : State) (n b : Nat) : (raise s n b).take = s.take := by rw [raise_eq]
@[simp] theorem raise_pipe (s : State) (n b : Nat) : (raise s n b).pipe = s.pipe := by rw [raise_eq]
@[simp] theorem raise_pair (s : State) (n b : Nat) : (raise s n b).pair = s.pair := by rw [raise_eq]
@[simp] theorem raise_lio (s : State) (n b : Nat) : (raise s n b).lio = s.lio := by rw [raise_eq]
@[simp] theorem raise_dram (s : State) (n b : Nat) : (raise s n b).dram = s.dram := by rw [raise_eq]
@[simp] theorem raise_mem (s : State) (n b : Nat) : (raise s n b).mem = s.mem := by rw [raise_eq]
@[simp] theorem raise_rdata (s : State) (n b : Nat) : (raise s n b).rdata = s.rdata := by rw [raise_eq]
@[simp] theorem raise_freeCtr (s : State) (n b : Nat) : (raise s n b).freeCtr = s.freeCtr := by rw [raise_eq]

@[simp] theorem setEvent_regs (s : State) (a m : Nat) : (setEvent s a m).regs = (setR s a (getR s a ||| m)).regs := rfl

/-- What raising a cause writes. -/
theorem raise_regs (s : State) (n b a : Nat) (h : intStatAt n = some a) : (raise s n b).regs = (setR s a (getR s a ||| 2 ^ b)).regs := by
  unfold raise; rw [h]; simp

theorem getR_raise (s : State) (n b a x : Nat) (h : intStatAt n = some a) :
    getR (raise s n b) x = if x = a then (getR s a ||| 2 ^ b) % 2 ^ 32 else getR s x := by
  rw [getR_congr _ _ x (raise_regs s n b a h), getR_setR]

/-! Events for the log change the log only. -/

@[simp] theorem logEv_pending (s : State) (code : Nat) (p : List (Nat × Int)) : (logEv s code p).pending = s.pending := pushEvent_pending s _
@[simp] theorem logEv_hw (s : State) (code : Nat) (p : List (Nat × Int)) : (logEv s code p).hw = s.hw := pushEvent_hw s _
@[simp] theorem logEv_regs (s : State) (code : Nat) (p : List (Nat × Int)) : (logEv s code p).regs = s.regs := pushEvent_regs s _
@[simp] theorem logEv_view (s : State) (code : Nat) (p : List (Nat × Int)) : (logEv s code p).view = s.view := pushEvent_view s _
@[simp] theorem logEv_latch (s : State) (code : Nat) (p : List (Nat × Int)) : (logEv s code p).latch = s.latch := pushEvent_latch s _
@[simp] theorem logEv_tl (s : State) (code : Nat) (p : List (Nat × Int)) : (logEv s code p).tl = s.tl := pushEvent_tl s _
@[simp] theorem logEv_ccp (s : State) (code : Nat) (p : List (Nat × Int)) : (logEv s code p).ccp = s.ccp := pushEvent_ccp s _
@[simp] theorem logEv_pwr (s : State) (code : Nat) (p : List (Nat × Int)) : (logEv s code p).pwr = s.pwr := pushEvent_pwr s _
@[simp] theorem logEv_portA (s : State) (code : Nat) (p : List (Nat × Int)) : (logEv s code p).portA = s.portA := pushEvent_portA s _
@[simp] theorem logEv_portB (s : State) (code : Nat) (p : List (Nat × Int)) : (logEv s code p).portB = s.portB := pushEvent_portB s _
@[simp] theorem logEv_time (s : State) (code : Nat) (p : List (Nat × Int)) : (logEv s code p).time = s.time := pushEvent_time s _
@[simp] theorem logEv_clk (s : State) (code : Nat) (p : List (Nat × Int)) : (logEv s code p).clk = s.clk := pushEvent_clk s _
@[simp] theorem logEv_geo (s : State) (code : Nat) (p : List (Nat × Int)) : (logEv s code p).geo = s.geo := pushEvent_geo s _
@[simp] theorem logEv_path (s : State) (code : Nat) (p : List (Nat × Int)) : (logEv s code p).path = s.path := pushEvent_path s _
@[simp] theorem logEv_kpu (s : State) (code : Nat) (p : List (Nat × Int)) : (logEv s code p).kpu = s.kpu := pushEvent_kpu s _
@[simp] theorem logEv_disp (s : State) (code : Nat) (p : List (Nat × Int)) : (logEv s code p).disp = s.disp := pushEvent_disp s _
@[simp] theorem logEv_fab (s : State) (code : Nat) (p : List (Nat × Int)) : (logEv s code p).fab = s.fab := pushEvent_fab s _
@[simp] theorem logEv_fw (s : State) (code : Nat) (p : List (Nat × Int)) : (logEv s code p).fw = s.fw := pushEvent_fw s _
@[simp] theorem logEv_conv (s : State) (code : Nat) (p : List (Nat × Int)) : (logEv s code p).conv = s.conv := pushEvent_conv s _
@[simp] theorem logEv_xpt (s : State) (code : Nat) (p : List (Nat × Int)) : (logEv s code p).xpt = s.xpt := pushEvent_xpt s _
@[simp] theorem logEv_strm (s : State) (code : Nat) (p : List (Nat × Int)) : (logEv s code p).strm = s.strm := pushEvent_strm s _
@[simp] theorem logEv_take (s : State) (code : Nat) (p : List (Nat × Int)) : (logEv s code p).take = s.take := pushEvent_take s _
@[simp] theorem logEv_pipe (s : State) (code : Nat) (p : List (Nat × Int)) : (logEv s code p).pipe = s.pipe := pushEvent_pipe s _
@[simp] theorem logEv_pair (s : State) (code : Nat) (p : List (Nat × Int)) : (logEv s code p).pair = s.pair := pushEvent_pair s _
@[simp] theorem logEv_lio (s : State) (code : Nat) (p : List (Nat × Int)) : (logEv s code p).lio = s.lio := pushEvent_lio s _
@[simp] theorem logEv_dram (s : State) (code : Nat) (p : List (Nat × Int)) : (logEv s code p).dram = s.dram := pushEvent_dram s _
@[simp] theorem logEv_mem (s : State) (code : Nat) (p : List (Nat × Int)) : (logEv s code p).mem = s.mem := pushEvent_mem s _
@[simp] theorem logEv_rdata (s : State) (code : Nat) (p : List (Nat × Int)) : (logEv s code p).rdata = s.rdata := pushEvent_rdata s _
@[simp] theorem logEv_freeCtr (s : State) (code : Nat) (p : List (Nat × Int)) : (logEv s code p).freeCtr = s.freeCtr := pushEvent_freeCtr s _
@[simp] theorem logRun_pending (s : State) (code : Nat) (p : List (Nat × Int)) (r : Nat) (x : Bool) : (logRun s code p r x).pending = s.pending := pushEvent_pending s _
@[simp] theorem logRun_hw (s : State) (code : Nat) (p : List (Nat × Int)) (r : Nat) (x : Bool) : (logRun s code p r x).hw = s.hw := pushEvent_hw s _
@[simp] theorem logRun_regs (s : State) (code : Nat) (p : List (Nat × Int)) (r : Nat) (x : Bool) : (logRun s code p r x).regs = s.regs := pushEvent_regs s _
@[simp] theorem logRun_view (s : State) (code : Nat) (p : List (Nat × Int)) (r : Nat) (x : Bool) : (logRun s code p r x).view = s.view := pushEvent_view s _
@[simp] theorem logRun_latch (s : State) (code : Nat) (p : List (Nat × Int)) (r : Nat) (x : Bool) : (logRun s code p r x).latch = s.latch := pushEvent_latch s _
@[simp] theorem logRun_tl (s : State) (code : Nat) (p : List (Nat × Int)) (r : Nat) (x : Bool) : (logRun s code p r x).tl = s.tl := pushEvent_tl s _
@[simp] theorem logRun_ccp (s : State) (code : Nat) (p : List (Nat × Int)) (r : Nat) (x : Bool) : (logRun s code p r x).ccp = s.ccp := pushEvent_ccp s _
@[simp] theorem logRun_pwr (s : State) (code : Nat) (p : List (Nat × Int)) (r : Nat) (x : Bool) : (logRun s code p r x).pwr = s.pwr := pushEvent_pwr s _
@[simp] theorem logRun_portA (s : State) (code : Nat) (p : List (Nat × Int)) (r : Nat) (x : Bool) : (logRun s code p r x).portA = s.portA := pushEvent_portA s _
@[simp] theorem logRun_portB (s : State) (code : Nat) (p : List (Nat × Int)) (r : Nat) (x : Bool) : (logRun s code p r x).portB = s.portB := pushEvent_portB s _
@[simp] theorem logRun_time (s : State) (code : Nat) (p : List (Nat × Int)) (r : Nat) (x : Bool) : (logRun s code p r x).time = s.time := pushEvent_time s _
@[simp] theorem logRun_clk (s : State) (code : Nat) (p : List (Nat × Int)) (r : Nat) (x : Bool) : (logRun s code p r x).clk = s.clk := pushEvent_clk s _
@[simp] theorem logRun_geo (s : State) (code : Nat) (p : List (Nat × Int)) (r : Nat) (x : Bool) : (logRun s code p r x).geo = s.geo := pushEvent_geo s _
@[simp] theorem logRun_path (s : State) (code : Nat) (p : List (Nat × Int)) (r : Nat) (x : Bool) : (logRun s code p r x).path = s.path := pushEvent_path s _
@[simp] theorem logRun_kpu (s : State) (code : Nat) (p : List (Nat × Int)) (r : Nat) (x : Bool) : (logRun s code p r x).kpu = s.kpu := pushEvent_kpu s _
@[simp] theorem logRun_disp (s : State) (code : Nat) (p : List (Nat × Int)) (r : Nat) (x : Bool) : (logRun s code p r x).disp = s.disp := pushEvent_disp s _
@[simp] theorem logRun_fab (s : State) (code : Nat) (p : List (Nat × Int)) (r : Nat) (x : Bool) : (logRun s code p r x).fab = s.fab := pushEvent_fab s _
@[simp] theorem logRun_fw (s : State) (code : Nat) (p : List (Nat × Int)) (r : Nat) (x : Bool) : (logRun s code p r x).fw = s.fw := pushEvent_fw s _
@[simp] theorem logRun_conv (s : State) (code : Nat) (p : List (Nat × Int)) (r : Nat) (x : Bool) : (logRun s code p r x).conv = s.conv := pushEvent_conv s _
@[simp] theorem logRun_xpt (s : State) (code : Nat) (p : List (Nat × Int)) (r : Nat) (x : Bool) : (logRun s code p r x).xpt = s.xpt := pushEvent_xpt s _
@[simp] theorem logRun_strm (s : State) (code : Nat) (p : List (Nat × Int)) (r : Nat) (x : Bool) : (logRun s code p r x).strm = s.strm := pushEvent_strm s _
@[simp] theorem logRun_take (s : State) (code : Nat) (p : List (Nat × Int)) (r : Nat) (x : Bool) : (logRun s code p r x).take = s.take := pushEvent_take s _
@[simp] theorem logRun_pipe (s : State) (code : Nat) (p : List (Nat × Int)) (r : Nat) (x : Bool) : (logRun s code p r x).pipe = s.pipe := pushEvent_pipe s _
@[simp] theorem logRun_pair (s : State) (code : Nat) (p : List (Nat × Int)) (r : Nat) (x : Bool) : (logRun s code p r x).pair = s.pair := pushEvent_pair s _
@[simp] theorem logRun_lio (s : State) (code : Nat) (p : List (Nat × Int)) (r : Nat) (x : Bool) : (logRun s code p r x).lio = s.lio := pushEvent_lio s _
@[simp] theorem logRun_dram (s : State) (code : Nat) (p : List (Nat × Int)) (r : Nat) (x : Bool) : (logRun s code p r x).dram = s.dram := pushEvent_dram s _
@[simp] theorem logRun_mem (s : State) (code : Nat) (p : List (Nat × Int)) (r : Nat) (x : Bool) : (logRun s code p r x).mem = s.mem := pushEvent_mem s _
@[simp] theorem logRun_rdata (s : State) (code : Nat) (p : List (Nat × Int)) (r : Nat) (x : Bool) : (logRun s code p r x).rdata = s.rdata := pushEvent_rdata s _
@[simp] theorem logRun_freeCtr (s : State) (code : Nat) (p : List (Nat × Int)) (r : Nat) (x : Bool) : (logRun s code p r x).freeCtr = s.freeCtr := pushEvent_freeCtr s _
@[simp] theorem logCommit_pending (s : State) (code : Nat) (p : List (Nat × Int)) : (logCommit s code p).pending = s.pending := pushEvent_pending s _
@[simp] theorem logCommit_hw (s : State) (code : Nat) (p : List (Nat × Int)) : (logCommit s code p).hw = s.hw := pushEvent_hw s _
@[simp] theorem logCommit_regs (s : State) (code : Nat) (p : List (Nat × Int)) : (logCommit s code p).regs = s.regs := pushEvent_regs s _
@[simp] theorem logCommit_view (s : State) (code : Nat) (p : List (Nat × Int)) : (logCommit s code p).view = s.view := pushEvent_view s _
@[simp] theorem logCommit_latch (s : State) (code : Nat) (p : List (Nat × Int)) : (logCommit s code p).latch = s.latch := pushEvent_latch s _
@[simp] theorem logCommit_tl (s : State) (code : Nat) (p : List (Nat × Int)) : (logCommit s code p).tl = s.tl := pushEvent_tl s _
@[simp] theorem logCommit_ccp (s : State) (code : Nat) (p : List (Nat × Int)) : (logCommit s code p).ccp = s.ccp := pushEvent_ccp s _
@[simp] theorem logCommit_pwr (s : State) (code : Nat) (p : List (Nat × Int)) : (logCommit s code p).pwr = s.pwr := pushEvent_pwr s _
@[simp] theorem logCommit_portA (s : State) (code : Nat) (p : List (Nat × Int)) : (logCommit s code p).portA = s.portA := pushEvent_portA s _
@[simp] theorem logCommit_portB (s : State) (code : Nat) (p : List (Nat × Int)) : (logCommit s code p).portB = s.portB := pushEvent_portB s _
@[simp] theorem logCommit_time (s : State) (code : Nat) (p : List (Nat × Int)) : (logCommit s code p).time = s.time := pushEvent_time s _
@[simp] theorem logCommit_clk (s : State) (code : Nat) (p : List (Nat × Int)) : (logCommit s code p).clk = s.clk := pushEvent_clk s _
@[simp] theorem logCommit_geo (s : State) (code : Nat) (p : List (Nat × Int)) : (logCommit s code p).geo = s.geo := pushEvent_geo s _
@[simp] theorem logCommit_path (s : State) (code : Nat) (p : List (Nat × Int)) : (logCommit s code p).path = s.path := pushEvent_path s _
@[simp] theorem logCommit_kpu (s : State) (code : Nat) (p : List (Nat × Int)) : (logCommit s code p).kpu = s.kpu := pushEvent_kpu s _
@[simp] theorem logCommit_disp (s : State) (code : Nat) (p : List (Nat × Int)) : (logCommit s code p).disp = s.disp := pushEvent_disp s _
@[simp] theorem logCommit_fab (s : State) (code : Nat) (p : List (Nat × Int)) : (logCommit s code p).fab = s.fab := pushEvent_fab s _
@[simp] theorem logCommit_fw (s : State) (code : Nat) (p : List (Nat × Int)) : (logCommit s code p).fw = s.fw := pushEvent_fw s _
@[simp] theorem logCommit_conv (s : State) (code : Nat) (p : List (Nat × Int)) : (logCommit s code p).conv = s.conv := pushEvent_conv s _
@[simp] theorem logCommit_xpt (s : State) (code : Nat) (p : List (Nat × Int)) : (logCommit s code p).xpt = s.xpt := pushEvent_xpt s _
@[simp] theorem logCommit_strm (s : State) (code : Nat) (p : List (Nat × Int)) : (logCommit s code p).strm = s.strm := pushEvent_strm s _
@[simp] theorem logCommit_take (s : State) (code : Nat) (p : List (Nat × Int)) : (logCommit s code p).take = s.take := pushEvent_take s _
@[simp] theorem logCommit_pipe (s : State) (code : Nat) (p : List (Nat × Int)) : (logCommit s code p).pipe = s.pipe := pushEvent_pipe s _
@[simp] theorem logCommit_pair (s : State) (code : Nat) (p : List (Nat × Int)) : (logCommit s code p).pair = s.pair := pushEvent_pair s _
@[simp] theorem logCommit_lio (s : State) (code : Nat) (p : List (Nat × Int)) : (logCommit s code p).lio = s.lio := pushEvent_lio s _
@[simp] theorem logCommit_dram (s : State) (code : Nat) (p : List (Nat × Int)) : (logCommit s code p).dram = s.dram := pushEvent_dram s _
@[simp] theorem logCommit_mem (s : State) (code : Nat) (p : List (Nat × Int)) : (logCommit s code p).mem = s.mem := pushEvent_mem s _
@[simp] theorem logCommit_rdata (s : State) (code : Nat) (p : List (Nat × Int)) : (logCommit s code p).rdata = s.rdata := pushEvent_rdata s _
@[simp] theorem logCommit_freeCtr (s : State) (code : Nat) (p : List (Nat × Int)) : (logCommit s code p).freeCtr = s.freeCtr := pushEvent_freeCtr s _

/-! Taking a free value advances its counter only. -/

@[simp] theorem freeBits_pending (w : Nat) (s : State) : (freeBits w s).2.pending = s.pending := rfl
@[simp] theorem freeBits_hw (w : Nat) (s : State) : (freeBits w s).2.hw = s.hw := rfl
@[simp] theorem freeBits_regs (w : Nat) (s : State) : (freeBits w s).2.regs = s.regs := rfl
@[simp] theorem freeBits_view (w : Nat) (s : State) : (freeBits w s).2.view = s.view := rfl
@[simp] theorem freeBits_latch (w : Nat) (s : State) : (freeBits w s).2.latch = s.latch := rfl
@[simp] theorem freeBits_tl (w : Nat) (s : State) : (freeBits w s).2.tl = s.tl := rfl
@[simp] theorem freeBits_log (w : Nat) (s : State) : (freeBits w s).2.log = s.log := rfl
@[simp] theorem freeBits_ccp (w : Nat) (s : State) : (freeBits w s).2.ccp = s.ccp := rfl
@[simp] theorem freeBits_pwr (w : Nat) (s : State) : (freeBits w s).2.pwr = s.pwr := rfl
@[simp] theorem freeBits_portA (w : Nat) (s : State) : (freeBits w s).2.portA = s.portA := rfl
@[simp] theorem freeBits_portB (w : Nat) (s : State) : (freeBits w s).2.portB = s.portB := rfl
@[simp] theorem freeBits_time (w : Nat) (s : State) : (freeBits w s).2.time = s.time := rfl
@[simp] theorem freeBits_clk (w : Nat) (s : State) : (freeBits w s).2.clk = s.clk := rfl
@[simp] theorem freeBits_geo (w : Nat) (s : State) : (freeBits w s).2.geo = s.geo := rfl
@[simp] theorem freeBits_path (w : Nat) (s : State) : (freeBits w s).2.path = s.path := rfl
@[simp] theorem freeBits_kpu (w : Nat) (s : State) : (freeBits w s).2.kpu = s.kpu := rfl
@[simp] theorem freeBits_disp (w : Nat) (s : State) : (freeBits w s).2.disp = s.disp := rfl
@[simp] theorem freeBits_fab (w : Nat) (s : State) : (freeBits w s).2.fab = s.fab := rfl
@[simp] theorem freeBits_fw (w : Nat) (s : State) : (freeBits w s).2.fw = s.fw := rfl
@[simp] theorem freeBits_conv (w : Nat) (s : State) : (freeBits w s).2.conv = s.conv := rfl
@[simp] theorem freeBits_xpt (w : Nat) (s : State) : (freeBits w s).2.xpt = s.xpt := rfl
@[simp] theorem freeBits_strm (w : Nat) (s : State) : (freeBits w s).2.strm = s.strm := rfl
@[simp] theorem freeBits_take (w : Nat) (s : State) : (freeBits w s).2.take = s.take := rfl
@[simp] theorem freeBits_pipe (w : Nat) (s : State) : (freeBits w s).2.pipe = s.pipe := rfl
@[simp] theorem freeBits_pair (w : Nat) (s : State) : (freeBits w s).2.pair = s.pair := rfl
@[simp] theorem freeBits_lio (w : Nat) (s : State) : (freeBits w s).2.lio = s.lio := rfl
@[simp] theorem freeBits_dram (w : Nat) (s : State) : (freeBits w s).2.dram = s.dram := rfl
@[simp] theorem freeBits_mem (w : Nat) (s : State) : (freeBits w s).2.mem = s.mem := rfl
@[simp] theorem freeBits_rdata (w : Nat) (s : State) : (freeBits w s).2.rdata = s.rdata := rfl

end Sys2Proof.Machine
end

