-- ==== Sys2Proof/Laws/Kpu.lean ====
section
/-! SUPPORT. Laws of the shared operations of the kernel processors: what an operation that executes does, what completing a
bundle does on a core with nothing else under way, and what an exception leaves. -/

namespace Sys2Proof.Machine

open Sys2Proof

set_option Elab.async false

/-- A core that issues is one of the 32 of the model. -/
theorem mayIssue_lt {s : State} {k : Nat} (h : mayIssue s k = true) : k < 32 := by
  simp only [mayIssue, coresPresent] at h
  split at h <;> simp at h <;> omega

theorem vLanes_getD (c : Core) (r k : Nat) (h : k < 4) : (c.vLanes r).getD k 0 = laneOf c r k := by
  match k, h with
  | 0, _ => rfl
  | 1, _ => rfl
  | 2, _ => rfl
  | 3, _ => rfl

/-- What is in flight depends on the four lane values only. -/
theorem vecFlight_congr (c : Core) (h : KHd) (r lat : Nat) (f g : Nat → Int) (p q : Nat → Bool)
    (hf : ∀ k, k < 4 → f k = g k) (hp : ∀ k, k < 4 → p k = q k) : vecFlight c h r lat f p = vecFlight c h r lat g q := by
  simp [vecFlight, hf, hp]

theorem issuesAcc_congr (s : State) (h : KHd) (r : Nat) (add : Bool) (f g : Nat → Int) (hf : ∀ k, k < 4 → f k = g k) :
    issuesAcc s h r add f = issuesAcc s h r add g := by
  simp [issuesAcc, hf]

/-- A vector operation that executes puts its lane values in flight. -/
theorem vecOp_acts (s : State) (h : KHd) (srcs rs : List Nat) (d rd lat : Nat) (f : List (List Int) → Nat → Int × Bool)
    (hv : VecActs s h) (hs : srcs.mapM (coreOf s h.core).vPhys = some rs) (hd : (coreOf s h.core).vPhys d = some rd) :
    vecOp s h true srcs d lat f = issueFlight s h.core (vecFlight (coreOf s h.core) h rd lat
      (fun k => (f (rs.map (coreOf s h.core).vLanes) k).1) (fun k => (f (rs.map (coreOf s h.core).vLanes) k).2)) := by
  obtain ⟨m1, m2, m3, m4⟩ := hv
  simp only [vecOp, m1, m2, m3, m4, hs, hd]
  simp [vecFlight, List.range, List.range.loop, Nat.add_assoc]

/-- An accumulator operation that executes puts its lane terms in flight. -/
theorem accOp_acts (s : State) (h : KHd) (add : Bool) (srcs rs : List Nat) (acc r : Nat) (f : List (List Int) → Nat → Int)
    (hv : VecActs s h) (hs : srcs.mapM (coreOf s h.core).vPhys = some rs) (hr : (coreOf s h.core).aPhys acc = some r) :
    accOp s h true add srcs acc f = issuesAcc s h r add (f (rs.map (coreOf s h.core).vLanes)) := by
  obtain ⟨m1, m2, m3, m4⟩ := hv
  simp only [accOp, m1, m2, m3, m4, hs, hr]
  simp [issuesAcc, List.range, List.range.loop]

/-- A comparison that executes puts its predicate in flight. -/
theorem cmpOp_acts (s : State) (h : KHd) (a b pd ra rb : Nat) (f : Int → Int → Bool) (hv : VecActs s h)
    (ha : (coreOf s h.core).vPhys a = some ra) (hb : (coreOf s h.core).vPhys b = some rb) :
    cmpOp s h a b pd f = issuesPred s h pd fun k =>
      f (((coreOf s h.core).vLanes ra).getD k 0) (((coreOf s h.core).vLanes rb).getD k 0) := by
  obtain ⟨m1, m2, m3, m4⟩ := hv
  simp only [cmpOp, m1, m2, m3, m4, ha, hb]
  simp [issuesPred, Core.bank, List.range, List.range.loop, Nat.add_assoc]

/-- A CT operation that executes completes its bundle, or stops the core with the cause of its exception. -/
theorem ctOp_acts (s : State) (h : KHd) (run : Core → Except Nat CtAct) (hc : CtActs s h) :
    ctOp s h run = match run (coreOf s h.core) with
      | .ok act => closeBundle s h.core act
      | .error cause => kpuFault s h.core cause 0 := by
  obtain ⟨a, b, c, d, e⟩ := hc
  simp only [ctOp, a, b, c, d, e]
  simp
  all_goals (split <;> simp_all)

theorem ctRuns_acts (s : State) (h : KHd) (hc : CtActs s h) : ctRuns s h = true := by
  obtain ⟨a, b, c, d, e⟩ := hc
  simp [ctRuns, *]

/-- A bundle that writes nothing, on a core with nothing else under way, moves on to the next bundle. -/
theorem closeBundle_none (s : State) (k : Nat) (hk : k < 32) (hq : Quiet s k) :
    closeBundle s k CtAct.none = setCore s k (nextBundle (coreOf s k)) := by
  obtain ⟨q1, q2, q3, q4, q5⟩ := hq
  simp [closeBundle, q4, q5, CtAct.none, q1, q2, q3, loopEdge, takeBranch, landAll, losers, hk, nextBundle]

/-- One result lands as the bundle ends, on a core with nothing else under way. -/
theorem closeBundle_land (s : State) (k : Nat) (f : Flight) (hq : Quiet s k) (hl : f.left = 1) :
    closeBundle s k { CtAct.none with flights := [f] } =
      landAll (setCore s k (nextBundle (coreOf s k))) k [{ f with left := 0, age := f.age + 1 }] := by
  obtain ⟨q1, q2, q3, q4, q5⟩ := hq
  simp only [closeBundle, q4, q5, CtAct.none, q1, q2]
  simp [loopEdge, takeBranch, nextBundle, q1, q2, q3, hl]

/-- No result beats itself. -/
theorem Flight.beats_self (f : Flight) : f.beats f = false := by simp [Flight.beats]

/-- A result that lands alone loses nothing. -/
theorem losers_one (f : Flight) : losers [f] = 0 := by simp [losers, Flight.beats_self]

/-- A result outside the vector files saturates nothing. -/
theorem landReg_sat (c : Core) (due : List Flight) (f : Flight) (ha : f.file ≠ .a) (hv : f.file ≠ .v) :
    (landReg c due f).2 = false := by
  cases h : f.file <;> simp [landReg, h] at ha hv ⊢
  all_goals (split <;> rfl)

/-- What one result does that lands alone in a register. -/
theorem landAll_one (s : State) (k : Nat) (c : Core) (f : Flight) (hk : k < 32) (hm : f.file ≠ .m)
    (ha : f.file ≠ .a) (hv : f.file ≠ .v) :
    landAll (setCore s k c) k [f] =
      setCore s k ((if f.file = .s then fun c => sprWrite c f else id) (landReg c [f] f).1) := by
  have h1 := landReg_sat c [f] f ha hv
  by_cases h : f.file = .s <;> simp [landAll, losers_one, h1, hm, h, hk]

/-- A bundle whose one result lands as it ends, on a core with nothing else under way. -/
theorem closeBundle_one (s : State) (k : Nat) (f : Flight) (hk : k < 32) (hq : Quiet s k) (hl : f.left = 1) (hm : f.file ≠ .m)
    (ha : f.file ≠ .a) (hv : f.file ≠ .v) :
    closeBundle s k { CtAct.none with flights := [f] } = setCore s k
      ((if f.file = .s then fun c => sprWrite c { f with left := 0, age := f.age + 1 } else id)
        (landReg (nextBundle (coreOf s k)) [{ f with left := 0, age := f.age + 1 }] { f with left := 0, age := f.age + 1 }).1) := by
  rw [closeBundle_land s k f hq hl]
  exact landAll_one s k _ { f with left := 0, age := f.age + 1 } hk hm ha hv

/-- A result that lands alone in an address register. -/
theorem landReg_x (c : Core) (r l a : Nat) (v : Int) :
    (landReg c [{ ctFlight .x r l v with left := 0, age := a }] { ctFlight .x r l v with left := 0, age := a }).1 =
      { c with x := Sparse.putN c.x r (v % 2 ^ 32).toNat } := by
  simp [landReg, Flight.wins, Flight.collides, Flight.beats, ctFlight, unsigned]

theorem landReg_b (c : Core) (r l a : Nat) (v : Int) :
    (landReg c [{ ctFlight .b r l v with left := 0, age := a }] { ctFlight .b r l v with left := 0, age := a }).1 =
      { c with base := Sparse.putN c.base r (v % 2 ^ 18).toNat } := by
  simp [landReg, Flight.wins, Flight.collides, Flight.beats, ctFlight, unsigned]

theorem landReg_l (c : Core) (r l a : Nat) (v : Int) :
    (landReg c [{ ctFlight .l r l v with left := 0, age := a }] { ctFlight .l r l v with left := 0, age := a }).1 =
      { c with len := Sparse.putN c.len r (v % 2 ^ 19).toNat } := by
  simp [landReg, Flight.wins, Flight.collides, Flight.beats, ctFlight, unsigned]

/-! ### What landing results leave alone -/

theorem landReg_pc (c : Core) (d : List Flight) (f : Flight) : (landReg c d f).1.pc = c.pc := by
  unfold landReg; dsimp only; split <;> try rfl
  · exact foldl_keeps (fun r : Core × Bool => r.1.pc) _ (by intro r k; split <;> rfl) _ _
  · split <;> rfl

theorem stagePreds_pc (c : Core) : (stagePreds c).pc = c.pc := by
  unfold stagePreds; split
  · rfl
  · exact foldl_keeps (fun r : Core => r.pc) _ (by intro r k; rfl) _ _

theorem sprWrite_pc (c : Core) (f : Flight) : (sprWrite c f).pc = c.pc := by
  unfold sprWrite; dsimp only; split <;> try rfl
  · split <;> rfl
  · split
    · split
      · exact stagePreds_pc _
      · rfl
    · rfl
  · split <;> rfl

@[simp] theorem storeBytes_kpu (s : State) (f : Flight) : (storeBytes s f).kpu = s.kpu := by
  unfold storeBytes
  exact foldl_keeps (fun t : State => t.kpu) _ (by intro t k; split <;> rfl) _ _

@[simp] theorem storeBytes_regs (s : State) (f : Flight) : (storeBytes s f).regs = s.regs := by
  unfold storeBytes
  exact foldl_keeps (fun t : State => t.regs) _ (by intro t k; split <;> rfl) _ _

/-- A store that lands keeps the canonical form of memory. -/
theorem wf_storeBytes (s : State) (f : Flight) (w : Memory.wf s.mem = true) : Memory.wf (storeBytes s f).mem = true := by
  unfold storeBytes
  refine foldl_invariant (fun t : State => Memory.wf t.mem = true) _ ?_ _ _ w
  intro t k ht; split
  · exact wf_memWrite _ _ _ ht
  · exact ht

/-- Counting saturations and collisions touches neither the cores nor memory. -/
theorem landCounts_frame (t : State) (b : Bool) (n : Nat) :
    (if n = 0 then (if b then addCtr t Reg.KPU_SATCNT 1 else t)
      else raise (addCtr (if b then addCtr t Reg.KPU_SATCNT 1 else t) Reg.KPU_WCOLL n) 9 1).kpu = t.kpu ∧
    (if n = 0 then (if b then addCtr t Reg.KPU_SATCNT 1 else t)
      else raise (addCtr (if b then addCtr t Reg.KPU_SATCNT 1 else t) Reg.KPU_WCOLL n) 9 1).mem = t.mem := by
  cases b <;> split <;> (try simp only [raise_kpu, raise_mem]) <;> exact ⟨rfl, rfl⟩

theorem storeAll_kpu (l : List Flight) (t : State) : (l.foldl storeBytes t).kpu = t.kpu :=
  foldl_keeps (fun c : State => c.kpu) _ (by intro c f; exact storeBytes_kpu c f) _ _

theorem storeAll_setCore_pc (l : List Flight) (s : State) (k : Nat) (c : Core) (hk : k < 32) :
    (coreOf (l.foldl storeBytes (setCore s k c)) k).pc = c.pc := by
  have h : coreOf (l.foldl storeBytes (setCore s k c)) k = coreOf (setCore s k c) k := by
    simp only [coreOf, storeAll_kpu]
  rw [h, coreOf_setCore_same _ _ _ hk]

theorem wf_storeAll (l : List Flight) (t : State) (w : Memory.wf t.mem = true) : Memory.wf (l.foldl storeBytes t).mem = true :=
  foldl_invariant (fun c : State => Memory.wf c.mem = true) _ (fun c f hc => wf_storeBytes c f hc) _ _ w

theorem sprWrites_pc (l : List Flight) (c : Core) : (l.foldl sprWrite c).pc = c.pc :=
  foldl_keeps (fun c : Core => c.pc) _ (by intro c f; exact sprWrite_pc c f) _ _

theorem landRegs_pc (l due : List Flight) (c : Core) (b : Bool) :
    (l.foldl (fun (r : Core × Bool) f => ((landReg r.1 due f).1, r.2 || (landReg r.1 due f).2)) (c, b)).1.pc = c.pc :=
  foldl_keeps (fun r : Core × Bool => r.1.pc) _ (by intro r f; exact landReg_pc r.1 due f) _ _

/-- Landing results leaves the program counter alone. -/
theorem landAll_pc (s : State) (k : Nat) (due : List Flight) (hk : k < 32) :
    (coreOf (landAll s k due) k).pc = (coreOf s k).pc := by
  unfold landAll
  dsimp only
  have cg : ∀ x y : State, x.kpu = y.kpu → coreOf x k = coreOf y k := fun x y h => by simp [coreOf, h]
  rw [cg _ _ (landCounts_frame _ _ _).1, storeAll_setCore_pc _ _ _ _ hk]
  exact (sprWrites_pc _ _).trans (landRegs_pc _ _ _ _)

/-- Landing results keeps the canonical form of memory. -/
theorem wf_landAll (s : State) (k : Nat) (due : List Flight) (w : Memory.wf s.mem = true) :
    Memory.wf (landAll s k due).mem = true := by
  unfold landAll
  dsimp only
  rw [(landCounts_frame _ _ _).2]
  exact wf_storeAll _ _ w

theorem drainFlights_pc (n : Nat) (s : State) (k : Nat) (hk : k < 32) :
    (coreOf (drainFlights n s k) k).pc = (coreOf s k).pc := by
  induction n generalizing s with
  | zero => rfl
  | succ n ih =>
    unfold drainFlights; dsimp only; split
    · rfl
    · rw [ih, landAll_pc _ _ _ hk, coreOf_setCore_same _ _ _ hk]

/-- Draining what is in flight keeps the canonical form of memory. -/
theorem wf_drainFlights (n : Nat) (s : State) (k : Nat) (w : Memory.wf s.mem = true) :
    Memory.wf (drainFlights n s k).mem = true := by
  induction n generalizing s with
  | zero => exact w
  | succ n ih =>
    unfold drainFlights; dsimp only; split
    · exact w
    · exact ih _ (wf_landAll _ _ _ w)

end Sys2Proof.Machine
end

