-- ==== Sys2Proof/Laws/Ring.lean ====
section
/-! SUPPORT. Laws of the BAR2 rings (R253): bytes stored from an offset on read back, every other byte stays. -/

namespace Sys2Proof.Machine

open Sys2Proof

set_option Elab.async false

/-- Bytes stored one by one, each at a place of its own, leave every other place as it was. -/
theorem read_stores_outside (at_ : Nat → Nat) (l : List (Byte × Nat)) (m : Memory) (p : Nat) (h : ∀ x ∈ l, p ≠ at_ x.2) :
    Memory.read (l.foldl (fun m x => Memory.write m (at_ x.2) x.1) m) p = Memory.read m p := by
  induction l generalizing m with
  | nil => rfl
  | cons x t ih =>
    rw [List.foldl_cons, ih _ fun y hy => h y (List.mem_cons_of_mem _ hy), Memory.read_write, if_neg (h x List.mem_cons_self)]

/-- A ring keeps every byte that a store does not cover. -/
theorem read_ringStore_outside (m : Memory) (base ofs : Nat) (b : Bytes) (p : Nat)
    (h : ∀ i : Nat, i < b.length → p ≠ base + (ofs + i) % 65536) : Memory.read (ringStore m base ofs b) p = Memory.read m p := by
  refine read_stores_outside (fun i => base + (ofs + i) % 65536) _ m p fun x hx => h x.2 ?_
  have := List.snd_lt_add_of_mem_zipIdx hx
  omega

/-- The bytes of a store read back, around the end of the ring as well. -/
theorem read_ringStore (m : Memory) (base ofs : Nat) (b : Bytes) (i : Nat) (hb : b.length ≤ 65536) (hi : i < b.length) :
    Memory.read (ringStore m base ofs b) (base + (ofs + i) % 65536) = b[i] := by
  unfold ringStore
  suffices H : ∀ (b : Bytes) (k : Nat) (m : Memory) (i : Nat) (hi : i < b.length), k + b.length ≤ 65536 →
      Memory.read ((b.zipIdx k).foldl (fun m x => Memory.write m (base + (ofs + x.2) % 65536) x.1) m)
        (base + (ofs + (k + i)) % 65536) = b[i] by
    simpa using H b 0 m i hi (by omega)
  intro b
  induction b with
  | nil => intro k m i hi; simp at hi
  | cons x t ih =>
    intro k m i hi hk
    simp only [List.length_cons] at hi hk
    simp only [List.zipIdx_cons, List.foldl_cons]
    match i with
    | 0 =>
      rw [read_stores_outside (fun j => base + (ofs + j) % 65536), Memory.read_write, if_pos (by simp)]
      · rfl
      · intro y hy
        have h1 := List.le_snd_of_mem_zipIdx hy
        have h2 := List.snd_lt_add_of_mem_zipIdx hy
        omega
    | j + 1 =>
      rw [show k + (j + 1) = k + 1 + j by omega, ih (k + 1) _ j (by omega) (by omega)]
      rfl

/-- The command ring returns a packet the host has stored from an offset on. -/
theorem cmdBytes_ringStore (s : State) (ofs : Nat) (b : Bytes) (n : Nat) (hb : b.length ≤ 65536) (hn : n ≤ b.length) :
    cmdBytes { s with ccp := { s.ccp with bar2 := ringStore s.ccp.bar2 0 ofs b } } ofs n = b.take n := by
  unfold cmdBytes
  apply List.ext_getElem
  · simp [hn]
  · intro i h1 h2
    simp only [List.length_map, List.length_range] at h1
    have := read_ringStore s.ccp.bar2 0 ofs b i hb (by omega)
    simpa using this

end Sys2Proof.Machine
end

