-- ==== Sys2Proof/WellFormed.lean ====
section
/-! DEFINITION. Well-formed commands: every operand within the field the spec gives it. A sender sends these; the meanings are
total and take the rest too. -/

namespace Sys2Proof

/-- The header of a kernel operation: core, slot, guard predicate, reserved bits of its format (R132 to R134). -/
def khdOk (h : KHd) : Bool := decide (h.core < 32) && decide (h.slot < 4) && decide (h.gp < 8) && decide (h.rsv < 2 ^ 20)

/-- The address operands of an LS operation (R145). -/
def kaddrOk (a : KAddr) : Bool := decide (-128 ≤ a.ofs ∧ a.ofs < 128) && decide (a.md < 4) && decide (a.x < 16)

/-- A CCP session names a source (R247). -/
def sessOk : Sess → Bool
  | .udp ip port => decide (ip < 2 ^ 32) && decide (port < 2 ^ 16)
  | _ => true

/-- The header of a CCP command fits its fields (R243, R244). -/
def hdrOk (h : CcpHdr) : Bool :=
  sessOk h.sess && decide (h.nport < 2) && decide (h.mac < 2 ^ 48) && decide (h.version < 2 ^ 8) && decide (h.flags < 2 ^ 8) &&
  decide (h.status < 2 ^ 16) && decide (h.seq < 2 ^ 32) && decide (h.f < 2 ^ 64) && decide (h.keyId < 2 ^ 32) && h.tag.length == 16

/-- The parameters of a CCP command fit their fields and a payload (R243, R261). -/
def opFits : CcpOp → Bool
  | .ping d => decide (d.length ≤ 16384)
  | .read a n => decide (a < 2 ^ 32) && decide (n < 2 ^ 16)
  | .write a l => decide (a < 2 ^ 32) && decide (l.length ≤ 4094) && l.all (fun v => decide (v < 2 ^ 32))
  | .modify a m v => decide (a < 2 ^ 32) && decide (m < 2 ^ 32) && decide (v < 2 ^ 32)
  | .snapshot f l => decide (f < 2 ^ 64) && decide (l.length ≤ 2046) && l.all (fun r => decide (r.1 < 2 ^ 32) && decide (r.2 < 2 ^ 16))
  | .stageBegin n g => decide (n < 2 ^ 32) && decide (g < 2 ^ 32)
  | .stageData o d => decide (o < 2 ^ 32) && decide (d.length ≤ 16380)
  | .stageFromReel k => decide (k < 256)
  | .cut m h t0 t1 g =>
    decide (m < 256) && decide (h < 256) && decide (t0 < 2 ^ 64) && decide (t1 < 2 ^ 32) && g.length == 16
  | .reelBegin k n => decide (k < 256) && decide (n < 2 ^ 32)
  | .reelData k o d => decide (k < 256) && decide (o < 2 ^ 32) && decide (d.length ≤ 16376)
  | .reelEnd k => decide (k < 256)
  | .reelDelete k => decide (k < 256)
  | .logRead a n => decide (a < 2 ^ 32) && decide (n < 2 ^ 16)
  | .pairSwitchover f => decide (f < 2 ^ 64)
  | .setBegin b k n => decide (b < 2 ^ 16) && decide (k < 256) && decide (n < 2 ^ 32)
  | .setData o d => decide (o < 2 ^ 32) && decide (d.length ≤ 16380)
  | .setChange b k f x => decide (b < 2 ^ 16) && decide (k < 256) && decide (f < 2 ^ 64) && decide (x < 2 ^ 16)
  | .setQuery b => decide (b < 2 ^ 16)
  | .genStart f => decide (f < 2 ^ 64)
  | .genStop f => decide (f < 2 ^ 64)
  | .fwBegin i n => decide (i < 256) && decide (n < 2 ^ 32)
  | .fwData o d => decide (o < 2 ^ 32) && decide (d.length ≤ 16380)
  | .fwSwitch i f => decide (i < 256) && decide (f < 2 ^ 64)
  | .metaInject b => decide (b.length ≤ 16384)
  | .memFsp t => decide (t < 256)
  | .eccInject k kind o => decide (k < 256) && decide (kind < 256) && decide (o < 2 ^ 32)
  | _ => true

/-- A well-formed command. -/
def wellFormed : Instr → Bool
  | .frameBoundary _ => true
  | .pathRender => true
  | .correctionGroupStart g => decide (g < 16)
  | .convBlockWork c p => decide (c < 512) && [32, 64, 128, 256, 512, 1024, 2048].contains p
  | .setConversionDone c slot => decide (c < 512) && decide (slot < 4)
  | .safetyStage => true
  | .emissionCutoff => true
  | .rootPllRelockDone => true
  | .dispatcherCycle => true
  | .tdoneDrainEnd k _ => decide (k < 32)
  | .tsigDrainEnd k _ => decide (k < 32)
  | .nop h => khdOk h
  | .vadd h b a d => khdOk h && decide (b < 64) && decide (a < 64) && decide (d < 64)
  | .vsub h b a d => khdOk h && decide (b < 64) && decide (a < 64) && decide (d < 64)
  | .vneg h b a d => khdOk h && decide (b < 64) && decide (a < 64) && decide (d < 64)
  | .vabs h b a d => khdOk h && decide (b < 64) && decide (a < 64) && decide (d < 64)
  | .vmin h b a d => khdOk h && decide (b < 64) && decide (a < 64) && decide (d < 64)
  | .vmax h b a d => khdOk h && decide (b < 64) && decide (a < 64) && decide (d < 64)
  | .vand h b a d => khdOk h && decide (b < 64) && decide (a < 64) && decide (d < 64)
  | .vor h b a d => khdOk h && decide (b < 64) && decide (a < 64) && decide (d < 64)
  | .vxor h b a d => khdOk h && decide (b < 64) && decide (a < 64) && decide (d < 64)
  | .vshl h b a d => khdOk h && decide (b < 64) && decide (a < 64) && decide (d < 64)
  | .vshr h b a d => khdOk h && decide (b < 64) && decide (a < 64) && decide (d < 64)
  | .vlsr h b a d => khdOk h && decide (b < 64) && decide (a < 64) && decide (d < 64)
  | .vshli h imm a d => khdOk h && decide (imm < 256) && decide (a < 64) && decide (d < 64)
  | .vshri h imm a d => khdOk h && decide (imm < 256) && decide (a < 64) && decide (d < 64)
  | .vmov h b a d => khdOk h && decide (b < 64) && decide (a < 64) && decide (d < 64)
  | .vbcast h imm a d => khdOk h && decide (imm < 256) && decide (a < 64) && decide (d < 64)
  | .vperm h imm a d => khdOk h && decide (imm < 256) && decide (a < 64) && decide (d < 64)
  | .vmul h b a d => khdOk h && decide (b < 64) && decide (a < 64) && decide (d < 64)
  | .vmulq h b a d => khdOk h && decide (b < 64) && decide (a < 64) && decide (d < 64)
  | .vnar h imm a d => khdOk h && decide (imm < 256) && decide (a < 64) && decide (d < 64)
  | .vcmpeq h b a pd => khdOk h && decide (b < 64) && decide (a < 64) && decide (pd < 8)
  | .vcmplt h b a pd => khdOk h && decide (b < 64) && decide (a < 64) && decide (pd < 8)
  | .vcmple h b a pd => khdOk h && decide (b < 64) && decide (a < 64) && decide (pd < 8)
  | .vmovx h b a d => khdOk h && decide (b < 64) && decide (a < 64) && decide (d < 64)
  | .mul h ln b a acc => khdOk h && decide (ln < 4) && decide (b < 64) && decide (a < 64) && decide (acc < 8)
  | .mac h ln b a acc => khdOk h && decide (ln < 4) && decide (b < 64) && decide (a < 64) && decide (acc < 8)
  | .msu h ln b a acc => khdOk h && decide (ln < 4) && decide (b < 64) && decide (a < 64) && decide (acc < 8)
  | .mulb h ln b a acc => khdOk h && decide (ln < 4) && decide (b < 64) && decide (a < 64) && decide (acc < 8)
  | .macb h ln b a acc => khdOk h && decide (ln < 4) && decide (b < 64) && decide (a < 64) && decide (acc < 8)
  | .msub h ln b a acc => khdOk h && decide (ln < 4) && decide (b < 64) && decide (a < 64) && decide (acc < 8)
  | .cmac h ln b a acc => khdOk h && decide (ln < 4) && decide (b < 64) && decide (a < 64) && decide (acc < 8)
  | .cmacj h ln b a acc => khdOk h && decide (ln < 4) && decide (b < 64) && decide (a < 64) && decide (acc < 8)
  | .aclr h shift acc v => khdOk h && decide (shift < 64) && decide (acc < 8) && decide (v < 64)
  | .accld h shift acc v => khdOk h && decide (shift < 64) && decide (acc < 8) && decide (v < 64)
  | .accadd h shift acc v => khdOk h && decide (shift < 64) && decide (acc < 8) && decide (v < 64)
  | .arnd h shift acc v => khdOk h && decide (shift < 64) && decide (acc < 8) && decide (v < 64)
  | .ldv h a v => khdOk h && kaddrOk a && decide (v < 64)
  | .lds h a v => khdOk h && kaddrOk a && decide (v < 64)
  | .stv h a v => khdOk h && kaddrOk a && decide (v < 64)
  | .sts h a v => khdOk h && kaddrOk a && decide (v < 64)
  | .ldx h a v => khdOk h && kaddrOk a && decide (v < 16)
  | .stx h a v => khdOk h && kaddrOk a && decide (v < 64)
  | .addX h b a d => khdOk h && decide (b < 16) && decide (a < 16) && decide (d < 16)
  | .subX h b a d => khdOk h && decide (b < 16) && decide (a < 16) && decide (d < 16)
  | .andX h b a d => khdOk h && decide (b < 16) && decide (a < 16) && decide (d < 16)
  | .orX h b a d => khdOk h && decide (b < 16) && decide (a < 16) && decide (d < 16)
  | .xorX h b a d => khdOk h && decide (b < 16) && decide (a < 16) && decide (d < 16)
  | .shl h b a d => khdOk h && decide (b < 16) && decide (a < 16) && decide (d < 16)
  | .shr h b a d => khdOk h && decide (b < 16) && decide (a < 16) && decide (d < 16)
  | .sra h b a d => khdOk h && decide (b < 16) && decide (a < 16) && decide (d < 16)
  | .addi h simm a d => khdOk h && decide (-2048 ≤ simm ∧ simm < 2048) && decide (a < 16) && decide (d < 16)
  | .movi h _ imm d => khdOk h && decide (imm < 65536) && decide (d < 16)
  | .cmp h cond b a pd => khdOk h && decide (cond < 8) && decide (b < 16) && decide (a < 16) && decide (pd < 8)
  | .movv h ln v d => khdOk h && decide (ln < 4) && decide (v < 64) && decide (d < 16)
  | .br h target => khdOk h && decide (target < 4096)
  | .brx h b a d => khdOk h && decide (b < 16) && decide (a < 16) && decide (d < 16)
  | .call h target => khdOk h && decide (target < 4096)
  | .zloop h a stg target => khdOk h && decide (a < 16) && decide (stg < 8) && decide (target < 4096)
  | .setbase h b a d => khdOk h && decide (b < 16) && decide (a < 16) && decide (d < 16)
  | .setlen h b a d => khdOk h && decide (b < 16) && decide (a < 16) && decide (d < 16)
  | .mfs h spr x cyc => khdOk h && decide (spr < 256) && decide (x < 16) && decide (cyc < 2 ^ 32)
  | .mts h spr x => khdOk h && decide (spr < 256) && decide (x < 16)
  | .dmaq h a ch => khdOk h && decide (a < 16) && decide (ch < 4)
  | .dmaqQueueSpace k _ => decide (k < 32)
  | .dmaw h a ch => khdOk h && decide (a < 16) && decide (ch < 4)
  | .dmawReturn k _ => decide (k < 32)
  | .dmaTransferDone k _ => decide (k < 32)
  | .tdone h => khdOk h
  | .tsig h a => khdOk h && decide (a < 16)
  | .swi h => khdOk h
  | .rfi h => khdOk h
  | .bkpt h => khdOk h
  | .interruptEntry k => decide (k < 32)
  | .kpuMbox k v => decide (k < 32) && decide (v < 2 ^ 32)
  | .kpuFaultClear v => decide (v < 2 ^ 32)
  | .kpuDivRequest v => decide (v < 2 ^ 32)
  | .kpuGateRequest v => decide (v < 2 ^ 32)
  | .dispCancel v => decide (v < 2 ^ 32)
  | .dispHistclr v => decide (v < 2 ^ 32)
  | .geomForce v => decide (v < 2 ^ 32)
  | .xptNgainWrite v => decide (v < 2 ^ 32)
  | .xptCeillimWrite v => decide (v < 2 ^ 32)
  | .xptFmuteSet v => decide (v < 2 ^ 32)
  | .xptFmuteClear v => decide (v < 2 ^ 32)
  | .xptHoldClear v => decide (v < 2 ^ 32)
  | .houseMuteAssert => true
  | .houseMuteRelease => true
  | .identify h => hdrOk h && opFits .identify
  | .ping h data => hdrOk h && opFits (.ping data)
  | .time h => hdrOk h && opFits .time
  | .read h a n => hdrOk h && opFits (.read a n)
  | .write h a l => hdrOk h && opFits (.write a l)
  | .modify h a m v => hdrOk h && opFits (.modify a m v)
  | .snapshot h f l => hdrOk h && opFits (.snapshot f l)
  | .stageBegin h n g => hdrOk h && opFits (.stageBegin n g)
  | .stageData h o d => hdrOk h && opFits (.stageData o d)
  | .stageEnd h => hdrOk h && opFits .stageEnd
  | .stageFromReel h k => hdrOk h && opFits (.stageFromReel k)
  | .reelCopyDone => true
  | .stageCheckResume => true
  | .stageCheckDone => true
  | .stageDiscard h => hdrOk h && opFits .stageDiscard
  | .stageStatus h => hdrOk h && opFits .stageStatus
  | .cut h m hard t0 t1 g => hdrOk h && opFits (.cut m hard t0 t1 g)
  | .cutCancel h => hdrOk h && opFits .cutCancel
  | .reelBegin h k n => hdrOk h && opFits (.reelBegin k n)
  | .reelData h k o d => hdrOk h && opFits (.reelData k o d)
  | .reelEnd h k => hdrOk h && opFits (.reelEnd k)
  | .reelDelete h k => hdrOk h && opFits (.reelDelete k)
  | .reelList h => hdrOk h && opFits .reelList
  | .logRead h a n => hdrOk h && opFits (.logRead a n)
  | .logInfo h => hdrOk h && opFits .logInfo
  | .logSpill h => hdrOk h && opFits .logSpill
  | .logClear h => hdrOk h && opFits .logClear
  | .pairStatus h => hdrOk h && opFits .pairStatus
  | .pairSwitchover h f => hdrOk h && opFits (.pairSwitchover f)
  | .pairResync h => hdrOk h && opFits .pairResync
  | .setBegin h b k n => hdrOk h && opFits (.setBegin b k n)
  | .setData h o d => hdrOk h && opFits (.setData o d)
  | .setEnd h => hdrOk h && opFits .setEnd
  | .setChange h b k f x => hdrOk h && opFits (.setChange b k f x)
  | .setQuery h b => hdrOk h && opFits (.setQuery b)
  | .genStart h f => hdrOk h && opFits (.genStart f)
  | .genStop h f => hdrOk h && opFits (.genStop f)
  | .fwBegin h i n => hdrOk h && opFits (.fwBegin i n)
  | .fwData h o d => hdrOk h && opFits (.fwData o d)
  | .fwEnd h => hdrOk h && opFits .fwEnd
  | .fwSwitch h i f => hdrOk h && opFits (.fwSwitch i f)
  | .fwStatus h => hdrOk h && opFits .fwStatus
  | .fwReady v => decide (v < 2 ^ 32)
  | .fwFallback => true
  | .metaInject h b => hdrOk h && opFits (.metaInject b)
  | .memFsp h t => hdrOk h && opFits (.memFsp t)
  | .memRetrain h => hdrOk h && opFits .memRetrain
  | .eccInject h k kind o => hdrOk h && opFits (.eccInject k kind o)
  | .hostCmdtailWrite _ v => decide (v < 2 ^ 32)
  | .hostRplheadWrite v => decide (v < 2 ^ 32)
  | .replyHoldRelease => true
  | .readStat => true
  | .writeCmd _ => true
  | .readRpl => true
  | .ackRpl => true
  | .qspiUnknownInstruction => true
  | .intstatClear n v => decide (1 ≤ n) && decide (n ≤ 21) && decide (v < 2 ^ 32)
  | .msixVectorUnmask n => decide (n.entry < 32) && decide (n.addr % 4 = 0) && decide (n.addr < 2 ^ 64) && decide (n.data < 2 ^ 32)
  | .registerWrite a v be => decide (a % 4 = 0) && decide (a < 0x4000000) && decide (v < 2 ^ 32) && decide (be < 16)
  | .pciePerst _ => true
  | .streamPacketReceive r leg _ => decide (r < 256) && decide (leg < 2)
  | .streamLegDown r leg => decide (r < 256) && decide (leg < 2)
  | .ompReceive => true
  | .frameReceive p _ _ _ _ _ => decide (p < 2)
  | .pauseExpire p q _ => decide (p < 2) && decide (q ≤ 8)
  | .xoffRefresh p _ => decide (p < 2)
  | .macFrameEnd p _ => decide (p < 2)
  | .linkStateChange p _ _ _ _ _ => decide (p < 2)
  | .ptpSyncReceive p _ => decide (p < 2)
  | .followUpReceive p _ => decide (p < 2)
  | .servoTimeout p => decide (p < 2)
  | .fdiffReport p => decide (p < 2)
  | .pdelayReqReceive p _ => decide (p < 2)
  | .launchRequest p _ _ => decide (p < 2)
  | .launchDue p _ => decide (p < 2)
  | .tsqRead p => decide (p < 2)
  | .timeSet v => decide (v < 2 ^ 32)
  | .measurementWindow _ _ => true
  | .refStop r => decide (r < 6)
  | .rateMismatch r _ => decide (r < 6)
  | .spliceStepMeasure _ => true
  | .fastlockStep => true
  | .dpllLock => true
  | .dpllLockLoss => true
  | .xoInFault _ => true
  | .rootPllUnlock => true
  | .xosuspectClear v => decide (v < 2 ^ 32)
  | .tdmMaskRelease p _ _ => decide (p < 16)
  | .tdmZeroxTimeout p _ _ => decide (p < 16)
  | .decSettled c => decide (c < 16)
  | .pdmLoadStrobe g _ => decide (g < 4)
  | .pdmClearAssert => true
  | .pdmClearRelease => true
  | .dramRequest q => decide (q.addr < 2 ^ 40) && (q.write.isEmpty || q.len == q.write.length)
  | .agePromotion _ _ => true
  | .dramRequestComplete ch _ => decide (ch < 4)
  | .refresh => true
  | .wckDqOscillatorRead _ => true
  | .mr4Poll _ => true
  | .rowHammerRefresh _ _ => true
  | .rowHammerTableClear => true
  | .powerDownEntry rank => decide (rank < 4)
  | .selfRefreshEntry _ => true
  | .memTrainStart v => decide (v < 2 ^ 32)
  | .memTrainingDone _ _ _ => true
  | .memFspreqGo v => decide (v < 2 ^ 32)
  | .memFspChangeDone _ _ => true
  | .fabricRequest m _ a len data _ => decide (m < 24) && decide (a < 2 ^ 40) && decide (len ≤ 1024) && decide (data.length ≤ 1024)
  | .burstGrant t => decide (t < 16)
  | .masterReset m _ _ => decide (m < 24)
  | .fabDrainEvent m _ _ => decide (m < 24)
  | .eccStormWindow => true
  | .stormClear v => decide (v < 2 ^ 32)
  | .scrub => true
  | .clapSend => true
  | .networkClapperSend => true
  | .clapperReceive _ _ => true
  | .pairLinkClapLoss => true
  | .networkClapLoss => true
  | .pairLinkSync _ => true
  | .evidenceWindowExpire => true
  | .forceact v => decide (v < 2 ^ 32)
  | .digestReceive _ => true
  | .switchReceive _ => true
  | .xferReceive _ => true
  | .alignReceive _ _ => true
  | .resyncTimeout => true
  | .setreadyReceive _ => true
  | .setschedReceive _ => true
  | .beaconSend => true
  | .beaconReceive _ => true
  | .peerExpire n => decide (n < 256)
  | .logStart v => decide (v < 2 ^ 32)
  | .logCtrlClear v => decide (v < 2 ^ 32)
  | .logRdseqSelect v => decide (v < 2 ^ 32)
  | .hoursTick => true
  | .powerOnReset _ _ => true
  | .resetN _ _ => true
  | .brownout _ _ => true
  | .pwrGoodRise g => decide (g < 6)
  | .sequenceTimeout => true
  | .sysBootgo _ v => decide (v < 2 ^ 32)
  | .ckeyWrite k w v => decide (k < 4) && decide (w < 8) && decide (v < 2 ^ 32)
  | .railUndervoltage rail mv _ => decide (rail < 9) && decide (mv < 2 ^ 16)
  | .wdtKick v => decide (v < 2 ^ 32)
  | .wdtExpire _ => true
  | .thermalSample temps => decide (temps.length = 8)
  | .thermalTrip sensor _ => decide (sensor < 8)
  | .thermalShutdown => true
  | .pwrDarkEnter v => decide (v < 2 ^ 32)
  | .hostWake => true
  | .pmbusTransaction v => decide (v < 2 ^ 32)
  | .pmbusDone _ _ data => decide (data < 2 ^ 16)
  | .pmbAlert => true
  | .referenceGlitch r => decide (r < 6)
  | .launchLatewinExpire p _ => decide (p < 2)
  | .registerRead a => decide (a % 4 = 0) && decide (a < 0x4000000)
  | .hostCauseenWrite _ v => decide (v < 2 ^ 32)
  | .netrefclkLoss _ => true

end Sys2Proof
end

