-- ==== Sys2Proof/Tests/Slice0.lean ====
section
/-! SUPPORT. Tests: ill-formed commands are refused by the check, worked examples of the spec, and for every statement of
`Obligations.lean` with hypotheses a state and operands that meet them. -/

namespace Sys2Proof.Tests

open Sys2Proof Sys2Proof.Machine

set_option Elab.async false

/-! Helpers. -/

def hd (slot : Nat) : KHd := { core := 0, slot := slot, gn := false, gp := 0, w := false, rsv := 0 }
def adr : KAddr := { ofs := 1, md := 0, x := 2 }
def hdr : CcpHdr :=
  { sess := .pcie, nport := 0, mac := 0, version := 1, flags := 0, status := 0, seq := 7, f := 0, keyId := 0, tag := zeroBytes 16 }
def ctx0 : Ctx := { sess := .pcie, nport := 0, mac := 0, seq := 7, opcode := 0x0101, auth := none, arr := 0 }

/-- Core 0 in a state of its own. -/
def withCore (c : Core) : State := setCore State.reset 0 c

/-- A core that runs a task, quiet. -/
def running : Core := { Core.cleared with state := .run, x := [(1, 5), (2, 64), (3, 0xFFFFFFFF)], v := [(4, 10), (5, -3), (8, 7)] }
def sRun : State := withCore running

/-- Rails up. -/
def sUp : State := { State.reset with pwr := { PwrSt.reset with seq := .up, boot := .running } }

def noGraph : GraphSec :=
  { ncores := 1, divMax := 4, slotsTotal := 0, setsTotal := 0, busNeed := [], auxNeed := [], imemLo := 0, imemHi := 0, dmemLo := 0,
    dmemHi := 0, kernels := [], tasks := [], arcs := [], buffers := [], images := [] }
def noGeo : GeoSec := { speakers := [], tris := [], csets := [], members := [], trilist := [], init := [] }
def aTake : Take :=
  { slate := 1, digest := zeroBytes 16, raw := [], sys := { rate := 1, depth := 3, tick := 1, headroom := false, twoFit := false, variant := 0 },
    graph := noGraph, images := [], geo := noGeo,
    render := { budget := 0, reserve := 0, slew := 0, lista := 0, listb := 0, farbase := 0, kspm := 0, floor := 0, farslot := [] },
    corr := { drbase := 0, xflen := 1, len := [], setid := [] }, xpt := { moncfg := [], nodes := [] },
    safety := { ceil := [], adctrl := 0, adstep := 0, adceil := 0, adfloor := 0, ceilsel := [] }, streams := StreamSec.none,
    clock := none, fabric := none, localio := LioSec.none, hasLio := false, cont := ContSec.none }

/-! Ill-formed commands: one term for each check. -/

theorem test_header_checks : ([
    .nop { hd 0 with core := 32 }, .nop { hd 4 with gp := 0 }, .nop { hd 0 with gp := 8 }, .nop { hd 0 with rsv := 2 ^ 20 },
    .ldv (hd 1) { adr with ofs := 128 } 0, .ldv (hd 1) { adr with ofs := -129 } 0, .lds (hd 1) { adr with md := 4 } 0,
    .stx (hd 1) { adr with x := 16 } 0, .identify { hdr with sess := .udp (2 ^ 32) 0 }, .time { hdr with sess := .udp 0 (2 ^ 16) },
    .fwEnd { hdr with nport := 2 }, .setEnd { hdr with mac := 2 ^ 48 }, .logInfo { hdr with version := 256 },
    .reelList { hdr with flags := 256 }, .logClear { hdr with status := 2 ^ 16 }, .stageEnd { hdr with seq := 2 ^ 32 },
    .cutCancel { hdr with f := 2 ^ 64 }, .logSpill { hdr with keyId := 2 ^ 32 }, .pairResync { hdr with tag := [] }
    ] : List Instr).all (fun i => !wellFormed i) = true := by decide

theorem test_vector_checks : ([
    .vadd (hd 2) 64 0 0, .vsub (hd 2) 0 64 0, .vmin (hd 2) 0 0 64, .vneg (hd 2) 64 0 0, .vabs (hd 2) 0 64 0, .vmax (hd 2) 0 0 64,
    .vand (hd 2) 64 0 0, .vor (hd 2) 0 64 0, .vxor (hd 2) 0 0 64, .vshl (hd 2) 64 0 0, .vshr (hd 2) 0 64 0, .vlsr (hd 2) 0 0 64,
    .vshli (hd 2) 256 0 0, .vshri (hd 2) 0 64 0, .vmov (hd 2) 0 0 64, .vbcast (hd 2) 256 0 0, .vperm (hd 2) 0 64 0,
    .vmul (hd 2) 0 0 64, .vmulq (hd 2) 64 0 0, .vnar (hd 2) 256 0 0, .vcmpeq (hd 2) 0 0 8, .vcmplt (hd 2) 64 0 0,
    .vcmple (hd 2) 0 64 0, .vmovx (hd 2) 0 0 64, .mul (hd 2) 4 0 0 0, .mac (hd 2) 0 64 0 0, .msu (hd 2) 0 0 64 0,
    .mulb (hd 2) 0 0 0 8, .macb (hd 2) 4 0 0 0, .msub (hd 2) 0 64 0 0, .cmac (hd 2) 0 0 64 0, .cmacj (hd 2) 0 0 0 8,
    .aclr (hd 2) 0 8 0, .accld (hd 2) 64 0 0, .accadd (hd 2) 0 8 0, .arnd (hd 2) 0 0 64
    ] : List Instr).all (fun i => !wellFormed i) = true := by decide

theorem test_ct_and_core_checks : ([
    .ldv (hd 1) adr 64, .stv (hd 1) adr 64, .lds (hd 1) adr 64, .sts (hd 1) adr 64, .ldx (hd 1) adr 16, .stx (hd 1) adr 64,
    .addX (hd 0) 16 0 0, .subX (hd 0) 0 16 0, .andX (hd 0) 0 0 16, .orX (hd 0) 16 0 0, .xorX (hd 0) 0 16 0, .shl (hd 0) 0 0 16,
    .shr (hd 0) 16 0 0, .sra (hd 0) 0 16 0, .addi (hd 0) 2048 0 0, .addi (hd 0) (-2049) 0 0, .movi (hd 0) false 65536 0,
    .cmp (hd 0) 8 0 0 0, .cmp (hd 0) 0 0 0 8, .movv (hd 0) 4 0 0, .movv (hd 0) 0 64 0, .br (hd 0) 4096, .brx (hd 0) 0 16 0,
    .call (hd 0) 4096, .zloop (hd 0) 0 8 0, .zloop (hd 0) 0 0 4096, .setbase (hd 0) 16 0 0, .setlen (hd 0) 0 0 16,
    .mfs (hd 0) 256 0 0, .mfs (hd 0) 0 0 (2 ^ 32), .mts (hd 0) 0 16, .dmaq (hd 0) 0 4, .dmaw (hd 0) 16 0, .tsig (hd 0) 16,
    .dmaqQueueSpace 32 0, .dmawReturn 32 0, .dmaTransferDone 32 0, .tdoneDrainEnd 32 0, .tsigDrainEnd 32 0, .interruptEntry 32,
    .kpuMbox 32 0, .kpuMbox 0 (2 ^ 32), .kpuFaultClear (2 ^ 32), .tdone { hd 0 with gp := 8 }, .swi { hd 0 with gp := 8 },
    .rfi { hd 0 with gp := 8 }, .bkpt { hd 0 with gp := 8 }] : List Instr).all (fun i => !wellFormed i) = true := by decide

theorem test_ccp_checks : ([
    .ping hdr (zeroBytes 16385), .read hdr (2 ^ 32) 0, .read hdr 0 (2 ^ 16), .write hdr (2 ^ 32) [], .write hdr 0 [2 ^ 32],
    .modify hdr (2 ^ 32) 0 0, .modify hdr 0 (2 ^ 32) 0, .modify hdr 0 0 (2 ^ 32), .snapshot hdr (2 ^ 64) [],
    .snapshot hdr 0 [(2 ^ 32, 0)], .snapshot hdr 0 [(0, 2 ^ 16)], .stageBegin hdr (2 ^ 32) 0, .stageBegin hdr 0 (2 ^ 32),
    .stageData hdr (2 ^ 32) [], .stageFromReel hdr 256, .cut hdr 256 0 0 0 (zeroBytes 16), .cut hdr 0 256 0 0 (zeroBytes 16),
    .cut hdr 0 0 (2 ^ 64) 0 (zeroBytes 16), .cut hdr 0 0 0 (2 ^ 32) (zeroBytes 16), .cut hdr 0 0 0 0 [], .reelBegin hdr 256 0,
    .reelBegin hdr 0 (2 ^ 32), .reelData hdr 256 0 [], .reelData hdr 0 (2 ^ 32) [], .reelEnd hdr 256, .reelDelete hdr 256,
    .logRead hdr (2 ^ 32) 0, .logRead hdr 0 (2 ^ 16), .pairSwitchover hdr (2 ^ 64), .setBegin hdr (2 ^ 16) 0 0,
    .setBegin hdr 0 256 0, .setBegin hdr 0 0 (2 ^ 32), .setData hdr (2 ^ 32) [], .setChange hdr (2 ^ 16) 0 0 0,
    .setChange hdr 0 256 0 0, .setChange hdr 0 0 (2 ^ 64) 0, .setChange hdr 0 0 0 (2 ^ 16), .setQuery hdr (2 ^ 16),
    .genStart hdr (2 ^ 64), .genStop hdr (2 ^ 64), .fwBegin hdr 256 0, .fwBegin hdr 0 (2 ^ 32), .fwData hdr (2 ^ 32) [],
    .fwSwitch hdr 256 0, .fwSwitch hdr 0 (2 ^ 64), .memFsp hdr 256, .eccInject hdr 256 0 0, .eccInject hdr 0 256 0,
    .eccInject hdr 0 0 (2 ^ 32)] : List Instr).all (fun i => !wellFormed i) = true := by decide +kernel

theorem test_ccp_lengths : ([
    .write hdr 0 (List.replicate 4095 0), .snapshot hdr 0 (List.replicate 2047 (0, 0)), .stageData hdr 0 (zeroBytes 16381),
    .reelData hdr 0 0 (zeroBytes 16377), .setData hdr 0 (zeroBytes 16381), .fwData hdr 0 (zeroBytes 16381),
    .metaInject hdr (zeroBytes 16385)] : List Instr).all (fun i => !wellFormed i) = true := by decide +kernel

theorem test_event_checks : ([
    .correctionGroupStart 16, .convBlockWork 512 0, .convBlockWork 0 16, .setConversionDone 512 0, .setConversionDone 0 4,
    .fwReady (2 ^ 32), .hostCmdtailWrite [] (2 ^ 32), .hostRplheadWrite (2 ^ 32), .intstatClear 0 0, .intstatClear 22 0,
    .intstatClear 1 (2 ^ 32), .msixVectorUnmask ⟨32, 0, 0, false⟩, .registerWrite 2 0 15,
    .registerWrite 0x4000000 0 15, .registerWrite 0 (2 ^ 32) 15,
    .registerWrite 0 0 16, .registerRead 1, .registerRead 0x4000000, .streamLegDown 256 0, .streamLegDown 0 2,
    .frameReceive 2 [] 0 false false ⟨0, none⟩, .pauseExpire 2 0 0, .pauseExpire 0 9 0, .xoffRefresh 2 0, .macFrameEnd 2 0,
    .linkStateChange 2 true 0 true false false, .servoTimeout 2, .fdiffReport 2, .launchDue 2 0, .tsqRead 2, .launchLatewinExpire 2 0,
    .timeSet (2 ^ 32), .refStop 6, .rateMismatch 6 0, .referenceGlitch 6, .tdmMaskRelease 16 0 0, .tdmZeroxTimeout 16 false 0,
    .decSettled 16, .pdmLoadStrobe 4 0, .dramRequestComplete 4 false, .powerDownEntry 4, .memTrainStart (2 ^ 32),
    .memFspreqGo (2 ^ 32), .fabricRequest 24 0 0 16 [] false, .fabricRequest 0 0 (2 ^ 40) 16 [] false,
    .fabricRequest 0 0 0 1025 [] false, .burstGrant 16, .masterReset 24 0 0, .fabDrainEvent 24 0 0, .stormClear (2 ^ 32),
    .peerExpire 256, .pwrGoodRise 6, .sysBootgo ⟨[], false⟩ (2 ^ 32), .ckeyWrite 4 0 0, .ckeyWrite 0 8 0, .ckeyWrite 0 0 (2 ^ 32),
    .railUndervoltage 9 0 true, .wdtKick (2 ^ 32), .thermalSample [0], .thermalTrip 8 0, .pmbusTransaction (2 ^ 32),
    .pmbusDone false false (2 ^ 16), .hostCauseenWrite false (2 ^ 32), .logRdseqSelect (2 ^ 32), .forceact (2 ^ 32)
    ] : List Instr).all (fun i => !wellFormed i) = true := by decide +kernel

theorem test_well_formed : ([
    .nop (hd 0), .vadd (hd 2) 63 63 63, .ldv (hd 1) { adr with ofs := -128 } 63, .addi (hd 0) (-2048) 15 15, .br (hd 0) 4095,
    .write hdr 0xFFFFFFFF [0xFFFFFFFF], .cut hdr 1 1 0 999999999 (zeroBytes 16), .registerWrite 0x3FFFFFC 0xFFFFFFFF 15,
    .fabricRequest 23 31 (2 ^ 40 - 1) 1024 [] true, .thermalSample [0, 0, 0, 0, 0, 0, 0, 0], .powerOnReset true false
    ] : List Instr).all wellFormed = true := by decide +kernel

/-- The table gives its rows no bits, so no word spells a command. -/
theorem test_no_word : decodeTableWord 32 0 = none ∧ State.reset.withFetchWord 32 0 = State.reset := ⟨rfl, rfl⟩

/-- R132 to R134, R152: the words of the worked example and NOP spell their operations, and an unlisted opcode spells none. -/
theorem test_kernel_words :
    kernelWord 3 1 0x1020143F 0 = some (.ldv { core := 3, slot := 1, gn := false, gp := 1, w := false, rsv := 0 } { ofs := 1, md := 1, x := 0 } 63) ∧
    kernelWord 0 1 0x50801455 0 = some (.stv { core := 0, slot := 1, gn := false, gp := 5, w := false, rsv := 0 } { ofs := 1, md := 1, x := 1 } 21) ∧
    kernelWord 0 2 0x22404F94 0 = some (.vmul { core := 0, slot := 2, gn := false, gp := 2, w := false, rsv := 0 } 4 62 20) ∧
    kernelWord 0 3 0x40214F15 0 = some (.vadd { core := 0, slot := 3, gn := false, gp := 4, w := false, rsv := 0 } 20 60 21) ∧
    kernelWord 0 0 0 0 = some (.nop { core := 0, slot := 0, gn := false, gp := 0, w := false, rsv := 0 }) ∧
    kernelWord 0 3 0 0 = some (.nop { core := 0, slot := 3, gn := false, gp := 0, w := false, rsv := 0 }) ∧
    kernelWord 0 0 0x05E00000 0 = none ∧ kernelWord 0 1 0x01000000 0 = none ∧ kernelWord 0 2 0x05800000 0 = none := by decide +kernel

/-! For every statement with hypotheses, states and operands that meet them. -/

/-- The boundary values of an immediate are the witness's own: 8 and 24 for VNAR, 40 for the accumulator shifts. -/
theorem witness_VectorArithmetic : VecActs sRun (hd 2) ∧ (coreOf sRun 0).vPhys 1 = some 1 ∧ (coreOf sRun 0).vPhys 2 = some 2 ∧
    (coreOf sRun 0).vPhys 63 = some 63 ∧ 8 ≤ 8 % 32 ∧ 8 % 32 ≤ 24 ∧ 8 ≤ 24 % 32 ∧ 24 % 32 ≤ 24 := by
  unfold VecActs; decide +kernel

theorem witness_VectorBitsAndMoves : VecActs sRun (hd 3) ∧ (coreOf sRun 0).vPhys 0 = some 0 ∧ (coreOf sRun 0).vPhys 1 = some 1 ∧
    (coreOf sRun 0).aPhys 7 = some 7 ∧ 15 < 16 ∧ 63 < 64 := by
  unfold VecActs; decide +kernel

theorem witness_VectorComparesAndTerms : VecActs sRun { hd 2 with w := true } ∧ (coreOf sRun 0).vPhys 1 = some 1 ∧
    (coreOf sRun 0).vPhys 2 = some 2 ∧ (coreOf sRun 0).aPhys 0 = some 0 := by
  unfold VecActs; decide +kernel

theorem witness_AddressArithmetic : CtActs sRun (hd 0) ∧ (coreOf sRun 0).vPhys 1 = some 1 := by
  unfold CtActs; decide +kernel

theorem witness_AddressResultLands : CtActs sRun (hd 0) ∧ Quiet sRun 0 := by
  unfold CtActs Quiet BundleReads; decide +kernel

theorem witness_CtControl : CtActs sRun (hd 0) ∧ (coreOf sRun 0).hm = false ∧ (coreOf sRun 0).pc + 3 ≤ 4095 ∧
    (coreOf sRun 0).pc + 3 ≤ 3 ∧ (coreOf sRun 0).pc < 4093 ∧ (coreOf sRun 0).armed = false := by
  unfold CtActs; decide +kernel

/-- A core with results in flight, and one that runs a loop of two stages. -/
def inFlight (l : List Flight) : State := withCore { running with flight := l }
def aFlight (file : FFile) (left reg : Nat) (add : Bool) : Flight :=
  { left := left, age := 1, slot := 2, file := file, reg := reg, mask := 15, vals := [1, 2, 3, 4], add := add, wrap := true, sat := 0 }
def staged (pc : Nat) (hm due : Bool) : State :=
  withCore { running with armed := true, stg := 2, lc := 3, lc0 := 3, j := 1, pc := pc, lstart := 4, lend := 9, hm := hm, predsDue := due }

theorem witness_VectorResultsLand :
    (∀ l ∈ [[aFlight .v 2 1 false], [aFlight .v 1 1 false], [aFlight .a 1 1 true], [aFlight .p 1 1 false], [aFlight .p 1 8 false],
        [aFlight .v 1 1 false, { aFlight .v 1 1 false with slot := 3 }], [aFlight .a 1 1 true, aFlight .a 1 1 true]],
      CtActs (inFlight l) (hd 0) ∧ BundleReads (inFlight l) 0 ∧ (coreOf (inFlight l) 0).brs = [] ∧ (coreOf (inFlight l) 0).armed = false ∧
      (coreOf (inFlight l) 0).flight = l) ∧
    ({ aFlight .v 1 1 false with slot := 3 } : Flight).beats (aFlight .v 1 1 false) = true ∧
    (aFlight .v 1 1 false).beats { aFlight .v 1 1 false with slot := 3 } = false ∧ (1 : Nat) < (aFlight .v 2 1 false).left ∧
    running.stg = 0 ∧ (coreOf (staged 9 false false) 0).stg ≠ 0 ∧ 2 ≤ (coreOf (staged 9 false false) 0).stg ∧
    (∀ s ∈ [staged 9 false false, staged 3 false true, staged 5 false false], CtActs s (hd 0) ∧ BundleReads s 0 ∧ (coreOf s 0).flight = [] ∧
      (coreOf s 0).brs = [] ∧ (coreOf s 0).armed = true) ∧
    (coreOf (staged 9 false false) 0).pc = (coreOf (staged 9 false false) 0).lend ∧
    ((coreOf (staged 3 false true) 0).pc + 1) % 4096 = (coreOf (staged 3 false true) 0).lstart ∧ (coreOf (staged 3 false true) 0).predsDue = true ∧
    (coreOf (staged 5 false false) 0).pc ≠ (coreOf (staged 5 false false) 0).lend := by
  unfold CtActs BundleReads; decide +kernel

theorem witness_BranchesAndLoops : ∃ s1 s2 s3 : State, CtActs sRun (hd 0) ∧ Quiet sRun 0 ∧ sRun.fab.inj = [] ∧
    (coreOf sRun 0).hm = false ∧ CtActs s1 (hd 0) ∧ CtActs s2 (hd 0) ∧ BundleReads s1 0 ∧ BundleReads s2 0 ∧ 4095 < 4096 ∧ exec (.br (hd 0) 4095) sRun = .next s1 ∧
    exec (.nop (hd 0)) s1 = .next s2 ∧ exec (.nop (hd 0)) s2 = .next s3 := by
  refine ⟨_, _, _, ?_, ?_, ?_, ?_, ?_, ?_, ?_, ?_, ?_, rfl, rfl, rfl⟩ <;> (try unfold CtActs) <;> (try unfold Quiet) <;> (try unfold BundleReads) <;> decide +kernel

/-- A core at a loop's last bundle, with two passes to go and with one. -/
def looping (lc : Nat) : State := withCore { running with armed := true, pc := 9, lstart := 4, lend := 9, lc := lc }

theorem witness_BranchesAndLoops_loops : CtActs sRun (hd 0) ∧ Quiet sRun 0 ∧ (coreOf sRun 0).hm = false ∧ (coreOf sRun 0).pc + 3 ≤ 4095 ∧
    (coreOf sRun 0).xr 0 = 0 ∧ (coreOf sRun 0).xr 1 ≠ 0 ∧
    (∀ lc ∈ [1, 2], CtActs (looping lc) (hd 0) ∧ (coreOf (looping lc) 0).flight = [] ∧ (coreOf (looping lc) 0).brs = [] ∧
      BundleReads (looping lc) 0 ∧ (coreOf (looping lc) 0).stg = 0 ∧ (coreOf (looping lc) 0).armed = true ∧
      (coreOf (looping lc) 0).pc = (coreOf (looping lc) 0).lend ∧ (coreOf (looping lc) 0).predsDue = false) ∧
    (coreOf (withCore { running with rbase := 32 }) 0).rbase < 64 := by
  unfold CtActs Quiet BundleReads; decide +kernel

/-- A core whose bundle reads with an uncorrectable error, and one whose bundle holds the unlisted opcode 0x2F in slot CT. -/
def sBadBundle : State := { sRun with fab := { FabSt.reset with inj := [(imemBase 0, 3)] } }
def sUnlisted : State := { sRun with mem := Memory.writeBytes [] (imemBase 0) [0, 0, 0xE0, 0x05] }

theorem witness_ExceptionsStopTheCore_bundle : CtActs sBadBundle (hd 0) ∧ (coreOf sBadBundle 0).pc = 0 ∧
    (eccRead sBadBundle (imemBase 0 + 16 * 0) 16 (kdma 0) 0).1 = true ∧ CtActs sUnlisted (hd 0) ∧ sUnlisted.fab.inj = [] ∧
    unlisted sUnlisted 0 = true := by
  unfold CtActs; decide +kernel

theorem witness_ExceptionsStopTheCore : mayIssue sRun 0 = true ∧ vecSlot (hd 2) = true ∧ (running).guardMask (hd 2) ≠ 0 ∧
    ({ hd 2 with rsv := 1 } : KHd).rsv ≠ 0 ∧ 7 % 32 < 8 ∧ 24 < 25 % 32 ∧ 40 < 41 ∧
    mayIssue (withCore { running with state := .handler, hm := true }) 0 = true ∧ 16 ≤ 16 % 64 ∧ CtActs sRun (hd 0) ∧
    CtActs (withCore { running with state := .handler, hm := true }) (hd 0) ∧ 2 < (coreOf sRun 0).pc + 3 ∧
    CtActs (looping 2) (hd 0) ∧ (coreOf (looping 2) 0).pc + 3 ≤ 12 ∧ (coreOf (looping 2) 0).armed = true ∧
    lane (running.guardMask (hd 1)) 0 = true ∧ running.xr 1 % 16 ≠ 0 ∧ running.xr 1 < 2 ^ 32 ∧
    2 ^ 18 ≤ (withCore { running with x := [(2, 2 ^ 18)] }).kpu.cores[0].xr 2 ∧
    (withCore { running with x := [(2, 2 ^ 18)] }).kpu.cores[0].xr 2 % 16 = 0 := by
  unfold CtActs; decide +kernel

theorem witness_LoadsAndStores : LsIssues sRun (hd 1) ∧ running.vPhys 1 = some 1 ∧
    (lsAddress running adr 16).1 = 80 ∧ (lsAddress running adr 4).1 = 68 ∧ lane (running.guardMask (hd 1)) 0 = true ∧
    eccRead sRun (dmemBase 0 + 80) 16 (kdma 0) 0 = (false, sRun) ∧ eccRead sRun (dmemBase 0 + 68) 4 (kdma 0) 0 = (false, sRun) ∧ 0 < 16 := by
  unfold LsIssues; decide +kernel

theorem witness_VectorStoreReachesMemory : ∃ s1 s2 : State, LsIssues sRun (hd 1) ∧ lane ((coreOf sRun 0).guardMask (hd 1)) 0 = true ∧
    (coreOf sRun 0).vPhys 1 = some 1 ∧ Quiet sRun 0 ∧ sRun.fab.inj = [] ∧ CtActs s1 (hd 0) ∧
    (lsAddress (coreOf sRun 0) adr 16).1 % 16 = 0 ∧ (lsAddress (coreOf sRun 0) adr 16).1 < 2 ^ 18 ∧
    exec (.stv (hd 1) adr 1) sRun = .next s1 ∧ exec (.nop (hd 0)) s1 = .next s2 ∧ MemoryCanonical sRun := by
  refine ⟨_, _, ?_, ?_, ?_, ?_, ?_, ?_, ?_, ?_, rfl, rfl, ?_⟩ <;> (try unfold LsIssues) <;> (try unfold Quiet) <;>
    (try unfold BundleReads) <;> (try unfold CtActs) <;> (try unfold MemoryCanonical) <;> decide +kernel

theorem witness_GuardedOffHasNoEffect : (coreOf sRun 0).guardMask { hd 2 with gn := true } = 0 ∧
    (coreOf sRun 0).guardMask { hd 0 with gn := true } = 0 ∧ mayIssue sRun 0 = true := by decide +kernel

/-- A core whose channel 1 holds n descriptors. -/
def queued (n : Nat) : State := withCore { running with dma1 := List.replicate n (zeroBytes 16) }

/-- A core whose descriptor reads with an uncorrectable error. -/
def sBadData : State := { sRun with fab := { FabSt.reset with inj := [(dmemBase 0 + 64, 3)] } }

/-- A core that waits. -/
def waiting (w : KWait) : State := withCore { running with state := .stall, wait := some w }

theorem witness_DmaAndTaskWaits : CtActs sRun (hd 0) ∧ dmaRoom sRun 0 1 = true ∧ (coreOf sRun 0).xr 2 % 16 = 0 ∧
    (coreOf sRun 0).xr 2 + 16 ≤ 2 ^ 18 ∧ ¬ (coreOf sRun 0).xr 1 % 16 = 0 ∧
    eccRead sRun (dmemBase 0 + 64) 16 (kdma 0) 0 = (false, sRun) ∧ CtActs sBadData (hd 0) ∧
    (eccRead sBadData (dmemBase 0 + 64) 16 (kdma 0) 0).1 = true ∧ CtActs (queued 4) (hd 0) ∧
    dmaRoom (queued 3) 0 1 = true ∧ dmaRoom (queued 4) 0 1 = false ∧ (coreOf sRun 0).dma 1 = [] ∧
    (coreOf (queued 1) 0).dma 1 ≠ [] ∧ (coreOf sRun 0).dmaIdle = true ∧ (coreOf (queued 1) 0).dmaIdle = false ∧
    (coreOf (waiting (.dmaq 1 64)) 0).wait = some (.dmaq 1 64) ∧ dmaRoom (waiting (.dmaq 1 64)) 0 1 = true ∧
    (coreOf (waiting (.dmaw 1)) 0).wait = some (.dmaw 1) ∧ (coreOf (waiting (.dmaw 1)) 0).dma 1 = [] ∧
    (coreOf (waiting .tdone) 0).wait = some .tdone ∧ (coreOf (waiting .tdone) 0).dmaIdle = true ∧
    (coreOf (waiting (.tsig 3)) 0).wait = some (.tsig 3) ∧ (coreOf sRun 0).wait = none := by
  unfold CtActs; decide +kernel

/-- A descriptor: local address, length, remote address. -/
def descr (la n ra : Nat) : Bytes := leBytes 4 la ++ leBytes 4 n ++ leBytes 8 ra

/-- A block whose DMA port of core 0 has a readable window of one page on the Delay SRAM, with a transfer on channel 1. -/
def sDma (d : Bytes) : State :=
  let w := Reg.FAB_WIN0 + 0x400 * 16 + 0x10 * 16
  setR (setR (setR (setCore State.reset 0 { running with dma1 := [d] }) w 0x40000000) (w + 8) 1) (w + 12) 0x80010003

theorem witness_DmaTransferEnds :
    (∀ d ∈ [descr 0x3FFF0 16 0x40000FF0, descr 0 4096 0x40000000, descr 0x80000000 16 0x40000000], (coreOf (sDma d) 0).dma 1 = [d] ∧
      d.length = 16 ∧ leAt d 0 4 % 2 ^ 31 + leAt d 4 4 ≤ 2 ^ 18 ∧ (leAt d 8 4 + leAt d 12 4 * 2 ^ 32) % 4096 + leAt d 4 4 ≤ 4096 ∧
      leAt d 0 4 % 16 = 0 ∧ leAt d 4 4 % 16 = 0 ∧ leAt d 8 4 % 16 = 0 ∧ draining (sDma d) (kdma 0) 0 = false ∧
      (fabTarget (sDma d) (kdma 0) (leAt d 8 4) (leAt d 4 4) (decide (2 ^ 31 ≤ leAt d 0 4))).isSome = true ∧
      eccRead (sDma d) (leAt d 8 4) (leAt d 4 4) (kdma 0) 0 = (false, sDma d) ∧
      eccRead (sDma d) (dmemBase 0 + leAt d 0 4 % 2 ^ 31) (leAt d 4 4) (kdma 0) 0 = (false, sDma d)) ∧
    (coreOf (sDma []) 0).dma 1 = [[]] ∧ leAt (descr 0 0 0) 4 4 < 16 ∧ 65536 < leAt (descr 0 65552 0) 4 4 ∧
    (coreOf (sDma (descr 0 0 0)) 0).dma 1 = [descr 0 0 0] ∧ (coreOf (sDma []) 0).state ≠ .fault ∧ draining (sDma []) (kdma 0) 0 = false := by
  decide +kernel

/-- A core with an enabled cause pending. -/
def sIrq (c : Core) : State := withCore { c with ie := true, imask := 8, ipend := 8, ivec := 100 }

theorem witness_InterruptsAndMailbox : (coreOf (sIrq running) 0).state = .run ∧ (∀ f ∈ (coreOf (sIrq running) 0).flight, f.age ≠ 0) ∧
    (coreOf (sIrq running) 0).ie = true ∧ (coreOf (sIrq running) 0).hm = false ∧
    (coreOf (sIrq running) 0).ipend &&& (coreOf (sIrq running) 0).imask ≠ 0 ∧ (coreOf (sIrq running) 0).brs.length ≤ 1 ∧
    (coreOf (sIrq { running with brs := [{ left := 2, target := 5, rfi := false }] }) 0).brs.length ≤ 1 ∧ (coreOf sRun 0).ie = false ∧
    (coreOf (withCore { running with brs := [{ left := 1, target := 0, rfi := true }] }) 0).brs =
      [{ left := 1, target := 0, rfi := true }] := by decide +kernel

/-- A part with 16 cores. -/
def sSmall : State := { sUp with hw := { HwSt.reset with tk2512 := true } }

theorem witness_InterruptsAndMailbox_mailbox : CtActs sRun (hd 0) ∧ Quiet sRun 0 ∧ sRun.fab.inj = [] ∧ 31 < coresPresent sRun ∧
    coresPresent sSmall ≤ 16 := by
  unfold CtActs Quiet BundleReads; decide +kernel

/-! The command engine, takes, sets and firmware. -/

theorem witness_CommandPacketRoundTrip :
    (∀ h ∈ [hdr, { hdr with version := 255, flags := 255, status := 65535, seq := 2 ^ 32 - 1, f := 2 ^ 64 - 1, keyId := 2 ^ 32 - 1 }],
      h.version < 256 ∧ h.flags < 256 ∧ h.status < 65536 ∧ h.seq < 2 ^ 32 ∧ h.f < 2 ^ 64 ∧ h.keyId < 2 ^ 32 ∧ h.tag.length = 16) ∧
    (ccpFits (.write 0xFFFFFFFC [0xFFFFFFFF]) ∧ (paramBytes (.write 0xFFFFFFFC [0xFFFFFFFF])).length + 8 ≤ 16384) ∧
    ccpFits (.cut 1 1 (2 ^ 64 - 1) 999999999 (zeroBytes 16)) := by
  unfold ccpFits; decide +kernel

/-- Firmware ready. -/
def sFw : State := { sUp with fw := { FwSt.reset with ready := true } }

theorem witness_CommandsReachTheirExecution : ∀ x ∈ [Sess.pcie, .qspi, .udp 0x0A000001 5000],
    let h := { hdr with sess := x }
    PlainHdr h ∧ sessUp sFw x = true ∧ TransportIdle sFw ∧ (isUdp x && sFw.hw.secure) = false ∧
    sFw.ccp.fwQ = [] ∧ sFw.fw.ready = true ∧ sFw.fw.restarting = false ∧
    (∀ op ∈ [CcpOp.ping [1, 2], .modify Reg.PWR_TWARN 0xFFFF 1280, .setBegin 0 3 276], (paramBytes op).length ≤ 16384 ∧
      newCommand (arrived sFw h op) h op ∧ paramsOk (received (arrived sFw h op) h op) op = true ∧
      replyFits (received (arrived sFw h op) h op) (ctxOf (arrived sFw h op) h op) op = true) ∧
    ccpFits (.ping [1, 2]) ∧ ccpFits (.modify Reg.PWR_TWARN 0xFFFF 1280) ∧
    hwOpcode (opcodeOf (.ping [])) = false ∧ hwOpcode (opcodeOf (.modify 0 0 0)) = true := by
  unfold PlainHdr TransportIdle newCommand ccpFits; decide +kernel

/-- A plain packet. -/
def pkt (opcode : Nat) (payload : Bytes) : CcpPkt :=
  { version := 1, flags := 0, opcode := opcode, status := 0, seq := 7, payload := payload, body := payload, auth := none }

/-- A state whose firmware queue holds n commands. -/
def sQueue (n : Nat) (restarting : Bool) : State :=
  { sUp with fw := { FwSt.reset with restarting := restarting },
             ccp := { CcpSt.reset with fwQ := List.replicate n (ctx0, none, .identify) } }

/-- The payload of a MODIFY for frame 0. -/
def modifyAt : Bytes := zeroBytes 8 ++ beBytes 4 Reg.PWR_TWARN ++ zeroBytes 8

/-- A block whose PCIe session has replied to commands 6 and 7, or still executes 7. -/
def sSession (done : Bool) : State :=
  let v : Session := { sess := .pcie, last := [(7, done), (6, true)], cached := some [1], highest := none }
  { sUp with ccp := { CcpSt.reset with sessions := [v] } }

theorem witness_CommandChecks_order :
    (∀ x ∈ [hdr, { hdr with seq := 6 }, { hdr with flags := 4 }], (parsePacket (commandPacket x .identify)).isSome = true) ∧ parsePacket [] = none ∧
    ((parsePacket (commandPacket { hdr with flags := 4 } .identify)).all fun q => !authOk sUp .pcie q && !authOk sUp (.udp 1 2) q) = true ∧
    ((parsePacket (commandPacket hdr .identify)).all fun q => authOk (sSession true) .pcie q && authOk (sSession false) .pcie q) = true ∧
    (match sessionOf (sSession false) .pcie with | some v => v.last.find? (·.1 == 7) == some (7, false) | none => false) = true ∧
    (match sessionOf (sSession true) .pcie with
      | some v => v.last.head? == some (7, true) && v.cached == some [1] && v.last.find? (·.1 == 6) == some (6, true) &&
          v.last.head?.map (·.1) != some 6
      | none => false) = true := by decide +kernel

theorem witness_CommandChecks : ({ pkt 0x0101 [] with version := 2 } : CcpPkt).version ≠ 1 ∧ bit 1 0 = true ∧ 8 ≤ 8 ∧ bit 2 1 = true ∧
    (pkt 0 []).opcode = 0 ∧ (pkt 0x0204 []).opcode = 0x0204 ∧ 0x0A20 < (pkt 0x0A21 []).opcode ∧
    (zeroBytes 19).length - 4 = 15 ∧ (zeroBytes 8).length = 8 ∧ beAt (zeroBytes 8) 6 2 = 0 ∧ beAt (zeroBytes 8) 4 2 = 0 ∧
    (beAt (beBytes 4 2 ++ zeroBytes 4) 0 4 % 4 ≠ 0) ∧ 4096 < beAt (zeroBytes 4 ++ beBytes 2 4097 ++ zeroBytes 2) 4 2 ∧
    modifyAt.length = 20 ∧ paramsOk (addCtr sUp Reg.HOST_CMDS 1) (.modify (beAt (modifyAt.drop 8) 0 4) 0 0) = true ∧
    isUdp ctx0.sess = false ∧ beAt modifyAt 0 8 ≤ sUp.tl.frame ∧
    (match checkCommand (addCtr sUp Reg.HOST_CMDS 1) ctx0 none [] with | .ok op => op == .identify | .error _ => false) = true ∧ hwOpcode 0x0101 = false ∧
    (sQueue 0 true).fw.restarting = true ∧ (sQueue 32 false).ccp.fwQ.length = 32 ∧ (sQueue 31 false).ccp.fwQ.length = 31 := by
  decide +kernel

/-- A state in frame 5 with n frame-addressed commands and k snapshots. -/
def sFrameQ (n k : Nat) : State :=
  { sUp with tl := { TlSt.reset with frame := 5 },
             ccp := { CcpSt.reset with frameQ := List.replicate n (9, 0, .modify 0 0 0),
                                       snaps := List.replicate k { frame := 9, ranges := [], ctx := ctx0 } } }

theorem witness_EngineCommands : atOnce Reg.PWR_TWARN = false ∧ 5 ≤ (sFrameQ 0 0).tl.frame ∧ (sFrameQ 0 0).tl.frame < 6 ∧
    atOnce Reg.HOST_RPLHEAD = true ∧ (sFrameQ 256 0).ccp.frameQ.length = 256 ∧ (sFrameQ 255 0).ccp.frameQ.length = 255 ∧ (sFrameQ 0 8).ccp.snaps.length = 8 ∧
    (sFrameQ 0 7).ccp.snaps.length = 7 ∧ (5 : Nat) ≠ 0 := by decide +kernel

/-- A log of one record. -/
def rec1 : LogRec :=
  { seq := 0, rep := 0, code := 0x0105, frame := 0, cseq := 0, ns := 0, sec := 0, hours := 0, pcyc := 0, spill := false,
    prestart := false, gap := false, timeValid := false, payload := zeroBytes 32, bad := false }
def sLog : State := { sUp with log := { LogSt.reset with head := 1, recs := [rec1], started := true } }

theorem witness_QueryReplies : pairOwnsStaging sLog = false ∧ sLog.log.spill = [] ∧
    (sLog.log.head + 2 ^ 32 - sLog.log.first) % 2 ^ 32 ≤ (1 + 2 ^ 32 - sLog.log.first) % 2 ^ 32 ∧
    (0 + 2 ^ 32 - sLog.log.first) % 2 ^ 32 < (sLog.log.head + 2 ^ 32 - sLog.log.first) % 2 ^ 32 ∧ sLog.fab.inj = [] ∧
    findRec sLog.log 0 = some rec1 ∧ rec1.bad = false := by decide +kernel

/-- A block with its staging area in a state. -/
def sStage (x : Stage) (b : Bytes) : State := { sUp with take := { TakeSt.reset with stage := x, bytes := b } }

/-- The shortest container a reel slot takes: a header that names no section. -/
def reel0 : Bytes :=
  let h := beBytes 4 0x54414B45 ++ beBytes 2 1 ++ beBytes 2 0 ++ beBytes 4 9 ++ beBytes 4 160 ++ zeroBytes 28
  h ++ beBytes 4 (crc32c h) ++ zeroBytes 112

/-- One with a section of wrong SCRC. -/
def reel1 : Bytes :=
  let h := beBytes 4 0x54414B45 ++ beBytes 2 1 ++ beBytes 2 1 ++ beBytes 4 9 ++ beBytes 4 160 ++ zeroBytes 28
  h ++ beBytes 4 (crc32c h) ++ (beBytes 2 1 ++ beBytes 2 1 ++ beBytes 4 64 ++ beBytes 4 16 ++ beBytes 4 1) ++ zeroBytes 96

/-- A block with a container in reel slot k. -/
def sReel (k : Nat) (b : Bytes) (full : Bool) : State :=
  let slot : ReelSlot := { full := full, len := b.length, slate := 9, digest := zeroBytes 16 }
  { sUp with mem := Memory.writeBytes [] (reelAddr sUp k) b,
             take := { TakeSt.reset with reel := TakeSt.reset.reel.setIfInBounds k slot, reelLoad := some (k, b.length) },
             dram := { MemSt.reset with ready := true }, regs := (setR sUp Reg.MEM_USABLE_HI 4).regs }

theorem witness_StagingCommands : dramHolds (sReel 63 reel0 true) (reelAddr (sReel 63 reel0 true) 63) 160 = true ∧ dramHolds sUp (reelAddr sUp 63) 160 = false ∧
    pairOwnsStaging sUp = false ∧ (sStage .scheduled []).take.stage = .scheduled ∧
    sUp.take.stage = .empty ∧ sUp.take.copying = none ∧ (160 : Nat) % 16 = 0 ∧ (8388608 : Nat) % 16 = 0 ∧
    (152 % 16 ≠ 0 ∨ 144 < 160) ∧ (8388608 : Nat) < 8388624 ∧ (sStage .loading (zeroBytes 160)).take.stage = .loading ∧
    144 + (zeroBytes 16).length ≤ (sStage .loading (zeroBytes 160)).take.bytes.length ∧
    (sStage .loading (zeroBytes 160)).take.bytes.length < 160 + (zeroBytes 16).length ∧
    (slotOf sUp 63).full = false ∧ (slotOf (sReel 63 reel0 true) 63).full = true := by decide +kernel

/-- A block whose check of a staged container is about to end, with or without a held bank. -/
def sCheck (held : Bool) : State :=
  let s := sStage .checking reel0
  if held then { s with disp := { s.disp with bank1 := some { graph := noGraph, lo := 0, hi := some 5 } } } else s

theorem witness_StagingCheckEnds : (checkEarly (sCheck false) reel0 none).isOk = false ∧ (sCheck true).take.stage = .checking ∧ (sCheck true).take.waiting = false ∧
    (sCheck true).take.next = [] ∧ bankHeld (sCheck true) = true ∧ bankHeld (sCheck false) = false ∧
    (sCheck false).take.stage = .checking ∧
    ({ sCheck false with take := { (sCheck false).take with waiting := true, copying := some 3 } } : State).take.waiting = true := by
  decide +kernel

theorem witness_CutCommands : pairOwnsStaging sUp = false ∧ (0 : Nat) ≤ 1 ∧ (sStage .scheduled []).take.stage = .scheduled ∧
    sUp.take.stage ≠ .scheduled ∧ sUp.take.stage ≠ .checked ∧
    (let s : State := { sStage .checked [] with take := { (sStage .checked []).take with staged := some aTake } }
     s.take.stage = .checked ∧ s.take.staged = some aTake ∧ [] ≠ aTake.digest ∧ zeroBytes 16 = aTake.digest ∧
      1 ≤ s.tl.frame + 1 ∧ s.tl.frame + 1 < 2 ∧ ((0 * 1000000000 + 0) * fsOf s.tl.rate + 15999999999) / 16000000000 ≤ s.tl.frame + 1 ∧
      s.tl.frame + 1 < ((1 * 1000000000 + 0) * fsOf s.tl.rate + 15999999999) / 16000000000) := by
  refine ⟨by decide +kernel, by decide, by decide +kernel, by decide +kernel, by decide +kernel, rfl, rfl, ?_, rfl, ?_, ?_, ?_, ?_⟩ <;> decide +kernel

theorem witness_ReelCommands : dramHolds (sReel 63 reel0 false) (reelAddr (sReel 63 reel0 false) 63) 160 = true ∧
    dramHolds sUp (reelAddr sUp 63) 160 = false ∧ (8388608 : Nat) % 16 = 0 ∧ 160 ≤ 8388608 ∧ sUp.take.reelLoad = none ∧
    (sReel 63 reel0 false).take.reelLoad = some (63, 160) ∧ 144 + (zeroBytes 16).length ≤ 160 ∧ 160 < 145 + (zeroBytes 16).length ∧
    headerOk (memRead (sReel 63 (zeroBytes 160) false) (reelAddr (sReel 63 (zeroBytes 160) false) 63) 160 13 0).1 = false ∧
    (∀ b ∈ [reel0, reel1], (sReel 63 b false).take.reelLoad = some (63, 160) ∧
      memRead (sReel 63 b false) (reelAddr (sReel 63 b false) 63) 160 13 0 = (b, sReel 63 b false) ∧ headerOk b = true ∧
      48 + 16 * beAt b 6 2 ≤ 160 ∧ (directory b).any (fun e => decide (e.ofs + e.len > 160)) = false) ∧
    badCrc (directory reel0) = none ∧ badCrc (directory reel1) ≠ none := by decide +kernel

/-- The shortest valid firmware image: one byte of code. -/
def image1 : Bytes :=
  let h := beBytes 4 0x4C465749 ++ beBytes 4 7 ++ beBytes 4 1 ++ beBytes 4 (crc32c [5]) ++ zeroBytes 236
  h ++ beBytes 4 (crc32c h) ++ [5]

/-- A block with that image in area B. -/
def sImage (sched : Option (Nat × Nat)) (load : Option (Nat × Nat)) : State :=
  { sUp with mem := Memory.writeBytes [] (flashImage 1) image1, fw := { FwSt.reset with sched := sched, load := load } }
def sImageLoad : State := sImage none (some (1, 257))

set_option maxRecDepth 100000 in
theorem witness_FirmwareCommands : 0 = (sImage none none).fw.running ∧ 1 ≠ (sImage none none).fw.running ∧
    (sImage none none).fw.sched = none ∧ (sImage none none).fw.load = none ∧ (sImage none (some (0, 300))).fw.load = some (0, 300) ∧ (sImage (some (1, 9)) none).fw.sched = some (1, 9) ∧ (sImage none (some (1, 257))).fw.load = some (1, 257) ∧
    imageValid (sImage none (some (1, 257))) (imageOf (sImage none (some (1, 257))) 1) = true ∧
    (imageOf (sImage none none) 1).length = 257 ∧ imageValid sUp (imageOf sUp 1) = false ∧ 256 + [5].length ≤ 257 ∧
    257 < 257 + [5].length ∧ (sImage (some (1, 9)) none).fw.sched ≠ none ∧ 1 ≤ sUp.tl.frame + 1 ∧ sUp.tl.frame + 1 < 2 ∧
    (sImage none none).fw.ready = false ∧ sFw.fw.ready = true ∧
    ({ sUp with pwr := { sUp.pwr with boot := .running } } : State).pwr.boot = .running := by decide +kernel

/-- An FIR set of 32 taps. -/
def set1 : Bytes :=
  let b := beBytes 4 0x46495253 ++ beBytes 4 1 ++ beBytes 1 1 ++ beBytes 1 1 ++ beBytes 2 0 ++ beBytes 4 0 ++ zeroBytes 128
  b ++ beBytes 4 (crc32c b)

/-- A load of the set. -/
def load1 (b : Bytes) : SetLoad := { bus := 0, slot := 3, size := 148, bytes := b, got := b.length }

/-- A channel whose active context runs slot 3. -/
def sBusy : State :=
  let c : ConvCtx := { slot := 3, set := { setid := 1, len := 1, rate := 1, adaptive := false, h := [] }, spec := [], ring := [] }
  setChan sUp 511 { ConvCh.none with run := { ConvRun.off with ctx := some c } }

/-- A block in a pair role, with a peer that says what it is. -/
def sRole (r : Role) (peer : Option Nat) : State :=
  let heard := peer.map fun k => { role := k, actFrame := 0, digest := zeroBytes 16, devid := 2, frame := 0 }
  { sUp with pair := { PairSt.reset with role := r, pclap := peer.isSome, peerP := heard } }

theorem witness_SetAndServiceCommands : pairOwnsStaging sUp = false ∧ busCount sUp ≤ 512 ∧ 511 < busCount sUp ∧ 32788 < 32789 ∧
    slotBusy sBusy 511 3 = true ∧ slotBusy sUp 511 3 = false ∧ sUp.conv.load = none ∧ 144 + (zeroBytes 4).length ≤ (load1 set1).size ∧
    (match parseSet (zeroBytes 148) 148 148 with | .error _ => true | .ok _ => false) = true ∧
    (match parseSet (load1 set1).bytes (load1 set1).got (load1 set1).size with | .error _ => false | .ok _ => true) = true ∧
    slotBusy sUp (load1 set1).bus (load1 set1).slot = false ∧ 0 ≤ sUp.tl.frame ∧ sUp.tl.frame < 1 ∧ sUp.ccp.frameQ.length < 256 ∧
    sUp.hw.secure = false ∧ ({ HwSt.reset with secure := true } : HwSt).secure = true ∧ (injectAddr sUp 8 0).isSome = true ∧
    sUp.fab.inj = [] ∧ sUp.log.failed = false ∧ ({ LogSt.reset with failed := true } : LogSt).failed = true ∧
    sUp.pair.role = .solo ∧ (sRole .standby (some 1)).pair.role = .standby ∧ takeoverPending sUp = false ∧
    takeoverPending { sUp with pair := { PairSt.reset with role := .standby, pend := some (.active, 2) } } = true ∧ peerRole (sRole .active (some 2)) = 2 ∧
    peerRole (sRole .standby (some 1)) = 1 ∧ (sRole .active (some 2)).pair.pclap = true ∧
    (sRole .active (some 2)).tl.frame + getF (sRole .active (some 2)) F.PAIR_LEAD_FRAMES < 1000 := by decide +kernel

/-- The results of a training that passes everywhere, and of one that passes nowhere. -/
def trainOk : TrainSet :=
  { cbt := [true, true, true, true], lev := [true, true, true, true],
    lanes := List.replicate 8 { rd := [2 ^ 40 - 1], wr := [2 ^ 40 - 1], n0 := 100 } }
def trainBad : TrainSet := { cbt := [false], lev := [], lanes := [] }

/-- A memory controller. -/
def sMem (d : MemSt) : State := { sUp with dram := d }

theorem witness_MemoryTrainingAndFsp : takePresent sUp = false ∧ takePresent (sStage .checked []) = true ∧ dramSupported sUp = true ∧
    dramSupported (setR sUp Reg.MEM_CFG 0xFFFFFFFF) = false ∧ ¬ (sUp.dram.training.isSome ∨ sUp.dram.change.isSome) ∧ 1 ≠ sUp.dram.fsp ∧
    (sMem { MemSt.reset with training := some 1 }).dram.training = some 1 ∧ (trainFails trainOk).1 = 0 ∧ (trainFails trainBad).1 ≠ 0 ∧
    (let c : FspChange := { target := 1, deferred := false, running := true, upto := 0, ctx := none }
     let s := sMem { MemSt.reset with change := some c, trained := 3 }
     s.dram.change = some c ∧ c.running = true ∧ bit s.dram.trained c.target = true ∧ takePresent s = false ∧
      takePresent { s with take := { s.take with stage := .checked } } = true) ∧ sUp.dram.training = none ∧ sUp.dram.change = none ∧
    bit sUp.dram.trained 1 = false ∧ (sMem { MemSt.reset with training := some 1 }).dram.trainCtx = none := by
  repeat' apply And.intro
  all_goals decide +kernel

theorem witness_MemoryTrainingAndFsp_deferred :
    (let s := sMem { MemSt.reset with training := some 1 }
     takePresent s = false ∧ s.dram.change = none ∧ 1 ≠ s.dram.fsp ∧ s.dram.training.isSome = true) := by decide +kernel

theorem witness_DramRequestQueues_map : 0 < 2 ∧ 0x1000000000 ≤ 0x1000000105 ∧ dramChan 0x1000000105 = dramChan 0x1000000105 := by decide

/-- A request for 16 bytes at address a, and one in the controller. -/
def req (a : Nat) : DramIn := { addr := a, write := [], len := 16, deadline := some 9, use := .control, at_ := 0 }
def held (a : Nat) (w : List (Option Byte)) : DramReq :=
  { id := 0, chan := dramChan a, master := 14, cls := 2, native := 2, head := false, addr := a, write := w, len := 16, closed := false, due := none,
    use := .control, at_ := 0, passed := 0, missed := false }

/-- A block whose controller is as given and ready. -/
def sDram (d : MemSt) : State := setUsable { sUp with dram := { d with ready := true } }

theorem witness_DramRequestQueues : (req 0xFFFFFFFFF).addr < 0x1000000000 ∧ 0 < (req 0).len ∧ powered (sDram MemSt.reset) = true ∧
    dramPort sUp .control = (0, 0) ∧ fabTarget (sDram MemSt.reset) 0 0x1000000000 16 false = some 0 ∧ fabTarget (sDram MemSt.reset) 0 0x1000000000 1 true = some 0 ∧
    fabTarget sUp 0 0x1000000000 16 false ≠ some 0 ∧ (sDram { MemSt.reset with selfRef := .in_ }).dram.selfRef = .in_ ∧
    (sDram { MemSt.reset with selfRef := .entering }).dram.selfRef = .entering ∧ sUp.dram.selfRef = .out := by decide +kernel

theorem witness_DramRequestServed : powered sUp = true ∧ sUp.dram.reqs = [] ∧ sUp.dram.heldReads = [] ∧ sUp.dram.training = none ∧
    sUp.dram.change = none ∧
    (∀ w ∈ [[], [some 1, none]], (sMem { MemSt.reset with reqs := [held 0x1000000000 w] }).dram.reqs = [held 0x1000000000 w] ∧
      (held 0x1000000000 w).chan = 0 ∧ (held 0x1000000000 w).due = none) ∧ sUp.fab.inj = [] ∧
    (let e := held 0x1000000000 []
     let r := { held 0x1000000100 [] with id := 1 }
     e.master = r.master ∧ e.id < r.id ∧ e.write = [] ∧ r.write = [] ∧ e.chan ≠ r.chan ∧ reqOverlap e r = false ∧
      (sMem { MemSt.reset with reqs := [e, r] }).dram.reqs = [e, r]) ∧ (held 0x1000000000 []).head = false ∧
    (held 0x1000000000 []).at_ + getF sUp F.MEM_AGE1_NS < 0 + getF sUp F.MEM_AGE1_NS + 1 ∧
    getF sUp F.MEM_AGE1_NS ≤ (held 0x1000000000 []).at_ + getF sUp F.MEM_AGE1_NS := by decide +kernel

theorem witness_DramRequestServed_waits : (sMem { MemSt.reset with training := some 1 }).dram.training ≠ none ∧
    (let c : FspChange := { target := 1, deferred := false, running := true, upto := 0, ctx := none }
     let s := sMem { MemSt.reset with change := some c, reqs := [held 0x1000000000 []] }
     s.dram.change = some c ∧ c.running = true ∧ ∀ e ∈ s.dram.reqs, c.upto ≤ e.id) := by
  refine ⟨?_, ?_, ?_, ?_⟩ <;> decide +kernel

theorem witness_DramMaintenance : sUp.dram.selfRef = .out ∧ (sMem { MemSt.reset with selfRef := .in_ }).dram.selfRef = .in_ ∧
    sUp.dram.ready = false ∧ (sMem { MemSt.reset with ready := true }).dram.fsp = 0 ∧
    [(0, false)].all (fun r => !r.2) = true ∧ [(0, true)].any (·.2) = true ∧
    (sMem { MemSt.reset with rhDue := [(3, 4)] }).dram.rhDue.contains (3, 4) = true ∧
    (∃ v ∈ [0, 1], getF (setR sUp Reg.MEM_PDTIMER v) F.MEM_PDTIMER_CK = 0) ∧ (∃ v ∈ [0, 1], getF (setR sUp Reg.MEM_PDTIMER v) F.MEM_PDTIMER_CK ≠ 0) ∧
    sUp.dram.reqs = [] ∧ sUp.dram.open_ = [] ∧ 0 < dramRanks sUp ∧ getF (setR sUp Reg.MEM_SRCTRL 0xFFFFFFFF) F.MEM_SRCTRL_IDLE ≠ 0 ∧
    getF (setR sUp Reg.MEM_SRCTRL 0) F.MEM_SRCTRL_IDLE = 0 ∧ takePresent sUp = false ∧ sUp.dram.training = none ∧ sUp.dram.change = none ∧
    (sMem { MemSt.reset with selfRef := .entering }).dram.selfRef = .entering ∧ powered sUp = true := by decide +kernel

/-- A block whose fabric holds what is given. -/
def sFab (f : FabSt) : State := { sUp with fab := f }
def aBurst (m : Nat) (w : Option Bytes) : Burst := { master := m, source := 0, target := 1, addr := 0x40000000, write := w, len := 2, drained := false }

theorem witness_FabricRequests : draining (sFab { FabSt.reset with drains := [{ master := 0, source := 0, left := 1, total := 1 }] }) 0 0 = true ∧
    portLoad (sFab { FabSt.reset with waiting := List.replicate 64 (aBurst 0 none) }) 0 = 64 ∧
    portLoad (sFab { FabSt.reset with waiting := List.replicate 63 (aBurst 0 none) }) 0 = 63 ∧ draining sUp 0 0 = false ∧
    fabTarget sUp 0 0xE000000000 1024 false = none ∧ fabTarget sUp 0 0x40000000 1024 true = some 1 ∧
    fabTarget sUp 0 (0x40000000 + 25165823) 1 false = some 1 ∧
    (sFab { FabSt.reset with current := [aBurst 5 none] }).fab.current.any (fun x => x.target == 1) = true ∧
    sUp.fab.current = [] ∧ sUp.fab.waiting = [] ∧ 16 ≤ kdma 31 ∧ (coreOf sUp 31).state ≠ .fault ∧
    (let s := sFab { FabSt.reset with waiting := [aBurst 4 none, aBurst 0 none] }
     (nextGrant s 1).isSome = true ∧ aBurst 4 none ∈ s.fab.waiting ∧ (aBurst 4 none).target = 1) := by decide +kernel

/-- A burst of master m on target t. -/
def burstAt (m t a : Nat) (w : Option Bytes) (n : Nat) : Burst := { master := m, source := 0, target := t, addr := a, write := w, len := n, drained := false }

theorem witness_FabricBurstsEnd : (aBurst 0 none).drained = false ∧ sUp.fab.stalled = [] ∧ (∀ w ∈ [none, some [1, 2]], (sFab { FabSt.reset with current := [aBurst 0 w] }).fab.current = [aBurst 0 w]) ∧
    sUp.fab.waiting = [] ∧ sUp.fab.inj = [] ∧ MemoryCanonical sUp ∧
    (∀ o ∈ [0, Reg.TAKE_FWCTRL, Reg.HOST_CAUSEEN, 0x3FFFFFC], regionBase 11 ≤ (burstAt 0 11 (0x30000000 + o) none 4).addr ∧
      ((burstAt 1 11 (0x30000000 + o) (some [1, 2, 3, 4]) 4).addr - regionBase 11) % 4 = 0) ∧ atOnce Reg.HOST_CAUSEEN = true ∧
    atOnce 0x3FFFFFC = false ∧ (burstAt 1 12 0xA0000000 (some [1, 2, 3, 4]) 4).write.isSome = true ∧
    (burstAt 0 10 0x20000000 none 64).addr = regionBase 10 + 64 * 0 ∧
    ({ sUp with log := { LogSt.reset with recs := [rec1] } }).log.recs[0]? = some rec1 := by
  unfold MemoryCanonical; decide +kernel

/-- A register of the fabric is read least significant byte first (R7, R430). -/
theorem test_fabric_register :
    (match exec (.burstGrant 11) (sFab { FabSt.reset with current := [burstAt 1 11 0x30000000 none 4] }) with
      | .next t => t.rdata
      | _ => []) = [0x24, 0x51, 0x59, 0x4C] := by decide +kernel

theorem witness_FabricService : (∃ d, (aBurst 0 (some [1, 2])).write = some d) ∧ liveBurst 0 0 (aBurst 0 (some [1, 2])) = true ∧
    (sFab { FabSt.reset with drains := [{ master := 0, source := 0, left := 1, total := 1 }] }).fab.drains = [{ master := 0, source := 0, left := 1, total := 1 }] ∧
    sUp.fab.stalled = [] ∧ sUp.fab.scrub.length = 9 ∧ outstanding sUp 0 0 = 0 ∧ sUp.fab.drains = [] ∧ sUp.fab.current = [] ∧ sUp.fab.waiting = [] ∧
    0 < outstanding (sFab { FabSt.reset with waiting := [aBurst 0 none] }) 0 0 ∧ draining sUp 0 0 = false ∧
    sUp.fab.errSum ≤ getF sUp F.FAB_UEMAX_COUNT ∧ getF sUp F.FAB_UEMAX_COUNT < 100000000 ∧ bit 2 1 = true ∧
    getF (setR sUp Reg.FAB_CTRL 0) F.FAB_CTRL_SCRUBEN = 0 ∧ getF (setR sUp Reg.FAB_CTRL 0xFFFFFFFF) F.FAB_CTRL_SCRUBEN ≠ 0 ∧
    sUp.fab.inj = [] := by
  refine ⟨⟨_, rfl⟩, ?_⟩
  decide +kernel

/-! Registers, transports, safety, pipeline. -/

/-- A core in FAULT and one in DEBUG. -/
def sStopped (x : CoreState) : State := withCore { running with state := x }

/-- A log not yet started, before a boot from PCIe with a valid image. -/
def sBoot : State := { sUp with pwr := { sUp.pwr with boot := .pcieWait, bootImage := image1 } }

set_option maxRecDepth 100000 in
theorem witness_RegisterWritesCommit : State.reset.hw.tk2512 = false ∧ sUp.ccp.fresh = [] ∧ bit (maskOf .w1c Reg.TAKE_INTSTAT) 0 = true ∧
    bit (getR (setR sUp Reg.TAKE_INTSTAT 1) Reg.TAKE_INTSTAT) 0 = true ∧ (coreOf (sStopped .fault) 0).state = .fault ∧ 1 = 2 ^ 0 ∧
    (coreOf (sStopped .debug) 0).state = .debug ∧ (coreOf (sStopped .debug) 0).hm = false ∧ 2 ≤ getF sUp F.KPU_CLK_DIV_MAX ∧
    sUp.pwr.trip = false ∧ getF (setF sUp F.KPU_CLK_DIV_MAX 2) F.KPU_CLK_DIV_MAX < 3 ∧ 1 < 2 ∧ 4 < 5 ∧ 7 < 8 ∧
    getF sUp F.XPT_CEILLIM_LOCKED = 0 ∧ getF (setF sUp F.XPT_CEILLIM_LOCKED 1) F.XPT_CEILLIM_LOCKED = 1 ∧ bit 1 0 = true ∧
    sUp.pwr.uvRails = 0 ∧ ({ sUp.pwr with uvRails := 1 } : PwrSt).uvRails ≠ 0 ∧ bit (2 ^ 31) 31 = true ∧ darkRefused sUp = false ∧
    darkRefused (setF (sRole .active none) F.PAIR_CFG_EN 1) = true ∧ sUp.log.started = false ∧ sBoot.pwr.boot = .pcieWait ∧
    imageValid sBoot sBoot.pwr.bootImage = true ∧ 3 < 4 ∧ ({ sUp.pwr with boot := .uart } : PwrSt).boot = .uart ∧ imageValid sUp image1 = true ∧
    imageValid sUp [] = false ∧ sUp.pwr.boot ≠ .uart := by decide +kernel

theorem witness_DirectAccesses : pcieUp sUp = true ∧ 0x3FFFFFC % 4 = 0 ∧ 0x3FFFFFC < 0x4000000 ∧ 14 % 16 ≠ 15 ∧
    atOnce Reg.PWR_TWARN = false ∧ latched Reg.PWR_TWARN = false ∧ unitAbsent sUp Reg.PWR_TWARN = false ∧
    unitAbsent sSmall 0x061000 = false ∧ unitAbsent sSmall 0x06C000 = true ∧ Reg.PWR_TWARN ≠ Reg.TIME_TSQ_W0 ∧
    1 < 22 ∧ (20 : Nat) ≠ 21 := by decide +kernel

/-- A block with rings as given. -/
def sRing (head tail : Nat) (heldReplies : List Bytes) : State :=
  { setR (setR sUp Reg.HOST_RPLHEAD head) Reg.HOST_RPLTAIL tail with ccp := { CcpSt.reset with ringHeld := heldReplies } }

theorem witness_HostTransportsAndMsix : pcieUp sUp = true ∧ 8 % 16 ≠ 0 ∧ 65520 % 16 = 0 ∧
    (65520 + 65536 - getR sUp Reg.HOST_CMDHEAD) % 65536 ≤ 65520 ∧
    (64 + 65536 - getR (sRing 0 64 []) Reg.HOST_RPLHEAD) % 65536 ≤ (getR (sRing 0 64 []) Reg.HOST_RPLTAIL + 65536 - 0) % 65536 ∧
    (getR (sRing 0 64 []) Reg.HOST_RPLTAIL + 65536 - 0) % 65536 < (80 + 65536 - getR (sRing 0 64 []) Reg.HOST_RPLHEAD) % 65536 ∧
    sUp.ccp.ringHeld = [] ∧ (sRing 16 0 [zeroBytes 20]).ccp.ringHeld = [zeroBytes 20] ∧
    (padTo 16 (zeroBytes 20)).length > ringFree 16 0 ∧ ({ CcpSt.reset with spiIn := [[], []] } : CcpSt).spiIn.length = 2 ∧
    sUp.ccp.spiIn = [] ∧ 65536 < ([49113].map id).sum + 16424 ∧ bit sUp.ccp.msixMask 21 = true ∧ bit 0 21 = false ∧
    bit sUp.ccp.msixPend 21 = false := by decide +kernel

theorem witness_HostTransportsAndMsix_room : (sRing 64 64 [zeroBytes 20]).ccp.ringHeld = [zeroBytes 20] ∧
    (padTo 16 (zeroBytes 20)).length ≤ ringFree (getR (sRing 64 64 [zeroBytes 20]) Reg.HOST_RPLHEAD) (getR (sRing 64 64 [zeroBytes 20]) Reg.HOST_RPLTAIL) ∧
    ({ CcpSt.reset with spiHeld := [[]] } : CcpSt).spiHeld ≠ [] ∧ ({ CcpSt.reset with msixPend := 2 ^ 21 } : CcpSt).msixPend = 2 ^ 21 ∧ 21 < 22 := by
  decide +kernel

theorem witness_MuteAndCeiling : sUp.xpt.house = false ∧ sUp.xpt.houseLow = false ∧ getF sUp F.XPT_FMUTE_CAUSE = 0 ∧
    ({ sUp.xpt with house := true } : XptSt).house = true ∧ getF (setF sUp F.XPT_FMUTE_CAUSE 1) F.XPT_FMUTE_CAUSE ≠ 0 ∧
    (∀ y ∈ [(-16777216 : Int), 16777215], -16777216 ≤ y ∧ y ≤ 16777215) ∧ (ceiling 5 [9, -9]).1.length = 2 ∧
    (muteClip .muted [9]).1.length = 1 := by decide +kernel

/-- A block in frame 5 with changes for frames 5 and 6, and two that wait for no frame. -/
def sDue : State :=
  { sUp with tl := { TlSt.reset with frame := 5 }, fw := { FwSt.reset with sched := some (1, 5), schedArr := 2 },
             pair := { PairSt.reset with switch := some (4, 9) }, ccp := { CcpSt.reset with
    frameQ := [(6, 0, .modify 0 0 0), (5, 3, .modify 4 0 0), (5, 1, .modify 12 0 0), (3, 2, .modify 8 0 0)],
    pend := [(5, .modify 0 0 0), (4, .modify 4 0 0)] } }

/-- A block with an active take whose program runs in bank 0. -/
def sWorkTake : State :=
  { sUp with take := { TakeSt.reset with active := some aTake }, pipe := { PipeSt.reset with bank := 0 },
             disp := { DispSt.reset with bank0 := some { graph := noGraph, lo := 0, hi := none } } }

/-- A block that a waiting write sends into the Dark state. -/
def sDarkDue : State := { sUp with ccp := { CcpSt.reset with pend := [(0, .write Reg.PWR_DARK [0x80000000] false)] } }

/-- The block after the commits of a boundary. -/
def committedOf (s : State) : State :=
  let e := endOfFrame (clearFresh s)
  let u := spliceDue e
  let c := captureFrame (releaseMasks u (posNow u)) ((e.tl.frame + 2 ^ 60 - 1) % 2 ^ 60) { tdm := [], mics := [] }
  let b := beginProcessing (masksSettle c.2 (posNow c.2)) c.1
  endJump (tripDivider (commitPending (commitFrameAddressed (rsCut (cutDue (rsPhase b))))))

theorem witness_FrameBoundaryOrder : powered State.reset = false ∧ powered sUp = true ∧ sUp.clk.st ≠ .fault ∧
    ({ sUp.clk with st := .fault } : ClkSt).st = .fault ∧ dueChanges sDue = [(3, 2, .modify 8 0 0), (4, 9, .op (.pairSwitchover 4) none), (5, 1, .modify 12 0 0), (5, 2, .op (.fwSwitch 1 5) none), (5, 3, .modify 4 0 0)] ∧
    ({ sUp.pwr with seq := .darkening } : PwrSt).seq = .darkening ∧ sUp.pwr.seq = .up ∧
    sDue.ccp.pend = [(5, .modify 0 0 0), (4, .modify 4 0 0)] ∧ (committedOf sUp).pwr.seq ≠ .darkening ∧ (committedOf sDarkDue).pwr.seq = .darkening := by
  repeat' apply And.intro
  all_goals decide +kernel

/-- A take whose lists have their lengths, due in frame 9; with a correction set that no channel has, it is not ready. -/
def cutTake (len : Nat) : Take :=
  { aTake with safety := { aTake.safety with ceil := List.replicate 8 0, ceilsel := List.replicate 96 0 }, xpt := { moncfg := List.replicate 128 0, nodes := [] },
               localio := { LioSec.none with dec := List.replicate 16 { src := 0xFFFF, cset := 0, obj := 0xFFFF, xin := 0xFFFF }, gcfg := List.replicate 4 0 },
               corr := { aTake.corr with len := [len] } }
def sSched (len frame : Nat) : State :=
  { sUp with tl := { TlSt.reset with frame := frame },
             take := { TakeSt.reset with stage := .scheduled, cut := some (9, false), staged := some (cutTake len), lastCut := some (8, []) } }

theorem witness_CutTakesEffect : sUp.take.stage ≠ .scheduled ∧ (sSched 0 8).take.stage = .scheduled ∧ (sSched 0 8).take.cut = some (9, false) ∧
    (sSched 0 8).take.staged = some (cutTake 0) ∧ (sSched 0 8).tl.frame < 9 ∧ 9 ≤ (sSched 1 9).tl.frame ∧
    firstNotReady (sSched 1 9) (cutTake 1) = some 0 ∧ firstNotReady (sSched 0 9) (cutTake 0) = none ∧ TakeFits (cutTake 0) ∧
    sUp.take.active = none ∧ (∃ a, (sWorkTake).take.active = some a) ∧ (sWorkTake).pipe.bank < 2 ∧
    (∃ b, bankOf sWorkTake sWorkTake.pipe.bank = some b) ∧ (sSched 0 8).take.lastCut = some (8, []) ∧ 8 < 2 ^ 64 := by
  unfold TakeFits
  refine ⟨?_, ?_, rfl, rfl, ?_, ?_, ?_, ?_, ?_, ?_, ⟨_, rfl⟩, ?_, ⟨_, rfl⟩, rfl, ?_⟩ <;> decide +kernel

/-- A crosspoint that holds 16,384 active nodes, or one, with XPT_NSEL at an output. -/
def aNode : Node := let r : Ramp := { g0 := 4, g1 := 4, len := 1, start := -1 }; { cur := r, prev := r }
def sNode (out n : Nat) : State :=
  { setF sUp F.XPT_NSEL_OUT out with xpt := { XptSt.reset with nodes := (List.range n).map fun i => (i + 1, aNode) } }

set_option maxRecDepth 100000 in
theorem witness_NodeRampsAndMeters : 511 < 512 ∧ (0 : Int) ≤ 0 ∧ 1 ≤ 1 ∧ (0, 0) ≠ (1, 0) ∧ busCount { sUp with hw := sSmall.hw } ≤ 256 ∧
    getF (sNode 640 0) F.XPT_NSEL_OUT = 640 ∧ getF (sNode 511 0) F.XPT_NSEL_OUT < busCount (sNode 511 0) ∧
    getF (sNode 639 0) F.XPT_NSEL_OUT = 639 ∧ signed 24 1 ≠ 0 ∧ (nodeOf (sNode 0 0).xpt.nodes 0 0).active (posNow (sNode 0 0)) = false ∧
    activeNodes (sNode 0 16384).xpt.nodes (posNow (sNode 0 16384)) = 16384 ∧ (∀ y ∈ [((0 : Nat), (511 : Nat), (5 : Int))], y.2.1 < 512) ∧
    aNode.active 0 = true ∧ ([(0, zero16)] : Sparse (List Int)).all (fun p => p.2.length == 16) = true ∧ (1151 : Nat) < 1152 ∧ RegsCanonical sUp ∧
    0 < getR (setR sUp (Reg.XPT_METER_LEVEL + 4) 7) (Reg.XPT_METER_LEVEL + 4) := by
  unfold RegsCanonical; decide +kernel

/-- A frame under processing, with or without the take it belongs to, before and after rendering. -/
def sWork (rendered : Bool) : State :=
  let x := { Side.new false with rendered := rendered }
  let w : Work := { pos := 0, xin := [], prime := x, second := none, corrected := [], feeds := [], hits := [] }
  { sUp with take := { TakeSt.reset with active := some aTake }, pipe := { PipeSt.reset with work := some w } }

/-- A channel that runs 256 taps in one block size, and a slot under conversion. -/
def sConv : State :=
  setChan sUp 2 { ConvCh.none with
    run := { ConvRun.off with len := 2 }, slots := [.converting { setid := 1, len := 1, rate := 1, adaptive := false, h := [] }] }

/-- A path entry from delay d0 to d1, and a tick of m samples with slew limit `slew`. -/
def aPath (hist jump : Bool) (d0 d1 : Nat) : PathEntry :=
  { obj := 0, bus := 0, g1 := 100, d1 := d1, hist := hist, g0 := 0, d0 := d0, far := none, jump := jump }
def aTick (m slew : Nat) : TickCtx := { start := 0, m := m, slew := slew, list := [], fades := [], slots0 := 0, slots1 := 0, area := 0, size := 0 }

theorem witness_PathSamples : 0 < (aTick 16 4096).m ∧
    (((aPath true false 0 65536).d1 : Int) - (aPath true false 0 65536).d0).natAbs ≤ (aTick 16 4096).slew * (aTick 16 4096).m ∧
    ¬ (((aPath true true 0 65537).d1 : Int) - (aPath true true 0 65537).d0).natAbs ≤ (aTick 16 4096).slew * (aTick 16 4096).m ∧
    (aPath true true 0 65537).hist = true ∧ (aPath false false 0 5).hist = false ∧ 16 ≤ (aTick 16 4096).m ∧ (aTick 16 0).slew = 0 ∧
    (aPath true false 0 1).d1 ≠ (aPath true false 0 1).d0 := by decide

theorem witness_GeometryArithmetic : dist16 1 ≠ 0 ∧ 1 < [3, 4].length ∧ 0 < ([3, 4].map fun x => x * x).sum ∧
    (norm22 [3, 4]).getD 1 0 ≠ 0 ∧
    (let c : CandSet := { members := 4, tris := 2, memberOfs := 0, triOfs := 0, law := 0, rolloff := 0, dref := 1, dmin := 1, blur := 0, doff := 0 }
     let g : GeoSec := { speakers := [], tris := [], csets := [c], members := [], trilist := [], init := [] }
     let o : ObjIn := { pos := { x := 0, y := 0, z := 0 }, size := 0, gain := 0, doppler := false, focus := false, far := false, mode := 0, cset := 0 }
     g.csets[o.cset]? = some c ∧ o.mode = 0 ∧ o.size = 0 ∧ { o with size := 1 }.size ≠ 0 ∧ { o with mode := 2 }.mode ≠ 0) := by
  decide +kernel

theorem witness_PipelineStages : sUp.pipe.work = none ∧ (sWork false).pipe.work.isSome = true ∧ (sWork true).pipe.work.isSome = true ∧
    ((sWork true).pipe.work.map fun w => (w.prime.rendered, groupDone (sWork true) w w.prime 15)) = some (true, true) ∧
    ((sWork false).pipe.work.map fun w => (w.prime.rendered, groupDone (sWork false) w w.prime 15)) = some (false, false) ∧
    (match (chanOf sConv 2).slots.getD 0 .empty with | .converting _ => true | _ => false) = true ∧
    (match (chanOf sUp 0).slots.getD 0 .empty with | .converting _ => false | _ => true) = true ∧
    blockDue sUp 0 16 (prepRun (chanOf sUp 0) (runFor (chanOf sUp 0) (posNow sUp - 1)) (posNow sUp - 1)) (posNow sUp - 1) = false ∧
    ([32, 64].any fun p =>
      blockDue sConv 2 p (prepRun (chanOf sConv 2) (runFor (chanOf sConv 2) (posNow sConv - 1)) (posNow sConv - 1)) (posNow sConv - 1)) = true ∧
    ({ sUp.tl with relock := true } : TlSt).relock = true ∧ sUp.tl.relock = false ∧
    ((sWork true).pipe.work.map fun w => (w.second.isSome, w.prime.outgoing)) = some (false, false) ∧
    (({ Side.new true with rendered := true } : Side).outgoing = true) ∧ sConv.fab.inj = [] ∧ sUp.pipe.cuts = [] ∧ MemoryCanonical sConv ∧
    ((sWork true).pipe.work.map fun w => ({ w with second := some (Side.new true) } : Work).second.isSome) = some true ∧
    ((sWork true).pipe.work.map fun w => 15 ∈ ({ w with corrected := [15] } : Work).corrected ∧ 15 ∉ w.corrected) = some True := by
  refine ⟨?_, ?_, ?_, ?_, ?_, ?_, ?_, ?_, ?_, ?_, ?_, ?_, ?_, ?_, ?_, ?_, ?_, by simp [sWork]⟩ <;> (try unfold MemoryCanonical) <;> decide +kernel

/-- A bank with one task and one arc into it. -/
def aBank : Bank :=
  let k : Kernel := { entry := 7, len := 1, coreMask := 0xFFFFFFFF, img := 0 }
  let t : Task := { kernel := 0, cls := 0, nslot := 1, affMode := 0, affCore := 0, dlk := 0, arcFirst := 0, arcCount := 0, args := [0, 0, 0, 0] }
  let a : Arc := { src := 0xF000, dst := 0, slot := 0, auto := false }
  { graph := { noGraph with kernels := [k], tasks := [t], arcs := [a] }, lo := 0, hi := none }

/-- An instance of the task. -/
def anInst (st : InstState) (slots : Nat) : Inst :=
  { bank := 0, task := 0, frame := 5, st := st, slots := slots, core := 0, readyAt := 0, sent := [] }

/-- A dispatcher with that bank and an instance. -/
def sDisp (i : Inst) : State := { sUp with disp := { DispSt.reset with bank0 := some aBank, insts := [i] } }

theorem witness_DispatcherCycle : pickReady (sDisp (anInst .waiting 1)) = none ∧
    (let d := (sDisp (anInst .ready 1)).disp
     let s := { sDisp (anInst .ready 1) with disp := { d with tokens := [.arc 0 0 5] } }
     s.disp.tokens.take 4 = [.arc 0 0 5] ∧ s.disp.cancels = [] ∧ s.pipe.imgCores = [] ∧ s.disp.bank0.bind (·.hi) = none ∧
      s.disp.bank1.bind (·.hi) = none) ∧ (pickReady (sDisp (anInst .ready 1))).isSome = true ∧ 31 < 32 ∧ bankOf (sDisp (anInst .ready 1)) 0 = some aBank ∧
    (aBank.graph.arcs[0]?.map fun a => decide (a.dst < 0xE000)) = some true ∧
    (∀ i ∈ [anInst .waiting 1, anInst .completed 1], findInst (sDisp i) 0 0 5 = some i ∧ bit i.slots 0 = true) ∧
    findInst (sDisp (anInst .waiting 0)) 0 0 5 = some (anInst .waiting 0) ∧ bit (anInst .waiting 0).slots 0 = false ∧
    findInst (sDisp (anInst .ready 1)) 0 0 6 = none ∧ deadlinePassed (sDisp (anInst .ready 1)) (taskOf (sDisp (anInst .ready 1)) 0 0).dlk 6 = false := by
  repeat' apply And.intro
  all_goals decide +kernel

theorem witness_DispatcherCycle_stale :
    (let d := (sDisp (anInst .ready 1)).disp
     let s := { sDisp (anInst .ready 1) with disp := { d with cutoff := some 9 } }
     findInst s 0 0 3 = none ∧ deadlinePassed s (taskOf s 0 0).dlk 3 = true) := by decide +kernel

/-- A log of n records, and one with n queued events. -/
def sRecs (n : Nat) : State := { sUp with log := { LogSt.reset with head := n, recs := List.replicate n rec1, started := true } }
def anEvent : LogEvent := { code := 0x0105, payload := zeroBytes 32, run := none, first := false, cseq := none, hours := 0 }
def sEvents (n : Nat) : State := { sUp with log := { LogSt.reset with queue := List.replicate n anEvent } }

set_option maxRecDepth 100000 in
theorem witness_LogRecorder : (sRecs 8190).log.failed = false ∧ (sRecs 8190).log.full = false ∧ (sRecs 8190).log.recs.length = 8190 ∧
    (sRecs 8191).log.recs.length = 8191 ∧ ({ LogSt.reset with full := true } : LogSt).full = true ∧
    ({ LogSt.reset with failed := true, spill := List.replicate 7 rec1 } : LogSt).spill.length = 7 ∧
    ({ LogSt.reset with failed := true, spill := List.replicate 8 rec1 } : LogSt).spill.length = 8 ∧
    eventsWaiting (sEvents 255).log = 255 ∧ eventsWaiting (sEvents 256).log = 256 ∧
    (sRecs 1).log.started = true ∧ anEvent.code ≠ 0x1302 ∧ anEvent.run = none ∧ lastRec (sRecs 1).log = some rec1 ∧
    rec1.code = anEvent.code ∧ rec1.payload = anEvent.payload ∧ sUp.fab.inj = [] ∧ findRec (sRecs 1).log (0 % 2 ^ 32) = some rec1 ∧
    findRec (sRecs 1).log (1 % 2 ^ 32) = none := by decide +kernel

/-! Power, streams, network, clocks, local audio, pair. -/

/-- A block whose power logic is as given. -/
def sPwr (p : PwrSt) : State := { State.reset with pwr := p }

theorem witness_PowerAndReset : State.reset.portA.held = [] ∧ State.reset.portB.held = [] ∧ (sPwr { PwrSt.reset with boot := .running, wdt1 := true }).pwr.wdt1 = true ∧
    (sPwr { PwrSt.reset with boot := .running }).pwr.wdt1 = false ∧ PwrSt.reset.boot ≠ .running ∧ bit (2 ^ 31) 31 = true ∧ bit 0 31 = false ∧
    (sPwr { PwrSt.reset with seq := .raising 4 }).pwr.seq = .raising 4 ∧ (sPwr { PwrSt.reset with seq := .raising 5 }).pwr.seq = .raising 5 ∧
    (sPwr { PwrSt.reset with seq := .waking 0 }).pwr.seq = .waking 0 ∧ (sPwr { PwrSt.reset with seq := .waking 2 }).pwr.seq = .waking 2 ∧
    sUp.pwr.seq = .up ∧ 8 < 9 ∧ bit sUp.pwr.uvRails 8 = false ∧ bit ({ PwrSt.reset with uvRails := 256 } : PwrSt).uvRails 8 = true ∧
    (sRole .active none).pair.role = .active ∧ bit (getR (setR sUp Reg.PWR_WAKECFG 0) Reg.PWR_WAKECFG) 2 = false ∧
    (sPwr { PwrSt.reset with seq := .dark }).pwr.seq = .dark ∧
    bit (getR (setR (sPwr { PwrSt.reset with seq := .dark }) Reg.PWR_WAKECFG 4) Reg.PWR_WAKECFG) 2 = true ∧
    getF sUp F.PWR_PMBSTAT_BUSY = 0 ∧ getF (setF sUp F.PWR_PMBSTAT_BUSY 1) F.PWR_PMBSTAT_BUSY = 1 ∧
    ({ PwrSt.reset with pmbRead := true } : PwrSt).pmbRead = true ∧ sUp.pwr.trip = false ∧
    (sPwr { PwrSt.reset with trip := true }).pwr.trip = true ∧ (∀ v ∈ [2, 3, 4], getF (setF sUp F.KPU_CLK_DIV_CUR v) F.KPU_CLK_DIV_CUR = v) ∧
    (712 : Nat) < railLimit sUp 0 ∧ railLimit sUp 0 ≤ 713 ∧ bit sUp.pwr.uvRails 0 = decide (False ∨ 713 < railLimit sUp 0) ∧
    railGroup 0 = some 0 ∧ powered sUp = true ∧ bit ({ sUp.pwr with en := 1 } : PwrSt).en 0 = true ∧ State.reset.clk.st ≠ .fault ∧
    ({ ClkSt.reset with st := .fault } : ClkSt).st = .fault ∧ ({ HwSt.reset with bootmode := 3 } : HwSt).secure = false := by decide +kernel

theorem witness_ThermalWarning : getF sUp F.PWR_STATUS_WARN ≠ 1 ∧ getF (setF sUp F.PWR_STATUS_WARN 1) F.PWR_STATUS_WARN = 1 ∧
    signed 16 (getF sUp F.PWR_TWARN_TEMP) ≤ 1600 ∧ (1520 : Int) ≤ signed 16 (getF sUp F.PWR_TWARN_TEMP) - 80 ∧
    (1599 : Int) < signed 16 (getF sUp F.PWR_TWARN_TEMP) ∧ signed 16 (getF sUp F.PWR_TWARN_TEMP) - 80 < 1521 ∧
    eventsWaiting sUp.log < 256 ∧ 7 < 8 := by decide +kernel

/-- A receive entry of an L16 channel, or of metadata, and its packets. -/
def entry (kind : Nat) : RxEnt :=
  { dsta := 1, dstb := 0, srca := 0, srcb := 0, udpa := 0, udpb := 0, kind := kind, fmt := 0, ch := 1, np := 6, pt := 96, flags := 0,
    depth := 48, linkofs := 0, ssrc := 0, mapofs := 0 }
def rtp (ts : Nat) : RtpPkt :=
  { frag := false, ipOpt := false, ipBad := false, udpBad := false, version := 2, pt := 96, seq := 1, ts := ts, ssrc := 0,
    payload := zeroBytes 12, stamp := 0 }
def sRx (x : RxSt) : State := { sUp with tl := { TlSt.reset with frame := 9 }, strm := { StrmSt.reset with rx := [x] } }
def omp (frame : Nat) : Bytes :=
  let b := beBytes 2 0x4F4D ++ beBytes 1 1 ++ zeroBytes 3 ++ beBytes 2 1 ++ beBytes 8 frame ++ zeroBytes 32
  b ++ beBytes 4 (crc32c b)
def sOmp (b : Bytes) : State := { sUp with strm := { StrmSt.reset with omp := [(1, b)] } }

theorem witness_StreamPackets : powered (sRx (RxSt.new (entry 0))) = true ∧ powered State.reset = false ∧ bit ({ entry 0 with flags := 1 } : RxEnt).flags 0 = true ∧
    sUp.fab.inj = [] ∧ 0 < (entry 0).np ∧ ({ RxSt.new (entry 1) with dups := [1] } : RxSt).dups.contains 1 = true ∧ sUp.strm.meta_.length < 8192 ∧
    (sRx (RxSt.new (entry 0))).strm.rx[1]? = none ∧ (sRx (RxSt.new (entry 0))).strm.rx[0]? = some (RxSt.new (entry 0)) ∧
    legPresent (entry 0) 1 = false ∧ legPresent (entry 0) 0 = true ∧ rxBad sUp (entry 0) { rtp 0 with version := 1 } = true ∧
    rxBad sUp (entry 0) (rtp 0) = false ∧ rxBad sUp (entry 1) (rtp 0) = false ∧
    (∀ ts ∈ [144, 186], (144 : Int) ≤ 144 - 2 ^ 31 + ((ts : Int) - (144 - 2 ^ 31)) % 2 ^ 32 ∧
      144 - 2 ^ 31 + ((ts : Int) - (144 - 2 ^ 31)) % 2 ^ 32 + 6 - 1 < 144 + 48) ∧
    (144 - 2 ^ 31 + ((138 : Int) - (144 - 2 ^ 31)) % 2 ^ 32 + 6 - 1 < 144) ∧ (RxSt.new (entry 0)).store = [] ∧
    0 ≤ samplePos (sRx (RxSt.new (entry 0))) 144 ∧ (RxSt.new (entry 0)).upA = false ∧
    ({ RxSt.new (entry 0) with upA := true, upB := true } : RxSt).upB = true ∧
    ({ RxSt.new (entry 0) with upA := true, st := .running } : RxSt).st = .running ∧ sUp.strm.omp = [] ∧
    metaPacketOk (zeroBytes 52) = false ∧ metaPacketOk (omp 257) = true ∧ sUp.tl.frame + 256 < beAt (omp 257) 8 8 ∧
    metaPacketOk (omp 256) = true ∧ beAt (omp 256) 6 2 = 1 ∧ beAt (omp 256) 8 8 ≤ sUp.tl.frame + 256 ∧
    sUp.tl.frame ≤ beAt (omp 256) 8 8 + getF sUp F.STRM_MLATE_FRAMES ∧
    (metaEntry (sliceB (omp 256) 16 32) 256 false 1).isSome = true ∧ (sOmp (omp 256)).strm.omp = [(1, omp 256)] ∧
    bit (entry 0).flags 0 = false ∧ (entry 1).kind ≠ 0 ∧ ({ RxSt.new (entry 0) with upA := true } : RxSt).st ≠ .running ∧
    (let s := { sOmp (omp 0) with tl := { TlSt.reset with frame := 1000 } }; beAt (omp 0) 8 8 + getF s F.STRM_MLATE_FRAMES < s.tl.frame) := by
  repeat' apply And.intro
  all_goals decide +kernel

/-- A broadcast frame, and one to a MAC address that is not the port's. -/
def frame (dst : Nat) : Bytes :=
  let b := beBytes 6 dst ++ zeroBytes 54
  b ++ leBytes 4 (crc32e b)

/-- A port as given. -/
def sPort (v : PortSt) : State := setPort sUp 0 v

/-- A block whose port A has its PCS on and a MAC address. -/
def sMac : State := setR (setF sUp F.NET_CFG_PCS 4) Reg.NET_MAC_LO 5
def heldAt (stamp : Nat) : RxHeld := { stamp := stamp, flags := 0, bytes := frame 2 }

theorem witness_FrameReception : frame 2 ≠ [] ∧ sMac.fab.inj = [] ∧
    (let v := { PortSt.reset with held := [heldAt 99] }
     (portOf (setPort sMac 0 v) 0).held = [heldAt 99] ∧ (portOf (setPort (setPort sMac 0 v) 1 v) 1).held = [heldAt 99]) ∧
    ({ PortSt.reset with link := true } : PortSt).link = true ∧ ({ PortSt.reset with xoff := true } : PortSt).xoff = true ∧
    0 ≤ 64 * getF sMac F.NET_FCTHR_XON ∧ sMac.pwr.netref = true ∧ ({ sMac.pwr with netref := false } : PwrSt).netref = false ∧
    pcsOn sMac 0 = true ∧ pcsOn (setF sMac F.NET_CFG_PCS 0) 0 = false ∧ powered sMac = true ∧
    powered State.reset = false ∧ State.reset.pwr.seq ≠ .dark ∧ getF sMac (netF 0 F.NET_FC_TXPAUSE) = 0 ∧ getF sMac (netF 0 F.NET_FC_TXPFC) = 0 ∧
    sMac.portA.held = [] ∧ sMac.portB.held = [] ∧ 65536 < 65473 + ((frame 1).take 9600).length ∧ 65472 + ((frame 1).take 9600).length ≤ 65536 ∧
    frameFlags sMac 0 [1] false false ≠ 0 ∧ getF (raise (addCtr sMac (netR 0 (badCounter 1)) 1) 3 1) (netF 0 F.NET_CFG_DELIVER_BAD) = 0 ∧
    frameFlags sMac 0 (frame 2) false false = 0 ∧ chainMode sMac = false ∧ chainMode (setF sMac F.NET_CFG_PORTMODE 1) = true ∧
    addressOk sMac 0 (beAt (frame 2) 0 6) = false ∧ addressOk sMac 0 (beAt (frame (2 ^ 48 - 1)) 0 6) = true ∧
    ingressBefore (99, 1) (100, 0) = true ∧ ingressBefore (100, 1) (100, 0) = false ∧ (heldAt 99).stamp < (heldAt 100).stamp ∧
    ¬ (heldAt 100).stamp < (heldAt 100).stamp ∧ getF (setF sMac F.NET_FC_TXPAUSE 1) F.NET_FC_TXPAUSE ≠ 0 ∧ maySend sMac 0 = true ∧
    64 * getF sMac F.NET_FCTHR_XOFF < 64 * getF sMac F.NET_FCTHR_XOFF + 1 ∧ sMac.pwr.seq ≠ .dark ∧
    (portOf (setPort sMac 0 { PortSt.reset with link := true, linkPend := some (false, 4, false, false, false) }) 0).link = true := by
  decide +kernel

/-- A frame of a queue, and a request to launch one. -/
def txf (k : TxKind) : TxFrame := { bytes := frame 2, at_ := 0, kind := k }
def timedFrame : TxFrame := txf (.launch 3 true 1000 false false 0 true)
def request (timed : Bool) : LaunchReq :=
  { tag := 3, viaQ3 := false, taken := 1, timed := timed, lsec := 0, lns := 0, stamp := false, onestep := false, ptpofs := 0, latewin := timed, frame := frame 2 }
def upPort : PortSt := { PortSt.reset with link := true }
def pdelay : PdelayReq := { version := 2, minor := 1, domain := 0, seq := 1, portId := 1, corr := 0, stamp := 0, overUdp := false }
def sPdelay : State := setR (setF sUp F.TIME_CTRL_PDRESP 1) Reg.NET_MAC_LO 5

/-- Port A of that block as given. -/
def sTx (v : PortSt) : State := setPort sMac 0 v

theorem witness_TransmitAndLaunch : powered State.reset = false ∧ powered (sTx upPort) = true ∧ (portOf (sTx upPort) 0).wire = none ∧
    upPort.link = true ∧ maySend (sTx upPort) 0 = true ∧ pcsOn (sTx upPort) 0 = true ∧ upPort.pauseQ = [] ∧ upPort.pause = 0 ∧
    upPort.pfc = Vector.replicate 8 0 ∧ (portOf (sTx { upPort with q1 := [txf .media] }) 0).q1 = [txf .media] ∧
    0 ≤ 0 + 4000 * getF sMac (netF 0 F.NET_STALE_US) ∧ (portOf (sTx { upPort with pauseQ := [txf .pause] }) 0).pauseQ = [txf .pause] ∧
    (portOf (sTx { upPort with wire := some (txf .media) }) 0).wire = some (txf .media) ∧ (sTx upPort).fab.inj = [] ∧ PortSt.reset.q1 = [] ∧ PortSt.reset.q2 = [] ∧
    PortSt.reset.q3 = [] ∧ upPort.q0 = [] ∧ 8 ≤ 8 ∧ 7 < 8 ∧
    launchFull (sTx { upPort with q0 := List.replicate 64 timedFrame }) 0 60 = true ∧
    launchFull (sTx { upPort with q0 := List.replicate 63 timedFrame }) 0 60 = false ∧ ({ request true with viaQ3 := true } : LaunchReq).viaQ3 = true ∧
    (request false).viaQ3 = false ∧ (request false).timed = false ∧ chainMode (sTx upPort) = false ∧
    (let m := request true; ltimeOf m 0 + lateWin sMac ≤ ltimeOf m 0 + lateWin sMac ∧ m.timed = true ∧ m.latewin = true ∧
      ¬ ltimeOf m 0 + lateWin sMac + 1 ≤ ltimeOf m 0 + lateWin sMac) ∧ PortSt.reset.link = false ∧
    (let s := setPort (setF (sTx upPort) F.NET_CFG_PORTMODE 1) 1 upPort
     chainMode s = true ∧ s.portA.link = true ∧ s.portB.link = true ∧ launchFull s 0 64 = false ∧ launchFull s 1 64 = false) ∧
    1000 + lateWin sMac < 1001 + lateWin sMac ∧ 999 < 1000 ∧ 1000 ≤ 1000 + lateWin sMac ∧
    (portOf (sTx { upPort with q0 := [timedFrame] }) 0).q0 = [timedFrame] ∧ upPort.tsq = [] ∧
    (portOf (sTx { upPort with tsq := [(3, 5)] }) 0).tsq = [(3, 5)] ∧ bit (getF sMac F.TIME_CTRL_PDRESP) 0 = false ∧
    bit (getF sPdelay F.TIME_CTRL_PDRESP) 0 = true ∧ maySend sPdelay 0 = true ∧ maySend sUp 0 = false ∧ powered sPdelay = true ∧
    pdelay.minor ≤ 1 ∧ 2 ≤ ({ pdelay with minor := 2 } : PdelayReq).minor ∧ pdelay.overUdp = false ∧
    pdelay.domain = getF sPdelay (F.TIME_SVCFG_DOMAIN.plus 0) ∧ ({ pdelay with version := 1 } : PdelayReq).version ≠ 2 := by
  decide +kernel

theorem witness_TransmitAndLaunch_skip :
    ∃ o c i, ∃ y ∈ ({ upPort with q0 := [txf (.pdelayResp 14 0 0)] } : PortSt).q0, y.kind = .pdelayResp o c i :=
  ⟨14, 0, 0, by decide⟩

/-- A PTP message and a servo of port A as given. -/
def ptp (two : Bool) : PtpMsg :=
  { version := 2, minor := 1, domain := 0, portId := 0, seq := 5, twoStep := two, origin := 0, corr := 0, stamp := 100 }
def sServo (v : Servo) : State := setServo sUp 0 v

theorem witness_NetworkTime : powered sUp = true ∧ powered State.reset = false ∧ ptpSelected sUp = false ∧
    (let s := { sUp with clk := { ClkSt.reset with sel := 4, st := .locked } }; ptpSelected s = true ∧ s.clk.st = .locked ∧ dpllSteers s = true) ∧ captures sUp 0 (ptp true) = false ∧ captures (sServo { Servo.reset with st := .wait }) 0 (ptp true) = true ∧
    (ptp true).twoStep = true ∧ (ptp false).twoStep = false ∧ captures (sServo { Servo.reset with st := .wait, held := some (5, 100, 0) }) 0 (ptp true) = true ∧
    Servo.reset.held = none ∧ (servoOf sUp 0).st = .disabled ∧ ({ sUp.tl with relock := true } : TlSt).relock = true ∧
    ({ sUp.time with stepPend := some 1 } : TimeSt).stepPend ≠ none ∧ sUp.tl.relock = false ∧ sUp.time.stepPend = none ∧
    (servoOf (sServo { Servo.reset with st := .acquire, steer := true }) 0).steer = true ∧
    getF (setF sUp F.TIME_CTRL_STEPEN 1) F.TIME_CTRL_STEPEN = 1 ∧ 4 * getF sUp (F.TIME_STEPTHR_NS.plus 0) < (4 * 2 ^ 40 : Int).natAbs ∧
    (servoOf (sServo { Servo.reset with st := .measure }) 0).st = .measure ∧ sUp.time.sa.steer = false ∧
    (servoOf (sServo { Servo.reset with st := .measure, sec := some (1, 0, 5, 400) }) 0).sec = some (1, 0, 5, 400) ∧ (0 : Int) < 400 := by
  decide +kernel

/-- The clock system in a state, and with reference 0 as given. -/
def sClk (x : ClkState) : State := { sUp with clk := { ClkSt.reset with st := x } }
def sRef (v : RefSt) : State := setRef sUp 0 v

theorem witness_ClockSystem : (({ ClkSt.reset with st := .splicePending, jump := true } : ClkSt).jump = true) ∧ (({ ClkSt.reset with target := 4 } : ClkSt).target = 4) ∧
    (sClk .locked).clk.sel = 7 ∧ ({ ClkSt.reset with sel := 3 } : ClkSt).sel < 4 ∧ (refOf sUp 0).st = .off ∧ (sClk .fault).clk.st = .fault ∧ sUp.clk.st ≠ .fault ∧
    (refOf (sRef { RefSt.reset with st := .failed }) 0).st = .failed ∧ (refOf (sRef { RefSt.reset with st := .failed }) 0).faultWin = false ∧
    (((refOf (sRef { RefSt.reset with st := .failed }) 0).devs.take 15).sum + (2000 - 0)).natAbs ≤ 2000 ∧
    (0 : Int).natAbs ≤ getF sUp F.CLK_TOL_PPB ∧ (refOf (sRef { RefSt.reset with st := .qualified, glitches := 8 }) 0).glitches = 8 ∧
    (refOf (sRef { RefSt.reset with st := .qualified, glitches := 7 }) 0).glitches = 7 ∧ (refOf sUp 5).st = .off ∧ 5 < 6 ∧
    (sClk .switching).clk.st = .switching ∧ ({ ClkSt.reset with target := 3 } : ClkSt).target < 4 ∧
    ({ ClkSt.reset with fast := some 100 } : ClkSt).fast = some 100 ∧ sUp.clk.fast = none ∧ (sClk .acquiring).clk.st = .acquiring ∧
    (sClk .locked).clk.st = .locked ∧ sUp.pwr.netref = true ∧ ({ sUp.pwr with netref := false } : PwrSt).netref = false := by decide +kernel

/-- Two voting references that agree on an offset of 30,000 ppb, before a fourth window beyond the tolerance. -/
def sVote (susp : Bool) : State :=
  let s := setR { sUp with clk := { ClkSt.reset with xoRun := 3, xoSuspect := susp } } Reg.CLK_PRIO 8
  let v := { RefSt.reset with st := .qualified }
  setRef (setRef s 0 v) 1 v

theorem witness_ClockSystem_vote : (∀ b ∈ [true, false], (prioTable (sVote b)).take 2 = [0, 1] ∧
      ([0, 1].all fun k => !(refOf (sVote b) k).faultWin && (refOf (sVote b) k).st != .off) = true ∧
      (getF (sVote b) F.CLK_TOL_PPB : Int) < median3 0 30000 30000 ∧ (sVote b).clk.xoRun = 3 ∧ (sVote b).clk.xoSuspect = b) ∧
    (refOf (sRef { RefSt.reset with st := .wtr, timer := 1 }) 0).timer ≤ 1 ∧ (refOf (sRef { RefSt.reset with st := .wtr, timer := 2 }) 0).timer = 2 ∧
    (refOf (sRef { RefSt.reset with st := .qualified, badRun := 3 }) 0).badRun = 3 ∧ getF sUp F.CLK_TOL_PPB < (30000 : Int).natAbs ∧
    getF (setF sUp F.CLK_QUAL_WTR 1) F.CLK_QUAL_WTR ≠ 0 ∧ (refOf (sRef { RefSt.reset with st := .qualifying, owed := true, timer := 1 }) 0).owed = true := by
  decide +kernel

/-- A port and a pulse-density group as given. -/
def sTdm (q : TdmPort) : State := { sUp with lio := { LioSt.reset with ports := LioSt.reset.ports.setIfInBounds 15 q } }
def sPdm (g : PdmGroup) (cfg : Nat) : State :=
  setR { sUp with lio := { LioSt.reset with groups := LioSt.reset.groups.setIfInBounds 3 { g with cfg := cfg } } } (Reg.PDM_GCFG + 12) cfg
def aGate : Gate := { ph := .opening, n := 0, prev := none, counted := false }
def aFrame (mute : Bool) : PdmFrame := { ch := List.replicate 8 zero16, mute := mute }
def sDec (d : DecCh) : State := { sUp with lio := { LioSt.reset with decs := LioSt.reset.decs.setIfInBounds 0 d } }

theorem witness_LocalAudio : (tdmOf (sTdm { TdmPort.off with shadow := some (5, none) }) 15).shadow = some (5, none) ∧
    TdmPort.off.shadow ≠ some (5, none) ∧ (tdmOf (sTdm { TdmPort.off with gin := [aGate], gout := [aGate] }) 15).gout[0]? = some aGate ∧
    gateLimit sUp { TdmPort.off with gin := [aGate], pstart := 0 } < aGate.n + 16 * tdmMul 0 ∧ 15 < 16 ∧
    (sDec { DecCh.off with told := false, left := 16 }).lio.decs[0]? = some { DecCh.off with told := false, left := 16 } ∧
    (sDec DecCh.off).lio.decs[0]? = some DecCh.off ∧ bit (getR (sPdm PdmGroup.idle 0) (Reg.PDM_GCFG + 12)) 31 = false ∧
    bit (getR (sPdm PdmGroup.idle 0xA0000000) (Reg.PDM_GCFG + 12)) 31 = true ∧ bit (getR (sPdm PdmGroup.idle 0xA0000000) (Reg.PDM_GCFG + 12)) 29 = true ∧
    (pdmOf (sPdm { PdmGroup.idle with spanPend := true } 0xA0000000) 3).spanPend = true ∧
    (pdmOf (sPdm { PdmGroup.idle with queue := [aFrame true] } 0xA0000000) 3).queue = [aFrame true] ∧
    (pdmOf (sPdm { PdmGroup.idle with queue := [aFrame false] } 0xA0000000) 3).queue = [aFrame false] ∧ PdmGroup.idle.spanIdle = false ∧
    sUp.lio.clear = false ∧ ({ LioSt.reset with clear := true } : LioSt).clear = true ∧ 3 < 4 ∧ (sClk .fault).clk.st = .fault ∧
    (pdmOf (sPdm PdmGroup.idle 0xA0000000) 3).cfg = 0xA0000000 ∧ tdmDrives (sTdm { TdmPort.off with pcfg := 2 ^ 21 }) { TdmPort.off with pcfg := 2 ^ 21 } = true ∧
    crosses { aGate with prev := some (-1) } 1 = true ∧ crosses { aGate with prev := some 1 } 1 = false ∧ aGate.n < 1 ∧ 0 ≤ aGate.n ∧
    powered sUp = true ∧ powered State.reset = false ∧ sUp.pair.driven = true ∧ ({ PairSt.reset with driven := false } : PairSt).driven = false := by
  decide +kernel

/-- A paired block, and clappers. -/
def sPaired (p : PairSt) : State := setF { sUp with pair := p } F.PAIR_CFG_EN 1
def clapper (act : Nat) : Bytes :=
  beBytes 2 0x434C ++ beBytes 1 1 ++ beBytes 1 act ++ zeroBytes 12 ++ beBytes 4 0 ++ beBytes 1 1 ++ zeroBytes 1 ++ beBytes 2 0x5124 ++ zeroBytes 32
def standby : State := sPaired { PairSt.reset with role := .standby, link := true }
def beacon (devid bseq : Nat) : Bytes :=
  let b := beBytes 2 0x4342 ++ beBytes 1 1 ++ zeroBytes 1 ++ zeroBytes 4 ++ beBytes 8 devid ++ beBytes 4 bseq ++ zeroBytes 88
  b ++ beBytes 4 (crc32c b)
def aPeer (group : Nat) : Peer :=
  { devid := 2, group := group, role := 0, staged := false, cutsched := false, aslate := 1, adigest := zeroBytes 16, sslate := 0,
    nextcut := 0, bseq := 0, mmActive := false, mmNext := false, age := 0 }
def sGroup (group : Nat) : State :=
  let c : ContSec := { group := group, mcast := 0, udpport := 0, ttl := 1, ports := 3 }
  { sUp with take := { TakeSt.reset with active := some { aTake with cont := c }, peers := [(7, aPeer group)] } }

theorem witness_ClappersAndBeacons : (let b := clapper 1 ++ zeroBytes 4; b.length = 60 ∧ crc32c (b.take 56) ≠ beAt b 56 4) ∧ powered standby = true ∧ powered State.reset = false ∧ paired sUp = false ∧ paired standby = true ∧ (linkBody standby 1 [1]).1 = none ∧ [1].length ≠ 60 ∧
    (∀ act ∈ [1, 9], linkBody standby 1 (pairMsg 1 (clapper act)) = (some (clapper act), standby) ∧ 
      clapperOk standby (clapper act) = (true, false)) ∧ bit (beAt (clapper 1) 3 1) 3 = false ∧ bit (beAt (clapper 9) 3 1) 3 = true ∧
    standby.pair.role = .standby ∧
    (let b := clapper 1 ++ beBytes 4 (crc32c (clapper 1)); b.length = 60 ∧ b.take 56 = clapper 1 ∧ crc32c (b.take 56) = beAt b 56 4) ∧
    (sPaired { PairSt.reset with role := .standby, pclap := true }).pair.pclap = true ∧ PairSt.reset.nclap = false ∧ PairSt.reset.pend = none ∧
    (sPaired { PairSt.reset with pclap := true, nclap := true }).pair.nclap = true ∧ sUp.take.active = none ∧
    (sGroup 0).take.active.map (·.cont.group) = some 0 ∧ getF (setF (sGroup 3) F.TAKE_BCNCTRL_ENABLE 1) F.TAKE_BCNCTRL_ENABLE = 1 ∧
    getF (setF (sGroup 3) F.TAKE_BCNCTRL_ENABLE 0) F.TAKE_BCNCTRL_ENABLE = 0 ∧ beaconOk [1] = false ∧ beaconOk (beacon 2 0) = true ∧
    beAt (beacon 1 0) 8 8 = sUp.hw.devid ∧ beAt (beacon 2 0) 8 8 ≠ sUp.hw.devid ∧ (beAt (beacon 2 0) 8 8, beAt (beacon 2 0) 16 4) ∉ sUp.take.seen ∧
    sUp.take.peers = [] ∧ (∀ y ∈ sUp.take.peers, y.1 ≠ 7) ∧ (sGroup 3).take.peers = [(7, aPeer 3)] ∧ ownGroup (sGroup 3) = 3 := by
  repeat' apply And.intro
  all_goals decide +kernel

/-- A message of a type whose body starts with the given bytes. -/
def msg (type : Nat) (x : Bytes) : Bytes := pairMsg type x

/-- A paired unit in a phase of its resynchronisation. -/
def sPhase (q : Option RsPhase) : State := sPaired { PairSt.reset with role := .resync, phase := q, link := true }
def saysRole (role : Nat) : PeerSeen := { role := role, actFrame := 0, digest := zeroBytes 16, devid := 2, frame := 0 }
def sPeer (r : Role) (peer : Nat) : State := sPaired { PairSt.reset with role := r, pclap := true, peerP := some (saysRole peer), link := true }
def switchBody : Bytes := beBytes 8 1000
def piece (item n : Nat) (d : Bytes) : Bytes := beBytes 1 item ++ zeroBytes 3 ++ beBytes 4 0 ++ beBytes 4 n ++ d

def digest9 : Bytes := beBytes 8 9 ++ beBytes 8 1
def ready03 : Bytes := [0, 0, 3, 1, 0, 0, 0, 0]
def sched9 : Bytes := zeroBytes 4 ++ beBytes 8 9 ++ zeroBytes 4

theorem witness_PairMessages : powered standby = true ∧ powered State.reset = false ∧ paired standby = true ∧ paired sUp = false ∧
    [1].length ≠ beAt [1] 2 2 + 8 ∧
    (∀ s ∈ [standby, sPaired { PairSt.reset with role := .standby, own := [(9, 1)], link := true }],
      linkBody s 2 (msg 2 digest9) = (some digest9, s)) ∧
    standby.pair.own = [] ∧ standby.pair.peer = [] ∧ linkBody (sPeer .active 2) 5 (msg 5 switchBody) = (some switchBody, sPeer .active 2) ∧
    peerRole (sPeer .active 2) = 2 ∧ peerRole (sPeer .standby 1) = 1 ∧ (sPeer .active 2).pair.pclap = true ∧
    (sPeer .active 2).tl.frame + getF (sPeer .active 2) F.PAIR_LEAD_FRAMES < beAt switchBody 0 8 ∧
    linkBody (sPhase none) 5 (msg 5 switchBody) = (some switchBody, sPhase none) ∧
    linkBody (sPhase (some .transfer)) 3 (msg 3 (piece 2 2 [1, 2])) = (some (piece 2 2 [1, 2]), sPhase (some .transfer)) ∧
    linkBody (sPhase (some .transfer)) 3 (msg 3 (piece 0 3 [1, 2])) = (some (piece 0 3 [1, 2]), sPhase (some .transfer)) ∧
    linkBody (sPhase none) 3 (msg 3 (piece 0 3 [1, 2])) = (some (piece 0 3 [1, 2]), sPhase none) ∧
    (∀ q ∈ [none, some RsPhase.align], linkBody (sPhase q) 4 (msg 4 (zeroBytes 24)) = (some (zeroBytes 24), sPhase q)) ∧
    (-64000 : Int).natAbs * 4 ≤ frameCycles sUp.tl.rate ∧
    linkBody (sPeer .active 2) 6 (msg 6 ready03) = (some ready03, sPeer .active 2) ∧ mayInstall (sPeer .active 2) = true ∧
    beAt ready03 0 2 < busCount sUp ∧ beAt ready03 3 1 = 1 ∧ (sPeer .active 2).ccp.frameQ.length < 256 ∧
    (sPeer .active 2).tl.frame < (sPeer .active 2).tl.frame + getF (sPeer .active 2) F.PAIR_LEAD_FRAMES ∧
    linkBody standby 7 (msg 7 sched9) = (some sched9, standby) ∧ standby.tl.frame < beAt sched9 4 8 ∧
    linkBody (sPhase none) 7 (msg 7 sched9) = (some sched9, sPhase none) ∧ (sPhase (some .match_)).pair.phase = some .match_ ∧
    ({ PairSt.reset with link := true } : PairSt).link = true ∧ PairSt.reset.link = false ∧ sUp.pwr.netref = true ∧
    getF (setF sUp F.PAIR_DIVMAX_FRAMES 0) F.PAIR_DIVMAX_FRAMES = 0 ∧ PairSt.reset.link = false ∧ standby.pair.link = true ∧
    (let b := (pairMsg 2 digest9).take 20 ++ zeroBytes 4
     b.length = beAt b 2 2 + 8 ∧ bodyLen (beAt b 0 1) (beAt b 2 2) = true ∧ crc32c (b.take (4 + beAt b 2 2)) ≠ beAt b (4 + beAt b 2 2) 4) ∧
    bodyLen 2 17 = false ∧ divLimit standby < divLimit standby + 1 ∧ (sPhase (some .align)).pair.phase = some .align ∧
    (sPhase (some .failed)).pair.phase = some .failed ∧ PairSt.reset.pend = none ∧
    ({ PairSt.reset with pend := some (.active, 2) } : PairSt).pend = some (.active, 2) := by
  repeat' apply And.intro
  all_goals decide +kernel

def aTx : TxEnt :=
  { dsta := 0xE0000001, dstb := 0, sport := 0, dport := 0, ssrc := 0, pt := 96, ch := 1, np := 6, csum := false, seqofs := 0,
    ttl := 1, dscp := 0, mapofs := 0 }

/-- An orphan that sees a running stream on the multicast group a transmit entry of its take sends to. -/
def orphan : State :=
  let x := { RxSt.new (entry 0) with st := .running, upA := true }
  { sPort upPort with pair := { PairSt.reset with role := .orphan }, strm := { StrmSt.reset with rx := [x] },
                      take := { TakeSt.reset with active := some { aTake with streams := { StreamSec.none with tx := [aTx] } } } }

theorem witness_PairMessages_evidence : powered orphan = true ∧ orphan.pair.pend ≠ some (.active, 2) ∧ orphan.pair.role = .orphan ∧ orphan.pair.pclap = false ∧ orphan.pair.nclap = false ∧
    (∃ l ∈ monitoredLegs orphan, (portOf orphan l.1).link = true ∧ ∃ r ∈ orphan.strm.rx, r.st = .running ∧ (if l.1 = 0 then r.upA else r.upB) = true) := by
  decide +kernel

/-- A burst that writes two bytes is granted. -/
def sOne : State := { sFab { FabSt.reset with current := [aBurst 0 (some [1, 2])] } with pending := [.burstGrant 1] }

theorem witness_EveryStepKeepsMemoryCanonical : ∃ t, MemoryCanonical State.reset ∧ step State.reset = .next t ∧
    ∃ u, MemoryCanonical sOne ∧ step sOne = .next u ∧ MemoryCanonical u ∧ u.mem ≠ [] := by
  refine ⟨_, by unfold MemoryCanonical; decide +kernel, rfl, _, by unfold MemoryCanonical; decide +kernel, rfl, ?_⟩
  unfold MemoryCanonical; decide +kernel

/-- A queue of 255 frame-addressed commands, 31 for firmware and 7 snapshots, and a register write that waits. -/
def sFull : State :=
  { sUp with pending := [.registerWrite Reg.PWR_TWARN 5 15], ccp := { CcpSt.reset with
    frameQ := List.replicate 255 (9, 0, .modify 0 0 0), fwQ := List.replicate 31 (ctx0, none, .identify),
    snaps := List.replicate 7 { frame := 9, ranges := [], ctx := ctx0 }, spiIn := [[]] } }

theorem witness_EveryStepKeepsQueuesBounded : ∃ t, QueuesBounded sFull ∧ step sFull = .next t ∧ QueuesBounded t ∧ t.ccp.pend.length = 1 := by
  refine ⟨_, by unfold QueuesBounded; decide +kernel, rfl, ?_, ?_⟩ <;> (try unfold QueuesBounded) <;> decide +kernel

/-- A block that counts an unlisted quad-SPI instruction. -/
def sCount : State := { sUp with pending := [.qspiUnknownInstruction] }

theorem witness_EveryStepKeepsRegsCanonical : ∃ t, RegsCanonical sCount ∧ step sCount = .next t ∧ RegsCanonical t ∧ t.regs ≠ sCount.regs := by
  refine ⟨_, by unfold RegsCanonical; decide +kernel, rfl, ?_, ?_⟩ <;> (try unfold RegsCanonical) <;> decide +kernel

/-! Worked examples of the spec, and one step of each family on a small state. Every expected value is the spec's. -/

/-- R243, R253, R265, "a frame-addressed write over PCIe": before and after the packet is taken. -/
def sHost : State :=
  let s := [(Reg.HOST_CMDHEAD, 0xFFE0), (Reg.HOST_CMDTAIL, 0xFFE0), (Reg.HOST_RPLTAIL, 0x400), (Reg.HOST_RPLHEAD, 0x400),
    (Reg.HOST_INTEN, 0xFFFFFFFF), (Reg.HOST_CAUSEEN, 0x3FFFFF)].foldl (fun s x => setR s x.1 x.2) sUp
  { s with tl := { TlSt.reset with frame := 3000000 }, ccp := { s.ccp with msixMask := 0 } }
def hostPacket : Bytes :=
  padTo 16 (commandPacket { hdr with flags := 2, seq := 0x31, f := 3000040 } (.write 0x60014 [0x1062]))

theorem test_host_example : (match exec (.hostCmdtailWrite hostPacket 0x10) sHost with
    | .next t => decide (hostPacket.length = 48 ∧ getR t Reg.HOST_CMDHEAD = 0x10 ∧ getR t Reg.HOST_CMDTAIL = 0x10 ∧ getR t Reg.HOST_RPLTAIL = 0x420 ∧
        getR t Reg.HOST_INTSTAT = 3 ∧ causes t = 0x200000 ∧ t.ccp.frameQ = [(3000040, 0, .write Reg.GEOM_FLOOR [0x1062] false)] ∧
        0 < Sparse.getN t.ccp.msixSent 21)
    | _ => false) = true := by decide +kernel

/-- R42 to R60, "one wavefront path": gain 0x28F863, delay 0x0178CE5E. -/
theorem test_wavefront_example :
    let g : GeoSec := { noGeo with speakers := List.replicate 40 noSpeaker ++
      [{ x := 3000, y := 8000, z := 3500, nx := 0, ny := -16384, nz := 0, present := true, trim := 4194304 }] }
    let c : CandSet := { members := 1, tris := 0, memberOfs := 0, triOfs := 0, law := 2, rolloff := 0, dref := 4000, dmin := 500, blur := 16, doff := 0 }
    let o : ObjIn := { pos := ⟨0, 12000, 1500⟩, size := 0, gain := 4194304, doppler := true, focus := false, far := false, mode := 2, cset := 0 }
    ((wavePath g c { fs := 48000, k := 0x23D337FA, floor := 0 } o o.pos (40, 0x8000)).bind (·.1)) =
      some { bus := 40, gain := 0x28F863, delay := 0x178CE5E } := by decide +kernel

/-- R80 to R95, "one sample of a moving path": 0x005B6810, gain 0x228000, bus sample 0x00314619. -/
theorem test_path_example :
    let tick : TickCtx := { start := 0, m := 16, slew := 4096, list := [], fades := [], slots0 := 0, slots1 := 0, area := 0, size := 0 }
    let e : PathEntry := { obj := 0, bus := 12, g1 := 0x280000, d1 := 3293184, hist := true, g0 := 0x200000, d0 := 3276800, far := none, jump := false }
    let x := fun (j : Int) => if j = -99 then (0x800000 : Int) else if j = -100 then 0x600000 else if j = -101 then 0x400000 else if j = -102 then 0x100000 else 0
    pathSample tick e (farrow x 0 0) 5 = (0x5B6810, 0x228000, 0) ∧ rhu 22 (0x5B6810 * 0x228000) = 0x314619 := by decide +kernel

/-- R330, R331, "a Sync through a chain": o = 1,000 quarter ns, I = 44,800, y = 428,800. -/
theorem test_sync_example :
    let t2 : Int := 1750000000 * 4000000000 + 1600015938
    let t1 : Int := 1750000000 * 4000000000 + 1600000000
    let s := setR sUp Reg.TIME_MPD 10000
    offsetOf s 0 t2 t1 80904192 = 1000 ∧ 12800 + rhu 18 (1000 * 0x800000) = 44800 ∧
    rhu 18 (1000 * 0x6000000) + 44800 = 428800 ∧ stampWords (1750000000 * 4000000000 + 1600015938) = [0x5F5E4E42, 1750000000, 0] := by decide +kernel

/-- R363, "a word clock fails over to 1PPS": m = 3, and each of the 16 sample periods is 24 cycles longer. -/
theorem test_splice_example : spliceFrames 1 (1000125 * 56448) = 3 ∧ spliceCycles 1 false (1000125 * 56448) = 384 := by decide +kernel

/-- R384 to R388, "aligning a falling-edge microphone". -/
theorem test_microphone_example : decSkew 3 64 = 12 ∧ decD 3 64 32 true = 18 ∧ decResid 16000 3 64 32 true = 3750 ∧ decSettle 64 32 = 36 := by
  decide +kernel

/-- R405, "a 14 GiB board": the parts of address 0x10_0123_4567 with two ranks. -/
theorem test_dram_example : dramChan 0x1001234567 = 1 ∧ dramSlot 0x1001234567 = 0 ∧ dramBank 0x1001234567 = 1 ∧ dramRank 2 0x1001234567 = 0 ∧
    dramRow 2 0x1001234567 = 83 ∧ dramUsable (setR sUp Reg.MEM_CFG 0x104) = 15032385536 := by decide +kernel

/-- R150: a sum beyond the largest lane value saturates, and wraps with W = 1. -/
theorem test_vadd_limits : ([false, true].map fun w =>
      match exec (.vadd { hd 2 with w := w } 2 1 3) (withCore { running with v := [(4, 0x7FFFFFFF), (8, 1)] }) with
      | .next t => (coreOf t 0).flight.map fun f => (f.left, f.reg, f.vals, f.sat)
      | _ => []) = [[(2, 3, [0x7FFFFFFF, 0, 0, 0], 1)], [(2, 3, [-0x80000000, 0, 0, 0], 0)]] := by decide +kernel

/-- R142: the branch target issues third. -/
theorem test_branch : (match exec (.br (hd 0) 100) sRun with | .next t => (coreOf t 0).brs.map (·.target) | _ => []) = [100] := by decide +kernel

/-- R16: the least frame at or after a PTP time. -/
theorem test_frame_of_ptp : frameOfPtp 1 1 0 = 3000 ∧ frameOfPtp 1 0 1 = 1 ∧ frameOfPtp 0 0 0 = 0 := by decide

/-- R14, R159: a divider request outside 2 to DIV_MAX is rejected and still stamps its commit. -/
theorem test_divider : (let t := commitWrite sUp Reg.KPU_CLK 7 false; (getF t F.KPU_CLK_DIVREJ, t.tl.commitSeq)) = (1, 1) := by decide +kernel

/-- R200, R202: the house mute is seen at the next output boundary even where it was released before. -/
theorem test_house_mute : (match exec .houseMuteAssert sUp with
    | .next t => (match exec .houseMuteRelease t with | .next u => decide ((decideMute u).xpt.mute = .muted) | _ => false)
    | _ => false) = true := by decide +kernel

/-- R3, "identifying a reduced part": a TK2512 reads its own SYS_ID, and a CONV1 register of it reads 0. -/
theorem test_reduced_part : (match exec (.registerRead 0x80010) { sUp with hw := sSmall.hw } with | .next t => t.rdata | _ => []) = zeroBytes 4 := by decide +kernel

/-- R217, R258: SHA-256 of "abc", the example of the standard those rules name. -/
theorem test_sha256 : sha256 [0x61, 0x62, 0x63] =
    [0xba, 0x78, 0x16, 0xbf, 0x8f, 0x01, 0xcf, 0xea, 0x41, 0x41, 0x40, 0xde, 0x5d, 0xae, 0x22, 0x23,
     0xb0, 0x03, 0x61, 0xa3, 0x96, 0x17, 0x7a, 0x9c, 0xb4, 0x10, 0xff, 0x61, 0xf2, 0x00, 0x15, 0xad] := by decide +kernel

end Sys2Proof.Tests
end

section
/-! SUPPORT. Bits of a word and fields of a register: what a read of a field gives after a write of it, or of another. -/

namespace Sys2Proof.Machine

open Sys2Proof

/-! Bits of a word. -/

/-- The lowest bit of a conjunction. -/
theorem and_mod_two (a m : Nat) : (a &&& m) % 2 = a % 2 * (m % 2) := by
  have h : (a &&& m) % 2 ^ 1 = a % 2 ^ 1 &&& m % 2 ^ 1 := Nat.and_mod_two_pow
  rw [Nat.pow_one] at h
  rcases Nat.mod_two_eq_zero_or_one a with ha | ha <;> rcases Nat.mod_two_eq_zero_or_one m with hm | hm <;> simp [h, ha, hm]

theorem testBit_andNot (a m i : Nat) : (andNot a m).testBit i = (a.testBit i && !m.testBit i) := by
  unfold andNot
  have key : ∀ a m : Nat, (a - (a &&& m)) % 2 = a % 2 * (1 - m % 2) ∧ (a - (a &&& m)) / 2 = a / 2 - (a / 2 &&& m / 2) := by
    intro a m
    have hle : a &&& m ≤ a := Nat.and_le_left
    have hpar := and_mod_two a m
    rw [← Nat.and_div_two]
    generalize a &&& m = c at hle hpar ⊢
    rcases Nat.mod_two_eq_zero_or_one a with ha | ha <;> rcases Nat.mod_two_eq_zero_or_one m with hm | hm <;>
      rw [ha, hm] at hpar ⊢ <;> omega
  induction i generalizing a m with
  | zero =>
    rw [Nat.testBit_zero, Nat.testBit_zero, Nat.testBit_zero, (key a m).1]
    rcases Nat.mod_two_eq_zero_or_one a with ha | ha <;> rcases Nat.mod_two_eq_zero_or_one m with hm | hm <;> simp [ha, hm]
  | succ i ih => rw [Nat.testBit_succ, (key a m).2, ih, Nat.testBit_succ, Nat.testBit_succ]

@[simp] theorem andNot_zero (a : Nat) : andNot a 0 = a := by simp [andNot]

theorem andNot_le (a m : Nat) : andNot a m ≤ a := Nat.sub_le a _

theorem testBit_bits (v hi lo i : Nat) : (bits v hi lo).testBit i = (decide (i < hi + 1 - lo) && v.testBit (lo + i)) := by
  simp [bits, Nat.testBit_mod_two_pow, Nat.testBit_shiftRight]

theorem bits_lt (v hi lo : Nat) : bits v hi lo < 2 ^ (hi + 1 - lo) := Nat.mod_lt _ (Nat.two_pow_pos _)

/-- A word with a field replaced, cut at the field: what lies above, the new value, what lies below. -/
theorem setBits_eq (w hi lo x : Nat) (h : lo ≤ hi) :
    setBits w hi lo x = 2 ^ (hi + 1) * (w / 2 ^ (hi + 1)) + (2 ^ lo * (x % 2 ^ (hi + 1 - lo)) + w % 2 ^ lo) := by
  have hp : 2 ^ (hi + 1) = 2 ^ lo * 2 ^ (hi + 1 - lo) := by rw [← Nat.pow_add]; congr 1; omega
  simp only [setBits, bits, Nat.shiftRight_eq_div_pow, hp, ← Nat.div_div_eq_div_mul]
  have h1 := Nat.div_add_mod w (2 ^ lo)
  have h2 := Nat.div_add_mod (w / 2 ^ lo) (2 ^ (hi + 1 - lo))
  generalize w / 2 ^ lo / 2 ^ (hi + 1 - lo) = c at h2 ⊢
  generalize w / 2 ^ lo % 2 ^ (hi + 1 - lo) = d at h2 ⊢
  generalize w % 2 ^ lo = e at h1 ⊢
  rw [← h2, Nat.mul_add, ← Nat.mul_assoc] at h1
  rw [Nat.mul_comm d, Nat.mul_comm (x % _)]
  omega

theorem testBit_setBits (w hi lo x i : Nat) (h : lo ≤ hi) :
    (setBits w hi lo x).testBit i = if lo ≤ i ∧ i ≤ hi then x.testBit (i - lo) else w.testBit i := by
  have hp : 2 ^ (hi + 1) = 2 ^ lo * 2 ^ (hi + 1 - lo) := by rw [← Nat.pow_add]; congr 1; omega
  have hlow : w % 2 ^ lo < 2 ^ lo := Nat.mod_lt _ (Nat.two_pow_pos lo)
  have hmid : 2 ^ lo * (x % 2 ^ (hi + 1 - lo)) + w % 2 ^ lo < 2 ^ (hi + 1) := by
    have hx : x % 2 ^ (hi + 1 - lo) + 1 ≤ 2 ^ (hi + 1 - lo) := Nat.mod_lt _ (Nat.two_pow_pos _)
    calc 2 ^ lo * (x % 2 ^ (hi + 1 - lo)) + w % 2 ^ lo
        < 2 ^ lo * (x % 2 ^ (hi + 1 - lo)) + 2 ^ lo := Nat.add_lt_add_left hlow _
      _ = 2 ^ lo * (x % 2 ^ (hi + 1 - lo) + 1) := (Nat.mul_succ _ _).symm
      _ ≤ 2 ^ (hi + 1) := hp ▸ Nat.mul_le_mul_left _ hx
  rw [setBits_eq w hi lo x h, Nat.testBit_two_pow_mul_add _ hmid, Nat.testBit_two_pow_mul_add _ hlow]
  simp only [Nat.testBit_mod_two_pow, Nat.testBit_div_two_pow]
  by_cases hhi : i < hi + 1
  · by_cases hlo : i < lo
    · simp [hhi, hlo, Nat.not_le_of_lt hlo]
    · have hin : lo ≤ i ∧ i ≤ hi := ⟨by omega, by omega⟩
      have hlt : i - lo < hi + 1 - lo := by omega
      simp [hhi, hlo, hin, hlt]
  · have hout : ¬ (lo ≤ i ∧ i ≤ hi) := by omega
    simp only [hhi, if_false, hout]
    congr 1
    omega

/-! Fields of a register. -/

/-- A bit of a field is a bit of its word. -/
theorem testBit_getF (s : State) (f : Fld) (i : Nat) :
    (getF s f).testBit i = (decide (i < f.hi + 1 - f.lo) && (getR s f.addr).testBit (f.lo + i)) := testBit_bits _ _ _ _

theorem getF_setR (s : State) (f : Fld) (v : Nat) (h : f.hi < 32) : getF (setR s f.addr v) f = bits v f.hi f.lo := by
  apply Nat.eq_of_testBit_eq
  intro i
  rw [testBit_getF, testBit_bits, getR_setR_same, Nat.testBit_mod_two_pow]
  by_cases hi : i < f.hi + 1 - f.lo
  · have : f.lo + i < 32 := by omega
    simp [this]
  · simp [hi]

/-- A field reads as it was written. -/
theorem getF_setF_same (s : State) (f : Fld) (v : Nat) (hw : f.lo ≤ f.hi) (h : f.hi < 32) :
    getF (setF s f v) f = v % 2 ^ (f.hi + 1 - f.lo) := by
  rw [setF, getF_setR s f _ h]
  apply Nat.eq_of_testBit_eq
  intro i
  rw [testBit_bits, testBit_setBits _ _ _ _ _ hw, Nat.testBit_mod_two_pow]
  by_cases hi : i < f.hi + 1 - f.lo
  · have : f.lo + i ≤ f.hi := by omega
    simp [this]
  · simp [hi]

/-- Two fields lie apart: in different words, or in different bits of one. -/
def Fld.apart (f g : Fld) : Bool := f.addr != g.addr || decide (f.hi < g.lo) || decide (g.hi < f.lo)

/-- Writing a field leaves the fields apart from it as they were. -/
theorem getF_setF_apart (s : State) (f g : Fld) (v : Nat) (hw : g.lo ≤ g.hi) (h : f.hi < 32) (ha : f.apart g = true) :
    getF (setF s g v) f = getF s f := by
  by_cases he : f.addr = g.addr
  · apply Nat.eq_of_testBit_eq
    intro i
    rw [setF, ← he, getF_setR s f _ h, testBit_bits, testBit_getF, testBit_setBits _ _ _ _ _ hw]
    by_cases hi : i < f.hi + 1 - f.lo
    · simp only [Fld.apart, he, bne_self_eq_false, Bool.false_or, Bool.or_eq_true, decide_eq_true_eq] at ha
      have hout : ¬ (g.lo ≤ f.lo + i ∧ f.lo + i ≤ g.hi) := by omega
      simp [hout]
    · simp [hi]
  · rw [setF, getF_setR_ne _ _ _ _ he]

end Sys2Proof.Machine
end

section
/-! SUPPORT. A committed word on a full part (R13, R14): its number, and that it does what its block makes of it. -/

namespace Sys2Proof.Machine

open Sys2Proof

/-! The operations a committed word is made of: what each leaves unchanged. -/

@[simp] theorem setEvent_frame (s : State) (a m : Nat) :
    (setEvent s a m).tl = s.tl ∧ (setEvent s a m).log = s.log ∧ (setEvent s a m).pwr = s.pwr ∧ (setEvent s a m).kpu = s.kpu ∧
      (setEvent s a m).hw = s.hw ∧ (setEvent s a m).mem = s.mem := ⟨rfl, rfl, rfl, rfl, rfl, rfl⟩

@[simp] theorem storeWord_frame (s : State) (a v : Nat) :
    (storeWord s a v).tl = s.tl ∧ (storeWord s a v).log = s.log ∧ (storeWord s a v).pwr = s.pwr ∧ (storeWord s a v).ccp = s.ccp ∧
      (storeWord s a v).hw = s.hw ∧ (storeWord s a v).mem = s.mem := ⟨rfl, rfl, rfl, rfl, rfl, rfl⟩

@[simp] theorem stamp_commitSeq (s : State) : (stamp s).tl.commitSeq = (s.tl.commitSeq + 1) % 2 ^ 32 := rfl

@[simp] theorem resend_regs (s : State) (n : Nat) : (resend s n).regs = s.regs := by
  unfold resend
  split
  · exact sendVector_regs s n
  · rfl

theorem getR_storeWord (s : State) (a v b : Nat) :
    getR (storeWord s a v) b = if b = a then (andNot (andNot (getR s a) (maskOf .rw a)) (v &&& maskOf .w1c a) ||| (v &&& maskOf .rw a)) % 2 ^ 32
      else getR s b := getR_setR _ _ _ _

/-- A word that only holds event bits: a 1 clears its bit, everything else stays (R8). -/
theorem getR_storeWord_events (s : State) (a v : Nat) (h : maskOf .rw a = 0) :
    getR (storeWord s a v) a = andNot (getR s a) (v &&& maskOf .w1c a) := by
  have hlt : andNot (getR s a) (v &&& maskOf .w1c a) < 2 ^ 32 := Nat.lt_of_le_of_lt (andNot_le _ _) (getR_lt s a)
  rw [getR_storeWord, if_pos rfl, h, andNot_zero, Nat.and_zero, Nat.or_zero, Nat.mod_eq_of_lt hlt]

/-! How a word commits on a full part. -/

theorem unitAbsent_full (s : State) (a : Nat) (full : s.hw.tk2512 = false) : unitAbsent s a = false := by
  simp [unitAbsent, full]

/-- A word that some field of its register takes, and that neither acknowledges nor enables the cause of its block. -/
def plainWord (a : Nat) : Bool :=
  maskOf .rw a + maskOf .w1c a + maskOf .wo a != 0 &&
    ((intStatAt (a / 0x10000)).all fun i => a != i && a != i + 4)

/-- On a full part, with no event new at this boundary, a plain word takes its number and acts as it is (R13, R14). -/
theorem commitWrite_plain (s : State) (a v : Nat) (fw : Bool) (full : s.hw.tk2512 = false) (quiet : s.ccp.fresh = [])
    (plain : plainWord a = true) : commitWrite s a v fw = commitWord (stamp s) a v fw := by
  simp only [plainWord, Bool.and_eq_true] at plain
  obtain ⟨hfield, hplace⟩ := plain
  have hwrit : writable s a = true := by simp [writable, unitAbsent_full s a full, hfield]
  have hkeep : keepFresh s a v = v := by simp [keepFresh, quiet, Sparse.getN, Sparse.get]
  simp only [commitWrite, hwrit, hkeep, Bool.not_true, Bool.false_eq_true, if_false]
  split
  next i hi =>
    simp only [hi, Option.all_some, Bool.and_eq_true, bne_iff_ne, ne_eq] at hplace
    rw [if_neg hplace.1, if_neg hplace.2]
  next => rfl

/-- What a word does on a full part is what its block makes of it. -/
theorem commitWord_full (s : State) (full : s.hw.tk2512 = false) (v : Nat) (fw : Bool) :
    commitWord s Reg.KPU_CLK v fw = kpuClkWrite s v ∧ commitWord s Reg.KPU_GATE v fw = storeWord s Reg.KPU_GATE v ∧
    commitWord s Reg.KPU_FAULT v fw = kpuFaultWrite s v ∧
    commitWord s Reg.XPT_CEILLIM v fw = ceilLimCommit s v ∧ commitWord s Reg.XPT_FMUTE v fw = fmuteClear s v ∧
    commitWord s Reg.XPT_FMUTESET v fw = (if bit v 0 then fmuteSet s 2 else s) ∧
    commitWord s Reg.XPT_MCTRL v fw = (if bit v 31 then holdClear s else s) ∧
    commitWord s Reg.DISP_CANCEL v fw = commitDisp s Reg.DISP_CANCEL v ∧
    commitWord s Reg.TIME_CTRL v fw = commitTime s Reg.TIME_CTRL v ∧
    commitWord s Reg.CLK_CTRL v fw = commitClk s Reg.CLK_CTRL v ∧
    commitWord s Reg.PWR_DARK v fw = (if bit v 31 then darkCommit (storeWord s Reg.PWR_DARK v) else storeWord s Reg.PWR_DARK v) ∧
    commitWord s Reg.LOG_CTRL v fw = logCtrlCommit s v ∧
    commitWord s Reg.TAKE_INTSTAT v fw = storeWord s Reg.TAKE_INTSTAT v ∧
    (∀ a < 0x10000, commitWord s a v fw = commitSys s a v fw) := by
  have h : ∀ a, unitAbsent s a = false := fun a => unitAbsent_full s a full
  simp only [commitWord, h]
  refine ⟨rfl, rfl, rfl, rfl, rfl, rfl, rfl, rfl, rfl, rfl, rfl, rfl, rfl, fun a ha => ?_⟩
  rw [Nat.div_eq_of_lt ha]
  rfl

end Sys2Proof.Machine
end

section
/-! SUPPORT. The clock system and the servos: their transitions leave the timeline and the suspicion of the crystal alone. -/

namespace Sys2Proof.Machine

open Sys2Proof

/-! No selection, switch, holdover or servo transition moves the timeline or touches the XO suspicion, which a measurement window
raises (R354) and CLK_CTRL clears (R370). -/

@[simp] theorem clkState_keeps (s : State) (st : ClkState) :
    (clkState s st).tl = s.tl ∧ (clkState s st).clk.xoSuspect = s.clk.xoSuspect := by
  unfold clkState
  split <;> simp

@[simp] theorem setServo_xoSuspect (s : State) (p : Nat) (v : Servo) : (setServo s p v).clk.xoSuspect = s.clk.xoSuspect := by simp

@[simp] theorem servoState_keeps (s : State) (p : Nat) (st : ServoState) :
    (servoState s p st).tl = s.tl ∧ (servoState s p st).clk.xoSuspect = s.clk.xoSuspect := by
  unfold servoState
  dsimp only
  split <;> simp

@[simp] theorem noteRequest_keeps (s : State) :
    (noteRequest s).tl = s.tl ∧ (noteRequest s).clk.xoSuspect = s.clk.xoSuspect := ⟨rfl, rfl⟩

/-- The steering of the servo of one port follows the selected reference: what `updateSteer` does for each port. -/
def steerPort (ycur : Int) (s : State) (p : Nat) : State :=
  let v := servoOf s p
  let want := s.clk.sel == 4 + p
  if want = v.steer then s
  else if want then
    let i := servoClamp s p (ycur + v.fdiff)
    let s := setServo s p { v with steer := true, pt := 0, i := i, y := i }
    if v.st = .measure then servoState s p .acquire else s
  else
    let s := setServo s p { v with steer := false }
    if v.st = .acquire ∨ v.st = .locked then servoState s p .measure else s

@[simp] theorem steerPort_keeps (ycur : Int) (s : State) (p : Nat) :
    (steerPort ycur s p).tl = s.tl ∧ (steerPort ycur s p).clk.xoSuspect = s.clk.xoSuspect := by
  unfold steerPort
  dsimp only
  repeat' split
  all_goals simp

theorem updateSteer_eq (s : State) :
    updateSteer s =
      let ycur : Int := if s.time.sa.steer then s.time.sa.y else if s.time.sb.steer then s.time.sb.y else 0
      noteRequest (steerPort ycur (steerPort ycur s 0) 1) := rfl

@[simp] theorem updateSteer_keeps (s : State) :
    (updateSteer s).tl = s.tl ∧ (updateSteer s).clk.xoSuspect = s.clk.xoSuspect := by
  simp [updateSteer_eq]

@[simp] theorem startSwitch_keeps (s : State) (r : Nat) :
    (startSwitch s r).tl = s.tl ∧ (startSwitch s r).clk.xoSuspect = s.clk.xoSuspect := by
  simp [startSwitch]

@[simp] theorem enterHoldover_keeps (s : State) :
    (enterHoldover s).tl = s.tl ∧ (enterHoldover s).clk.xoSuspect = s.clk.xoSuspect := by
  unfold enterHoldover
  dsimp only
  repeat' split
  all_goals simp

@[simp] theorem abandonSwitch_keeps (s : State) :
    (abandonSwitch s).tl = s.tl ∧ (abandonSwitch s).clk.xoSuspect = s.clk.xoSuspect := by
  unfold abandonSwitch
  split <;> simp

@[simp] theorem applySelection_keeps (s : State) :
    (applySelection s).tl = s.tl ∧ (applySelection s).clk.xoSuspect = s.clk.xoSuspect := by
  unfold applySelection
  dsimp only
  repeat' split
  all_goals simp

@[simp] theorem afterFail_keeps (s : State) (r : Nat) :
    (afterFail s r).tl = s.tl ∧ (afterFail s r).clk.xoSuspect = s.clk.xoSuspect := by
  unfold afterFail
  repeat' split
  all_goals simp

@[simp] theorem setRef_xoSuspect (s : State) (r : Nat) (v : RefSt) : (setRef s r v).clk.xoSuspect = s.clk.xoSuspect := rfl

@[simp] theorem refInstall_keeps (s : State) (r : Nat) (on : Bool) :
    (refInstall s r on).tl = s.tl ∧ (refInstall s r on).clk.xoSuspect = s.clk.xoSuspect := by
  simp [refInstall, refSet]

@[simp] theorem refFail_keeps (s : State) (r cause : Nat) :
    (refFail s r cause).tl = s.tl ∧ (refFail s r cause).clk.xoSuspect = s.clk.xoSuspect := by
  unfold refFail
  dsimp only
  split <;> simp

@[simp] theorem enterAcquiring_keeps (s : State) :
    (enterAcquiring s).tl = s.tl ∧ (enterAcquiring s).clk.xoSuspect = s.clk.xoSuspect := by
  simp [enterAcquiring]

@[simp] theorem servoTo_keeps (s : State) (p : Nat) (st : ServoState) :
    (servoTo s p st).tl = s.tl ∧ (servoTo s p st).clk.xoSuspect = s.clk.xoSuspect := by
  unfold servoTo dpllLock dpllLockLoss
  dsimp only
  repeat' split
  all_goals simp

/-- The servo enable of one port takes effect: what `applyServoEn` does for each port. -/
def enablePort (s : State) (p : Nat) : State :=
  let on := bit (getR s Reg.TIME_CTRL) p && !(p == 1 && chainMode s)
  let v := servoOf s p
  if on && v.st == .disabled then refInstall (servoTo s p .wait) (4 + p) true
  else if !on && v.st != .disabled then refInstall (servoTo s p .disabled) (4 + p) false
  else s

@[simp] theorem enablePort_keeps (s : State) (p : Nat) :
    (enablePort s p).tl = s.tl ∧ (enablePort s p).clk.xoSuspect = s.clk.xoSuspect := by
  unfold enablePort
  dsimp only
  repeat' split
  all_goals simp

theorem applyServoEn_eq (s : State) : applyServoEn s = enablePort (enablePort s 0) 1 := rfl

@[simp] theorem applyServoEn_keeps (s : State) :
    (applyServoEn s).tl = s.tl ∧ (applyServoEn s).clk.xoSuspect = s.clk.xoSuspect := by
  simp [applyServoEn_eq]

@[simp] theorem enterJump_keeps (s : State) :
    (enterJump s).tl = s.tl ∧ (enterJump s).clk.xoSuspect = s.clk.xoSuspect := by
  unfold enterJump
  split <;> simp

end Sys2Proof.Machine
end

section
/-! SUPPORT. What the words of KPU, XPT, LOG, SYS, PWR, TIME and CLK do as they commit. -/

namespace Sys2Proof.Machine

open Sys2Proof

/-! KPU_FAULT and KPU_CLK. -/

/-- A fold over the first n numbers in which one number alone does something. -/
theorem foldl_range_only {α : Type} (f : α → Nat → α) (k n : Nat) (hk : k < n) (h : ∀ a j, j ≠ k → f a j = a) (a : α) :
    (List.range n).foldl f a = f a k := by
  induction n with
  | zero => omega
  | succ n ih =>
    rw [List.range_succ, List.foldl_append, List.foldl_cons, List.foldl_nil]
    by_cases hn : k = n
    · subst hn
      congr 1
      exact List.foldlRecOn (List.range k) f (motive := fun b => b = a) rfl
        fun b hb j hj => by rw [h b j (Nat.ne_of_lt (List.mem_range.mp hj)), hb]
    · rw [ih (by omega), h _ n fun e => hn e.symm]

/-- What a write of KPU_FAULT does to core k: FAULT returns to IDLE with registers cleared, DEBUG resumes (R162, R164). -/
def kpuFaultCore (v : Nat) (s : State) (k : Nat) : State :=
  let c := coreOf s k
  if !bit v k then s
  else if c.state = .fault then
    let s := sourceReset (setR s Reg.KPU_FAULT (andNot (getR s Reg.KPU_FAULT) (2 ^ k))) k
    setCore s k { Core.cleared with busy := c.busy }
  else if c.state = .debug then setCore s k { c with state := if c.hm then .handler else .run }
  else s

/-- A KPU_FAULT word with one bit set acts on its core alone. -/
theorem kpuFaultWrite_one (s : State) (k : Nat) (hk : k < 32) : kpuFaultWrite s (2 ^ k) = kpuFaultCore (2 ^ k) s k := by
  refine foldl_range_only (kpuFaultCore (2 ^ k)) k 32 hk (fun a j hj => ?_) s
  have hbit : bit (2 ^ k) j = false := by simp [bit, hj.symm]
  simp [kpuFaultCore, hbit]

theorem kpuFaultCore_fault (s : State) (k : Nat) (hk : k < 32) (hf : (coreOf s k).state = .fault) :
    coreOf (kpuFaultCore (2 ^ k) s k) k = { Core.cleared with busy := (coreOf s k).busy } := by
  have hbit : bit (2 ^ k) k = true := by simp [bit]
  simp [kpuFaultCore, hbit, hf, hk]

theorem kpuFaultCore_debug (s : State) (k : Nat) (hk : k < 32) (hd : (coreOf s k).state = .debug) (hm : (coreOf s k).hm = false) :
    coreOf (kpuFaultCore (2 ^ k) s k) k = { coreOf s k with state := .run } := by
  have hbit : bit (2 ^ k) k = true := by simp [bit]
  simp [kpuFaultCore, hbit, hd, hm, hk]

/-- A bit above every bit of a small word is clear. -/
theorem bit_of_lt (v i : Nat) (h : v < 2 ^ i) : bit v i = false := Nat.testBit_lt_two_pow h

@[simp] theorem kpuClkWrite_tl (s : State) (v : Nat) : (kpuClkWrite s v).tl = s.tl := by
  unfold kpuClkWrite
  dsimp only
  repeat' split
  all_goals simp

/-- A divider within 2 to DIV_MAX is taken (R159). -/
theorem kpuClkWrite_taken (s : State) (v : Nat) (h2 : 2 ≤ v) (h4 : v ≤ 4) (hmax : v ≤ getF s F.KPU_CLK_DIV_MAX)
    (cool : s.pwr.trip = false) :
    getF (kpuClkWrite s v) F.KPU_CLK_DIV_REQ = v ∧ getF (kpuClkWrite s v) F.KPU_CLK_DIV_CUR = v := by
  have hrej : bit v 16 = false := bit_of_lt v 16 (by omega)
  have hmod : v % 8 = v := Nat.mod_eq_of_lt (by omega)
  have hin : ¬ (v < 2 ∨ v > 4 ∨ v > getF s F.KPU_CLK_DIV_MAX) := by omega
  simp only [kpuClkWrite, hrej, hmod, Bool.false_eq_true, if_false, hin, cool]
  rw [getF_setF_apart _ _ _ _ (by decide) (by decide) (by decide), getF_setF_same _ _ _ (by decide) (by decide),
    getF_setF_same _ _ _ (by decide) (by decide)]
  exact ⟨hmod, hmod⟩

/-- Setting an event of a word sets its bits and no other. -/
theorem testBit_getF_setEvent (s : State) (f : Fld) (m i : Nat) (h : f.hi < 32) :
    (getF (setEvent s f.addr m) f).testBit i =
      ((getF s f).testBit i || (decide (i < f.hi + 1 - f.lo) && m.testBit (f.lo + i))) := by
  rw [getF_congr _ _ f (setEvent_regs s f.addr m), getF_setR s f _ h, testBit_bits, testBit_getF, Nat.testBit_or, Bool.and_or_distrib_left]

theorem getF_raise_ne (s : State) (n b a : Nat) (f : Fld) (h : intStatAt n = some a) (hne : f.addr ≠ a) :
    getF (raise s n b) f = getF s f := by
  unfold getF
  rw [getR_raise s n b a _ h, if_neg hne]

/-- A single bit of a word that the hardware sets reads 1 in its field. -/
theorem getF_setEvent_flag (s : State) (f : Fld) (h : f.hi < 32) (one : f.hi = f.lo) :
    getF (setEvent s f.addr (2 ^ f.lo)) f = 1 := by
  have hset : (getF (setEvent s f.addr (2 ^ f.lo)) f).testBit 0 = true := by
    rw [testBit_getF_setEvent s f _ 0 h]
    simp [one]
  have hlt : getF (setEvent s f.addr (2 ^ f.lo)) f < 2 ^ (f.hi + 1 - f.lo) := bits_lt _ _ _
  have hwidth : f.hi + 1 - f.lo = 1 := by omega
  rw [hwidth] at hlt
  simp only [Nat.testBit_zero, decide_eq_true_eq] at hset
  omega

/-- A field away from the bit that is set reads as before. -/
theorem getF_setEvent_other (s : State) (f : Fld) (b : Nat) (h : f.hi < 32) (away : b < f.lo ∨ f.hi < b) :
    getF (setEvent s f.addr (2 ^ b)) f = getF s f := by
  apply Nat.eq_of_testBit_eq
  intro i
  rw [testBit_getF_setEvent s f _ i h]
  by_cases hi : i < f.hi + 1 - f.lo
  · have hne : ¬ b = f.lo + i := by omega
    simp [hne]
  · simp [hi]

/-- A divider outside 2 to DIV_MAX is rejected: DIVREJ is set and the divider stays (R159). -/
theorem kpuClkWrite_rejected (s : State) (v : Nat) (hv : v < 8) (hout : v < 2 ∨ 4 < v ∨ getF s F.KPU_CLK_DIV_MAX < v) :
    getF (kpuClkWrite s v) F.KPU_CLK_DIVREJ = 1 ∧ getF (kpuClkWrite s v) F.KPU_CLK_DIV_CUR = getF s F.KPU_CLK_DIV_CUR := by
  have hrej : bit v 16 = false := bit_of_lt v 16 (by omega)
  have hmod : v % 8 = v := Nat.mod_eq_of_lt hv
  have hbad : v < 2 ∨ v > 4 ∨ v > getF s F.KPU_CLK_DIV_MAX := hout
  have hkeep : ∀ f : Fld, f.addr = Reg.KPU_CLK → getF (kpuClkWrite s v) f = getF (setEvent s Reg.KPU_CLK (2 ^ 16)) f := by
    intro f hf
    simp only [kpuClkWrite, hrej, hmod, Bool.false_eq_true, if_false, hbad, if_true]
    rw [getF_raise_ne _ 9 0 Reg.KPU_INTSTAT f rfl (by rw [hf]; decide)]
    exact getF_setR_ne _ f _ _ (by rw [hf]; decide)
  rw [hkeep _ rfl, hkeep _ rfl]
  exact ⟨getF_setEvent_flag s F.KPU_CLK_DIVREJ (by decide) rfl,
    getF_setEvent_other s F.KPU_CLK_DIV_CUR 16 (by decide) (by decide)⟩

/-! The words of the crosspoint block. -/

@[simp] theorem ceilLimCommit_tl (s : State) (v : Nat) : (ceilLimCommit s v).tl = s.tl := by
  unfold ceilLimCommit
  split <;> simp

@[simp] theorem fmuteClear_tl (s : State) (v : Nat) : (fmuteClear s v).tl = s.tl := rfl

/-- XPT_CEILLIM takes its first value and no later one (R199). -/
theorem ceilLimCommit_first (s : State) (v : Nat) (hopen : getF s F.XPT_CEILLIM_LOCKED = 0) (hv : v < 2 ^ 25) :
    getR (ceilLimCommit s v) Reg.XPT_CEILLIM = 2 ^ 31 + v := by
  have hlocked : ¬ getF s F.XPT_CEILLIM_LOCKED = 1 := by omega
  rw [ceilLimCommit, if_neg hlocked, getR_setR_same, Nat.mod_eq_of_lt hv, Nat.mod_eq_of_lt (by omega)]

theorem ceilLimCommit_locked (s : State) (v : Nat) (hlocked : getF s F.XPT_CEILLIM_LOCKED = 1) :
    getR (ceilLimCommit s v) Reg.XPT_CEILLIM = getR s Reg.XPT_CEILLIM := by
  rw [ceilLimCommit, if_pos hlocked]

/-- A fault mute cause that is set stays latched (R201). -/
theorem fmuteSet_latches (s : State) (b : Nat) (hb : b < 3) : bit (getF (fmuteSet s b) F.XPT_FMUTE_CAUSE) b = true := by
  unfold fmuteSet
  dsimp only
  split
  next hset => exact hset
  next =>
    rw [getF_congr _ _ _ (logEv_regs _ _ _), getF_raise_ne _ 11 3 Reg.XPT_INTSTAT _ rfl (by decide)]
    have hkeep : ∀ t : State, getF (addCtr t Reg.XPT_FMUTECNT 1) F.XPT_FMUTE_CAUSE = getF t F.XPT_FMUTE_CAUSE :=
      fun t => getF_setR_ne t _ _ _ (by decide)
    rw [hkeep, bit]
    refine (testBit_getF_setEvent s F.XPT_FMUTE_CAUSE _ b (by decide)).trans ?_
    simp [F.XPT_FMUTE_CAUSE, hb]

/-- The causes left after a clear: those not named, and those that still hold (R201). -/
theorem testBit_fmuteClear (s : State) (v i : Nat) (hi : i < 3) :
    bit (getF (fmuteClear s v) F.XPT_FMUTE_CAUSE) i =
      (bit (getF s F.XPT_FMUTE_CAUSE) i && !(bit v i && !bit (b2n (s.pwr.uvRails != 0) + 2 * b2n s.pwr.trip) i)) := by
  have h8 : v % 8 = v % 2 ^ 3 := rfl
  unfold fmuteClear bit
  dsimp only
  rw [getF_setF_same _ _ _ (by decide) (by decide), Nat.testBit_mod_two_pow, testBit_andNot, testBit_andNot, h8, Nat.testBit_mod_two_pow]
  simp [F.XPT_FMUTE_CAUSE, hi]

/-- Undervoltage that goes on keeps its cause (R201). -/
theorem fmuteClear_undervoltage (s : State) (v : Nat) (huv : s.pwr.uvRails ≠ 0) :
    bit (getF (fmuteClear s v) F.XPT_FMUTE_CAUSE) 0 = bit (getF s F.XPT_FMUTE_CAUSE) 0 := by
  have hhold : bit (b2n (s.pwr.uvRails != 0) + 2 * b2n s.pwr.trip) 0 = true := by
    simp [bit, b2n, huv, Nat.testBit_zero]
    split <;> rfl
  rw [testBit_fmuteClear s v 0 (by decide), hhold]
  simp

/-- With no cause left every latch clears (R201). -/
theorem fmuteClear_all (s : State) (huv : s.pwr.uvRails = 0) (cool : s.pwr.trip = false) :
    getF (fmuteClear s 7) F.XPT_FMUTE_CAUSE = 0 := by
  apply Nat.eq_of_testBit_eq
  intro i
  rw [Nat.zero_testBit]
  by_cases hi : i < 3
  · have hseven : bit 7 i = true := by interval_cases i <;> rfl
    refine (testBit_fmuteClear s 7 i hi).trans ?_
    simp [huv, cool, b2n, hseven]
    simp [bit]
  · rw [testBit_getF]
    simp [F.XPT_FMUTE_CAUSE, hi]

/-! LOG_CTRL: START (R481). -/

/-- The recorder runs and holds no event back. -/
def LogRuns (l : LogSt) : Prop := l.started = true ∧ l.held = []

theorem setRun_runs (l : LogSt) (code : Nat) (run : Option Nat) (seq : Nat) (h : LogRuns l) : LogRuns (setRun l code run seq) := by
  cases run <;> exact h

theorem dropRun_runs (l : LogSt) (code : Nat) (run : Option Nat) (h : LogRuns l) : LogRuns (dropRun l code run) := by
  cases run with
  | none => exact h
  | some k => exact ⟨h.1, by simp [dropRun, h.2]⟩

@[simp] theorem slotWritten_log (s : State) (i n : Nat) : (slotWritten s i n).log = s.log := by
  unfold slotWritten whole
  dsimp only
  split <;> rfl

/-- Writing a record, or losing one, leaves the recorder running. -/
theorem writeRec_runs (s : State) (r : LogRec) (run : Option Nat) (h : LogRuns s.log) : LogRuns (writeRec s r run).log := by
  unfold writeRec
  dsimp only
  repeat' split
  all_goals simp only [raise_log, slotWritten_log]
  · exact setRun_runs _ _ _ _ h
  · exact dropRun_runs _ _ _ h
  · exact dropRun_runs _ _ _ h
  · exact dropRun_runs _ _ _ h
  · exact setRun_runs _ _ _ _ h

theorem doClear_runs (s : State) (cseq : Nat) (h : LogRuns s.log) : LogRuns (doClear s cseq).log := writeRec_runs _ _ _ h

/-- After START the recorder runs, and what was held has been written (R481). -/
theorem logStart_runs (s : State) (idle : s.log.started = false) : LogRuns (logStart s).log := by
  have hwrite : ∀ (t : State) (r : LogRec × Option Nat), LogRuns t.log → LogRuns (writeRec t r.1 r.2).log :=
    fun t r => writeRec_runs t r.1 r.2
  simp only [logStart, idle, Bool.false_eq_true, if_false]
  refine foldl_invariant (fun t : State => LogRuns t.log) _ hwrite _ _ ?_
  refine foldl_invariant (fun t : State => LogRuns t.log) _ doClear_runs _ _ ?_
  exact foldl_invariant (fun t : State => LogRuns t.log) _ hwrite _ _ ⟨rfl, rfl⟩

theorem pushEvent_runs (s : State) (e : LogEvent) (h : LogRuns s.log) : LogRuns (pushEvent s e).log := by
  unfold pushEvent
  split <;> exact h

theorem logCtrlCommit_start (s : State) (idle : s.log.started = false) : LogRuns (logCtrlCommit s 1).log := by
  have h1 : bit 1 1 = false := rfl
  have h0 : bit 1 0 = true := rfl
  simp only [logCtrlCommit, h1, h0, idle, Bool.false_eq_true, Bool.not_true, if_false, or_self]
  split
  · exact logStart_runs s idle
  · exact pushEvent_runs _ _ (logStart_runs s idle)

/-! SYS_BOOTGO and the keys (R496, R498, R499). -/

/-- An image that starts runs under the watchdog's 2,000 ms (R495, R498). -/
theorem startFirmware_runs (s : State) (img : Nat) (fallback : Bool) :
    (startFirmware s img fallback).pwr.boot = .running ∧ (startFirmware s img fallback).fw.running = img ∧
      getF (startFirmware s img fallback) F.PWR_WDT_MS = 2000 :=
  ⟨rfl, rfl, getF_setF_same (setF (setFB (rootKey s img) F.SYS_BOOT_IMAGE (img == 1)) F.SYS_BOOT_FALLBACK (b2n fallback)) F.PWR_WDT_MS 2000
    (by decide) (by decide)⟩

/-- The ROM's test of an image looks at the fuses only. -/
theorem imageValid_congr (s t : State) (b : Bytes) (h : s.hw = t.hw) : imageValid s b = imageValid t b := by
  unfold imageValid
  rw [h]

theorem bootGo_valid (s : State) (hboot : s.pwr.boot = .pcieWait) (hvalid : imageValid s s.pwr.bootImage = true) :
    bootGo s = startFirmware s 2 false := by
  simp [bootGo, hboot, hvalid]

/-- Where the ROM waits for the recovery UART, a valid image starts (R496, R498). -/
theorem uartBoot_valid (s : State) (image : Bytes) (hboot : s.pwr.boot = .uart) (hvalid : imageValid s image = true) :
    uartBoot s image = startFirmware (setPwr s { s.pwr with bootImage := image }) 2 false := by
  have ht : imageValid (setPwr s { s.pwr with bootImage := image }) image = true := hvalid
  exact if_pos ⟨hboot, ht⟩

theorem uartBoot_refused (s : State) (image : Bytes) (h : s.pwr.boot ≠ .uart ∨ imageValid s image = false) : uartBoot s image = s := by
  have ht : imageValid (setPwr s { s.pwr with bootImage := image }) image = imageValid s image := imageValid_congr _ _ _ rfl
  have hno : ¬ (s.pwr.boot = .uart ∧ imageValid s image = true) := by
    rintro ⟨hb, hv⟩
    rcases h with h | h
    · exact h hb
    · rw [h] at hv
      exact Bool.false_ne_true hv
  simp only [uartBoot, ht]
  rw [if_neg hno]

/-- Word 0 of control key k, written by the control processor (R499). -/
theorem commitSys_ckey (s : State) (k v : Nat) (hk : k < 4) :
    (commitSys s (Reg.SYS_CKEY + 32 * k) v true).pwr.ckeys = s.pwr.ckeys.setIfInBounds k (patchB (ckey s k) 0 (beBytes 4 v)) := by
  have hgo : ¬ Reg.SYS_CKEY + 32 * k = Reg.SYS_BOOTGO := by simp only [Reg.SYS_CKEY, Reg.SYS_BOOTGO]; omega
  have hin : Reg.SYS_CKEY ≤ Reg.SYS_CKEY + 32 * k ∧ Reg.SYS_CKEY + 32 * k < Reg.SYS_CKEY + 128 := by omega
  have hofs : Reg.SYS_CKEY + 32 * k - Reg.SYS_CKEY = 32 * k := by omega
  simp only [commitSys, if_neg hgo, if_pos hin, hofs]
  simp

/-- The keys are write-only to anyone but the control processor (R499). -/
theorem commitSys_ckey_host (s : State) (k v : Nat) (hk : k < 4) : commitSys s (Reg.SYS_CKEY + 32 * k) v false = s := by
  have hgo : ¬ Reg.SYS_CKEY + 32 * k = Reg.SYS_BOOTGO := by simp only [Reg.SYS_CKEY, Reg.SYS_BOOTGO]; omega
  have hin : Reg.SYS_CKEY ≤ Reg.SYS_CKEY + 32 * k ∧ Reg.SYS_CKEY + 32 * k < Reg.SYS_CKEY + 128 := by omega
  simp only [commitSys, if_neg hgo, if_pos hin]
  rfl

/-! PWR_DARK (R507). -/

/-- The word PWR_DARK itself has no part in whether the Dark state is refused. -/
theorem darkRefused_storeDark (s : State) (v : Nat) : darkRefused (storeWord s Reg.PWR_DARK v) = darkRefused s := by
  have hpaired : paired (storeWord s Reg.PWR_DARK v) = paired s := by
    unfold paired storeWord
    rw [getF_setR_ne _ _ _ _ (by decide)]
  unfold darkRefused
  rw [hpaired]
  rfl

/-- The entry that is accepted: the output frame of this boundary is the last (R507). -/
theorem darkCommit_accepted (s : State) (h : darkRefused s = false) : (darkCommit s).pwr.seq = .darkening := by
  simp [darkCommit, h]

/-- The entry that is refused shows DARKREJ and changes nothing of the power state (R507). -/
theorem darkCommit_refused (s : State) (h : darkRefused s = true) :
    (darkCommit s).pwr.seq = s.pwr.seq ∧ getF (darkCommit s) F.PWR_DARK_DARKREJ = 1 := by
  rw [darkCommit, if_pos h]
  exact ⟨rfl, getF_setEvent_flag s F.PWR_DARK_DARKREJ (by decide) rfl⟩

/-! TIME_CTRL and CLK_CTRL. -/

theorem commitTime_ctrl_tl (s : State) (v : Nat) : (commitTime s Reg.TIME_CTRL v).tl = s.tl := by
  simp only [commitTime, if_true]
  split <;> simp

/-- XOCLR clears the suspicion (R370). -/
theorem commitClk_xoclr (s : State) (v : Nat) (h : bit v 0 = true) : (commitClk s Reg.CLK_CTRL v).clk.xoSuspect = false := by
  simp [commitClk, h]

end Sys2Proof.Machine
end

section
/-! PROOF. Register writes that wait for the boundary (O36). -/

namespace Sys2Proof.Machine

open Sys2Proof

/-! O36: what joins the next boundary. -/

theorem exec_ckeyWrite (s : State) (k w v : Nat) (hk : k < 4) (hw : w < 8) :
    exec (.ckeyWrite k w v) s = .next (waits s (Reg.SYS_CKEY + 32 * k + 4 * w) v true) := by
  show Host.Outcome.next (waits s (Reg.SYS_CKEY + 32 * (k % 4) + 4 * (w % 8)) v true) = _
  rw [Nat.mod_eq_of_lt hk, Nat.mod_eq_of_lt hw]

/-- An event bit that came at this boundary outlasts the write that would clear it (R9). -/
theorem takeIntstat_commit (s : State) (v k : Nat) (full : s.hw.tk2512 = false) (hbit : bit (maskOf .w1c Reg.TAKE_INTSTAT) k = true)
    (hset : bit (getR s Reg.TAKE_INTSTAT) k = true) (hv : bit v k = true) :
    bit (getR (commitWrite s Reg.TAKE_INTSTAT v false) Reg.TAKE_INTSTAT) k = bit (Sparse.getN s.ccp.fresh Reg.TAKE_INTSTAT) k := by
  have hwrit : writable s Reg.TAKE_INTSTAT = true := by
    have hfield : (maskOf .rw Reg.TAKE_INTSTAT + maskOf .w1c Reg.TAKE_INTSTAT + maskOf .wo Reg.TAKE_INTSTAT != 0) = true := by decide
    simp [writable, unitAbsent_full s _ full, hfield]
  have hcommit : commitWrite s Reg.TAKE_INTSTAT v false =
      resend (storeWord (stamp s) Reg.TAKE_INTSTAT (keepFresh s Reg.TAKE_INTSTAT v)) 12 := by
    rw [commitWrite, if_neg (by simp [hwrit])]
    simp only [commitWord_full (stamp s) full]
    rfl
  rw [hcommit, getR_congr _ _ _ (resend_regs _ _), getR_storeWord_events _ _ _ (by decide), getR_congr (stamp s) s _ rfl]
  simp only [bit, keepFresh, testBit_andNot, Nat.testBit_and] at hbit hset hv ⊢
  simp [hbit, hset, hv]

/-- On a full part with no event new at this boundary, what each of these words does as it commits is what its block makes of it. -/
theorem commitWrite_full (s : State) (v : Nat) (full : s.hw.tk2512 = false) (quiet : s.ccp.fresh = []) :
    commitWrite s Reg.KPU_CLK v false = kpuClkWrite (stamp s) v ∧
    commitWrite s Reg.KPU_GATE v false = storeWord (stamp s) Reg.KPU_GATE v ∧
    commitWrite s Reg.KPU_FAULT v false = kpuFaultWrite (stamp s) v ∧
    commitWrite s Reg.XPT_CEILLIM v false = ceilLimCommit (stamp s) v ∧
    commitWrite s Reg.XPT_FMUTE v false = fmuteClear (stamp s) v ∧
    commitWrite s Reg.XPT_FMUTESET v false = (if bit v 0 then fmuteSet (stamp s) 2 else stamp s) ∧
    commitWrite s Reg.XPT_MCTRL v false = (if bit v 31 then holdClear (stamp s) else stamp s) ∧
    commitWrite s Reg.DISP_CANCEL v false = commitDisp (stamp s) Reg.DISP_CANCEL v ∧
    commitWrite s Reg.TIME_CTRL v false = commitTime (stamp s) Reg.TIME_CTRL v ∧
    commitWrite s Reg.CLK_CTRL v false = commitClk (stamp s) Reg.CLK_CTRL v ∧
    commitWrite s Reg.PWR_DARK v false =
      (if bit v 31 then darkCommit (storeWord (stamp s) Reg.PWR_DARK v) else storeWord (stamp s) Reg.PWR_DARK v) ∧
    commitWrite s Reg.LOG_CTRL v false = logCtrlCommit (stamp s) v ∧
    commitWrite s Reg.SYS_BOOTGO v false = (if bit v 0 then bootGo (stamp s) else stamp s) := by
  have hplain : ∀ a, plainWord a = true → commitWrite s a v false = commitWord (stamp s) a v false :=
    fun a => commitWrite_plain s a v false full quiet
  obtain ⟨hclk, hgate, hfault, hceil, hfmute, hset, hmctrl, hcancel, htime, hctrl, hdark, hlog, -, hsys⟩ := commitWord_full (stamp s) full v false
  exact ⟨(hplain _ (by decide)).trans hclk, (hplain _ (by decide)).trans hgate, (hplain _ (by decide)).trans hfault,
    (hplain _ (by decide)).trans hceil, (hplain _ (by decide)).trans hfmute, (hplain _ (by decide)).trans hset,
    (hplain _ (by decide)).trans hmctrl, (hplain _ (by decide)).trans hcancel, (hplain _ (by decide)).trans htime,
    (hplain _ (by decide)).trans hctrl, (hplain _ (by decide)).trans hdark, (hplain _ (by decide)).trans hlog,
    (hplain _ (by decide)).trans (hsys _ (by decide))⟩

/-- A word of a control key commits: the control processor's is kept, the host's is dropped (R499). -/
theorem commitWrite_ckey (s : State) (k v : Nat) (fw : Bool) (full : s.hw.tk2512 = false) (quiet : s.ccp.fresh = []) (hk : k < 4) :
    commitWrite s (Reg.SYS_CKEY + 32 * k) v fw = commitSys (stamp s) (Reg.SYS_CKEY + 32 * k) v fw := by
  have hplain : ∀ k < 4, plainWord (Reg.SYS_CKEY + 32 * k) = true := by decide
  obtain ⟨-, -, -, -, -, -, -, -, -, -, -, -, -, hsys⟩ := commitWord_full (stamp s) full v fw
  rw [commitWrite_plain s _ v fw full quiet (hplain k hk)]
  exact hsys _ (by simp only [Reg.SYS_CKEY]; omega)

/-- The words whose commit number O36 speaks of. -/
def numberedWords : List Nat :=
  [Reg.KPU_CLK, Reg.KPU_GATE, Reg.XPT_CEILLIM, Reg.XPT_FMUTE, Reg.XPT_MCTRL, Reg.DISP_CANCEL, Reg.TIME_CTRL, Reg.SYS_CKEY]

/-- Each of these words takes one commit number, whatever it does (R14). -/
theorem commitWrite_commitSeq (s : State) (v a : Nat) (full : s.hw.tk2512 = false) (quiet : s.ccp.fresh = [])
    (ha : a ∈ numberedWords) : (commitWrite s a v false).tl.commitSeq = (s.tl.commitSeq + 1) % 2 ^ 32 := by
  obtain ⟨hclk, hgate, -, hceil, hfmute, -, hmctrl, hcancel, htime, -⟩ := commitWrite_full s v full quiet
  have hkey := commitWrite_ckey s 0 v false full quiet (by decide)
  rw [← stamp_commitSeq]
  congr 1
  simp only [numberedWords, List.mem_cons, List.not_mem_nil, or_false] at ha
  rcases ha with rfl | rfl | rfl | rfl | rfl | rfl | rfl | rfl
  · rw [hclk, kpuClkWrite_tl]
  · rw [hgate]
    rfl
  · rw [hceil, ceilLimCommit_tl]
  · rw [hfmute, fmuteClear_tl]
  · rw [hmctrl]
    split <;> rfl
  · rw [hcancel]
    simp only [commitDisp, if_true]
    split <;> rfl
  · rw [htime, commitTime_ctrl_tl]
  · exact congrArg State.tl (hkey.trans (commitSys_ckey_host (stamp s) 0 v (by decide)))

/-- Settles O36: the commands queue their word as it stands; as it commits, each word is what its block makes of it. -/
theorem registerWritesCommit : Obligations.RegisterWritesCommit := by
  unfold Obligations.RegisterWritesCommit
  constructor
  · intro s v k w image
    refine ⟨rfl, rfl, rfl, rfl, rfl, rfl, rfl, rfl, rfl, rfl, rfl, rfl, rfl, rfl, rfl, rfl, rfl, rfl, exec_ckeyWrite s k w v, ?_, ?_⟩
    · intro hboot hvalid
      refine ⟨_, rfl, ?_⟩
      rw [uartBoot_valid s image hboot hvalid]
      exact startFirmware_runs _ 2 false
    · intro hrefused
      exact congrArg Host.Outcome.next (uartBoot_refused s image hrefused)
  intro s v k full c event
  refine ⟨takeIntstat_commit s v k full, fun quiet => ?_⟩
  obtain ⟨hclk, -, hfault, hceil, hfmute, hset, hmctrl, hcancel, -, hctrl, hdark, hlog, hboot⟩ := commitWrite_full s v full quiet
  simp only [c, hclk, hfault, hceil, hfmute, hset, hmctrl, hcancel, hctrl, hdark, hlog, hboot]
  -- the clauses in the order of the statement: KPU_FAULT, KPU_CLK, XPT, DISP, CLK, PWR_DARK, LOG_CTRL, SYS_BOOTGO, SYS_CKEY
  refine ⟨fun a ha => commitWrite_commitSeq s v a full quiet ha, ?_, ?_, ?_, ?_, ?_, ?_, ?_, ?_, ?_, ?_, ?_, ?_, ?_, ?_, ?_, ?_, ?_, ?_⟩
  · rintro hk hf rfl
    rw [kpuFaultWrite_one _ k hk]
    exact kpuFaultCore_fault (stamp s) k hk hf
  · rintro hk hd hm rfl
    rw [kpuFaultWrite_one _ k hk]
    exact kpuFaultCore_debug (stamp s) k hk hd hm
  · intro hv hmax cool
    exact kpuClkWrite_taken (stamp s) v (by omega) (by omega) hmax cool
  · intro hout hv
    exact kpuClkWrite_rejected (stamp s) v hv hout
  · exact ceilLimCommit_first (stamp s) v
  · exact ceilLimCommit_locked (stamp s) v
  · intro hv
    rw [if_pos hv]
    exact fmuteSet_latches (stamp s) 2 (by decide)
  · exact fmuteClear_undervoltage (stamp s) v
  · rintro huv cool rfl
    exact fmuteClear_all (stamp s) huv cool
  · intro hv
    rw [if_pos hv]
    rfl
  · intro hv
    simp only [commitDisp, if_true, if_pos hv]
    rfl
  · exact commitClk_xoclr (stamp s) v
  · rintro rfl hok
    rw [if_pos (by decide)]
    exact darkCommit_accepted _ ((darkRefused_storeDark (stamp s) _).trans hok)
  · rintro rfl hno
    rw [if_pos (by decide)]
    exact darkCommit_refused _ ((darkRefused_storeDark (stamp s) _).trans hno)
  · rintro rfl hidle
    exact logCtrlCommit_start (stamp s) hidle
  · rintro rfl hwait hvalid
    rw [if_pos (by decide), bootGo_valid (stamp s) hwait hvalid]
    exact startFirmware_runs _ 2 false
  · intro hk
    rw [commitWrite_ckey s k v true full quiet hk]
    exact commitSys_ckey (stamp s) k v hk
  · intro hk
    rw [commitWrite_ckey s k v false full quiet hk, commitSys_ckey_host _ k v hk]
    rfl

end Sys2Proof.Machine
end

section
/-! PROOF. Direct accesses (O37) and the state after reset (O35). -/

namespace Sys2Proof.Machine

open Sys2Proof

/-! O37: direct accesses. -/

/-- A word at a multiple of four below the end of BAR0 is named by its own offset. -/
theorem wordOffset_eq (a : Nat) (ha : a % 4 = 0) (hlt : a < 0x4000000) : a % 0x4000000 / 4 * 4 = a := by omega

/-- A direct read leaves the memories, the timeline and the log as they are. -/
def ReadKeeps (s t : State) : Prop := t.mem = s.mem ∧ t.tl = s.tl ∧ t.log = s.log

theorem clearRc_keeps (s : State) (a : Nat) : ReadKeeps s (clearRc s a) := by
  unfold clearRc
  split
  · exact ⟨rfl, rfl, rfl⟩
  · refine foldl_invariant (ReadKeeps s) _ (fun t f ht => ?_) _ s ⟨rfl, rfl, rfl⟩
    exact ht

theorem tsqRead_keeps (s : State) (p : Nat) : ReadKeeps s (tsqRead s p) := by
  unfold tsqRead
  dsimp only
  split <;> simp [ReadKeeps]

theorem readReg_keeps (s : State) (a : Nat) : ReadKeeps s (readReg s a).2 := by
  unfold readReg
  dsimp only
  generalize (if latched a then _ else _) = v
  split
  · exact ⟨rfl, rfl, rfl⟩
  split
  · exact tsqRead_keeps s 0
  split
  · exact tsqRead_keeps s 1
  split
  · exact ⟨rfl, rfl, rfl⟩
  · exact clearRc_keeps _ a

/-- A word of no latch and no timestamp queue reads as it shows (R32, R252). -/
theorem readReg_word (s : State) (a : Nat) (hl : latched a = false) (hp : unitAbsent s a = false) (h0 : a ≠ Reg.TIME_TSQ_W0)
    (h1 : a ≠ Reg.TIME_TSQ_W0 + 0x40) : (readReg s a).1 = (if atOnce a then getR s a else getView s a) &&& readMask a := by
  simp [readReg, peekReg, hl, hp, h0, h1]

/-- A register of a unit that is fused off reads 0 and nothing happens (R5). -/
theorem readReg_absent (s : State) (a : Nat) (h : unitAbsent s a = true) : readReg s a = (0, s) := by
  simp [readReg, h]

theorem registerRead_up (s : State) (a : Nat) (up : pcieUp s = true) (ha : a % 4 = 0) (hlt : a < 0x4000000) :
    registerRead s a = { (readReg s a).2 with rdata := beBytes 4 (readReg s a).1 } := by
  simp only [registerRead, up, wordOffset_eq a ha hlt]
  rfl

theorem registerWrite_partial (s : State) (a v be : Nat) (up : pcieUp s = true) (hbe : be % 16 ≠ 15) :
    registerWrite s a v be = addCtr s Reg.HOST_PARTWR 1 := by
  simp [registerWrite, up, hbe]

theorem registerWrite_waits (s : State) (a v : Nat) (up : pcieUp s = true) (ha : a % 4 = 0) (hlt : a < 0x4000000)
    (hw : atOnce a = false) : registerWrite s a v 15 = waits s a v false := by
  simp only [registerWrite, up, wordOffset_eq a ha hlt, hostWrite, hw]
  rfl

/-- Every block but SYS has an INTSTAT, and only that of HOST acts at once (R13, R265). -/
theorem intStatAt_waits (n : Nat) (hn : n < 22) (h0 : n ≠ 0) (h21 : n ≠ 21) : ∃ x, intStatAt n = some x ∧ atOnce x = false := by
  have hall : ∀ n < 22, n ≠ 0 → n ≠ 21 → (intStatAt n).any (fun x => !atOnce x) = true := by decide
  have := hall n hn h0 h21
  cases hx : intStatAt n with
  | none => simp [hx] at this
  | some x => exact ⟨x, rfl, by simpa [hx] using this⟩

theorem intstatClear_waits (s : State) (n v x : Nat) (hx : intStatAt n = some x) (hw : atOnce x = false) :
    intstatClear s n v = waits s x v false := by
  simp only [intstatClear, hx, hostWrite, hw]
  rfl

/-- Settles O37: over a link that is up, each access is what its register's kind makes of it; a read acts on no more than what it shows. -/
theorem directAccesses : Obligations.DirectAccesses := by
  unfold Obligations.DirectAccesses
  intro s a v be n up ha hlt
  refine ⟨?_, ?_, ⟨_, rfl, ?_⟩, ?_, rfl, ?_, rfl⟩
  · intro hbe
    show Host.Outcome.next (serveRing (registerWrite s a v be)) = _
    rw [registerWrite_partial s a v be up hbe]
  · intro hw
    show Host.Outcome.next (serveRing (registerWrite s a v 15)) = _
    rw [registerWrite_waits s a v up ha hlt hw]
  · rw [registerRead_up s a up ha hlt]
    obtain ⟨hmem, htl, hlog⟩ := readReg_keeps s a
    refine ⟨hmem, htl, hlog, fun hl hp h0 h1 => ?_, fun habsent => ?_⟩
    · exact congrArg (beBytes 4) (readReg_word s a hl hp h0 h1)
    · rw [readReg_absent s a habsent]
  · intro hn h0 h21
    obtain ⟨x, hx, hw⟩ := intStatAt_waits n hn h0 h21
    exact ⟨x, hx, congrArg Host.Outcome.next (intstatClear_waits s n v x hx hw)⟩
  · exact getR_storeWord_events s Reg.HOST_INTSTAT v (by decide)

/-! O35: the state after reset. -/

theorem queuesBounded_reset : QueuesBounded State.reset := by
  unfold QueuesBounded
  decide

theorem memoryCanonical_reset : MemoryCanonical State.reset := rfl

/-- The two words that reset puts into the register file stand in rising order and differ from their table's value (R264, R512). -/
theorem regsCanonical_reset : RegsCanonical State.reset := by
  unfold RegsCanonical
  decide

/-- What a direct read returns after reset: the reset columns of the tables, and the cause of the reset (R3, R159, R512). -/
theorem peekReg_reset :
    peekReg State.reset Reg.SYS_ID = 0x4C595124 ∧ peekReg State.reset Reg.SYS_RSTCAUSE = 1 ∧
    peekReg State.reset Reg.KPU_PRESENT = 0xFFFFFFFF ∧ peekReg State.reset Reg.KPU_CLK = 0x222 ∧
    peekReg State.reset Reg.PAIR_EVIDMS = 200 ∧ peekReg State.reset Reg.MEM_RHTHR = 4096 := by
  decide +kernel

/-- Settles O35: every field as `State.reset` has it, the registers as a read of them finds them. -/
theorem resetValues : Obligations.ResetValues := by
  unfold Obligations.ResetValues
  obtain ⟨hid, hcause, hpresent, hclk, hevid, hthr⟩ := peekReg_reset
  exact ⟨rfl, rfl, rfl, rfl, rfl, rfl, rfl, rfl, rfl, rfl, rfl, rfl, hid, hcause, hpresent, hclk, hevid, hthr,
    queuesBounded_reset, memoryCanonical_reset, regsCanonical_reset⟩

end Sys2Proof.Machine
end

section
/-! SUPPORT. What the operations of the stages keep. They report errors, count, log, and write memory and registers one at a time, and
move neither the pipeline nor the takes nor the dispatcher: a property that single register writes keep, and that speaks of no other
part they touch, holds after each of them. O60 uses this for the registers, O43 for the pipeline. -/

namespace Sys2Proof.Machine

open Sys2Proof

/-- The block work in the active context of a channel. -/
def intoActive (s : State) (c p : Nat) (n : Int) (lines : List (Nat × Spec)) (x : Option ConvCtx) : Option ConvCtx × State :=
  match x with
  | some t => (some (blockInto s c p n false lines t).1, (blockInto s c p n false lines t).2)
  | none => (none, s)

/-- The block work in the reserve context of the change a channel is in (R117). -/
def intoReserve (s : State) (c p : Nat) (n : Int) (lines : List (Nat × Spec)) (chg : List ConvChg) : List ConvChg × State :=
  match chg with
  | g :: t =>
    match g.ctx with
    | some v => ({ g with ctx := some (blockInto s c p n true lines v).1 } :: t, (blockInto s c p n true lines v).2)
    | none => (g :: t, s)
  | [] => ([], s)

theorem blockWork_not_due {s : State} {c p : Nat} {n : Int}
    (idle : blockDue s c p (prepRun (chanOf s c) (runFor (chanOf s c) n) n) n = false) : blockWork s c p n = s :=
  if_pos (by simpa using idle)

/-- The window, the delay line, the two contexts, the new record. -/
theorem blockWork_due {s : State} {c p : Nat} {n : Int}
    (due : blockDue s c p (prepRun (chanOf s c) (runFor (chanOf s c) n) n) n = true) :
    let r := prepRun (chanOf s c) (runFor (chanOf s c) n) n
    let k := ((partitions r.len).filter (·.1 == p)).length
    let w := blockWindow s c p n
    let x := fftReal w.1 0
    let old := delayLine w.2 c p r.blocks k
    let a := intoActive old.2 c p n ((0, x) :: old.1) r.ctx
    let b := intoReserve a.2 c p n ((0, x) :: old.1) r.chg
    let t := if k > 1 then blockWrite b.2 (lineAddr b.2 c r.blocks) (specBytes x p) else b.2
    blockWork s c p n = setChan t c (setRunFor (chanOf s c) n
      { r with ctx := a.1, chg := b.1, blocks := if k > 1 then r.blocks + 1 else r.blocks, done := p :: r.done }) :=
  if_neg (by simpa using due)

/-- A property that writes of single registers keep, and that depends on the registers, the dispatcher, the takes and the pipeline only. -/
structure Inert (P : State → Prop) : Prop where
  keep : ∀ {s : State}, P s → ∀ {pending hw view latch tl log ccp pwr portA portB time clk geo path kpu fab fw cnv xpt strm pair lio dram
    mem rdata freeCtr}, P ⟨pending, hw, s.regs, view, latch, tl, log, ccp, pwr, portA, portB, time, clk, geo, path, kpu, s.disp, fab,
      fw, cnv, xpt, strm, s.take, s.pipe, pair, lio, dram, mem, rdata, freeCtr⟩
  setR : ∀ {s a v}, P s → P (setR s a v)

/-- Such a property holds of a state. -/
structure Keeps (P : State → Prop) (s : State) : Prop where
  inert : Inert P
  holds : P s

variable {P : State → Prop}

theorem Keeps.keep {s : State} (h : Keeps P s) {pending hw view latch tl log ccp pwr portA portB time clk geo path kpu fab fw cnv xpt
    strm pair lio dram mem rdata freeCtr} :
    Keeps P ⟨pending, hw, s.regs, view, latch, tl, log, ccp, pwr, portA, portB, time, clk, geo, path, kpu, s.disp, fab, fw, cnv, xpt,
      strm, s.take, s.pipe, pair, lio, dram, mem, rdata, freeCtr⟩ := ⟨h.inert, h.inert.keep h.holds⟩

/-- One step after another, where the second names its state more than once. -/
theorem Keeps.andThen {s t : State} (h : Keeps P s) (k : Keeps P s → Keeps P t) : Keeps P t := k h

theorem Keeps.ite {c : Prop} [Decidable c] {a b : State} (ha : Keeps P a) (hb : Keeps P b) :
    Keeps P (if c then a else b) := by split; exacts [ha, hb]

theorem Keeps.foldl {α : Type} {f : State → α → State} {l : List α} {s : State} (h : Keeps P s)
    (step : ∀ t x, Keeps P t → Keeps P (f t x)) : Keeps P (l.foldl f s) :=
  foldl_invariant _ f step l s h

theorem Keeps.foldlSnd {α β : Type} {f : β × State → α → β × State} {l : List α} {a : β × State} (h : Keeps P a.2)
    (step : ∀ t x, Keeps P t.2 → Keeps P (f t x).2) : Keeps P (l.foldl f a).2 :=
  foldl_invariant (fun a => Keeps P a.2) f step l a h

theorem Keeps.iteSnd {β : Type} {c : Prop} [Decidable c] {a b : β × State} (ha : Keeps P a.2) (hb : Keeps P b.2) :
    Keeps P (if c then a else b).2 := by split; exacts [ha, hb]

theorem Keeps.iteSndSnd {β γ : Type} {c : Prop} [Decidable c] {a b : γ × β × State} (ha : Keeps P a.2.2) (hb : Keeps P b.2.2) :
    Keeps P (if c then a else b).2.2 := by split; exacts [ha, hb]

/-! The operations, in the order of the model. -/

theorem Keeps.setR {s a v} (h : Keeps P s) : Keeps P (setR s a v) := ⟨h.inert, h.inert.setR h.holds⟩
theorem Keeps.setF {s f v} (h : Keeps P s) : Keeps P (setF s f v) := h.setR
theorem Keeps.addCtr {s a n} (h : Keeps P s) : Keeps P (addCtr s a n) := h.setR
theorem Keeps.maxF {s f v} (h : Keeps P s) : Keeps P (maxF s f v) := .ite h.setF h
theorem Keeps.setR64 {s lo hi v} (h : Keeps P s) : Keeps P (setR64 s lo hi v) := h.setR.setR
theorem Keeps.freeBits {w s} (h : Keeps P s) : Keeps P (freeBits w s).2 := h.keep
theorem Keeps.sendVector {s n} (h : Keeps P s) : Keeps P (sendVector s n) := .ite h (.ite h.keep h.keep)

theorem Keeps.sendRisen {before after} (h : Keeps P after) : Keeps P (sendRisen before after) :=
  h.foldl fun _ _ h => .ite h.sendVector h

theorem Keeps.setEvent {s a m} (h : Keeps P s) : Keeps P (setEvent s a m) := h.setR.keep

theorem Keeps.raise {s n b} (h : Keeps P s) : Keeps P (raise s n b) := by
  unfold Machine.raise; split; exacts [h.setEvent.sendRisen, h]

theorem Keeps.pushEvent {s e} (h : Keeps P s) : Keeps P (pushEvent s e) := .ite h.keep h.keep
theorem Keeps.logEv {s code payload} (h : Keeps P s) : Keeps P (logEv s code payload) := h.pushEvent

theorem Keeps.logRun {s code payload run first} (h : Keeps P s) : Keeps P (logRun s code payload run first) :=
  h.pushEvent

theorem Keeps.whole {s} {hit : Nat → Bool} (h : Keeps P s) : Keeps P (whole s hit) := .ite h h.keep
theorem Keeps.blockWrite {s a b} (h : Keeps P s) : Keeps P (blockWrite s a b) := h.keep.whole

theorem Keeps.capture {s mem kind m src a} (h : Keeps P s) : Keeps P (capture s mem kind m src a) :=
  .ite h h.setEvent.setR.setR64.setR64

theorem Keeps.eccReport {s k ue m src a} (h : Keeps P s) : Keeps P (eccReport s k ue m src a) :=
  (Keeps.ite h.addCtr.addCtr h.addCtr).andThen fun h =>
    .ite h.capture.raise
      ((Keeps.ite h.capture.raise h.capture).andThen fun h => (Keeps.ite h.keep h.keep.logRun).raise)

theorem Keeps.eccRead {s a n m src} (h : Keeps P s) : Keeps P (eccRead s a n m src).2 :=
  h.foldlSnd fun _ _ h => by extract_lets; split; exacts [h.eccReport, h]

theorem Keeps.openRead {s k size m ps} (h : Keeps P s) : Keeps P (openRead s k size m ps).2 :=
  .iteSnd h (h.foldl fun _ _ h => h.eccReport)

theorem Keeps.openWrite {s k size ps} (h : Keeps P s) : Keeps P (openWrite s k size ps) := .ite h h.whole
theorem Keeps.setChan {s c v} (h : Keeps P s) : Keeps P (setChan s c v) := h.keep
theorem Keeps.sramWords {s c keys v} (h : Keeps P s) : Keeps P (sramWords s c keys v).2 := h.openRead

theorem Keeps.convRead {s c a n} (h : Keeps P s) : Keeps P (convRead s c a n).2 :=
  .ite h.eccRead.addCtr.raise h.eccRead

theorem Keeps.delayLine {s c p b k} (h : Keeps P s) : Keeps P (delayLine s c p b k).2 :=
  h.foldlSnd fun _ _ h => .iteSnd h (.iteSnd h.convRead h.convRead)

theorem Keeps.blockInto {s c p n reserve lines x} (h : Keeps P s) :
    Keeps P (blockInto s c p n reserve lines x).2 :=
  .iteSnd (h.foldlSnd fun _ _ h => by split; exacts [h, .iteSnd h.convRead h.convRead])
    (h.foldlSnd fun _ _ h => by split; exacts [h, .iteSnd h.convRead h.convRead]).sramWords.openWrite

theorem Keeps.histWords {s c n} (h : Keeps P s) : Keeps P (histWords s c n).2.2 := h.sramWords.sramWords

theorem Keeps.blockWindow {s : State} {c p : Nat} {n : Int} (h : Keeps P s) :
    Keeps P (blockWindow s c p n).2 := by
  unfold Machine.blockWindow; extract_lets places r s₁
  have hr : Keeps P r.2 := .iteSnd h (h.foldlSnd fun _ _ h => h.eccRead)
  exact (Keeps.ite hr.addCtr.raise hr).histWords

theorem Keeps.intoActive {s c p n lines x} (h : Keeps P s) : Keeps P (intoActive s c p n lines x).2 := by
  unfold Machine.intoActive; split; exacts [h.blockInto, h]

theorem Keeps.intoReserve {s c p n lines chg} (h : Keeps P s) : Keeps P (intoReserve s c p n lines chg).2 := by
  unfold Machine.intoReserve; split
  · split; exacts [h.blockInto, h]
  · exact h

theorem Keeps.blockWork {s c p n} (h : Keeps P s) : Keeps P (blockWork s c p n) := by
  cases hdue : blockDue s c p (prepRun (chanOf s c) (runFor (chanOf s c) n) n) n with
  | false => rwa [blockWork_not_due hdue]
  | true =>
    rw [blockWork_due hdue]
    exact (Keeps.ite h.blockWindow.delayLine.intoActive.intoReserve.blockWrite
      h.blockWindow.delayLine.intoActive.intoReserve).setChan

theorem Keeps.takeInput {s c n x} (h : Keeps P s) : Keeps P (takeInput s c n x) :=
  (Keeps.ite h.openWrite h.openWrite.blockWrite).setChan

theorem Keeps.ringHeard {s : State} {c which : Nat} {n : Int} {x : Option ConvCtx} (h : Keeps P s) :
    Keeps P (ringHeard s c which n x).2 := by
  unfold Machine.ringHeard; split
  · exact h
  · extract_lets r
    exact .iteSnd h (h.sramWords : Keeps P r.2)

theorem Keeps.channelFeed {s : State} {c : Nat} {n : Int} {x : List Int} (h : Keeps P s) :
    Keeps P (channelFeed s c n x).2.2 := by
  unfold Machine.channelFeed
  refine .iteSndSnd h.takeInput ?_
  extract_lets s₁ ch r hist
  have h₁ : Keeps P hist.2.2 := (h.foldl fun _ _ h => h.blockWork).histWords
  split
  next ra s₂ hra =>
    have h₂ : Keeps P (ra, s₂).2 := hra ▸ h₁.ringHeard
    dsimp only
    exact (Keeps.ringHeard h₂).setChan.takeInput

theorem Keeps.noteSat {s k} (h : Keeps P s) : Keeps P (correctBus.noteSat s k) := .ite h h.addCtr.raise

theorem Keeps.correctBus {s : State} {c : Nat} {n : Int} {x : List Int} (h : Keeps P s) :
    Keeps P (correctBus s c n x).2 := by
  unfold Machine.correctBus; extract_lets _ _ y
  have hq : Keeps P (Machine.channelFeed s c n y).2.2 := h.channelFeed
  generalize Machine.channelFeed s c n y = q at hq ⊢
  dsimp only
  split; exacts [.iteSnd hq hq.noteSat, hq.noteSat]

theorem Keeps.convUsed {s n} (h : Keeps P s) : Keeps P (convUsed s n) := h.foldl fun _ _ h => h.setR.maxF
theorem Keeps.capStore {s ring i v} (h : Keeps P s) : Keeps P (capStore s ring i v) := h.blockWrite
theorem Keeps.pathCount {s a b n} (h : Keeps P s) : Keeps P (pathCount s a b n) := .ite h h.addCtr.raise
theorem Keeps.pathMaster {s} (h : Keeps P s) : Keeps P (pathMaster s).2 := .iteSnd h h.keep

theorem Keeps.tapHits {s hits} (h : Keeps P s) : Keeps P (tapHits s hits) :=
  h.foldl fun _ _ h => h.pathMaster.eccReport

theorem Keeps.renderSide {s : State} {ri : RenderIn} {nodes : Sparse Node} {mixes : Nat → Bool} {g : GraphSec} {w : Work}
    {x : Side} (h : Keeps P s) : Keeps P (renderSide s ri nodes mixes g w x).2.2 := by
  unfold Machine.renderSide; split; extract_lets acc rows bus mix bsat msat s₁ s₂ s₃ s₄ s₅ bytes s₆
  have h₄ : Keeps P s₄ := h.tapHits.pathCount.pathCount.pathCount
  have h₅ : Keeps P s₅ := .ite h₄ h₄.addCtr.raise
  have h₆ : Keeps P s₆ := by unfold s₆; split; exacts [h₅.blockWrite, h₅]
  exact h₆

theorem Keeps.sideRendered {s w x second} (h : Keeps P s) : Keeps P (sideRendered s w x second).2.2 := by
  unfold Machine.sideRendered; split; exacts [h.renderSide, h]

theorem Keeps.slotRegs {s used} (h : Keeps P s) : Keeps P (slotRegs s used) :=
  h.setR.maxF.foldl fun _ _ h => h.setR

theorem Keeps.freeSamples {n} {s : State} (h : Keeps P s) : Keeps P (freeSamples n s).2 := by
  induction n generalizing s with
  | zero => exact h
  | succ n ih => exact ih h.freeBits

theorem Keeps.bufferSamples {s t kind p ofs} (h : Keeps P s) : Keeps P (bufferSamples s t kind p ofs).2 := by
  unfold Machine.bufferSamples; split; exacts [h.eccRead, h.freeSamples]

theorem Keeps.busSamples {s w x c} (h : Keeps P s) : Keeps P (busSamples s w x c).2 := by
  unfold Machine.busSamples; split; exacts [h, .iteSnd h h.bufferSamples]

end Sys2Proof.Machine
end

section
/-! SUPPORT. O60, the named operations. A state that differs in other fields keeps its canonical registers (`keep`), every write of one
register goes through `setR`, and the combinators below say so for a test, a fold and a step after a step. The lemmas then
follow the model file by file, one per operation, each a chain of the operations it is made of in the order they happen. -/

namespace Sys2Proof.Machine

open Sys2Proof

/-- A state with the registers of a canonical one, whatever else differs, is canonical. -/
theorem RegsCanonical.keep {s : State} (h : RegsCanonical s) {pending hw view latch tl log ccp pwr portA portB time clk geo path kpu disp
    fab fw cnv xpt strm take pipe pair lio dram mem rdata freeCtr} :
    RegsCanonical ⟨pending, hw, s.regs, view, latch, tl, log, ccp, pwr, portA, portB, time, clk, geo, path, kpu, disp,
      fab, fw, cnv, xpt, strm, take, pipe, pair, lio, dram, mem, rdata, freeCtr⟩ := h

/-- One step after another, where the second names its state more than once. -/
theorem RegsCanonical.andThen {s t : State} (h : RegsCanonical s) (k : RegsCanonical s → RegsCanonical t) : RegsCanonical t := k h

theorem RegsCanonical.ite {c : Prop} [Decidable c] {a b : State} (ha : RegsCanonical a) (hb : RegsCanonical b) :
    RegsCanonical (if c then a else b) := by split; exacts [ha, hb]

theorem RegsCanonical.foldl {α : Type} {f : State → α → State} {l : List α} {s : State} (h : RegsCanonical s)
    (step : ∀ t x, RegsCanonical t → RegsCanonical (f t x)) : RegsCanonical (l.foldl f s) :=
  foldl_invariant _ f step l s h

theorem RegsCanonical.foldlSnd {α β : Type} {f : β × State → α → β × State} {l : List α} {a : β × State} (h : RegsCanonical a.2)
    (step : ∀ t x, RegsCanonical t.2 → RegsCanonical (f t x).2) : RegsCanonical (l.foldl f a).2 :=
  foldl_invariant (fun a => RegsCanonical a.2) f step l a h

theorem RegsCanonical.foldlSndSnd {α β γ : Type} {f : γ × β × State → α → γ × β × State} {l : List α} {a : γ × β × State}
    (h : RegsCanonical a.2.2) (step : ∀ t x, RegsCanonical t.2.2 → RegsCanonical (f t x).2.2) : RegsCanonical (l.foldl f a).2.2 :=
  foldl_invariant (fun a => RegsCanonical a.2.2) f step l a h

theorem RegsCanonical.foldlFst {α β : Type} {f : State × β → α → State × β} {l : List α} {a : State × β} (h : RegsCanonical a.1)
    (step : ∀ t x, RegsCanonical t.1 → RegsCanonical (f t x).1) : RegsCanonical (l.foldl f a).1 :=
  foldl_invariant (fun a => RegsCanonical a.1) f step l a h

theorem RegsCanonical.iteSnd {β : Type} {c : Prop} [Decidable c] {a b : β × State} (ha : RegsCanonical a.2) (hb : RegsCanonical b.2) :
    RegsCanonical (if c then a else b).2 := by split; exacts [ha, hb]

theorem RegsCanonical.iteFst {β : Type} {c : Prop} [Decidable c] {a b : State × β} (ha : RegsCanonical a.1) (hb : RegsCanonical b.1) :
    RegsCanonical (if c then a else b).1 := by split; exacts [ha, hb]

theorem RegsCanonical.iteSndSnd {β γ : Type} {c : Prop} [Decidable c] {a b : γ × β × State} (ha : RegsCanonical a.2.2)
    (hb : RegsCanonical b.2.2) : RegsCanonical (if c then a else b).2.2 := by split; exacts [ha, hb]

/-- The one way a single register changes. -/
theorem RegsCanonical.setR {s : State} (h : RegsCanonical s) {a v : Nat} : RegsCanonical (setR s a v) :=
  Sparse.wf_put _ _ _ _ h

theorem inert_regsCanonical : Inert RegsCanonical := ⟨fun h => h, fun h => h.setR⟩

theorem RegsCanonical.keeps {s : State} (h : RegsCanonical s) : Keeps RegsCanonical s := ⟨inert_regsCanonical, h⟩

/-- The state of a pair that was taken apart by a `match`. -/
theorem RegsCanonical.of_eq {α : Type} {q : α × State} {a : α} {s : State} (h : RegsCanonical q.2) (e : q = (a, s)) :
    RegsCanonical s := by subst e; exact h

/-- What canonical form says of a table: its keys rise and no entry holds what its key reads unlisted. -/
theorem Sparse.wfFrom_iff {α : Type} [DecidableEq α] (d : Nat → α) (m : Sparse α) (lo : Nat) :
    Sparse.wfFrom d lo m = true ↔ m.Pairwise (·.1 < ·.1) ∧ ∀ p ∈ m, lo ≤ p.1 ∧ p.2 ≠ d p.1 := by
  induction m generalizing lo with
  | nil => simp [Sparse.wfFrom]
  | cons p t ih =>
    simp only [Sparse.wfFrom, Bool.and_eq_true, decide_eq_true_eq, ih, List.pairwise_cons, List.forall_mem_cons]
    constructor
    · rintro ⟨⟨hlo, hne⟩, hrise, hall⟩
      exact ⟨⟨fun q hq => (hall q hq).1, hrise⟩, ⟨hlo, hne⟩, fun q hq => ⟨by have := (hall q hq).1; omega, (hall q hq).2⟩⟩
    · rintro ⟨⟨habove, hrise⟩, ⟨hlo, hne⟩, hall⟩
      exact ⟨⟨hlo, hne⟩, hrise, fun q hq => ⟨habove q hq, (hall q hq).2⟩⟩

/-- The keys of a table rise. -/
def Rising (m : Sparse Word) : Prop := m.Pairwise (·.1 < ·.1)

/-- Replacing a range of registers by a block with rising offsets keeps the canonical form. -/
theorem wf_replaceRange_rising (m block : RegFile) (lo hi : Nat) (h : lo ≤ hi) (w : Sparse.wf regDefault m = true) (hb : Rising block) :
    Sparse.wf regDefault (Sparse.replaceRange regDefault m lo hi block) = true := by
  refine Sparse.wf_replaceRange _ m lo hi block h w ((Sparse.wfFrom_iff _ _ _).2 ⟨List.Pairwise.filter _ hb, fun p hp => ?_⟩)
  have := (List.mem_filter.1 hp).2
  simp only [Bool.and_eq_true, decide_eq_true_eq] at this
  exact ⟨this.1.1, this.2⟩

/-- Blocks of registers, one after another, each within its own stride. -/
theorem rising_flatMap {α : Type} {l : List α} {key : α → Nat} {f : α → Sparse Word} {base stride : Nat}
    (hl : l.Pairwise (key · < key ·)) (hf : ∀ a, Rising (f a))
    (hin : ∀ a, ∀ p ∈ f a, base + stride * key a ≤ p.1 ∧ p.1 < base + stride * key a + stride) :
    Rising (l.flatMap f) := by
  refine List.pairwise_flatMap.2 ⟨fun a _ => hf a, hl.imp fun {a b} hab p hp q hq => ?_⟩
  have hstep : stride * key a + stride ≤ stride * key b := Nat.mul_succ stride (key a) ▸ Nat.mul_le_mul_left stride hab
  have := (hin a p hp).2
  have := (hin b q hq).1
  omega

/-- Consecutive words from an offset on. -/
def wordsAt (a : Nat) (ws : List Nat) : Sparse Word := ws.zipIdx.map fun w => (a + 4 * w.2, BitVec.ofNat 32 w.1)

theorem zipIdx_rising {α : Type} (l : List α) : l.zipIdx.Pairwise (·.2 < ·.2) := by
  have h := List.pairwise_lt_range' (s := 0) (n := l.length)
  rw [← List.zipIdx_map_snd 0 l, List.pairwise_map] at h
  exact h

theorem rising_wordsAt (a : Nat) (ws : List Nat) : Rising (wordsAt a ws) :=
  List.pairwise_map.2 ((zipIdx_rising ws).imp fun h => by dsimp only; omega)

theorem mem_wordsAt {a : Nat} {ws : List Nat} {p : Nat × Word} (h : p ∈ wordsAt a ws) : a ≤ p.1 ∧ p.1 < a + 4 * ws.length := by
  obtain ⟨w, hw, rfl⟩ := List.mem_map.1 h
  have := (List.mem_zipIdx hw).2.1
  dsimp only; omega

theorem RegsCanonical.setF {s f v} (h : RegsCanonical s) : RegsCanonical (setF s f v) := h.keeps.setF.holds
theorem RegsCanonical.setFB {s f b} (h : RegsCanonical s) : RegsCanonical (setFB s f b) := h.setF
theorem RegsCanonical.addCtr {s a n} (h : RegsCanonical s) : RegsCanonical (addCtr s a n) := h.keeps.addCtr.holds
theorem RegsCanonical.addF {s f n} (h : RegsCanonical s) : RegsCanonical (addF s f n) := h.setF
theorem RegsCanonical.maxF {s f v} (h : RegsCanonical s) : RegsCanonical (maxF s f v) := h.keeps.maxF.holds
theorem RegsCanonical.setR64 {s lo hi v} (h : RegsCanonical s) : RegsCanonical (setR64 s lo hi v) := h.keeps.setR64.holds
theorem RegsCanonical.freeBits {w s} (h : RegsCanonical s) : RegsCanonical (freeBits w s).2 := h.keeps.freeBits.holds
theorem RegsCanonical.stamp {s} (h : RegsCanonical s) : RegsCanonical (stamp s) := h.keep
theorem RegsCanonical.sendVector {s n} (h : RegsCanonical s) : RegsCanonical (sendVector s n) := h.keeps.sendVector.holds

theorem RegsCanonical.sendRisen {before after} (h : RegsCanonical after) : RegsCanonical (sendRisen before after) :=
  h.keeps.sendRisen.holds

theorem RegsCanonical.setEvent {s a m} (h : RegsCanonical s) : RegsCanonical (setEvent s a m) := h.keeps.setEvent.holds

theorem RegsCanonical.raise {s n b} (h : RegsCanonical s) : RegsCanonical (raise s n b) := h.keeps.raise.holds

theorem RegsCanonical.pushEvent {s e} (h : RegsCanonical s) : RegsCanonical (pushEvent s e) := h.keeps.pushEvent.holds
theorem RegsCanonical.logEv {s code payload} (h : RegsCanonical s) : RegsCanonical (logEv s code payload) := h.keeps.logEv.holds

theorem RegsCanonical.logRun {s code payload run first} (h : RegsCanonical s) : RegsCanonical (logRun s code payload run first) :=
  h.keeps.logRun.holds

theorem RegsCanonical.logCommit {s code payload} (h : RegsCanonical s) : RegsCanonical (logCommit s code payload) := h.pushEvent

theorem RegsCanonical.whilePowered {s} {f : State → State} (h : RegsCanonical s) (hf : ∀ t, RegsCanonical t → RegsCanonical (f t))
    : RegsCanonical (whilePowered s f) :=
  .ite (hf _ h) h

theorem RegsCanonical.whole {s} {hit : Nat → Bool} (h : RegsCanonical s) : RegsCanonical (whole s hit) := h.keeps.whole.holds
theorem RegsCanonical.blockWrite {s a b} (h : RegsCanonical s) : RegsCanonical (blockWrite s a b) := h.keeps.blockWrite.holds
theorem RegsCanonical.pendAs {s n c} (h : RegsCanonical s) : RegsCanonical (pendAs s n c) := h.keep
theorem RegsCanonical.pendNow {s c} (h : RegsCanonical s) : RegsCanonical (pendNow s c) := h.keep
theorem RegsCanonical.queueWrite {s a v} (h : RegsCanonical s) : RegsCanonical (queueWrite s a v) := h.pendNow
theorem RegsCanonical.frameAs {s f n c} (h : RegsCanonical s) : RegsCanonical (frameAs s f n c) := h.keep

end Sys2Proof.Machine
end

section
/-! SUPPORT. O60, the log: recording an event. -/

namespace Sys2Proof.Machine

open Sys2Proof

theorem RegsCanonical.logSramFail {s offset} (h : RegsCanonical s) : RegsCanonical (logSramFail s offset) := .ite h h.keep.raise

theorem RegsCanonical.publishLog {s} (h : RegsCanonical s) : RegsCanonical (publishLog s) :=
  h.setR.setR.setR.setR.foldl fun _ _ h => h.foldl fun _ _ h => h.setR

end Sys2Proof.Machine
end

section
/-! SUPPORT. O60, the clock system: selection, switches, holdover, re-timing. -/

namespace Sys2Proof.Machine

open Sys2Proof

theorem RegsCanonical.setServo {s p v} (h : RegsCanonical s) : RegsCanonical (setServo s p v) := .ite h.keep h.keep
theorem RegsCanonical.servoState {s p st} (h : RegsCanonical s) : RegsCanonical (servoState s p st) := .ite h h.setServo.logEv.raise
theorem RegsCanonical.noteRequest {s} (h : RegsCanonical s) : RegsCanonical (noteRequest s) := h.keep

theorem RegsCanonical.updateSteer {s} (h : RegsCanonical s) : RegsCanonical (updateSteer s) :=
  (RegsCanonical.ite (.ite h (.ite (.ite h.setServo.servoState h.setServo) (.ite h.setServo.servoState h.setServo)))
    (.ite
      ((RegsCanonical.ite h (.ite (.ite h.setServo.servoState h.setServo) (.ite h.setServo.servoState h.setServo))).setServo.andThen fun h =>
        .ite h.servoState h)
      ((RegsCanonical.ite h (.ite (.ite h.setServo.servoState h.setServo) (.ite h.setServo.servoState h.setServo))).setServo.andThen fun h =>
        .ite h.servoState h))).noteRequest

theorem RegsCanonical.clkState {s st} (h : RegsCanonical s) : RegsCanonical (clkState s st) := .ite h h.keep.raise
theorem RegsCanonical.setRef {s r v} (h : RegsCanonical s) : RegsCanonical (setRef s r v) := h.keep
theorem RegsCanonical.startSwitch {s r} (h : RegsCanonical s) : RegsCanonical (startSwitch s r) := h.addCtr.logEv.keep.clkState

theorem RegsCanonical.enterHoldover {s} (h : RegsCanonical s) : RegsCanonical (enterHoldover s) :=
  .ite h h.keep.clkState.addCtr.raise.logEv.updateSteer

theorem RegsCanonical.abandonSwitch {s} (h : RegsCanonical s) : RegsCanonical (abandonSwitch s) := by
  unfold Machine.abandonSwitch; split; exacts [h.startSwitch, h.enterHoldover]

theorem RegsCanonical.applySelection {s : State} (h : RegsCanonical s) : RegsCanonical (applySelection s) :=
  .ite h (by
    split
    · exact .ite h.enterHoldover (by split; exacts [h.startSwitch, h])
    · exact .ite h (by split; exacts [h.startSwitch, h])
    · exact .ite h (by split; exacts [h.startSwitch, h])
    · exact .ite h.enterHoldover (by
        extract_lets; split; exacts [.ite (.ite h.startSwitch h) h.startSwitch, .ite h h.enterHoldover])
    · exact .ite h.enterHoldover (by
        extract_lets; split; exacts [.ite (.ite h.startSwitch h) h.startSwitch, .ite h h.enterHoldover])
    · exact .ite h h.abandonSwitch
    · exact h)

theorem RegsCanonical.afterFail {s r} (h : RegsCanonical s) : RegsCanonical (afterFail s r) := by
  unfold Machine.afterFail; split; exacts [.ite h.abandonSwitch h, .ite h.applySelection h, .ite h.applySelection h, h]

theorem RegsCanonical.refFail {s r cause} (h : RegsCanonical s) : RegsCanonical (refFail s r cause) :=
  .ite h.setRef h.setRef.addCtr.logEv.raise.afterFail

theorem RegsCanonical.refSet {s r on} (h : RegsCanonical s) : RegsCanonical (refSet s r on) := h.setRef
theorem RegsCanonical.refInstall {s r on} (h : RegsCanonical s) : RegsCanonical (refInstall s r on) := h.refSet.afterFail
theorem RegsCanonical.refQualified {s r} (h : RegsCanonical s) : RegsCanonical (refQualified s r) := h.setRef.logEv

theorem RegsCanonical.refWindow {s v three r m} (h : RegsCanonical s) : RegsCanonical (refWindow s v three r m) :=
  .ite h.setRef (by
    extract_lets
    split
    · exact (RegsCanonical.ite h.setRef.refFail (.ite h.setRef.refFail h.setRef)).setRef
    · exact .ite (RegsCanonical.ite h.setRef.refFail (.ite h.setRef.refFail h.setRef)).setRef
        (.ite (RegsCanonical.ite h.setRef.refFail (.ite h.setRef.refFail h.setRef)).setRef
          (.ite (RegsCanonical.ite h.setRef.refFail (.ite h.setRef.refFail h.setRef)).setRef
            (RegsCanonical.ite h.setRef.refFail (.ite h.setRef.refFail h.setRef)).setRef.refQualified))
    · exact .ite (RegsCanonical.ite h.setRef.refFail (.ite h.setRef.refFail h.setRef)).setRef
        (.ite (RegsCanonical.ite h.setRef.refFail (.ite h.setRef.refFail h.setRef)).setRef
          (RegsCanonical.ite h.setRef.refFail (.ite h.setRef.refFail h.setRef)).setRef.refQualified)
    · exact (RegsCanonical.ite h.setRef.refFail (.ite h.setRef.refFail h.setRef)).setRef)

theorem RegsCanonical.measurementWindow {s meas dco} (h : RegsCanonical s) : RegsCanonical (measurementWindow s meas dco) :=
  .ite h
    ((RegsCanonical.ite h.keep h).andThen fun h =>
      ((RegsCanonical.ite h.keep.logEv.raise h.keep).foldl fun _ _ h => h.refWindow).andThen fun h =>
        (RegsCanonical.ite h.keep h).applySelection)

theorem RegsCanonical.enterAcquiring {s} (h : RegsCanonical s) : RegsCanonical (enterAcquiring s) := h.keep.clkState
theorem RegsCanonical.measureStep {s lead} (h : RegsCanonical s) : RegsCanonical (measureStep s lead) := .ite h.keep.clkState h
theorem RegsCanonical.enterJump {s} (h : RegsCanonical s) : RegsCanonical (enterJump s) := .ite h.keep.clkState h
theorem RegsCanonical.endJump {s} (h : RegsCanonical s) : RegsCanonical (endJump s) := .ite h.keep.enterAcquiring.applySelection h

theorem RegsCanonical.splice {s} (h : RegsCanonical s) : RegsCanonical (splice s) :=
  h.stamp.keep.addCtr.logCommit.raise.enterAcquiring.updateSteer.applySelection

theorem RegsCanonical.dpllLock {s} (h : RegsCanonical s) : RegsCanonical (dpllLock s) := .ite h.clkState h
theorem RegsCanonical.dpllLockLoss {s} (h : RegsCanonical s) : RegsCanonical (dpllLockLoss s) := .ite h.enterAcquiring h

theorem RegsCanonical.fastlockStep {s} (h : RegsCanonical s) : RegsCanonical (fastlockStep s) := by
  unfold Machine.fastlockStep; split; exacts [h.keep, h]

theorem RegsCanonical.clkFreeRun {s} (h : RegsCanonical s) : RegsCanonical (clkFreeRun s) := h.keep.clkState.updateSteer

theorem RegsCanonical.publishClk {s} (h : RegsCanonical s) : RegsCanonical (publishClk s) :=
  h.setR.setR.setR.setR.setR.setR64.setR64.setR.setR64.foldl fun _ _ h => h.setR.setR.setR.setR

end Sys2Proof.Machine
end

section
/-! SUPPORT. O60, the fabric: asking, granting, stalls and errors. -/

namespace Sys2Proof.Machine

open Sys2Proof

theorem RegsCanonical.capture {s mem kind m src a} (h : RegsCanonical s) : RegsCanonical (capture s mem kind m src a) :=
  h.keeps.capture.holds

theorem RegsCanonical.fabError {s kind m src a} (h : RegsCanonical s) : RegsCanonical (fabError s kind m src a) :=
  h.addCtr.keep.capture.logRun.raise

theorem RegsCanonical.fabBoundary {s} (h : RegsCanonical s) : RegsCanonical (fabBoundary s) := h.keep

theorem RegsCanonical.eccReport {s k ue m src a} (h : RegsCanonical s) : RegsCanonical (eccReport s k ue m src a) :=
  h.keeps.eccReport.holds

theorem RegsCanonical.eccRead {s a n m src} (h : RegsCanonical s) : RegsCanonical (eccRead s a n m src).2 := h.keeps.eccRead.holds

theorem RegsCanonical.openRead {s k size m ps} (h : RegsCanonical s) : RegsCanonical (openRead s k size m ps).2 :=
  h.keeps.openRead.holds

theorem RegsCanonical.openWrite {s k size ps} (h : RegsCanonical s) : RegsCanonical (openWrite s k size ps) :=
  h.keeps.openWrite.holds
theorem RegsCanonical.memWrite {s a b} (h : RegsCanonical s) : RegsCanonical (memWrite s a b) := h.keep
theorem RegsCanonical.memRead {s a n m src} (h : RegsCanonical s) : RegsCanonical (memRead s a n m src).2 := h.eccRead

theorem RegsCanonical.dramWord {s m src c w} (h : RegsCanonical s) : RegsCanonical (dramWord s m src c w) :=
  .ite h (.ite h.memWrite (.ite h.eccRead.addCtr h.eccRead.addCtr.memWrite))

theorem RegsCanonical.dramCells {s m src a w} (h : RegsCanonical s) : RegsCanonical (dramCells s m src a w) :=
  h.foldl fun _ _ h => h.dramWord

theorem RegsCanonical.dramWrite {s m src a d} (h : RegsCanonical s) : RegsCanonical (dramWrite s m src a d) :=
  .ite h.memWrite h.dramCells

theorem RegsCanonical.burstWrite {s b d} (h : RegsCanonical s) : RegsCanonical (burstWrite s b d) := .ite h.dramWrite h.memWrite
theorem RegsCanonical.publishDrains {s} (h : RegsCanonical s) : RegsCanonical (publishDrains s) := h.setR.foldl fun _ _ h => h.setR

theorem RegsCanonical.masterReset {s m src beats more} (h : RegsCanonical s) : RegsCanonical (masterReset s m src beats more) := by
  unfold Machine.masterReset; extract_lets; split
  · exact (h.foldl fun _ _ h => by split; exacts [.ite h h.burstWrite, h]).keep.publishDrains
  · exact .ite (h.foldl fun _ _ h => by split; exacts [.ite h h.burstWrite, h]).keep.addCtr.logEv.raise
      (h.foldl fun _ _ h => by split; exacts [.ite h h.burstWrite, h]).keep.publishDrains

theorem RegsCanonical.retire {s b} (h : RegsCanonical s) : RegsCanonical (retire s b) := .ite h h.keep.publishDrains
theorem RegsCanonical.fwRestart {s img} (h : RegsCanonical s) : RegsCanonical (fwRestart s img) := h.keep.masterReset

theorem RegsCanonical.burstEnd {s b} (h : RegsCanonical s) : RegsCanonical (burstEnd s b) := by
  unfold Machine.burstEnd; split
  · exact h.burstWrite
  · exact .ite h.memRead.keep.fwRestart (.ite h.memRead.keep.logSramFail h.memRead.keep)

theorem RegsCanonical.grant {s t} (h : RegsCanonical s) : RegsCanonical (grant s t) := by
  unfold Machine.grant; split; exacts [h, h.keep]

theorem RegsCanonical.scrubOne {s k} (h : RegsCanonical s) : RegsCanonical (scrubOne s k) :=
  ((h.foldl fun _ _ h => h.eccReport).foldl fun _ _ h => .ite h.logSramFail h).keep

theorem RegsCanonical.injectAt {s a mask} (h : RegsCanonical s) : RegsCanonical (injectAt s a mask) := h.keep
theorem RegsCanonical.publishFab {s} (h : RegsCanonical s) : RegsCanonical (publishFab s) := h.setR

end Sys2Proof.Machine
end

section
/-! SUPPORT. O60, the network ports: queues, counters, the transmit side. -/

namespace Sys2Proof.Machine

open Sys2Proof

theorem RegsCanonical.setPort {s p v} (h : RegsCanonical s) : RegsCanonical (setPort s p v) := .ite h.keep h.keep
theorem RegsCanonical.txLoss {s p ctr} (h : RegsCanonical s) : RegsCanonical (txLoss s p ctr) := h.addCtr.raise

theorem RegsCanonical.enqueue0 {s p f} (h : RegsCanonical s) : RegsCanonical (enqueue0 s p f).2 :=
  .iteSnd h (.iteSnd h.txLoss h.setPort)

theorem RegsCanonical.enqueue1 {s p f} (h : RegsCanonical s) : RegsCanonical (enqueue1 s p f) := .ite h (.ite h.txLoss h.setPort)

theorem RegsCanonical.enqueue2 {s p f} (h : RegsCanonical s) : RegsCanonical (enqueue2 s p f) :=
  .ite h.txLoss (.ite h.txLoss h.setPort)

theorem RegsCanonical.enqueue3 {s p f} (h : RegsCanonical s) : RegsCanonical (enqueue3 s p f) :=
  .ite h (.ite h.txLoss (.ite h.setPort h.setPort))

theorem RegsCanonical.sendUdp {s p mac u payload kind} {put : State → Nat → TxFrame → State} (h : RegsCanonical s)
    (hput : ∀ t u x, RegsCanonical t → RegsCanonical (put t u x)) : RegsCanonical (sendUdp s p mac u payload kind put) := by
  unfold Machine.sendUdp; split; exacts [h.txLoss, h.foldl fun _ _ h => hput _ _ _ h]

theorem RegsCanonical.complete {s p tag st lost} (h : RegsCanonical s) : RegsCanonical (complete s p tag st lost) := h.setPort

theorem RegsCanonical.completeLate {s p f} (h : RegsCanonical s) : RegsCanonical (completeLate s p f) := by
  unfold Machine.completeLate; split; exacts [h.addCtr.complete.raise, h]

theorem RegsCanonical.expireLate {s p t} (h : RegsCanonical s) : RegsCanonical (expireLate s p t) :=
  h.setPort.foldl fun _ _ h => h.completeLate

theorem RegsCanonical.leaving {s p f e} (h : RegsCanonical s) : RegsCanonical (leaving s p f e) := by
  unfold Machine.leaving; split; exacts [h.maxF, .ite (.ite h.setPort.complete h.addCtr.complete.raise) h.complete, h]

theorem RegsCanonical.frameBad {s n} (h : RegsCanonical s) : RegsCanonical (frameBad s n).2 := .iteSnd h h.keep.openRead
theorem RegsCanonical.startSound {s p q t f} (h : RegsCanonical s) : RegsCanonical (startSound s p q t f) := h.leaving.setPort

theorem RegsCanonical.startFrame {s p q t f} (h : RegsCanonical s) : RegsCanonical (startFrame s p q t f) :=
  .ite h.frameBad h.frameBad.startSound

theorem RegsCanonical.dropStale {n p t} {s : State} (h : RegsCanonical s) : RegsCanonical (dropStale s p t n) := by
  induction n generalizing s with
  | zero => exact h
  | succ n ih => unfold Machine.dropStale; extract_lets; split; exacts [.ite (ih h.setPort.txLoss) h, h]

theorem RegsCanonical.lower3 {s p t} {ok : Nat → TxFrame → Bool} (h : RegsCanonical s) : RegsCanonical (takeNext.lower3 s p t ok)
    := by
  unfold Machine.takeNext.lower3; extract_lets; split; exacts [.ite h.setPort.startFrame h, h]

theorem RegsCanonical.lower2 {s p t} {ok : Nat → TxFrame → Bool} (h : RegsCanonical s) : RegsCanonical (takeNext.lower2 s p t ok)
    := by
  unfold Machine.takeNext.lower2; extract_lets; split; exacts [.ite h.setPort.startFrame h.lower3, h.lower3]

theorem RegsCanonical.takeLower {s p t} (h : RegsCanonical s) : RegsCanonical (takeNext.takeLower s p t) := by
  unfold Machine.takeNext.takeLower; extract_lets; split
  · exact .ite (RegsCanonical.ite h h.dropStale).setPort.startFrame (RegsCanonical.ite h h.dropStale).lower2
  · exact (RegsCanonical.ite h h.dropStale).lower2

theorem RegsCanonical.takeNext {s p t} (h : RegsCanonical s) : RegsCanonical (takeNext s p t) :=
  .ite h.expireLate (by
    split
    · exact h.expireLate.setPort.startFrame
    · exact by split; exacts [.ite h.expireLate.setPort.startFrame h.expireLate.takeLower, h.expireLate.takeLower])

theorem RegsCanonical.endFrame {s : State} {p : Nat} (h : RegsCanonical s) : RegsCanonical (endFrame s p) := by
  unfold Machine.endFrame; extract_lets; split
  · exact h
  · split; exacts [h.setPort.addCtr.addCtr, h.setPort.addCtr.addCtr, h.setPort.addCtr.addCtr, h.setPort.addCtr]

theorem RegsCanonical.sendPause {s p quanta} (h : RegsCanonical s) : RegsCanonical (sendPause s p quanta) :=
  .ite h (h.foldl fun _ _ h => .ite h.txLoss h.setPort)

theorem RegsCanonical.fillControl {s p fill refresh} (h : RegsCanonical s) : RegsCanonical (fillControl s p fill refresh) :=
  .ite h (.ite (.ite h.setPort.sendPause (.ite h.sendPause h)) (.ite h.setPort.sendPause h))

theorem RegsCanonical.discardQueued {s p} (h : RegsCanonical s) : RegsCanonical (discardQueued s p) :=
  .ite h.setPort h.setPort.addCtr.raise

theorem RegsCanonical.linkBoundary {s p} (h : RegsCanonical s) : RegsCanonical (linkBoundary s p) := by
  unfold Machine.linkBoundary; extract_lets; split
  · exact h
  · exact h.setPort.setF.setFB.setFB.setFB.andThen fun h =>
      .ite h.setFB (RegsCanonical.ite h.setFB.logEv h.setFB.logEv.discardQueued).raise

theorem RegsCanonical.publishNet {s p} (h : RegsCanonical s) : RegsCanonical (publishNet s p) := h.setFB.setFB.setR

end Sys2Proof.Machine
end

section
/-! SUPPORT. O60, the replies the command engine sends. -/

namespace Sys2Proof.Machine

open Sys2Proof

theorem RegsCanonical.ringPlace {s b} (h : RegsCanonical s) : RegsCanonical (ringPlace s b).2 := .iteSnd h h.keep.setR.raise

theorem RegsCanonical.udpReply {s ctx ip port b} (h : RegsCanonical s) : RegsCanonical (udpReply s ctx ip port b) :=
  h.keep.foldl fun _ _ h => h.enqueue3

theorem RegsCanonical.spiPlace {s b} (h : RegsCanonical s) : RegsCanonical (spiPlace s b) := .ite h.keep h.keep.raise

theorem RegsCanonical.placeReply {s ctx b} (h : RegsCanonical s) : RegsCanonical (placeReply s ctx b) := by
  unfold Machine.placeReply; split; exacts [.ite h.keep (.ite h.ringPlace h.keep), h.spiPlace, h.udpReply]

theorem RegsCanonical.putSession {s v} (h : RegsCanonical s) : RegsCanonical (putSession s v) := h.keep

theorem RegsCanonical.noteReplied {s ctx b} (h : RegsCanonical s) : RegsCanonical (noteReplied s ctx b) := by
  unfold Machine.noteReplied; split; exacts [h, h.keep]

theorem RegsCanonical.replyCode {s ctx code payload} (h : RegsCanonical s) : RegsCanonical (replyCode s ctx code payload) :=
  (RegsCanonical.ite h.addCtr.raise h).noteReplied.placeReply

theorem RegsCanonical.reply {s ctx st payload} (h : RegsCanonical s) : RegsCanonical (reply s ctx st payload) := h.replyCode

theorem RegsCanonical.replyTo {s ctx st payload} (h : RegsCanonical s) : RegsCanonical (replyTo s ctx st payload) := by
  unfold Machine.replyTo; split; exacts [h.reply, h]

end Sys2Proof.Machine
end

section
/-! SUPPORT. O60, the clappers on the pair link and on the network. -/

namespace Sys2Proof.Machine

open Sys2Proof

theorem RegsCanonical.pairSend {s type body} (h : RegsCanonical s) : RegsCanonical (pairSend s type body) := h.keep
theorem RegsCanonical.clapLink {s release} (h : RegsCanonical s) : RegsCanonical (clapLink s release) := h.keep.pairSend

theorem RegsCanonical.clapNet {s release} (h : RegsCanonical s) : RegsCanonical (clapNet s release) :=
  h.keep.foldl fun _ _ h => .ite (h.keep.sendUdp (fun _ _ _ h => h.enqueue1)) h

theorem RegsCanonical.pairRelease {s} (h : RegsCanonical s) : RegsCanonical (pairRelease s) := .ite h h.clapLink.clapNet.keep

end Sys2Proof.Machine
end

section
/-! SUPPORT. O60, the DMA engines. -/

namespace Sys2Proof.Machine

open Sys2Proof

theorem RegsCanonical.setCore {s k c} (h : RegsCanonical s) : RegsCanonical (setCore s k c) := h.keep

theorem RegsCanonical.dmaPart {s k out local_ ra n} (h : RegsCanonical s) : RegsCanonical (dmaPart s k out local_ ra n).2 := by
  unfold Machine.dmaPart; split
  · exact h.fabError
  · exact .iteSnd (.iteSnd h.eccRead (.ite h.eccRead.dramWrite h.eccRead.memWrite)) (.iteSnd h.eccRead h.eccRead.memWrite)

theorem RegsCanonical.dmaTransfer {s k d limit} (h : RegsCanonical s) : RegsCanonical (dmaTransfer s k d limit).2 :=
  .iteSnd h (h.foldlSnd fun _ _ h => .iteSnd h.dmaPart h)

theorem RegsCanonical.dmaStop {k s d} (h : RegsCanonical s) : RegsCanonical (dmaStop k s d) := h.keep.dmaTransfer
theorem RegsCanonical.dmaDrain {s k} (h : RegsCanonical s) : RegsCanonical (dmaDrain s k) := h.keep.masterReset

theorem RegsCanonical.sourceReset {s k} (h : RegsCanonical s) : RegsCanonical (sourceReset s k) :=
  .ite h.masterReset (h.foldl fun _ _ h => h.dmaStop).dmaDrain

theorem RegsCanonical.dmaFail {s k ch} (h : RegsCanonical s) : RegsCanonical (dmaFail s k ch) := h.dmaDrain.setCore
theorem RegsCanonical.dmaError {s k} (h : RegsCanonical s) : RegsCanonical (dmaError s k) := h.dmaFail

end Sys2Proof.Machine
end

section
/-! SUPPORT. O60, the dispatcher. -/

namespace Sys2Proof.Machine

open Sys2Proof

theorem RegsCanonical.setBank {s b v} (h : RegsCanonical s) : RegsCanonical (setBank s b v) := .ite h.keep h.keep
theorem RegsCanonical.noteCore {s b t k} (h : RegsCanonical s) : RegsCanonical (noteCore s b t k) := h.setR
theorem RegsCanonical.noteCancel {s b t reason race} (h : RegsCanonical s) : RegsCanonical (noteCancel s b t reason race) := h.setR

theorem RegsCanonical.clearWindow {s : State} {b : Nat} (h : RegsCanonical s) : RegsCanonical (clearWindow s b) :=
  Sparse.wf_clearRange _ _ _ _ h

theorem RegsCanonical.setInst {s i} (h : RegsCanonical s) : RegsCanonical (setInst s i) := .ite h.keep.setR h.keep

theorem RegsCanonical.missFrame {s f cancelled late task} (h : RegsCanonical s) : RegsCanonical (missFrame s f cancelled late task)
    :=
  .ite h.keep h.keep.addCtr.raise

theorem RegsCanonical.instFault {s k} (h : RegsCanonical s) : RegsCanonical (instFault s k) := by
  unfold Machine.instFault; split; exacts [h, h.setInst.addCtr.raise.missFrame]

theorem RegsCanonical.logMissed {l} {s : State} (h : RegsCanonical s) : RegsCanonical (logMissed s l) := by
  induction l generalizing s with
  | nil => exact h.keep
  | cons x l ih => exact .ite (ih h.logRun) h.keep

theorem RegsCanonical.missRecords {s} (h : RegsCanonical s) : RegsCanonical (missRecords s) := h.logMissed

theorem RegsCanonical.takeToken {s b idx f} (h : RegsCanonical s) : RegsCanonical (takeToken s b idx f) := by
  unfold Machine.takeToken; split
  · exact h
  · exact by
      split
      · exact h
      · exact .ite (.ite h.addCtr.raise h.keep) (by
          extract_lets
          split
          · exact .ite (.ite h.addCtr h.setInst) h.addCtr
          · exact .ite h.addCtr h.setInst)

theorem RegsCanonical.cancelInst {s i} (h : RegsCanonical s) : RegsCanonical (cancelInst s i) :=
  .ite h.setInst.noteCancel.addCtr (.ite h.setInst.noteCancel.addCtr.raise h.setInst.noteCancel.addCtr)

theorem RegsCanonical.noteMissed {s cancelled late} (h : RegsCanonical s) : RegsCanonical (noteMissed s cancelled late) :=
  h.foldl fun _ _ h => h.missFrame

theorem RegsCanonical.deadline {s due} (h : RegsCanonical s) : RegsCanonical (deadline s due) :=
  ((h.foldl fun _ _ h => h.cancelInst).foldl fun _ _ h => h.setInst.addCtr.setCore).noteMissed

theorem RegsCanonical.abortInst {s i} (h : RegsCanonical s) : RegsCanonical (abortInst s i) :=
  h.sourceReset.setCore.setInst.addCtr.raise.logEv.missFrame

theorem RegsCanonical.deadlineToken {s t} (h : RegsCanonical s) : RegsCanonical (deadlineToken s t) := by
  unfold Machine.deadlineToken; split; exacts [h, h.keep.deadline, (h.keep.foldl fun _ _ h => h.abortInst).deadline]

theorem RegsCanonical.hostCancel {s c} (h : RegsCanonical s) : RegsCanonical (hostCancel s c) :=
  .ite h (h.foldl fun _ _ h => h.cancelInst).noteMissed.logEv

theorem RegsCanonical.releaseBank {s b} (h : RegsCanonical s) : RegsCanonical (releaseBank s b) := by
  unfold Machine.releaseBank; split; exacts [.ite h.keep.setBank h, h]

theorem RegsCanonical.startInst {s i k} (h : RegsCanonical s) : RegsCanonical (startInst s i k) := by
  unfold Machine.startInst; split; exacts [h, h.setCore.setInst.noteCore.keep.andThen fun h => .ite h.addCtr h]

theorem RegsCanonical.noteDepths {s} (h : RegsCanonical s) : RegsCanonical (noteDepths s) := h.foldl fun _ _ h => h.setR.maxF

theorem RegsCanonical.dispatcherCycle {s : State} (h : RegsCanonical s) : RegsCanonical (dispatcherCycle s) := by
  refine (RegsCanonical.noteDepths ?_).keep
  split
  case' h_1 => apply RegsCanonical.startInst
  all_goals
    refine (((h.keep.foldl fun _ _ h => ?_).foldl fun _ _ h => h.deadlineToken).keep.foldl
      fun _ _ h => h.hostCancel).releaseBank.releaseBank
    split; exacts [h.takeToken, h]

theorem RegsCanonical.injectSource {s code f} (h : RegsCanonical s) : RegsCanonical (injectSource s code f) := h.keep
theorem RegsCanonical.injectToken {s t} (h : RegsCanonical s) : RegsCanonical (injectToken s t) := h.keep
theorem RegsCanonical.sendArcs {s i idxs} (h : RegsCanonical s) : RegsCanonical (sendArcs s i idxs) := .ite h.keep h

theorem RegsCanonical.taskEnd {s k} (h : RegsCanonical s) : RegsCanonical (taskEnd s k) := by
  unfold Machine.taskEnd; extract_lets; split; exacts [h.setCore, h.setCore.sendArcs.setInst]

theorem RegsCanonical.taskSignal {s k arc} (h : RegsCanonical s) : RegsCanonical (taskSignal s k arc) := by
  unfold Machine.taskSignal; split; exacts [h, .ite h.sendArcs.setInst h.addCtr.raise.logEv]

theorem RegsCanonical.publishDisp {s active} (h : RegsCanonical s) : RegsCanonical (publishDisp s active) :=
  (h.setR.setR.setR.foldl fun _ _ h => h.setR).keep

end Sys2Proof.Machine
end

section
/-! SUPPORT. O60, the convolution engine. -/

namespace Sys2Proof.Machine

open Sys2Proof

theorem RegsCanonical.setChan {s c v} (h : RegsCanonical s) : RegsCanonical (setChan s c v) := h.keeps.setChan.holds
theorem RegsCanonical.sramWords {s c keys v} (h : RegsCanonical s) : RegsCanonical (sramWords s c keys v).2 :=
  h.keeps.sramWords.holds

theorem RegsCanonical.storeSlot {s c q x} (h : RegsCanonical s) : RegsCanonical (storeSlot s c q x) := by
  unfold Machine.storeSlot; split; exacts [.ite h.blockWrite h, h]

theorem RegsCanonical.convRead {s c a n} (h : RegsCanonical s) : RegsCanonical (convRead s c a n).2 := h.keeps.convRead.holds

theorem RegsCanonical.delayLine {s c p b k} (h : RegsCanonical s) : RegsCanonical (delayLine s c p b k).2 := h.keeps.delayLine.holds

theorem RegsCanonical.blockInto {s c p n reserve lines x} (h : RegsCanonical s) :
    RegsCanonical (blockInto s c p n reserve lines x).2 := h.keeps.blockInto.holds

theorem RegsCanonical.histWords {s c n} (h : RegsCanonical s) : RegsCanonical (histWords s c n).2.2 := h.keeps.histWords.holds

theorem RegsCanonical.blockWindow {s : State} {c p : Nat} {n : Int} (h : RegsCanonical s) :
    RegsCanonical (blockWindow s c p n).2 := h.keeps.blockWindow.holds

theorem RegsCanonical.intoActive {s c p n lines x} (h : RegsCanonical s) : RegsCanonical (intoActive s c p n lines x).2 :=
  h.keeps.intoActive.holds

theorem RegsCanonical.intoReserve {s c p n lines chg} (h : RegsCanonical s) : RegsCanonical (intoReserve s c p n lines chg).2 :=
  h.keeps.intoReserve.holds

theorem RegsCanonical.blockWork {s c p n} (h : RegsCanonical s) : RegsCanonical (blockWork s c p n) := h.keeps.blockWork.holds

theorem RegsCanonical.takeInput {s c n x} (h : RegsCanonical s) : RegsCanonical (takeInput s c n x) := h.keeps.takeInput.holds

theorem RegsCanonical.ringHeard {s : State} {c which : Nat} {n : Int} {x : Option ConvCtx} (h : RegsCanonical s) :
    RegsCanonical (ringHeard s c which n x).2 := h.keeps.ringHeard.holds

theorem RegsCanonical.channelFeed {s : State} {c : Nat} {n : Int} {x : List Int} (h : RegsCanonical s) :
    RegsCanonical (channelFeed s c n x).2.2 := h.keeps.channelFeed.holds

theorem RegsCanonical.noteSat {s k} (h : RegsCanonical s) : RegsCanonical (correctBus.noteSat s k) := h.keeps.noteSat.holds

theorem RegsCanonical.correctBus {s : State} {c : Nat} {n : Int} {x : List Int} (h : RegsCanonical s) :
    RegsCanonical (correctBus s c n x).2 := h.keeps.correctBus.holds

theorem RegsCanonical.genFrame {s n} (h : RegsCanonical s) : RegsCanonical (genFrame s n) := .ite h.keep h.keep

theorem RegsCanonical.channelBoundary {s c n} (h : RegsCanonical s) : RegsCanonical (channelBoundary s c n) := by
  unfold Machine.channelBoundary; extract_lets; split
  · exact h.setChan
  · exact by extract_lets; split; exacts [.ite h.setChan.addCtr.raise h.setChan, h.setChan]

theorem RegsCanonical.clearMiss {s} (h : RegsCanonical s) : RegsCanonical (clearMiss s) := h.keep

theorem RegsCanonical.convBoundary {s n} (h : RegsCanonical s) : RegsCanonical (convBoundary s n) :=
  (h.foldl fun _ _ h => h.channelBoundary).genFrame

theorem RegsCanonical.chgReject {s st} (h : RegsCanonical s) : RegsCanonical (chgReject s st) := by
  unfold Machine.chgReject; split; exacts [h.addCtr, h.addCtr.raise, h.addCtr.raise, h.addCtr.raise, h]

theorem RegsCanonical.setChange {s c slot fx x} (h : RegsCanonical s) : RegsCanonical (setChange s c slot fx x).2 := by
  unfold Machine.setChange; extract_lets; split
  · exact h.chgReject
  · exact (RegsCanonical.ite h.setChan.addCtr h.setChan).stamp.logCommit

theorem RegsCanonical.setEnd {s} (h : RegsCanonical s) : RegsCanonical (setEnd s).2 := by
  unfold Machine.setEnd; split; exacts [h, by extract_lets; split; exacts [h.keep, .iteSnd h.keep.addCtr h.keep.setChan]]

theorem RegsCanonical.conversionDone {s c slot} (h : RegsCanonical s) : RegsCanonical (conversionDone s c slot) := by
  unfold Machine.conversionDone; extract_lets; split; exacts [h.setChan.storeSlot.raise, h]

theorem RegsCanonical.clearRings {s} (h : RegsCanonical s) : RegsCanonical (clearRings s) :=
  h.keep.whole.foldl fun _ _ h => h.storeSlot

theorem RegsCanonical.moveRings {s old} (h : RegsCanonical s) : RegsCanonical (moveRings s old) := .ite h h.keep.whole

theorem RegsCanonical.channelCut {s q c} (h : RegsCanonical s) : RegsCanonical (channelCut s q c).1 :=
  .iteFst h.setChan (.iteFst h.setChan (by extract_lets; split; exacts [.iteFst h.setChan h.setChan, h.setChan]))

theorem RegsCanonical.convCut {s : State} {q : ConvCut} (h : RegsCanonical s) : RegsCanonical (convCut s q) := by
  unfold Machine.convCut; extract_lets s₁ one
  have h₁ : RegsCanonical s₁ := by unfold s₁; split; exacts [.ite h.clearRings h.moveRings, h.clearRings]
  have hq : RegsCanonical ((List.range (busCount s₁)).foldl one (s₁, 0, 0, false, [])).1 :=
    h₁.foldlFst fun _ _ h => h.channelCut
  generalize (List.range (busCount s₁)).foldl one (s₁, 0, 0, false, []) = r at hq ⊢
  obtain ⟨s₂, rep, lost, aff, items⟩ := r
  exact ((RegsCanonical.ite hq hq.addCtr).foldl fun _ _ h => h.setChan).andThen fun h =>
    (RegsCanonical.ite h.keep h).andThen fun h => (RegsCanonical.ite h.logEv h).andThen fun h => .ite h h.raise

theorem RegsCanonical.publishConv {s : State} {n : Int} {active : Bool} (h : RegsCanonical s) : RegsCanonical (publishConv s n active) := by
  unfold Machine.publishConv; extract_lets s₁ s₂ len s₃ s₄ s₅ rows
  have h₄ : RegsCanonical s₄ := h.setR.setR.setR.setR.setR
  have h₅ : RegsCanonical s₅ := .ite h₄.setR64 h₄
  refine wf_replaceRange_rising _ _ _ _ (Nat.le_add_right _ _) h₅
    (rising_flatMap (key := id) (base := Reg.CONV_CH0) (stride := 32) List.pairwise_lt_range (fun c => ?_) fun c p hp => ?_)
  · split
    · exact rising_wordsAt _ _
    · split
      · exact List.pairwise_singleton _ _
      · exact List.Pairwise.nil
  · split at hp
    · have hin := mem_wordsAt hp
      rw [List.length_take] at hin
      simp only [id]; omega
    · split at hp
      · simp at hp; simp [hp]
      · cases hp

theorem RegsCanonical.convUsed {s n} (h : RegsCanonical s) : RegsCanonical (convUsed s n) := h.keeps.convUsed.holds

theorem RegsCanonical.capCommit {s pos idx} (h : RegsCanonical s) : RegsCanonical (capCommit s pos idx) :=
  .ite (by split; exacts [h, h.keep.setR64]) h.keep

theorem RegsCanonical.capStore {s ring i v} (h : RegsCanonical s) : RegsCanonical (capStore s ring i v) := h.keeps.capStore.holds

end Sys2Proof.Machine
end

section
/-! SUPPORT. O60, the crosspoint and its paths. -/

namespace Sys2Proof.Machine

open Sys2Proof

theorem RegsCanonical.nodeReject {s out inp log} (h : RegsCanonical s) : RegsCanonical (nodeReject s out inp log) :=
  .ite h.addCtr.raise.logEv h.addCtr.raise

theorem RegsCanonical.ngainCommit {s v} (h : RegsCanonical s) : RegsCanonical (ngainCommit s v) :=
  (RegsCanonical.ite h.nodeReject (.ite h.nodeReject (.ite h.nodeReject h.keep))).andThen fun h => .ite h.setF h

theorem RegsCanonical.decideMute {s} (h : RegsCanonical s) : RegsCanonical (decideMute s) := h.keep
theorem RegsCanonical.houseAssert {s} (h : RegsCanonical s) : RegsCanonical (houseAssert s) := .ite h h.keep.addCtr.raise.logEv
theorem RegsCanonical.houseRelease {s} (h : RegsCanonical s) : RegsCanonical (houseRelease s) := .ite h h.keep.logEv
theorem RegsCanonical.fmuteSet {s b} (h : RegsCanonical s) : RegsCanonical (fmuteSet s b) := .ite h h.setEvent.addCtr.raise.logEv
theorem RegsCanonical.fmuteClear {s v} (h : RegsCanonical s) : RegsCanonical (fmuteClear s v) := h.setF
theorem RegsCanonical.ceilLimCommit {s v} (h : RegsCanonical s) : RegsCanonical (ceilLimCommit s v) := .ite h h.setR

theorem RegsCanonical.holdClear {s : State} (h : RegsCanonical s) : RegsCanonical (holdClear s) :=
  Sparse.wf_filter _ _ _ h

theorem RegsCanonical.meterBoundary {s : State} {peaks : Sparse (Nat × Bool)} (h : RegsCanonical s) :
    RegsCanonical (meterBoundary s peaks) := by
  refine .ite h ?_
  refine wf_replaceRange_rising _ _ _ _ (Nat.le_add_right _ _) h ?_
  refine rising_flatMap (key := (·.1)) (base := Reg.XPT_METER_LEVEL) (stride := 16) ?_ (fun x => ?_) (fun x p hp => ?_)
  · exact List.pairwise_map.2 List.pairwise_lt_range
  · simp [Rising]
  · simp at hp
    rcases hp with rfl | rfl | rfl <;> simp

theorem RegsCanonical.publishXpt {s active} (h : RegsCanonical s) : RegsCanonical (publishXpt s active) := h.setR.setR

end Sys2Proof.Machine
end

section
/-! SUPPORT. O60, the streams in both directions. -/

namespace Sys2Proof.Machine

open Sys2Proof

theorem RegsCanonical.setRx {s r x} (h : RegsCanonical s) : RegsCanonical (setRx s r x) := h.keep

theorem RegsCanonical.rxAccept {s r leg seq x} (h : RegsCanonical s) : RegsCanonical (rxAccept s r leg seq x) :=
  (RegsCanonical.ite h.addCtr.setF.logEv h.addCtr.setF).setRx

theorem RegsCanonical.rxSequence {s : State} {r leg : Nat} {x : RxSt} {m : RtpPkt} (h : RegsCanonical s) :
    RegsCanonical (rxSequence s r leg x m).1 := by
  unfold Machine.rxSequence; extract_lets _ d s₁ y s₂
  show RegsCanonical s₂
  unfold s₂; split; exacts [(RegsCanonical.ite h.addCtr h).maxF, .ite h.addCtr h]

theorem RegsCanonical.extWrite {s e rows} (h : RegsCanonical s) : RegsCanonical (extWrite s e rows) :=
  h.foldl fun _ _ h => h.foldl fun _ _ h => h.dramCells

theorem RegsCanonical.putRows {a r e rows} (h : RegsCanonical a.2) : RegsCanonical (putRows a r e rows).2 :=
  .iteSnd h.extWrite (h.foldlSnd fun _ _ h => h.openWrite)

theorem RegsCanonical.readStore {s r x n} (h : RegsCanonical s) : RegsCanonical (readStore s r x n).2 :=
  .iteSnd h (.iteSnd (h.foldlSnd fun _ _ h => .iteSnd h.eccRead.addCtr.raise h.eccRead) (h.foldlSnd fun _ _ h => h.openRead))

theorem RegsCanonical.rxAudio {s r leg x m} (h : RegsCanonical s) : RegsCanonical (rxAudio s r leg x m) :=
  .ite h.setRx.addF (.ite h.setRx.addF (by extract_lets; split; exacts [h.rxAccept, h.rxAccept.putRows.setRx]))

theorem RegsCanonical.streamPacket {s r leg m} (h : RegsCanonical s) : RegsCanonical (streamPacket s r leg m) := by
  unfold Machine.streamPacket; split
  · exact h.addCtr
  · exact .ite h.addCtr
      (.ite h.addF.addCtr
        (.ite h.rxSequence.rxAudio
          (.ite h.rxSequence.rxAccept (RegsCanonical.ite h.rxSequence.rxAccept.setR h.rxSequence.rxAccept).keep)))

theorem RegsCanonical.streamLegDown {s r leg} (h : RegsCanonical s) : RegsCanonical (streamLegDown s r leg) := by
  unfold Machine.streamLegDown; split; exacts [h, .ite h (.ite h.setRx.logEv.raise (.ite h.setRx.logEv.raise h.setRx))]

theorem RegsCanonical.rxCapture {s r x p lab} (h : RegsCanonical s) : RegsCanonical (rxCapture s r x p lab).2 := by
  unfold Machine.rxCapture; extract_lets; split
  · exact (RegsCanonical.ite h.setRx.addCtr h.setRx.addCtr.addCtr.raise).logRun
  · exact .iteSnd h.readStore.setRx (RegsCanonical.ite h.readStore.setRx.addCtr h.readStore.setRx.addCtr.addCtr.raise).logRun
  · exact h.setRx

theorem RegsCanonical.strmCapture {s t p lab c} (h : RegsCanonical s) : RegsCanonical (strmCapture s t p lab c).2 :=
  h.foldlSnd fun _ _ h => by split; exacts [h, .iteSnd h h.rxCapture]

theorem RegsCanonical.carryRx {was : State} {p : Int} {old : RxEnt} {a : List RxSt × State} {r : Nat} {x : RxSt}
    (h : RegsCanonical a.2) : RegsCanonical (carryRx was p old a r x).2 :=
  .iteSnd h h.putRows

theorem RegsCanonical.txAbsent {s lo hi} (h : RegsCanonical s) : RegsCanonical (txAbsent s lo hi) := h.foldl fun _ _ h => h.setR
theorem RegsCanonical.strmDark {s} (h : RegsCanonical s) : RegsCanonical (strmDark s) := (h.foldl fun _ _ h => h.setR).txAbsent
theorem RegsCanonical.first {lab s e} (h : RegsCanonical s) : RegsCanonical (strmCut.first lab s e) := h.setF

theorem RegsCanonical.strmCut {s : State} {t : StreamSec} {p : Int} {lab : Nat} {rateNew : Bool} (h : RegsCanonical s) :
    RegsCanonical (strmCut s t p lab rateNew) := by
  unfold Machine.strmCut; extract_lets _ s₁ was before inst rows _ s₂ s₃
  have h₁ : RegsCanonical s₁ := .ite h.keep h
  have hrows : Rising rows := by
    refine rising_flatMap (key := (·.2)) (base := Reg.STRM_RX0) (stride := 32) (zipIdx_rising inst) (fun q => ?_) fun q p hp => ?_
    · exact List.pairwise_map.2 (List.pairwise_lt_range.imp fun h => by simp only [rxR]; omega)
    · obtain ⟨w, hw, rfl⟩ := List.mem_map.1 hp
      have := List.mem_range.1 hw
      simp only [rxR]; omega
  have h₂ : RegsCanonical s₂ := wf_replaceRange_rising _ _ _ _ (by simp only [rxR]; omega) h₁ hrows
  have h₃ : RegsCanonical s₃ := h₂.setR64.setR
  clear_value was
  split
  rename_i rx s₄ hq
  have h₄ : RegsCanonical s₄ := by
    refine RegsCanonical.of_eq (RegsCanonical.foldlSnd (a := ([], s₃)) h₃ fun a q h => ?_) hq
    split; exacts [h.carryRx, h]
  exact h₄.keep.txAbsent.foldl fun _ _ h => by split; exacts [.ite h h.first, h.first]

theorem RegsCanonical.txPacket {s t e map shown idx} (h : RegsCanonical s) : RegsCanonical (txPacket s t e map shown idx) :=
  (RegsCanonical.ite h.addCtr.setR.setF h).andThen fun h =>
    .ite (.ite h (h.sendUdp (fun _ _ _ h => h.enqueue1)))
      ((RegsCanonical.ite h (h.sendUdp (fun _ _ _ h => h.enqueue1))).sendUdp (fun _ _ _ h => h.enqueue1))

theorem RegsCanonical.strmTransmit {s : State} {p : Int} {lab : Nat} {out : Sparse (List Int)} (h : RegsCanonical s) :
    RegsCanonical (strmTransmit s p lab out) := by
  unfold Machine.strmTransmit; extract_lets _ s₁ i0 sets newest one s₂
  have hone : ∀ u t k, RegsCanonical u → RegsCanonical (one u t k) := by
    intro u t k h
    unfold one; split
    · exact h
    split
    · exact h
    exact .ite h (h.foldl fun _ _ h => .ite h h.txPacket)
  have h₂ : RegsCanonical s₂ := RegsCanonical.foldl h.keep fun _ _ h => hone _ _ _ (hone _ _ _ h)
  exact .ite h₂.keep h₂

theorem RegsCanonical.publishStrm {s active} (h : RegsCanonical s) : RegsCanonical (publishStrm s active) :=
  (h.setR.setR.foldl fun _ _ h => h.setR).foldl fun _ _ h => h.setR

theorem RegsCanonical.metaCount {s ctr} (h : RegsCanonical s) : RegsCanonical (metaCount s ctr) := h.addCtr.raise

theorem RegsCanonical.metaDrop {s ctr reason obj frame} (h : RegsCanonical s) : RegsCanonical (metaDrop s ctr reason obj frame) :=
  h.metaCount.logRun.keep

theorem RegsCanonical.metaCollide {s} (h : RegsCanonical s) : RegsCanonical (metaCollide s) := h.addCtr.raise

theorem RegsCanonical.metaPacket {s b pk} (h : RegsCanonical s) : RegsCanonical (metaPacket s b pk) :=
  .ite h.metaCount
    (.ite h.metaDrop
      (.ite h.metaDrop
        ((h.foldlFst fun _ _ h => by split; exacts [h.metaCount, .iteFst h.metaCollide h]).foldl fun _ _ h =>
          .ite h.metaDrop h.keep)))

theorem RegsCanonical.ompReceive {s} (h : RegsCanonical s) : RegsCanonical (ompReceive s) := by
  unfold Machine.ompReceive; split; exacts [h.keep.metaPacket, h]

theorem RegsCanonical.metaInject {s b} (h : RegsCanonical s) : RegsCanonical (metaInject s b) := h.keep.metaPacket

end Sys2Proof.Machine
end

section
/-! SUPPORT. O60, the memory controller. Its training results come in blocks of registers with rising offsets. -/

namespace Sys2Proof.Machine

open Sys2Proof

theorem RegsCanonical.useCheck {s a} (h : RegsCanonical s) : RegsCanonical (useCheck s a) := h.keep

theorem RegsCanonical.missEv {s log unit engine what frame} (h : RegsCanonical s) : RegsCanonical (missEv s log unit engine what
    frame) :=
  .ite h.logEv h

theorem RegsCanonical.conv {s due log m c} (h : RegsCanonical s) : RegsCanonical (noteMiss.conv s due log m c) :=
  h.keep.addCtr.raise.missEv

theorem RegsCanonical.noteMiss {s use due a n log} (h : RegsCanonical s) : RegsCanonical (noteMiss s use due a n log) := by
  unfold Machine.noteMiss; split
  · exact .ite h h.keep.addCtr.raise.missEv
  · exact h.conv
  · exact h.conv
  · exact h.conv
  · exact h.conv
  · exact h.conv
  · exact (RegsCanonical.addCtr (by split; exacts [h.setRx, h])).raise.missEv
  · exact h

theorem RegsCanonical.expireReqs {s} (h : RegsCanonical s) : RegsCanonical (expireReqs s) := h.keep.foldl fun _ _ h => h.noteMiss

theorem RegsCanonical.masterError {s m src a} (h : RegsCanonical s) : RegsCanonical (masterError s m src a) :=
  .ite h.dmaError (by split; exacts [h.noteMiss, h.noteMiss, h])

theorem RegsCanonical.dramRequest {s q} (h : RegsCanonical s) : RegsCanonical (dramRequest s q) :=
  .ite h (.ite h.fabError.masterError (RegsCanonical.keep (by split; exacts [h.keep.addCtr, h.keep.addCtr, h])))

theorem RegsCanonical.agePromotion {s id t} (h : RegsCanonical s) : RegsCanonical (agePromotion s id t) := .ite h.keep.addCtr h
theorem RegsCanonical.rhRefresh {s bank row} (h : RegsCanonical s) : RegsCanonical (rhRefresh s bank row) := .ite h h.keep.addCtr

theorem RegsCanonical.rhActivate {s bank row} (h : RegsCanonical s) : RegsCanonical (rhActivate s bank row) :=
  (h.foldl fun _ _ h => h.rhRefresh).keep

theorem RegsCanonical.returnReads {n} {s : State} (h : RegsCanonical s) : RegsCanonical (returnReads n s) := by
  induction n generalizing s with
  | zero => exact h
  | succ n ih => unfold Machine.returnReads; extract_lets; split; exacts [ih h.keep, h]

theorem RegsCanonical.dramData {s r} (h : RegsCanonical s) : RegsCanonical (dramData s r) :=
  .ite h.memRead.keep.returnReads h.dramCells

theorem RegsCanonical.drainDram {s} (h : RegsCanonical s) : RegsCanonical (drainDram s) := h.foldl fun _ _ h => h.keep.dramData

theorem RegsCanonical.dramComplete {s ch hit} (h : RegsCanonical s) : RegsCanonical (dramComplete s ch hit) := by
  unfold Machine.dramComplete; split
  · exact h
  · exact by
      extract_lets
      split
      · exact .ite
          (RegsCanonical.ite (RegsCanonical.ite h h.rhActivate).keep.dramData.useCheck
            (RegsCanonical.ite h h.rhActivate).keep.dramData.useCheck.noteMiss).addCtr.raise
          (RegsCanonical.ite h h.rhActivate).keep.dramData.useCheck
      · exact (RegsCanonical.ite h h.rhActivate).keep.dramData.useCheck

theorem RegsCanonical.dramRefresh {s} (h : RegsCanonical s) : RegsCanonical (dramRefresh s) := by
  unfold Machine.dramRefresh; split; exacts [h.keep, h.keep, h]

theorem RegsCanonical.trackLane {s l n} (h : RegsCanonical s) : RegsCanonical (trackLane s l n) :=
  (RegsCanonical.ite h.setF.setF h.setF.setF.addCtr).andThen fun h =>
    (RegsCanonical.ite h.logEv.raise h).andThen fun h => .ite h.keep h

theorem RegsCanonical.oscRead {s counts} (h : RegsCanonical s) : RegsCanonical (oscRead s counts) :=
  .ite h (h.foldl fun _ _ h => h.trackLane)

theorem RegsCanonical.mr4Poll {s rates} (h : RegsCanonical s) : RegsCanonical (mr4Poll s rates) := by
  unfold Machine.mr4Poll; split; exacts [.ite h h.keep.logEv.raise, h.keep]

theorem RegsCanonical.powerDown {s rank} (h : RegsCanonical s) : RegsCanonical (powerDown s rank) := .ite h h.keep

theorem RegsCanonical.selfRefresh {s issued} (h : RegsCanonical s) : RegsCanonical (selfRefresh s issued) :=
  .ite h (by split; exacts [h.keep, h.keep, h.keep, h])

theorem RegsCanonical.memCfgRej {s} (h : RegsCanonical s) : RegsCanonical (memCfgRej s) := h.raise
theorem RegsCanonical.memCfgCommit {s v} (h : RegsCanonical s) : RegsCanonical (memCfgCommit s v) := .ite h.memCfgRej h.setR

theorem RegsCanonical.memTrain {s sets ctx} (h : RegsCanonical s) : RegsCanonical (memTrain s sets ctx) :=
  .ite (by split; exacts [(RegsCanonical.ite h h.memCfgRej).reply, h.memCfgRej]) h.keep

theorem RegsCanonical.trainCtrlCommit {s v} (h : RegsCanonical s) : RegsCanonical (trainCtrlCommit s v) :=
  .ite h.setF.memTrain h.setF

theorem RegsCanonical.trainStore {s fsp t} (h : RegsCanonical s) : RegsCanonical (trainStore s fsp t) :=
  (h.foldl fun _ _ h => h.setF.setF.setF.setF.setF).keep

theorem RegsCanonical.dramWindows {s} (h : RegsCanonical s) : RegsCanonical (dramWindows s) :=
  h.foldl fun _ _ h => h.foldl fun _ _ h => .ite h.setR h

theorem RegsCanonical.setUsable {s} (h : RegsCanonical s) : RegsCanonical (setUsable s) := h.setR64.dramWindows

theorem RegsCanonical.trainFail {s fsp t} (h : RegsCanonical s) : RegsCanonical (trainFail s fsp t) :=
  h.keep.setF.setUsable.logEv.raise

theorem RegsCanonical.trainSets {l} {s : State} (h : RegsCanonical s) : RegsCanonical (trainSets l s) := by
  induction l generalizing s with
  | nil => exact h.keep.setF.setUsable
  | cons r l ih => exact .ite h.trainFail (ih h.trainStore)

theorem RegsCanonical.trainApply {s res ms} (h : RegsCanonical s) : RegsCanonical (trainApply s res ms) :=
  .ite h.setF h.setF.trainSets

theorem RegsCanonical.trainingDone {s fsp1 fsp0 ms} (h : RegsCanonical s) : RegsCanonical (trainingDone s fsp1 fsp0 ms) := by
  unfold Machine.trainingDone; split; exacts [h, h.keep.trainApply.raise.keep.replyTo]

theorem RegsCanonical.fspStatus {s st ctx done} (h : RegsCanonical s) : RegsCanonical (fspStatus s st ctx done) :=
  (RegsCanonical.ite h.setF.raise h.setF).replyTo

theorem RegsCanonical.fspRequest {s target ctx} (h : RegsCanonical s) : RegsCanonical (fspRequest s target ctx) :=
  .ite h.fspStatus (.ite h.fspStatus (.ite h.fspStatus (.ite h.memCfgRej.fspStatus (.ite h.keep.addCtr h.keep))))

theorem RegsCanonical.fspReqCommit {s v} (h : RegsCanonical s) : RegsCanonical (fspReqCommit s v) := .ite h.setF.fspRequest h.setF

theorem RegsCanonical.fspDone {s t ms} (h : RegsCanonical s) : RegsCanonical (fspDone s t ms) := by
  unfold Machine.fspDone; split
  · exact h
  · exact .ite h
      (.ite h.keep.fspStatus
        ((RegsCanonical.ite h.keep (.ite h.keep.trainApply.raise h.keep.trainApply.raise)).andThen fun h =>
          (RegsCanonical.ite h.logEv h).fspStatus))

theorem RegsCanonical.publishMem {s} (h : RegsCanonical s) : RegsCanonical (publishMem s) := h.setR.setFB.setR.setR.setR.maxF

end Sys2Proof.Machine
end

section
/-! SUPPORT. O60, the geometry unit. -/

namespace Sys2Proof.Machine

open Sys2Proof

theorem RegsCanonical.markChanged {s o} (h : RegsCanonical s) : RegsCanonical (markChanged s o) := h.keep

theorem RegsCanonical.objStore {s o ws} (h : RegsCanonical s) : RegsCanonical (objStore s o ws) :=
  (h.foldl fun _ _ h => h.setR).andThen fun h => .ite h.markChanged h

theorem RegsCanonical.objReject {s} (h : RegsCanonical s) : RegsCanonical (objReject s) := h.addCtr.raise

theorem RegsCanonical.objWrite {s o w v} (h : RegsCanonical s) : RegsCanonical (objWrite s o w v) :=
  .ite h (by split; exacts [h.objStore, h.objStore, h.objStore, h.objStore, h.objStore, .ite h.objReject h.objStore, h])

theorem RegsCanonical.metaApply {s m} (h : RegsCanonical s) : RegsCanonical (metaApply s m) :=
  .ite h.objReject h.stamp.objStore.keep

theorem RegsCanonical.metaChoose {best m} (h : RegsCanonical best.2) : RegsCanonical (metaChoose best m).2 := by
  unfold Machine.metaChoose; split; exacts [h, h.metaCollide]

theorem RegsCanonical.dropRunEnd {s} (h : RegsCanonical s) : RegsCanonical (dropRunEnd s) := (RegsCanonical.ite h h.keep).keep

theorem RegsCanonical.metaTick {s} (h : RegsCanonical s) : RegsCanonical (metaTick s).2 := by
  refine .iteSnd h ?_
  exact .foldl (.foldlSnd (a := ([], _)) h fun _ _ h => .iteSnd h.metaDrop h.metaChoose) fun _ _ h => h.metaApply

theorem RegsCanonical.kspmCommit {s v} (h : RegsCanonical s) : RegsCanonical (kspmCommit s v) :=
  .ite h (h.setR.foldl fun _ _ h => .ite h.markChanged h)

theorem RegsCanonical.floorCommit {s v} (h : RegsCanonical s) : RegsCanonical (floorCommit s v) :=
  .ite h (h.setR.foldl fun _ _ h => h.markChanged)

theorem RegsCanonical.changeEnabled {s} (h : RegsCanonical s) : RegsCanonical (changeEnabled s) :=
  h.foldl fun _ _ h => .ite h.markChanged h

theorem RegsCanonical.geomCtrlCommit {s v} (h : RegsCanonical s) : RegsCanonical (geomCtrlCommit s v) :=
  .ite h.setFB.changeEnabled h.setFB

theorem RegsCanonical.setTargets {s o t} (h : RegsCanonical s) : RegsCanonical (setTargets s o t) := h.keep
theorem RegsCanonical.geomCount {s a b n} (h : RegsCanonical s) : RegsCanonical (geomCount s a b n) := .ite h h.addCtr.raise

theorem RegsCanonical.evalOne {s g o prio} (h : RegsCanonical s) : RegsCanonical (evalOne s g o prio) :=
  h.setTargets.keep.geomCount.geomCount.geomCount.geomCount.setR

theorem RegsCanonical.geoRead {s o} (h : RegsCanonical s) : RegsCanonical (geoRead s o).2 := .iteSnd h h.openRead

theorem RegsCanonical.evalAll {g l left} {s : State} (h : RegsCanonical s) : RegsCanonical (evalAll g l left s).1 := by
  induction l generalizing left s with
  | nil => exact h
  | cons o l ih => exact .iteFst (ih (.ite h.geoRead h.geoRead.evalOne)) h

theorem RegsCanonical.statClear {s} (h : RegsCanonical s) : RegsCanonical (statClear s) := h.foldl fun _ _ h => h.setR
theorem RegsCanonical.statSet {s b os} (h : RegsCanonical s) : RegsCanonical (statSet s b os) := h.foldl fun _ _ h => h.setR

theorem RegsCanonical.statPaths {s} (h : RegsCanonical s) : RegsCanonical (statPaths s) :=
  (h.foldl fun _ _ h => h.setR).foldl fun _ _ h => h.setR

theorem RegsCanonical.pathCount {s a b n} (h : RegsCanonical s) : RegsCanonical (pathCount s a b n) := h.keeps.pathCount.holds

theorem RegsCanonical.pathTick {s t objs} {kept : Nat → Bool} (h : RegsCanonical s) : RegsCanonical (pathTick s t kept objs) :=
  (RegsCanonical.ite (RegsCanonical.ite h h.addCtr.raise).logRun h).pathCount.addCtr.pathCount.pathCount.setR.keep.blockWrite

theorem RegsCanonical.geomTick {s late} (h : RegsCanonical s) : RegsCanonical (geomTick s late) := by
  unfold Machine.geomTick; split
  · exact h
  · exact .ite h
      ((RegsCanonical.iteFst h.keep.statClear (h.keep.statClear.foldl fun _ _ h => h.setTargets).keep.evalAll).statSet.andThen fun h =>
        RegsCanonical.andThen (by split; exacts [h.geomCount.logRun, h.geomCount]) fun h =>
          (RegsCanonical.ite h.keep h.keep.statSet.geomCount.logRun).keep.statPaths.setR.maxF.setR.setR.setR64.pathTick)

theorem RegsCanonical.pathMaster {s} (h : RegsCanonical s) : RegsCanonical (pathMaster s).2 := h.keeps.pathMaster.holds

theorem RegsCanonical.takeList {s t} (h : RegsCanonical s) : RegsCanonical (takeList s t).2 :=
  h.foldlSnd fun _ _ h => h.pathMaster.eccRead

theorem RegsCanonical.farLoad {s : State} {w : FarWin} (h : RegsCanonical s) : RegsCanonical (farLoad s w) := by
  unfold Machine.farLoad; extract_lets base c n m a b s₁
  have hb : RegsCanonical b.2 := .iteSnd h.pathMaster.eccRead h.pathMaster.eccRead.eccRead
  exact (RegsCanonical.ite hb.blockWrite.addCtr.raise hb.blockWrite).keep

theorem RegsCanonical.farFetch {s} (h : RegsCanonical s) : RegsCanonical (farFetch s) :=
  (h.keep.foldl fun _ _ h => h.farLoad).setR64

theorem RegsCanonical.publishGeom {s} (h : RegsCanonical s) : RegsCanonical (publishGeom s) := h.setR.setR.setR

end Sys2Proof.Machine
end

section
/-! SUPPORT. O60, local audio: TDM, decimators, pulse-density outputs. -/

namespace Sys2Proof.Machine

open Sys2Proof

theorem RegsCanonical.setTdm {s p v} (h : RegsCanonical s) : RegsCanonical (setTdm s p v) := h.keep
theorem RegsCanonical.tdmEnter {s p q} (h : RegsCanonical s) : RegsCanonical (tdmEnter s p q) := .ite h.setTdm h.setTdm.raise
theorem RegsCanonical.zxForce {s n} (h : RegsCanonical s) : RegsCanonical (zxForce s n) := .ite h h.addCtr.raise

theorem RegsCanonical.tdmSlip {s p lab slow} (h : RegsCanonical s) : RegsCanonical (tdmSlip s p lab slow) :=
  (RegsCanonical.ite h.addCtr h).andThen fun h =>
    (RegsCanonical.ite h.addCtr h).andThen fun h => .ite h.logRun h.logRun.setTdm.raise

theorem RegsCanonical.maskReleaseAt {s p i m} (h : RegsCanonical s) : RegsCanonical (maskReleaseAt s p i m) := by
  unfold Machine.maskReleaseAt; extract_lets; split; exacts [h.setTdm.setR, h]

theorem RegsCanonical.slaveRelease {s p n edges} (h : RegsCanonical s) : RegsCanonical (slaveRelease s p n edges) :=
  .ite h (by split; exacts [h, h.maskReleaseAt])

theorem RegsCanonical.tdmPortCapture {s : State} {tdmbuf p : Nat} {n : Int} {lab : Nat} {edges : List TdmSample}
    (h : RegsCanonical s) : RegsCanonical (tdmPortCapture s tdmbuf p n lab edges).2 := by
  unfold Machine.tdmPortCapture; extract_lets; split; extract_lets
  dsimp only
  refine RegsCanonical.blockWrite (.zxForce (.setTdm ?_))
  exact h.slaveRelease.setTdm.foldl fun _ _ h => h.tdmSlip

theorem RegsCanonical.decChannel {s : State} {lio : LioSec} {mics : List (List Bool)} {tdm : List (List (List Int))} {n : Int}
    {c : Nat} {cap : Captured} (h : RegsCanonical s) : RegsCanonical (decChannel s lio mics tdm n c cap).2 := by
  unfold Machine.decChannel; split
  · exact h
  refine .iteSnd h ?_
  extract_lets; split; extract_lets
  dsimp only
  refine .ite (.foldl (.blockWrite ?_) fun _ _ h => h.capStore) (.blockWrite ?_)
  all_goals
    exact (RegsCanonical.ite (RegsCanonical.ite h.keep h.keep.addCtr.raise).raise (.ite h.keep h.keep.addCtr.raise)).foldl
      fun _ _ h => h.blockWrite

theorem RegsCanonical.lioCapture {s : State} {lio : LioSec} {bi : BoundaryIn} {n : Int} {lab : Nat} {cap : Captured}
    (h : RegsCanonical s) : RegsCanonical (lioCapture s lio bi n lab cap).2 := by
  unfold Machine.lioCapture
  generalize List.range 16 = ports
  split
  rename_i tdm s₁ hq
  have h₁ : RegsCanonical s₁ := by
    refine RegsCanonical.of_eq (RegsCanonical.foldlSnd (a := ([], s)) h fun a p h => ?_) hq
    split
    · exact h
    · extract_lets r
      have hr : RegsCanonical r.2 := h.tdmPortCapture
      clear_value r
      exact hr
  exact RegsCanonical.foldlSnd (a := (_, s₁)) h₁ fun _ _ h => h.decChannel

theorem RegsCanonical.maskShadow {s p v} (h : RegsCanonical s) : RegsCanonical (maskShadow s p v) := h.setTdm
theorem RegsCanonical.maskCommit {s p v} (h : RegsCanonical s) : RegsCanonical (maskCommit s p v) := h.setR.maskShadow

theorem RegsCanonical.releaseMasks {s n} (h : RegsCanonical s) : RegsCanonical (releaseMasks s n) :=
  h.foldl fun _ _ h => .ite h.maskReleaseAt h

theorem RegsCanonical.masksSettle {s n} (h : RegsCanonical s) : RegsCanonical (masksSettle s n) :=
  h.foldl fun _ _ h => by split; exacts [.ite h.setTdm h, h]

theorem RegsCanonical.tdmStart {s p pcfg pstart mask n} (h : RegsCanonical s) : RegsCanonical (tdmStart s p pcfg pstart mask n) :=
  h.tdmEnter

theorem RegsCanonical.tdmCut {s lio n newRate} (h : RegsCanonical s) : RegsCanonical (tdmCut s lio n newRate) :=
  h.foldl fun _ _ h =>
    .ite (.ite h.setR.setR.setR.maskShadow h.setR.setR.setR.tdmStart) (by
      split
      · exact h.setR.setR.setR.setTdm
      · exact h.setR.setR.setR
      · exact h.setR.setR.setR.tdmEnter)

theorem RegsCanonical.decCut {s lio} (h : RegsCanonical s) : RegsCanonical (decCut s lio) :=
  h.setR.foldl fun _ _ h => h.keep.setR.setR

theorem RegsCanonical.setPdm {s g v} (h : RegsCanonical s) : RegsCanonical (setPdm s g v) := h.keep

theorem RegsCanonical.pdmCut {s lio} (h : RegsCanonical s) : RegsCanonical (pdmCut s lio) :=
  h.foldl fun _ _ h => .ite h (.ite h.setR h.setR.setPdm)

theorem RegsCanonical.lioCut {s lio n newRate} (h : RegsCanonical s) : RegsCanonical (lioCut s lio n newRate) :=
  h.tdmCut.decCut.pdmCut

theorem RegsCanonical.tdmStates {s n} (h : RegsCanonical s) : RegsCanonical (tdmStates s n) :=
  h.foldl fun _ _ h => by extract_lets; split; exacts [.ite h.tdmEnter h, .ite h.tdmEnter h, h]

theorem RegsCanonical.tdmEmit {s lio n out} (h : RegsCanonical s) : RegsCanonical (tdmEmit s lio n out) :=
  h.foldl fun _ _ h => .ite h (RegsCanonical.ite h h.eccRead).setTdm.zxForce.blockWrite

theorem RegsCanonical.pdmLoadErr {s g kind} (h : RegsCanonical s) : RegsCanonical (pdmLoadErr s g kind) :=
  h.addCtr.raise.logRun.setPdm

theorem RegsCanonical.pdmQueue {s g f} (h : RegsCanonical s) : RegsCanonical (pdmQueue s g f) := .ite h.setPdm h.setPdm.pdmLoadErr

theorem RegsCanonical.pdmStrobe {s g phase} (h : RegsCanonical s) : RegsCanonical (pdmStrobe s g phase) :=
  .ite h
    (RegsCanonical.andThen (by split; exacts [h.setR.pdmLoadErr, h.setR.setPdm]) fun h =>
      .ite h.setPdm (.ite h.setPdm (.ite h.setPdm (.ite h.setPdm h.setPdm.addCtr.raise))))

theorem RegsCanonical.pdmEmit {s lio mute out} (h : RegsCanonical s) : RegsCanonical (pdmEmit s lio mute out) :=
  h.foldl fun _ _ h => .ite h (.ite h.pdmQueue h.pdmQueue.pdmStrobe)

theorem RegsCanonical.spanCommit {s g v} (h : RegsCanonical s) : RegsCanonical (spanCommit s g v) := h.setR.setPdm

theorem RegsCanonical.pdmClearAssert {s} (h : RegsCanonical s) : RegsCanonical (pdmClearAssert s) :=
  .ite h h.keep.addCtr.raise.logEv

theorem RegsCanonical.pdmClearRelease {s} (h : RegsCanonical s) : RegsCanonical (pdmClearRelease s) := h.keep

theorem RegsCanonical.publishLio {s} (h : RegsCanonical s) : RegsCanonical (publishLio s) :=
  ((h.foldl fun _ _ h => by extract_lets; split; exacts [h.setR.setR64.setR, h.setR]).setR.foldl fun _ _ h => h.setR).setR

theorem RegsCanonical.tdmMaskRelease {s p idx m} (h : RegsCanonical s) : RegsCanonical (tdmMaskRelease s p idx m) :=
  .ite h.maskReleaseAt h.maskReleaseAt

theorem RegsCanonical.tdmZeroxTimeout {s p out j} (h : RegsCanonical s) : RegsCanonical (tdmZeroxTimeout s p out j) := by
  unfold Machine.tdmZeroxTimeout; extract_lets; split; exacts [h, .ite h.setTdm.zxForce h]

theorem RegsCanonical.decSettled {s c} (h : RegsCanonical s) : RegsCanonical (decSettled s c) := by
  unfold Machine.decSettled; split; exacts [h, .ite h h.keep.raise]

end Sys2Proof.Machine
end

section
/-! SUPPORT. O60, the renderer. -/

namespace Sys2Proof.Machine

open Sys2Proof

theorem RegsCanonical.reportHits {s mst} {code : Nat → Nat} {hit : Nat → Bool} (h : RegsCanonical s) : RegsCanonical (reportHits s
    mst code hit) :=
  h.foldl fun _ _ h => h.eccReport

theorem RegsCanonical.headMove {s r q} (h : RegsCanonical s) : RegsCanonical (headMove s r q) := h.reportHits.keep.whole

theorem RegsCanonical.objCapture {s p objs} (h : RegsCanonical s) : RegsCanonical (objCapture s p objs) :=
  (RegsCanonical.ite h.headMove h.keep.whole).foldl fun _ _ h => .ite h.blockWrite h

theorem RegsCanonical.headFlush {s} (h : RegsCanonical s) : RegsCanonical (headFlush s) := h.foldl fun _ _ h => h.headMove

theorem RegsCanonical.farStore {s t p objs} (h : RegsCanonical s) : RegsCanonical (farStore s t p objs) :=
  h.foldl fun _ _ h => .ite h h.blockWrite

theorem RegsCanonical.tapHits {s hits} (h : RegsCanonical s) : RegsCanonical (tapHits s hits) := h.keeps.tapHits.holds

theorem RegsCanonical.renderSide {s : State} {ri : RenderIn} {nodes : Sparse Node} {mixes : Nat → Bool} {g : GraphSec} {w : Work}
    {x : Side} (h : RegsCanonical s) : RegsCanonical (renderSide s ri nodes mixes g w x).2.2 := h.keeps.renderSide.holds

end Sys2Proof.Machine
end

section
/-! SUPPORT. O60, the stages of the frame under processing. -/

namespace Sys2Proof.Machine

open Sys2Proof

theorem RegsCanonical.setWork {s w} (h : RegsCanonical s) : RegsCanonical (setWork s w) := h.keep

theorem RegsCanonical.sideRendered {s w x second} (h : RegsCanonical s) : RegsCanonical (sideRendered s w x second).2.2 :=
  h.keeps.sideRendered.holds

theorem RegsCanonical.slotRegs {s used} (h : RegsCanonical s) : RegsCanonical (slotRegs s used) := h.keeps.slotRegs.holds

theorem RegsCanonical.pathRender {s} (h : RegsCanonical s) : RegsCanonical (pathRender s) := by
  unfold Machine.pathRender; split
  · exact h
  · exact .ite h (RegsCanonical.slotRegs (by split; exacts [h.sideRendered.sideRendered, h.sideRendered])).setWork.injectSource

theorem RegsCanonical.freeSamples {n} {s : State} (h : RegsCanonical s) : RegsCanonical (freeSamples n s).2 :=
  h.keeps.freeSamples.holds

theorem RegsCanonical.bufferSamples {s t kind p ofs} (h : RegsCanonical s) : RegsCanonical (bufferSamples s t kind p ofs).2 :=
  h.keeps.bufferSamples.holds

theorem RegsCanonical.busSamples {s w x c} (h : RegsCanonical s) : RegsCanonical (busSamples s w x c).2 := h.keeps.busSamples.holds

theorem RegsCanonical.correctGroup {s : State} {g : Nat} (h : RegsCanonical s) : RegsCanonical (correctGroup s g) := by
  unfold Machine.correctGroup; split
  · exact h
  refine .ite h (RegsCanonical.setWork (h.foldlSnd fun a c h => .iteSnd h ?_))
  split
  rename_i x s₁ hx
  have h₁ : RegsCanonical (x, s₁).2 := hx ▸ .iteSnd h.busSamples h
  split
  rename_i f s₂ hf
  have h₂ : RegsCanonical (f, s₂).2 := hf ▸ RegsCanonical.correctBus h₁
  exact .ite (h₂.foldl fun _ _ h => h.capStore) h₂

theorem RegsCanonical.sideSafety {s : State} {w : Work} {x : Side} {second : Bool} {hits : List Nat} (h : RegsCanonical s) :
    RegsCanonical (sideSafety s w x second hits).2.2 := by
  unfold Machine.sideSafety; split
  · exact h
  generalize List.range 32 = gs, List.range 8 = is
  extract_lets r
  have hr : RegsCanonical r.2.2 := by
    refine RegsCanonical.foldlSndSnd (a := (x, hits, s)) h fun a g h => ?_
    split
    · exact h
    extract_lets
    split
    · refine RegsCanonical.foldlSndSnd (a := (_, a.2.1, a.2.2)) h fun b c h => ?_
      split
      · exact h
      extract_lets own
      split
      rename_i v s₁ hv
      suffices RegsCanonical (v, s₁).2 from this
      rw [← hv]
      exact .iteSnd (by split; exacts [h, h.busSamples]) h
    · split
      · exact h
      refine RegsCanonical.foldlSndSnd (a := (_, a.2.1, a.2.2)) h fun b c h => ?_
      extract_lets c
      split
      rename_i v s₁ hv
      suffices RegsCanonical (v, s₁).2 from this
      rw [← hv]
      exact h.bufferSamples
  clear_value r
  obtain ⟨y, hits, s₁⟩ := r
  exact hr

theorem RegsCanonical.safetyStage {s : State} (h : RegsCanonical s) : RegsCanonical (safetyStage s) := by
  unfold Machine.safetyStage; split
  · exact h
  split
  rename_i a hits s₁ h₁
  have h₁ : RegsCanonical (a, hits, s₁).2.2 := h₁ ▸ h.sideSafety
  split
  rename_i b hits' s₂ h₂
  have h₂ : RegsCanonical (b, hits', s₂).2.2 := by rw [← h₂]; split; exacts [h₁.sideSafety, h₁]
  exact (RegsCanonical.ite h₂ h₂.addCtr.raise).setWork

theorem RegsCanonical.emissionCutoff {s} (h : RegsCanonical s) : RegsCanonical (emissionCutoff s) := by
  unfold Machine.emissionCutoff; split
  · exact h
  · exact by
      extract_lets
      split
      · exact (h.pathRender.foldl fun _ _ h => h.correctGroup).safetyStage
      · exact (h.pathRender.foldl fun _ _ h => h.correctGroup).safetyStage.convUsed.andThen fun h =>
          .ite h.keep.injectToken (by extract_lets; split; exacts [h.keep.injectToken.keep, h.keep.injectToken.keep.addCtr.logEv])

theorem RegsCanonical.startWork {s p xin} (h : RegsCanonical s) : RegsCanonical (startWork s p xin) :=
  (RegsCanonical.iteSnd h.takeList h).keep.andThen fun h => .ite h h.setWork.injectSource.injectSource

theorem RegsCanonical.houseFrames {s} (h : RegsCanonical s) : RegsCanonical (houseFrames s) := .ite h.keep h

theorem RegsCanonical.emitFrame {s note} (h : RegsCanonical s) (hnote : ∀ t x2 x5, RegsCanonical t → RegsCanonical (note t x2 x5))
    : RegsCanonical (emitFrame s note).2 := by
  unfold Machine.emitFrame; extract_lets; split
  · exact h
  · exact (RegsCanonical.ite h h.addCtr.raise).andThen fun h => .ite (hnote _ _ _ h.keep.tdmEmit.pdmEmit) h.keep.tdmEmit.pdmEmit

end Sys2Proof.Machine
end

section
/-! SUPPORT. O60, the kernel processors. -/

namespace Sys2Proof.Machine

open Sys2Proof

theorem RegsCanonical.storeBytes {s f} (h : RegsCanonical s) : RegsCanonical (storeBytes s f) :=
  h.foldl fun _ _ h => .ite h.memWrite h

theorem RegsCanonical.landAll {s k due} (h : RegsCanonical s) : RegsCanonical (landAll s k due) :=
  (h.setCore.foldl fun _ _ h => h.storeBytes).andThen fun h => (RegsCanonical.ite h.addCtr h).andThen fun h => .ite h h.addCtr.raise

theorem RegsCanonical.drainFlights {n k} {s : State} (h : RegsCanonical s) : RegsCanonical (drainFlights n s k) := by
  induction n generalizing s with
  | zero => exact h
  | succ n ih => exact .ite h (ih h.setCore.landAll)

theorem RegsCanonical.kpuFault {s k cause addr} (h : RegsCanonical s) : RegsCanonical (kpuFault s k cause addr) :=
  h.setCore.drainFlights.setCore.setEvent.raise.logEv.instFault

theorem RegsCanonical.closeBundle {s k act} (h : RegsCanonical s) : RegsCanonical (closeBundle s k act) :=
  .ite h.eccRead.kpuFault (.ite h.eccRead.kpuFault h.eccRead.setCore.landAll)

theorem RegsCanonical.issueFlight {s k f} (h : RegsCanonical s) : RegsCanonical (issueFlight s k f) := h.setCore

theorem RegsCanonical.vecOp {s h ok srcs d lat f} (hs : RegsCanonical s) : RegsCanonical (vecOp s h ok srcs d lat f) :=
  .ite hs (.ite hs (.ite hs.kpuFault (by split; exacts [hs.issueFlight, hs.kpuFault])))

theorem RegsCanonical.cmpOp {s h a b pd} {f : Int → Int → Bool} (hs : RegsCanonical s) : RegsCanonical (cmpOp s h a b pd f) :=
  .ite hs (.ite hs (.ite hs.kpuFault (by split; exacts [hs.issueFlight, hs.kpuFault])))

theorem RegsCanonical.accOp {s h ok add srcs acc f} (hs : RegsCanonical s) : RegsCanonical (accOp s h ok add srcs acc f) :=
  .ite hs (.ite hs (.ite hs.kpuFault (by split; exacts [hs.issueFlight, hs.kpuFault])))

theorem RegsCanonical.addrUpdate {s h a v} (hs : RegsCanonical s) : RegsCanonical (addrUpdate s h a v) := by
  unfold Machine.addrUpdate; split; exacts [hs, hs.issueFlight]

theorem RegsCanonical.loadOp {s : State} {h : KHd} {a : KAddr} {u : Nat} {exec? ok : Bool} {mk : Core → List Nat → Option Flight}
    (hs : RegsCanonical s) : RegsCanonical (loadOp s h a u exec? ok mk) :=
  .ite hs (.ite hs.kpuFault (by
    extract_lets; split
    · exact hs.kpuFault
    · exact .ite hs.eccRead.kpuFault (by split; exacts [hs.eccRead.issueFlight.addrUpdate, hs.eccRead.kpuFault])))

theorem RegsCanonical.storeOp {s h a u mask exec? ok words} (hs : RegsCanonical s) : RegsCanonical (storeOp s h a u mask exec? ok
    words) :=
  .ite hs
    (.ite hs.kpuFault (by split; exacts [hs.kpuFault, by extract_lets; split; exacts [hs.kpuFault, hs.issueFlight.addrUpdate]]))

theorem RegsCanonical.ctOp {s h} {run : Core → Except Nat CtAct} (hs : RegsCanonical s) : RegsCanonical (ctOp s h run) :=
  .ite hs (.ite hs.closeBundle (.ite hs.kpuFault (by split; exacts [hs.closeBundle, hs.kpuFault])))

theorem RegsCanonical.ctX {s h d} {f : Core → Int} (hs : RegsCanonical s) : RegsCanonical (ctX s h d f) := hs.ctOp
theorem RegsCanonical.stallCore {s k w} (h : RegsCanonical s) : RegsCanonical (stallCore s k w) := h.setCore
theorem RegsCanonical.unstall {s k cycles} (h : RegsCanonical s) : RegsCanonical (unstall s k cycles) := h.setCore

theorem RegsCanonical.queueDma {s k ch addr} (h : RegsCanonical s) : RegsCanonical (queueDma s k ch addr) :=
  (RegsCanonical.iteSnd h.eccRead h).andThen fun h => .ite h.kpuFault h.setCore.closeBundle

theorem RegsCanonical.dmaDone {s k ch} (h : RegsCanonical s) : RegsCanonical (dmaDone s k ch) :=
  .ite h (by
    split
    · exact h
    · exact by
        extract_lets
        split
        · exact h.dmaTransfer.setCore
        · exact h.dmaTransfer.setCore.dmaFail
        · exact (RegsCanonical.ite h.dmaTransfer h.dmaTransfer.kpuFault).setCore.dmaFail)

theorem RegsCanonical.interruptEntry {s k} (h : RegsCanonical s) : RegsCanonical (interruptEntry s k) := .ite h h.setCore

theorem RegsCanonical.finishTask {s k} (h : RegsCanonical s) : RegsCanonical (finishTask s k) :=
  .ite h.closeBundle h.closeBundle.drainFlights.taskEnd

theorem RegsCanonical.finishSignal {s k arc} (h : RegsCanonical s) : RegsCanonical (finishSignal s k arc) :=
  .ite h.closeBundle h.closeBundle.taskSignal

theorem RegsCanonical.kpuFaultWrite {s v} (h : RegsCanonical s) : RegsCanonical (kpuFaultWrite s v) :=
  h.foldl fun _ _ h => .ite h (.ite h.setR.sourceReset.setCore (.ite h.setCore h))

theorem RegsCanonical.mboxWrite {s k v} (h : RegsCanonical s) : RegsCanonical (mboxWrite s k v) := .ite h.setCore h

theorem RegsCanonical.kpuClkWrite {s v} (h : RegsCanonical s) : RegsCanonical (kpuClkWrite s v) :=
  (RegsCanonical.ite h.setF h).andThen fun h => .ite h.setEvent.addCtr.raise h.setF.setF

theorem RegsCanonical.ungate {s} (h : RegsCanonical s) : RegsCanonical (ungate s) := h.keep
theorem RegsCanonical.gateCores {s} (h : RegsCanonical s) : RegsCanonical (gateCores s) := h.keep.setR
theorem RegsCanonical.publishKpu {s} (h : RegsCanonical s) : RegsCanonical (publishKpu s) := h.foldl fun _ _ h => h.setR.setR.setR

end Sys2Proof.Machine
end

section
/-! SUPPORT. O60, staging and its check. -/

namespace Sys2Proof.Machine

open Sys2Proof

theorem RegsCanonical.setTake {s t} (h : RegsCanonical s) : RegsCanonical (setTake s t) := h.keep

theorem RegsCanonical.stageFail {s st sect slate} (h : RegsCanonical s) : RegsCanonical (stageFail s st sect slate) :=
  h.setTake.setR.addCtr.logEv.raise

theorem RegsCanonical.abandonCopy {s} (h : RegsCanonical s) : RegsCanonical (abandonCopy s) := by
  unfold Machine.abandonCopy; split; exacts [h.setTake.replyTo, h]

theorem RegsCanonical.stageClear {s} (h : RegsCanonical s) : RegsCanonical (stageClear s) := h.setTake

theorem RegsCanonical.startLoad {s len slate ctx} (h : RegsCanonical s) : RegsCanonical (startLoad s len slate ctx) :=
  h.abandonCopy.setTake.replyTo

theorem RegsCanonical.setSlot {s k v} (h : RegsCanonical s) : RegsCanonical (setSlot s k v) := h.setTake

theorem RegsCanonical.startCopy {s slot ctx} (h : RegsCanonical s) : RegsCanonical (startCopy s slot ctx) :=
  .ite h.replyTo (RegsCanonical.iteSnd h.abandonCopy.memRead h.abandonCopy).setTake

theorem RegsCanonical.loadImages {s t k} (h : RegsCanonical s) : RegsCanonical (loadImages s t k) :=
  (h.foldl fun _ _ h => .ite h.memWrite h).foldl fun _ _ h => .ite h.memWrite h

theorem RegsCanonical.stageImages {s t} (h : RegsCanonical s) : RegsCanonical (stageImages s t) :=
  .ite h (h.foldl fun _ _ h => h.loadImages)

theorem RegsCanonical.discardNow {s ctx} (h : RegsCanonical s) : RegsCanonical (discardNow s ctx) :=
  .ite h.replyTo h.abandonCopy.stageClear.replyTo

theorem RegsCanonical.stageNexts {s} (h : RegsCanonical s) : RegsCanonical (stageNexts s) :=
  h.setTake.stageClear.foldl fun _ _ h => by split; exacts [h.discardNow, h.startLoad, h.startCopy]

theorem RegsCanonical.checkEnds {s r} (h : RegsCanonical s) : RegsCanonical (checkEnds s r) :=
  .ite h.setTake.replyTo.stageNexts (by split; exacts [h.setTake.setTake.stageImages.replyTo.raise, h.setTake.stageFail.replyTo])

theorem RegsCanonical.checkDone {s} (h : RegsCanonical s) : RegsCanonical (checkDone s) :=
  .ite h (by split; exacts [h.checkEnds, .ite h.setTake (by split; exacts [h.checkEnds, h.checkEnds])])

theorem RegsCanonical.checkResume {s} (h : RegsCanonical s) : RegsCanonical (checkResume s) := .ite h.setTake.checkDone h

theorem RegsCanonical.stageBegin {s len slate ctx} (h : RegsCanonical s) : RegsCanonical (stageBegin s len slate ctx) :=
  .ite h.replyTo (.ite h.replyTo (.ite h.setTake h.startLoad))

theorem RegsCanonical.stageData {s ofs d ctx} (h : RegsCanonical s) : RegsCanonical (stageData s ofs d ctx) :=
  .ite h.replyTo (.ite h.replyTo h.setTake.replyTo)

theorem RegsCanonical.stageEnd {s ctx} (h : RegsCanonical s) : RegsCanonical (stageEnd s ctx) := .ite h.replyTo h.setTake

theorem RegsCanonical.stageFromReel {s slot ctx} (h : RegsCanonical s) : RegsCanonical (stageFromReel s slot ctx) :=
  .ite h.replyTo (.ite h.replyTo (.ite h.setTake h.startCopy))

theorem RegsCanonical.copyDone {s} (h : RegsCanonical s) : RegsCanonical (copyDone s) := by
  unfold Machine.copyDone; split; exacts [h.setTake, h]

theorem RegsCanonical.stageDiscard {s ctx} (h : RegsCanonical s) : RegsCanonical (stageDiscard s ctx) := .ite h.setTake h.discardNow
theorem RegsCanonical.stageStatus {s ctx} (h : RegsCanonical s) : RegsCanonical (stageStatus s ctx) := h.replyTo

theorem RegsCanonical.reelBegin {s slot len ctx} (h : RegsCanonical s) : RegsCanonical (reelBegin s slot len ctx) :=
  .ite h.replyTo (.ite h.setSlot.setTake.replyTo h.setSlot.setTake.replyTo)

theorem RegsCanonical.reelData {s slot ofs d ctx} (h : RegsCanonical s) : RegsCanonical (reelData s slot ofs d ctx) := by
  unfold Machine.reelData; split; exacts [.ite h.replyTo (.ite h.replyTo h.dramWrite.replyTo), h.replyTo]

theorem RegsCanonical.reelEnd {s slot ctx} (h : RegsCanonical s) : RegsCanonical (reelEnd s slot ctx) := by
  unfold Machine.reelEnd; split
  · exact h.replyTo
  · exact .ite h.replyTo
      (.ite h.setTake.replyTo (.ite h.memRead.setTake.replyTo (.ite h.memRead.setTake.replyTo h.memRead.setTake.setSlot.replyTo)))

theorem RegsCanonical.reelDelete {s slot ctx} (h : RegsCanonical s) : RegsCanonical (reelDelete s slot ctx) := h.setSlot.replyTo
theorem RegsCanonical.reelList {s ctx} (h : RegsCanonical s) : RegsCanonical (reelList s ctx) := h.replyTo
theorem RegsCanonical.reelBaseCommit {s lo v} (h : RegsCanonical s) : RegsCanonical (reelBaseCommit s lo v) := .ite h h.setR64
theorem RegsCanonical.cutReject {s ctx st} (h : RegsCanonical s) : RegsCanonical (cutReject s ctx st) := h.addCtr.replyTo

theorem RegsCanonical.cutCommand {s tmode hard t0 t1 digest ctx} (h : RegsCanonical s) : RegsCanonical (cutCommand s tmode hard t0
    t1 digest ctx) := by
  unfold Machine.cutCommand; extract_lets; split
  · exact h.cutReject
  · exact .ite h.cutReject (.ite h.cutReject h.setTake.replyTo)
  · exact h.cutReject

theorem RegsCanonical.cutCancel {s ctx} (h : RegsCanonical s) : RegsCanonical (cutCancel s ctx) := .ite h.setTake.replyTo h.replyTo
theorem RegsCanonical.rootKey {s img} (h : RegsCanonical s) : RegsCanonical (rootKey s img) := h.setF

theorem RegsCanonical.restartFw {s img} (h : RegsCanonical s) : RegsCanonical (restartFw s img) :=
  h.keep.fwRestart.rootKey.setF.setFB.foldl fun _ _ h => h.reply

theorem RegsCanonical.fwBegin {s img len ctx} (h : RegsCanonical s) : RegsCanonical (fwBegin s img len ctx) :=
  .ite h.replyTo (.ite h.replyTo (RegsCanonical.keep (by split; exacts [h.keep, h.keep])).replyTo)

theorem RegsCanonical.fwData {s ofs d ctx} (h : RegsCanonical s) : RegsCanonical (fwData s ofs d ctx) := by
  unfold Machine.fwData; split; exacts [.ite h.replyTo h.memWrite.replyTo, h.replyTo]

theorem RegsCanonical.fwEnd {s ctx} (h : RegsCanonical s) : RegsCanonical (fwEnd s ctx) := by
  unfold Machine.fwEnd; split; exacts [h.replyTo, h.keep.replyTo]

theorem RegsCanonical.fwSwitch {s img f ctx} (h : RegsCanonical s) : RegsCanonical (fwSwitch s img f ctx) :=
  .ite h.replyTo (.ite h.replyTo (.ite h.replyTo (.ite h.replyTo h.keep.replyTo)))

theorem RegsCanonical.fwStatus {s ctx} (h : RegsCanonical s) : RegsCanonical (fwStatus s ctx) := h.replyTo
theorem RegsCanonical.fwSwitchNow {s img f} (h : RegsCanonical s) : RegsCanonical (fwSwitchNow s img f) := h.stamp.keep.restartFw

theorem RegsCanonical.fwReady {s v} (h : RegsCanonical s) : RegsCanonical (fwReady s v) :=
  .ite h (by extract_lets; split; exacts [h.setFB.setFB.setF.keep.logEv.raise, h.setFB.setFB.setF.keep])

theorem RegsCanonical.fwFallback {s} (h : RegsCanonical s) : RegsCanonical (fwFallback s) := .ite h h.keep.restartFw.logEv.raise

end Sys2Proof.Machine
end

section
/-! SUPPORT. O60, takes and cuts. -/

namespace Sys2Proof.Machine

open Sys2Proof

theorem RegsCanonical.cutRate {s rate} (h : RegsCanonical s) : RegsCanonical (cutRate s rate) :=
  .ite h (.ite h.headFlush.keep.clkFreeRun h.headFlush.keep)

theorem RegsCanonical.loadWords {s a step l} (h : RegsCanonical s) : RegsCanonical (loadWords s a step l) :=
  h.foldl fun _ _ h => h.setR

theorem RegsCanonical.loadSections {s t} (h : RegsCanonical s) : RegsCanonical (loadSections s t) :=
  h.setR.setR.setR.setR.setR.setR64.setR64.setR.setR.setR.setR.setR.loadWords.loadWords.loadWords.setR

theorem RegsCanonical.loadClock {s c newRate} (h : RegsCanonical s) : RegsCanonical (loadClock s c newRate) :=
  (((h.setR.setR.setR.setR.setR.foldl fun _ _ h => h.setR.setR.setR).setR.foldl fun _ _ h => h.refSet).foldl fun _ _ h =>
    h.afterFail).andThen fun h => .ite h h.applySelection

theorem RegsCanonical.loadFabric {s t} (h : RegsCanonical s) : RegsCanonical (loadFabric s t) :=
  (h.foldl fun _ _ h =>
    by
      extract_lets
      split
      · exact (h.foldl fun _ _ h => h.setR.setR.setR.setR).setR.setR
      · exact (h.foldl fun _ _ h => h.setR).foldl fun _ _ h => h.setR).andThen fun h =>
    .ite (h.foldl fun _ _ h => h.setR).keep (.ite h.keep.logEv h)

theorem RegsCanonical.loadObjects {s init} (h : RegsCanonical s) : RegsCanonical (loadObjects s init) :=
  h.foldl fun _ _ h => .ite h.objStore.markChanged h

theorem RegsCanonical.mergeObjects {s b} (h : RegsCanonical s) : RegsCanonical (mergeObjects s b) :=
  h.foldl fun _ _ h => .ite h h.objStore.keep

theorem RegsCanonical.farBits {s t} (h : RegsCanonical s) : RegsCanonical (farBits s t) :=
  (h.foldl fun _ _ h => h.setR).foldl fun _ _ h => .ite h.setR h

theorem RegsCanonical.cutGeometry {s old t rs} (h : RegsCanonical s) : RegsCanonical (cutGeometry s old t rs) :=
  h.setF.setR.kspmCommit.floorCommit.andThen fun h =>
    RegsCanonical.andThen (by split; exacts [h.mergeObjects, h.loadObjects]) fun h =>
      .ite h.keep.farBits h.keep.farBits.changeEnabled

theorem RegsCanonical.cutDivider {s t} (h : RegsCanonical s) : RegsCanonical (cutDivider s t) := .ite h.setF.setF.setF h.setF

theorem RegsCanonical.cutBanks {s t hadOld hard pos} (h : RegsCanonical s) : RegsCanonical (cutBanks s t hadOld hard pos) :=
  (RegsCanonical.ite (by split; exacts [h.setBank, h]) h).keep.clearWindow.setBank

theorem RegsCanonical.loadLastAd {s b} (h : RegsCanonical s) : RegsCanonical (loadLastAd s b) :=
  h.foldl fun _ _ h => .ite h h.setChan

theorem RegsCanonical.performCut {s : State} {t : Take} {asked : Bool} {named : Nat} {rs : Option RsItems} (h : RegsCanonical s) :
    RegsCanonical (performCut s t asked named rs) := by
  unfold Machine.performCut
  extract_lets old hard lab0 pos first rateNew fell e skip s₁ s₂ s₃ overlap x
  have h₃ : RegsCanonical s₃ := .ite h.stamp.logCommit.logCommit h.stamp.logCommit
  split
  rename_i s₄ hq
  have h₄ : RegsCanonical s₄ := (RegsCanonical.iteSnd (a := (some x.1, x.2)) (b := (none, s₃)) h₃.takeList h₃).of_eq hq
  extract_lets _ _ s₅ s₆ s₇ lab _ _ _ _ _ s₈ s₉ s₁₀ _ _ s₁₁ s₁₂ s₁₃ _ s₁₄ s₁₅ s₁₆
  have h₅ : RegsCanonical s₅ := by unfold s₅; clear_value old; cases old <;> exact h₄.keep
  have h₈ : RegsCanonical s₈ := h₅.cutBanks.cutRate.keep
  have h₁₃ : RegsCanonical s₁₃ := h₈.loadSections.cutDivider.loadClock.loadFabric.keep.cutGeometry.convCut
  have h₁₄ : RegsCanonical s₁₄ := by unfold s₁₄; split; exacts [h₁₃.keep.loadLastAd, h₁₃]
  have h₁₆ : RegsCanonical s₁₆ := h₁₄.strmCut.lioCut.addCtr
  exact (RegsCanonical.ite h₁₆.addCtr h₁₆).raise

theorem RegsCanonical.cutDue {s} (h : RegsCanonical s) : RegsCanonical (cutDue s) := by
  unfold Machine.cutDue; split; exacts [.ite h (by split; exacts [h.addCtr.logEv.setTake.stageFail.raise, h.performCut]), h]

theorem RegsCanonical.cutImages {s} (h : RegsCanonical s) : RegsCanonical (cutImages s) := by
  unfold Machine.cutImages; split; exacts [(h.foldl fun _ _ h => h.loadImages).keep, h]

theorem RegsCanonical.relockFrame {s} (h : RegsCanonical s) : RegsCanonical (relockFrame s) := .ite h (.ite h.keep h.keep)
theorem RegsCanonical.relockRamp {s} (h : RegsCanonical s) : RegsCanonical (relockRamp s) := .ite h h.keep.applySelection

theorem RegsCanonical.publishTake {s} (h : RegsCanonical s) : RegsCanonical (publishTake s) :=
  h.setR.setR.loadWords.setR.loadWords.setR64.setR64.setR64

end Sys2Proof.Machine
end

section
/-! SUPPORT. O60, the beacon and the role. -/

namespace Sys2Proof.Machine

open Sys2Proof

theorem RegsCanonical.beaconSend {s} (h : RegsCanonical s) : RegsCanonical (beaconSend s) := by
  unfold Machine.beaconSend; split
  · exact h
  · exact .ite h (h.setTake.foldl fun _ _ h => .ite (h.keep.sendUdp (fun _ _ _ h => h.enqueue3)) h)

theorem RegsCanonical.putPeer {s n p} (h : RegsCanonical s) : RegsCanonical (putPeer s n p) := h.setTake

theorem RegsCanonical.beaconTake {s b} (h : RegsCanonical s) : RegsCanonical (beaconTake s b) := by
  unfold Machine.beaconTake; extract_lets; split
  · exact h.setTake.addCtr
  · exact .ite h.setTake.putPeer.addCtr.logEv.raise h.setTake.putPeer

theorem RegsCanonical.beaconReceive {s b} (h : RegsCanonical s) : RegsCanonical (beaconReceive s b) :=
  .ite h.addCtr (.ite h h.beaconTake)

theorem RegsCanonical.peerExpire {s n} (h : RegsCanonical s) : RegsCanonical (peerExpire s n) := by
  unfold Machine.peerExpire; split; exacts [h, .ite h.setTake.logEv.raise h.setTake]

theorem RegsCanonical.agePeers {s units} (h : RegsCanonical s) : RegsCanonical (agePeers s units) := h.setTake

theorem RegsCanonical.publishPeers {s : State} (h : RegsCanonical s) : RegsCanonical (publishPeers s) := by
  refine wf_replaceRange_rising _ _ _ _ (Nat.le_add_right _ _) h ?_
  refine rising_flatMap (key := id) (base := Reg.TAKE_PEER0) (stride := 32) List.pairwise_lt_range (fun n => ?_) (fun n p hp => ?_)
  · split
    · exact List.Pairwise.nil
    · exact rising_wordsAt _ _
  · split at hp
    · cases hp
    · exact mem_wordsAt (ws := [_, _, _, _, _, _, _, _]) hp

end Sys2Proof.Machine
end

section
/-! SUPPORT. O60, network time and its servos. -/

namespace Sys2Proof.Machine

open Sys2Proof

theorem RegsCanonical.servoTo {s p st} (h : RegsCanonical s) : RegsCanonical (servoTo s p st) := by
  unfold Machine.servoTo; extract_lets; split
  · exact h.servoState.refFail
  · exact h.servoState.refFail
  · exact h.servoState.refFail
  · exact .ite h.servoState.dpllLock h.servoState
  · exact .ite h.servoState.dpllLockLoss h.servoState
  · exact h.servoState

theorem RegsCanonical.applyServoEn {s} (h : RegsCanonical s) : RegsCanonical (applyServoEn s) :=
  .ite (RegsCanonical.ite h.servoTo.refInstall (.ite h.servoTo.refInstall h)).servoTo.refInstall
    (.ite (RegsCanonical.ite h.servoTo.refInstall (.ite h.servoTo.refInstall h)).servoTo.refInstall
      (.ite h.servoTo.refInstall (.ite h.servoTo.refInstall h)))

theorem RegsCanonical.servoFilter {s p o} (h : RegsCanonical s) : RegsCanonical (servoFilter s p o) := h.setServo.noteRequest

theorem RegsCanonical.acceptOffset {s : State} {p : Nat} {o t2 : Int} (h : RegsCanonical s) :
    RegsCanonical (acceptOffset s p o t2) := by
  unfold Machine.acceptOffset; extract_lets s₁ x s₂ _ s₃ v s₄
  have h₄ : RegsCanonical s₄ := by
    unfold s₄
    split; exacts [h.addCtr.setR64.setServo.servoTo, h.addCtr.setR64.setServo.servoTo, h.addCtr.setR64.setServo]
  split
  · exact h₄.setServo
  · exact .ite h₄.servoFilter.setServo.servoTo h₄.servoFilter.setServo
  · exact h₄.servoFilter
  · exact h₄

theorem RegsCanonical.handleOffset {s p o t2} (h : RegsCanonical s) : RegsCanonical (handleOffset s p o t2) :=
  .ite h
    (.ite h.keep.enterJump
      (.ite
        (.ite ((RegsCanonical.ite h.addCtr.raise h.addCtr).andThen fun h => (RegsCanonical.ite h.logEv h).setServo)
          h.servoTo.acceptOffset) (.ite h.servoTo.acceptOffset h.acceptOffset)))

theorem RegsCanonical.ptpSync {s p m} (h : RegsCanonical s) : RegsCanonical (ptpSync s p m) :=
  .ite h ((RegsCanonical.ite h.addCtr h).andThen fun h => .ite h.setServo h.setServo.handleOffset)

theorem RegsCanonical.followUp {s : State} {p : Nat} {m : PtpMsg} (h : RegsCanonical s) : RegsCanonical (followUp s p m) :=
  .ite h (by split; exacts [.ite h.setServo.handleOffset h.addCtr, h.addCtr])

theorem RegsCanonical.servoTimeout {s p} (h : RegsCanonical s) : RegsCanonical (servoTimeout s p) :=
  .ite h.setServo.noteRequest.servoTo h

theorem RegsCanonical.fdiffReport {s p} (h : RegsCanonical s) : RegsCanonical (fdiffReport s p) :=
  .ite h (by split; exacts [.ite h.setServo h.setServo.setServo.setR, h])

theorem RegsCanonical.rephase {s} (h : RegsCanonical s) : RegsCanonical (rephase s) := .ite h.keep h

theorem RegsCanonical.jumpTime {s units kind} (h : RegsCanonical s) : RegsCanonical (jumpTime s units kind) :=
  (RegsCanonical.ite h.keep.clkState.rephase h.keep).logEv.addCtr.raise

theorem RegsCanonical.ptpLock {s} (h : RegsCanonical s) : RegsCanonical (ptpLock s) := .ite h.dpllLock h

theorem RegsCanonical.timeBoundary {s} (h : RegsCanonical s) : RegsCanonical (timeBoundary s) := by
  unfold Machine.timeBoundary; extract_lets; split
  · exact (RegsCanonical.ite h.keep.ptpLock h.keep.ptpLock.rephase).jumpTime
  · exact (RegsCanonical.ite h.keep.ptpLock h.keep.ptpLock.rephase).jumpTime
  · exact .ite h.keep.ptpLock h.keep.ptpLock.rephase

theorem RegsCanonical.publishTime {s} (h : RegsCanonical s) : RegsCanonical (publishTime s) :=
  h.setR.setR.setR.setR.setR.setR.setR.setR.setR

theorem RegsCanonical.pdelayUdp {s} (h : RegsCanonical s) : RegsCanonical (pdelayUdp s).2 := h.keep

theorem RegsCanonical.pdelayReq {s : State} {p : Nat} {m : PdelayReq} (h : RegsCanonical s) : RegsCanonical (pdelayReq s p m) := by
  unfold Machine.pdelayReq
  refine .ite h (.ite h.addCtr ?_)
  extract_lets body x s₁ fr
  have h₁ : RegsCanonical s₁ := RegsCanonical.iteSnd h.pdelayUdp h
  split
  · exact h₁.enqueue0.of_eq ‹_›
  · exact (h₁.enqueue0.of_eq ‹_›).addCtr

theorem RegsCanonical.launchEntry {s p m t} (h : RegsCanonical s) : RegsCanonical (launchEntry s p m t) :=
  .ite h.complete.txLoss (.ite h.completeLate h.enqueue0)

theorem RegsCanonical.launchPlace {s p m t} (h : RegsCanonical s) : RegsCanonical (launchPlace s p m t) :=
  .ite h.keep (h.keep.foldl fun _ _ h => h.launchEntry)

theorem RegsCanonical.launchRequest {s p m t} (h : RegsCanonical s) : RegsCanonical (launchRequest s p m t) :=
  .ite (h.setPort.foldl fun _ _ h => h.enqueue3) h.setPort.launchPlace

theorem RegsCanonical.tsqRead {s p} (h : RegsCanonical s) : RegsCanonical (tsqRead s p) := by
  unfold Machine.tsqRead; extract_lets; split; exacts [h.setPort.setR.keep.setR.keep.setR.keep, h.keep]

end Sys2Proof.Machine
end

section
/-! SUPPORT. O60, the events of the clock system. -/

namespace Sys2Proof.Machine

open Sys2Proof

theorem RegsCanonical.idleTake {s p t} (h : RegsCanonical s) : RegsCanonical (idleTake s p t) := .ite h.expireLate h.takeNext

theorem RegsCanonical.rateMismatch {s r offset} (h : RegsCanonical s) : RegsCanonical (rateMismatch s r offset) :=
  .ite h h.logEv.refFail

theorem RegsCanonical.referenceGlitch {s r} (h : RegsCanonical s) : RegsCanonical (referenceGlitch s r) :=
  .ite h (.ite h.setRef.addCtr.refFail h.setRef.addCtr)

theorem RegsCanonical.pauseExpire {s p q t} (h : RegsCanonical s) : RegsCanonical (pauseExpire s p q t) := h.setPort.idleTake

theorem RegsCanonical.linkChange {s p sync speed an lf rf} (h : RegsCanonical s) : RegsCanonical (linkChange s p sync speed an lf
    rf) :=
  h.setPort

end Sys2Proof.Machine
end

section
/-! SUPPORT. O60, the pair link and its messages. -/

namespace Sys2Proof.Machine

open Sys2Proof

theorem RegsCanonical.setPair {s p} (h : RegsCanonical s) : RegsCanonical (setPair s p) := h.keep

theorem RegsCanonical.linkLost {s} (h : RegsCanonical s) : RegsCanonical (linkLost s) := by
  unfold Machine.linkLost; split; exacts [h.setPair, h]

theorem RegsCanonical.roleChange {s : State} {new : Role} {cause : Nat} (h : RegsCanonical s) :
    RegsCanonical (roleChange s new cause) := by
  have logged : ∀ t, RegsCanonical t → ∀ c p, RegsCanonical ((if cause = 4 then Machine.logCommit else Machine.logEv) t c p) := by
    intro t ht c p; split; exacts [ht.logCommit, ht.logEv]
  refine .ite h (.ite ?_ (RegsCanonical.raise (logged _ ?_ _ _)))
  all_goals
    split
    case' h_1 => apply RegsCanonical.setR64
    all_goals split <;> exact h.setPair.setPair

theorem RegsCanonical.rolePend {s new cause} (h : RegsCanonical s) : RegsCanonical (rolePend s new cause) := .ite h h.setPair

theorem RegsCanonical.pathLost {s net released} (h : RegsCanonical s) : RegsCanonical (pathLost s net released) :=
  (RegsCanonical.ite h.setPair h.setPair.linkLost).andThen fun h =>
    (RegsCanonical.ite h.rolePend h).andThen fun h =>
      .ite h (.ite h.raise.logEv (.ite h.raise.logEv.raise.rolePend h.raise.logEv.raise))

theorem RegsCanonical.pairMeet {s net p} (h : RegsCanonical s) : RegsCanonical (pairMeet s net p) :=
  .ite h (.ite (.ite h.pairRelease.rolePend h) (.ite h.rolePend h))

theorem RegsCanonical.seizeStaging {s} (h : RegsCanonical s) : RegsCanonical (seizeStaging s) :=
  h.setTake.stageClear.foldl fun _ _ h => h.replyTo

theorem RegsCanonical.beginTransfer {s} (h : RegsCanonical s) : RegsCanonical (beginTransfer s) := h.setPair.seizeStaging

theorem RegsCanonical.peerCut {s old p} (h : RegsCanonical s) : RegsCanonical (peerCut s old p) := by
  unfold Machine.peerCut; split; exacts [.ite h.beginTransfer h, h]

theorem RegsCanonical.clapperTake {s net b} (h : RegsCanonical s) : RegsCanonical (clapperTake s net b) :=
  (RegsCanonical.ite h.setPair.setPair h.setPair.setPair).andThen fun h =>
    .ite h.pathLost
      ((RegsCanonical.ite h.setPair h.setPair).andThen fun h =>
        (RegsCanonical.ite h h.raise).andThen fun h => (RegsCanonical.ite h h.peerCut).pairMeet)

theorem RegsCanonical.clapperReceive {s net b} (h : RegsCanonical s) : RegsCanonical (clapperReceive s net b) :=
  .ite h (.ite h.clapperTake (.ite h.setPair.logEv h))

theorem RegsCanonical.netClapper {s b} (h : RegsCanonical s) : RegsCanonical (netClapper s b) := .ite h.clapperReceive h

theorem RegsCanonical.linkBody {s type b} (h : RegsCanonical s) : RegsCanonical (linkBody s type b).2 :=
  .iteSnd h (.iteSnd h.addCtr (.iteSnd h h))

theorem RegsCanonical.matchDone {s} (h : RegsCanonical s) : RegsCanonical (matchDone s) := .ite h.rolePend h

theorem RegsCanonical.compareDigest {s f own peer} (h : RegsCanonical s) : RegsCanonical (compareDigest s f own peer) :=
  .ite h.setR.setR.addCtr.setPair.matchDone
    (h.setR.setR.setR.addCtr.setPair.logRun.andThen fun h => (RegsCanonical.ite h.raise h).andThen fun h => .ite h.rolePend h)

theorem RegsCanonical.compareHeld {s} (h : RegsCanonical s) : RegsCanonical (compareHeld s) :=
  h.setPair.foldl fun _ _ h => by split; exacts [h.compareDigest, h]

theorem RegsCanonical.noteDigest {s lab out} (h : RegsCanonical s) : RegsCanonical (noteDigest s lab out) :=
  .ite h h.pairSend.setPair.compareHeld

theorem RegsCanonical.dropUncompared {s} (h : RegsCanonical s) : RegsCanonical (dropUncompared s) :=
  (RegsCanonical.ite h.setR h).setPair

theorem RegsCanonical.switchNow {s} (h : RegsCanonical s) : RegsCanonical (switchNow s) := by
  unfold Machine.switchNow; split; exacts [h.roleChange, h.roleChange, h]

theorem RegsCanonical.pairResync {s ctx} (h : RegsCanonical s) : RegsCanonical (pairResync s ctx) :=
  .ite h.replyTo (by
    split
    · exact h.replyTo
    · exact h.replyTo
    · exact .ite (RegsCanonical.rolePend (by split; exacts [h.setPair, h])) h.replyTo
    · exact (RegsCanonical.rolePend (by split; exacts [h.setPair, h])))

theorem RegsCanonical.pairStatus {s ctx} (h : RegsCanonical s) : RegsCanonical (pairStatus s ctx) := h.replyTo
theorem RegsCanonical.rsFail {s} (h : RegsCanonical s) : RegsCanonical (rsFail s) := h.setPair.logEv.raise

theorem RegsCanonical.rsPhase {s} (h : RegsCanonical s) : RegsCanonical (rsPhase s) := by
  unfold Machine.rsPhase; split
  · exact .ite h (.ite h.setPair h.beginTransfer)
  · exact .ite h.rsFail (.ite h.setPair h)
  · exact by split; exacts [.ite h.setPair.matchDone h, h]
  · exact h.matchDone
  · exact h

theorem RegsCanonical.rsCut {s} (h : RegsCanonical s) : RegsCanonical (rsCut s) := by
  unfold Machine.rsCut; split; exacts [.ite h (by split; exacts [h.rsFail, .ite h.rsFail h.performCut.setPair]), h]

theorem RegsCanonical.realignDue {s} (h : RegsCanonical s) : RegsCanonical (realignDue s) := by
  unfold Machine.realignDue; split; exacts [h, h.setPair.stamp.keep.addCtr.logCommit.raise]

theorem RegsCanonical.loadPeerSet {s idx b} (h : RegsCanonical s) : RegsCanonical (loadPeerSet s idx b).2.2 :=
  .iteSndSnd h (by split; exacts [h, .iteSndSnd h.addCtr h.setChan])

theorem RegsCanonical.sendSetReady {s bus slot ok setid} (h : RegsCanonical s) : RegsCanonical (sendSetReady s bus slot ok setid)
    :=
  h.pairSend

theorem RegsCanonical.xferSet {s idx ofs total d} (h : RegsCanonical s) : RegsCanonical (xferSet s idx ofs total d) :=
  .ite h.setPair (.ite h.setPair.loadPeerSet (.ite h.setPair.loadPeerSet.setPair h.setPair.loadPeerSet.sendSetReady))

theorem RegsCanonical.xferReceive {s b} (h : RegsCanonical s) : RegsCanonical (xferReceive s b) :=
  .ite h (.ite h.xferSet (.ite h (by split; exacts [.ite h.setPair h.setPair.setTake, h.setPair, h.setPair, h])))

theorem RegsCanonical.alignReceive {s phase b} (h : RegsCanonical s) : RegsCanonical (alignReceive s phase b) :=
  .ite h (.ite h.setR.logEv h.setR.setPair)

theorem RegsCanonical.setOutcome {s b own} (h : RegsCanonical s) : RegsCanonical (setOutcome s b own) :=
  .ite h.keep h.keep.addCtr.logEv

theorem RegsCanonical.placeSetChange {s c slot fx x} (h : RegsCanonical s) : RegsCanonical (placeSetChange s c slot fx x) :=
  .ite h.setOutcome (.ite h.setOutcome h.keep.frameAs)

theorem RegsCanonical.setReadyReceive {s b} (h : RegsCanonical s) : RegsCanonical (setReadyReceive s b) :=
  .ite h h.pairSend.placeSetChange

theorem RegsCanonical.setSchedReceive {s b} (h : RegsCanonical s) : RegsCanonical (setSchedReceive s b) := .ite h h.placeSetChange

theorem RegsCanonical.sendReady {s} (h : RegsCanonical s) : RegsCanonical (sendReady s) :=
  h.setPair.foldl fun _ _ h => h.sendSetReady

theorem RegsCanonical.sendXfer {s kind idx b} (h : RegsCanonical s) : RegsCanonical (sendXfer s kind idx b) :=
  h.foldl fun _ _ h => h.pairSend

theorem RegsCanonical.sendItems {s t} (h : RegsCanonical s) : RegsCanonical (sendItems s t) :=
  ((RegsCanonical.ite h h.sendXfer).foldl fun _ _ h => h.foldl fun _ _ h => by split; exacts [h.sendXfer, h]).sendXfer.sendXfer

theorem RegsCanonical.sendAlign {s} (h : RegsCanonical s) : RegsCanonical (sendAlign s) := h.pairSend

theorem RegsCanonical.servePeer {s} (h : RegsCanonical s) : RegsCanonical (servePeer s) := by
  unfold Machine.servePeer; extract_lets; split; exacts [(RegsCanonical.ite h.sendItems (.ite h.sendAlign h)).setPair, h.setPair]

theorem RegsCanonical.driveDue {s} (h : RegsCanonical s) : RegsCanonical (driveDue s) := by
  unfold Machine.driveDue; split; exacts [.ite h.setPair h, h]

theorem RegsCanonical.forwardSet {s c slot f} (h : RegsCanonical s) : RegsCanonical (forwardSet s c slot f) := .ite h.sendXfer h

theorem RegsCanonical.pairRoles {s} (h : RegsCanonical s) : RegsCanonical (pairRoles s) :=
  .ite h (by
    extract_lets
    split
    · exact .ite h.roleChange h
    · exact (RegsCanonical.ite h.roleChange h).setPair.roleChange.andThen fun h =>
        (RegsCanonical.ite h.addCtr h).andThen fun h =>
          (RegsCanonical.ite h.logEv.raise h).andThen fun h => .ite h (h.setPair.foldl fun _ _ h => h.reply))

theorem RegsCanonical.pairCfgCommit {s a v} (h : RegsCanonical s) : RegsCanonical (pairCfgCommit s a v) :=
  .ite h.raise (.ite (.ite h.setFB.setF h.setFB.setF.setPair) h.setR)

theorem RegsCanonical.pairCtrlCommit {s v} (h : RegsCanonical s) : RegsCanonical (pairCtrlCommit s v) := .ite h.rolePend h
theorem RegsCanonical.evidence {s} (h : RegsCanonical s) : RegsCanonical (evidence s) := .ite h.rolePend h
theorem RegsCanonical.monitored {s} (h : RegsCanonical s) : RegsCanonical (monitored s) := .ite h h.setPair.logEv.raise
theorem RegsCanonical.publishPair {s} (h : RegsCanonical s) : RegsCanonical (publishPair s) := h.setR.setF.setR

theorem RegsCanonical.clapSend {s} (h : RegsCanonical s) : RegsCanonical (clapSend s) :=
  .ite h (RegsCanonical.ite h h.addCtr).setPair.clapLink

theorem RegsCanonical.netClapSend {s} (h : RegsCanonical s) : RegsCanonical (netClapSend s) :=
  .ite h (RegsCanonical.ite h h.addCtr).setPair.clapNet

theorem RegsCanonical.linkSync {s up} (h : RegsCanonical s) : RegsCanonical (linkSync s up) :=
  .ite h (.ite h.setPair h.setPair.addCtr.linkLost)

theorem RegsCanonical.onLink {s : State} {type : Nat} {b : Bytes} {f : State → Bytes → State} (h : RegsCanonical s)
    (hf : ∀ t b, RegsCanonical t → RegsCanonical (f t b)) : RegsCanonical (onLink s type b f) := by
  have hb := h.linkBody (type := type) (b := b)
  unfold Machine.onLink
  generalize Machine.linkBody s type b = r at hb ⊢
  split; exacts [hf _ _ hb, hb]

theorem RegsCanonical.digestReceive {s b} (h : RegsCanonical s) : RegsCanonical (digestReceive s b) := .ite h h.setPair.compareHeld

theorem RegsCanonical.switchReceive {s b} (h : RegsCanonical s) : RegsCanonical (switchReceive s b) := by
  unfold Machine.switchReceive; split; exacts [h.keep, h]

end Sys2Proof.Machine
end

section
/-! SUPPORT. O60, the profile. -/

namespace Sys2Proof.Machine

open Sys2Proof

theorem RegsCanonical.venuePlace {s} (h : RegsCanonical s) : RegsCanonical (venuePlace s) := h.foldl fun _ _ h => h.setChan

end Sys2Proof.Machine
end

section
/-! SUPPORT. O60, the recorder. -/

namespace Sys2Proof.Machine

open Sys2Proof

theorem RegsCanonical.slotWritten {s i n} (h : RegsCanonical s) : RegsCanonical (slotWritten s i n) := h.whole

theorem RegsCanonical.writeRec {s r run} (h : RegsCanonical s) : RegsCanonical (writeRec s r run) :=
  .ite (.ite h.keep.raise h.keep) (.ite h.keep (.ite h.keep.slotWritten.raise.raise h.keep.slotWritten.raise))

theorem RegsCanonical.bumpHeld {s e i} (h : RegsCanonical s) : RegsCanonical (bumpHeld s e i) := h.keep
theorem RegsCanonical.holdEvent {s e cseq} (h : RegsCanonical s) : RegsCanonical (holdEvent s e cseq) := .ite h.keep h.keep
theorem RegsCanonical.doClear {s cseq} (h : RegsCanonical s) : RegsCanonical (doClear s cseq) := h.keep.writeRec

theorem RegsCanonical.newEvent {s e} (h : RegsCanonical s) : RegsCanonical (newEvent s e) :=
  (RegsCanonical.ite h h.stamp).andThen fun h => .ite h.writeRec h.holdEvent

theorem RegsCanonical.failNow {s ofs} (h : RegsCanonical s) : RegsCanonical (failNow s ofs) := by
  unfold Machine.failNow; extract_lets; split; exacts [h.logSramFail.keep.newEvent, h.logSramFail]

theorem RegsCanonical.bumpEvent {s e q} (h : RegsCanonical s) : RegsCanonical (bumpEvent s e q) :=
  .ite h.keep (.ite h.eccRead.failNow.newEvent h.eccRead.keep.slotWritten)

theorem RegsCanonical.writeEvent {s e} (h : RegsCanonical s) : RegsCanonical (writeEvent s e) :=
  .ite (by split; exacts [h.doClear, h])
    (.ite (by split; exacts [h.bumpEvent, h.newEvent]) (by split; exacts [h.bumpHeld, h.newEvent]))

theorem RegsCanonical.flushLog {s} (h : RegsCanonical s) : RegsCanonical (flushLog s) :=
  (h.keep.foldl fun _ _ h => h.writeEvent).keep

theorem RegsCanonical.logStart {s} (h : RegsCanonical s) : RegsCanonical (logStart s) :=
  .ite h (((h.keep.foldl fun _ _ h => h.writeRec).foldl fun _ _ h => h.doClear).foldl fun _ _ h => h.writeRec)

theorem RegsCanonical.logClear {s} (h : RegsCanonical s) : RegsCanonical (logClear s) := .ite h (.ite h.keep h.keep)

theorem RegsCanonical.logFetch {s seq} (h : RegsCanonical s) : RegsCanonical (logFetch s seq).2 := by
  unfold Machine.logFetch; split; exacts [h, .iteSnd h (.iteSnd h.eccRead.logSramFail h.eccRead)]

end Sys2Proof.Machine
end

section
/-! SUPPORT. O60, resets, the boot sequence and the trip. -/

namespace Sys2Proof.Machine

open Sys2Proof

theorem RegsCanonical.setPwr {s p} (h : RegsCanonical s) : RegsCanonical (setPwr s p) := h.keep
theorem RegsCanonical.publishPwr {s} (h : RegsCanonical s) : RegsCanonical (publishPwr s) := h.setF.setFB.setFB
theorem RegsCanonical.showNow {s l} (h : RegsCanonical s) : RegsCanonical (showNow s l) := h.keep

theorem RegsCanonical.enterClkFault {s cause} (h : RegsCanonical s) : RegsCanonical (enterClkFault s cause) :=
  .ite h h.clkState.logEv.raise.pairRelease.pairRoles.flushLog.publishClk.publishPair.publishPwr.showNow

theorem RegsCanonical.identRegs {s cause} (h : RegsCanonical s) : RegsCanonical (identRegs s cause) :=
  (RegsCanonical.ite h.setR64.setR.setFB.setF.setF.setR h.setR64.setR.setFB.setF.setF).andThen fun h =>
    .ite h.setR.setR.setF.setF.setF h

theorem RegsCanonical.resetRegisters {old new : State} {cause : Nat} (h : RegsCanonical new) :
    RegsCanonical (resetRegisters old new cause) :=
  (RegsCanonical.ite h.identRegs.setF.setF h.identRegs).setR.setR.keep

theorem RegsCanonical.deviceReset {s : State} {cause : Nat} {xo test : Bool} : RegsCanonical (deviceReset s cause xo test) := by
  unfold Machine.deviceReset; extract_lets _ _ _ _ _ _ _ new
  have hnew : RegsCanonical new := show Sparse.wf regDefault [] = true from rfl
  exact hnew.resetRegisters

theorem RegsCanonical.releaseReset {s : State} {cause : Nat} {xo test : Bool} : RegsCanonical (releaseReset s cause xo test) :=
  RegsCanonical.deviceReset.keep

theorem RegsCanonical.startFirmware {s img fallback} (h : RegsCanonical s) : RegsCanonical (startFirmware s img fallback) :=
  h.rootKey.setFB.setF.setF.keep

theorem RegsCanonical.flashBoot {s} (h : RegsCanonical s) : RegsCanonical (flashBoot s) :=
  .ite h.startFirmware (.ite h.startFirmware h.setPwr)

theorem RegsCanonical.romStart {s} (h : RegsCanonical s) : RegsCanonical (romStart s) :=
  .ite h (by
    extract_lets
    split
    · exact h.venuePlace.setPwr
    · exact h.venuePlace.setPwr
    · exact .ite h.venuePlace.flashBoot h.venuePlace.setPwr
    · exact h.venuePlace.flashBoot)

theorem RegsCanonical.bootGo {s} (h : RegsCanonical s) : RegsCanonical (bootGo s) := .ite h.startFirmware h
theorem RegsCanonical.uartBoot {s image} (h : RegsCanonical s) : RegsCanonical (uartBoot s image) := .ite h.setPwr.startFirmware h

theorem RegsCanonical.restartClk {s} (h : RegsCanonical s) : RegsCanonical (restartClk s) :=
  .updateSteer (.foldl h fun _ _ h => h.refInstall)

theorem RegsCanonical.wakeDone {s} (h : RegsCanonical s) : RegsCanonical (wakeDone s) := h.keep.restartClk.logEv

theorem RegsCanonical.pwrGoodRise {s g} (h : RegsCanonical s) : RegsCanonical (pwrGoodRise s g) := by
  unfold Machine.pwrGoodRise; split
  · exact .ite h (.ite h.setF.setPwr.romStart h.setF.setPwr)
  · exact .ite h (.ite h.setF.setPwr h.setF.wakeDone)
  · exact h

theorem RegsCanonical.enablesDown {s q kind} (h : RegsCanonical s) : RegsCanonical (enablesDown s q kind) :=
  h.setPwr.setF.setR.publishPwr.showNow

theorem RegsCanonical.sequenceTimeout {s} (h : RegsCanonical s) : RegsCanonical (sequenceTimeout s) := by
  unfold Machine.sequenceTimeout; extract_lets; split; exacts [h.setR.enablesDown, h.setR.enablesDown, h]

theorem RegsCanonical.railState {s k mv under} (h : RegsCanonical s) : RegsCanonical (railState s k mv under) :=
  .ite h (.ite h.setPwr h.setPwr.addCtr.raise.logEv.fmuteSet.pairRelease)

theorem RegsCanonical.pgoodPin {s k low} (h : RegsCanonical s) : RegsCanonical (pgoodPin s k low) := by
  unfold Machine.pgoodPin; split; exacts [.ite h h.setF, h]

theorem RegsCanonical.railUndervoltage {s k mv low} (h : RegsCanonical s) : RegsCanonical (railUndervoltage s k mv low) :=
  h.setR.pgoodPin.railState

theorem RegsCanonical.kpuRail {s} (h : RegsCanonical s) : RegsCanonical (kpuRail s) := .ite h h.railState
theorem RegsCanonical.wdtWrite {s v} (h : RegsCanonical s) : RegsCanonical (wdtWrite s v) := .ite h.setF.setPwr h.setF

theorem RegsCanonical.wdtExpire {s : State} {rel : WdtIn} (h : RegsCanonical s) : RegsCanonical (wdtExpire s rel) :=
  .ite h (.ite .releaseReset h.restartFw.setPwr.addCtr.raise.logEv)

theorem RegsCanonical.thermalSample {s temps} (h : RegsCanonical s) : RegsCanonical (thermalSample s temps) :=
  (h.foldl fun _ _ h => h.setR).andThen fun h =>
    (RegsCanonical.ite (.ite h.setF.setFB.addCtr.logEv.raise h.setF) (.ite h.setF.setFB h.setF)).andThen fun h => .ite h.setPwr h

theorem RegsCanonical.thermalTrip {s k temp} (h : RegsCanonical s) : RegsCanonical (thermalTrip s k temp) :=
  .ite h h.setPwr.logEv.raise.fmuteSet.pairRelease

theorem RegsCanonical.tripDivider {s} (h : RegsCanonical s) : RegsCanonical (tripDivider s) := h.setF.kpuRail
theorem RegsCanonical.thermalShutdown {s} (h : RegsCanonical s) : RegsCanonical (thermalShutdown s) := .ite h.enablesDown h
theorem RegsCanonical.pmbWrite {s v} (h : RegsCanonical s) : RegsCanonical (pmbWrite s v) := .ite h.setR.setFB.setPwr h.setR

theorem RegsCanonical.pmbusDone {s nack pec data} (h : RegsCanonical s) : RegsCanonical (pmbusDone s nack pec data) :=
  .ite h
    ((RegsCanonical.ite h.setFB.setFB h.setFB).andThen fun h =>
      (RegsCanonical.ite h.setFB h).andThen fun h => (RegsCanonical.ite h.setR h).raise)

theorem RegsCanonical.wakeStart {s b} (h : RegsCanonical s) : RegsCanonical (wakeStart s b) := .ite h h.setR.raise.setPwr
theorem RegsCanonical.darkCommit {s} (h : RegsCanonical s) : RegsCanonical (darkCommit s) := .ite h.setEvent h.setPwr.logEv

theorem RegsCanonical.dropChange {s c} (h : RegsCanonical s) : RegsCanonical (dropChange s c) := by
  unfold Machine.dropChange; split; exacts [h.replyTo, h]

theorem RegsCanonical.darkDiscard {s} (h : RegsCanonical s) : RegsCanonical (darkDiscard s) :=
  (((h.abandonCopy.foldl fun _ _ h => h.dropChange).replyTo.foldl fun _ _ h => h.replyTo).foldl fun _ _ h =>
    h.reply).keep.setTake.stageClear

theorem RegsCanonical.darkFinish {s} (h : RegsCanonical s) : RegsCanonical (darkFinish s) :=
  h.drainDram.darkDiscard.strmDark.setF.setR.setR.keep

end Sys2Proof.Machine
end

section
/-! SUPPORT. O60, register accesses and what a committed word does. -/

namespace Sys2Proof.Machine

open Sys2Proof

theorem RegsCanonical.clearRc {s a} (h : RegsCanonical s) : RegsCanonical (clearRc s a) := by
  unfold Machine.clearRc; split; exacts [h, h.foldl fun _ _ h => h.setR.keep]

theorem RegsCanonical.readReg {s a} (h : RegsCanonical s) : RegsCanonical (readReg s a).2 :=
  .iteSnd h (.iteSnd h.tsqRead (.iteSnd h.tsqRead (.ite h.keep h.keep.clearRc)))

theorem RegsCanonical.readRegs {n a} {s : State} (h : RegsCanonical s) : RegsCanonical (readRegs n a s).2 := by
  induction n generalizing a s with
  | zero => exact h
  | succ n ih => exact ih h.readReg

theorem RegsCanonical.storeWord {s a v} (h : RegsCanonical s) : RegsCanonical (storeWord s a v) := h.setR
theorem RegsCanonical.resend {s n} (h : RegsCanonical s) : RegsCanonical (resend s n) := .ite h.sendVector h
theorem RegsCanonical.ringTail {s v} (h : RegsCanonical s) : RegsCanonical (ringTail s v) := .ite h.raise h.setR
theorem RegsCanonical.ringHead {s v} (h : RegsCanonical s) : RegsCanonical (ringHead s v) := .ite h.raise h.setR
theorem RegsCanonical.setShown {s a v} (h : RegsCanonical s) : RegsCanonical (setShown s a v) := h.setR.keep

theorem RegsCanonical.showRecord {s r} (h : RegsCanonical s) : RegsCanonical (showRecord s r) :=
  h.setShown.foldl fun _ _ h => h.setShown

theorem RegsCanonical.rdSelect {s : State} {v : Nat} (h : RegsCanonical s) : RegsCanonical (rdSelect s v) := by
  unfold Machine.rdSelect; extract_lets s₁ x
  have hx : RegsCanonical x.2 := h.setR.logFetch
  exact hx.showRecord

theorem RegsCanonical.writeNow {s a v} (h : RegsCanonical s) : RegsCanonical (writeNow s a v) :=
  .ite h.ringTail
    (.ite h.ringHead
      (.ite h.setR.sendRisen
        (.ite h.storeWord.sendRisen
          (.ite h.storeWord.resend (.ite h.rdSelect (.ite h (.ite h.wdtWrite (.ite h.pmbWrite h.mboxWrite))))))))

theorem RegsCanonical.commitSys {s a v fw} (h : RegsCanonical s) : RegsCanonical (commitSys s a v fw) :=
  .ite (.ite h.bootGo h) (.ite (.ite h h.keep.setF) h.storeWord)

theorem RegsCanonical.commitClk {s a v} (h : RegsCanonical s) : RegsCanonical (commitClk s a v) :=
  .ite (RegsCanonical.ite h.setFB.keep h.setFB).applySelection
    (.ite h.setR.applySelection
      (.ite h.storeWord.applySelection
        (.ite h.setR
          (.ite ((RegsCanonical.ite h.storeWord h.storeWord).andThen fun h => .ite h h.refInstall)
            (.ite h.storeWord h.storeWord)))))

theorem RegsCanonical.commitTime {s a v} (h : RegsCanonical s) : RegsCanonical (commitTime s a v) :=
  .ite (.ite h.storeWord.applyServoEn.keep.enterJump h.storeWord.applyServoEn) (.ite h.storeWord h.storeWord)

theorem RegsCanonical.commitNet {s p a v} (h : RegsCanonical s) : RegsCanonical (commitNet s p a v) :=
  .ite (.ite h.storeWord.raise ((RegsCanonical.ite h.storeWord h.storeWord.linkChange).andThen fun h => .ite h h.applyServoEn))
    (.ite h.setR (.ite h.setR h.storeWord))

theorem RegsCanonical.commitConv {s a v} (h : RegsCanonical s) : RegsCanonical (commitConv s a v) :=
  .ite h.setR (.ite h.storeWord (.ite h.storeWord.capCommit h.storeWord))

theorem RegsCanonical.commitDisp {s a v} (h : RegsCanonical s) : RegsCanonical (commitDisp s a v) :=
  .ite (.ite h.keep h) (.ite (.ite (h.storeWord.foldl fun _ _ h => h.setR) h.storeWord) h.storeWord)

theorem RegsCanonical.commitXpt {s a v} (h : RegsCanonical s) : RegsCanonical (commitXpt s a v) :=
  .ite h.ngainCommit (.ite h.ceilLimCommit (.ite h.fmuteClear (.ite (.ite h.fmuteSet h) (.ite (.ite h.holdClear h) h.storeWord))))

theorem RegsCanonical.logCtrlCommit {s v} (h : RegsCanonical s) : RegsCanonical (logCtrlCommit s v) :=
  (RegsCanonical.ite h.logClear h).andThen fun h => .ite h (.ite h.logStart h.logStart.logEv)

theorem RegsCanonical.commitWord {s a v fw} (h : RegsCanonical s) : RegsCanonical (commitWord s a v fw) :=
  .ite h (by
    split
    · exact h.commitSys
    · exact h.commitClk
    · exact h.commitTime
    · exact h.commitNet
    · exact h.commitNet
    · exact .ite h.geomCtrlCommit (.ite h.kspmCommit (.ite h.floorCommit (.ite h.objWrite h.storeWord)))
    · exact .ite h.setR h.storeWord
    · exact h.commitConv
    · exact .ite h.kpuClkWrite (.ite h.kpuFaultWrite h.storeWord)
    · exact h.commitDisp
    · exact h.commitXpt
    · exact .ite h.reelBaseCommit (.ite h.reelBaseCommit h.storeWord)
    · exact .ite h.maskCommit h.storeWord
    · exact .ite h.spanCommit h.storeWord
    · exact .ite h.memCfgCommit (.ite h.fspReqCommit (.ite h.trainCtrlCommit (.ite h.setR h.storeWord)))
    · exact .ite (.ite h.storeWord.keep h.storeWord) h.storeWord
    · exact .ite h.pairCfgCommit (.ite h.pairCtrlCommit (.ite h.setR h.storeWord))
    · exact .ite h.logCtrlCommit (.ite h h.storeWord)
    · exact .ite (.ite h.storeWord.darkCommit h.storeWord) h.storeWord
    · exact h.storeWord)

theorem RegsCanonical.commitWrite {s a v fw} (h : RegsCanonical s) : RegsCanonical (commitWrite s a v fw) :=
  .ite h (by
    extract_lets
    split
    · exact .ite h.stamp.commitWord.resend (.ite h.stamp.commitWord.sendRisen h.stamp.commitWord)
    · exact h.stamp.commitWord)

theorem RegsCanonical.hostWrite {s a v} (h : RegsCanonical s) : RegsCanonical (hostWrite s a v) := .ite h.writeNow h.queueWrite

theorem RegsCanonical.registerWrite {s a v be} (h : RegsCanonical s) : RegsCanonical (registerWrite s a v be) :=
  .ite h (.ite h.addCtr h.hostWrite)

theorem RegsCanonical.registerRead {s a} (h : RegsCanonical s) : RegsCanonical (registerRead s a) := .ite h h.readReg.keep

theorem RegsCanonical.intstatClear {s n v} (h : RegsCanonical s) : RegsCanonical (intstatClear s n v) := by
  unfold Machine.intstatClear; split; exacts [h.hostWrite, h]

theorem RegsCanonical.msixEntry {s n addr data masked} (h : RegsCanonical s) : RegsCanonical (msixEntry s n addr data masked) :=
  .ite h (.ite h.keep (.ite h.keep.sendVector h.keep))

theorem RegsCanonical.pciePerst {s low} (h : RegsCanonical s) : RegsCanonical (pciePerst s low) := h.keep

end Sys2Proof.Machine
end

section
/-! SUPPORT. O60, the command engine. -/

namespace Sys2Proof.Machine

open Sys2Proof

theorem RegsCanonical.pendOp {s op ctx} (h : RegsCanonical s) : RegsCanonical (pendOp s op ctx) := h.pendAs

theorem RegsCanonical.queueFrame {s f c ctx} (h : RegsCanonical s) : RegsCanonical (queueFrame s f c ctx) :=
  .ite h.reply (.ite h.reply h.frameAs.reply)

theorem RegsCanonical.setChangeCmd {s b k fx x ctx} (h : RegsCanonical s) : RegsCanonical (setChangeCmd s b k fx x ctx) :=
  .ite h.reply (.ite h.reply h.frameAs)

theorem RegsCanonical.readCmd {s a n ctx} (h : RegsCanonical s) : RegsCanonical (readCmd s a n ctx) := h.readRegs.reply

theorem RegsCanonical.writeWords {l a} {s : State} (h : RegsCanonical s) : RegsCanonical (writeWords s a l) := by
  induction l generalizing a s with
  | nil => exact h
  | cons v l ih => exact ih h.hostWrite

theorem RegsCanonical.writeCmd {s at_ a l ctx} (h : RegsCanonical s) : RegsCanonical (writeCmd s at_ a l ctx) := by
  unfold Machine.writeCmd; split; exacts [h.queueFrame, h.writeWords.reply]

theorem RegsCanonical.modifyCmd {s at_ a m v ctx} (h : RegsCanonical s) : RegsCanonical (modifyCmd s at_ a m v ctx) := by
  unfold Machine.modifyCmd; split; exacts [h.queueFrame, (RegsCanonical.ite h.writeNow h.pendAs).reply]

theorem RegsCanonical.snapshotCmd {s f l ctx} (h : RegsCanonical s) : RegsCanonical (snapshotCmd s f l ctx) :=
  .ite h.reply (.ite h.reply h.keep)

theorem RegsCanonical.logRecords {n seq} {s : State} (h : RegsCanonical s) : RegsCanonical (logRecords n seq s).2 := by
  induction n generalizing seq s with
  | zero => exact h
  | succ n ih =>
    refine .iteSnd h ?_
    have hf := h.logFetch (seq := seq)
    generalize Machine.logFetch s seq = r at hf ⊢
    split; exacts [hf, ih hf]

theorem RegsCanonical.logReadCmd {s first n ctx} (h : RegsCanonical s) : RegsCanonical (logReadCmd s first n ctx) :=
  .ite h.reply h.logRecords.reply

theorem RegsCanonical.setBeginCmd {s bus slot size ctx} (h : RegsCanonical s) : RegsCanonical (setBeginCmd s bus slot size ctx) :=
  .ite h.reply (.ite h.addCtr.reply h.keep.reply)

theorem RegsCanonical.setDataCmd {s ofs d ctx} (h : RegsCanonical s) : RegsCanonical (setDataCmd s ofs d ctx) := by
  unfold Machine.setDataCmd; split; exacts [.ite h.reply h.keep.reply, h.reply]

theorem RegsCanonical.eccInjectCmd {s k kind ofs ctx} (h : RegsCanonical s) : RegsCanonical (eccInjectCmd s k kind ofs ctx) :=
  .ite h.reply (by split; exacts [h.injectAt.reply, h.reply])

theorem RegsCanonical.logClearCmd {s ctx} (h : RegsCanonical s) : RegsCanonical (logClearCmd s ctx) := .ite h.reply h.pendOp

theorem RegsCanonical.pairSwitchCmd {s f ctx} (h : RegsCanonical s) : RegsCanonical (pairSwitchCmd s f ctx) := by
  unfold Machine.pairSwitchCmd; split; exacts [h.reply, .ite h.reply h.frameAs.pairSend.reply]

theorem RegsCanonical.setEndCmd {s ctx} (h : RegsCanonical s) : RegsCanonical (setEndCmd s ctx) :=
  (RegsCanonical.reply (by split; exacts [by split; exacts [h.setEnd.forwardSet, h.setEnd], h.setEnd]))

theorem RegsCanonical.hwExec {s at_ op ctx} (h : RegsCanonical s) : RegsCanonical (hwExec s at_ op ctx) := by
  unfold Machine.hwExec; split; exacts [h.readCmd, h.writeCmd, h.modifyCmd, h.snapshotCmd, h]

theorem RegsCanonical.fwExec {s op ctx} (h : RegsCanonical s) : RegsCanonical (fwExec s op ctx) :=
  .ite h.reply (by
    split
    · exact h.reply
    · exact h.reply
    · exact h.reply
    · exact h.stageBegin
    · exact h.stageData
    · exact h.stageEnd
    · exact h.stageFromReel
    · exact .ite h.reply h.pendOp
    · exact h.stageStatus
    · exact h.cutCommand
    · exact h.pendOp
    · exact h.reelBegin
    · exact h.reelData
    · exact h.reelEnd
    · exact h.reelDelete
    · exact h.reelList
    · exact h.logReadCmd
    · exact h.reply
    · exact h.reply
    · exact h.logClearCmd
    · exact h.pairStatus
    · exact h.pairSwitchCmd
    · exact h.pairResync
    · exact h.setBeginCmd
    · exact h.setDataCmd
    · exact h.setEndCmd
    · exact h.setChangeCmd
    · exact h.reply
    · exact h.queueFrame
    · exact h.queueFrame
    · exact h.fwBegin
    · exact h.fwData
    · exact h.fwEnd
    · exact h.fwSwitch
    · exact h.fwStatus
    · exact h.reply
    · exact h.fspRequest
    · exact h.memTrain
    · exact h.eccInjectCmd
    · exact h)

theorem RegsCanonical.opCommit {s op ctx} (h : RegsCanonical s) : RegsCanonical (opCommit s op ctx) := by
  unfold Machine.opCommit; split
  · exact (RegsCanonical.ite h h.stamp).stageDiscard
  · exact (RegsCanonical.ite h.stamp h).cutCancel
  · exact .ite h.replyTo h.stamp.logClear.replyTo
  · exact .ite h.setChange.setOutcome h.setChange.replyTo
  · exact h.stamp.keep
  · exact h.stamp.keep
  · exact h.stamp.switchNow
  · exact h.fwSwitchNow
  · exact h

theorem RegsCanonical.commitAny {s a v fw} (h : RegsCanonical s) : RegsCanonical (commitAny s a v fw) :=
  .ite h.writeNow h.commitWrite

theorem RegsCanonical.commitWords {fw l a} {s : State} (h : RegsCanonical s) : RegsCanonical (commitWords fw s a l) := by
  induction l generalizing a s with
  | nil => exact h
  | cons v l ih => exact ih h.commitAny

theorem RegsCanonical.commitChange {s x1} (h : RegsCanonical s) : RegsCanonical (commitChange s x1) := by
  unfold Machine.commitChange; split; exacts [h.commitWords, h.commitAny, h.opCommit]

theorem RegsCanonical.fwRun {x seq code n} {s : State} (h : RegsCanonical s) : RegsCanonical (fwRun x seq code n s) := by
  induction n generalizing s with
  | zero => exact h
  | succ n ih =>
    refine .ite h ?_
    split
    · exact h
    · exact .ite h.keep.fwExec (ih h.keep.fwExec)

theorem RegsCanonical.authDrop {s x} (h : RegsCanonical s) : RegsCanonical (authDrop s x) := by
  unfold Machine.authDrop; extract_lets; split; exacts [h.addCtr.raise.logRun.keep, h.addCtr.raise]

theorem RegsCanonical.sequenceRule {s ctx} (h : RegsCanonical s) : RegsCanonical (sequenceRule s ctx).2 := by
  unfold Machine.sequenceRule; extract_lets; split
  · exact .iteSnd h.putSession
      (.iteSnd (by split; exacts [h.putSession.addCtr.placeReply, h.putSession]) h.putSession.addCtr.placeReply)
  · exact .iteSnd h.putSession.placeReply h.putSession

theorem RegsCanonical.takeCommand {s ctx p} (h : RegsCanonical s) : RegsCanonical (takeCommand s ctx p) :=
  .ite h.addCtr.reply
    (.ite h.addCtr.reply
      (.ite h.addCtr.reply (by
        extract_lets
        split
        · exact h.addCtr.reply
        · exact .ite h.addCtr.hwExec
            (.ite h.addCtr.reply (.ite h.addCtr.reply (RegsCanonical.keep (by split; exacts [h.addCtr.metaInject, h.addCtr])))))))

theorem RegsCanonical.takePkt {s : State} {x : Sess} {nport mac : Nat} {p : CcpPkt} (h : RegsCanonical s) :
    RegsCanonical (takePkt s x nport mac p) := by
  refine .ite h.authDrop ?_
  extract_lets _ s₁ ctx
  have hq : RegsCanonical (Machine.sequenceRule s₁ ctx).2 := (RegsCanonical.ite h.keep h).sequenceRule
  split
  · exact (hq.of_eq ‹_›).keep.takeCommand
  · exact hq.of_eq ‹_›

theorem RegsCanonical.badPacket {s} (h : RegsCanonical s) : RegsCanonical (badPacket s) := h.addCtr.raise

theorem RegsCanonical.takePacket {s x nport mac b} (h : RegsCanonical s) : RegsCanonical (takePacket s x nport mac b) := by
  unfold Machine.takePacket; split; exacts [h.badPacket, h.takePkt]

theorem RegsCanonical.cmdHead {s v} (h : RegsCanonical s) : RegsCanonical (cmdHead s v) := h.setR.raise

theorem RegsCanonical.ringTake {s} (h : RegsCanonical s) : RegsCanonical (ringTake s) := by
  unfold Machine.ringTake; extract_lets; split; exacts [h.badPacket.cmdHead.raise, h.cmdHead.takePkt]

theorem RegsCanonical.drainRing {n} {s : State} (h : RegsCanonical s) : RegsCanonical (drainRing n s) := by
  induction n generalizing s with
  | zero => exact h
  | succ n ih => exact .ite h (ih h.ringTake)

theorem RegsCanonical.serveRing {s} (h : RegsCanonical s) : RegsCanonical (serveRing s) := h.drainRing

theorem RegsCanonical.drainSpi {n} {s : State} (h : RegsCanonical s) : RegsCanonical (drainSpi n s) := by
  induction n generalizing s with
  | zero => exact h
  | succ n ih => unfold Machine.drainSpi; split; exacts [h, .ite h (ih h.keep.raise.takePacket)]

theorem RegsCanonical.serveSpi {s} (h : RegsCanonical s) : RegsCanonical (serveSpi s) := h.drainSpi

theorem RegsCanonical.cmdTailWrite {s data v} (h : RegsCanonical s) : RegsCanonical (cmdTailWrite s data v) :=
  .ite h h.keep.writeNow.serveRing

theorem RegsCanonical.writeCmdSpi {s b} (h : RegsCanonical s) : RegsCanonical (writeCmdSpi s b) :=
  .ite h (.ite h.keep.addCtr.raise h.keep.serveSpi.serveRing)

theorem RegsCanonical.ringSend {s b} (h : RegsCanonical s) : RegsCanonical (ringSend s b) := .ite h h.cmdTailWrite

theorem RegsCanonical.deliverPacket {s x nport mac b} (h : RegsCanonical s) : RegsCanonical (deliverPacket s x nport mac b) := by
  unfold Machine.deliverPacket; split; exacts [h.ringSend, h.writeCmdSpi, h.takePacket]

theorem RegsCanonical.ccpCommand {h op s} (hs : RegsCanonical s) : RegsCanonical (ccpCommand h op s) :=
  .ite hs hs.deliverPacket.fwRun.serveRing

end Sys2Proof.Machine
end

section
/-! SUPPORT. O60, the receive side of the network. -/

namespace Sys2Proof.Machine

open Sys2Proof

theorem RegsCanonical.cpqPut {s p flags stamp tagged b} (h : RegsCanonical s) : RegsCanonical (cpqPut s p flags stamp tagged b) :=
  .ite h.addCtr.raise h.setPort

theorem RegsCanonical.filtered {s p} (h : RegsCanonical s) : RegsCanonical (filtered s p) := h.addCtr

theorem RegsCanonical.timeEngine {s p f o stamp} (h : RegsCanonical s) : RegsCanonical (timeEngine s p f o stamp) := by
  unfold Machine.timeEngine; extract_lets; split; exacts [h.ptpSync, h.followUp, h.pdelayReq, h]

theorem RegsCanonical.macControl {s p f} (h : RegsCanonical s) : RegsCanonical (macControl s p f) :=
  .ite (.ite h.setPort.addCtr.raise h) (.ite (.ite h.setPort.addCtr.raise h) h.filtered)

theorem RegsCanonical.dispatch {s p stamp tagged f whole} (h : RegsCanonical s) : RegsCanonical (dispatch s p stamp tagged f whole)
    :=
  .ite h.macControl (by
    split
    · exact h.timeEngine.cpqPut
    · exact by
        split
        · exact h.cpqPut
        · exact by
            split
            · exact h.streamPacket
            · exact .ite (.ite h.badPacket h.takePacket.serveRing)
                (.ite h.beaconReceive (.ite h.netClapper (RegsCanonical.ite h.addCtr h).cpqPut)))

theorem RegsCanonical.monitorFrame {s p f} (h : RegsCanonical s) : RegsCanonical (monitorFrame s p f) := by
  unfold Machine.monitorFrame; extract_lets; split; exacts [.ite h.monitored h, h]

theorem RegsCanonical.deliver {s p stamp b} (h : RegsCanonical s) : RegsCanonical (deliver s p stamp b) :=
  .ite h.cpqPut (.ite h.filtered h.monitorFrame.dispatch)

theorem RegsCanonical.forwardFrame {s : State} {p stamp : Nat} {b : Bytes} (h : RegsCanonical s) :
    RegsCanonical (forwardFrame s p stamp b) := by
  unfold Machine.forwardFrame; extract_lets q tagged w f raw plain tc event
  have hplain : RegsCanonical plain := h.enqueue2
  have hevent : ∀ o extra corr, RegsCanonical (event o extra corr) := by
    intro o extra corr
    unfold event; split
    · exact h.enqueue0.of_eq ‹_›
    · exact (h.enqueue0.of_eq ‹_›).addCtr.raise
  refine .ite h (.ite hplain ?_)
  split
  · exact hplain
  split
  · exact hevent _ _ _
  · exact .ite (hevent _ _ _) h
  · exact .ite (hevent _ _ _) h
  · exact .ite (hevent _ _ _) h
  · exact .ite hplain h
  · exact hplain

theorem RegsCanonical.chainFrame {s p stamp b} (h : RegsCanonical s) : RegsCanonical (chainFrame s p stamp b) :=
  .ite h.setPort.addCtr.logRun.raise
    (.ite (RegsCanonical.ite h.setPort.forwardFrame h.setPort).deliver
      (.ite (.ite h.setPort.deliver h.setPort.forwardFrame) (.ite h.setPort.forwardFrame.deliver h.setPort.forwardFrame.filtered)))

theorem RegsCanonical.wakeDetect {s p b} (h : RegsCanonical s) : RegsCanonical (wakeDetect s p b) := .ite h h.setF.raise.wakeStart

theorem RegsCanonical.passSound {s p h} (hs : RegsCanonical s) : RegsCanonical (passSound s p h) :=
  .ite (.ite hs.cpqPut hs) (.ite hs.chainFrame (.ite hs.deliver hs.filtered))

theorem RegsCanonical.passFrame {s p h} (hs : RegsCanonical s) : RegsCanonical (passFrame s p h) :=
  .ite hs.frameBad hs.frameBad.passSound

theorem RegsCanonical.passFrames {s busy} (h : RegsCanonical s) : RegsCanonical (passFrames s busy) :=
  h.keep.foldl fun _ _ h => h.passFrame

theorem RegsCanonical.frameReceive {s p b cap codeErr align fill other} (h : RegsCanonical s) : RegsCanonical (frameReceive s p b
    cap codeErr align fill other) :=
  .ite h
    (.ite (.ite h.wakeDetect h)
      (.ite h
        (.ite h.addCtr.raise.fillControl.passFrames
          (RegsCanonical.ite h.fillControl.addCtr.raise h.fillControl.addCtr).setPort.passFrames)))

theorem RegsCanonical.linkEvent {s p sync speed an lf rf} (h : RegsCanonical s) : RegsCanonical (linkEvent s p sync speed an lf rf)
    :=
  (RegsCanonical.ite h.linkChange h.linkChange.passFrames).andThen fun h => .ite h.setFB.raise.wakeStart h

end Sys2Proof.Machine
end

section
/-! SUPPORT. O60, the host interfaces. -/

namespace Sys2Proof.Machine

open Sys2Proof

theorem RegsCanonical.rplHeadWrite {s v} (h : RegsCanonical s) : RegsCanonical (rplHeadWrite s v) := .ite h h.writeNow

theorem RegsCanonical.placeHeld {n} {s : State} (h : RegsCanonical s) : RegsCanonical (placeHeld n s) := by
  induction n generalizing s with
  | zero => exact h
  | succ n ih =>
    unfold Machine.placeHeld; split
    · exact h
    rename_i b t _
    have hr := h.ringPlace (b := b)
    generalize Machine.ringPlace s b = r at hr ⊢
    split; exacts [ih hr.keep, hr]

theorem RegsCanonical.replyRelease {s} (h : RegsCanonical s) : RegsCanonical (replyRelease s) := .ite h h.placeHeld.serveRing
theorem RegsCanonical.readStat {s} (h : RegsCanonical s) : RegsCanonical (readStat s) := .ite h h.keep
theorem RegsCanonical.readRpl {s} (h : RegsCanonical s) : RegsCanonical (readRpl s) := .ite h h.keep

theorem RegsCanonical.ackRpl {s} (h : RegsCanonical s) : RegsCanonical (ackRpl s) :=
  .ite h (h.keep.foldl fun _ _ h => h.spiPlace).serveRing.serveSpi

end Sys2Proof.Machine
end

section
/-! SUPPORT. O60, the frame boundary. -/

namespace Sys2Proof.Machine

open Sys2Proof

theorem RegsCanonical.advanceTimeline {s} (h : RegsCanonical s) : RegsCanonical (advanceTimeline s) := h.keep

theorem RegsCanonical.transmitEmitted {s} (h : RegsCanonical s) : RegsCanonical (transmitEmitted s) := by
  unfold Machine.transmitEmitted; split; exacts [h.strmTransmit, h]

theorem RegsCanonical.cancelStep {s} (h : RegsCanonical s) : RegsCanonical (cancelStep s) := .ite h.keep h

theorem RegsCanonical.endOfFrame {s} (h : RegsCanonical s) : RegsCanonical (endOfFrame s) :=
  h.keep.emissionCutoff.advanceTimeline.cancelStep.timeBoundary.agePeers.linkBoundary.linkBoundary.transmitEmitted.fabBoundary
    |>.clearMiss.expireReqs.keep.relockFrame.relockRamp

theorem RegsCanonical.spliceDue {s} (h : RegsCanonical s) : RegsCanonical (spliceDue s) :=
  (RegsCanonical.ite h.keep.splice h).realignDue

theorem RegsCanonical.captureFrame {s lab bi} (h : RegsCanonical s) : RegsCanonical (captureFrame s lab bi).2 := by
  unfold Machine.captureFrame; extract_lets; split; exacts [h.objCapture, h.strmCapture.lioCapture.objCapture.farStore]

theorem RegsCanonical.beginProcessing {s xin} (h : RegsCanonical s) : RegsCanonical (beginProcessing s xin) :=
  h.startWork.injectToken.convBoundary.ungate

theorem RegsCanonical.takeDue {s} (h : RegsCanonical s) : RegsCanonical (takeDue s) := h.keep

theorem RegsCanonical.commitFrameAddressed {s} (h : RegsCanonical s) : RegsCanonical (commitFrameAddressed s) :=
  h.takeDue.foldl fun _ _ h => h.commitChange

theorem RegsCanonical.commitPending {s} (h : RegsCanonical s) : RegsCanonical (commitPending s) :=
  h.keep.foldl fun _ _ h => h.commitChange

theorem RegsCanonical.commitBoundary {s : State} {bi : BoundaryIn} (h : RegsCanonical s) : RegsCanonical (commitBoundary s bi).2 := by
  unfold Machine.commitBoundary; extract_lets lab s₁ x s₂ s₃
  have hx : RegsCanonical x.2 := h.spliceDue.releaseMasks.captureFrame
  have h₃ : RegsCanonical s₃ := hx.masksSettle.beginProcessing.rsPhase.cutDue.rsCut
  dsimp only
  exact h₃.commitFrameAddressed.commitPending.tripDivider.endJump

theorem RegsCanonical.publishSys {s} (h : RegsCanonical s) : RegsCanonical (publishSys s) :=
  h.setR64.setR64.setR.setR.setFB.setF.setFB.setFB.setR.setR

theorem RegsCanonical.publish {s} (h : RegsCanonical s) : RegsCanonical (publish s) :=
  h.publishLog.publishPair.publishTake.publishPeers.publishPwr.publishNet.publishNet.publishClk.publishTime.publishFab.publishDrains
    |>.publishMem.publishKpu.publishDisp.publishConv.publishXpt.publishStrm.publishGeom.publishLio.publishSys.showRecord.keep

theorem RegsCanonical.logBoundary {s} (h : RegsCanonical s) : RegsCanonical (logBoundary s) := h.flushLog
theorem RegsCanonical.snapNow {s x} (h : RegsCanonical s) : RegsCanonical (snapNow s x) := h.reply
theorem RegsCanonical.snapshots {s} (h : RegsCanonical s) : RegsCanonical (snapshots s) := h.keep.foldl fun _ _ h => h.snapNow

theorem RegsCanonical.emission {s xin} (h : RegsCanonical s) : RegsCanonical (emission s xin) :=
  (h.houseFrames.decideMute.emitFrame (fun _ _ _ h => h.noteDigest)).meterBoundary

theorem RegsCanonical.tickBoundary {s} (h : RegsCanonical s) : RegsCanonical (tickBoundary s) :=
  .ite h.dropRunEnd h.dropRunEnd.metaTick.geomTick.farFetch

theorem RegsCanonical.clearFresh {s} (h : RegsCanonical s) : RegsCanonical (clearFresh s) := h.keep

theorem RegsCanonical.darkBoundary {s xin} (h : RegsCanonical s) : RegsCanonical (darkBoundary s xin) :=
  h.keep.emission.logBoundary.publish

theorem RegsCanonical.darkEnd {s} (h : RegsCanonical s) : RegsCanonical (darkEnd s) :=
  h.clearFresh.advanceTimeline.transmitEmitted.darkFinish.logBoundary.publish

theorem RegsCanonical.afterCommits {s xin} (h : RegsCanonical s) : RegsCanonical (afterCommits s xin) :=
  h.pairRoles.cutImages.gateCores.driveDue.tickBoundary.tdmStates.emission.dropUncompared.sendReady.servePeer.missRecords
    |>.logBoundary.publish.snapshots.serveRing

theorem RegsCanonical.frameBoundary {s bi} (h : RegsCanonical s) : RegsCanonical (frameBoundary s bi) :=
  .ite h (.ite h.darkEnd (h.clearFresh.endOfFrame.commitBoundary.andThen fun h => .ite h.darkBoundary h.afterCommits))

end Sys2Proof.Machine
end

section
/-! SUPPORT. O60, register accesses over the fabric. -/

namespace Sys2Proof.Machine

open Sys2Proof

theorem RegsCanonical.fabRegWrite {m s a v} (h : RegsCanonical s) : RegsCanonical (fabRegWrite m s a v) :=
  .ite h.hostWrite (.ite h.fwReady (.ite h.writeNow h.pendNow))

theorem RegsCanonical.regBurst {s : State} {b : Burst} (h : RegsCanonical s) : RegsCanonical (regBurst s b) := by
  unfold Machine.regBurst; split
  · exact (h.foldl fun _ _ h => h.fabRegWrite).serveRing
  · exact h.readRegs.keep

theorem RegsCanonical.carryOut {s b} (h : RegsCanonical s) : RegsCanonical (carryOut s b) :=
  .ite h (.ite h.regBurst (.ite h.keep (.ite h.burstEnd.keep h.burstEnd)))

theorem RegsCanonical.finishBurst {s b} (h : RegsCanonical s) : RegsCanonical (finishBurst s b) := .ite h.carryOut.keep h.carryOut
theorem RegsCanonical.endBurst {s b} (h : RegsCanonical s) : RegsCanonical (endBurst s b) := h.finishBurst.retire

theorem RegsCanonical.fabAsk {s r} (h : RegsCanonical s) : RegsCanonical (fabAsk s r) :=
  .ite h.fabError.keep.masterError (by split; exacts [h.fabError.keep.masterError, .ite h.keep h.keep.grant])

theorem RegsCanonical.wakeStalled {s : State} (h : RegsCanonical s) : RegsCanonical (wakeStalled s) := by
  unfold Machine.wakeStalled; extract_lets _ r
  have hr : RegsCanonical r.2 := RegsCanonical.foldlSnd h.keep fun _ _ h => .iteSnd h h.fabAsk
  exact hr.keep

theorem RegsCanonical.drainEnd {s m src cycles} (h : RegsCanonical s) : RegsCanonical (drainEnd s m src cycles) := by
  unfold Machine.drainEnd; split
  · exact h
  · exact (h.keep.foldl fun _ _ h => h.finishBurst.grant).keep.publishDrains.addCtr.logEv.raise.wakeStalled

end Sys2Proof.Machine
end

section
/-! PROOF. O60: every command leaves the register file canonical. -/

namespace Sys2Proof.Machine

open Sys2Proof

/-- Where a command answers a next state, that state's register file is canonical. -/
def RegsCanonicalAfter (o : Host.Outcome State Fault Refusal) : Prop := ∀ t, o = .next t → RegsCanonical t

theorem RegsCanonical.next {s : State} (h : RegsCanonical s) : RegsCanonicalAfter (.next s) := by
  rintro _ ⟨⟩
  exact h

theorem RegsCanonicalAfter.ite {c : Prop} [Decidable c] {a b} (ha : RegsCanonicalAfter a) (hb : RegsCanonicalAfter b) :
    RegsCanonicalAfter (if c then a else b) := by
  split; exacts [ha, hb]

/-- Every command, by the lemma of what it does. -/
theorem RegsCanonical.exec {s} (h : RegsCanonical s) (i : Instr) : RegsCanonicalAfter (exec i s) := by
  cases i with
  | frameBoundary => exact h.frameBoundary.next
  | pathRender => exact h.pathRender.next
  | correctionGroupStart => exact RegsCanonical.next (by split; exacts [.ite h.correctGroup h, h])
  | convBlockWork => exact h.blockWork.next
  | setConversionDone => exact h.conversionDone.next
  | safetyStage => exact h.safetyStage.next
  | emissionCutoff => exact h.emissionCutoff.next
  | rootPllRelockDone => exact (RegsCanonical.ite h.keep h).next
  | dispatcherCycle => exact h.cutImages.dispatcherCycle.next
  | tdoneDrainEnd => exact RegsCanonical.next (by split; exacts [.ite h.unstall.finishTask h, h])
  | tsigDrainEnd => exact RegsCanonical.next (by split; exacts [.ite h.unstall.finishSignal h, h])
  | nop => exact (RegsCanonical.ite h.ctOp (.ite h.kpuFault h)).next
  | vadd | vsub | vneg | vabs | vmin | vmax | vand | vor | vxor | vshl | vshr | vlsr | vshli | vshri | vmov | vbcast | vperm | vmul
    | vmulq | vnar | vmovx => exact h.vecOp.next
  | vcmpeq | vcmplt | vcmple => exact h.cmpOp.next
  | mul | mac | msu | mulb | macb | msub | cmac | cmacj | aclr | accld | accadd => exact h.accOp.next
  | arnd => exact RegsCanonical.next (by split; exacts [h.vecOp, .ite h.kpuFault h])
  | ldv | lds | ldx => exact h.loadOp.next
  | stv | sts | stx => exact h.storeOp.next
  | addX | subX | andX | orX | xorX | shl | shr | sra | addi | movi | mfs => exact h.ctX.next
  | cmp | movv | br | brx | call | zloop | setbase | setlen | mts | rfi => exact h.ctOp.next
  | dmaq => exact (RegsCanonical.ite (.ite h.queueDma h.stallCore) h.ctOp).next
  | dmaqQueueSpace => exact RegsCanonical.next (by split; exacts [.ite h.unstall.queueDma h, h])
  | dmaw => exact (RegsCanonical.ite (.ite h.closeBundle h.stallCore) h.ctOp).next
  | dmawReturn => exact RegsCanonical.next (by split; exacts [.ite h.unstall.closeBundle h, h])
  | dmaTransferDone => exact h.dmaDone.next
  | tdone => exact (RegsCanonical.ite (.ite h.finishTask h.stallCore) h.ctOp).next
  | tsig => exact (RegsCanonical.ite (.ite h.finishSignal h.stallCore) h.ctOp).next
  | swi => exact (RegsCanonical.ite h.setCore.ctOp h.ctOp).next
  | bkpt => exact (RegsCanonical.ite (.ite h.closeBundle.setCore h.closeBundle) h.ctOp).next
  | interruptEntry => exact h.interruptEntry.next
  | kpuMbox => exact h.mboxWrite.next
  | kpuFaultClear | kpuDivRequest | kpuGateRequest | dispCancel | dispHistclr | geomForce | xptNgainWrite | xptCeillimWrite |
    xptFmuteSet | xptFmuteClear | xptHoldClear | timeSet | xosuspectClear | memTrainStart | memFspreqGo | stormClear | forceact |
    logStart | logCtrlClear | pwrDarkEnter => exact h.queueWrite.next
  | houseMuteAssert => exact h.houseAssert.next
  | houseMuteRelease => exact h.houseRelease.next
  | identify | ping | time | read | write | modify | snapshot | stageBegin | stageData | stageEnd | stageFromReel | stageDiscard |
    stageStatus | cut | cutCancel | reelBegin | reelData | reelEnd | reelDelete | reelList | logRead | logInfo | logSpill |
    logClear | pairStatus | pairSwitchover | pairResync | setBegin | setData | setEnd | setChange | setQuery | genStart | genStop |
    fwBegin | fwData | fwEnd | fwSwitch | fwStatus | metaInject | memFsp | memRetrain | eccInject => exact h.ccpCommand.next
  | reelCopyDone => exact h.copyDone.next
  | stageCheckResume => exact h.checkResume.next
  | stageCheckDone => exact h.checkDone.next
  | fwReady => exact h.fwReady.next
  | fwFallback => exact h.fwFallback.next
  | hostCmdtailWrite => exact h.cmdTailWrite.next
  | hostRplheadWrite => exact h.rplHeadWrite.next
  | replyHoldRelease => exact h.replyRelease.next
  | readStat => exact h.readStat.next
  | writeCmd => exact h.writeCmdSpi.next
  | readRpl => exact h.readRpl.next
  | ackRpl => exact h.ackRpl.next
  | qspiUnknownInstruction => exact (RegsCanonical.ite h.addCtr h).next
  | intstatClear => exact h.intstatClear.next
  | msixVectorUnmask => exact h.msixEntry.next
  | registerWrite => exact h.registerWrite.serveRing.next
  | pciePerst => exact h.pciePerst.next
  | streamPacketReceive => exact (h.whilePowered (fun _ h => h.streamPacket)).next
  | streamLegDown => exact h.streamLegDown.next
  | ompReceive => exact h.ompReceive.next
  | frameReceive => exact h.frameReceive.next
  | pauseExpire => exact (h.whilePowered (fun _ h => h.pauseExpire)).next
  | xoffRefresh => exact (h.whilePowered (fun _ h => h.fillControl)).next
  | macFrameEnd => exact (h.whilePowered (fun _ h => h.endFrame.takeNext)).next
  | linkStateChange => exact h.linkEvent.next
  | ptpSyncReceive => exact (h.whilePowered (fun _ h => h.ptpSync)).next
  | followUpReceive => exact (h.whilePowered (fun _ h => h.followUp)).next
  | servoTimeout => exact h.servoTimeout.next
  | fdiffReport => exact h.fdiffReport.next
  | pdelayReqReceive => exact (h.whilePowered (fun _ h => h.pdelayReq)).next
  | launchRequest => exact (h.whilePowered (fun _ h => h.launchRequest)).next
  | launchDue => exact (h.whilePowered (fun _ h => h.idleTake)).next
  | tsqRead => exact h.tsqRead.next
  | measurementWindow => exact h.measurementWindow.next
  | refStop => exact h.refFail.next
  | rateMismatch => exact h.rateMismatch.next
  | spliceStepMeasure => exact h.measureStep.next
  | fastlockStep => exact h.fastlockStep.next
  | dpllLock => exact (RegsCanonical.ite h.dpllLock h).next
  | dpllLockLoss => exact (RegsCanonical.ite h.dpllLockLoss h).next
  | xoInFault => exact (RegsCanonical.ite h.enterClkFault h).next
  | rootPllUnlock => exact h.enterClkFault.next
  | tdmMaskRelease => exact h.tdmMaskRelease.next
  | tdmZeroxTimeout => exact h.tdmZeroxTimeout.next
  | decSettled => exact h.decSettled.next
  | pdmLoadStrobe => exact (RegsCanonical.ite h.pdmStrobe h).next
  | pdmClearAssert => exact h.pdmClearAssert.next
  | pdmClearRelease => exact h.pdmClearRelease.next
  | dramRequest => exact (h.whilePowered (fun _ h => h.dramRequest)).next
  | agePromotion => exact (h.whilePowered (fun _ h => h.agePromotion)).next
  | dramRequestComplete => exact (h.whilePowered (fun _ h => h.dramComplete)).next
  | refresh => exact (h.whilePowered (fun _ h => h.dramRefresh)).next
  | wckDqOscillatorRead => exact (h.whilePowered (fun _ h => h.oscRead)).next
  | mr4Poll => exact (h.whilePowered (fun _ h => h.mr4Poll)).next
  | rowHammerRefresh => exact (h.whilePowered (fun _ h => h.rhRefresh)).next
  | rowHammerTableClear => exact (h.whilePowered (fun _ h => h.keep)).next
  | powerDownEntry => exact (h.whilePowered (fun _ h => h.powerDown)).next
  | selfRefreshEntry => exact (h.whilePowered (fun _ h => h.selfRefresh)).next
  | memTrainingDone => exact h.trainingDone.next
  | memFspChangeDone => exact h.fspDone.next
  | fabricRequest => exact .ite h.next (.ite h.keep.next h.fabAsk.next)
  | burstGrant => exact (h.keep.foldl fun _ _ h => h.endBurst).grant.wakeStalled.next
  | masterReset => exact h.masterReset.next
  | fabDrainEvent => exact h.drainEnd.next
  | eccStormWindow => exact (RegsCanonical.ite h.keep.logEv.raise h.keep).next
  | scrub =>
    have hs : RegsCanonical ((List.range 9).foldl Machine.scrubOne s) := h.foldl fun _ _ h => h.scrubOne
    exact .ite h.next (RegsCanonical.ite hs.keep.raise hs).next
  | clapSend => exact (h.whilePowered (fun _ h => h.clapSend)).next
  | networkClapperSend => exact (h.whilePowered (fun _ h => h.netClapSend)).next
  | clapperReceive => exact (h.whilePowered (fun _ h => .ite h.netClapper (h.onLink (fun _ _ h => h.clapperReceive)))).next
  | pairLinkClapLoss | networkClapLoss => exact (h.whilePowered (fun _ h => .ite h.pathLost h)).next
  | pairLinkSync => exact h.linkSync.next
  | evidenceWindowExpire => exact (h.whilePowered (fun _ h => h.evidence)).next
  | digestReceive => exact (h.whilePowered (fun _ h => h.onLink (fun _ _ h => h.digestReceive))).next
  | switchReceive => exact (h.whilePowered (fun _ h => h.onLink (fun _ _ h => h.switchReceive))).next
  | xferReceive => exact (h.whilePowered (fun _ h => h.onLink (fun _ _ h => h.xferReceive))).next
  | alignReceive => exact (h.whilePowered (fun _ h => h.onLink (fun _ _ h => h.alignReceive))).next
  | resyncTimeout => exact (h.whilePowered (fun _ h => by split; exacts [h.rsFail, h.rsFail, h.rsFail, h.rsFail, h])).next
  | setreadyReceive => exact (h.whilePowered (fun _ h => h.onLink (fun _ _ h => h.setReadyReceive))).next
  | setschedReceive => exact (h.whilePowered (fun _ h => h.onLink (fun _ _ h => h.setSchedReceive))).next
  | beaconSend => exact h.beaconSend.next
  | beaconReceive => exact (h.whilePowered (fun _ h => h.beaconReceive)).next
  | peerExpire => exact h.peerExpire.next
  | logRdseqSelect => exact h.rdSelect.next
  | hoursTick => exact h.keep.next
  | powerOnReset | brownout => exact RegsCanonical.deviceReset.next
  | resetN => exact RegsCanonical.releaseReset.next
  | pwrGoodRise => exact h.pwrGoodRise.next
  | sequenceTimeout => exact h.sequenceTimeout.next
  | sysBootgo => exact (RegsCanonical.ite h.uartBoot h.setPwr.queueWrite).next
  | ckeyWrite => exact h.pendNow.next
  | railUndervoltage => exact h.railUndervoltage.next
  | wdtKick => exact h.wdtWrite.next
  | wdtExpire => exact h.wdtExpire.next
  | thermalSample => exact h.thermalSample.next
  | thermalTrip => exact h.thermalTrip.next
  | thermalShutdown => exact h.thermalShutdown.next
  | hostWake => exact h.wakeStart.next
  | pmbusTransaction => exact h.pmbWrite.next
  | pmbusDone => exact h.pmbusDone.next
  | pmbAlert => exact h.raise.logEv.next
  | referenceGlitch => exact h.referenceGlitch.next
  | launchLatewinExpire => exact (h.whilePowered (fun _ h => h.expireLate)).next
  | registerRead => exact h.registerRead.next
  | hostCauseenWrite => exact h.writeNow.next
  | netrefclkLoss => exact (RegsCanonical.ite h.setPwr (h.setPwr.foldl fun _ _ h => h.linkEvent).linkSync).next

/-- Settles O60: an idle step changes nothing, and a command acts on the state with the rest of the queue. -/
theorem everyStepKeepsRegsCanonical : Obligations.EveryStepKeepsRegsCanonical := by
  unfold Obligations.EveryStepKeepsRegsCanonical step
  intro s t h ht
  split at ht
  · exact h.next t ht
  · exact RegsCanonical.exec (RegsCanonical.keep h) _ t ht

end Sys2Proof.Machine
end

section
/-! SUPPORT. The stable sort of the model: what it lists, and in what order. -/

namespace Sys2Proof.Machine

open Sys2Proof

theorem insertBy_perm {α : Type} (lt : α → α → Bool) (x : α) (l : List α) : (insertBy lt x l).Perm (x :: l) := by
  induction l with
  | nil => exact .refl _
  | cons y l ih =>
    unfold insertBy
    split
    · exact .refl _
    · exact (ih.cons y).trans (.swap x y l)

theorem foldl_insertBy_perm {α : Type} (lt : α → α → Bool) (l acc : List α) :
    (l.foldl (fun a x => insertBy lt x a) acc).Perm (l ++ acc) := by
  induction l generalizing acc with
  | nil => exact .refl _
  | cons x l ih => exact (ih _).trans (((insertBy_perm lt x acc).append_left l).trans List.perm_middle)

theorem sortBy_perm {α : Type} (lt : α → α → Bool) (l : List α) : (sortBy lt l).Perm l := by
  simpa [sortBy] using foldl_insertBy_perm lt l []

theorem mem_sortBy {α : Type} {lt : α → α → Bool} {l : List α} {x : α} : x ∈ sortBy lt l ↔ x ∈ l := (sortBy_perm lt l).mem_iff

/-- An order `le` that `lt` decides: what is not below comes at or above. -/
structure Sorts {α : Type} (lt : α → α → Bool) (le : α → α → Prop) : Prop where
  of_lt : ∀ x y, lt x y = true → le x y
  of_not_lt : ∀ x y, lt x y = false → le y x
  trans : ∀ x y z, le x y → le y z → le x z

theorem Sorts.pairwise_insertBy {α : Type} {lt : α → α → Bool} {le : α → α → Prop} (o : Sorts lt le) (x : α) {l : List α}
    (h : l.Pairwise le) : (insertBy lt x l).Pairwise le := by
  induction l with
  | nil => exact List.pairwise_singleton _ _
  | cons y l ih =>
    obtain ⟨hy, hl⟩ := List.pairwise_cons.1 h
    unfold insertBy
    split
    next hlt =>
      have hxy := o.of_lt x y hlt
      exact List.pairwise_cons.2 ⟨List.forall_mem_cons.2 ⟨hxy, fun z hz => o.trans _ _ _ hxy (hy z hz)⟩, h⟩
    next hlt =>
      refine List.pairwise_cons.2 ⟨fun z hz => ?_, ih hl⟩
      rcases List.mem_cons.1 ((insertBy_perm lt x l).mem_iff.1 hz) with rfl | hz
      · exact o.of_not_lt z y (by simpa using hlt)
      · exact hy z hz

theorem Sorts.pairwise_sortBy {α : Type} {lt : α → α → Bool} {le : α → α → Prop} (o : Sorts lt le) (l : List α) :
    (sortBy lt l).Pairwise le := by
  suffices ∀ acc : List α, acc.Pairwise le → (l.foldl (fun a x => insertBy lt x a) acc).Pairwise le from this [] .nil
  induction l with
  | nil => exact fun _ h => h
  | cons x l ih => exact fun acc h => ih _ (o.pairwise_insertBy x h)

end Sys2Proof.Machine
end

section
/-! PROOF. O40: the order of a frame boundary. -/

namespace Sys2Proof.Machine

open Sys2Proof

/-! The changes of orders 3 and 4. -/

/-- Frame-addressed changes sort by the frame they name, then by arrival (R31). -/
theorem sorts_byFrameThenArrival {α : Type} :
    Sorts (fun a b : Nat × Nat × α => decide (a.1 < b.1 ∨ a.1 = b.1 ∧ a.2.1 < b.2.1))
      (fun c d => c.1 < d.1 ∨ c.1 = d.1 ∧ c.2.1 ≤ d.2.1) where
  of_lt _ _ h := by simp only [decide_eq_true_eq] at h; omega
  of_not_lt _ _ h := by simp only [decide_eq_false_iff_not] at h; omega
  trans _ _ _ hxy hyz := by omega

/-- Waiting changes sort by arrival (R249). -/
theorem sorts_byArrival {α : Type} : Sorts (fun a b : Nat × α => decide (a.1 < b.1)) (fun c d => c.1 ≤ d.1) where
  of_lt _ _ h := (of_decide_eq_true h).le
  of_not_lt _ _ h := Nat.le_of_not_lt (of_decide_eq_false h)
  trans _ _ _ := Nat.le_trans

theorem mem_namedChanges {s : State} {c : Nat × Nat × Change} :
    c ∈ namedChanges s ↔ c ∈ s.ccp.frameQ ∨ (∃ i f, s.fw.sched = some (i, f) ∧ c = (f, s.fw.schedArr, .op (.fwSwitch i f) none)) ∨
      (∃ f n, s.pair.switch = some (f, n) ∧ c = (f, n, .op (.pairSwitchover f) none)) := by
  simp [namedChanges, eq_comm]

theorem mem_dueChanges {s : State} {c : Nat × Nat × Change} : c ∈ dueChanges s ↔ c.1 ≤ s.tl.frame ∧ c ∈ namedChanges s := by
  simp [dueChanges, mem_sortBy, and_comm]

theorem pairwise_dueChanges (s : State) : (dueChanges s).Pairwise (fun c d => c.1 < d.1 ∨ c.1 = d.1 ∧ c.2.1 ≤ d.2.1) :=
  sorts_byFrameThenArrival.pairwise_sortBy _

theorem mem_takeDue_frameQ {s : State} {c : Nat × Nat × Change} :
    c ∈ (takeDue s).ccp.frameQ ↔ c ∈ s.ccp.frameQ ∧ s.tl.frame < c.1 := by
  simp [takeDue]

theorem commitPending_inOrder (s : State) : ∃ l : List (Nat × Change), l.Perm s.ccp.pend ∧ l.Pairwise (fun c d => c.1 ≤ d.1) ∧
    commitPending s = l.foldl (fun x c => commitChange x c.2) { s with ccp := { s.ccp with pend := [] } } :=
  ⟨_, sortBy_perm _ _, sorts_byArrival.pairwise_sortBy _, rfl⟩

/-! The boundary in each state of the sequencer. -/

theorem frameBoundary_still {s : State} (bi : BoundaryIn) (h : powered s = false ∨ s.clk.st = .fault) : frameBoundary s bi = s :=
  if_pos (by simpa using h)

theorem frameBoundary_dark {s : State} (bi : BoundaryIn) (hseq : s.pwr.seq = .darkening) (hclk : s.clk.st ≠ .fault) :
    frameBoundary s bi = darkEnd s := by
  simp [frameBoundary, powered, hseq, hclk]

theorem frameBoundary_up {s : State} (bi : BoundaryIn) (hseq : s.pwr.seq = .up) (hclk : s.clk.st ≠ .fault) :
    frameBoundary s bi = (let x := commitBoundary (endOfFrame (clearFresh s)) bi
      if x.2.pwr.seq = .darkening then darkBoundary x.2 x.1 else afterCommits x.2 x.1) := by
  simp [frameBoundary, powered, hseq, hclk]

/-- From the boundary on, a read of the view gives the registers as published (R32). -/
theorem getView_publish (s : State) (a : Nat) : getView (publish s) a = getR (publish s) a := by
  unfold publish
  extract_lets
  rfl

/-- Settles O40: each branch of the boundary by its state, the order of the commits by the sort. -/
theorem frameBoundaryOrder : Obligations.FrameBoundaryOrder := by
  unfold Obligations.FrameBoundaryOrder
  refine ⟨fun s bi h => ?still, fun s bi hseq hclk => ?dark, fun s bi hseq hclk => ?up, fun s => ⟨rfl, rfl⟩, fun s => ?due,
    commitPending_inOrder, getView_publish⟩
  case still => exact congrArg Host.Outcome.next (frameBoundary_still bi h)
  case dark => exact congrArg Host.Outcome.next (frameBoundary_dark bi hseq hclk)
  case up =>
    intro ended spliced captured processing cut committed
    have hc : commitBoundary (endOfFrame (clearFresh s)) bi = (captured.1, committed) := rfl
    have h := frameBoundary_up bi hseq hclk
    rw [hc] at h
    clear_value committed
    exact ⟨fun hd => congrArg Host.Outcome.next (h.trans (if_pos hd)), fun hd => congrArg Host.Outcome.next (h.trans (if_neg hd))⟩
  case due =>
    exact ⟨fun c => mem_dueChanges.trans (and_congr_right' mem_namedChanges), pairwise_dueChanges s, rfl, fun c => mem_takeDue_frameQ⟩

end Sys2Proof.Machine
end

section
/-! SUPPORT. The ports of the network: what storing one leaves, and which operations leave both alone. -/

namespace Sys2Proof.Machine

open Sys2Proof

@[simp] theorem getF_setPort (s : State) (p : Nat) (v : PortSt) (f : Fld) : getF (setPort s p v) f = getF s f :=
  getF_congr _ _ f (setPort_regs s p v)

@[simp] theorem getR_setPort (s : State) (p : Nat) (v : PortSt) (a : Nat) : getR (setPort s p v) a = getR s a :=
  getR_congr _ _ a (setPort_regs s p v)

@[simp] theorem setPort_setPort (s : State) (p : Nat) (v w : PortSt) : setPort (setPort s p v) p w = setPort s p w := by
  by_cases h : p = 0 <;> simp [setPort, h]

@[simp] theorem setPort_portOf (s : State) (p : Nat) : setPort s p (portOf s p) = s := by
  by_cases h : p = 0 <;> simp [setPort, portOf, h]

theorem portOf_congr {s t : State} (p : Nat) (ha : s.portA = t.portA) (hb : s.portB = t.portB) : portOf s p = portOf t p := by
  unfold portOf; rw [ha, hb]

@[simp] theorem portOf_raise (s : State) (n b p : Nat) : portOf (raise s n b) p = portOf s p := portOf_congr p (by simp) (by simp)

@[simp] theorem portOf_logEv (s : State) (c : Nat) (l : List (Nat × Int)) (p : Nat) : portOf (logEv s c l) p = portOf s p :=
  portOf_congr p (by simp) (by simp)

@[simp] theorem portOf_addCtr (s : State) (a n p : Nat) : portOf (addCtr s a n) p = portOf s p := rfl

@[simp] theorem portOf_setF (s : State) (f : Fld) (v p : Nat) : portOf (setF s f v) p = portOf s p := rfl

@[simp] theorem portOf_setFB (s : State) (f : Fld) (v : Bool) (p : Nat) : portOf (setFB s f v) p = portOf s p := rfl

/-- The INTSTAT of a port's block is cause 3 of port A, 4 of port B (R263). -/
theorem intStatAt_port {p : Nat} (hp : p < 2) : intStatAt (3 + p) = some (netR p Reg.NET_INTSTAT) := by
  obtain rfl | rfl : p = 0 ∨ p = 1 := by omega
  all_goals rfl

/-- No frame of either port waits for its place in the order of R35. -/
def NoneHeld (s : State) : Prop := s.portA.held = [] ∧ s.portB.held = []

theorem NoneHeld.portOf {s : State} (h : NoneHeld s) (p : Nat) : (portOf s p).held = [] := by
  unfold Machine.portOf; split; exacts [h.1, h.2]

theorem NoneHeld.congr {s t : State} (h : NoneHeld s) (ha : t.portA = s.portA) (hb : t.portB = s.portB) : NoneHeld t := by
  unfold NoneHeld; rw [ha, hb]; exact h

theorem NoneHeld.raise {s : State} (h : NoneHeld s) (n b : Nat) : NoneHeld (raise s n b) := h.congr (by simp) (by simp)

end Sys2Proof.Machine
end

section
/-! PROOF. O51: received frames, the order they pass in, flow control, and the link of a port. -/

namespace Sys2Proof.Machine

open Sys2Proof

/-! The order of ingress stamps (R35). -/

theorem PortSt.clearHeld {v : PortSt} (h : v.held = []) : { v with held := [] } = v := by rw [← h]

/-- Of two frames of different ports one comes first. -/
theorem ingressBefore_swap {a b : Nat × Nat} (h : a.2 ≠ b.2) : (!ingressBefore a b) = ingressBefore b a := by
  simp only [ingressBefore, ← decide_not, decide_eq_decide]
  omega

theorem passFrames_noneHeld {s : State} (h : NoneHeld s) (busy : Option (Nat × Nat)) : passFrames s busy = s := by
  obtain ⟨ha, hb⟩ := h
  simp [passFrames, ha, hb, sortBy, PortSt.clearHeld]

/-- A frame on its own waits for one that began before it, and passes otherwise. -/
theorem passFrames_one {s : State} {p : Nat} (hp : p < 2) (h : NoneHeld s) (x : RxHeld) (busy : Option (Nat × Nat)) :
    passFrames (setPort s p { portOf s p with held := [x] }) busy =
      if busy.any (fun k => !ingressBefore (x.stamp, p) k) then setPort s p { portOf s p with held := [x] } else passFrame s p x := by
  obtain ⟨ha, hb⟩ := h
  have hport : p = 0 ∨ p = 1 := by omega
  cases busy with
  | none => obtain rfl | rfl := hport <;> simp [passFrames, setPort, portOf, ha, hb, sortBy, insertBy, PortSt.clearHeld]
  | some k =>
    cases hk : ingressBefore (x.stamp, p) k <;> obtain rfl | rfl := hport <;>
      simp [passFrames, setPort, portOf, ha, hb, sortBy, insertBy, PortSt.clearHeld, hk]

/-- Of one frame on each port that of port A passes first, unless that of port B has the lower stamp. -/
theorem passFrames_two {s : State} {x y : RxHeld} (ha : s.portA.held = [x]) (hb : s.portB.held = [y]) :
    let quiet := { s with portA := { s.portA with held := [] }, portB := { s.portB with held := [] } }
    passFrames s none = if y.stamp < x.stamp then passFrame (passFrame quiet 1 y) 0 x else passFrame (passFrame quiet 0 x) 1 y := by
  by_cases hlt : y.stamp < x.stamp <;> simp [passFrames, ha, hb, sortBy, insertBy, ingressBefore, hlt]

/-! Flow control (R311). -/

/-- Flow control of a port is off. -/
def FlowOff (s : State) (p : Nat) : Prop := getF s (netF p F.NET_FC_TXPAUSE) = 0 ∧ getF s (netF p F.NET_FC_TXPFC) = 0

theorem fillControl_off {s : State} {p : Nat} (h : FlowOff s p) (fill : Nat) (refresh : Bool) : fillControl s p fill refresh = s :=
  if_pos h

/-- An own flow control frame of a port as it waits for the wire. -/
def ownPause (s : State) (b : Bytes) : TxFrame := { bytes := b, at_ := quarterNs s.time.now, kind := .pause }

@[simp] theorem ownPause_setPort (s : State) (p : Nat) (v : PortSt) : ownPause (setPort s p v) = ownPause s := by
  funext b; simp [ownPause]

@[simp] theorem maySend_setPort (s : State) (p : Nat) (v : PortSt) (q : Nat) : maySend (setPort s p v) q = maySend s q := by
  simp [maySend, macOf, addrPort, chainMode]

@[simp] theorem pauseFrames_setPort (s : State) (p : Nat) (v : PortSt) (q n : Nat) :
    pauseFrames (setPort s p v) q n = pauseFrames s q n := by
  simp [pauseFrames, macOf, addrPort, chainMode]

/-- With the link up the flow control frames join the port's own queue. -/
theorem sendPause_linkUp {s : State} {p : Nat} (may : maySend s p = true) (up : (portOf s p).link = true) (quanta : Nat) :
    sendPause s p quanta =
      setPort s p { portOf s p with pauseQ := (portOf s p).pauseQ ++ (pauseFrames s p quanta).map (ownPause s) } := by
  unfold sendPause
  simp only [may, Bool.not_true, Bool.false_eq_true, if_false]
  clear may
  induction pauseFrames s p quanta generalizing s with
  | nil => simpa only [List.foldl_nil, List.map_nil, List.append_nil] using (setPort_portOf s p).symm
  | cons b l ih =>
    simp only [List.foldl_cons, up, Bool.not_true, Bool.false_eq_true, if_false]
    rw [ih (by simp)]
    simp only [portOf_setPort, setPort_setPort, ownPause_setPort, List.append_assoc, List.singleton_append, List.map_cons]
    simp only [ownPause]

/-- Flow control that holds the link partner off, and again while the buffer stays above XON. -/
theorem fillControl_on {s : State} {p : Nat} (on : ¬ FlowOff s p) (may : maySend s p = true) (up : (portOf s p).link = true)
    (fill : Nat) :
    let v := portOf s p
    let paused := fun (x : Bool) (q : Nat) =>
      setPort s p { v with xoff := x, pauseQ := v.pauseQ ++ (pauseFrames s p q).map (ownPause s) }
    (v.xoff = true → fill ≤ 64 * getF s (netF p F.NET_FCTHR_XON) → fillControl s p fill true = paused false 0) ∧
    (v.xoff = true → 64 * getF s (netF p F.NET_FCTHR_XON) < fill →
      fillControl s p fill true = paused true (getF s (netF p F.NET_FC_QUANTA))) ∧
    (v.xoff = false → 64 * getF s (netF p F.NET_FCTHR_XOFF) < fill →
      fillControl s p fill true = paused true (getF s (netF p F.NET_FC_QUANTA))) := by
  intro v paused
  have hon : ¬ (getF s (netF p F.NET_FC_TXPAUSE) = 0 ∧ getF s (netF p F.NET_FC_TXPFC) = 0) := on
  have hset : ∀ x q, sendPause (setPort s p { v with xoff := x }) p q = paused x q := by
    intro x q
    rw [sendPause_linkUp (by simpa using may) (by simpa using up)]
    simp [paused]
  refine ⟨fun hx hf => ?_, fun hx hf => ?_, fun hx hf => ?_⟩
  · simp only [fillControl, hon, if_false]
    rw [if_pos hx, if_pos hf]
    exact hset false 0
  · simp only [fillControl, hon, if_false]
    rw [if_pos hx, if_neg (Nat.not_le.2 hf), if_pos trivial, sendPause_linkUp may up]
    simp only [paused, ← hx, v]
  · simp only [fillControl, hon, if_false]
    rw [if_neg (by simp only [v] at hx; simp [hx]), if_pos hf]
    exact hset true _

/-! A frame as it arrives (R299 to R303). -/

/-- A frame that fits is counted: a good one as received, a bad one in the counter of its fault (R300). -/
def countFrame (s : State) (p flags : Nat) : State :=
  if flags ≠ 0 then raise (addCtr s (netR p (badCounter flags)) 1) (3 + p) 1 else addCtr s (netR p Reg.NET_RXOK) 1

theorem NoneHeld.countFrame {s : State} (h : NoneHeld s) (p flags : Nat) : NoneHeld (countFrame s p flags) := by
  unfold Machine.countFrame; split
  · exact NoneHeld.raise (s := addCtr s _ 1) h _ _
  · exact h

@[simp] theorem portOf_countFrame (s : State) (p flags q : Nat) : portOf (countFrame s p flags) q = portOf s q := by
  unfold countFrame; split <;> simp

@[simp] theorem countFrame_fab (s : State) (p flags : Nat) : (countFrame s p flags).fab = s.fab := by
  unfold countFrame; split
  · rw [raise_fab]; rfl
  · rfl

/-- Counting a cause of a port leaves the fields of the blocks before the ports alone. -/
theorem getF_counted {s : State} {p : Nat} (hp : p < 2) (c b : Nat) (f : Fld) (hc : 0x30000 ≤ c) (hf : f.addr < 0x30000) :
    getF (raise (addCtr s (netR p c) 1) (3 + p) b) f = getF s f := by
  have hi : f.addr ≠ netR p Reg.NET_INTSTAT := by simp only [netR, Reg.NET_INTSTAT]; omega
  have hctr : f.addr ≠ netR p c := by simp only [netR]; omega
  rw [getF_raise_ne _ _ _ _ _ (intStatAt_port hp) hi]
  exact getF_setR_ne _ _ _ _ hctr

theorem badCounter_ge (flags : Nat) : 0x30000 ≤ badCounter flags := by
  unfold badCounter
  repeat' split
  all_goals decide

theorem ingressStamp_countFrame {s : State} {p : Nat} (hp : p < 2) (flags cap : Nat) :
    ingressStamp (countFrame s p flags) p cap = ingressStamp s p cap := by
  have hf : (F.TIME_LAT_RXLAT.plus (128 * p)).addr < 0x30000 := by simp only [Fld.plus, F.TIME_LAT_RXLAT]; omega
  unfold ingressStamp countFrame
  split
  · rw [getF_counted hp _ _ _ (badCounter_ge flags) hf]
  · have hctr : (F.TIME_LAT_RXLAT.plus (128 * p)).addr ≠ netR p Reg.NET_RXOK := by simp only [netR, Reg.NET_RXOK]; omega
    rw [addCtr, getF_setR_ne _ _ _ _ hctr]

theorem FlowOff.overflow {s : State} {p : Nat} (hp : p < 2) (h : FlowOff s p) :
    FlowOff (raise (addCtr s (netR p Reg.NET_RXOVF) 1) (3 + p) 2) p := by
  have hsame : ∀ f : Fld, f.addr = 0x30024 →
      getF (raise (addCtr s (netR p Reg.NET_RXOVF) 1) (3 + p) 2) (netF p f) = getF s (netF p f) := by
    intro f hf
    have hi : (netF p f).addr ≠ netR p Reg.NET_INTSTAT := by simp only [netF, Fld.plus, hf, netR, Reg.NET_INTSTAT]; omega
    have hc : (netF p f).addr ≠ netR p Reg.NET_RXOVF := by simp only [netF, Fld.plus, hf, netR, Reg.NET_RXOVF]; omega
    rw [getF_raise_ne _ _ _ _ _ (intStatAt_port hp) hi]
    exact getF_setR_ne _ _ _ _ hc
  exact ⟨(hsame _ rfl).trans h.1, (hsame _ rfl).trans h.2⟩

/-- A frame arrives at a port that runs, with flow control off and no other frame waiting. -/
structure Receives (s : State) (p : Nat) (b : Bytes) : Prop where
  port : p < 2
  some : b ≠ []
  netref : s.pwr.netref = true
  pcs : pcsOn s p = true
  power : powered s = true
  flow : FlowOff s p
  free : NoneHeld s

theorem not_dark_of_powered {s : State} (h : powered s = true) : s.pwr.seq ≠ .dark := by
  intro hd
  simp [powered, hd] at h

/-- One that finds the receive buffer full is lost. -/
theorem frameReceive_full {s : State} {p fill : Nat} {b : Bytes} (h : Receives s p b) (full : 65536 < fill + (b.take 9600).length)
    (cap : Nat) (code align : Bool) (other : Option Nat) :
    frameReceive s p b cap code align fill other = raise (addCtr s (netR p Reg.NET_RXOVF) 1) (3 + p) 2 := by
  simp only [frameReceive, List.isEmpty_iff, h.some, h.netref, h.pcs, h.power, not_dark_of_powered h.power, gt_iff_lt, full,
    Bool.not_true, Bool.false_eq_true, or_self, if_false, if_true, fillControl_off (h.flow.overflow h.port)]
  exact passFrames_noneHeld (NoneHeld.raise (s := addCtr s _ 1) h.free _ _) _

/-- A frame being received on the other port began before a frame of port p with this stamp. -/
def beganBefore (s : State) (p stamp : Nat) (other : Option Nat) : Bool :=
  other.any fun c => ingressBefore (ingressStamp s (1 - p) c, 1 - p) (stamp, p)

theorem beganBefore_eq {s : State} {p : Nat} (hp : p < 2) (stamp : Nat) (other : Option Nat) :
    (other.map fun c => (ingressStamp s (1 - p) c, 1 - p)).any (fun k => !ingressBefore (stamp, p) k) = beganBefore s p stamp other := by
  have hports : p ≠ 1 - p := by omega
  cases other with
  | none => rfl
  | some c => exact ingressBefore_swap hports

/-- One that fits is counted, and waits or passes by the order of the stamps. -/
theorem frameReceive_fits {s : State} {p fill : Nat} {b : Bytes} (h : Receives s p b) (fits : fill + (b.take 9600).length ≤ 65536)
    (cap : Nat) (code align : Bool) (other : Option Nat) :
    let counted := countFrame s p (frameFlags s p b code align)
    let x : RxHeld := { stamp := ingressStamp s p cap, flags := frameFlags s p b code align, bytes := b }
    frameReceive s p b cap code align fill other =
      if beganBefore s p x.stamp other then setPort counted p { portOf s p with held := [x] } else passFrame counted p x := by
  intro counted x
  have hpass := passFrames_one h.port (h.free.countFrame p x.flags) x (other.map fun c => (ingressStamp s (1 - p) c, 1 - p))
  rw [portOf_countFrame, beganBefore_eq h.port] at hpass
  simp only [frameReceive, List.isEmpty_iff, h.some, h.netref, h.pcs, h.power, not_dark_of_powered h.power, gt_iff_lt,
    Nat.not_lt.2 fits, Bool.not_true, Bool.false_eq_true, or_self, if_false, fillControl_off h.flow]
  rw [← hpass, ← countFrame, ingressStamp_countFrame h.port, portOf_countFrame, h.free.portOf]
  rfl

/-- With no codeword of the packet buffers in error a frame in its place is as it came. -/
theorem passFrame_sound {s : State} (h : s.fab.inj = []) (p : Nat) (x : RxHeld) : passFrame s p x = passSound s p x := by
  simp [passFrame, frameBad, h]

/-- A bad frame that is not delivered leaves nothing but its count (R300). -/
theorem passSound_bad {s : State} {p : Nat} {x : RxHeld} (bad : x.flags ≠ 0) (skip : getF s (netF p F.NET_CFG_DELIVER_BAD) = 0) :
    passSound s p x = s := by
  simp [passSound, bad, skip]

/-- A good frame goes by chain mode, or by the address filter (R301, R309). -/
theorem passSound_good {s : State} {p : Nat} {x : RxHeld} (good : x.flags = 0) :
    passSound s p x = if chainMode s then chainFrame s p x.stamp x.bytes
      else if addressOk s p (beAt x.bytes 0 6) then deliver s p x.stamp x.bytes else filtered s p := by
  simp [passSound, good]

/-! The link of a port (R312). -/

theorem anRuns_iff {s : State} {p : Nat} : anRuns s p = true ↔
    getF s (netF p F.NET_CFG_PCS) = 1 ∨ getF s (netF p F.NET_CFG_PCS) = 2 ∧ getF s (netF p F.NET_CFG_AN) = 1 := by
  simp [anRuns]

/-- What the PCS reports, as propositions of its mode (R295, R312). -/
theorem linkChange_eq (s : State) (p : Nat) (sync : Bool) (speed : Nat) (an lf rf : Bool) :
    let pcs := getF s (netF p F.NET_CFG_PCS)
    let neg := pcs = 1 ∨ pcs = 2 ∧ getF s (netF p F.NET_CFG_AN) = 1
    let change := (decide (sync = true ∧ s.pwr.netref = true ∧ pcs ≠ 0 ∧ (neg → an = true) ∧ (pcs = 4 → lf = false)),
        if pcs = 1 then min speed 2 else pcs, decide (neg ∧ an = true), decide (pcs = 4 ∧ lf = true), decide (pcs = 4 ∧ rf = true))
    linkChange s p sync speed an lf rf = setPort s p { portOf s p with linkPend := some change } := by
  intro pcs neg change
  have hneg : (!anRuns s p || an) = true ↔ (neg → an = true) := by
    rw [Bool.or_eq_true, Bool.not_eq_true', ← Bool.not_eq_true, anRuns_iff, ← imp_iff_not_or]
  have hfault : (pcs != 4 || !lf) = true ↔ (pcs = 4 → lf = false) := by simp [imp_iff_not_or]
  have hrun : (anRuns s p && an) = decide (neg ∧ an = true) := by
    rw [Bool.eq_iff_iff, decide_eq_true_iff, Bool.and_eq_true, anRuns_iff]
  have hfour : ∀ b, (pcs == 4 && b) = decide (pcs = 4 ∧ b = true) := fun b => by rw [Bool.eq_iff_iff]; simp
  have hreport : (sync && s.pwr.netref && pcs != 0 && (!anRuns s p || an) && (pcs != 4 || !lf), pcsSpeed pcs speed,
      anRuns s p && an, pcs == 4 && lf, pcs == 4 && rf) = change := by
    rw [hrun, hfour, hfour]
    refine Prod.ext (Bool.eq_iff_iff.2 ?_) rfl
    simp only [change, Bool.and_eq_true, hneg, hfault, bne_iff_ne, decide_eq_true_eq, and_assoc]
  exact congrArg (fun x => setPort s p { portOf s p with linkPend := some x }) hreport

/-- Outside the Dark state a report of the PCS waits for its boundary. -/
theorem linkEvent_eq {s : State} (awake : s.pwr.seq ≠ .dark) (free : NoneHeld s) (p : Nat) (sync : Bool) (speed : Nat)
    (an lf rf : Bool) : linkEvent s p sync speed an lf rf = linkChange s p sync speed an lf rf := by
  have hfree : NoneHeld (linkChange s p sync speed an lf rf) := by
    obtain ⟨ha, hb⟩ := free
    by_cases hp : p = 0 <;> simp [linkChange, NoneHeld, setPort, portOf, hp, ha, hb]
  have hseq : (linkChange s p sync speed an lf rf).pwr.seq ≠ .dark := by simpa [linkChange] using awake
  simp only [linkEvent, passFrames_noneHeld hfree, ite_self, beq_eq_false_iff_ne.2 hseq, Bool.false_and, Bool.false_eq_true, if_false]

/-- With the link every frame queued on the port goes. -/
theorem portOf_discardQueued (s : State) (p : Nat) : ∃ done, portOf (discardQueued s p) p =
    { portOf s p with pauseQ := [], q0 := [], q1 := [], q2 := [], q3 := [], q3wait := [], wire := none, done := done } := by
  unfold discardQueued
  extract_lets v n done s₁
  refine ⟨v.done ++ done, ?_⟩
  split
  · exact portOf_setPort s p _
  · rw [portOf_raise, portOf_addCtr]
    exact portOf_setPort s p _

/-- A link that drops at its boundary takes the queued frames with it. -/
theorem portOf_linkBoundary_down {s : State} {p speed : Nat} (up : (portOf s p).link = true)
    (down : (portOf s p).linkPend = some (false, speed, false, false, false)) : ∃ done, portOf (linkBoundary s p) p =
      { portOf s p with
        link := false, linkPend := none, pauseQ := [], q0 := [], q1 := [], q2 := [], q3 := [], q3wait := [], wire := none, done := done } := by
  simp only [linkBoundary, down, up, Bool.false_eq_true, if_false]
  rw [portOf_raise]
  exact (portOf_discardQueued _ p).imp fun done h => h.trans (by simp)

/-! What the commands of the receive side are. -/

theorem exec_frameReceive (s : State) (p cap fill : Nat) (b : Bytes) (code align : Bool) (other : Option Nat) :
    exec (.frameReceive p b cap code align ⟨fill, other⟩) s = .next (frameReceive s (p % 2) b cap code align fill other) := rfl

theorem exec_xoffRefresh (s : State) (p fill : Nat) :
    exec (.xoffRefresh p fill) s = .next (if powered s then fillControl s p fill true else s) := rfl

theorem exec_linkStateChange (s : State) (p speed : Nat) (sync an lf rf : Bool) :
    exec (.linkStateChange p sync speed an lf rf) s = .next (linkEvent s p sync speed an lf rf) := rfl

/-- Settles O51: a frame as it arrives, flow control, and the link. -/
theorem frameReception : Obligations.FrameReception := by
  unfold Obligations.FrameReception
  intro s p cap fill b code align other hp got flags ok counted stamp waits fc v free quiet own paused
  have hgot : got = .next (frameReceive s p b cap code align fill other) := by
    rw [← Nat.mod_eq_of_lt hp]; exact exec_frameReceive s p cap fill b code align other
  have hwaits : beganBefore s p stamp other = waits := by cases other <;> rfl
  refine ⟨fun h => ?still, fun off awake => ?off, fun some netref pcs power flow free inj => ?receive, ?ability,
    fun x y hx hy => passFrames_two hx hy, fun h => ?noFlow, fun on power may up => ?flow, fun awake free sync an lf rf speed => ?link,
    fun up speed down => ?down⟩
  case still =>
    rw [hgot, frameReceive, if_pos (by simpa using h)]
  case off =>
    rw [hgot]
    simp [frameReceive, off, awake]
  case receive =>
    have h : Receives s p b := ⟨hp, some, netref, pcs, power, flow, free⟩
    refine ⟨fun full => hgot.trans (congrArg _ (frameReceive_full h full cap code align other)), fun fits => ?_⟩
    have hplace : got = .next (if waits then setPort (countFrame s p flags) p { v with held := [⟨stamp, flags, b⟩] }
        else passFrame (countFrame s p flags) p ⟨stamp, flags, b⟩) := by
      rw [hgot, ← hwaits]
      exact congrArg _ (frameReceive_fits h fits cap code align other)
    have hpass : waits = false → got = .next (passSound (countFrame s p flags) p ⟨stamp, flags, b⟩) := by
      intro hw
      rw [hplace, if_neg (Bool.not_eq_true _ ▸ hw), passFrame_sound (by simpa using inj)]
    have hbad : flags ≠ 0 → countFrame s p flags = counted := fun hf => if_pos hf
    have hgood : flags = 0 → countFrame s p flags = ok := fun hf => if_neg (not_not.2 hf)
    refine ⟨fun hw hf skip => ?_, fun hw hf chain addr => ?_, fun hw hf chain addr => ?_, fun hw hf chain => ?_, fun hw hf => ?_⟩
    · rw [hpass hw, hbad hf, passSound_bad hf skip]
    · rw [hpass hw, hgood hf, passSound_good hf, if_neg (Bool.not_eq_true _ ▸ chain), if_neg (Bool.not_eq_true _ ▸ addr)]
    · rw [hpass hw, hgood hf, passSound_good hf, if_neg (Bool.not_eq_true _ ▸ chain), if_pos addr]
    · rw [hpass hw, hgood hf, passSound_good hf, if_pos chain]
    · rw [hplace, if_pos hw, hgood hf, hf]
  case ability => simp [anAbility, Bool.beq_eq_decide_eq]
  case noFlow =>
    rw [exec_xoffRefresh]
    rcases h with off | off
    · rw [fillControl_off off, ite_self]
    · rw [if_neg (by simp [off])]
  case flow =>
    rw [exec_xoffRefresh, if_pos power]
    obtain ⟨hon, hstay, hoff⟩ := fillControl_on on may up fill
    exact ⟨fun hx hf => congrArg _ (hon hx hf), fun hx hf => congrArg _ (hstay hx hf), fun hx hf => congrArg _ (hoff hx hf)⟩
  case link =>
    rw [exec_linkStateChange, linkEvent_eq awake free, linkChange_eq]
  case down =>
    obtain ⟨done, h⟩ := portOf_linkBoundary_down up down
    simp [h]

end Sys2Proof.Machine
end

section
/-! SUPPORT. What storing a block of bytes leaves: every byte outside its range, and the parts that hold no bytes. -/

namespace Sys2Proof.Machine

open Sys2Proof

theorem Sparse.get_of_above {α : Type} (d : Nat → α) {m : Sparse α} {b : Nat} (h : ∀ p ∈ m, b < p.1) :
    Sparse.get d m b = d b := by
  cases m with
  | nil => rfl
  | cons p t =>
    have hp := h p List.mem_cons_self
    simp only [Sparse.get]
    rw [if_neg (by omega), if_pos hp]

theorem Sparse.get_append_above {α : Type} (d : Nat → α) (m : Sparse α) {n : Sparse α} {b : Nat} (h : ∀ p ∈ n, b < p.1) :
    Sparse.get d (m ++ n) b = Sparse.get d m b := by
  induction m with
  | nil => exact Sparse.get_of_above d h
  | cons p t ih => simp only [List.cons_append, Sparse.get, ih]

theorem Sparse.get_append_below {α : Type} (d : Nat → α) {m : Sparse α} (n : Sparse α) {b : Nat} (h : ∀ p ∈ m, p.1 < b) :
    Sparse.get d (m ++ n) b = Sparse.get d n b := by
  induction m with
  | nil => rfl
  | cons p t ih =>
    have hp := h p List.mem_cons_self
    simp only [List.cons_append, Sparse.get, ih fun q hq => h q (List.mem_cons_of_mem p hq)]
    rw [if_neg (by omega), if_neg (by omega)]

theorem Sparse.get_filter_from {α : Type} (d : Nat → α) (m : Sparse α) {hi b : Nat} (h : hi ≤ b) :
    Sparse.get d (m.filter fun p => decide (hi ≤ p.1)) b = Sparse.get d m b := by
  induction m with
  | nil => rfl
  | cons p t ih =>
    by_cases hp : hi ≤ p.1
    · simp only [List.filter_cons, hp, decide_true, if_true, Sparse.get, ih]
    · simp only [List.filter_cons, hp, decide_false, Bool.false_eq_true, if_false, Sparse.get, ih]
      rw [if_neg (by omega), if_neg (by omega)]

theorem Sparse.get_filter_below {α : Type} (d : Nat → α) {m : Sparse α} {lo b : Nat} (h : b < lo) (rise : m.Pairwise (·.1 < ·.1)) :
    Sparse.get d (m.filter fun p => decide (p.1 < lo)) b = Sparse.get d m b := by
  induction m with
  | nil => rfl
  | cons p t ih =>
    obtain ⟨hp, ht⟩ := List.pairwise_cons.1 rise
    by_cases hlo : p.1 < lo
    · simp only [List.filter_cons, hlo, decide_true, if_true, Sparse.get, ih ht]
    · have habove : ∀ q ∈ t.filter fun q => decide (q.1 < lo), b < q.1 := by
        intro q hq
        have := hp q (List.mem_of_mem_filter hq)
        omega
      simp only [List.filter_cons, hlo, decide_false, Bool.false_eq_true, if_false, Sparse.get]
      rw [Sparse.get_of_above d habove, if_neg (by omega), if_pos (by omega)]

/-- Replacing a range leaves every key outside it. -/
theorem Sparse.get_replaceRange_outside {α : Type} [DecidableEq α] (d : Nat → α) {m : Sparse α} (block : Sparse α) {lo hi b : Nat}
    (w : Sparse.wf d m = true) (hb : b < lo ∨ hi ≤ b) (h : lo ≤ hi) :
    Sparse.get d (Sparse.replaceRange d m lo hi block) b = Sparse.get d m b := by
  have hmid : ∀ p ∈ block.filter (fun p => lo ≤ p.1 && p.1 < hi && p.2 ≠ d p.1), lo ≤ p.1 ∧ p.1 < hi := by
    intro p hp
    have := (List.mem_filter.1 hp).2
    simp only [Bool.and_eq_true, decide_eq_true_eq] at this
    exact this.1
  have hlow : ∀ p ∈ m.filter (fun p => decide (p.1 < lo)), p.1 < lo := fun p hp => of_decide_eq_true (List.mem_filter.1 hp).2
  have hhigh : ∀ p ∈ m.filter (fun p => decide (hi ≤ p.1)), hi ≤ p.1 := fun p hp => of_decide_eq_true (List.mem_filter.1 hp).2
  unfold Sparse.replaceRange
  rcases hb with hb | hb
  · rw [Sparse.get_append_above d _ fun p hp => by have := hhigh p hp; omega,
      Sparse.get_append_above d _ fun p hp => by have := hmid p hp; omega]
    exact Sparse.get_filter_below d hb ((Sparse.wfFrom_iff d m 0).1 w).1
  · have hbelow : ∀ p ∈ m.filter (fun p => decide (p.1 < lo)) ++
        block.filter (fun p => lo ≤ p.1 && p.1 < hi && p.2 ≠ d p.1), p.1 < b := by
      intro p hp
      rcases List.mem_append.1 hp with hp | hp
      · have := hlow p hp; omega
      · have := hmid p hp; omega
    rw [Sparse.get_append_below d _ hbelow]
    exact Sparse.get_filter_from d m hb

/-- A write of the hardware leaves the bytes outside its range. -/
theorem read_blockWrite_outside {s : State} (w : MemoryCanonical s) {a p : Nat} {b : Bytes} (h : p < a ∨ a + b.length ≤ p) :
    Memory.read (blockWrite s a b).mem p = Memory.read s.mem p := by
  have hmem : (blockWrite s a b).mem = memBlock s.mem a b := by unfold blockWrite whole; split <;> rfl
  rw [hmem]
  exact Sparse.get_replaceRange_outside _ _ w h (Nat.le_add_right _ _)

@[simp] theorem blockWrite_regs (s : State) (a : Nat) (b : Bytes) : (blockWrite s a b).regs = s.regs := by
  unfold blockWrite whole; split <;> rfl

@[simp] theorem blockWrite_conv (s : State) (a : Nat) (b : Bytes) : (blockWrite s a b).conv = s.conv := by
  unfold blockWrite whole; split <;> rfl

@[simp] theorem blockWrite_pipe (s : State) (a : Nat) (b : Bytes) : (blockWrite s a b).pipe = s.pipe := by
  unfold blockWrite whole; split <;> rfl

end Sys2Proof.Machine
end

section
/-! SUPPORT. The block work of a channel (R108) with no damaged codeword, and what a channel runs after it is stored. -/

namespace Sys2Proof.Machine

open Sys2Proof

theorem runFor_setRunFor (ch : ConvCh) (n : Int) (r : ConvRun) : runFor (setRunFor ch n r) n = r := by
  unfold setRunFor
  cases hold : ch.old with
  | none => simp [runFor]
  | some r' => by_cases hn : n < ch.since <;> simp [runFor, hn]

/-! With no damaged codeword the reads of the block work change nothing. -/

theorem openRead_quiet {s : State} (h : s.fab.inj = []) (k size m : Nat) (ps : List Nat) : (openRead s k size m ps).2 = s := by
  simp [openRead, h]

theorem convRead_quiet {s : State} (h : s.fab.inj = []) (c a n : Nat) : convRead s c a n = (false, s) := by
  simp [convRead, eccRead_none s _ _ _ _ h]

theorem histWords_quiet {s : State} (h : s.fab.inj = []) (c : Nat) (n : Int) : (histWords s c n).2.2 = s := by
  have hread : ∀ keys v, (sramWords s c keys v).2 = s := fun _ _ => openRead_quiet h _ _ _ _
  simp only [histWords, hread]

theorem blockWindow_quiet {s : State} (h : s.fab.inj = []) (c p : Nat) (n : Int) : (blockWindow s c p n).2 = s := by
  have hnone : ∀ l : List Int, (l.map fun _ => false).any id = false := by simp
  simp only [blockWindow, h, List.isEmpty_nil, if_true, hnone, Bool.false_eq_true, if_false, histWords_quiet h]

theorem delayLine_quiet {s : State} (h : s.fab.inj = []) (c p b k : Nat) : (delayLine s c p b k).2 = s := by
  refine foldl_invariant (fun a : List (Nat × Spec) × State => a.2 = s) _ (fun a j ha => ?_) _ _ rfl
  simp only [ha, convRead_quiet h]
  split
  · exact ha
  · split <;> rfl

theorem blockInto_quiet {s : State} (h : s.fab.inj = []) (c p : Nat) (n : Int) (reserve : Bool) (lines : List (Nat × Spec))
    (x : ConvCtx) : (blockInto s c p n reserve lines x).2 = s := by
  unfold blockInto
  split
  next terms s₁ hfold =>
    have hs : (terms, s₁).2 = s := by
      rw [← hfold]
      refine foldl_invariant (fun a : List (Spec × Spec) × State => a.2 = s) _ (fun a l ha => ?_) _ _ rfl
      split
      · exact ha
      · simp only [ha, convRead_quiet h]
        split <;> rfl
    dsimp only at hs
    simp [hs, h]

end Sys2Proof.Machine
end

section
/-! SUPPORT. The pipeline, the takes and the dispatcher through the operations of the stages. -/

namespace Sys2Proof.Machine

open Sys2Proof

/-- From `o` on the pipeline, the takes and the dispatcher have stayed as they were. -/
structure Steady (o s : State) : Prop where
  pipe : s.pipe = o.pipe
  take : s.take = o.take
  disp : s.disp = o.disp

theorem Steady.refl (s : State) : Steady s s := ⟨rfl, rfl, rfl⟩

theorem Steady.trans {o s t : State} (h : Steady o s) (k : Steady s t) : Steady o t :=
  ⟨k.pipe.trans h.pipe, k.take.trans h.take, k.disp.trans h.disp⟩

theorem inert_steady (o : State) : Inert (Steady o) where
  keep h := ⟨h.pipe, h.take, h.disp⟩
  setR h := ⟨h.pipe, h.take, h.disp⟩

theorem Steady.keeps {o s : State} (h : Steady o s) : Keeps (Steady o) s := ⟨inert_steady o, h⟩

theorem Steady.sideRendered {o s w x second} (h : Steady o s) : Steady o (sideRendered s w x second).2.2 := h.keeps.sideRendered.holds
theorem Steady.slotRegs {o s used} (h : Steady o s) : Steady o (slotRegs s used) := h.keeps.slotRegs.holds
theorem Steady.bufferSamples {o s t kind p ofs} (h : Steady o s) : Steady o (bufferSamples s t kind p ofs).2 :=
  h.keeps.bufferSamples.holds
theorem Steady.busSamples {o s w x c} (h : Steady o s) : Steady o (busSamples s w x c).2 := h.keeps.busSamples.holds
theorem Steady.convUsed {o s n} (h : Steady o s) : Steady o (convUsed s n) := h.keeps.convUsed.holds

end Sys2Proof.Machine
end

section
/-! PROOF. O43: the stages of the frame under processing. -/

namespace Sys2Proof.Machine

open Sys2Proof

/-! What a side depends on, and what rendering it keeps. -/

theorem Steady.sideTake {o s : State} (h : Steady o s) (x : Side) : sideTake s x = sideTake o x := by
  simp only [Machine.sideTake, h.pipe, h.take]

theorem Steady.groupDone {o s : State} (h : Steady o s) (w : Work) (x : Side) (g : Nat) : groupDone s w x g = groupDone o w x g := by
  simp only [Machine.groupDone, h.sideTake, sinkCount, sideBank, h.pipe, h.disp] <;> rfl

theorem sideRendered_side (s : State) (w : Work) (x : Side) (second : Bool) :
    (sideRendered s w x second).1.rendered = true ∧ (sideRendered s w x second).1.outgoing = x.outgoing := by
  unfold sideRendered
  split
  · unfold renderSide; split; exact ⟨rfl, rfl⟩
  · exact ⟨rfl, rfl⟩

/-! The render (R18). -/

theorem pathRender_idle {s : State} (h : s.pipe.work = none) : pathRender s = s := by simp [pathRender, h]

theorem pathRender_once {s : State} {w : Work} (h : s.pipe.work = some w) (done : w.prime.rendered = true) : pathRender s = s := by
  simp [pathRender, h, done]

theorem pathRender_one {s : State} {w : Work} (h : s.pipe.work = some w) (fresh : w.prime.rendered = false) (one : w.second = none) :
    let r := sideRendered s w w.prime false
    pathRender s = injectSource (setWork (slotRegs r.2.2 r.2.1) (some { w with prime := r.1, second := none })) 0xF001 w.pos := by
  simp [pathRender, h, fresh, one]

theorem pathRender_two {s : State} {w : Work} {x : Side} (h : s.pipe.work = some w) (fresh : w.prime.rendered = false)
    (two : w.second = some x) :
    let r := sideRendered s w w.prime false
    let q := sideRendered r.2.2 w x true
    pathRender s =
      injectSource (setWork (slotRegs q.2.2 (r.2.1 + q.2.1)) (some { w with prime := r.1, second := some q.1 })) 0xF001 w.pos := by
  simp [pathRender, h, fresh, two]

/-! The correction of a group (R172). -/

theorem correctGroup_once {s : State} {w : Work} {g : Nat} (h : s.pipe.work = some w) (done : g ∈ w.corrected) : correctGroup s g = s := by
  simp [correctGroup, h, done]

/-- A group corrected gets its channels' feeds; the feeds of every other group stay. -/
theorem correctGroup_new {s : State} {w : Work} {g : Nat} (h : s.pipe.work = some w) (new : g ∉ w.corrected) :
    ∃ u feeds, correctGroup s g = setWork u (some { w with corrected := g :: w.corrected, feeds := feeds }) ∧ Steady s u ∧
      ∀ c, c / 32 ≠ g → Sparse.get (fun _ => zero16) feeds c = Sparse.get (fun _ => zero16) w.feeds c := by
  unfold correctGroup
  simp only [h, List.contains_eq_mem, new, decide_false, Bool.false_eq_true, if_false]
  refine ⟨_, _, rfl, ?_, fun c hc => ?_⟩
  · refine (Keeps.foldlSnd (Steady.refl s).keeps fun a d ha => .iteSnd ha ?_).holds
    have hx : Keeps (Steady s) (if groupDone s w w.prime g then busSamples a.2 w w.prime d else (zero16, a.2)).2 :=
      .iteSnd ha.busSamples ha
    exact .ite (hx.correctBus.foldl fun _ _ h => h.capStore) hx.correctBus
  · refine List.foldlRecOn (motive := fun a : Sparse (List Int) × State =>
      Sparse.get (fun _ => zero16) a.1 c = Sparse.get (fun _ => zero16) w.feeds c) _ _ rfl fun a ha d hd => ?_
    obtain ⟨i, hi, rfl⟩ := List.mem_map.1 hd
    have hi := List.mem_range.1 hi
    have hne : c ≠ 32 * g + i := by omega
    split
    · exact ha
    · exact (Sparse.get_put_ne _ a.1 _ _ _ hne).trans ha

/-! The safety stage (R198). -/

/-- One step of the safety stage over a side, for group g: a group that has passed, or is not complete and corrected, is skipped, else it
passes. -/
def GroupStep (s : State) (w : Work) (x : Side) (f : Side × List Nat × State → Nat → Side × List Nat × State) : Prop :=
  ∀ a g, Steady s a.2.2 →
    f a g = a ∧ (g ∈ a.1.groups ∨ ¬ (groupDone s w x g = true ∧ (g < 16 → g ∈ w.corrected))) ∨
      Steady s (f a g).2.2 ∧ (f a g).1.outgoing = a.1.outgoing ∧ (f a g).1.groups = g :: a.1.groups

/-- Of the groups stepped over no group leaves, and every one complete and corrected passes. -/
theorem GroupStep.foldl {s : State} {w : Work} {x : Side} {f : Side × List Nat × State → Nat → Side × List Nat × State}
    (step : GroupStep s w x f) {l : List Nat} {a r : Side × List Nat × State} (ha : Steady s a.2.2)
    (hr : l.foldl f a = r) : Steady s r.2.2 ∧ r.1.outgoing = a.1.outgoing ∧ (∀ g ∈ a.1.groups, g ∈ r.1.groups) ∧
      ∀ g ∈ l, groupDone s w x g = true → (g < 16 → g ∈ w.corrected) → g ∈ r.1.groups := by
  subst hr
  induction l generalizing a with
  | nil => exact ⟨ha, rfl, fun _ h => h, fun _ h => absurd h List.not_mem_nil⟩
  | cons k l ih =>
    rcases step a k ha with ⟨hskip, hwhy⟩ | ⟨hsteady, hout, hgroups⟩
    · simp only [List.foldl_cons, hskip]
      obtain ⟨hst, ho, hmono, hall⟩ := ih ha
      refine ⟨hst, ho, hmono, List.forall_mem_cons.2 ⟨fun hdone hcorr => ?_, hall⟩⟩
      exact hmono k (hwhy.resolve_right (not_not.2 ⟨hdone, hcorr⟩))
    · obtain ⟨hst, ho, hmono, hall⟩ := ih hsteady
      rw [hgroups] at hmono
      exact ⟨hst, ho.trans hout, fun g hg => hmono g (List.mem_cons_of_mem k hg),
        List.forall_mem_cons.2 ⟨fun _ _ => hmono k List.mem_cons_self, hall⟩⟩

/-- Two states of a side with the same groups through the safety stage. -/
def SameGroups (x y : Side) : Prop := y.groups = x.groups ∧ y.outgoing = x.outgoing

/-- What the safety stage does to a side: no group leaves it, and every group complete and corrected passes. -/
theorem sideSafety_passes (s : State) (w : Work) (x : Side) (second : Bool) (hits : List Nat) :
    let r := sideSafety s w x second hits
    Steady s r.2.2 ∧ r.1.outgoing = x.outgoing ∧ (∀ g ∈ x.groups, g ∈ r.1.groups) ∧
      ∀ g ∈ List.range 32, groupDone s w x g = true → (g < 16 → g ∈ w.corrected) → g ∈ r.1.groups := by
  unfold sideSafety
  generalize List.range 32 = gs, List.range 8 = is, List.range 128 = ms
  cases htake : sideTake s x with
  | none =>
    refine ⟨.refl s, rfl, fun _ h => h, fun g _ hdone => ?_⟩
    simp [groupDone, htake] at hdone
  | some t =>
    dsimp only
    generalize hr : List.foldl _ (x, hits, s) gs = r
    generalize hq : List.foldl _ (r.1, r.2.1) ms = q
    have hmons : SameGroups r.1 q.1 := by
      rw [← hq]
      refine foldl_invariant (fun b : Side × List Nat => SameGroups r.1 b.1) _ (fun b m hb => ?_) _ _ ⟨rfl, rfl⟩
      exact iteInduction (motive := fun b : Side × List Nat => SameGroups r.1 b.1) (fun _ => hb) fun _ => hb
    obtain ⟨hgroups, hout⟩ := hmons
    rw [hgroups, hout]
    refine GroupStep.foldl (fun a g ha => ?_) (.refl s) hr
    split
    next hskip =>
      refine .inl ⟨rfl, ?_⟩
      simp only [ha.groupDone, Bool.or_eq_true, List.contains_eq_mem, decide_eq_true_eq, Bool.not_eq_true', Bool.and_eq_true,
        decide_eq_false_iff_not] at hskip
      rcases hskip with (hin | hnot) | ⟨hlt, hcorr⟩
      · exact .inl hin
      · exact .inr fun h => by simp [hnot] at h
      · exact .inr fun h => hcorr (h.2 hlt)
    next =>
      right
      have hpassed : Steady s a.2.2 ∧ a.1.outgoing = a.1.outgoing ∧ g :: a.1.groups = g :: a.1.groups := ⟨ha, rfl, rfl⟩
      split
      · refine foldl_invariant (fun b : Side × List Nat × State =>
          Steady s b.2.2 ∧ b.1.outgoing = a.1.outgoing ∧ b.1.groups = g :: a.1.groups) _ (fun b c hb => ?_) _ _ hpassed
        split
        · exact hb
        · refine ⟨?_, hb.2⟩
          refine Keeps.holds (P := Steady s) (.iteSnd ?_ hb.1.keeps)
          split; exacts [hb.1.keeps, hb.1.keeps.busSamples]
      · split
        · exact hpassed
        · refine foldl_invariant (fun b : Side × List Nat × State =>
            Steady s b.2.2 ∧ b.1.outgoing = a.1.outgoing ∧ b.1.groups = g :: a.1.groups) _ (fun b c hb => ?_) _ _ hpassed
          exact ⟨hb.1.bufferSamples, hb.2⟩

theorem safetyStage_idle {s : State} (h : s.pipe.work = none) : safetyStage s = s := by simp [safetyStage, h]

/-- The channels the ceiling changed since `old` are counted (R198). -/
def countHits (s : State) (old hits : List Nat) : State :=
  if hits.length - old.length = 0 then s else raise (addCtr s Reg.XPT_CEILHIT (hits.length - old.length)) 11 2

theorem Steady.countHits {o s : State} (h : Steady o s) (old hits : List Nat) : Steady o (countHits s old hits) :=
  (Keeps.ite h.keeps h.keeps.addCtr.raise).holds

theorem safetyStage_one {s : State} {w : Work} (h : s.pipe.work = some w) (one : w.second = none) :
    let r := sideSafety s w w.prime false w.hits
    safetyStage s = setWork (countHits r.2.2 w.hits r.2.1) (some { w with prime := r.1, second := none, hits := r.2.1 }) := by
  simp [safetyStage, countHits, h, one]

theorem safetyStage_two {s : State} {w : Work} {x : Side} (h : s.pipe.work = some w) (two : w.second = some x) :
    let r := sideSafety s w w.prime false w.hits
    let q := sideSafety r.2.2 w x true r.2.1
    safetyStage s = setWork (countHits q.2.2 w.hits q.2.1) (some { w with prime := r.1, second := some q.1, hits := q.2.1 }) := by
  simp [safetyStage, countHits, h, two]

/-! The emission cutoff (R20, R23, R24). -/

/-- From `s` on the frame `w` stays under processing: its position and the take it plays, and the rest of the pipeline. -/
structure AtWork (s : State) (w : Work) (t : State) : Prop where
  take : t.take = s.take
  work : ∃ v, t.pipe = { s.pipe with work := some v } ∧ v.pos = w.pos ∧ v.prime.outgoing = w.prime.outgoing

theorem AtWork.start {s : State} {w : Work} (h : s.pipe.work = some w) : AtWork s w s := ⟨rfl, w, by rw [← h], rfl, rfl⟩

/-- A stage stores its own work in the pipeline. -/
theorem AtWork.setWork {s t u : State} {w v v' : Work} (h : AtWork s w t) (hu : Steady t u) (hv : t.pipe.work = some v)
    (pos : v'.pos = v.pos) (out : v'.prime.outgoing = v.prime.outgoing) : AtWork s w (setWork u (some v')) := by
  obtain ⟨v₀, hpipe, hpos, hout⟩ := h.work
  obtain rfl : v₀ = v := by rw [hpipe] at hv; exact Option.some.inj hv
  refine ⟨hu.take.trans h.take, v', ?_, pos.trans hpos, out.trans hout⟩
  simp only [Machine.setWork, hu.pipe, hpipe]

theorem AtWork.injectSource {s t : State} {w : Work} (h : AtWork s w t) {code : Nat} {f : Int} : AtWork s w (injectSource t code f) :=
  ⟨h.take, h.work⟩

theorem AtWork.pathRender {s t : State} {w : Work} (h : AtWork s w t) : AtWork s w (pathRender t) := by
  obtain ⟨v, hpipe, -⟩ := h.work
  have hv : t.pipe.work = some v := by rw [hpipe]
  cases hdone : v.prime.rendered with
  | true => rwa [pathRender_once hv hdone]
  | false =>
    have ha : Steady t (sideRendered t v v.prime false).2.2 := (Steady.refl t).sideRendered
    have hout := (sideRendered_side t v v.prime false).2
    cases hsec : v.second with
    | none =>
      rw [pathRender_one hv hdone hsec]
      exact .injectSource (h.setWork ha.slotRegs hv (by rfl) hout)
    | some x =>
      rw [pathRender_two hv hdone hsec]
      exact .injectSource (h.setWork ha.sideRendered.slotRegs hv (by rfl) hout)

theorem AtWork.correctGroup {s t : State} {w : Work} (h : AtWork s w t) (g : Nat) : AtWork s w (correctGroup t g) := by
  obtain ⟨v, hpipe, -⟩ := h.work
  have hv : t.pipe.work = some v := by rw [hpipe]
  by_cases hdone : g ∈ v.corrected
  · rwa [correctGroup_once hv hdone]
  · obtain ⟨u, feeds, heq, hu, -⟩ := correctGroup_new hv hdone
    rw [heq]
    exact h.setWork hu hv rfl rfl

theorem AtWork.safetyStage {s t : State} {w : Work} (h : AtWork s w t) : AtWork s w (safetyStage t) := by
  obtain ⟨v, hpipe, -⟩ := h.work
  have hv : t.pipe.work = some v := by rw [hpipe]
  obtain ⟨ha, hout, -⟩ := sideSafety_passes t v v.prime false v.hits
  cases hsec : v.second with
  | none =>
    rw [safetyStage_one hv hsec]
    exact h.setWork (ha.countHits _ _) hv (by rfl) hout
  | some x =>
    rw [safetyStage_two hv hsec]
    have hb := (sideSafety_passes (sideSafety t v v.prime false v.hits).2.2 v x true (sideSafety t v v.prime false v.hits).2.1).1
    exact h.setWork ((ha.trans hb).countHits _ _) hv (by rfl) hout

theorem emissionCutoff_idle {s : State} (h : s.pipe.work = none) : emissionCutoff s = s := by
  simp [emissionCutoff, pathRender_idle h, h]

/-- What the cutoff does with the frame once its stages have passed: its work ends, its token joins, and, where no cut discards it, it
waits for its output boundary, its missing channels logged. -/
def cutOff (s : State) (p : Int) (miss : List Nat) (out : OutFrame) : State :=
  let u := convUsed s p
  let t := injectToken { u with pipe := { u.pipe with work := none } } (.cutoff p)
  if discarded t p then t
  else
    let t := { t with pipe := { t.pipe with outq := t.pipe.outq ++ [out] } }
    match miss with
    | [] => t
    | c :: _ => logEv (addCtr t Reg.SYS_EMITMISS 1) 0x0001 [frameF (labelOf t p), (2, (c : Int))]

theorem cutOff_ends (s : State) (p : Int) (miss : List Nat) (out : OutFrame) :
    (cutOff s p miss out).pipe.work = none ∧ Token.cutoff p ∈ (cutOff s p miss out).disp.tokens ∧
      (s.pipe.cuts = [] → (cutOff s p miss out).pipe.outq = s.pipe.outq ++ [out]) := by
  have hpipe : (convUsed s p).pipe = s.pipe := (Steady.refl s).convUsed.pipe
  unfold cutOff
  extract_lets u src t src' t'
  have htoken : Token.cutoff p ∈ t.disp.tokens := by simp [t, injectToken]
  by_cases hd : discarded t p
  · rw [if_pos hd]
    refine ⟨rfl, htoken, fun hcuts => ?_⟩
    simp [discarded, t, injectToken, u, src, hpipe, hcuts] at hd
  · rw [if_neg hd]
    have hout : t'.pipe.outq = s.pipe.outq ++ [out] := by simp [t', t, injectToken, src, u, hpipe]
    cases miss with
    | nil => exact ⟨rfl, htoken, fun _ => hout⟩
    | cons c _ => simpa using ⟨(rfl : t'.pipe.work = none), htoken, fun _ => hout⟩

/-- The cutoff renders, corrects and passes what is complete, and then ends the frame. -/
theorem emissionCutoff_stages {s : State} {v₁ v : Work} (hrender : (pathRender s).pipe.work = some v₁)
    (hwork : (safetyStage ((List.range 16).foldl correctGroup (pathRender s))).pipe.work = some v) :
    let t := safetyStage ((List.range 16).foldl correctGroup (pathRender s))
    ∃ miss out, emissionCutoff s = cutOff t v.pos miss out ∧ out.pos = v.pos ∧
      out.due = v.pos + (((sideTake t v.prime).map (·.sys.depth)).getD 3 : Nat) := by
  unfold emissionCutoff
  rw [hrender]
  dsimp only
  rw [hwork]
  unfold cutOff
  exact ⟨_, _, rfl, rfl, rfl⟩

/-- The cutoff ends the work on the frame, injects its token, and, with no cut about, queues it for its output boundary. -/
theorem emissionCutoff_ends {s : State} {w : Work} (h : s.pipe.work = some w) (own : w.prime.outgoing = false) :
    (emissionCutoff s).pipe.work = none ∧ Token.cutoff w.pos ∈ (emissionCutoff s).disp.tokens ∧
      (s.pipe.cuts = [] → ∃ out, (emissionCutoff s).pipe.outq = s.pipe.outq ++ [out] ∧ out.pos = w.pos ∧
        out.due = w.pos + ((s.take.active.map (·.sys.depth)).getD 3 : Nat)) := by
  have hrender : AtWork s w (pathRender s) := (AtWork.start h).pathRender
  have hstages : AtWork s w (safetyStage ((List.range 16).foldl correctGroup (pathRender s))) :=
    (foldl_invariant (AtWork s w) _ (fun _ g ht => ht.correctGroup g) _ _ hrender).safetyStage
  obtain ⟨v₁, hpipe₁, -⟩ := hrender.work
  obtain ⟨v, hpipe, hpos, hout⟩ := hstages.work
  obtain ⟨miss, out, heq, hp, hdue⟩ := emissionCutoff_stages (by rw [hpipe₁]) (by rw [hpipe])
  rw [heq, ← hpos]
  obtain ⟨hnone, htoken, hq⟩ := cutOff_ends (safetyStage ((List.range 16).foldl correctGroup (pathRender s))) v.pos miss out
  refine ⟨hnone, htoken, fun hcuts => ⟨out, ?_, hp, ?_⟩⟩
  · rw [hq (by rw [hpipe]; exact hcuts), hpipe]
  · rw [hdue, sideTake, hout, own, hstages.take]
    rfl

end Sys2Proof.Machine
end

section
/-! PROOF. O43: the conversion of a set, the block work of a channel, and the obligation itself. -/

namespace Sys2Proof.Machine

open Sys2Proof

theorem conversionDone_converting {s : State} {c slot : Nat} {f : FirSet} (h : (chanOf s c).slots.getD slot .empty = .converting f) :
    conversionDone s c slot =
      let ch := chanOf s c
      let x : FirSlot := .ready f (convertSet f.len f.h)
      raise (storeSlot (setChan s c { ch with slots := ch.slots.set slot x }) c slot x) 8 1 := by
  simp only [conversionDone, h]

theorem conversionDone_else {s : State} {c slot : Nat} (h : ∀ f, (chanOf s c).slots.getD slot .empty ≠ .converting f) :
    conversionDone s c slot = s := by
  unfold conversionDone
  dsimp only
  split
  next f hf => exact absurd hf (h f)
  next => rfl

/-- With no damaged codeword the contexts change and nothing else. -/
theorem intoActive_quiet {s : State} (h : s.fab.inj = []) (c p : Nat) (n : Int) (lines : List (Nat × Spec)) (x : Option ConvCtx) :
    intoActive s c p n lines x = (x.map fun v => (blockInto s c p n false lines v).1, s) := by
  cases x with
  | none => rfl
  | some v => exact Prod.ext rfl (blockInto_quiet h c p n false lines v)

theorem intoReserve_quiet {s : State} (h : s.fab.inj = []) (c p : Nat) (n : Int) (lines : List (Nat × Spec)) (chg : List ConvChg) :
    intoReserve s c p n lines chg = (match chg with
      | g :: l => { g with ctx := g.ctx.map fun v => (blockInto s c p n true lines v).1 } :: l
      | [] => [], s) := by
  cases chg with
  | nil => rfl
  | cons g l =>
    obtain ⟨slot, fx, x, cut, p0, ctx⟩ := g
    cases ctx with
    | none => rfl
    | some v => exact Prod.ext rfl (blockInto_quiet h c p n true lines v)

/-- With no damaged codeword the block work stores its channel and, where there is a delay line, the new record. -/
theorem blockWork_quiet {s : State} {c p : Nat} {n : Int} (h : s.fab.inj = [])
    (due : blockDue s c p (prepRun (chanOf s c) (runFor (chanOf s c) n) n) n = true) :
    let r := prepRun (chanOf s c) (runFor (chanOf s c) n) n
    let k := ((partitions r.len).filter (·.1 == p)).length
    let x := fftReal (blockWindow s c p n).1 0
    let lines := (0, x) :: (delayLine s c p r.blocks k).1
    blockWork s c p n = setChan (if k > 1 then blockWrite s (lineAddr s c r.blocks) (specBytes x p) else s) c
      (setRunFor (chanOf s c) n { r with
        ctx := (intoActive s c p n lines r.ctx).1, chg := (intoReserve s c p n lines r.chg).1
        blocks := if k > 1 then r.blocks + 1 else r.blocks, done := p :: r.done }) := by
  intro r k x lines
  have hwork := blockWork_due due
  simp only [blockWindow_quiet h, delayLine_quiet h] at hwork
  rw [intoActive_quiet h, intoReserve_quiet h] at hwork
  rw [hwork, intoActive_quiet h, intoReserve_quiet h]

theorem exec_convBlockWork (s : State) (c p : Nat) : exec (.convBlockWork c p) s = .next (blockWork s c p (posNow s - 1)) := rfl

theorem exec_correctionGroupStart_idle {s : State} (h : s.pipe.work = none) (g : Nat) : exec (.correctionGroupStart g) s = .next s := by
  show Host.Outcome.next _ = _
  simp only [h]

theorem exec_correctionGroupStart {s : State} {w : Work} (h : s.pipe.work = some w) {g : Nat} (hg : g < 16) :
    exec (.correctionGroupStart g) s = .next (if groupDone s w w.prime g then correctGroup s g else s) := by
  show Host.Outcome.next _ = _
  simp only [h, hg, true_and]

/-- Settles O43: the stages by their lemmas, each with a frame under processing and without. -/
theorem pipelineStages : Obligations.PipelineStages := by
  unfold Obligations.PipelineStages
  refine ⟨fun s g h => ?idle, fun s w x h => ?render, fun s w g h hg => ?correct, fun s w x h => ?safety, fun s w h own => ?cutoff,
    fun s c slot => ?convert, fun s c p => ?block, fun s => ?relock⟩
  case idle =>
    exact ⟨congrArg Host.Outcome.next (pathRender_idle h), exec_correctionGroupStart_idle h g,
      congrArg Host.Outcome.next (safetyStage_idle h), congrArg Host.Outcome.next (emissionCutoff_idle h)⟩
  case render =>
    exact ⟨fun done => congrArg Host.Outcome.next (pathRender_once h done),
      fun fresh one => congrArg Host.Outcome.next (pathRender_one h fresh one),
      fun fresh two => congrArg Host.Outcome.next (pathRender_two h fresh two), (sideRendered_side s w w.prime false).1⟩
  case correct =>
    rw [exec_correctionGroupStart h hg]
    refine ⟨fun hskip => ?_, fun done new => ?_⟩
    · rcases hskip with open_ | once
      · rw [open_]; rfl
      · rw [correctGroup_once h once, ite_self]
    · obtain ⟨u, feeds, heq, -, hfeeds⟩ := correctGroup_new h new
      rw [if_pos done]
      exact ⟨_, _, rfl, rfl, by rw [heq]; rfl, rfl, hfeeds⟩
  case safety =>
    obtain ⟨-, -, hmono, hpass⟩ := sideSafety_passes s w w.prime false w.hits
    exact ⟨fun one => congrArg Host.Outcome.next (safetyStage_one h one), fun two => congrArg Host.Outcome.next (safetyStage_two h two),
      hmono, fun g hg corr done => hpass g (List.mem_range.2 (by omega)) done fun _ => corr⟩
  case cutoff => exact ⟨_, rfl, emissionCutoff_ends h own⟩
  case convert =>
    exact ⟨fun f hf => congrArg Host.Outcome.next (conversionDone_converting hf),
      fun hf => congrArg Host.Outcome.next (conversionDone_else hf)⟩
  case block =>
    intro n r k x lines into
    refine ⟨fun idle => congrArg Host.Outcome.next (blockWork_not_due idle), fun due quiet => ⟨_, exec_convBlockWork s c p, ?_⟩⟩
    rw [blockWork_quiet quiet due]
    refine ⟨?_, fun q hq => ?_, ?_, ?_, fun hk => ?_, fun canon a ha => ?_⟩
    · rw [chanOf_setChan, runFor_setRunFor, intoActive_quiet quiet, intoReserve_quiet quiet] <;> rfl
    · rw [chanOf_setChan_ne _ _ _ _ hq]
      split
      · simp [chanOf]
      · rfl
    · rw [setChan_regs]
      split
      · exact blockWrite_regs _ _ _
      · rfl
    · rw [setChan_pipe]
      split
      · exact blockWrite_pipe _ _ _
      · rfl
    · rw [if_neg (Nat.not_lt.2 hk), setChan_mem]
    · rw [setChan_mem]
      split
      · exact read_blockWrite_outside canon ha
      · rfl
  case relock =>
    exact ⟨fun on => congrArg Host.Outcome.next (if_pos on), fun off => congrArg Host.Outcome.next (if_neg (by simp [off]))⟩

end Sys2Proof.Machine
end

section
/-! PROOF. O45: the rounded square root, the arithmetic of the geometry engine, and what an evaluation costs. -/

namespace Sys2Proof.Machine

open Sys2Proof

/-- The bisection's invariant, `r² ≤ n < (r + 2^fuel)²`, reaches fuel 0 as the definition of the integer square root. -/
theorem isqrtFrom_bounds {n fuel r : Nat} (lo : r ^ 2 ≤ n) (hi : n < (r + 2 ^ fuel) ^ 2) :
    isqrtFrom n fuel r ^ 2 ≤ n ∧ n < (isqrtFrom n fuel r + 1) ^ 2 := by
  induction fuel generalizing r with
  | zero => exact ⟨lo, hi⟩
  | succ k ih =>
    rw [isqrtFrom, ← Nat.pow_two]
    split
    next below => exact ih below (by rwa [Nat.add_assoc, ← Nat.two_mul, ← Nat.pow_succ'])
    next above => exact ih lo (Nat.lt_of_not_le above)

theorem lt_sq_two_pow_log2 (n : Nat) : n < (2 ^ (n.log2 / 2 + 1)) ^ 2 := by
  rw [← Nat.pow_mul]
  exact Nat.lt_log2_self.trans_le (Nat.pow_le_pow_right Nat.two_pos (by omega))

/-- The fuel of `isqrt` covers its argument, so the result is exact for every natural. -/
theorem isqrt_bounds (n : Nat) : isqrt n ^ 2 ≤ n ∧ n < (isqrt n + 1) ^ 2 :=
  isqrtFrom_bounds (Nat.zero_le n) (by rw [Nat.zero_add]; exact lt_sq_two_pow_log2 n)

/-- RHU(√(num / den)) lies within a half of the root, without its upper end (R39). -/
theorem sqrtRhu_bounds (num : Nat) {den : Nat} (hden : 0 < den) :
    4 * num < (2 * sqrtRhu num den + 1) ^ 2 * den ∧
      (sqrtRhu num den ≠ 0 → (2 * sqrtRhu num den - 1) ^ 2 * den ≤ 4 * num) := by
  obtain ⟨lo, hi⟩ := isqrt_bounds (4 * num / den)
  have hy : sqrtRhu num den = (isqrt (4 * num / den) + 1) / 2 := rfl
  refine ⟨(Nat.div_lt_iff_lt_mul hden).1 (hi.trans_le ?_), fun _ => (Nat.le_div_iff_mul_le hden).1 (le_trans ?_ lo)⟩ <;>
    exact Nat.pow_le_pow_left (by omega) 2

theorem isqrtRhu_eq_sqrtRhu (n : Nat) : isqrtRhu n = sqrtRhu n 1 := by
  rw [isqrtRhu, sqrtRhu, Nat.div_one]

/-- DIST16 is RHU(16 × √n) of the squared distance n (R39). -/
theorem dist16_bounds (n : Nat) :
    4 * (256 * n) < (2 * dist16 n + 1) ^ 2 ∧ (dist16 n ≠ 0 → (2 * dist16 n - 1) ^ 2 ≤ 4 * (256 * n)) := by
  simpa only [dist16, isqrtRhu_eq_sqrtRhu, Nat.mul_one] using sqrtRhu_bounds (256 * n) Nat.one_pos

theorem norm22_getD {xs : List Nat} {j : Nat} (hj : j < xs.length) (hsum : 0 < (xs.map fun x => x * x).sum) :
    (norm22 xs).getD j 0 = sqrtRhu (xs.getD j 0 * xs.getD j 0 * 2 ^ 44) (xs.map fun x => x * x).sum := by
  rw [norm22, List.getD_eq_getElem _ _ (by rwa [List.length_map]), List.getElem_map, if_neg hsum.ne', List.getD_eq_getElem _ _ hj]

theorem overS_eq_false_iff {w : Nat} {x : Int} :
    overS w x = false ↔ -(2 ^ (w - 1) : Nat) ≤ x ∧ x ≤ (2 ^ (w - 1) : Nat) - 1 := by
  rw [overS, bne_eq_false_iff_eq, satS]
  split
  next below => omega
  next => split <;> omega

theorem b2n_eq_zero {b : Bool} : b2n b = 0 ↔ b = false := by cases b <;> decide

theorem b2n_le_one (b : Bool) : b2n b ≤ 1 := by cases b <;> decide

/-- MUL limits the half-up quotient to the 24-bit range and counts one limitation when it lies outside (R39). -/
theorem mul22_spec (a b : Int) :
    let x := (a * b + 2 ^ 21) / 2 ^ 22
    (mul22 a b).1 = (if x < -8388608 then -8388608 else if 8388607 < x then 8388607 else x) ∧
      ((mul22 a b).2 = 0 ↔ (-8388608 ≤ x ∧ x ≤ 8388607)) ∧ (mul22 a b).2 ≤ 1 :=
  ⟨rfl, b2n_eq_zero.trans overS_eq_false_iff, b2n_le_one _⟩

theorem prop_eq (k d : Nat) : prop k d = ((d * k + 2 ^ 20) / 2 ^ 21 : Nat) := rfl

section
variable {g : GeoSec} {o : ObjIn} {c : CandSet}

theorem evalCost_mesh (hc : g.csets[o.cset]? = some c) (hm : o.mode = 0) :
    evalCost g o = 4 + if o.size = 0 then c.tris else 7 * c.tris := by
  simp only [evalCost, hc, hm]

theorem evalCost_members (hc : g.csets[o.cset]? = some c) (hm : o.mode ≠ 0) : evalCost g o = 4 + c.members := by
  simp only [evalCost, hc]

end

/-- Settles O45: the rounded root gives the distances and NORM; MUL, PROP and the costs are their lemmas. -/
theorem geometryArithmetic : Obligations.GeometryArithmetic := by
  unfold Obligations.GeometryArithmetic
  refine ⟨mul22_spec, prop_eq, dist16_bounds, ?norm, fun g o c hc => ⟨?point, ?wide, evalCost_members hc⟩⟩
  case norm =>
    intro xs j hj sum x y hsum
    have hy : y = sqrtRhu (x * x * 2 ^ 44) sum := norm22_getD hj hsum
    rw [hy]
    exact sqrtRhu_bounds _ hsum
  case point => exact fun hm hs => (evalCost_mesh hc hm).trans (by rw [if_pos hs])
  case wide => exact fun hm hs => (evalCost_mesh hc hm).trans (by rw [if_neg hs])

end Sys2Proof.Machine
end

section
/-! PROOF. O44: the linear ramp of gain and delay, the sample of an admitted path case by case, and where S and M of a tick come
from. -/

namespace Sys2Proof.Machine

open Sys2Proof

/-! A rounded quotient (RHU). -/

theorem divRhu_add_mul_right (a x : Int) {m : Nat} (hm : 0 < m) : divRhu (a + x * m) m = divRhu a m + x := by
  have hnum : 2 * (a + x * m) + m = (2 * a + m) + x * (2 * m : Nat) := by push_cast; ring
  rw [divRhu, hnum, Int.add_mul_ediv_right _ _ (by omega), divRhu]

theorem divRhu_zero {m : Nat} (hm : 0 < m) : divRhu 0 m = 0 :=
  Int.ediv_eq_zero_of_lt (by omega) (by omega)

theorem divRhu_mul_self (x : Int) {m : Nat} (hm : 0 < m) : divRhu (x * m) m = x := by
  simpa [divRhu_zero hm] using divRhu_add_mul_right 0 x hm

/-- A whole multiple of the divisor passes through the rounding, so a bound on the numerators is one on the quotients. -/
theorem divRhu_le_divRhu_add {a b x : Int} {m : Nat} (hm : 0 < m) (h : a ≤ b + x * m) : divRhu a m ≤ divRhu b m + x :=
  calc divRhu a m
    _ ≤ divRhu (b + x * m) m := Int.ediv_le_ediv (by omega) (by omega)
    _ = divRhu b m + x := divRhu_add_mul_right b x hm

/-! The linear ramp of R80. -/

/-- The value at sample k of the ramp from `x₀` to `x₁` over `m` samples (R80). -/
def rampTo (x₀ x₁ : Int) (m k : Nat) : Int := x₀ + divRhu ((x₁ - x₀) * k) m

section
variable {m : Nat} (hm : 0 < m)
include hm

theorem rampTo_end (x₀ x₁ : Int) : rampTo x₀ x₁ m m = x₁ := by
  rw [rampTo, divRhu_mul_self _ hm, add_sub_cancel]

theorem rampTo_nonneg (x₀ x₁ : Nat) {k : Nat} (hk : k ≤ m) : 0 ≤ rampTo x₀ x₁ m k := by
  have hnum : 0 ≤ ((x₁ : Int) - x₀) * k + x₀ * m := by
    have h₀ : (x₀ : Int) * k ≤ x₀ * m := by gcongr
    have h₁ : (0 : Int) ≤ x₁ * k := by positivity
    linarith
  have hquot := divRhu_le_divRhu_add hm hnum
  rw [divRhu_zero hm] at hquot
  rw [rampTo]
  omega

/-- One sample moves the numerator by the whole change of the tick, which a ramp bounds by S × M (R80). -/
theorem rampTo_step_le {x₀ x₁ : Int} {slew : Nat} (k : Nat) (hramp : (x₁ - x₀).natAbs ≤ slew * m) :
    rampTo x₀ x₁ m (k + 1) - rampTo x₀ x₁ m k ≤ slew ∧ rampTo x₀ x₁ m k - rampTo x₀ x₁ m (k + 1) ≤ slew := by
  have hnext : (x₁ - x₀) * (k + 1 : Nat) = (x₁ - x₀) * k + (x₁ - x₀) := by push_cast; ring
  have habs : |x₁ - x₀| ≤ (slew : Int) * m := by rw [Int.abs_eq_natAbs]; exact_mod_cast hramp
  obtain ⟨hlo, hhi⟩ := abs_le.1 habs
  have hup : divRhu ((x₁ - x₀) * (k + 1 : Nat)) m ≤ divRhu ((x₁ - x₀) * k) m + slew :=
    divRhu_le_divRhu_add hm (by linarith)
  have hdown : divRhu ((x₁ - x₀) * k) m ≤ divRhu ((x₁ - x₀) * (k + 1 : Nat)) m + slew :=
    divRhu_le_divRhu_add hm (by linarith)
  unfold rampTo
  omega

end

/-- With S = 0 every change of delay is a jump (R80). -/
theorem not_ramp_of_slew_zero {t : TickCtx} {e : PathEntry} (hs : t.slew = 0) (hd : e.d1 ≠ e.d0) :
    ¬ ((e.d1 : Int) - e.d0).natAbs ≤ t.slew * t.m := by
  rw [hs, Nat.zero_mul]
  omega

/-! The sample of an admitted path, a lemma per branch. -/

section
variable {t : TickCtx} {e : PathEntry} (fr : Nat → Int × Nat) (k : Nat)

theorem pathSample_new (h : e.hist = false) :
    pathSample t e fr k = ((fr e.d1).1, (if k ≤ 16 then divRhu (e.g1 * k) 16 else e.g1), (fr e.d1).2) := by
  simp [pathSample, h]

theorem pathSample_ramp (h : e.hist = true) (hramp : ((e.d1 : Int) - e.d0).natAbs ≤ t.slew * t.m) :
    pathSample t e fr k =
      ((fr (rampTo e.d0 e.d1 t.m k).toNat).1, rampTo e.g0 e.g1 t.m k, (fr (rampTo e.d0 e.d1 t.m k).toNat).2) := by
  simp [pathSample, isRamp, h, hramp, rampTo]

theorem pathSample_jump (h : e.hist = true) (hjump : ¬ ((e.d1 : Int) - e.d0).natAbs ≤ t.slew * t.m) :
    pathSample t e fr k =
      if e.jump = true ∧ k ≤ 16 then
        (divRhu ((fr e.d1).1 * k + (fr e.d0).1 * (16 - (k : Int))) 16, rampTo e.g0 e.g1 t.m k, (fr e.d1).2 + (fr e.d0).2)
      else ((fr e.d1).1, rampTo e.g0 e.g1 t.m k, (fr e.d1).2) := by
  simp [pathSample, isRamp, h, hjump, rampTo]

end

/-! Where S and M come from. -/

@[simp] theorem blockWrite_path (s : State) (a : Nat) (b : Bytes) : (blockWrite s a b).path = s.path := by
  unfold blockWrite whole; split <;> rfl

/-- A tick takes S from PATH_SLEW and M from where in the tick period it starts (R79, R80). -/
theorem pathTick_slew_m (s : State) (x : Take) (kept : Nat → Bool) (objs : List (Nat × ObjTargets)) :
    (pathTick s x kept objs).path.tick.slew = getF s F.PATH_SLEW_S ∧
      (pathTick s x kept objs).path.tick.m = 16 * (x.sys.tick - s.tl.frame % x.sys.tick) := by
  simp only [pathTick, blockWrite_path]
  exact ⟨rfl, rfl⟩

theorem unitAbsent_pathSlew (s : State) : unitAbsent s Reg.PATH_SLEW = false := by
  simp [unitAbsent, Reg.PATH_SLEW]

/-- A larger write of PATH_SLEW stores its maximum, on a full part and on a TK2512 (R80). -/
theorem getR_commitWord_pathSlew (s : State) (v : Nat) :
    getR (commitWord s Reg.PATH_SLEW v false) Reg.PATH_SLEW = min (v % 2 ^ 15) 16384 := by
  have hcommit : commitWord s Reg.PATH_SLEW v false = setR s Reg.PATH_SLEW (min (v % 2 ^ 15) 0x4000) := by
    rw [commitWord, unitAbsent_pathSlew]; rfl
  rw [hcommit, getR_setR_same]
  omega

/-- Settles O44: the branches of a path's sample, the ramp that ends at its target with steps of at most S, and PATH_SLEW. -/
theorem pathSamples : Obligations.PathSamples := by
  unfold Obligations.PathSamples
  refine ⟨fun t e fr k hm => ⟨pathSample_ramp fr k, pathSample_jump fr k, pathSample_new fr k, ?gainEnd, ?delayEnd, ?nonneg,
    ?step, not_ramp_of_slew_zero⟩, pathTick_slew_m, ?default, getR_commitWord_pathSlew⟩
  case gainEnd => exact rampTo_end hm _ _
  case delayEnd => exact rampTo_end hm _ _
  case nonneg => exact rampTo_nonneg hm _ _
  case step => exact rampTo_step_le hm k
  case default => decide

end Sys2Proof.Machine
end

section
/-! SUPPORT. What firmware runs for the set and service commands, and the branches of each. -/

namespace Sys2Proof.Machine

open Sys2Proof

/-! Commands that firmware runs while no resynchronisation owns the staging area (R465). -/

theorem not_heldBack {s : State} (h : pairOwnsStaging s = false) (op : CcpOp) :
    ¬ (pairOwnsStaging s && stagingOp (opcodeOf op)) = true := by simp [h]

theorem fwExec_setBegin {s : State} (h : pairOwnsStaging s = false) (b k n : Nat) (ctx : Ctx) :
    fwExec s (.setBegin b k n) ctx = setBeginCmd s b k n ctx := if_neg (not_heldBack h _)

theorem fwExec_setData {s : State} (h : pairOwnsStaging s = false) (o : Nat) (d : Bytes) (ctx : Ctx) :
    fwExec s (.setData o d) ctx = setDataCmd s o d ctx := if_neg (not_heldBack h _)

theorem fwExec_setEnd {s : State} (h : pairOwnsStaging s = false) (ctx : Ctx) : fwExec s .setEnd ctx = setEndCmd s ctx :=
  if_neg (not_heldBack h _)

theorem fwExec_setChange {s : State} (h : pairOwnsStaging s = false) (b k f x : Nat) (ctx : Ctx) :
    fwExec s (.setChange b k f x) ctx = setChangeCmd s b k f x ctx := if_neg (not_heldBack h _)

theorem fwExec_genStart {s : State} (h : pairOwnsStaging s = false) (f : Nat) (ctx : Ctx) :
    fwExec s (.genStart f) ctx = queueFrame s f (.op (.genStart f) none) ctx := if_neg (not_heldBack h _)

theorem fwExec_genStop {s : State} (h : pairOwnsStaging s = false) (f : Nat) (ctx : Ctx) :
    fwExec s (.genStop f) ctx = queueFrame s f (.op (.genStop f) none) ctx := if_neg (not_heldBack h _)

theorem fwExec_metaInject {s : State} (h : pairOwnsStaging s = false) (d : Bytes) (ctx : Ctx) :
    fwExec s (.metaInject d) ctx = reply s ctx .ok [] := if_neg (not_heldBack h _)

theorem fwExec_eccInject {s : State} (h : pairOwnsStaging s = false) (k kind o : Nat) (ctx : Ctx) :
    fwExec s (.eccInject k kind o) ctx = eccInjectCmd s k kind o ctx := if_neg (not_heldBack h _)

theorem fwExec_logClear {s : State} (h : pairOwnsStaging s = false) (ctx : Ctx) : fwExec s .logClear ctx = logClearCmd s ctx :=
  if_neg (not_heldBack h _)

theorem fwExec_pairResync {s : State} (h : pairOwnsStaging s = false) (ctx : Ctx) :
    fwExec s .pairResync ctx = pairResync s (some ctx) := if_neg (not_heldBack h _)

theorem fwExec_pairSwitchover {s : State} (h : pairOwnsStaging s = false) (f : Nat) (ctx : Ctx) :
    fwExec s (.pairSwitchover f) ctx = pairSwitchCmd s f ctx := if_neg (not_heldBack h _)

/-! The load of a set (R104). -/

/-- A state with this set load open, or with none. -/
def withSetLoad (s : State) (l : Option SetLoad) : State := { s with conv := { s.conv with load := l } }

@[simp] theorem slotBusy_withSetLoad (s : State) (l : Option SetLoad) : slotBusy (withSetLoad s l) = slotBusy s := rfl

theorem setBeginCmd_invalid {s : State} {b n : Nat} (h : busCount s ≤ b ∨ 32788 < n) (k : Nat) (ctx : Ctx) :
    setBeginCmd s b k n ctx = reply s ctx .setInvalid [] := if_pos h

theorem setBeginCmd_inRange {s : State} {b n : Nat} (hb : b < busCount s) (hn : n ≤ 32788) (k : Nat) (ctx : Ctx) :
    setBeginCmd s b k n ctx = if slotBusy s b k then reply (addCtr s Reg.CONV_BUSYREJ 1) ctx .convBusy []
      else reply (withSetLoad s (some { bus := b, slot := k, size := n, bytes := zeroBytes n, got := 0 })) ctx .ok [] :=
  if_neg (by omega)

theorem setDataCmd_closed {s : State} (h : s.conv.load = none) (o : Nat) (d : Bytes) (ctx : Ctx) :
    setDataCmd s o d ctx = reply s ctx .setInvalid [] := by simp only [setDataCmd, h]

theorem setDataCmd_fits {s : State} {l : SetLoad} {o : Nat} {d : Bytes} (h : s.conv.load = some l) (hfit : o + d.length ≤ l.size)
    (ctx : Ctx) : setDataCmd s o d ctx =
      reply (withSetLoad s (some { l with bytes := patchB l.bytes o d, got := l.got + d.length })) ctx .ok [] := by
  simp only [setDataCmd, h]
  exact if_neg (Nat.not_lt.2 hfit)

theorem setEnd_closed {s : State} (h : s.conv.load = none) : setEnd s = (.setInvalid, s) := by simp only [setEnd, h]

theorem setEnd_error {s : State} {l : SetLoad} {st : Status} (h : s.conv.load = some l)
    (hp : parseSet l.bytes l.got l.size = .error st) : setEnd s = (st, withSetLoad s none) := by
  simp only [setEnd, h, hp, withSetLoad]

theorem setEnd_ok {s : State} {l : SetLoad} {q : FirSet} (h : s.conv.load = some l)
    (hp : parseSet l.bytes l.got l.size = .ok q) (hfree : slotBusy s l.bus l.slot = false) :
    setEnd s = (.ok, setChan (withSetLoad s none) l.bus
      { chanOf s l.bus with slots := (chanOf s l.bus).slots.set l.slot (.converting q) }) := by
  have hfree' : ¬ slotBusy (withSetLoad s none) l.bus l.slot = true := by simp [hfree]
  simp only [setEnd, h, hp]
  exact if_neg hfree'

theorem setEndCmd_closed {s : State} (h : s.conv.load = none) (ctx : Ctx) : setEndCmd s ctx = reply s ctx .setInvalid [] := by
  simp only [setEndCmd, setEnd_closed h]

/-- A container that fails a check goes nowhere (R104). -/
theorem setEndCmd_error {s : State} {l : SetLoad} {st : Status} (h : s.conv.load = some l)
    (hp : parseSet l.bytes l.got l.size = .error st) (ctx : Ctx) : setEndCmd s ctx = reply (withSetLoad s none) ctx st [] := by
  cases st <;> simp only [setEndCmd, setEnd_error h hp, h, hp]

/-- A container that passes is converted, and goes to the standby where it is adaptive (R104, R471). -/
theorem setEndCmd_ok {s : State} {l : SetLoad} {q : FirSet} (h : s.conv.load = some l)
    (hp : parseSet l.bytes l.got l.size = .ok q) (hfree : slotBusy s l.bus l.slot = false) (ctx : Ctx) :
    setEndCmd s ctx = reply (forwardSet (setChan (withSetLoad s none) l.bus
      { chanOf s l.bus with slots := (chanOf s l.bus).slots.set l.slot (.converting q) }) l.bus l.slot q) ctx .ok [] := by
  simp only [setEndCmd, setEnd_ok h hp hfree, h, hp]

/-! Commands of the frame queue (R248). -/

theorem setChangeCmd_past {s : State} {f : Nat} (h : f ≤ s.tl.frame) (b k x : Nat) (ctx : Ctx) :
    setChangeCmd s b k f x ctx = reply s ctx .framePast [] := if_pos h

theorem setChangeCmd_full {s : State} {f : Nat} (h : s.tl.frame < f) (hfull : 256 ≤ s.ccp.frameQ.length) (b k x : Nat) (ctx : Ctx) :
    setChangeCmd s b k f x ctx = reply s ctx .queueFull [] := (if_neg (Nat.not_le.2 h)).trans (if_pos hfull)

theorem setChangeCmd_room {s : State} {f : Nat} (h : s.tl.frame < f) (hroom : s.ccp.frameQ.length < 256) (b k x : Nat) (ctx : Ctx) :
    setChangeCmd s b k f x ctx = frameAs s (s.tl.frame + 1) ctx.arr (.op (.setChange b k f x) (some ctx)) :=
  (if_neg (Nat.not_le.2 h)).trans (if_neg (Nat.not_le.2 hroom))

theorem queueFrame_past {s : State} {f : Nat} (h : f ≤ s.tl.frame) (c : Change) (ctx : Ctx) :
    queueFrame s f c ctx = reply s ctx .framePast [] := if_pos h

theorem queueFrame_room {s : State} {f : Nat} (h : s.tl.frame < f) (hroom : s.ccp.frameQ.length < 256) (c : Change) (ctx : Ctx) :
    queueFrame s f c ctx = reply (frameAs s f ctx.arr c) ctx .ok [] :=
  (if_neg (Nat.not_le.2 h)).trans (if_neg (Nat.not_le.2 hroom))

/-! Injected errors (R444) and the log (R483). -/

/-- With no other injection waiting, the mask stands alone. -/
theorem injectAt_first {s : State} (h : s.fab.inj = []) (a : Nat) {mask : Nat} (hm : mask ≠ 0) :
    injectAt s a mask = { s with fab := { s.fab with inj := [(a, mask)] } } := by simp [injectAt, h, hm]

theorem eccInjectCmd_secure {s : State} (h : s.hw.secure = true) (k kind o : Nat) (ctx : Ctx) :
    eccInjectCmd s k kind o ctx = reply s ctx .notPermitted [] := if_pos h

theorem eccInjectCmd_open {s : State} {k o a : Nat} (h : s.hw.secure = false) (ha : injectAddr s k o = some a) (kind : Nat) (ctx : Ctx) :
    eccInjectCmd s k kind o ctx = reply (injectAt s a (if kind = 0 then 1 else 3)) ctx .ok [] := by
  simp [eccInjectCmd, h, ha]

theorem logClearCmd_failed {s : State} (h : s.log.failed = true) (ctx : Ctx) : logClearCmd s ctx = reply s ctx .notPermitted [] :=
  if_pos h

theorem logClearCmd_waits {s : State} (h : s.log.failed = false) (ctx : Ctx) : logClearCmd s ctx = pendOp s .logClear ctx :=
  if_neg (by simp [h])

/-! The pair (R455, R460). -/

theorem pairResync_takeover {s : State} (h : takeoverPending s = true) (ctx : Ctx) :
    pairResync s (some ctx) = reply s ctx .pairRole [] := if_pos h

/-- A unit that needs no peer, or is itself the source, does not resynchronise, whatever is pending. -/
theorem pairResync_driving {s : State} (h : s.pair.role = .solo ∨ s.pair.role = .active) (ctx : Ctx) :
    pairResync s (some ctx) = reply s ctx .pairRole [] := by
  by_cases ht : takeoverPending s = true
  · exact pairResync_takeover ht ctx
  · obtain hr | hr := h <;> simp [pairResync, ht, hr, replyTo]

theorem rolePend_free {s : State} (h : takeoverPending s = false) (new : Role) (cause : Nat) :
    rolePend s new cause = setPair s { s.pair with pend := some (new, cause) } := if_neg (by simp [h])

theorem pairResync_following {s : State} (hr : s.pair.role = .standby ∨ s.pair.role = .orphan) (h : takeoverPending s = false)
    (ctx : Ctx) : pairResync s (some ctx) =
      setPair s { s.pair with rsCtx := s.pair.rsCtx ++ [ctx], pend := some (.resync, 7) } := by
  calc pairResync s (some ctx)
      = rolePend (setPair s { s.pair with rsCtx := s.pair.rsCtx ++ [ctx] }) .resync 7 := by
        obtain hr | hr := hr <;> simp [pairResync, h, hr]
    _ = setPair s { s.pair with rsCtx := s.pair.rsCtx ++ [ctx], pend := some (.resync, 7) } :=
        rolePend_free (by exact h) _ _

/-- Unit and peer hold roles that an exchange may start from (R460). -/
def MayExchange (s : State) : Prop :=
  s.pair.role = .active ∧ (peerRole s = 2 ∨ peerRole s = 7) ∨ s.pair.role = .standby ∧ (peerRole s = 1 ∨ peerRole s = 7)

/-- The test of the roles in `switchCheck`. -/
theorem exchangeRoles_iff (s : State) :
    (s.pair.role == .active && (peerRole s == 2 || peerRole s == 7) ||
      s.pair.role == .standby && (peerRole s == 1 || peerRole s == 7)) = true ↔ MayExchange s := by simp [MayExchange]

theorem switchCheck_role {s : State} (h : ¬ MayExchange s) (f : Nat) : switchCheck s f = some .pairRole := by
  rw [← exchangeRoles_iff, Bool.not_eq_true] at h
  simp [switchCheck, h]

theorem switchCheck_mayExchange {s : State} (h : MayExchange s) (f : Nat) :
    switchCheck s f = if s.pair.pclap = false then some .pairLink
      else if f ≤ s.tl.frame + getF s F.PAIR_LEAD_FRAMES then some .framePast else none := by
  rw [← exchangeRoles_iff] at h
  simp [switchCheck, h]

theorem pairSwitchCmd_refused {s : State} {f : Nat} {st : Status} (h : switchCheck s f = some st) (ctx : Ctx) :
    pairSwitchCmd s f ctx = reply s ctx st [] := by simp only [pairSwitchCmd, h]

theorem pairSwitchCmd_room {s : State} {f : Nat} (h : switchCheck s f = none) (hroom : s.ccp.frameQ.length < 256) (ctx : Ctx) :
    pairSwitchCmd s f ctx =
      reply (pairSend (frameAs s f ctx.arr (.op (.pairSwitchover f) none)) 5 (beBytes 8 f)) ctx .ok [] := by
  simp only [pairSwitchCmd, h]
  exact if_neg (Nat.not_le.2 hroom)

end Sys2Proof.Machine
end

section
/-! PROOF. O27: the set and service commands. -/

namespace Sys2Proof.Machine

open Sys2Proof

/-- Settles O27: each command by its own branches, outside a resynchronisation. -/
theorem setAndServiceCommands : Obligations.SetAndServiceCommands := by
  unfold Obligations.SetAndServiceCommands
  intro s ctx b k n o f x d free pends load queued queues mayExchange
  rw [fwExec_setBegin free, fwExec_setData free, fwExec_setEnd free, fwExec_setChange free, fwExec_genStart free,
    fwExec_genStop free, fwExec_metaInject free, fwExec_eccInject free, fwExec_eccInject free, fwExec_eccInject free,
    fwExec_logClear free, fwExec_pairResync free, fwExec_pairSwitchover free]
  refine ⟨fun h => setBeginCmd_invalid h k ctx, ?beginBusy, ?beginOk, fun h => ⟨setDataCmd_closed h o d ctx, setEndCmd_closed h ctx⟩,
    fun l hl => ⟨fun hfit => setDataCmd_fits hl hfit ctx, fun st hp => setEndCmd_error hl hp ctx,
      fun q hp hfree => setEndCmd_ok hl hp hfree ctx⟩,
    fun h => setChangeCmd_past h b k x ctx, fun h hfull => setChangeCmd_full h hfull b k x ctx,
    fun h hroom => setChangeCmd_room h hroom b k x ctx, fun h => ⟨queueFrame_past h _ ctx, queueFrame_past h _ ctx⟩,
    fun h hroom => ⟨queueFrame_room h hroom _ ctx, queueFrame_room h hroom _ ctx⟩, rfl,
    fun h => eccInjectCmd_secure h k n o ctx, ?inject, fun h => logClearCmd_failed h ctx, fun h => logClearCmd_waits h ctx,
    fun h => pairResync_driving h ctx, fun h => pairResync_takeover h ctx, fun hr h => pairResync_following hr h ctx,
    fun h => pairSwitchCmd_refused (switchCheck_role h f) ctx, ?noLink, ?past, ?sent⟩
  case beginBusy =>
    intro hb hn hbusy
    rw [setBeginCmd_inRange hb hn, if_pos hbusy]
  case beginOk =>
    intro hb hn hfree
    rw [setBeginCmd_inRange hb hn, hfree]
    rfl
  case inject =>
    intro a hopen ha hnone
    rw [eccInjectCmd_open hopen ha, eccInjectCmd_open hopen ha, ← injectAt_first hnone a (by decide : 1 ≠ 0),
      ← injectAt_first hnone a (by decide : 3 ≠ 0)]
    exact ⟨rfl, rfl⟩
  case noLink =>
    intro hmay hlink
    exact pairSwitchCmd_refused ((switchCheck_mayExchange hmay f).trans (if_pos hlink)) ctx
  case past =>
    intro hmay hlink hpast
    exact pairSwitchCmd_refused (by simp [switchCheck_mayExchange hmay, hlink, hpast]) ctx
  case sent =>
    intro hmay hlink hlead hroom
    exact pairSwitchCmd_room (by simp [switchCheck_mayExchange hmay, hlink, Nat.not_le.2 hlead]) hroom ctx

end Sys2Proof.Machine
end

section
/-! SUPPORT. Operations of the vector slots that execute: the lane values they put into flight, in the words of the statements. -/

namespace Sys2Proof.Machine

open Sys2Proof

/-- Lane k of the first source, a register. -/
@[simp] theorem src_zero_vLanes (c : Core) (r : Nat) (vs : List (List Int)) {k : Nat} (hk : k < 4) :
    src (c.vLanes r :: vs) 0 k = laneOf c r k := vLanes_getD c r k hk

/-- Lane k of the second source, a register. -/
@[simp] theorem src_one_vLanes (c : Core) (r : Nat) (v : List Int) (vs : List (List Int)) {k : Nat} (hk : k < 4) :
    src (v :: c.vLanes r :: vs) 1 k = laneOf c r k := vLanes_getD c r k hk

theorem aLanes_getD (c : Core) (r k : Nat) (hk : k < 4) : (c.aLanes r).getD k 0 = Sparse.get0 c.a (4 * r + k) := by
  simp [Core.aLanes, hk]

section
variable {s : State} {h : KHd} (hv : VecActs s h) {srcs rs : List Nat} (hs : srcs.mapM (coreOf s h.core).vPhys = some rs)
include hv hs

/-- An operation whose lanes are limited to 32 bits, or wrapped (R150). -/
theorem vecOp_limited {d rd : Nat} (hd : (coreOf s h.core).vPhys d = some rd) {lat : Nat} {f : List (List Int) → Nat → Int}
    {y : Nat → Int} (hy : ∀ k, k < 4 → f (rs.map (coreOf s h.core).vLanes) k = y k) :
    vecOp s h true srcs d lat (fun v k => fin32 h (f v k)) = issuesLimited s h rd lat y := by
  rw [vecOp_acts s h srcs rs d rd lat _ hv hs hd]
  refine congrArg (issueFlight s h.core) (vecFlight_congr _ _ _ _ _ _ _ _ (fun k hk => ?_) fun k hk => ?_) <;>
    rw [hy k hk] <;> unfold fin32 <;> cases h.w <;> rfl

/-- An operation whose lanes need no limit. -/
theorem vecOp_exact {d rd : Nat} (hd : (coreOf s h.core).vPhys d = some rd) {lat : Nat} {f : List (List Int) → Nat → Int}
    {y : Nat → Int} (hy : ∀ k, k < 4 → f (rs.map (coreOf s h.core).vLanes) k = y k) :
    vecOp s h true srcs d lat (fun v k => exact (f v k)) = issuesExact s h rd lat y := by
  rw [vecOp_acts s h srcs rs d rd lat _ hv hs hd]
  exact congrArg (issueFlight s h.core) (vecFlight_congr _ _ _ _ _ _ _ _ hy fun _ _ => rfl)

/-- An operation that adds lane terms to an accumulator, or sets them. -/
theorem accOp_terms {acc r : Nat} (hr : (coreOf s h.core).aPhys acc = some r) {add : Bool} {f : List (List Int) → Nat → Int}
    {y : Nat → Int} (hy : ∀ k, k < 4 → f (rs.map (coreOf s h.core).vLanes) k = y k) :
    accOp s h true add srcs acc f = issuesAcc s h r add y :=
  (accOp_acts s h add srcs rs acc r f hv hs hr).trans (issuesAcc_congr s h r add _ _ hy)

end

/-- A comparison of two registers. -/
theorem cmpOp_bits {s : State} {h : KHd} (hv : VecActs s h) {a b ra rb : Nat} (ha : (coreOf s h.core).vPhys a = some ra)
    (hb : (coreOf s h.core).vPhys b = some rb) (pd : Nat) {f : Int → Int → Bool} {p : Nat → Bool}
    (hp : ∀ k, k < 4 → f (laneOf (coreOf s h.core) ra k) (laneOf (coreOf s h.core) rb k) = p k) :
    cmpOp s h a b pd f = issuesPred s h pd p := by
  rw [cmpOp_acts s h a b pd ra rb f hv ha hb]
  simp only [issuesPred, vLanes_getD, hp, Nat.reduceLT]

theorem mapM_one {α β : Type} {f : α → Option β} {a : α} {x : β} (ha : f a = some x) : [a].mapM f = some [x] := by
  simp [ha]

theorem mapM_two {α β : Type} {f : α → Option β} {a b : α} {x y : β} (ha : f a = some x) (hb : f b = some y) :
    [a, b].mapM f = some [x, y] := by
  simp [ha, hb]

theorem rhu_pos {n : Nat} (hn : n ≠ 0) (x : Int) : rhu n x = (x + 2 ^ (n - 1)) / 2 ^ n := by simp [rhu, hn]

end Sys2Proof.Machine
end

section
/-! PROOF. O2, O3, O4: the operations of the vector slots. -/

namespace Sys2Proof.Machine

open Sys2Proof

theorem natAbs_cases (x : Int) : ((x.natAbs : Nat) : Int) = if x < 0 then -x else x := by split <;> omega

/-- Settles O2: each lane function, read in the lanes of the registers. -/
theorem vectorArithmetic : Obligations.VectorArithmetic := by
  unfold Obligations.VectorArithmetic
  intro s h a b d ra rb rd hv ha hb hd A B
  have one := mapM_one ha
  have two := mapM_two ha hb
  refine ⟨?_, ?_, ?_, ?_, ?_, ?_, ?_, ?_, ?_⟩
  · exact congrArg _ (vecOp_limited hv two hd fun k hk => by simp [hk, A, B])
  · exact congrArg _ (vecOp_limited hv two hd fun k hk => by simp [hk, A, B])
  · exact congrArg _ (vecOp_limited hv one hd fun k hk => by simp [hk, A])
  · exact congrArg _ (vecOp_limited hv one hd fun k hk => by simp only [List.map_cons, src_zero_vLanes _ _ _ hk, natAbs_cases, A])
  · exact congrArg _ (vecOp_exact hv two hd fun k hk => by simp [hk, A, B, min_def])
  · exact congrArg _ (vecOp_exact hv two hd fun k hk => by simp [hk, A, B, max_def])
  · exact congrArg _ (vecOp_limited hv two hd fun k hk => by simp [hk, A, B, rhu_pos])
  · exact congrArg _ (vecOp_limited hv two hd fun k hk => by simp [hk, A, B, rhu_pos])
  · intro imm hlo hhi x
    have hok : (decide (8 ≤ imm % 32) && decide (imm % 32 ≤ 24)) = true := by simp [hlo, hhi]
    have hx : ∀ k, k < 4 → narrow h (imm % 32) (A k) =
        if h.w then (wrapS (imm % 32) (x k), false) else (satS (imm % 32) (x k), overS (imm % 32) (x k)) := by
      intro k _
      simp only [narrow, rhu_pos (by decide : 24 ≠ 0), x]
    show Host.Outcome.next (vecOp s h _ [a] d 2 _) = _
    rw [hok, vecOp_acts s h [a] [ra] d rd 2 _ hv one hd]
    refine congrArg (fun f => Host.Outcome.next (issueFlight s h.core f)) (vecFlight_congr _ _ _ _ _ _ _ _ ?_ ?_) <;>
      intro k hk <;> simp only [List.map_cons, src_zero_vLanes _ _ _ hk] <;> rw [hx k hk] <;> cases h.w <;> rfl


/-- A bitwise operation uses the low six bits of a shift count. -/
theorem unsigned_mod_64 (x : Int) : unsigned 32 x % 64 = unsigned 6 x := by
  unfold unsigned
  omega

/-- Settles O3: each lane function, read in the lanes of the registers. -/
theorem vectorBitsAndMoves : Obligations.VectorBitsAndMoves := by
  unfold Obligations.VectorBitsAndMoves
  intro s h a b d imm ra rb rd hv ha hb hd A B n pat
  have one := mapM_one ha
  have two := mapM_two ha hb
  refine ⟨?_, ?_, ?_, ?_, ?_, ?_, ?_, ?_, ?_, ?_, ?_, ?_, ?_⟩
  · exact congrArg _ (vecOp_exact hv two hd fun k hk => by simp [hk, A, B, pat, onBits])
  · exact congrArg _ (vecOp_exact hv two hd fun k hk => by simp [hk, A, B, pat, onBits])
  · exact congrArg _ (vecOp_exact hv two hd fun k hk => by simp [hk, A, B, pat, onBits])
  · exact congrArg _ (vecOp_limited hv two hd fun k hk => by simp [hk, A, B, n])
  · exact congrArg _ (vecOp_limited hv two hd fun k hk => by simp [hk, A, B, n])
  · exact congrArg _ (vecOp_exact hv two hd fun k hk => by simp [hk, A, B, n, pat, onBits, unsigned_mod_64])
  · exact congrArg _ (vecOp_limited hv one hd fun k hk => by simp [hk, A])
  · exact congrArg _ (vecOp_limited hv one hd fun k hk => by simp [hk, A])
  · exact congrArg _ (vecOp_exact hv one hd fun k hk => by simp [hk, A])
  · exact congrArg _ (vecOp_exact hv one hd fun k _ => by simp [Nat.mod_lt imm, A])
  · exact congrArg _ (vecOp_exact hv one hd fun k _ => by simp [Nat.mod_lt (imm / 4 ^ k), A])
  · intro x hx
    have hok : (decide (x < 16) && (0 : Nat) == 0) = true := by simp [hx]
    show Host.Outcome.next (vecOp s h _ [] d 2 _) = _
    rw [hok]
    exact congrArg _ (vecOp_exact hv (srcs := []) (rs := []) rfl hd fun _ _ => rfl)
  · intro acc r shift hr hshift
    show Host.Outcome.next (match (coreOf s h.core).aPhys acc with | some _ => _ | none => _) = _
    rw [hr]
    exact congrArg _ (vecOp_limited hv (srcs := []) (rs := []) rfl hd fun k hk => by
      rw [aLanes_getD _ _ _ hk, Nat.mod_eq_of_lt hshift])

/-- Settles O4: comparisons by their bits, accumulator operations by their lane terms. -/
theorem vectorComparesAndTerms : Obligations.VectorComparesAndTerms := by
  unfold Obligations.VectorComparesAndTerms
  refine ⟨?compares, ?terms⟩
  case compares =>
    intro s h a b pd ra rb hv ha hb A B
    exact ⟨congrArg _ (cmpOp_bits hv ha hb pd fun _ _ => rfl), congrArg _ (cmpOp_bits hv ha hb pd fun _ _ => rfl),
      congrArg _ (cmpOp_bits hv ha hb pd fun _ _ => rfl)⟩
  case terms =>
    intro s h a b ln acc shift ra rb r hv ha hb hr A B
    have one := mapM_one ha
    have two := mapM_two ha hb
    refine ⟨?_, ?_, ?_, ?_, ?_, ?_, ?_, ?_, ?_, ?_⟩
    · exact congrArg _ (accOp_terms hv two hr fun k hk => by simp [hk, A, B])
    · exact congrArg _ (accOp_terms hv two hr fun k hk => by simp [hk, A, B])
    · exact congrArg _ (accOp_terms hv two hr fun k hk => by simp [hk, A, B])
    · exact congrArg _ (accOp_terms hv two hr fun k hk => by simp [hk, Nat.mod_lt ln, A, B])
    · exact congrArg _ (accOp_terms hv two hr fun k hk => by simp [hk, Nat.mod_lt ln, A, B])
    · exact congrArg _ (accOp_terms hv two hr fun k hk => by simp [hk, Nat.mod_lt ln, A, B])
    · intro re im
      exact congrArg _ (accOp_terms hv two hr fun k hk => by interval_cases k <;> simp [cmul, A, B, re, im])
    · intro re im
      exact congrArg _ (accOp_terms hv two hr fun k hk => by interval_cases k <;> simp [cmul, A, B, re, im])
    · exact congrArg _ (accOp_terms hv (srcs := []) (rs := []) rfl hr fun _ _ => rfl)
    · intro hshift
      have hok : decide (shift ≤ 40) = true := decide_eq_true hshift
      constructor <;> show Host.Outcome.next (accOp s h _ _ [a] acc _) = _ <;> rw [hok] <;>
        exact congrArg _ (accOp_terms hv one hr fun k hk => by simp [hk, A])

end Sys2Proof.Machine
end

section
/-! SUPPORT. Operations of the CT slot: what one that executes adds to its bundle, and what the special registers read. -/

namespace Sys2Proof.Machine

open Sys2Proof

theorem CtActs.slot {s : State} {h : KHd} (hc : CtActs s h) : h.slot = 0 := hc.2.1

theorem CtActs.core_lt {s : State} {h : KHd} (hc : CtActs s h) : h.core < 32 := mayIssue_lt hc.1

section
variable {s : State} {h : KHd} (hc : CtActs s h)
include hc

/-- A CT operation that raises no exception completes its bundle. -/
theorem ctOp_ok {run : Core → Except Nat CtAct} {act : CtAct} (hr : run (coreOf s h.core) = .ok act) :
    ctOp s h run = closeBundle s h.core act := by
  rw [ctOp_acts s h run hc, hr]

/-- A CT operation that raises an exception stops the core. -/
theorem ctOp_error {run : Core → Except Nat CtAct} {cause : Nat} (hr : run (coreOf s h.core) = .error cause) :
    ctOp s h run = kpuFault s h.core cause 0 := by
  rw [ctOp_acts s h run hc, hr]

/-- An address operation writes its value with λ = 1. -/
theorem ctX_acts {f : Core → Int} {v : Int} (hf : f (coreOf s h.core) = v) (d : Nat) :
    ctX s h d f = ctWrites s h .x ((coreOf s h.core).xKey d) 1 v := by
  subst hf
  exact ctOp_ok hc rfl

/-- A branch decides the third bundle after its own (R142). -/
theorem exec_br {target : Nat} (ht : target < 4096) : exec (.br h target) s = .next (closeBundle s h.core
    { flights := [], branch := some { left := 3, target := target, rfi := false }, loop := none }) := by
  refine congrArg _ (ctOp_ok hc ?_)
  simp only [branchTo, Nat.mod_eq_of_lt ht]
  rfl

/-- A ZLOOP with listed operands, outside handlers and loops, arms its loop (R143). -/
theorem exec_zloop {stg target : Nat} (hm : (coreOf s h.core).hm = false) (hstg : stg < 7)
    (htarget : (coreOf s h.core).pc + 3 ≤ target) (hpc : (coreOf s h.core).pc < 4093) (harmed : (coreOf s h.core).armed = false)
    (a : Nat) : exec (.zloop h a stg target) s = .next (closeBundle s h.core
      { flights := [], branch := none, loop := some ((coreOf s h.core).xr a, target, stg) }) := by
  have hlisted : ¬ (stg ≥ 7 ∨ target < (coreOf s h.core).pc + 3 ∨ (coreOf s h.core).pc ≥ 4093) := by omega
  exact congrArg _ (ctOp_ok hc ((if_neg (by simpa using hm)).trans ((if_neg hlisted).trans (if_neg (by simpa using harmed)))))

/-- A NOP of the CT slot completes its bundle. -/
theorem exec_nop_ct : exec (.nop h) s = .next (ctCloses s h) :=
  congrArg _ ((if_pos hc.slot).trans (ctOp_ok hc rfl))

end

section
variable {s : State} {h : KHd} (hk : h.core < 32) (hq : Quiet s h.core) (r : Nat) (v : Int)
include hk hq

theorem ctWrites_x : ctWrites s h .x r 1 v =
    setCore s h.core { nextBundle (coreOf s h.core) with x := Sparse.putN (coreOf s h.core).x r (v % 2 ^ 32).toNat } :=
  (closeBundle_one s h.core (ctFlight .x r 1 v) hk hq rfl (by simp [ctFlight]) (by simp [ctFlight]) (by simp [ctFlight])).trans
    (congrArg (setCore s h.core) (landReg_x _ _ _ _ _))

theorem ctWrites_b : ctWrites s h .b r 1 v =
    setCore s h.core { nextBundle (coreOf s h.core) with base := Sparse.putN (coreOf s h.core).base r (v % 2 ^ 18).toNat } :=
  (closeBundle_one s h.core (ctFlight .b r 1 v) hk hq rfl (by simp [ctFlight]) (by simp [ctFlight]) (by simp [ctFlight])).trans
    (congrArg (setCore s h.core) (landReg_b _ _ _ _ _))

theorem ctWrites_l : ctWrites s h .l r 1 v =
    setCore s h.core { nextBundle (coreOf s h.core) with len := Sparse.putN (coreOf s h.core).len r (v % 2 ^ 19).toNat } :=
  (closeBundle_one s h.core (ctFlight .l r 1 v) hk hq rfl (by simp [ctFlight]) (by simp [ctFlight]) (by simp [ctFlight])).trans
    (congrArg (setCore s h.core) (landReg_l _ _ _ _ _))

end

/-- A number that names no special register reads 0 (R137). -/
theorem sprRead_unnamed (c : Core) (k cyc : Nat) {n : Nat} (hn : n = 0x0F ∨ 0x11 ≤ n) : sprRead c k cyc n = 0 := by
  unfold sprRead
  split <;> omega

end Sys2Proof.Machine
end

section
/-! PROOF. O5, O6, O7: the operations of the CT slot. -/

namespace Sys2Proof.Machine

open Sys2Proof

/-- Settles O5: each value, with the shifts as products and quotients. -/
theorem addressArithmetic : Obligations.AddressArithmetic := by
  unfold Obligations.AddressArithmetic
  intro s h a b d hc c X S out
  have acts : ∀ {f : Core → Int} {v : Int}, f c = v →
      (Host.Outcome.next (ctX s h d f) : Host.Outcome State Fault Refusal) = .next (out v) :=
    fun hf => congrArg _ (ctX_acts hc hf d)
  refine ⟨acts rfl, acts rfl, acts rfl, acts rfl, acts rfl, acts ?_, acts ?_, acts ?_, fun _ => acts rfl,
    fun _ => ⟨acts rfl, acts rfl⟩, ?_, fun cyc => ⟨acts rfl, acts rfl, acts rfl, acts rfl, acts rfl, acts rfl, acts rfl,
      acts rfl, acts rfl, acts rfl, acts rfl, acts rfl, acts rfl, acts rfl, acts rfl, acts rfl, ?_⟩⟩
  · simp [Nat.shiftLeft_eq, X]
  · rw [Nat.shiftRight_eq_div_pow]
  · simp [S]
  · intro v r ln hr hln
    refine congrArg _ (ctOp_ok hc ?_)
    simp only [hr, Nat.mod_eq_of_lt hln, vLanes_getD _ _ _ hln, c]
  · intro spr hspr hlt
    refine acts ?_
    rw [Nat.mod_eq_of_lt hlt, sprRead_unnamed _ _ _ hspr]
    rfl

theorem natCast_emod_toNat (n w : Nat) : (((n : Nat) : Int) % 2 ^ w).toNat = n % 2 ^ w := by
  rw [← Nat.cast_ofNat, ← Nat.cast_pow, ← Int.natCast_mod, Int.toNat_natCast]

/-- Settles O6: the one result of the bundle lands alone. -/
theorem addressResultLands : Obligations.AddressResultLands := by
  unfold Obligations.AddressResultLands
  intro s h a b d simm hc hq c lands
  have hk := hc.core_lt
  have hx : ∀ {f : Core → Int} {v : Int}, f c = v →
      (Host.Outcome.next (ctX s h d f) : Host.Outcome State Fault Refusal) = .next (lands v) := by
    intro f v hf
    rw [ctX_acts hc hf d, ctWrites_x hk hq]
  refine ⟨hx (Nat.cast_add _ _), hx rfl, hx rfl, hx ?_, ?_, ?_, ?_⟩
  · simp [c]
  · refine congrArg _ ((ctOp_ok hc rfl).trans ((ctWrites_b hk hq _ _).trans ?_))
    rw [natCast_emod_toNat, Nat.mod_mod]
  · refine congrArg _ ((ctOp_ok hc rfl).trans ((ctWrites_l hk hq _ _).trans ?_))
    rw [natCast_emod_toNat, Nat.mod_mod]
  · rw [exec_nop_ct hc]
    exact congrArg _ (closeBundle_none s h.core hk hq)

/-- Settles O7: each operation by what it hands to its bundle. -/
theorem ctControl : Obligations.CtControl := by
  unfold Obligations.CtControl
  intro s h a b d t hc c X S pred br
  have closes : ∀ {run : Core → Except Nat CtAct} {act : CtAct}, run c = .ok act →
      (Host.Outcome.next (ctOp s h run) : Host.Outcome State Fault Refusal) = .next (closeBundle s h.core act) :=
    fun hr => congrArg _ (ctOp_ok hc hr)
  refine ⟨closes ?_, closes ?_, closes rfl, closes rfl, closes rfl, closes rfl, exec_nop_ct hc, closes rfl, closes rfl, ?_,
    closes rfl, ?_, ?_⟩
  · simp [beq_eq_decide, CtAct.none, Core.bank, c, X]
  · simp [bne, beq_eq_decide, CtAct.none, Core.bank, c, X]
  · intro ht
    refine ⟨exec_br hc ht, closes rfl, closes ?_⟩
    simp only [branchTo, Nat.mod_eq_of_lt ht]
    rfl
  · intro spr hlt hspr
    refine closes ?_
    have hreach : (c.hm && !(spr == 0 || spr == 8 || spr == 9)) = false := by
      rcases hspr with hm | rfl | rfl | rfl <;> simp [*]
    simp only [hreach, Nat.mod_eq_of_lt hlt]
    rfl
  · exact fun stg hm hstg htarget hpc harmed => exec_zloop hc hm hstg htarget hpc harmed a

end Sys2Proof.Machine
end

section
/-! SUPPORT. Operations that a guard keeps from executing, and CT operations that do more than complete their bundle. -/

namespace Sys2Proof.Machine

open Sys2Proof

section
variable {s : State} {h : KHd} (hm : (coreOf s h.core).guardMask h = 0)
include hm

theorem vecOp_off (ok : Bool) (srcs : List Nat) (d lat : Nat) (f : List (List Int) → Nat → Int × Bool) :
    vecOp s h ok srcs d lat f = s := by
  unfold vecOp
  split
  · rfl
  · exact if_pos hm

theorem cmpOp_off (a b pd : Nat) (f : Int → Int → Bool) : cmpOp s h a b pd f = s := by
  unfold cmpOp
  split
  · rfl
  · exact if_pos hm

theorem accOp_off (ok add : Bool) (srcs : List Nat) (acc : Nat) (f : List (List Int) → Nat → Int) :
    accOp s h ok add srcs acc f = s := by
  unfold accOp
  split
  · rfl
  · exact if_pos hm

theorem laneZero_off : laneZero s h = false := by simp [laneZero, hm, lane]

theorem loadOp_off (a : KAddr) (u : Nat) (ok : Bool) (mk : Core → List Nat → Option Flight) :
    loadOp s h a u (laneZero s h) ok mk = s := if_pos (by simp [laneZero_off hm])

theorem storeOp_off (a : KAddr) (u mask : Nat) (ok : Bool) (words : Core → Option (List Int)) :
    storeOp s h a u mask (laneZero s h) ok words = s := if_pos (by simp [laneZero_off hm])

theorem ctRuns_off : ctRuns s h = false := by simp [ctRuns, hm, lane]

/-- A CT operation that is guarded off completes its bundle. -/
theorem ctOp_off (hslot : h.slot = 0) (hmay : mayIssue s h.core = true) (run : Core → Except Nat CtAct) :
    ctOp s h run = ctCloses s h := by
  simp [ctOp, hslot, hmay, hm, lane, ctCloses]

end

section
variable {s : State} {k addr : Nat} (ch : Nat)

/-- A descriptor that reads well joins its channel's queue. -/
theorem queueDma_read (hin : addr % 16 = 0 ∧ addr + 16 ≤ 2 ^ 18) (hread : eccRead s (dmemBase k + addr) 16 (kdma k) k = (false, s)) :
    queueDma s k ch addr = closeBundle (setCore s k ((coreOf s k).setDma ch ((coreOf s k).dma ch ++
      [Memory.readBytes s.mem (dmemBase k + addr) 16]))) k CtAct.none := by
  simp only [queueDma, decide_eq_true hin, if_true, hread, Bool.false_eq_true, if_false]

/-- One that reads with an uncorrectable error raises ECC_D (R158). -/
theorem queueDma_damaged (hin : addr % 16 = 0 ∧ addr + 16 ≤ 2 ^ 18)
    (hread : (eccRead s (dmemBase k + addr) 16 (kdma k) k).1 = true) :
    queueDma s k ch addr = kpuFault (eccRead s (dmemBase k + addr) 16 (kdma k) k).2 k 6 addr := by
  simp only [queueDma, decide_eq_true hin, if_true, hread]

/-- One outside data memory joins as a descriptor that could not be read. -/
theorem queueDma_outside (hout : ¬ (addr % 16 = 0 ∧ addr + 16 ≤ 2 ^ 18)) :
    queueDma s k ch addr =
      closeBundle (setCore s k ((coreOf s k).setDma ch ((coreOf s k).dma ch ++ [[]]))) k CtAct.none := by
  simp only [queueDma, decide_eq_false hout]
  rfl

end

end Sys2Proof.Machine
end

section
/-! SUPPORT. What a core issues depends on its program counter, its predicates and its mode; interrupt entry (R154). -/

namespace Sys2Proof.Machine

open Sys2Proof

/-- A guard depends on the predicates and the mode. -/
theorem guardMask_congr {c d : Core} (hp : c.p = d.p) (hhm : c.hm = d.hm) : c.guardMask = d.guardMask := by
  funext h
  simp only [Core.guardMask, Core.pred, Core.bank, hp, hhm]

/-- A change of other fields of the core leaves a CT operation executing. -/
theorem CtActs.congr {s t : State} {h : KHd} (hc : CtActs s h) (hhw : t.hw = s.hw)
    (hstate : (coreOf t h.core).state = (coreOf s h.core).state) (hp : (coreOf t h.core).p = (coreOf s h.core).p)
    (hhm : (coreOf t h.core).hm = (coreOf s h.core).hm) : CtActs t h := by
  obtain ⟨hmay, hslot, hrsv, hw, hguard⟩ := hc
  refine ⟨?_, hslot, hrsv, hw, ?_⟩
  · have hpresent : coresPresent t = coresPresent s := by simp only [coresPresent, hhw]
    have hactive : (coreOf t h.core).active = (coreOf s h.core).active := by simp only [Core.active, hstate]
    rwa [mayIssue, hpresent, hactive]
  · rwa [guardMask_congr hp hhm]

/-- The bundle a core issues depends on memory, and on the core's counter, predicates and mode. -/
theorem unlisted_congr {s t : State} {k : Nat} (hmem : t.mem = s.mem) (hpc : (coreOf t k).pc = (coreOf s k).pc)
    (hp : (coreOf t k).p = (coreOf s k).p) (hhm : (coreOf t k).hm = (coreOf s k).hm) : unlisted t k = unlisted s k := by
  have hword : bundleWord t k = bundleWord s k := by
    funext slot
    simp only [bundleWord, hmem, hpc]
  simp only [unlisted, hword, guardMask_congr hp hhm]

/-- With no damaged codeword, a change of other fields of the core leaves its bundle well read. -/
theorem BundleReads.congr {s t : State} {k : Nat} (hr : BundleReads s k) (hinj : t.fab.inj = []) (hmem : t.mem = s.mem)
    (hpc : (coreOf t k).pc = (coreOf s k).pc) (hp : (coreOf t k).p = (coreOf s k).p)
    (hhm : (coreOf t k).hm = (coreOf s k).hm) : BundleReads t k :=
  ⟨eccRead_none _ _ _ _ _ hinj, (unlisted_congr hmem hpc hp hhm).trans hr.2⟩

/-- At a bundle boundary of a core that may take it, an enabled cause enters the handler. -/
theorem interruptEntry_running {s : State} {k : Nat} (hrun : (coreOf s k).state = .run)
    (hage : ∀ f ∈ (coreOf s k).flight, f.age ≠ 0) (hie : (coreOf s k).ie = true) (hhm : (coreOf s k).hm = false)
    (hcause : (coreOf s k).ipend &&& (coreOf s k).imask ≠ 0) (hbrs : (coreOf s k).brs.length ≤ 1) :
    interruptEntry s k = setCore s k { coreOf s k with
      ipc := (coreOf s k).pc, ibt := ((coreOf s k).brs.head?.map (·.target)).getD 0,
      ibd := ((coreOf s k).brs.head?.map (·.left)).getD 0, brs := [], hm := true, ie := false, pc := (coreOf s k).ivec,
      state := .handler, wait := none } := by
  have hclosed : (coreOf s k).flight.any (·.age == 0) = false := by simpa using hage
  have hstays : (coreOf s k).flight.filter (·.age > 0) = (coreOf s k).flight :=
    List.filter_eq_self.2 fun f hf => decide_eq_true (Nat.pos_of_ne_zero (hage f hf))
  simp [interruptEntry, hrun, hclosed, hie, hhm, hcause, Nat.not_lt.2 hbrs, hstays]

/-- A core that takes no interrupt stays as it is. -/
theorem interruptEntry_off {s : State} {k : Nat}
    (hoff : (coreOf s k).ie = false ∨ (coreOf s k).hm = true ∨ (coreOf s k).ipend &&& (coreOf s k).imask = 0) :
    interruptEntry s k = s := by
  rcases hoff with hoff | hoff | hoff <;> simp [interruptEntry, hoff]

end Sys2Proof.Machine
end

section
/-! PROOF. O13, O14, O16: guards, waits, interrupts and the mailbox. -/

namespace Sys2Proof.Machine

open Sys2Proof

/-- Settles O13: no lane of the guard is on, so each shared operation answers at its guard. -/
theorem guardedOffHasNoEffect : Obligations.GuardedOffHasNoEffect := by
  unfold Obligations.GuardedOffHasNoEffect
  intro s h a b d x hm
  refine ⟨fun hslot => ?slots, fun hslot hmay => ?ct⟩
  case slots =>
    refine ⟨congrArg _ (vecOp_off hm _ _ _ _ _), congrArg _ (cmpOp_off hm _ _ _ _), congrArg _ (accOp_off hm _ _ _ _ _),
      congrArg _ (loadOp_off hm _ _ _ _), congrArg _ (storeOp_off hm _ _ _ _ _), congrArg _ (loadOp_off hm _ _ _ _),
      congrArg _ (storeOp_off hm _ _ _ _ _), congrArg _ (loadOp_off hm _ _ _ _), congrArg _ (storeOp_off hm _ _ _ _ _),
      congrArg _ ((if_neg hslot).trans (if_neg ?_))⟩
    simp [nopOn, hm, lane]
  case ct =>
    have off : ∀ t : State, (if ctRuns s h = true then t else ctOp s h fun _ => .ok CtAct.none) = ctCloses s h := fun t => by
      rw [ctRuns_off hm, ctOp_off hm hslot hmay]
      rfl
    exact ⟨congrArg _ (ctOp_off hm hslot hmay _), congrArg _ (ctOp_off hm hslot hmay _), congrArg _ (off _), congrArg _ (off _)⟩

/-- Settles O14: what an operation that runs does now, and what the event of a waiting core does. -/
theorem dmaAndTaskWaits : Obligations.DmaAndTaskWaits := by
  unfold Obligations.DmaAndTaskWaits
  refine ⟨?issue, ?events⟩
  case issue =>
    intro s h a ch hc k c addr arc inside read queued stalls
    have runs : ∀ {t u : State}, t = u →
        (Host.Outcome.next (if ctRuns s h = true then t else ctOp s h fun _ => .ok CtAct.none) : Host.Outcome State Fault Refusal) =
          .next u := fun ht => congrArg _ ((if_pos (ctRuns_acts s h hc)).trans ht)
    refine ⟨fun hroom hin hread => runs ?_, fun hroom hin hread => runs ?_, fun hroom hout => runs ?_, fun hroom => runs ?_,
      fun hnone => runs ?_, fun hsome => runs ?_, fun hidle => ⟨runs (if_pos hidle), runs (if_pos hidle)⟩,
      fun hbusy => ⟨runs (if_neg ?_), runs (if_neg ?_)⟩⟩
    · exact (if_pos hroom).trans (queueDma_read ch hin hread)
    · exact (if_pos hroom).trans (queueDma_damaged ch hin hread)
    · exact (if_pos hroom).trans (queueDma_outside ch hout)
    · exact if_neg (by simp [hroom, k])
    · exact if_pos (by simp [hnone, c, k])
    · exact if_neg (by simpa [c, k] using hsome)
    · simp [hbusy, c, k]
    · simp [hbusy, c, k]
  case events =>
    intro s k cycles ch addr arc
    dsimp only
    refine ⟨fun hwait hroom => ?_, fun hwait hnone => ?_, fun hwait hidle => ?_, fun hwait hidle => ?_, fun hwait => ?_⟩
    · show execDmaqQueueSpace k cycles s = _
      simp only [execDmaqQueueSpace, hwait, hroom, if_true]
      rfl
    · show execDmawReturn k cycles s = _
      simp only [execDmawReturn, hwait, hnone, List.isEmpty_nil, if_true]
      rfl
    · show execTdoneDrainEnd k cycles s = _
      simp only [execTdoneDrainEnd, hwait, hidle, if_true]
      rfl
    · show execTsigDrainEnd k cycles s = _
      simp only [execTsigDrainEnd, hwait, hidle, if_true]
      rfl
    · refine ⟨?_, ?_, ?_, ?_⟩
      · show execDmaqQueueSpace k cycles s = _
        simp only [execDmaqQueueSpace, hwait]
      · show execDmawReturn k cycles s = _
        simp only [execDmawReturn, hwait]
      · show execTdoneDrainEnd k cycles s = _
        simp only [execTdoneDrainEnd, hwait]
      · show execTsigDrainEnd k cycles s = _
        simp only [execTsigDrainEnd, hwait]

/-- Settles O16: entry and return field by field; SWI, BKPT and the mailbox by what each adds to a quiet bundle. -/
theorem interruptsAndMailbox : Obligations.InterruptsAndMailbox := by
  unfold Obligations.InterruptsAndMailbox
  refine ⟨?interrupts, ?operations⟩
  case interrupts =>
    intro s k c
    exact ⟨fun hrun hage hie hhm hcause hbrs => congrArg _ (interruptEntry_running hrun hage hie hhm hcause hbrs),
      fun hoff => congrArg _ (interruptEntry_off hoff), fun next hbrs => by simp [takeBranch, hbrs]⟩
  case operations =>
    intro s h v c
    refine ⟨fun hc hq hinj => ⟨?_, ?_⟩, fun hk => congrArg _ (if_pos hk), fun hk => congrArg _ (if_neg (Nat.not_lt.2 hk))⟩
    · have hcore := coreOf_setCore_same s h.core { c with ipend := c.ipend ||| 8 } hc.core_lt
      have hquiet : Quiet (setCore s h.core { c with ipend := c.ipend ||| 8 }) h.core := by
        obtain ⟨hflight, hbrs, harmed, hreads⟩ := hq
        refine ⟨?_, ?_, ?_, hreads.congr hinj rfl ?_ ?_ ?_⟩ <;> rw [hcore] <;> assumption
      have hacts : CtActs (setCore s h.core { c with ipend := c.ipend ||| 8 }) h := by
        refine hc.congr rfl ?_ ?_ ?_ <;> rw [hcore]
      refine congrArg _ ((if_pos (ctRuns_acts s h hc)).trans ?_)
      refine (ctOp_ok hacts rfl).trans ((closeBundle_none _ _ hc.core_lt hquiet).trans ?_)
      rw [hcore, setCore_setCore]
      rfl
    · have hactive : (nextBundle c).active = true := by
        obtain ⟨hmay, _⟩ := hc
        exact (Bool.and_eq_true_iff.1 hmay).2
      refine congrArg _ ((if_pos (ctRuns_acts s h hc)).trans ?_)
      simp only [closeBundle_none s h.core hc.core_lt hq, coreOf_setCore_same _ _ _ hc.core_lt, setCore_setCore]
      exact if_pos hactive

end Sys2Proof.Machine
end

section
/-! SUPPORT. Exceptions: reporting a damaged codeword or the end of a faulted task leaves the cores alone, and an exception stops its core. -/

namespace Sys2Proof.Machine

open Sys2Proof

@[simp] theorem capture_kpu (s : State) (mem kind m src a : Nat) : (capture s mem kind m src a).kpu = s.kpu := by
  unfold capture
  dsimp only
  split <;> rfl

@[simp] theorem eccReport_kpu (s : State) (k : Nat) (ue : Bool) (m src a : Nat) : (eccReport s k ue m src a).kpu = s.kpu := by
  unfold eccReport
  dsimp only
  split_ifs <;> simp

@[simp] theorem eccRead_kpu (s : State) (a n m src : Nat) : (eccRead s a n m src).2.kpu = s.kpu := by
  unfold eccRead
  refine foldl_keeps (fun r : Bool × State => r.2.kpu) _ (fun r c => ?_) _ _
  dsimp only
  split
  · exact eccReport_kpu _ _ _ _ _ _
  · rfl

theorem coreOf_eccRead (s : State) (a n m src k : Nat) : coreOf (eccRead s a n m src).2 k = coreOf s k :=
  coreOf_congr _ _ k (eccRead_kpu s a n m src)

@[simp] theorem missFrame_kpu (s : State) (f : Int) (cancelled late task : Nat) :
    (missFrame s f cancelled late task).kpu = s.kpu := by
  unfold missFrame
  split <;> simp

@[simp] theorem setInst_kpu (s : State) (i : Inst) : (setInst s i).kpu = s.kpu := by
  unfold setInst
  dsimp only
  split <;> rfl

@[simp] theorem instFault_kpu (s : State) (k : Nat) : (instFault s k).kpu = s.kpu := by
  unfold instFault
  split <;> simp

/-- What is left of the block once the operations in flight of a faulting core have completed. -/
def faultDrained (s : State) (k : Nat) : State :=
  drainFlights 8 (setCore s k { coreOf s k with flight := (coreOf s k).flight.filter (·.age > 0) }) k

/-- The core an exception leaves (R158). -/
theorem coreOf_kpuFault (s : State) {k : Nat} (hk : k < 32) (cause addr : Nat) :
    coreOf (kpuFault s k cause addr) k =
      { coreOf (faultDrained s k) k with state := .fault, cause := cause, faultPc := (coreOf (faultDrained s k) k).pc,
                                         faultAddr := addr, wait := none, brs := [] } := by
  have hkpu : (kpuFault s k cause addr).kpu = (setCore (faultDrained s k) k
      { coreOf (faultDrained s k) k with state := .fault, cause := cause, faultPc := (coreOf (faultDrained s k) k).pc,
                                         faultAddr := addr, wait := none, brs := [] }).kpu := by
    simp only [kpuFault, instFault_kpu, logEv_kpu, raise_kpu]
    rfl
  rw [coreOf_congr _ _ k hkpu, coreOf_setCore_same _ _ _ hk]

theorem faultDrained_pc (s : State) {k : Nat} (hk : k < 32) : (coreOf (faultDrained s k) k).pc = (coreOf s k).pc := by
  rw [faultDrained, drainFlights_pc 8 _ k hk, coreOf_setCore_same _ _ _ hk]

/-- An exception stops its core in FAULT with its cause, the bundle that raised it and its address (R158). -/
theorem kpuFault_stops (s : State) {k : Nat} (hk : k < 32) (cause addr : Nat) :
    StoppedWith (kpuFault s k cause addr) k cause (coreOf s k).pc addr := by
  simp only [StoppedWith, coreOf_kpuFault s hk, faultDrained_pc s hk, and_self]

section
variable {s : State} {h : KHd} (hmay : mayIssue s h.core = true) (hslot : vecSlot h = true)
  (hm : (coreOf s h.core).guardMask h ≠ 0)
include hmay hslot hm

/-- A vector operation with a reserved bit set, or an operand out of range, is ILLEGAL. -/
theorem vecOp_illegal {ok : Bool} (hbad : ok = false ∨ h.rsv ≠ 0) (srcs : List Nat) (d lat : Nat)
    (f : List (List Int) → Nat → Int × Bool) : vecOp s h ok srcs d lat f = kpuFault s h.core 1 0 := by
  rcases hbad with hbad | hbad <;> simp [vecOp, hmay, hslot, hm, hbad]

theorem cmpOp_illegal (hbad : h.rsv ≠ 0) (a b pd : Nat) (f : Int → Int → Bool) : cmpOp s h a b pd f = kpuFault s h.core 1 0 := by
  simp [cmpOp, hmay, hslot, hm, hbad]

theorem accOp_illegal {ok : Bool} (hbad : ok = false ∨ h.rsv ≠ 0) (add : Bool) (srcs : List Nat) (acc : Nat)
    (f : List (List Int) → Nat → Int) : accOp s h ok add srcs acc f = kpuFault s h.core 1 0 := by
  rcases hbad with hbad | hbad <;> simp [accOp, hmay, hslot, hm, hbad]

/-- A vector operation whose destination a handler must not name raises HREG (R155). -/
theorem vecOp_hreg (hrsv : h.rsv = 0) {d : Nat} (hd : (coreOf s h.core).vPhys d = none) (srcs : List Nat) (lat : Nat)
    (f : List (List Int) → Nat → Int × Bool) : vecOp s h true srcs d lat f = kpuFault s h.core 4 0 := by
  simp [vecOp, hmay, hslot, hm, hrsv, hd]

end

theorem vPhys_handler {c : Core} (hhm : c.hm = true) {n : Nat} (hn : 16 ≤ n % 64) : c.vPhys n = none := by
  simp [Core.vPhys, hhm, hn]

/-- A CT operation with a reserved bit set is ILLEGAL. -/
theorem ctOp_illegal {s : State} {h : KHd} (hmay : mayIssue s h.core = true) (hslot : h.slot = 0)
    (hguard : lane ((coreOf s h.core).guardMask h) 0 = true) (hbad : h.rsv ≠ 0 ∨ h.w = true) (run : Core → Except Nat CtAct) :
    ctOp s h run = kpuFault s h.core 1 0 := by
  rcases hbad with hbad | hbad <;> simp [ctOp, hmay, hslot, hguard, hbad]

/-- A load at an address that may not be accessed raises ALIGN or RANGE with the address (R146). -/
theorem loadOp_addr {s : State} {h : KHd} (hmay : mayIssue s h.core = true) (hslot : h.slot = 1) (hrsv : h.rsv = 0)
    (hw : h.w = false) (hguard : lane ((coreOf s h.core).guardMask h) 0 = true) {a : KAddr} {u cause : Nat}
    (hcause : addrCause (lsAddress (coreOf s h.core) a u).1 u = some cause) (mk : Core → List Nat → Option Flight) :
    loadOp s h a u (laneZero s h) true mk = kpuFault s h.core cause (lsAddress (coreOf s h.core) a u).1 := by
  simp [loadOp, hmay, hslot, hrsv, hw, laneZero, hguard, hcause]

/-- A bundle whose words read with an uncorrectable error raises ECC_I (R158). -/
theorem closeBundle_damaged {s : State} {k : Nat}
    (hread : (eccRead s (imemBase k + 16 * (coreOf s k).pc) 16 (kdma k) k).1 = true) (act : CtAct) :
    closeBundle s k act =
      kpuFault (eccRead s (imemBase k + 16 * (coreOf s k).pc) 16 (kdma k) k).2 k 7 (16 * (coreOf s k).pc) := by
  simp only [closeBundle, hread, if_true]

/-- A bundle that holds an unlisted opcode raises ILLEGAL (R152). -/
theorem closeBundle_unlisted {s : State} {k : Nat} (hinj : s.fab.inj = []) (hun : unlisted s k = true) (act : CtAct) :
    closeBundle s k act = kpuFault s k 1 0 := by
  simp [closeBundle, eccRead_none _ _ _ _ _ hinj, hun]

end Sys2Proof.Machine
end

section
/-! PROOF. O10: the exceptions of a core. -/

namespace Sys2Proof.Machine

open Sys2Proof

/-- Settles O10: each operation raises its exception, and an exception stops the core. -/
theorem exceptionsStopTheCore : Obligations.ExceptionsStopTheCore := by
  unfold Obligations.ExceptionsStopTheCore
  intro s h a b d hmay c stops
  have hk := mayIssue_lt hmay
  have faults : ∀ {i : Instr} {t : State} {cause addr : Nat}, t = kpuFault s h.core cause addr → exec i s = .next t →
      stops i cause addr := by
    rintro i _ cause addr rfl hi
    exact ⟨_, hi, kpuFault_stops s hk cause addr⟩
  refine ⟨fun hslot hm => ⟨fun hrsv => ?_, fun himm => ?_, fun hshift => ?_, fun hrsv hhm hd => ?_⟩, fun hslot hguard =>
    ⟨fun hbad => ?_, fun hc => ?_⟩, fun hslot hrsv hw hguard hb => ?_, fun hc hread => ?_, fun hc hinj hun => ?_⟩
  · exact ⟨faults (vecOp_illegal hmay hslot hm (.inr hrsv) _ _ _ _) rfl, faults (cmpOp_illegal hmay hslot hm hrsv _ _ _ _) rfl,
      faults (accOp_illegal hmay hslot hm (.inr hrsv) _ _ _ _) rfl⟩
  · exact faults (vecOp_illegal hmay hslot hm (.inl (by simp; omega)) _ _ _ _) rfl
  · exact ⟨faults (accOp_illegal hmay hslot hm (.inl (decide_eq_false (Nat.not_le.2 hshift))) _ _ _ _) rfl,
      faults (accOp_illegal hmay hslot hm (.inl (decide_eq_false (Nat.not_le.2 hshift))) _ _ _ _) rfl⟩
  · exact ⟨faults (vecOp_hreg hmay hslot hm hrsv (vPhys_handler hhm hd) _ _ _) rfl,
      faults (vecOp_hreg hmay hslot hm hrsv (vPhys_handler hhm hd) _ _ _) rfl⟩
  · exact ⟨faults (ctOp_illegal hmay hslot hguard hbad _) rfl, faults (ctOp_illegal hmay hslot hguard hbad _) rfl⟩
  · refine ⟨faults (ctOp_error hc rfl) rfl, faults (ctOp_error hc rfl) rfl, fun hhm => ⟨?_, ?_⟩, fun hhm hb => ?_,
      fun hhm hb hpc harmed => ?_⟩
    · exact faults (ctOp_error hc (if_pos hhm)) rfl
    · exact faults (ctOp_error hc (if_pos (by simp; exact hhm))) rfl
    · exact faults (ctOp_error hc ((if_neg (by simpa using hhm)).trans (if_pos (.inr (.inl hb))))) rfl
    · have hlisted : ¬ (0 ≥ 7 ∨ b < c.pc + 3 ∨ c.pc ≥ 4093) := by omega
      exact faults (ctOp_error hc ((if_neg (by simpa using hhm)).trans ((if_neg hlisted).trans (if_pos harmed)))) rfl
  · have hea : (lsAddress c { ofs := 0, md := 0, x := b } 16).1 = c.xr b := by
      simp [lsAddress, unsigned]; omega
    have load : ∀ {cause : Nat}, addrCause (c.xr b) 16 = some cause → stops (.ldv h { ofs := 0, md := 0, x := b } d) cause (c.xr b) :=
      fun hcause => faults ((loadOp_addr hmay hslot hrsv hw hguard (hea.symm ▸ hcause) _).trans (by rw [hea])) rfl
    exact ⟨fun hodd => load (if_pos hodd), fun heven hout => load ((if_neg (not_not.2 heven)).trans (if_pos hout))⟩
  · have hstop := kpuFault_stops (eccRead s (imemBase h.core + 16 * c.pc) 16 (kdma h.core) h.core).2 hk 7 (16 * c.pc)
    rw [coreOf_eccRead] at hstop
    exact ⟨_, (exec_nop_ct hc).trans (congrArg _ (closeBundle_damaged hread CtAct.none)), hstop⟩
  · exact faults (closeBundle_unlisted hinj hun CtAct.none) (exec_nop_ct hc)

end Sys2Proof.Machine
end

section
/-! SUPPORT. Loads and stores: the words of data memory, and what an access that executes puts into flight. -/

namespace Sys2Proof.Machine

open Sys2Proof

/-- A word of data memory is the number its four bytes spell. -/
theorem leVal_readBytes_four (s : State) (k ea : Nat) :
    leVal (Memory.readBytes s.mem (dmemBase k + ea) 4) = dmemWord s k ea := by
  simp only [Memory.readBytes, leVal, dmemWord, List.range, List.range.loop, List.map_cons, List.map_nil, List.foldr_cons,
    List.foldr_nil, Nat.add_zero]
  omega

theorem sliceB_readBytes (m : Memory) (a : Nat) {n o w : Nat} (h : o + w ≤ n) :
    sliceB (Memory.readBytes m a n) o w = Memory.readBytes m (a + o) w := by
  refine List.ext_getElem (by simp [sliceB, Memory.readBytes]; omega) fun i hi _ => ?_
  simp [sliceB, Memory.readBytes, Nat.add_assoc]

/-- The word at an offset of the bytes a load reads. -/
theorem leAt_readBytes (s : State) (k ea : Nat) {n o : Nat} (h : o + 4 ≤ n) :
    leAt (Memory.readBytes s.mem (dmemBase k + ea) n) o 4 = dmemWord s k (ea + o) := by
  rw [leAt, sliceB_readBytes _ _ h, Nat.add_assoc, leVal_readBytes_four]

section
variable {s : State} {h : KHd} (hl : LsIssues s h) (hguard : lane ((coreOf s h.core).guardMask h) 0 = true) {a : KAddr} {u : Nat}
  (hal : (lsAddress (coreOf s h.core) a u).1 % u = 0) (hin : (lsAddress (coreOf s h.core) a u).1 < 2 ^ 18)
include hl hguard hal hin

/-- A load that executes sends its words to their register, and updates its address register (R145, R146). -/
theorem loadOp_acts (hread : eccRead s (dmemBase h.core + (lsAddress (coreOf s h.core) a u).1) u (kdma h.core) h.core = (false, s))
    {ok : Bool} (hok : ok = true) {mk : Core → List Nat → Option Flight} {f : Flight}
    (hf : mk (coreOf s h.core) ((List.range (u / 4)).map fun i => dmemWord s h.core ((lsAddress (coreOf s h.core) a u).1 + 4 * i)) =
      some f) :
    loadOp s h a u (laneZero s h) ok mk =
      addrUpdate (issueFlight s h.core f) h a (lsAddress (coreOf s h.core) a u).2 := by
  obtain ⟨hmay, hslot, hrsv, hw⟩ := hl
  have hcause : addrCause (lsAddress (coreOf s h.core) a u).1 u = none := (if_neg (not_not.2 hal)).trans (if_neg (Nat.not_le.2 hin))
  have hwords : ((List.range (u / 4)).map fun i =>
        leAt (Memory.readBytes s.mem (dmemBase h.core + (lsAddress (coreOf s h.core) a u).1) u) (4 * i) 4) =
      (List.range (u / 4)).map fun i => dmemWord s h.core ((lsAddress (coreOf s h.core) a u).1 + 4 * i) :=
    List.map_congr_left fun i hi => leAt_readBytes _ _ _ (by have := List.mem_range.1 hi; omega)
  simp only [loadOp, hmay, hslot, hrsv, hw, laneZero, hguard, hcause, hread, hok, hwords, hf]
  rfl

/-- A store that executes sends its words to memory, and updates its address register. -/
theorem storeOp_acts {words : Core → Option (List Int)} {ws : List Int} (hws : words (coreOf s h.core) = some ws) (mask : Nat) :
    storeOp s h a u mask (laneZero s h) true words =
      addrUpdate (issueFlight s h.core (storeFlight h.core (lsAddress (coreOf s h.core) a u).1 mask ws)) h a
        (lsAddress (coreOf s h.core) a u).2 := by
  obtain ⟨hmay, hslot, hrsv, hw⟩ := hl
  have hcause : addrCause (lsAddress (coreOf s h.core) a u).1 u = none := (if_neg (not_not.2 hal)).trans (if_neg (Nat.not_le.2 hin))
  simp only [storeOp, hmay, hslot, hrsv, hw, laneZero, hguard, hcause, hws]
  rfl

end

theorem vPhys_map_vLanes {c : Core} {v r : Nat} (hr : c.vPhys v = some r) :
    (c.vPhys v).map c.vLanes = some [laneOf c r 0, laneOf c r 1, laneOf c r 2, laneOf c r 3] := by
  rw [hr]
  rfl

end Sys2Proof.Machine
end

section
/-! PROOF. O11: loads and stores. -/

namespace Sys2Proof.Machine

open Sys2Proof

theorem lsAddress_modulo (c : Core) (x u : Nat) (ofs : Int) :
    lsAddress c { ofs := ofs, md := 2, x := x } u =
      let base : Int := Sparse.getN c.base (c.xKey x)
      let l := Sparse.getN c.len (c.xKey x)
      (c.xr x, some ((base + ((c.xr x : Nat) - base + ofs * u) % (if l = 0 then 2 ^ 18 else (l : Int))) % 2 ^ 32).toNat) := by
  by_cases hl : Sparse.getN c.len (c.xKey x) = 0 <;> simp [lsAddress, unsigned, hl]

/-- Settles O11: the address of each form, and each access as it executes. -/
theorem loadsAndStores : Obligations.LoadsAndStores := by
  unfold Obligations.LoadsAndStores
  refine ⟨?addresses, ?accesses⟩
  case addresses =>
    intro c x u ofs _ xn base l len
    exact ⟨rfl, rfl, lsAddress_modulo c x u ofs, rfl⟩
  case accesses =>
    intro s h a v hl hguard c k m e16 e4 upd W
    refine ⟨fun r hr => ⟨fun hal hin => ⟨fun hread => ?_, ?_⟩, fun hal hin => ⟨fun hread => ?_, ?_⟩⟩, fun hal hin =>
      ⟨fun hv hread => ?_, ?_⟩⟩
    · refine congrArg _ (loadOp_acts hl hguard hal hin hread rfl ?_)
      simp only [loadedV, hr, c]
      rfl
    · exact congrArg _ (storeOp_acts hl hguard hal hin (vPhys_map_vLanes hr) m)
    · refine congrArg _ (loadOp_acts hl hguard hal hin hread rfl ?_)
      simp only [loadedV, hr, c]
      rfl
    · exact congrArg _ (storeOp_acts hl hguard hal hin (vPhys_map_vLanes hr) 1)
    · exact congrArg _ (loadOp_acts hl hguard hal hin hread (decide_eq_true hv) rfl)
    · exact congrArg _ (storeOp_acts hl hguard hal hin rfl 1)

end Sys2Proof.Machine
end

section
/-! SUPPORT. A bundle that completes: the core it leaves, and the results that are due as it ends (R139, R142 to R144). -/

namespace Sys2Proof.Machine

open Sys2Proof

/-- The results in flight as a bundle ends, one bundle older. -/
def agedFlights (c : Core) (act : CtAct) : List Flight :=
  (c.flight ++ act.flights).map fun f => { f with left := f.left - 1, age := f.age + 1 }

/-- The loop a bundle leaves: the edge of the running one, or the one its ZLOOP arms (R143). -/
def loopLeft (c : Core) (act : CtAct) : Core :=
  match act.loop with
  | some (lc, target, stg) =>
    let d := { (loopEdge c).1 with lc := lc, lc0 := lc, lstart := c.pc + 3, lend := target, stg := stg, j := 0 }
    if lc = 0 then { d with brs := d.brs ++ [{ left := 3, target := (target + 1) % 4096, rfi := false }] }
    else { d with armed := true, predsDue := true }
  | none => (loopEdge c).1

/-- The stage predicates of pass 0, set as the first bundle of the body comes next (R144). -/
def passZeroPreds (c : Core) : Core :=
  if c.predsDue && c.armed && c.pc == c.lstart && !c.hm then stagePreds { c with predsDue := false } else c

/-- The core as its bundle is issued, before loops and branches decide the next one. -/
def issuedCore (c : Core) (act : CtAct) : Core :=
  { c with flight := (agedFlights c act).filter (·.left > 0), last := c.pc, busy := c.busy + 1, brs := c.brs ++ act.branch.toList }

/-- The core a completing bundle leaves, before its results land. -/
def closedCore (c : Core) (act : CtAct) : Core :=
  passZeroPreds (takeBranch (loopLeft (issuedCore c act) act) (loopEdge (issuedCore c act)).2)

/-- A bundle that reads well leaves its core, and then the results that are due land. -/
theorem closeBundle_reads {s : State} {k : Nat} (hr : BundleReads s k) (act : CtAct) :
    closeBundle s k act = landAll (setCore s k (closedCore (coreOf s k) act)) k ((agedFlights (coreOf s k) act).filter (·.left == 0)) := by
  obtain ⟨hread, hlisted⟩ := hr
  simp only [closeBundle, hread, hlisted]
  rfl

/-- Nothing due, nothing lands. -/
theorem landAll_nil (s : State) {k : Nat} (hk : k < 32) (c : Core) : landAll (setCore s k c) k [] = setCore s k c := by
  simp [landAll, losers, hk]

/-- A bundle that writes nothing, on a core with nothing in flight. -/
theorem closeBundle_idle {s : State} {k : Nat} (hk : k < 32) (hr : BundleReads s k) (hf : (coreOf s k).flight = []) {act : CtAct}
    (ha : act.flights = []) : closeBundle s k act = setCore s k (closedCore (coreOf s k) act) := by
  rw [closeBundle_reads hr, show agedFlights (coreOf s k) act = [] by simp [agedFlights, hf, ha]]
  exact landAll_nil s hk _

theorem coreOf_closeBundle_idle {s : State} {k : Nat} (hk : k < 32) (hr : BundleReads s k) (hf : (coreOf s k).flight = []) {act : CtAct}
    (ha : act.flights = []) : coreOf (closeBundle s k act) k = closedCore (coreOf s k) act := by
  rw [closeBundle_idle hk hr hf ha, coreOf_setCore_same _ _ _ hk]

/-- No loop is armed and none is being armed: branches alone decide the next bundle. -/
theorem closedCore_unarmed {c : Core} (hf : c.flight = []) (harmed : c.armed = false) (b : Option PendBr) :
    closedCore c { flights := [], branch := b, loop := none } =
      takeBranch { nextBundle c with brs := c.brs ++ b.toList, pc := c.pc } ((c.pc + 1) % 4096) := by
  have htake : ∀ (d : Core) (n : Nat), d.armed = false → passZeroPreds (takeBranch d n) = takeBranch d n := by
    intro d n hd
    refine if_neg ?_
    have : (takeBranch d n).armed = false := by
      unfold takeBranch
      dsimp only
      split
      · split <;> exact hd
      · exact hd
    simp [this]
  simp [closedCore, loopLeft, issuedCore, agedFlights, loopEdge, harmed, hf, htake, nextBundle]

/-- A branch that does not decide yet comes one bundle closer. -/
theorem takeBranch_one_waits {c : Core} {b : PendBr} (hb : c.brs = [b]) (hl : 1 < b.left) (next : Nat) :
    takeBranch c next = { c with pc := next, brs := [{ b with left := b.left - 1 }] } := by
  have h1 : b.left - 1 ≠ 0 := by omega
  have h2 : 0 < b.left - 1 := by omega
  simp [takeBranch, hb, h1, h2]

/-- A branch decides the next bundle. -/
theorem takeBranch_one_decides {c : Core} {b : PendBr} (hb : c.brs = [b]) (hl : b.left = 1) (hrfi : b.rfi = false) (next : Nat) :
    takeBranch c next = { c with pc := b.target, brs := [] } := by
  simp [takeBranch, hb, hl, hrfi]

/-- With no branch pending the next bundle is the one that comes next. -/
theorem takeBranch_none {c : Core} (hb : c.brs = []) (next : Nat) : takeBranch c next = { c with pc := next, brs := [] } := by
  simp [takeBranch, hb]

section
variable {c : Core} (hf : c.flight = []) (harmed : c.armed = false) {b : PendBr}
include hf harmed

/-- The bundle of a branch: the next one follows. -/
theorem closedCore_branches (hb : c.brs = []) (hl : 1 < b.left) : closedCore c { flights := [], branch := some b, loop := none } =
    { nextBundle c with brs := [{ b with left := b.left - 1 }] } :=
  (closedCore_unarmed hf harmed (some b)).trans (takeBranch_one_waits (by simp [hb]) hl _)

/-- A delay bundle of a branch: the next one follows. -/
theorem closedCore_waits (hb : c.brs = [b]) (hl : 1 < b.left) :
    closedCore c CtAct.none = { nextBundle c with brs := [{ b with left := b.left - 1 }] } :=
  (closedCore_unarmed hf harmed none).trans (takeBranch_one_waits (by simp [hb]) hl _)

/-- The last delay bundle of a branch: the target follows. -/
theorem closedCore_decides (hb : c.brs = [b]) (hl : b.left = 1) (hrfi : b.rfi = false) :
    closedCore c CtAct.none = { nextBundle c with pc := b.target, brs := [] } :=
  (closedCore_unarmed hf harmed none).trans (takeBranch_one_decides (by simp [hb]) hl hrfi _)

end

/-- A ZLOOP arms its loop, or with LC = 0 branches past the body (R143). -/
theorem closedCore_arms {c : Core} (hf : c.flight = []) (hb : c.brs = []) (harmed : c.armed = false) (hpc : c.pc < 4093)
    (lc target stg : Nat) : closedCore c { flights := [], branch := none, loop := some (lc, target, stg) } =
      { nextBundle c with
        pc := c.pc + 1, lc := lc, lc0 := lc, lstart := c.pc + 3, lend := target, stg := stg, j := 0, armed := decide (lc ≠ 0),
        predsDue := c.predsDue || decide (lc ≠ 0),
        brs := if lc = 0 then [{ left := 2, target := (target + 1) % 4096, rfi := false }] else [] } := by
  have hnext : (c.pc + 1) % 4096 = c.pc + 1 := Nat.mod_eq_of_lt (by omega)
  by_cases hlc : lc = 0 <;>
    simp [closedCore, loopLeft, issuedCore, agedFlights, loopEdge, takeBranch, passZeroPreds, nextBundle, harmed, hf, hb, hlc, hnext]

theorem stagePreds_unstaged {c : Core} (hstg : c.stg = 0) : stagePreds c = c := if_pos hstg

/-- The bundle at LEND of a loop without stages (R143): the pass counts, the rotation advances, and the body comes again while LC > 1. -/
theorem closedCore_edge {c : Core} (hf : c.flight = []) (hb : c.brs = []) (harmed : c.armed = true) (hend : c.pc = c.lend)
    (hstg : c.stg = 0) (hdue : c.predsDue = false) :
    closedCore c CtAct.none = { nextBundle c with
      j := c.j + 1, rpos := if 64 - c.rbase = 0 then c.rpos else (c.rpos + c.stride) % (64 - c.rbase),
      lc := if 1 < c.lc then c.lc - 1 else 0, pc := if 1 < c.lc then c.lstart else (c.lend + 1) % 4096,
      armed := decide (1 < c.lc), brs := [] } := by
  by_cases hlc : 1 < c.lc <;>
    simp [closedCore, loopLeft, issuedCore, agedFlights, loopEdge, takeBranch_none, passZeroPreds, stagePreds_unstaged, CtAct.none,
      nextBundle, hf, hb, harmed, hend, hstg, hdue, hlc]

end Sys2Proof.Machine
end

section
/-! PROOF. O9: branches and loops. -/

namespace Sys2Proof.Machine

open Sys2Proof

/-- Settles O9: the core of each bundle, one after the other. -/
theorem branchesAndLoops : Obligations.BranchesAndLoops := by
  unfold Obligations.BranchesAndLoops
  refine ⟨?branch, ?arms, ?edge⟩
  case branch =>
    intro s s1 s2 s3 h h1 h2 target hc hq htarget hm e1 e2 hc1 hc2 hr1 hr2 x1 x2 x3 pc
    obtain ⟨hf, hb, harmed, hr⟩ := hq
    have hk := hc.core_lt
    have c1 : coreOf s1 h.core = { nextBundle (coreOf s h.core) with brs := [{ left := 2, target := target, rfi := false }] } := by
      rw [← Host.Outcome.next.inj ((exec_br hc htarget).symm.trans x1), coreOf_closeBundle_idle hk hr hf rfl]
      exact closedCore_branches hf harmed hb (show 1 < 3 by decide)
    have hf1 : (coreOf s1 h.core).flight = [] := by rw [c1]; exact hf
    have harmed1 : (coreOf s1 h.core).armed = false := by rw [c1]; exact harmed
    have c2 : coreOf s2 h.core = { nextBundle (coreOf s1 h.core) with brs := [{ left := 1, target := target, rfi := false }] } := by
      rw [← Host.Outcome.next.inj ((exec_nop_ct hc1).symm.trans x2), ctCloses, e1,
        coreOf_closeBundle_idle hk hr1 hf1 rfl]
      exact closedCore_waits hf1 harmed1 (congrArg Core.brs c1) (show 1 < 2 by decide)
    have hf2 : (coreOf s2 h.core).flight = [] := by rw [c2]; exact hf1
    have harmed2 : (coreOf s2 h.core).armed = false := by rw [c2]; exact harmed1
    have c3 : coreOf s3 h.core = { nextBundle (coreOf s2 h.core) with pc := target, brs := [] } := by
      rw [← Host.Outcome.next.inj ((exec_nop_ct hc2).symm.trans x3), ctCloses, e2,
        coreOf_closeBundle_idle hk hr2 hf2 rfl, closedCore_decides hf2 harmed2 (congrArg Core.brs c2) rfl rfl]
    refine ⟨congrArg Core.pc c1, (congrArg Core.pc c2).trans ?_, congrArg Core.pc c3, congrArg Core.brs c3⟩
    rw [c1]
    simp [nextBundle, pc]
  case arms =>
    intro s h a stg target hc hq c hm hstg htarget hlt hpc
    obtain ⟨hf, hb, harmed, hr⟩ := hq
    refine ⟨_, exec_zloop hc hm hstg htarget hpc harmed a, ?_⟩
    rw [coreOf_closeBundle_idle hc.core_lt hr hf rfl, closedCore_arms hf hb harmed hpc]
    by_cases hlc : c.xr a = 0 <;> simp [hlc, c]
  case edge =>
    intro s h hc hf hb hr c harmed hend hstg hdue
    refine ⟨_, exec_nop_ct hc, ?_⟩
    rw [ctCloses, coreOf_closeBundle_idle hc.core_lt hr hf rfl, closedCore_edge hf hb harmed hend hstg hdue]
    refine ⟨rfl, fun hz => if_neg (Nat.sub_ne_zero_of_lt hz), fun hlc => ?_, fun hlc => ?_⟩
    · simp [hlc, c]
    · simp [Nat.not_lt.2 hlc, c]

end Sys2Proof.Machine
end

section
/-! SUPPORT. A store that lands: the bytes of its guarded lanes, and every other byte of memory (R134, R146). -/

namespace Sys2Proof.Machine

open Sys2Proof

/-- One lane of a store that lands. -/
def storeLane (f : Flight) (s : State) (k : Nat) : State :=
  if lane f.mask k then memWrite s (f.reg + 4 * k) (leBytes 4 (unsigned 32 (f.vals.getD k 0))) else s

theorem storeBytes_eq (s : State) (f : Flight) : storeBytes s f = (List.range 4).foldl (storeLane f) s := rfl

theorem read_storeLane (f : Flight) (s : State) (k p : Nat) :
    Memory.read (storeLane f s k).mem p =
      if lane f.mask k = true ∧ f.reg + 4 * k ≤ p ∧ p < f.reg + 4 * k + 4 then
        (leBytes 4 (unsigned 32 (f.vals.getD k 0))).getD (p - (f.reg + 4 * k)) 0
      else Memory.read s.mem p := by
  unfold storeLane
  by_cases hlane : lane f.mask k
  · simp only [hlane, if_true, read_memWrite, true_and]
    rfl
  · simp [hlane]

/-- A byte outside the guarded lanes stays. -/
theorem read_storeBytes_outside (s : State) (f : Flight) {p : Nat}
    (hp : ∀ k, k < 4 → lane f.mask k = true → p < f.reg + 4 * k ∨ f.reg + 4 * k + 4 ≤ p) :
    Memory.read (storeBytes s f).mem p = Memory.read s.mem p := by
  have step : ∀ k, k < 4 → ∀ t : State, Memory.read (storeLane f t k).mem p = Memory.read t.mem p := fun k hk t => by
    rw [read_storeLane, if_neg]
    rintro ⟨hlane, hlo, hhi⟩
    have := hp k hk hlane
    omega
  simp only [storeBytes_eq, List.range, List.range.loop, List.foldl_cons, List.foldl_nil]
  rw [step 3 (by decide), step 2 (by decide), step 1 (by decide), step 0 (by decide)]

/-- A byte of a guarded lane is the byte stored. -/
theorem read_storeBytes_lane (s : State) (f : Flight) {k i : Nat} (hk : k < 4) (hi : i < 4) (hlane : lane f.mask k = true) :
    Memory.read (storeBytes s f).mem (f.reg + 4 * k + i) = (leBytes 4 (unsigned 32 (f.vals.getD k 0))).getD i 0 := by
  have own : ∀ t : State, Memory.read (storeLane f t k).mem (f.reg + 4 * k + i) =
      (leBytes 4 (unsigned 32 (f.vals.getD k 0))).getD i 0 := fun t => by
    rw [read_storeLane, if_pos ⟨hlane, by omega, by omega⟩, Nat.add_sub_cancel_left]
  have other : ∀ j, j ≠ k → ∀ t : State, Memory.read (storeLane f t j).mem (f.reg + 4 * k + i) =
      Memory.read t.mem (f.reg + 4 * k + i) := fun j hj t => by
    rw [read_storeLane, if_neg (by omega)]
  simp only [storeBytes_eq, List.range, List.range.loop, List.foldl_cons, List.foldl_nil]
  interval_cases k
  · rw [other 3 (by decide), other 2 (by decide), other 1 (by decide), own]
  · rw [other 3 (by decide), other 2 (by decide), own]
  · rw [other 3 (by decide), own]
  · rw [own]

theorem leVal_leBytes_four {v : Nat} (hv : v < 2 ^ 32) : leVal (leBytes 4 v) = v := by
  simp only [leVal, leBytes, List.foldr_cons, List.foldr_nil, BitVec.toNat_ofNat]
  omega

/-- The word of a guarded lane is the lane's value modulo 2^32. -/
theorem dmemWord_storeBytes (s : State) {f : Flight} {core ea k : Nat} (hreg : f.reg = dmemBase core + ea) (hk : k < 4)
    (hlane : lane f.mask k = true) : dmemWord (storeBytes s f) core (ea + 4 * k) = unsigned 32 (f.vals.getD k 0) := by
  have hbytes : Memory.readBytes (storeBytes s f).mem (dmemBase core + (ea + 4 * k)) 4 =
      leBytes 4 (unsigned 32 (f.vals.getD k 0)) := by
    have hat : dmemBase core + (ea + 4 * k) = f.reg + 4 * k := by omega
    refine List.ext_getElem rfl fun i hi _ => ?_
    have hi4 : i < 4 := hi
    simp only [Memory.readBytes, List.getElem_map, List.getElem_range, hat, read_storeBytes_lane s f hk hi4 hlane]
    exact List.getD_eq_getElem _ _ _
  rw [← leVal_readBytes_four, hbytes, leVal_leBytes_four]
  exact (Int.toNat_lt (Int.emod_nonneg _ (by decide))).2 (Int.emod_lt_of_pos _ (by decide))

/-- Memory as results land: the stores among them write it. -/
theorem landAll_mem (s : State) (k : Nat) (due : List Flight) :
    ∃ c, (landAll s k due).mem = ((due.filter (·.file == .m)).foldl storeBytes (setCore s k c)).mem :=
  ⟨_, (landCounts_frame _ _ _).2⟩

/-- The update of an address register, as a result in flight. -/
def addrFlights (c : Core) (a : KAddr) (v : Option Nat) : List Flight :=
  match v with
  | none => []
  | some n => [{ left := 1, age := 0, slot := 1, file := .x, reg := c.xKey a.x, mask := 15, vals := [(n : Int)], add := false,
                 wrap := false, sat := 0 }]

/-- What an access that executes adds to its core: its result, and the update of its address register. -/
theorem addrUpdate_issueFlight (s : State) {h : KHd} (hk : h.core < 32) (f : Flight) (a : KAddr) (v : Option Nat) :
    addrUpdate (issueFlight s h.core f) h a v = setCore s h.core
      { coreOf s h.core with flight := (coreOf s h.core).flight ++ f :: addrFlights (coreOf s h.core) a v } := by
  cases v with
  | none => rfl
  | some n =>
    simp only [addrUpdate, issueFlight, coreOf_setCore_same _ _ _ hk, setCore_setCore, List.append_assoc]
    rfl

/-- The only store that lands is the one in front of the update of its address register. -/
theorem landing_stores (c : Core) (f : Flight) (a : KAddr) (v : Option Nat) (hfile : f.file = .m) (hleft : f.left = 1) :
    (((f :: addrFlights c a v).map fun f => { f with left := f.left - 1, age := f.age + 1 }).filter (·.left == 0)).filter
      (·.file == .m) = [{ f with left := 0, age := f.age + 1 }] := by
  cases v <;> simp [addrFlights, hfile, hleft]

theorem dmemWord_congr {s t : State} (hmem : t.mem = s.mem) (k ea : Nat) : dmemWord t k ea = dmemWord s k ea := by
  simp only [dmemWord, hmem]

end Sys2Proof.Machine
end

section
/-! PROOF. O12: a vector store reaches memory. -/

namespace Sys2Proof.Machine

open Sys2Proof

/-- The memory a bundle leaves whose one access is a store: the store has written it. -/
theorem stored_mem {s : State} {h h0 : KHd} (hq : Quiet s h.core) (hinj : s.fab.inj = []) (hcore : h0.core = h.core)
    {f : Flight} (hfile : f.file = .m) (hleft : f.left = 1) {a : KAddr} {v : Option Nat}
    (hc : CtActs (addrUpdate (issueFlight s h.core f) h a v) h0) :
    ∃ u : State, u.mem = s.mem ∧ (ctCloses (addrUpdate (issueFlight s h.core f) h a v) h0).mem =
      (storeBytes u { f with left := 0, age := f.age + 1 }).mem := by
  have hk : h.core < 32 := hcore ▸ hc.core_lt
  obtain ⟨hflight, _, _, hreads⟩ := hq
  rw [addrUpdate_issueFlight s hk, hflight, List.nil_append, ctCloses, hcore]
  generalize hd : ({ coreOf s h.core with flight := f :: addrFlights (coreOf s h.core) a v } : Core) = d
  have hnow : coreOf (setCore s h.core d) h.core = d := coreOf_setCore_same _ _ _ hk
  have hreads' : BundleReads (setCore s h.core d) h.core := by
    refine hreads.congr hinj rfl ?_ ?_ ?_ <;> rw [hnow, ← hd]
  have hdue : ((agedFlights d CtAct.none).filter (·.left == 0)).filter (·.file == .m) = [{ f with left := 0, age := f.age + 1 }] := by
    rw [agedFlights, ← hd]
    exact (congrArg (fun l => ((List.map _ l).filter _).filter _) (List.append_nil _)).trans
      (landing_stores (coreOf s h.core) f a v hfile hleft)
  rw [closeBundle_reads hreads', hnow]
  obtain ⟨e, he⟩ := landAll_mem (setCore (setCore s h.core d) h.core (closedCore d CtAct.none)) h.core
    ((agedFlights d CtAct.none).filter (·.left == 0))
  rw [hdue, List.foldl_cons, List.foldl_nil] at he
  refine ⟨_, ?_, he⟩
  simp only [setCore_mem]

/-- Settles O12: the store lands alone, and writes the lanes of its guard. -/
theorem vectorStoreReachesMemory : Obligations.VectorStoreReachesMemory := by
  unfold Obligations.VectorStoreReachesMemory
  intro s s1 s2 h h0 a v r hl hguard hr hq hinj hcore hc c ea hal hin x1 x2
  have t1 := Host.Outcome.next.inj (x1.symm.trans (congrArg Host.Outcome.next
    (storeOp_acts hl hguard hal hin (vPhys_map_vLanes hr) (c.guardMask h))))
  subst t1
  have t2 := Host.Outcome.next.inj (x2.symm.trans (exec_nop_ct hc))
  obtain ⟨u, hu, hmem⟩ := stored_mem hq hinj hcore (f := storeFlight h.core ea (c.guardMask h) _) rfl rfl hc
  rw [← t2] at hmem
  refine ⟨fun hwf => ?_, fun p hp => ?_, fun k hk hlane => ?_⟩
  · rw [MemoryCanonical, hmem]
    exact wf_storeBytes _ _ (hu ▸ hwf)
  · rw [hmem, ← hu]
    exact read_storeBytes_outside u _ hp
  · rw [dmemWord_congr hmem]
    refine (dmemWord_storeBytes u rfl hk hlane).trans ?_
    interval_cases k <;> rfl

end Sys2Proof.Machine
end

section
/-! SUPPORT. The DMA engines: a reset of a core's source leaves the cores alone, and what the transfer of a descriptor does (R147 to
R149, R437). -/

namespace Sys2Proof.Machine

open Sys2Proof

@[simp] theorem dramWord_kpu (s : State) (m src c : Nat) (w : List (Option Byte)) : (dramWord s m src c w).kpu = s.kpu := by
  unfold dramWord
  dsimp only
  split_ifs <;> simp

@[simp] theorem dramWrite_kpu (s : State) (m src a : Nat) (d : Bytes) : (dramWrite s m src a d).kpu = s.kpu := by
  unfold dramWrite
  split
  · rfl
  · exact foldl_keeps (fun t : State => t.kpu) _ (fun _ _ => dramWord_kpu _ _ _ _ _) _ _

@[simp] theorem burstWrite_kpu (s : State) (b : Burst) (d : Bytes) : (burstWrite s b d).kpu = s.kpu := by
  unfold burstWrite
  split <;> simp

@[simp] theorem publishDrains_kpu (s : State) : (publishDrains s).kpu = s.kpu := by
  unfold publishDrains
  dsimp only
  rw [foldl_keeps (fun t : State => t.kpu) _ (fun _ _ => setR_kpu _ _ _), setR_kpu]

@[simp] theorem masterReset_kpu (s : State) (m src beats more : Nat) : (masterReset s m src beats more).kpu = s.kpu := by
  unfold masterReset
  extract_lets n bursts fab drained
  have hbursts : bursts.kpu = s.kpu := foldl_keeps (fun t : State => t.kpu) _ (fun t b => by
    split
    · split
      · rfl
      · exact burstWrite_kpu _ _ _
    · rfl) _ _
  have hdrained : drained.kpu = s.kpu := hbursts
  split
  · exact (publishDrains_kpu _).trans hdrained
  · split
    · rw [raise_kpu, logEv_kpu]
      exact hdrained
    · exact (publishDrains_kpu _).trans hdrained

@[simp] theorem dmaDrain_kpu (s : State) (k : Nat) : (dmaDrain s k).kpu = s.kpu := masterReset_kpu _ _ _ _ _

/-- A failed transfer discards the queue of its channel; on a core that is not in FAULT it sets FLAGS.DE and raises DMAERR (R149). -/
theorem coreOf_dmaFail {s : State} {k : Nat} (hk : k < 32) (hrun : (coreOf s k).state ≠ .fault) (ch : Nat) :
    coreOf (dmaFail s k ch) k = { (coreOf s k).setDma ch [] with de := true, ipend := (coreOf s k).ipend ||| 4 } := by
  have hcore : coreOf (dmaDrain s k) k = coreOf s k := coreOf_congr _ _ k (dmaDrain_kpu s k)
  simp only [dmaFail, coreOf_setCore_same _ _ _ hk, hcore, if_neg hrun]

theorem leVal_lt (b : Bytes) : leVal b < 256 ^ b.length := by
  induction b with
  | nil => decide
  | cons x t ih =>
    have hx := x.isLt
    simp only [leVal, List.foldr_cons, List.length_cons, Nat.pow_succ] at ih ⊢
    omega

theorem leAt_four_lt (b : Bytes) (o : Nat) : leAt b o 4 < 2 ^ 32 :=
  Nat.lt_of_lt_of_le (leVal_lt _) (Nat.pow_le_pow_right (by decide : 0 < 256) (List.length_take_le 4 _))

theorem leAt_nil (o n : Nat) : leAt [] o n = 0 := by simp [leAt, sliceB, leVal]

section
variable {s : State} {k : Nat} {la ra n : Nat}

/-- A part that reaches a target and reads well moves remote bytes into data memory. -/
theorem dmaPart_in (ht : (fabTarget s (kdma k) ra n false).isSome = true) (hread : eccRead s ra n (kdma k) k = (false, s)) :
    dmaPart s k false la ra n = (.good, memWrite s (dmemBase k + la) (Memory.readBytes s.mem ra n)) := by
  obtain ⟨t, ht⟩ := Option.isSome_iff_exists.1 ht
  simp [dmaPart, ht, hread]

/-- A part of whole codewords moves bytes of data memory out. -/
theorem dmaPart_out (hra : ra % 16 = 0) (hn : n % 16 = 0) (ht : (fabTarget s (kdma k) ra n true).isSome = true)
    (hread : eccRead s (dmemBase k + la) n (kdma k) k = (false, s)) :
    dmaPart s k true la ra n = (.good, memWrite s ra (Memory.readBytes s.mem (dmemBase k + la) n)) := by
  obtain ⟨t, ht⟩ := Option.isSome_iff_exists.1 ht
  have hwhole : ra % 16 = 0 ∧ (Memory.readBytes s.mem (dmemBase k + la) n).length % 16 = 0 :=
    ⟨hra, by simpa [Memory.readBytes] using hn⟩
  simp only [dmaPart, ht, hread, dramWrite, if_pos hwhole, ite_self]
  rfl

end

/-- A transfer that lies in one page has one part. -/
theorem pageParts_onePage {a n : Nat} (hn : n ≠ 0) (hpage : a % 4096 + n ≤ 4096) : pageParts 18 a n = [(a, n)] := by
  have hmin : min n (4096 - a % 4096) = n := by omega
  simp [pageParts, hn, hmin]

/-- The top bit of a 32-bit word: the direction of a descriptor (R147). -/
theorem bit_31 {w : Nat} (hw : w < 2 ^ 32) : bit w 31 = decide (2 ^ 31 ≤ w) := by
  simp only [bit, Nat.testBit_eq_decide_div_mod_eq]
  congr 1
  rw [eq_iff_iff]
  omega

/-- The transfer of a descriptor within its limits, in one page, is its one part. -/
theorem dmaTransfer_onePage (s : State) (k : Nat) {d : Bytes} (hd : d.length = 16) :
    let la := leAt d 0 4 % 2 ^ 31
    let n := leAt d 4 4
    let ra := leAt d 8 4 + leAt d 12 4 * 2 ^ 32
    la % 16 = 0 → n % 16 = 0 → ra % 16 = 0 → 16 ≤ n → la + n ≤ 2 ^ 18 → ra % 4096 + n ≤ 4096 → ra < 2 ^ 40 →
    dmaTransfer s k d 65536 = dmaPart s k (decide (2 ^ 31 ≤ leAt d 0 4)) la ra n := by
  have h0 := leAt_four_lt d 0
  unfold dmaTransfer
  generalize leAt d 0 4 = w0 at h0 ⊢
  generalize leAt d 4 4 = w1
  generalize leAt d 8 4 = w2
  generalize leAt d 12 4 = w3
  intro la n ra hla hn hra hmin hend hpage hhi
  have hw1 : w1 < 2 ^ 17 := by omega
  have hw3 : w3 < 256 := by omega
  have hla' : w0 % 2 ^ 18 = la := by omega
  have hbits : bits w0 30 18 = 0 := by
    simp only [bits, Nat.shiftRight_eq_div_pow]
    omega
  have hempty : d.isEmpty = false := by
    cases d with
    | nil => cases hd
    | cons _ _ => rfl
  have hlen : w1 / 2 ^ 17 = 0 ∧ w1 % 2 ^ 17 = w1 ∧ w1 % 16 = 0 ∧ ¬ w1 < 16 ∧ ¬ w1 > 65536 ∧ ¬ la + w1 > 2 ^ 18 ∧
      min w1 65536 = w1 := by
    omega
  have hpart : pageParts 18 (w2 + w3 * 2 ^ 32) w1 = [(w2 + w3 * 2 ^ 32, w1)] := pageParts_onePage (by omega) hpage
  have hremote : w3 / 256 = 0 ∧ w3 % 256 = w3 ∧ (w2 + w3 * 2 ^ 32) % 16 = 0 := by omega
  simp only [hempty, hbits, hla', hla, bit_31 h0, hlen, hremote, hpart, List.foldl_cons, List.foldl_nil, Nat.sub_self]
  rfl

/-- A descriptor that could not be read, or whose length is out of range, moves nothing. -/
theorem dmaTransfer_badLength (s : State) (k : Nat) {d : Bytes} (hbad : d = [] ∨ leAt d 4 4 < 16 ∨ 65536 < leAt d 4 4) (limit : Nat) :
    dmaTransfer s k d limit = (.error, s) := by
  have hlen : leAt d 4 4 < 16 ∨ 65536 < leAt d 4 4 := by
    rcases hbad with rfl | hbad
    · exact .inl (by rw [leAt_nil]; decide)
    · exact hbad
  refine if_pos ?_
  simp only [Bool.or_eq_true, bne_iff_ne, decide_eq_true_eq]
  omega

/-- A running descriptor that ends well makes room for the next one. -/
theorem dmaDone_good {s t : State} {k ch : Nat} (hdrain : draining s (kdma k) k = false) {d : Bytes} {rest : List Bytes}
    (hch : (coreOf s k).dma ch = d :: rest) (hd : dmaTransfer s k d 65536 = (.good, t)) (hkpu : t.kpu = s.kpu) :
    dmaDone s k ch = setCore t k ((coreOf s k).setDma ch rest) := by
  simp only [dmaDone, hdrain, hch, hd, coreOf_congr t s k hkpu]
  rfl

/-- One that cannot go fails. -/
theorem dmaDone_error {s : State} {k ch : Nat} (hdrain : draining s (kdma k) k = false) {d : Bytes} {rest : List Bytes}
    (hch : (coreOf s k).dma ch = d :: rest) (hd : dmaTransfer s k d 65536 = (.error, s)) :
    dmaDone s k ch = dmaFail (setCore s k ((coreOf s k).setDma ch [])) k ch := by
  simp only [dmaDone, hdrain, hch, hd]
  rfl

theorem setDma_state (c : Core) (ch : Nat) (q : List Bytes) : (c.setDma ch q).state = c.state := by
  unfold Core.setDma
  split <;> rfl

theorem setDma_ipend (c : Core) (ch : Nat) (q : List Bytes) : (c.setDma ch q).ipend = c.ipend := by
  unfold Core.setDma
  split <;> rfl

theorem dma_setDma (c : Core) (ch : Nat) (q : List Bytes) : (c.setDma ch q).dma ch = q := by
  unfold Core.setDma Core.dma
  split <;> simp [*]

end Sys2Proof.Machine
end

section
/-! PROOF. O15: how a DMA transfer ends. -/

namespace Sys2Proof.Machine

open Sys2Proof

/-- Settles O15: a transfer of one page is one part; one of a length out of range fails. -/
theorem dmaTransferEnds : Obligations.DmaTransferEnds := by
  unfold Obligations.DmaTransferEnds
  intro s k ch d rest hk hch hdrain c out la n ra
  refine ⟨fun hd hla hn hra hmin hend hpage hhi htarget => ⟨fun hout hread => ?_, fun hout hread => ?_⟩, fun hbad hrun => ?_⟩
  · have hpart := dmaTransfer_onePage s k hd hla hn hra hmin hend hpage hhi
    rw [show decide (2 ^ 31 ≤ leAt d 0 4) = false from hout, dmaPart_in (hout ▸ htarget) hread] at hpart
    exact congrArg _ (dmaDone_good hdrain hch hpart rfl)
  · have hpart := dmaTransfer_onePage s k hd hla hn hra hmin hend hpage hhi
    rw [show decide (2 ^ 31 ≤ leAt d 0 4) = true from hout, dmaPart_out hra hn (hout ▸ htarget) hread] at hpart
    exact congrArg _ (dmaDone_good hdrain hch hpart rfl)
  · refine ⟨_, congrArg Host.Outcome.next (dmaDone_error hdrain hch (dmaTransfer_badLength s k hbad 65536)), ?_⟩
    have hcore := coreOf_setCore_same s k (c.setDma ch []) hk
    rw [coreOf_dmaFail hk (by rw [hcore, setDma_state]; exact hrun), hcore, setDma_ipend]
    exact ⟨rfl, dma_setDma _ _ _, rfl⟩

end Sys2Proof.Machine
end

section
/-! PROOF. O8 fails: two results that both add into one vector register do not count as a collision (R140, R141). -/

namespace Sys2Proof.Machine

open Sys2Proof

/-- A result that adds, about to land in vector register 1, issued in a slot. -/
def addingFlight (slot : Nat) : Flight :=
  { left := 1, age := 1, slot := slot, file := .v, reg := 1, mask := 15, vals := [1, 2, 3, 4], add := true, wrap := false, sat := 0 }

/-- Core 0 runs, and one such result of each vector slot lands as its bundle ends. -/
def addingPair : State :=
  setCore State.reset 0 { Core.cleared with state := .run, flight := [addingFlight 2, addingFlight 3] }

/-- An unguarded operation of core 0 in the CT slot. -/
def ctHead : KHd := { core := 0, slot := 0, gn := false, gp := 0, w := false, rsv := 0 }

theorem ctActs_addingPair : CtActs addingPair ctHead := by
  unfold CtActs
  decide +kernel

theorem bundleReads_addingPair : BundleReads addingPair 0 := by
  unfold BundleReads
  decide +kernel

/-- Both results land, and no collision is flagged. -/
theorem ctCloses_addingPair_wc : (coreOf (ctCloses addingPair ctHead) 0).wc = false := by decide +kernel

/-- Refutes O8: of two results for one vector register that land together the later issued one wins, but `Flight.collides` takes no two
adding results as a collision, whatever file they are for, and the statement does not ask that a result for a vector register does not
add. With both `add` flags set FLAGS.WC stays clear. (No operation of the model issues such a result: `vecOp` and the loads put
`add := false` in flight.) -/
theorem not_vectorResultsLand : ¬ Obligations.VectorResultsLand := by
  unfold Obligations.VectorResultsLand
  rintro ⟨lands, _⟩
  obtain ⟨t, ht, _, _, collide, _⟩ :=
    lands addingPair ctHead (addingFlight 2) (addingFlight 3) ctActs_addingPair bundleReads_addingPair rfl rfl
  obtain ⟨_, hwc, _⟩ := collide rfl rfl rfl rfl rfl rfl rfl rfl
  rw [← Host.Outcome.next.inj ((exec_nop_ct ctActs_addingPair).symm.trans ht)] at hwc
  exact absurd hwc (by rw [show ctHead.core = 0 from rfl, ctCloses_addingPair_wc]; decide)

end Sys2Proof.Machine
end

section
/-! SUPPORT. The fabric, the DMA engines and the images of a core: a property that depends on the registers, the dispatcher, the takes and
the pipeline only outlasts their writes and resets. -/

namespace Sys2Proof.Machine

open Sys2Proof

variable {P : State → Prop}

theorem Keeps.fabError {s kind m src a} (h : Keeps P s) : Keeps P (fabError s kind m src a) := by
  unfold Machine.fabError
  extract_lets first counted
  have hcounted : Keeps P counted := h.addCtr
  exact hcounted.keep.capture.logRun.raise

theorem Keeps.memWrite {s a b} (h : Keeps P s) : Keeps P (memWrite s a b) := h.keep

theorem Keeps.dramWord {s m src c w} (h : Keeps P s) : Keeps P (dramWord s m src c w) :=
  .ite h (.ite h.memWrite (.ite h.eccRead.addCtr h.eccRead.addCtr.memWrite))

theorem Keeps.dramWrite {s m src a d} (h : Keeps P s) : Keeps P (dramWrite s m src a d) :=
  .ite h.memWrite (h.foldl fun _ _ h => h.dramWord)

theorem Keeps.burstWrite {s b d} (h : Keeps P s) : Keeps P (burstWrite s b d) := .ite h.dramWrite h.memWrite
theorem Keeps.publishDrains {s} (h : Keeps P s) : Keeps P (publishDrains s) := h.setR.foldl fun _ _ h => h.setR

theorem Keeps.masterReset {s m src beats more} (h : Keeps P s) : Keeps P (masterReset s m src beats more) := by
  unfold Machine.masterReset
  extract_lets n bursts fab drained
  have hbursts : Keeps P bursts := h.foldl fun _ _ h => by split; exacts [.ite h h.burstWrite, h]
  have hdrained : Keeps P drained := hbursts.keep
  split
  · exact hdrained.keep.publishDrains
  · exact .ite hdrained.addCtr.logEv.raise hdrained.keep.publishDrains

theorem Keeps.dmaPart {s k out local_ ra n} (h : Keeps P s) : Keeps P (dmaPart s k out local_ ra n).2 := by
  unfold Machine.dmaPart
  split
  · exact h.fabError
  · exact .iteSnd (.iteSnd h.eccRead (.ite h.eccRead.dramWrite h.eccRead.memWrite)) (.iteSnd h.eccRead h.eccRead.memWrite)

theorem Keeps.dmaTransfer {s k d limit} (h : Keeps P s) : Keeps P (dmaTransfer s k d limit).2 :=
  .iteSnd h (h.foldlSnd fun _ _ h => .iteSnd h.dmaPart h)

theorem Keeps.dmaDrain {s k} (h : Keeps P s) : Keeps P (dmaDrain s k) := h.keep.masterReset

theorem Keeps.sourceReset {s k} (h : Keeps P s) : Keeps P (sourceReset s k) :=
  .ite h.masterReset (h.foldl fun _ _ h => h.freeBits.dmaTransfer).dmaDrain

theorem Keeps.loadImages {s t k} (h : Keeps P s) : Keeps P (loadImages s t k) :=
  (h.foldl fun _ _ h => .ite h.memWrite h).foldl fun _ _ h => .ite h.memWrite h

/-- Loading the images that are due after a cut leaves the dispatcher alone (R186). -/
theorem cutImages_disp (s : State) : (cutImages s).disp = s.disp := by
  unfold cutImages
  split
  · exact ((Steady.refl s).keeps.foldl fun _ _ h => h.loadImages).holds.disp
  · rfl

theorem cutImages_none {s : State} (h : s.pipe.imgCores = []) : cutImages s = s := by
  unfold cutImages
  split
  · next hcores => simp [h] at hcores
  · rfl

end Sys2Proof.Machine
end

section
/-! SUPPORT. What a token can do (R172, R174). -/

namespace Sys2Proof.Machine

open Sys2Proof

/-- A token is ignored, counts in a counter of the dispatcher, comes late at a sink, counts at a sink, or is stored in the `Inst` it fills. -/
theorem takeToken_cases (s : State) (b idx : Nat) (f : Int) :
    takeToken s b idx f = s ∨ (∃ a, takeToken s b idx f = addCtr s a 1) ∨
      takeToken s b idx f = raise (addCtr s Reg.DISP_SINKLATE 1) 10 0 ∨
      (∃ sinks, takeToken s b idx f = { s with disp := { s.disp with sinks := sinks } }) ∨
      ∃ i, takeToken s b idx f = setInst s i := by
  unfold takeToken
  split
  · exact .inl rfl
  split
  · exact .inl rfl
  split
  · extract_lets late
    split
    · exact .inr (.inr (.inl rfl))
    · exact .inr (.inr (.inr (.inl ⟨_, rfl⟩)))
  · extract_lets t fill
    split
    · split
      · split
        · exact .inr (.inl ⟨_, rfl⟩)
        · exact .inr (.inr (.inr (.inr ⟨_, rfl⟩)))
      · exact .inr (.inl ⟨_, rfl⟩)
    · split
      · exact .inr (.inl ⟨_, rfl⟩)
      · exact .inr (.inr (.inr (.inr ⟨_, rfl⟩)))

end Sys2Proof.Machine
end

section
/-! SUPPORT. The queues of the dispatcher: no step of a cycle adds a token or a host cancel, and only its end counts the cycle (R175). -/

namespace Sys2Proof.Machine

open Sys2Proof

/-- These tokens and host cancels wait, and this many dispatcher cycles have run. -/
def Waits (tokens : List Token) (cancels : List (Nat × Nat × Nat)) (cycle : Nat) (s : State) : Prop :=
  s.disp.tokens = tokens ∧ s.disp.cancels = cancels ∧ s.disp.cycle = cycle

variable {ts : List Token} {cs : List (Nat × Nat × Nat)} {n : Nat} {s : State}

theorem Waits.tokens (h : Waits ts cs n s) : s.disp.tokens = ts := h.1
theorem Waits.cancels (h : Waits ts cs n s) : s.disp.cancels = cs := h.2.1
theorem Waits.cycle (h : Waits ts cs n s) : s.disp.cycle = n := h.2.2

theorem Waits.foldl {α : Type} {f : State → α → State} {l : List α} (h : Waits ts cs n s)
    (step : ∀ t x, Waits ts cs n t → Waits ts cs n (f t x)) : Waits ts cs n (l.foldl f s) :=
  foldl_invariant _ f step l s h

theorem Waits.ite {c : Prop} [Decidable c] {a b : State} (ha : Waits ts cs n a) (hb : Waits ts cs n b) :
    Waits ts cs n (if c then a else b) := by split; exacts [ha, hb]

/-- A state with the same queues, whatever else differs. -/
theorem Waits.keep (h : Waits ts cs n s) {pending hw regs view latch tl log ccp pwr portA portB time clk geo path kpu bank0 bank1 insts
    sinks cutoff bound missed tally missNow dispatched fab fw cnv xpt strm take pipe pair lio dram mem rdata freeCtr} :
    Waits ts cs n ⟨pending, hw, regs, view, latch, tl, log, ccp, pwr, portA, portB, time, clk, geo, path, kpu,
      ⟨bank0, bank1, insts, s.disp.tokens, sinks, cutoff, bound, s.disp.cycle, s.disp.cancels, missed, tally, missNow, dispatched⟩,
      fab, fw, cnv, xpt, strm, take, pipe, pair, lio, dram, mem, rdata, freeCtr⟩ := h

theorem Waits.keeps (h : Waits ts cs n s) : Keeps (Waits ts cs n) s := ⟨⟨fun h => h, fun h => h⟩, h⟩
theorem Waits.raise (h : Waits ts cs n s) {k b} : Waits ts cs n (raise s k b) := h.keeps.raise.holds
theorem Waits.logEv (h : Waits ts cs n s) {code p} : Waits ts cs n (logEv s code p) := h.keeps.logEv.holds
theorem Waits.addCtr (h : Waits ts cs n s) {a k} : Waits ts cs n (addCtr s a k) := h.keep
theorem Waits.setCore (h : Waits ts cs n s) {k c} : Waits ts cs n (setCore s k c) := h.keep
theorem Waits.noteCancel (h : Waits ts cs n s) {b t reason race} : Waits ts cs n (noteCancel s b t reason race) := h.keep
theorem Waits.setBank (h : Waits ts cs n s) {b v} : Waits ts cs n (setBank s b v) := .ite h.keep h.keep
theorem Waits.setInst (h : Waits ts cs n s) {i} : Waits ts cs n (setInst s i) := .ite h.keep h.keep

theorem Waits.missFrame (h : Waits ts cs n s) {f cancelled late task} : Waits ts cs n (missFrame s f cancelled late task) :=
  .ite h.keep h.keep.addCtr.raise

theorem Waits.takeToken (h : Waits ts cs n s) {b idx f} : Waits ts cs n (takeToken s b idx f) := by
  rcases takeToken_cases s b idx f with e | ⟨a, e⟩ | e | ⟨_, e⟩ | ⟨i, e⟩ <;> rw [e]
  exacts [h, h.addCtr, h.addCtr.raise, h.keep, h.setInst]

theorem Waits.cancelInst (h : Waits ts cs n s) {i} : Waits ts cs n (cancelInst s i) :=
  .ite h.setInst.noteCancel.addCtr (.ite h.setInst.noteCancel.addCtr.raise h.setInst.noteCancel.addCtr)

theorem Waits.noteMissed (h : Waits ts cs n s) {cancelled late} : Waits ts cs n (noteMissed s cancelled late) :=
  h.foldl fun _ _ h => h.missFrame

theorem Waits.deadline (h : Waits ts cs n s) {due} : Waits ts cs n (deadline s due) :=
  ((h.foldl fun _ _ h => h.cancelInst).foldl fun _ _ h => h.setInst.addCtr.setCore).noteMissed

theorem Waits.abortInst (h : Waits ts cs n s) {i} : Waits ts cs n (abortInst s i) :=
  have hreset : Waits ts cs n (sourceReset s i.core) := h.keeps.sourceReset.holds
  hreset.setCore.setInst.addCtr.raise.logEv.missFrame

theorem Waits.deadlineToken (h : Waits ts cs n s) {t} : Waits ts cs n (deadlineToken s t) := by
  cases t with
  | arc => exact h
  | cutoff f => exact h.keep.deadline
  | boundary m => exact (h.keep.foldl fun _ _ h => h.abortInst).deadline

theorem Waits.hostCancel (h : Waits ts cs n s) {c} : Waits ts cs n (hostCancel s c) :=
  .ite h (h.foldl fun _ _ h => h.cancelInst).noteMissed.logEv

theorem Waits.releaseBank (h : Waits ts cs n s) {b} : Waits ts cs n (releaseBank s b) := by
  unfold Machine.releaseBank
  split
  · exact .ite h.keep.setBank h
  · exact h

theorem Waits.startInst (h : Waits ts cs n s) {i k} : Waits ts cs n (startInst s i k) := by
  unfold Machine.startInst
  split
  · exact h
  · extract_lets t kern c args x started noted disp counted
    have hcounted : Waits ts cs n counted := h.setCore.setInst.keep
    exact .ite hcounted.addCtr hcounted

theorem Waits.noteDepths (h : Waits ts cs n s) : Waits ts cs n (noteDepths s) := h.foldl fun _ _ h => h.keeps.setR.maxF.holds

end Sys2Proof.Machine
end

section
/-! SUPPORT. The ready `Inst` a cycle starts: the least in the order of R175 among those a core is free for. -/

namespace Sys2Proof.Machine

open Sys2Proof

/-- The order of R175 as a key: class, frame, the outgoing bank first, task. -/
def readyKey (s : State) (i : Inst) : ℕ ×ₗ ℤ ×ₗ Bool ×ₗ ℕ :=
  toLex ((taskOf s i.bank i.task).cls, toLex (i.frame, toLex (!outgoing s i.bank, i.task)))

theorem readyBefore_iff (s : State) (i j : Inst) : readyBefore s i j = true ↔ readyKey s i < readyKey s j := by
  simp only [readyKey, Prod.Lex.toLex_lt_toLex, readyBefore]
  split_ifs with hcls hframe hbank
  · simp_all
  · simp_all
  · cases hi : outgoing s i.bank <;> cases hj : outgoing s j.bank <;> simp_all
  · simp_all

/-- One ready `Inst` against the best so far. -/
def betterReady (s : State) (best : Option (Inst × Nat)) (i : Inst) : Option (Inst × Nat) :=
  match pickCore s i with
  | none => best
  | some k =>
    match best with
    | none => some (i, k)
    | some (j, _) => if readyBefore s i j then some (i, k) else best

/-- The best of a list: the least one that a core is free for, with that core. -/
def BestOf (s : State) (l : List Inst) : Option (Inst × Nat) → Prop
  | none => ∀ j ∈ l, pickCore s j = none
  | some (i, k) => i ∈ l ∧ pickCore s i = some k ∧ ∀ j ∈ l, pickCore s j ≠ none → ¬ readyKey s j < readyKey s i

theorem BestOf.betterReady {s : State} {l : List Inst} {best : Option (Inst × Nat)} (h : BestOf s l best) (i : Inst) :
    BestOf s (l ++ [i]) (betterReady s best i) := by
  unfold Machine.betterReady
  cases hcore : pickCore s i with
  | none =>
    cases best with
    | none => simpa [BestOf, or_imp, forall_and, hcore] using h
    | some b =>
      obtain ⟨hmem, hb, hleast⟩ := h
      exact ⟨List.mem_append_left _ hmem, hb, by simpa [or_imp, forall_and, hcore] using hleast⟩
  | some k =>
    cases best with
    | none =>
      refine ⟨by simp, hcore, fun j hj hfree => ?_⟩
      rcases List.mem_append.1 hj with hj | hj
      · exact absurd (h j hj) hfree
      · simp [List.mem_singleton.1 hj]
    | some b =>
      obtain ⟨hmem, hb, hleast⟩ := h
      dsimp only
      split
      · next hbefore =>
        have hlt := (readyBefore_iff s i b.1).1 hbefore
        refine ⟨by simp, hcore, fun j hj hfree => ?_⟩
        rcases List.mem_append.1 hj with hj | hj
        · exact fun hji => hleast j hj hfree (hji.trans hlt)
        · simp [List.mem_singleton.1 hj]
      · next hbefore =>
        refine ⟨List.mem_append_left _ hmem, hb, fun j hj hfree => ?_⟩
        rcases List.mem_append.1 hj with hj | hj
        · exact hleast j hj hfree
        · rwa [List.mem_singleton.1 hj, ← readyBefore_iff]

theorem bestOf_foldl (s : State) (l : List Inst) : BestOf s l (l.foldl (betterReady s) none) := by
  induction l using List.reverseRecOn with
  | nil => simp [BestOf]
  | append_singleton l i ih =>
    rw [List.foldl_append]
    exact ih.betterReady i

theorem bestOf_pickReady (s : State) : BestOf s (s.disp.insts.filter (·.st == .ready)) (pickReady s) := bestOf_foldl s _

theorem mem_ready {s : State} {i : Inst} : i ∈ s.disp.insts.filter (·.st == .ready) ↔ i ∈ s.disp.insts ∧ i.st = .ready := by simp

/-- The affinity of a task takes a free core only. -/
theorem coreFree_of_pickCore {s : State} {i : Inst} {k : Nat} (h : pickCore s i = some k) :
    ∃ b, bankOf s i.bank = some b ∧ coreFree s b.graph (taskOf s i.bank i.task).kernel k = true := by
  unfold pickCore at h
  split at h
  · simp at h
  · next b hb =>
    refine ⟨b, hb, ?_⟩
    extract_lets t free any at h
    have hany : any = some k → free k = true := List.find?_some
    split at h
    · exact hany h
    · split at h
      · next haff => exact Option.some.inj h ▸ haff
      · exact hany h
    · split at h
      · next haff => exact Option.some.inj h ▸ haff
      · simp at h

theorem idle_of_pickCore {s : State} {i : Inst} {k : Nat} (h : pickCore s i = some k) : (coreOf s k).state = .idle := by
  obtain ⟨b, _, hfree⟩ := coreFree_of_pickCore h
  simp only [coreFree, Bool.and_eq_true, beq_iff_eq] at hfree
  obtain ⟨⟨⟨hidle, _⟩, _⟩, _⟩ := hfree
  exact hidle

/-- What a cycle starts (R175). -/
theorem pickReady_some {s : State} {i : Inst} {k : Nat} (h : pickReady s = some (i, k)) :
    i ∈ s.disp.insts ∧ i.st = .ready ∧ pickCore s i = some k ∧ (coreOf s k).state = .idle ∧
      ∀ j ∈ s.disp.insts, j.st = .ready → pickCore s j ≠ none → readyBefore s j i = false := by
  have hbest := bestOf_pickReady s
  rw [h] at hbest
  obtain ⟨hi, hcore, hleast⟩ := hbest
  obtain ⟨hmem, hst⟩ := mem_ready.1 hi
  refine ⟨hmem, hst, hcore, idle_of_pickCore hcore, fun j hj hready hfree => ?_⟩
  exact Bool.eq_false_iff.2 fun hbefore => hleast j (mem_ready.2 ⟨hj, hready⟩) hfree ((readyBefore_iff s j i).1 hbefore)

theorem pickReady_none {s : State} (h : pickReady s = none) {j : Inst} (hj : j ∈ s.disp.insts) (hst : j.st = .ready) :
    pickCore s j = none := by
  have hbest := bestOf_pickReady s
  rw [h] at hbest
  exact hbest j (mem_ready.2 ⟨hj, hst⟩)

end Sys2Proof.Machine
end

section
/-! SUPPORT. What a token does (R172 to R174), and how an `Inst` starts (R177). -/

namespace Sys2Proof.Machine

open Sys2Proof

theorem mem_setInst (s : State) (i : Inst) : i ∈ (setInst s i).disp.insts := by
  unfold setInst
  dsimp only
  split <;> simp

/-- An `Inst` with one more slot filled: READY with its last one (R174). -/
def fillSlot (s : State) (a : Arc) (i : Inst) : Inst :=
  if i.slots ||| 2 ^ a.slot = 2 ^ (taskOf s i.bank a.dst).nslot - 1 then
    { i with slots := i.slots ||| 2 ^ a.slot, st := .ready, readyAt := s.disp.cycle }
  else { i with slots := i.slots ||| 2 ^ a.slot }

/-- The `Inst` that the first token of a task and a frame opens (R173). -/
def newInst (b t : Nat) (f : Int) : Inst :=
  { bank := b, task := t, frame := f, st := .waiting, slots := 0, core := 0, readyAt := 0, sent := [] }

section
variable {s : State} {b idx : Nat} {f : Int} {k : Bank} {a : Arc} (hbank : bankOf s b = some k) (harc : k.graph.arcs[idx]? = some a)
  (htask : a.dst < 0xE000)
include hbank harc htask

theorem takeToken_stale (hfind : findInst s b a.dst f = none) (hpast : deadlinePassed s (taskOf s b a.dst).dlk f = true) :
    takeToken s b idx f = addCtr s Reg.DISP_STALETOK 1 := by
  simp [takeToken, hbank, harc, htask, hfind, hpast]

theorem takeToken_new (hfind : findInst s b a.dst f = none) (hpast : deadlinePassed s (taskOf s b a.dst).dlk f = false) :
    takeToken s b idx f = setInst s (fillSlot s a (newInst b a.dst f)) := by
  simp [takeToken, hbank, harc, htask, hfind, hpast, fillSlot, newInst]

theorem takeToken_fills {i : Inst} (hib : i.bank = b) (hfind : findInst s b a.dst f = some i) (hopen : i.st = .waiting ∨ i.st = .ready)
    (hfree : bit i.slots a.slot = false) : takeToken s b idx f = setInst s (fillSlot s a i) := by
  simp [takeToken, hbank, harc, htask, hfind, hopen, hfree, fillSlot, hib]

theorem takeToken_duplicate {i : Inst} (hfind : findInst s b a.dst f = some i) (hopen : i.st = .waiting ∨ i.st = .ready)
    (hfull : bit i.slots a.slot = true) : takeToken s b idx f = addCtr s Reg.DISP_DUPTOK 1 := by
  simp [takeToken, hbank, harc, htask, hfind, hopen, hfull]

theorem takeToken_closed {i : Inst} (hfind : findInst s b a.dst f = some i) (hclosed : ¬(i.st = .waiting ∨ i.st = .ready)) :
    takeToken s b idx f = addCtr s Reg.DISP_STALETOK 1 := by
  simp [takeToken, hbank, harc, htask, hfind, hclosed]

end

theorem bankOf_setInst (s : State) (i : Inst) (x : Nat) : bankOf (setInst s i) x = bankOf s x := by
  unfold setInst
  dsimp only
  split <;> rfl

theorem bankOf_takeToken (s : State) (b idx : Nat) (f : Int) (x : Nat) : bankOf (takeToken s b idx f) x = bankOf s x := by
  rcases takeToken_cases s b idx f with e | ⟨a, e⟩ | e | ⟨_, e⟩ | ⟨i, e⟩ <;> rw [e]
  · rfl
  · simp [bankOf]
  · rfl
  · exact bankOf_setInst s i x

/-- A bank no cut has ended stays. -/
theorem releaseBank_serving {s : State} {b : Nat} (h : (bankOf s b).bind (·.hi) = none) : releaseBank s b = s := by
  unfold releaseBank
  split
  · next hb => simp [hb] at h
  · rfl

/-- The core an `Inst` starts on (R177). -/
def launchedCore (s : State) (i : Inst) (b : Bank) (c : Core) : Core :=
  let t := taskOf s i.bank i.task
  { c with
    state := .run, ie := false, hm := false, sf := false, wc := false, de := false, rbase := 64, stride := 1, rpos := 0, lc := 0,
    armed := false, predsDue := false, imask := 0, ipend := c.ipend &&& 6, brs := [], wait := none,
    pc := (b.graph.kernels.getD t.kernel { entry := 0, len := 0, coreMask := 0, img := 0 }).entry,
    x := Sparse.putN ((List.range 4).foldl (fun x n =>
      Sparse.putN x n (resolveArg b.graph (placeOf s i.frame) (t.args.getD n 0))) c.x) 14 (i.bank * 4096 + i.task) }

theorem coreOf_startInst {s : State} {i : Inst} {b : Bank} {k : Nat} (hk : k < 32) (hb : bankOf s i.bank = some b) :
    coreOf (startInst s i k) k = launchedCore s i b (coreOf s k) := by
  have hkpu : (startInst s i k).kpu = (setCore s k (launchedCore s i b (coreOf s k))).kpu := by
    simp only [startInst, hb, apply_ite State.kpu, addCtr_kpu, ite_self]
    exact setInst_kpu _ _
  rw [coreOf_congr _ _ k hkpu, coreOf_setCore_same _ _ _ hk]

theorem mem_startInst {s : State} {i : Inst} {b : Bank} {k : Nat} (hb : bankOf s i.bank = some b) :
    { i with st := .running, core := k, slots := 0 } ∈ (startInst s i k).disp.insts := by
  simp only [startInst, hb, apply_ite State.disp, addCtr_disp, ite_self]
  exact mem_setInst _ _

end Sys2Proof.Machine
end

section
/-! SUPPORT. The stages of a dispatcher cycle (R175): what it dispatches from, and what it leaves waiting. -/

namespace Sys2Proof.Machine

open Sys2Proof

/-- The first four tokens are out of the queue. -/
def dropTokens (s : State) : State := { s with disp := { s.disp with tokens := s.disp.tokens.drop 4 } }

/-- The first four tokens are taken, the arcs among them first, then the deadlines. -/
def takeTokens (s : State) : State :=
  let front := s.disp.tokens.take 4
  front.foldl deadlineToken (front.foldl (fun v t => match t with | .arc b n f => takeToken v b n f | _ => v) (dropTokens s))

/-- Every host cancel is taken (R184). -/
def takeCancels (s : State) : State := s.disp.cancels.foldl hostCancel { s with disp := { s.disp with cancels := [] } }

/-- The state a cycle dispatches from. -/
def dispatchState (s : State) : State := releaseBank (releaseBank (takeCancels (takeTokens s)) 0) 1

/-- The `Inst` a cycle starts, if one is ready and a core is free for it. -/
def dispatchReady (s : State) : State :=
  match pickReady s with
  | some (i, k) => startInst s i k
  | none => s

/-- One more cycle has run. -/
def countCycle (s : State) : State := { s with disp := { s.disp with cycle := s.disp.cycle + 1 } }

/-- A cycle dispatches, notes the depths of the ready lists (R188), and counts. -/
theorem dispatcherCycle_eq (s : State) : dispatcherCycle s = countCycle (noteDepths (dispatchReady (dispatchState s))) := by
  unfold dispatcherCycle
  extract_lets front d dropped arcs deadlines cancels e cancelled released started noted g
  have hreleased : released = dispatchState s := rfl
  clear_value released
  have hstarted : started = dispatchReady released := rfl
  clear_value started
  have hnoted : noted = noteDepths started := rfl
  clear_value noted
  rw [← hreleased, ← hstarted, ← hnoted]
  rfl

theorem dispatchReady_none {s : State} (h : pickReady s = none) : dispatchReady s = s := by simp [dispatchReady, h]

theorem dispatchReady_some {s : State} {i : Inst} {k : Nat} (h : pickReady s = some (i, k)) : dispatchReady s = startInst s i k := by
  simp [dispatchReady, h]

variable {ts : List Token} {cs : List (Nat × Nat × Nat)} {n : Nat} {s : State}

theorem Waits.dropTokens (h : Waits ts cs n s) : Waits (ts.drop 4) cs n (dropTokens s) :=
  ⟨congrArg (List.drop 4) h.tokens, h.cancels, h.cycle⟩

theorem Waits.takeTokens (h : Waits ts cs n s) : Waits (ts.drop 4) cs n (takeTokens s) := by
  refine (h.dropTokens.foldl fun _ t h => ?_).foldl fun _ _ h => h.deadlineToken
  split
  · exact h.takeToken
  · exact h

theorem Waits.takeCancels (h : Waits ts cs n s) : Waits ts [] n (takeCancels s) :=
  have hcleared : Waits ts [] n { s with disp := { s.disp with cancels := [] } } := ⟨h.tokens, rfl, h.cycle⟩
  hcleared.foldl fun _ _ h => h.hostCancel

theorem Waits.dispatchReady (h : Waits ts cs n s) : Waits ts cs n (dispatchReady s) := by
  unfold Machine.dispatchReady
  split
  · exact h.startInst
  · exact h

theorem Waits.countCycle (h : Waits ts cs n s) : Waits ts cs (n + 1) (countCycle s) := 
  ⟨h.tokens, h.cancels, congrArg (· + 1) h.cycle⟩

/-- A cycle takes four tokens and every host cancel, and counts itself. -/
theorem Waits.dispatcherCycle (h : Waits ts cs n s) : Waits (ts.drop 4) [] (n + 1) (dispatcherCycle s) :=
  dispatcherCycle_eq s ▸ h.takeTokens.takeCancels.releaseBank.releaseBank.dispatchReady.noteDepths.countCycle

theorem takeCancels_nil (h : s.disp.cancels = []) : takeCancels s = s := by
  unfold takeCancels
  rw [h, List.foldl_nil, ← h]

/-- Where one arc token is all there is to take, and neither bank is outgoing, the token alone acts. -/
theorem dispatchState_oneArc {b idx : Nat} {f : Int} (hfront : s.disp.tokens.take 4 = [.arc b idx f]) (hcancels : s.disp.cancels = [])
    (h0 : s.disp.bank0.bind (·.hi) = none) (h1 : s.disp.bank1.bind (·.hi) = none) :
    dispatchState s = takeToken (dropTokens s) b idx f := by
  have htaken : takeTokens s = takeToken (dropTokens s) b idx f := by simp [takeTokens, hfront, deadlineToken]
  have hnone : (takeTokens s).disp.cancels = [] := (Waits.takeTokens ⟨rfl, hcancels, rfl⟩).cancels
  rw [dispatchState, takeCancels_nil hnone, htaken, releaseBank_serving (b := 0), releaseBank_serving]
  · rw [bankOf_takeToken]
    exact h1
  · rw [bankOf_takeToken]
    exact h0

end Sys2Proof.Machine
end

section
/-! PROOF. O46: a dispatcher cycle. -/

namespace Sys2Proof.Machine

open Sys2Proof

theorem exec_dispatcherCycle (s : State) : exec .dispatcherCycle s = .next (dispatcherCycle (cutImages s)) := rfl

/-- The first token of a frame opens an `Inst` with one slot filled (R173, R174). -/
theorem fillSlot_newInst (s : State) (a : Arc) (b : Nat) (f : Int) :
    fillSlot s a (newInst b a.dst f) ∈ (setInst s (fillSlot s a (newInst b a.dst f))).disp.insts ∧
      (fillSlot s a (newInst b a.dst f)).bank = b ∧ (fillSlot s a (newInst b a.dst f)).task = a.dst ∧
      (fillSlot s a (newInst b a.dst f)).frame = f ∧ (fillSlot s a (newInst b a.dst f)).slots = 2 ^ a.slot ∧
      (fillSlot s a (newInst b a.dst f)).st = (if 2 ^ a.slot = 2 ^ (taskOf s b a.dst).nslot - 1 then .ready else .waiting) := by
  refine ⟨mem_setInst _ _, ?_⟩
  unfold fillSlot newInst
  simp only [Nat.zero_or]
  split <;> exact ⟨rfl, rfl, rfl, rfl, rfl⟩

/-- The whole cycle after the images (R175, R186). -/
theorem exec_dispatcherCycle_eq (s : State) :
    exec .dispatcherCycle s = .next (countCycle (noteDepths (dispatchReady (dispatchState (cutImages s))))) := by
  rw [exec_dispatcherCycle, dispatcherCycle_eq]

/-- Settles O46: the stages of a cycle as they follow one another, the ready `Inst` by its key, tokens and starts by their rules.
(`dispatcherCycle` itself names the model's function.) -/
theorem dispatcherCycle_holds : Obligations.DispatcherCycle := by
  unfold Obligations.DispatcherCycle
  intro s i k idx f b a u front u1 u2 u3 u4 ends
  have hu4 : u4 = dispatchState (cutImages s) := rfl
  have hexec : exec .dispatcherCycle s = .next (countCycle (noteDepths (dispatchReady u4))) := by
    rw [hu4, exec_dispatcherCycle_eq]
  have hends (v : State) (hv : dispatchReady u4 = v) : ends v := hv ▸ hexec
  refine ⟨fun hnone => hends _ (dispatchReady_none hnone), fun hsome => hends _ (dispatchReady_some hsome), cutImages_none, ?oneArc,
    ?queues, pickReady_some, fun hnone j => pickReady_none hnone, ?start, fun hb ha => takeToken_stale hb ha, ?opens,
    fun hb ha htask hfind => ⟨?fills, fun hopen => takeToken_duplicate hb ha htask hfind hopen,
      fun hw hr => takeToken_closed hb ha htask hfind (not_or.2 ⟨hw, hr⟩)⟩⟩
  case oneArc =>
    intro n hfront hcancels himages h0 h1
    have hu : cutImages s = s := cutImages_none himages
    have hfront' : (cutImages s).disp.tokens.take 4 = [.arc n idx f] := hfront
    rw [hu] at hfront'
    rw [hu4, hu, dispatchState_oneArc hfront' hcancels h0 h1]
    rfl
  case queues =>
    have hcut : Waits s.disp.tokens s.disp.cancels s.disp.cycle (cutImages s) := by simp only [Waits, cutImages_disp, and_self]
    have hend := hcut.dispatcherCycle
    exact ⟨_, exec_dispatcherCycle s, hend.cycle, hend.tokens, hend.cancels⟩
  case start =>
    intro hk hb
    simp only [coreOf_startInst hk hb]
    exact ⟨rfl, rfl, rfl, rfl, rfl, rfl, Sparse.get_put_same _ _ _ _, mem_startInst hb⟩
  case opens =>
    intro hb ha htask hfind hpast
    rw [takeToken_new hb ha htask hfind hpast]
    exact ⟨_, fillSlot_newInst s a i.bank f⟩
  case fills =>
    intro hwait hfree
    rw [takeToken_fills hb ha htask rfl hfind (.inl hwait) hfree]
    exact mem_setInst _ _

end Sys2Proof.Machine
end

section
/-! SUPPORT. The safety stage (R198, R200 to R202): limits of a sample, the clip behind the mute gain, and when the mute gain falls
and ramps. -/

namespace Sys2Proof.Machine

open Sys2Proof

theorem clampI_bounds {lo hi : Int} (h : lo ≤ hi) (x : Int) : lo ≤ clampI lo hi x ∧ clampI lo hi x ≤ hi := by
  unfold clampI
  split
  · exact ⟨le_rfl, h⟩
  · split <;> omega

theorem clampI_of_mem {lo hi x : Int} (hlo : lo ≤ x) (hhi : x ≤ hi) : clampI lo hi x = x := by
  rw [clampI, if_neg (by omega), if_neg (by omega)]

/-- The ceiling bounds every sample on both sides (R198). -/
theorem ceiling_bounds (c : Nat) {x : List Int} {y : Int} (hy : y ∈ (ceiling c x).1) : -(c : Int) ≤ y ∧ y ≤ c := by
  obtain ⟨v, -, rfl⟩ := List.mem_map.1 hy
  exact clampI_bounds (by omega) v

theorem hardClip_bounds {x : List Int} {y : Int} (hy : y ∈ (hardClip x).1) : -16777216 ≤ y ∧ y ≤ 16777215 := by
  obtain ⟨v, -, rfl⟩ := List.mem_map.1 hy
  exact clampI_bounds (by decide) v

/-- Samples within the limits pass the clip as they are and count no hit. -/
theorem hardClip_of_bounds {x : List Int} (h : ∀ y ∈ x, -16777216 ≤ y ∧ y ≤ 16777215) : hardClip x = (x, false) := by
  have hid : (x.map fun v => clampI (-16777216) 16777215 v) = x :=
    (List.map_congr_left fun v hv => clampI_of_mem (h v hv).1 (h v hv).2).trans (List.map_id' x)
  simp only [hardClip, hid, bne_self_eq_false]

theorem rhu_unity (v : Int) : rhu 22 (v * 4194304) = v := by
  simp only [rhu]
  omega

theorem muteClip_muted {x : List Int} {y : Int} (hy : y ∈ (muteClip .muted x).1) : y = 0 := by
  simp only [muteClip, hardClip, List.map_map, List.mem_map] at hy
  obtain ⟨v, -, rfl⟩ := hy
  simp [muteGain, rhu, clampI]

/-- At full mute gain a frame within the clip limits leaves unchanged (R202). -/
theorem muteClip_full {x : List Int} (h : ∀ y ∈ x, -16777216 ≤ y ∧ y ≤ 16777215) : muteClip .full x = (x, false) := by
  simp only [muteClip, muteGain, rhu_unity, List.zipIdx_map_fst]
  exact hardClip_of_bounds h

theorem exec_houseMuteAssert (s : State) : exec .houseMuteAssert s = .next (houseAssert s) := rfl
theorem exec_houseMuteRelease (s : State) : exec .houseMuteRelease s = .next (houseRelease s) := rfl

theorem houseAssert_low {s : State} (h : s.xpt.house = true) : houseAssert s = s := if_pos h

theorem houseAssert_xpt {s : State} (h : s.xpt.house = false) : (houseAssert s).xpt = { s.xpt with house := true, houseLow := true } := by
  simp [houseAssert, h]

theorem houseRelease_high {s : State} (h : s.xpt.house = false) : houseRelease s = s := by
  simp [houseRelease, h]

theorem houseRelease_frame {s : State} (h : s.xpt.house = true) :
    (houseRelease s).xpt = { s.xpt with house := false } ∧ (houseRelease s).regs = s.regs := by
  simp [houseRelease, h]

/-- Some mute cause holds at the boundary: the pin, its low level since the boundary before, or a latched fault (R200, R201). -/
def MuteCause (s : State) : Prop := s.xpt.house = true ∨ s.xpt.houseLow = true ∨ getF s F.XPT_FMUTE_CAUSE ≠ 0

theorem decideMute_muted {s : State} (h : MuteCause s) : (decideMute s).xpt.mute = .muted := by
  have hcause : (s.xpt.house || s.xpt.houseLow || getF s F.XPT_FMUTE_CAUSE != 0) = true := by
    simpa [MuteCause, or_assoc] using h
  simp only [decideMute, hcause, if_true]

theorem decideMute_released {s : State} (h : ¬ MuteCause s) :
    (decideMute s).xpt.mute = if s.xpt.mute = .muted then .ramp else .full := by
  have hcause : (s.xpt.house || s.xpt.houseLow || getF s F.XPT_FMUTE_CAUSE != 0) = false := by
    simpa [MuteCause, and_assoc] using h
  simp only [decideMute, hcause, Bool.false_eq_true, if_false]

/-- Settles O39: the pin and its latch by the two commands, the mute gain by its causes, and the limits of a sample by `clampI`. -/
theorem muteAndCeiling : Obligations.MuteAndCeiling := by
  unfold Obligations.MuteAndCeiling
  intro s c x m
  refine ⟨?again, fun hhigh => ⟨?idle, ?falls⟩, ?rises, decideMute_muted, ?release, fun y => ceiling_bounds c, fun y => hardClip_bounds,
    fun y => muteClip_muted, muteClip_full⟩
  case again =>
    intro hlow
    rw [exec_houseMuteAssert, houseAssert_low hlow]
  case idle => rw [exec_houseMuteRelease, houseRelease_high hhigh]
  case falls => exact ⟨_, exec_houseMuteAssert s, houseAssert_xpt hhigh⟩
  case rises => exact fun hlow => ⟨_, exec_houseMuteRelease s, houseRelease_frame hlow⟩
  case release =>
    intro hhigh hheld hnone
    exact decideMute_released (by simp [MuteCause, hhigh, hheld, hnone])

end Sys2Proof.Machine
end

section
/-! SUPPORT. Nodes of the crosspoint (R191 to R195): the ramp of a node, a committed write of XPT_NGAIN, the preset of a take, and
the term a node adds. -/

namespace Sys2Proof.Machine

open Sys2Proof

/-! The table of nodes. -/

/-- Two nodes share a place of the table only when they are the same node. -/
theorem nodeKey_inj {o i out inp : Nat} (hi : i < 512) (hinp : inp < 512) :
    512 * o + i = 512 * out + inp ↔ o = out ∧ i = inp := by omega

theorem nodeOf_put (t : Sparse Node) (x : Node) {o i out inp : Nat} (hi : i < 512) (hinp : inp < 512) :
    nodeOf (Sparse.put (fun _ => Node.zero) t (512 * out + inp) x) o i = if o = out ∧ i = inp then x else nodeOf t o i := by
  simp only [nodeOf, Sparse.get_put, nodeKey_inj hi hinp]

/-- The change in force in the last frame before n, which a write that commits at n starts from. -/
def Node.before (x : Node) (n : Int) : Ramp := if x.cur.start < n then x.cur else x.prev

theorem Node.gain_before (x : Node) (n : Int) (k : Nat) : x.gain (n - 1) k = (x.before n).value (n - 1) k := by
  have hstart : x.cur.start ≤ n - 1 ↔ x.cur.start < n := by omega
  simp only [Node.gain, Node.ramp, Node.before, hstart]

/-- The node a write leaves: on its way to g from frame n on, as before until then. -/
def rampedNode (x : Node) (g : Int) (code : Nat) (n : Int) : Node :=
  { cur := { g0 := x.gain (n - 1) 16, g1 := g, len := rampLen code, start := n }, prev := x.before n }

theorem setNode_eq (t : Sparse Node) (out inp : Nat) (g : Int) (code : Nat) (n : Int) :
    setNode t out inp g code n =
      Sparse.put (fun _ => Node.zero) t (512 * out + inp) (rampedNode (nodeOf t out inp) g code n) := by
  rw [rampedNode, Node.gain_before]
  rfl

/-- A write changes the node it names and no other. -/
theorem nodeOf_setNode (t : Sparse Node) (out : Nat) {inp : Nat} (g : Int) (code : Nat) (n : Int) (o : Nat) {i : Nat} (hi : i < 512)
    (hinp : inp < 512) : nodeOf (setNode t out inp g code n) o i =
      if o = out ∧ i = inp then rampedNode (nodeOf t out inp) g code n else nodeOf t o i := by
  rw [setNode_eq, nodeOf_put _ _ hi hinp]

theorem rampedNode_gain_earlier (x : Node) (g : Int) (code : Nat) (n : Int) (k : Nat) :
    (rampedNode x g code n).gain (n - 1) k = x.gain (n - 1) k := by
  have hramp : (rampedNode x g code n).ramp (n - 1) = x.before n := if_neg (show ¬ n ≤ n - 1 by omega)
  rw [Node.gain, hramp, Node.gain_before]

/-- From frame n on the gain follows the straight line of R194, sample by sample, and stays at its end. -/
theorem rampedNode_gain (x : Node) (g : Int) (code : Nat) {n m : Int} {k : Nat} (hm : n ≤ m) (hk : 1 ≤ k) :
    (rampedNode x g code n).gain m k = if (rampLen code : Int) ≤ 16 * (m - n) + k then g
      else x.gain (n - 1) 16 + divRhu ((g - x.gain (n - 1) 16) * (16 * (m - n) + k)) (rampLen code) := by
  have hramp : (rampedNode x g code n).ramp m = (rampedNode x g code n).cur := if_pos hm
  have hpos : ¬ 16 * (m - n) + (k : Int) ≤ 0 := by omega
  simp only [Node.gain, hramp]
  simp only [Ramp.value, rampedNode, Node.gain, ge_iff_le, hpos, if_false]

/-! A write of XPT_NGAIN. -/

@[simp] theorem nodeReject_xpt (s : State) (out inp : Nat) (log : Bool) : (nodeReject s out inp log).xpt = s.xpt := by
  cases log <;> simp [nodeReject]

theorem nodeReject_log (s : State) (out inp : Nat) : (nodeReject s out inp false).log = s.log := by simp [nodeReject]

theorem nodeReject_regs (s : State) (out inp : Nat) (log : Bool) :
    (nodeReject s out inp log).regs = (raise (addCtr s Reg.XPT_NODEREJ 1) 11 0).regs := by
  cases log <;> simp [nodeReject]

/-- A rejected write counts (R192, R193). -/
theorem getR_nodeReject (s : State) (out inp : Nat) (log : Bool) :
    getR (nodeReject s out inp log) Reg.XPT_NODEREJ = satAdd 32 (getR s Reg.XPT_NODEREJ) 1 := by
  have hlt : satAdd 32 (getR s Reg.XPT_NODEREJ) 1 < 2 ^ 32 := by unfold satAdd; omega
  rw [getR_congr _ _ _ (nodeReject_regs s out inp log), getR_raise _ 11 0 Reg.XPT_INTSTAT _ rfl, if_neg (by decide), getR_addCtr,
    if_pos rfl, Nat.mod_eq_of_lt hlt]

theorem getF_nodeReject (s : State) (out inp : Nat) (log : Bool) (f : Fld) (hf : f.addr = Reg.XPT_NSEL) :
    getF (nodeReject s out inp log) f = getF s f := by
  rw [getF_congr _ _ f (nodeReject_regs s out inp log), getF_raise_ne _ 11 0 Reg.XPT_INTSTAT f rfl (by rw [hf]; decide)]
  exact getF_setR_ne s f _ _ (by rw [hf]; decide)

/-- The node change, or its rejection, of a write of XPT_NGAIN: all it does but the step of XPT_NSEL. -/
def nodeWrite (s : State) (v : Nat) : State :=
  let out := getF s F.XPT_NSEL_OUT
  let inp := getF s F.XPT_NSEL_IN
  if outAbsent s out then nodeReject s out inp false
  else if out ≥ 640 then nodeReject s out inp true
  else if signed 24 v != 0 && !(nodeOf s.xpt.nodes out inp).active (posNow s) &&
    decide (activeNodes s.xpt.nodes (posNow s) ≥ 16384) then nodeReject s out inp true
  else { s with xpt := { s.xpt with nodes := setNode s.xpt.nodes out inp (signed 24 v) (bits v 25 24) (posNow s) } }

/-- The step of XPT_NSEL to the next input, with INC set (R193). -/
def advanceNsel (s : State) (inp : Nat) : State :=
  if getF s F.XPT_NSEL_INC = 1 then setF s F.XPT_NSEL_IN ((inp + 1) % 512) else s

theorem ngainCommit_eq (s : State) (v : Nat) : ngainCommit s v = advanceNsel (nodeWrite s v) (getF s F.XPT_NSEL_IN) := rfl

theorem commitWord_ngain (s : State) (v : Nat) :
    commitWord s Reg.XPT_NGAIN v false = advanceNsel (nodeWrite s v) (getF s F.XPT_NSEL_IN) := by
  have hpresent : unitAbsent s Reg.XPT_NGAIN = false := by simp [unitAbsent, Reg.XPT_NGAIN]
  rw [← ngainCommit_eq, commitWord, hpresent]
  rfl

@[simp] theorem advanceNsel_xpt (s : State) (inp : Nat) : (advanceNsel s inp).xpt = s.xpt := by
  unfold advanceNsel; split <;> simp

@[simp] theorem advanceNsel_log (s : State) (inp : Nat) : (advanceNsel s inp).log = s.log := by
  unfold advanceNsel; split <;> simp

theorem getR_advanceNsel (s : State) (inp : Nat) : getR (advanceNsel s inp) Reg.XPT_NODEREJ = getR s Reg.XPT_NODEREJ := by
  unfold advanceNsel
  split
  · exact getR_setR_ne _ _ _ _ (by decide)
  · rfl

theorem getF_advanceNsel (s : State) (inp : Nat) :
    getF (advanceNsel s inp) F.XPT_NSEL_IN = if getF s F.XPT_NSEL_INC = 1 then (inp + 1) % 512 else getF s F.XPT_NSEL_IN := by
  unfold advanceNsel
  split
  · rw [getF_setF_same _ _ _ (by decide) (by decide)]
    exact Nat.mod_mod _ _
  · rfl

/-- A write would activate one node more than the crosspoint holds (R192). -/
def NodesFull (s : State) (v : Nat) : Prop :=
  signed 24 v ≠ 0 ∧ (nodeOf s.xpt.nodes (getF s F.XPT_NSEL_OUT) (getF s F.XPT_NSEL_IN)).active (posNow s) = false ∧
    16384 ≤ activeNodes s.xpt.nodes (posNow s)

theorem nodesFull_iff (s : State) (v : Nat) :
    NodesFull s v ↔ (signed 24 v != 0 && !(nodeOf s.xpt.nodes (getF s F.XPT_NSEL_OUT) (getF s F.XPT_NSEL_IN)).active (posNow s) &&
      decide (activeNodes s.xpt.nodes (posNow s) ≥ 16384)) = true := by
  simp [NodesFull, and_assoc]

theorem outAbsent_iff (s : State) (out : Nat) : outAbsent s out = true ↔ busCount s ≤ out ∧ out < 512 := by simp [outAbsent]

section
variable {s : State}

/-- A speaker bus a TK2512 does not have: the write is rejected without a log event (R193). -/
theorem nodeWrite_absent (v : Nat) (habsent : busCount s ≤ getF s F.XPT_NSEL_OUT) (hbus : getF s F.XPT_NSEL_OUT < 512) :
    nodeWrite s v = nodeReject s (getF s F.XPT_NSEL_OUT) (getF s F.XPT_NSEL_IN) false := by
  rw [nodeWrite, if_pos ((outAbsent_iff s _).2 ⟨habsent, hbus⟩)]

/-- An output beyond the crosspoint, or one node too many: the write is rejected (R191, R192). -/
theorem nodeWrite_rejected {v : Nat} (h : 640 ≤ getF s F.XPT_NSEL_OUT ∨
      ((getF s F.XPT_NSEL_OUT < busCount s ∨ 512 ≤ getF s F.XPT_NSEL_OUT) ∧ NodesFull s v)) :
    nodeWrite s v = nodeReject s (getF s F.XPT_NSEL_OUT) (getF s F.XPT_NSEL_IN) true := by
  have hthere : ¬ outAbsent s (getF s F.XPT_NSEL_OUT) = true := by rw [outAbsent_iff]; omega
  rw [nodeWrite, if_neg hthere]
  rcases h with hbeyond | ⟨-, hfull⟩
  · rw [if_pos hbeyond]
  · rw [if_pos ((nodesFull_iff s v).1 hfull), ite_self]

theorem nodeWrite_taken {v : Nat} (hthere : getF s F.XPT_NSEL_OUT < busCount s ∨ 512 ≤ getF s F.XPT_NSEL_OUT)
    (hin : getF s F.XPT_NSEL_OUT < 640) (hroom : ¬ NodesFull s v) :
    nodeWrite s v = { s with xpt := { s.xpt with
      nodes := setNode s.xpt.nodes (getF s F.XPT_NSEL_OUT) (getF s F.XPT_NSEL_IN) (signed 24 v) (bits v 25 24) (posNow s) } } := by
  have hpresent : ¬ outAbsent s (getF s F.XPT_NSEL_OUT) = true := by rw [outAbsent_iff]; omega
  rw [nodeWrite, if_neg hpresent, if_neg (show ¬ getF s F.XPT_NSEL_OUT ≥ 640 by omega), if_neg (mt (nodesFull_iff s v).2 hroom)]

end

/-- A write whose node is rejected changes no node and counts. -/
theorem commitWord_ngain_rejected {s : State} {v out inp : Nat} {log : Bool} (h : nodeWrite s v = nodeReject s out inp log) :
    (commitWord s Reg.XPT_NGAIN v false).xpt = s.xpt ∧
      getR (commitWord s Reg.XPT_NGAIN v false) Reg.XPT_NODEREJ = satAdd 32 (getR s Reg.XPT_NODEREJ) 1 := by
  rw [commitWord_ngain, advanceNsel_xpt, getR_advanceNsel, h]
  exact ⟨nodeReject_xpt s out inp log, getR_nodeReject s out inp log⟩

/-- Whatever becomes of the node, the selection stands until it steps. -/
theorem getF_nodeWrite (s : State) (v : Nat) (f : Fld) (hf : f.addr = Reg.XPT_NSEL) : getF (nodeWrite s v) f = getF s f := by
  unfold nodeWrite
  dsimp only
  repeat' split
  · exact getF_nodeReject s _ _ _ f hf
  · exact getF_nodeReject s _ _ _ f hf
  · exact getF_nodeReject s _ _ _ f hf
  · rfl

/-! The preset of a take. -/

/-- A node of a preset: at its gain in every frame. -/
def presetNode (g n : Int) : Node := { cur := ⟨g, g, 1, n - 1⟩, prev := ⟨g, g, 1, n - 1⟩ }

theorem presetNode_gain (g n m : Int) (k : Nat) : (presetNode g n).gain m k = g := by
  simp [presetNode, Node.gain, Node.ramp, Ramp.value, divRhu_zero]

/-- The table with the preset's next node. -/
def putPreset (n : Int) (t : Sparse Node) (x : Nat × Nat × Int) : Sparse Node :=
  Sparse.put (fun _ => Node.zero) t (512 * x.1 + x.2.1) (presetNode x.2.2 n)

theorem presetNodes_eq (l : List (Nat × Nat × Int)) (n : Int) : presetNodes l n = l.foldl (putPreset n) [] := rfl

/-- A node the preset names is at its gain, whatever the table held, where no entry gives it another gain. -/
theorem nodeOf_foldl_putPreset {l : List (Nat × Nat × Int)} {out inp : Nat} {g : Int} (n : Int) (t : Sparse Node)
    (hin : ∀ y ∈ l, y.2.1 < 512) (hone : ∀ y ∈ l, y.1 = out → y.2.1 = inp → y.2.2 = g) (hinp : inp < 512)
    (h : (out, inp, g) ∈ l ∨ nodeOf t out inp = presetNode g n) :
    nodeOf (l.foldl (putPreset n) t) out inp = presetNode g n := by
  induction l generalizing t with
  | nil => simpa using h
  | cons x l ih =>
    rw [List.foldl_cons]
    refine ih _ (fun y hy => hin y (List.mem_cons_of_mem x hy)) (fun y hy => hone y (List.mem_cons_of_mem x hy)) ?_
    rw [putPreset, nodeOf_put _ _ hinp (hin x List.mem_cons_self)]
    by_cases hkey : out = x.1 ∧ inp = x.2.1
    · rw [if_pos hkey, hone x List.mem_cons_self hkey.1.symm hkey.2.symm]
      exact .inr rfl
    · rw [if_neg hkey]
      refine h.imp (fun hmem => (List.mem_cons.1 hmem).resolve_left ?_) id
      rintro rfl
      exact hkey ⟨rfl, rfl⟩

/-! The term a node adds. -/

theorem zero16_getD {k : Nat} (hk : k < 16) : zero16.getD k 0 = 0 := List.getD_replicate (0 : Int) hk

theorem zero16_add {xs : List Int} (hlen : xs.length = 16) : ((zero16.zip xs).map fun p => p.1 + p.2) = xs := by
  refine List.ext_getElem (by simp [zero16, hlen]) fun k _ _ => ?_
  simp [zero16, -List.reduceReplicate]

/-- Sixteen values added into an empty table are what the bus accumulates. -/
theorem get_accBus_nil {xs : List Int} (bus : Nat) (hlen : xs.length = 16) :
    Sparse.get (fun _ => zero16) (accBus [] bus xs) bus = xs := by
  simp only [accBus, Sparse.get_put_same, Sparse.get, zero16_add hlen]

/-- The sixteen products of a node: its input, sample by sample, at its gain (R191). -/
def nodeTerm (x : Node) (v : List Int) (n : Int) : List Int := v.zipIdx.map fun y => y.1 * x.gain n (y.2 + 1)

theorem nodeTerm_getD (x : Node) {v : List Int} (n : Int) {k : Nat} (hk : k < v.length) :
    (nodeTerm x v n).getD k 0 = v.getD k 0 * x.gain n (k + 1) := by
  simp [nodeTerm, List.getD_eq_getElem?_getD, hk]

/-- An active node adds its term, unless its input is silent. -/
theorem xptTerms_single {x : Node} {n : Int} {inp : Nat} (xin : Sparse (List Int)) (out : Nat) (hinp : inp < 512)
    (hact : x.active n = true) :
    xptTerms [(512 * out + inp, x)] xin n [] =
      if Sparse.get (fun _ => zero16) xin inp = zero16 then []
      else accBus [] out (nodeTerm x (Sparse.get (fun _ => zero16) xin inp) n) := by
  have hmod : (512 * out + inp) % 512 = inp := by omega
  have hdiv : (512 * out + inp) / 512 = out := by omega
  simp only [xptTerms, List.foldl_cons, List.foldl_nil, hmod, hdiv, hact, Bool.true_and, bne_iff_ne, ne_eq, ite_not]
  rfl

theorem xptTerms_single_getD {x : Node} {n : Int} {inp k : Nat} (xin : Sparse (List Int)) (out : Nat) (hinp : inp < 512) (hk : k < 16)
    (hact : x.active n = true) (hlen : (Sparse.get (fun _ => zero16) xin inp).length = 16) :
    (Sparse.get (fun _ => zero16) (xptTerms [(512 * out + inp, x)] xin n []) out).getD k 0 =
      (Sparse.get (fun _ => zero16) xin inp).getD k 0 * x.gain n (k + 1) := by
  rw [xptTerms_single xin out hinp hact]
  split
  next hsilent => rw [hsilent, zero16_getD hk, zero_mul]; exact zero16_getD hk
  next =>
    rw [get_accBus_nil out (by simp [nodeTerm, hlen])]
    exact nodeTerm_getD x n (by omega)

end Sys2Proof.Machine
end

section
/-! SUPPORT. Sparse tables with rising keys: what a lookup finds, also in a part of the table. -/

namespace Sys2Proof.Machine

/-- A table without an entry for a key reads as unlisted there. -/
theorem Sparse.get_of_not_mem {α : Type} (d : Nat → α) {m : Sparse α} {b : Nat} (h : ∀ p ∈ m, p.1 ≠ b) : Sparse.get d m b = d b := by
  induction m with
  | nil => rfl
  | cons p t ih =>
    obtain ⟨hp, ht⟩ := List.forall_mem_cons.1 h
    simp only [Sparse.get, ih ht, ite_self, if_neg hp.symm]

/-- An entry of a table with rising keys is what a lookup of its key finds. -/
theorem Sparse.get_of_mem {α : Type} (d : Nat → α) {m : Sparse α} (rise : m.Pairwise (·.1 < ·.1)) {b : Nat} {v : α} (h : (b, v) ∈ m) :
    Sparse.get d m b = v := by
  induction m with
  | nil => cases h
  | cons p t ih =>
    obtain ⟨hp, ht⟩ := List.pairwise_cons.1 rise
    rcases List.mem_cons.1 h with rfl | h
    · simp [Sparse.get]
    · have := hp _ h
      simp only [Sparse.get, ih ht h]
      rw [if_neg (by omega), if_neg (by omega)]

/-- Forgetting entries leaves a key as it reads, where an entry forgotten there reads as unlisted. -/
theorem Sparse.get_filter {α : Type} (d : Nat → α) {m : Sparse α} (rise : m.Pairwise (·.1 < ·.1)) {keep : Nat × α → Bool} {b : Nat}
    (h : ∀ p ∈ m, p.1 = b → keep p = false → p.2 = d b) : Sparse.get d (m.filter keep) b = Sparse.get d m b := by
  induction m with
  | nil => rfl
  | cons p t ih =>
    obtain ⟨hp, ht⟩ := List.pairwise_cons.1 rise
    obtain ⟨hhead, htail⟩ := List.forall_mem_cons.1 h
    rw [List.filter_cons]
    split
    next => simp only [Sparse.get, ih ht htail]
    next hdrop =>
      have habove (hle : b ≤ p.1) : Sparse.get d t b = d b := Sparse.get_of_above d fun q hq => by have := hp q hq; omega
      rw [ih ht htail, Sparse.get]
      split
      next heq => rw [habove heq.le, hhead heq.symm (by simpa using hdrop)]
      next => split; exacts [habove (by omega), rfl]

/-- Replacing a range by a block with rising keys: a key of the range reads as in the block. -/
theorem Sparse.get_replaceRange_inside {α : Type} [DecidableEq α] (d : Nat → α) (m : Sparse α) {block : Sparse α} {lo hi b : Nat}
    (rise : block.Pairwise (·.1 < ·.1)) (hlo : lo ≤ b) (hhi : b < hi) :
    Sparse.get d (Sparse.replaceRange d m lo hi block) b = Sparse.get d block b := by
  have hlow : ∀ p ∈ m.filter (fun p => decide (p.1 < lo)), p.1 < b := fun p hp => by
    have := of_decide_eq_true (List.mem_filter.1 hp).2
    omega
  have hhigh : ∀ p ∈ m.filter (fun p => decide (hi ≤ p.1)), b < p.1 := fun p hp => by
    have := of_decide_eq_true (List.mem_filter.1 hp).2
    omega
  rw [Sparse.replaceRange, Sparse.get_append_above d _ hhigh, Sparse.get_append_below d _ hlow]
  refine Sparse.get_filter d rise fun p _ hb hdrop => ?_
  subst hb
  simpa [hlo, hhi] using hdrop

end Sys2Proof.Machine
end

section
/-! SUPPORT. The meters of the crosspoint (R197): one meter's step, and every meter's words and hold counter at a boundary. -/

namespace Sys2Proof.Machine

open Sys2Proof

/-! One meter. -/

section
variable (dk hold p cnt lv hd cl : Nat) (clip : Bool)

theorem meterStep_level : (meterStep dk hold p clip (lv, hd, cl) cnt).1.1 = max p (lv * dk / 2 ^ 24) := rfl

theorem meterStep_clip : (meterStep dk hold p clip (lv, hd, cl) cnt).1.2.2 = if clip then 1 else cl := rfl

variable {p cnt hd}

theorem meterStep_peak (h : hd ≤ p) :
    (meterStep dk hold p clip (lv, hd, cl) cnt).1.2.1 = p ∧ (meterStep dk hold p clip (lv, hd, cl) cnt).2 = hold := by
  simp [meterStep, h]

theorem meterStep_held (h : p < hd) (hcnt : 0 < cnt) :
    (meterStep dk hold p clip (lv, hd, cl) cnt).1.2.1 = hd ∧ (meterStep dk hold p clip (lv, hd, cl) cnt).2 = cnt - 1 := by
  simp [meterStep, Nat.not_le_of_gt h, hcnt]

theorem meterStep_falls (h : p < hd) (hcnt : cnt = 0) :
    (meterStep dk hold p clip (lv, hd, cl) cnt).1.2.1 = max p (hd * dk / 2 ^ 24) ∧
      (meterStep dk hold p clip (lv, hd, cl) cnt).2 = 0 := by
  simp [meterStep, Nat.not_le_of_gt h, hcnt]

end

/-! What the words of the meters read at reset. -/

/-- The offsets a register row covers end with its last copy. -/
theorem RegRow.le_of_covers {r : RegRow} {a : Nat} (flat : r.stride2 = 0) (h : r.covers a = true) :
    a ≤ r.base + (r.count - 1) * r.stride := by
  have hcopies : (if r.stride = 0 then 0 else min (r.count - 1) ((a - r.base) / r.stride)) * r.stride ≤ (r.count - 1) * r.stride := by
    split
    · omega
    · exact Nat.mul_le_mul_right _ (Nat.min_le_left _ _)
  simp only [RegRow.covers, flat, if_true, Nat.zero_mul] at h
  split at h
  · cases h
  · simp only [Bool.and_eq_true, decide_eq_true_eq] at h
    omega

/-- A register reads 0 at reset where every row that covers it has fields that do. -/
theorem tableReset_eq_zero {a : Nat} (h : ∀ r ∈ regRows (a / 0x10000), r.covers a = true → ∀ f ∈ r.fields, f.reset = 0) :
    tableReset a = 0 := by
  unfold tableReset
  split
  next r hr =>
    obtain ⟨hmem, hcov⟩ : r ∈ regRows (a / 0x10000) ∧ r.covers a = true :=
      ⟨List.mem_of_find?_eq_some hr, List.find?_some (p := fun r : RegRow => r.covers a) hr⟩
    refine List.sum_eq_zero fun x hx => ?_
    obtain ⟨f, hf, rfl⟩ := List.mem_map.1 hx
    simp [FieldRow.placed, h r hmem hcov f hf]
  next => rfl

/-- The rows of XPT lie below the meters or reset to 0. -/
theorem regRowsXPT_meters : ∀ r ∈ regRowsXPT, r.stride2 = 0 ∧
    (r.base + (r.count - 1) * r.stride < Reg.XPT_METER_LEVEL ∨ ∀ f ∈ r.fields, f.reset = 0) := by decide

theorem regDefault_meter {a : Nat} (hlo : Reg.XPT_METER_LEVEL ≤ a) (hhi : a < Reg.XPT_METER_LEVEL + 16 * 1152) : regDefault a = 0 := by
  have hblock : a / 0x10000 = 11 := by simp only [Reg.XPT_METER_LEVEL] at hlo hhi; omega
  have hzero : tableReset a = 0 := by
    refine tableReset_eq_zero ?_
    rw [hblock]
    intro r hr hcov
    obtain ⟨hflat, hplace⟩ := regRowsXPT_meters r hr
    exact hplace.resolve_left fun hbelow => absurd (RegRow.le_of_covers hflat hcov) (by omega)
  rw [regDefault, mapReset, hblock, if_neg (by decide), hzero]
  rfl

/-! Every meter at a boundary. -/

/-- What meter m steps to at a boundary that measured `peaks`, with its words read from a register file. -/
def meterNext (s : State) (peaks : Sparse (Nat × Bool)) (regs : RegFile) (m : Nat) : (Nat × Nat × Nat) × Nat :=
  let a := Reg.XPT_METER_LEVEL + 16 * m
  let pk := Sparse.get (fun _ => (0, false)) peaks m
  let word := fun b => (Sparse.get regDefault regs b).toNat
  meterStep (getF s F.XPT_MDECAY_DK) (getF s F.XPT_MHOLD_FRAMES) pk.1 pk.2 (word a, word (a + 4), word (a + 8))
    (Sparse.getN s.xpt.holds m)

theorem meterNext_regs (s : State) (peaks : Sparse (Nat × Bool)) (m : Nat) :
    let a := Reg.XPT_METER_LEVEL + 16 * m
    let pk := Sparse.get (fun _ => (0, false)) peaks m
    meterNext s peaks s.regs m = meterStep (getF s F.XPT_MDECAY_DK) (getF s F.XPT_MHOLD_FRAMES) pk.1 pk.2
      (getR s a, getR s (a + 4), getR s (a + 8)) (Sparse.getN s.xpt.holds m) := rfl

/-- The words of meter m as registers. -/
def meterWords (m : Nat) (w : Nat × Nat × Nat) : RegFile :=
  let a := Reg.XPT_METER_LEVEL + 16 * m
  [(a, BitVec.ofNat 32 w.1), (a + 4, BitVec.ofNat 32 w.2.1), (a + 8, BitVec.ofNat 32 w.2.2)]

/-- The words of every meter. -/
def meterBlock (w : Nat → Nat × Nat × Nat) : RegFile := (List.range 1152).flatMap fun m => meterWords m (w m)

theorem rising_meterBlock (w : Nat → Nat × Nat × Nat) : Rising (meterBlock w) := by
  refine rising_flatMap (key := id) (base := Reg.XPT_METER_LEVEL) (stride := 16) List.pairwise_lt_range (fun m => ?_) fun m p hp => ?_
  · simp [Rising, meterWords]
  · simp only [meterWords, List.mem_cons, List.not_mem_nil, or_false] at hp
    rcases hp with rfl | rfl | rfl <;> simp

theorem meterBlock_congr {w w' : Nat → Nat × Nat × Nat} (h : ∀ m < 1152, w m = w' m) : meterBlock w = meterBlock w' :=
  List.flatMap_congr fun m hm => by rw [h m (List.mem_range.1 hm)]

theorem get_meterBlock {w : Nat → Nat × Nat × Nat} {m : Nat} (hm : m < 1152) {a : Nat} {v : Word} (h : (a, v) ∈ meterWords m (w m)) :
    Sparse.get regDefault (meterBlock w) a = v :=
  Sparse.get_of_mem regDefault (rising_meterBlock w) (List.mem_flatMap.2 ⟨m, List.mem_range.2 hm, h⟩)

/-- The counters of the meters that hold a peak. -/
def meterHolds (c : Nat → Nat) : Sparse Nat := ((List.range 1152).map fun m => (m, c m)).filter fun x => x.2 != 0

theorem meterHolds_congr {c c' : Nat → Nat} (h : ∀ m < 1152, c m = c' m) : meterHolds c = meterHolds c' :=
  congrArg (List.filter _) (List.map_congr_left fun m hm => by rw [h m (List.mem_range.1 hm)])

theorem getN_meterHolds {c : Nat → Nat} {m : Nat} (hm : m < 1152) : Sparse.getN (meterHolds c) m = c m := by
  have hrise : ((List.range 1152).map fun m => (m, c m)).Pairwise (·.1 < ·.1) := List.pairwise_map.2 List.pairwise_lt_range
  have hkeep : Sparse.getN (meterHolds c) m = Sparse.getN ((List.range 1152).map fun m => (m, c m)) m :=
    Sparse.get_filter _ hrise fun p _ _ hdrop => by simpa using hdrop
  rw [hkeep]
  exact Sparse.get_of_mem _ hrise (List.mem_map.2 ⟨m, List.mem_range.2 hm, rfl⟩)

/-- The registers that hold the words of the meters. -/
def meterRegs (s : State) : RegFile :=
  s.regs.filter fun p => decide (Reg.XPT_METER_LEVEL ≤ p.1) && decide (p.1 < Reg.XPT_METER_LEVEL + 16 * 1152)

theorem get_meterRegs {s : State} (hc : RegsCanonical s) {a : Nat} (hlo : Reg.XPT_METER_LEVEL ≤ a)
    (hhi : a < Reg.XPT_METER_LEVEL + 16 * 1152) : Sparse.get regDefault (meterRegs s) a = Sparse.get regDefault s.regs a := by
  refine Sparse.get_filter regDefault ((Sparse.wfFrom_iff regDefault s.regs 0).1 hc).1 ?_
  rintro p - rfl hdrop
  simp [hlo, hhi] at hdrop

/-- Every meter at rest: no word, no peak and no counter. -/
def MetersQuiet (s : State) (peaks : Sparse (Nat × Bool)) : Prop := meterRegs s = [] ∧ peaks = [] ∧ s.xpt.holds = []

theorem meterBoundary_quiet {s : State} {peaks : Sparse (Nat × Bool)} (h : MetersQuiet s peaks) : meterBoundary s peaks = s := by
  obtain ⟨hregs, hpeaks, hholds⟩ := h
  refine if_pos (?_ : ((meterRegs s).isEmpty && peaks.isEmpty && s.xpt.holds.isEmpty) = true)
  simp [hregs, hpeaks, hholds]

/-- Every meter takes the words and the counter that `g` names. -/
def metersTo (s : State) (g : Nat → (Nat × Nat × Nat) × Nat) : State :=
  { s with
    regs := Sparse.replaceRange regDefault s.regs Reg.XPT_METER_LEVEL (Reg.XPT_METER_LEVEL + 16 * 1152) (meterBlock fun m => (g m).1)
    xpt := { s.xpt with holds := meterHolds fun m => (g m).2 } }

theorem metersTo_congr (s : State) {g g' : Nat → (Nat × Nat × Nat) × Nat} (h : ∀ m < 1152, g m = g' m) :
    metersTo s g = metersTo s g' := by
  rw [metersTo, meterBlock_congr fun m hm => congrArg Prod.fst (h m hm), meterHolds_congr fun m hm => congrArg Prod.snd (h m hm)]
  rfl

theorem meterNext_meterRegs {s : State} (hc : RegsCanonical s) (peaks : Sparse (Nat × Bool)) {m : Nat} (hm : m < 1152) :
    meterNext s peaks (meterRegs s) m = meterNext s peaks s.regs m := by
  simp only [meterNext]
  rw [get_meterRegs hc (by omega) (by omega), get_meterRegs hc (by omega) (by omega), get_meterRegs hc (by omega) (by omega)]

/-- Where some meter is not at rest, each takes its step. -/
theorem meterBoundary_eq {s : State} {peaks : Sparse (Nat × Bool)} (hc : RegsCanonical s) (h : ¬ MetersQuiet s peaks) :
    meterBoundary s peaks = metersTo s (meterNext s peaks s.regs) := by
  have hrun : ¬ ((meterRegs s).isEmpty && peaks.isEmpty && s.xpt.holds.isEmpty) = true := by
    simpa [MetersQuiet, and_assoc] using h
  rw [← metersTo_congr s fun m hm => meterNext_meterRegs hc peaks hm]
  refine (if_neg hrun).trans ?_
  simp only [metersTo, meterBlock, meterHolds, List.flatMap_map, List.filter_map, List.map_map]
  rfl

theorem holds_metersTo (s : State) (g : Nat → (Nat × Nat × Nat) × Nat) :
    (metersTo s g).xpt.holds = meterHolds fun m => (g m).2 := by simp only [metersTo]

theorem getR_metersTo (s : State) (g : Nat → (Nat × Nat × Nat) × Nat) {m : Nat} (hm : m < 1152) :
    let a := Reg.XPT_METER_LEVEL + 16 * m
    getR (metersTo s g) a = (g m).1.1 % 2 ^ 32 ∧ getR (metersTo s g) (a + 4) = (g m).1.2.1 % 2 ^ 32 ∧
      getR (metersTo s g) (a + 8) = (g m).1.2.2 % 2 ^ 32 := by
  intro a
  have hword {b v : Nat} (hlo : a ≤ b) (hhi : b < a + 16) (h : (b, BitVec.ofNat 32 v) ∈ meterWords m (g m).1) :
      getR (metersTo s g) b = v % 2 ^ 32 := by
    have hget := Sparse.get_replaceRange_inside regDefault s.regs (rising_meterBlock fun m => (g m).1)
      (lo := Reg.XPT_METER_LEVEL) (hi := Reg.XPT_METER_LEVEL + 16 * 1152) (b := b) (by omega) (by omega)
    rw [get_meterBlock hm h] at hget
    rw [getR, metersTo, hget, BitVec.toNat_ofNat]
  refine ⟨hword ?_ ?_ ?_, hword ?_ ?_ ?_, hword ?_ ?_ ?_⟩ <;> simp [meterWords, a]

/-- At rest a meter's words read 0, and its step keeps them there. -/
theorem MetersQuiet.next {s : State} {peaks : Sparse (Nat × Bool)} (h : MetersQuiet s peaks) {m : Nat} (hm : m < 1152) :
    (∀ i < 16, getR s (Reg.XPT_METER_LEVEL + 16 * m + i) = 0) ∧ (meterNext s peaks s.regs m).1 = (0, 0, 0) := by
  obtain ⟨hregs, rfl, hholds⟩ := h
  have hword (i : Nat) (hi : i < 16) : getR s (Reg.XPT_METER_LEVEL + 16 * m + i) = 0 := by
    rw [getR, Sparse.get_of_not_mem, regDefault_meter (by omega) (by omega)]
    · rfl
    · intro p hp hkey
      have hall := List.filter_eq_nil_iff.1 hregs p hp
      rw [hkey] at hall
      simp only [Bool.and_eq_true, decide_eq_true_eq] at hall
      omega
  refine ⟨hword, ?_⟩
  have hlevel : getR s (Reg.XPT_METER_LEVEL + 16 * m) = 0 := hword 0 (by decide)
  rw [meterNext_regs, hlevel, hword 4 (by decide), hword 8 (by decide)]
  simp [meterStep, Sparse.get]

/-- The words of every meter after a boundary, whether the meters rest or not (R197). -/
theorem getR_meterBoundary {s : State} (peaks : Sparse (Nat × Bool)) (hc : RegsCanonical s) {m : Nat} (hm : m < 1152) :
    let a := Reg.XPT_METER_LEVEL + 16 * m
    let r := meterNext s peaks s.regs m
    getR (meterBoundary s peaks) a = r.1.1 % 2 ^ 32 ∧ getR (meterBoundary s peaks) (a + 4) = r.1.2.1 % 2 ^ 32 ∧
      getR (meterBoundary s peaks) (a + 8) = r.1.2.2 % 2 ^ 32 := by
  by_cases h : MetersQuiet s peaks
  · obtain ⟨hword, hnext⟩ := h.next hm
    simp only [meterBoundary_quiet h, hnext]
    exact ⟨hword 0 (by decide), hword 4 (by decide), hword 8 (by decide)⟩
  · simp only [meterBoundary_eq hc h]
    exact getR_metersTo s (meterNext s peaks s.regs) hm

/-- The hold counter of a meter that measures sound or holds a peak. -/
theorem holds_meterBoundary {s : State} {peaks : Sparse (Nat × Bool)} (hc : RegsCanonical s) {m : Nat} (hm : m < 1152)
    (hlive : 0 < (Sparse.get (fun _ => (0, false)) peaks m).1 ∨ 0 < getR s (Reg.XPT_METER_LEVEL + 16 * m + 4)) :
    Sparse.getN (meterBoundary s peaks).xpt.holds m = (meterNext s peaks s.regs m).2 := by
  have hrun : ¬ MetersQuiet s peaks := by
    intro h
    have hhold := (h.next hm).1 4 (by decide)
    obtain ⟨-, rfl, -⟩ := h
    simp only [hhold, Sparse.get, lt_irrefl, or_self] at hlive
  rw [meterBoundary_eq hc hrun, holds_metersTo]
  exact getN_meterHolds hm

/-- Settles O42: a node's two changes before and from its frame, the three outcomes of a write, the table a preset builds, and the
meters one by one out of the block of registers a boundary writes. -/
theorem nodeRampsAndMeters : Obligations.NodeRampsAndMeters := by
  unfold Obligations.NodeRampsAndMeters
  refine ⟨?ramps, ?writes, ?presets, ?terms, ?meter, ?boundary⟩
  case ramps =>
    intro tbl out inp code g n hinp x y g0 len
    have hy : y = rampedNode x g code n := (nodeOf_setNode tbl out g code n out hinp hinp).trans (if_pos ⟨rfl, rfl⟩)
    rw [hy]
    refine ⟨rampedNode_gain_earlier x g code n, fun m k hm hk => rampedNode_gain x g code hm hk, fun o i hi hne => ?_⟩
    rw [nodeOf_setNode tbl out g code n o hi hinp, if_neg fun h => hne (Prod.ext h.1 h.2)]
  case writes =>
    intro s v out inp g full t
    have ht : t = advanceNsel (nodeWrite s v) inp := commitWord_ngain s v
    refine ⟨fun habsent hbus => ?_, fun h => commitWord_ngain_rejected (nodeWrite_rejected h), fun hthere hin hroom => ?_, ?_⟩
    · have hw := nodeWrite_absent v habsent hbus
      obtain ⟨hxpt, hcount⟩ := commitWord_ngain_rejected hw
      exact ⟨hxpt, by rw [ht, advanceNsel_log, hw, nodeReject_log], hcount⟩
    · rw [ht, advanceNsel_xpt, getR_advanceNsel, nodeWrite_taken hthere hin hroom]
      exact ⟨rfl, rfl⟩
    · rw [ht, getF_advanceNsel, getF_nodeWrite s v _ rfl, getF_nodeWrite s v _ rfl]
  case presets =>
    intro l n m out inp k g hin hmem hone
    rw [presetNodes_eq, nodeOf_foldl_putPreset n [] hin hone (hin _ hmem) (.inl hmem), presetNode_gain]
  case terms => exact fun x xin n out inp k hinp hk hact hlen => xptTerms_single_getD xin out hinp hk hact hlen
  case meter =>
    exact fun dk hold p cnt lv hd cl clip => ⟨meterStep_level dk hold p cnt lv hd cl clip, meterStep_clip dk hold p cnt lv hd cl clip,
      meterStep_peak dk hold lv cl clip, meterStep_held dk hold lv cl clip, meterStep_falls dk hold lv cl clip⟩
  case boundary =>
    intro s peaks m hm hc
    obtain ⟨hlevel, hhold, hclip⟩ := getR_meterBoundary peaks hc hm
    exact ⟨hlevel, hhold, hclip, holds_meterBoundary hc hm⟩

end Sys2Proof.Machine
end

section
/-! SUPPORT. What firmware runs for the staging area, the cut, the reel and its own images, and the branches of each. -/

namespace Sys2Proof.Machine

open Sys2Proof

/-! Commands that firmware runs while no resynchronisation owns the staging area (R465). -/

theorem fwExec_stageBegin {s : State} (h : pairOwnsStaging s = false) (n g : Nat) (ctx : Ctx) :
    fwExec s (.stageBegin n g) ctx = stageBegin s n g (some ctx) := if_neg (not_heldBack h _)

theorem fwExec_stageData {s : State} (h : pairOwnsStaging s = false) (o : Nat) (d : Bytes) (ctx : Ctx) :
    fwExec s (.stageData o d) ctx = stageData s o d (some ctx) := if_neg (not_heldBack h _)

theorem fwExec_stageEnd {s : State} (h : pairOwnsStaging s = false) (ctx : Ctx) :
    fwExec s .stageEnd ctx = stageEnd s (some ctx) := if_neg (not_heldBack h _)

theorem fwExec_stageFromReel {s : State} (h : pairOwnsStaging s = false) (k : Nat) (ctx : Ctx) :
    fwExec s (.stageFromReel k) ctx = stageFromReel s k (some ctx) := if_neg (not_heldBack h _)

theorem fwExec_stageDiscard {s : State} (h : pairOwnsStaging s = false) (ctx : Ctx) :
    fwExec s .stageDiscard ctx = if s.take.stage = .scheduled then reply s ctx .cutPending [] else pendOp s .stageDiscard ctx :=
  if_neg (not_heldBack h _)

theorem fwExec_cut {s : State} (h : pairOwnsStaging s = false) (m x t0 t1 : Nat) (g : Bytes) (ctx : Ctx) :
    fwExec s (.cut m x t0 t1 g) ctx = cutCommand s m x t0 t1 g (some ctx) := if_neg (not_heldBack h _)

theorem fwExec_cutCancel {s : State} (h : pairOwnsStaging s = false) (ctx : Ctx) :
    fwExec s .cutCancel ctx = pendOp s .cutCancel ctx := if_neg (not_heldBack h _)

/-! Commands that no resynchronisation holds back. -/

theorem not_heldBack_open (s : State) {op : CcpOp} (h : stagingOp (opcodeOf op) = false := by simp [stagingOp, opcodeOf]) :
    ¬ (pairOwnsStaging s && stagingOp (opcodeOf op)) = true := by simp [h]

theorem fwExec_reelBegin (s : State) (k n : Nat) (ctx : Ctx) : fwExec s (.reelBegin k n) ctx = reelBegin s k n (some ctx) :=
  if_neg (not_heldBack_open s)

theorem fwExec_reelData (s : State) (k o : Nat) (d : Bytes) (ctx : Ctx) :
    fwExec s (.reelData k o d) ctx = reelData s k o d (some ctx) := if_neg (not_heldBack_open s)

theorem fwExec_reelEnd (s : State) (k : Nat) (ctx : Ctx) : fwExec s (.reelEnd k) ctx = reelEnd s k (some ctx) :=
  if_neg (not_heldBack_open s)

theorem fwExec_reelDelete (s : State) (k : Nat) (ctx : Ctx) : fwExec s (.reelDelete k) ctx = reelDelete s k (some ctx) :=
  if_neg (not_heldBack_open s)

theorem fwExec_fwBegin (s : State) (i n : Nat) (ctx : Ctx) : fwExec s (.fwBegin i n) ctx = fwBegin s i n (some ctx) :=
  if_neg (not_heldBack_open s)

theorem fwExec_fwData (s : State) (o : Nat) (d : Bytes) (ctx : Ctx) : fwExec s (.fwData o d) ctx = fwData s o d (some ctx) :=
  if_neg (not_heldBack_open s)

theorem fwExec_fwEnd (s : State) (ctx : Ctx) : fwExec s .fwEnd ctx = fwEnd s (some ctx) := if_neg (not_heldBack_open s)

theorem fwExec_fwSwitch (s : State) (i f : Nat) (ctx : Ctx) : fwExec s (.fwSwitch i f) ctx = fwSwitch s i f (some ctx) :=
  if_neg (not_heldBack_open s)

/-! Loading the staging area (R221, R223). -/

theorem lengthOk_iff {n : Nat} : lengthOk n = true ↔ n % 16 = 0 ∧ 160 ≤ n ∧ n ≤ 8388608 := decide_eq_true_iff

theorem lengthOk_eq_false {n : Nat} (h : n % 16 ≠ 0 ∨ n < 160 ∨ 8388608 < n) : lengthOk n = false := by
  rw [Bool.eq_false_iff, ne_eq, lengthOk_iff]
  omega

theorem abandonCopy_idle {s : State} (h : s.take.copying = none) : abandonCopy s = s := by simp only [abandonCopy, h]

theorem stageBegin_scheduled {s : State} (h : s.take.stage = .scheduled) (n g : Nat) (ctx : Ctx) :
    stageBegin s n g (some ctx) = reply s ctx .cutPending [] := if_pos h

theorem stageBegin_format {s : State} {n g : Nat} (hs : s.take.stage ≠ .scheduled)
    (h : n % 16 ≠ 0 ∨ n < 160 ∨ 8388608 < n ∨ g = 0) (ctx : Ctx) : stageBegin s n g (some ctx) = reply s ctx .stageFormat [] := by
  have hbad : !lengthOk n ∨ g = 0 := by
    by_cases hg : g = 0
    · exact .inr hg
    · exact .inl (by rw [lengthOk_eq_false (by omega)]; rfl)
  exact (if_neg hs).trans (if_pos hbad)

theorem stageBegin_loads {s : State} {n g : Nat} (hs : s.take.stage ≠ .scheduled) (hc : s.take.stage ≠ .checking)
    (hidle : s.take.copying = none) (hn : lengthOk n = true) (hg : g ≠ 0) (ctx : Ctx) :
    stageBegin s n g (some ctx) =
      reply (setTake s { s.take with stage := .loading, named := some (n, g), bytes := zeroBytes n, staged := none }) ctx .ok [] := by
  have hgood : ¬ (!lengthOk n ∨ g = 0) := by simp [hn, hg]
  calc stageBegin s n g (some ctx) = startLoad s n g (some ctx) := (if_neg hs).trans ((if_neg hgood).trans (if_neg hc))
    _ = _ := by rw [startLoad, abandonCopy_idle hidle]; rfl

theorem stageData_closed {s : State} (h : s.take.stage ≠ .loading) (o : Nat) (d : Bytes) (ctx : Ctx) :
    stageData s o d (some ctx) = reply s ctx .stageState [] := if_pos (.inl h)

theorem stageEnd_closed {s : State} (h : s.take.stage ≠ .loading) (ctx : Ctx) :
    stageEnd s (some ctx) = reply s ctx .stageState [] := if_pos (.inl h)

section
variable {s : State} (hl : s.take.stage = .loading) (hidle : s.take.copying = none)
include hl hidle

theorem load_open : ¬ (s.take.stage ≠ .loading ∨ s.take.copying.isSome) := by simp [hl, hidle]

theorem stageData_fits {o : Nat} {d : Bytes} (h : o + d.length ≤ s.take.bytes.length) (ctx : Ctx) :
    stageData s o d (some ctx) = reply (setTake s { s.take with bytes := patchB s.take.bytes o d }) ctx .ok [] :=
  (if_neg (load_open hl hidle)).trans (if_neg (Nat.not_lt.2 h))

theorem stageData_over {o : Nat} {d : Bytes} (h : s.take.bytes.length < o + d.length) (ctx : Ctx) :
    stageData s o d (some ctx) = reply s ctx .stageFormat [] := (if_neg (load_open hl hidle)).trans (if_pos h)

theorem stageEnd_open (ctx : Ctx) : stageEnd s (some ctx) = setTake s { s.take with stage := .checking, ctx := some ctx } :=
  if_neg (load_open hl hidle)

end

theorem stageFromReel_scheduled {s : State} (h : s.take.stage = .scheduled) (k : Nat) (ctx : Ctx) :
    stageFromReel s k (some ctx) = reply s ctx .cutPending [] := if_pos h

theorem stageFromReel_empty {s : State} {k : Nat} (hs : s.take.stage ≠ .scheduled) (h : (slotOf s k).full = false) (ctx : Ctx) :
    stageFromReel s k (some ctx) = reply s ctx .reelEmpty [] := (if_neg hs).trans (if_pos (by simp [h]))

/-- The bytes of a full slot as its copy starts, and what reading them leaves: zeros where the usable DRAM does not hold them (R434). -/
def slotImage (s : State) (k : Nat) : Bytes × State :=
  if dramHolds s (reelAddr s k) (slotOf s k).len then memRead s (reelAddr s k) (slotOf s k).len 13 0
  else (zeroBytes (slotOf s k).len, s)

theorem stageFromReel_copies {s : State} {k : Nat} (hs : s.take.stage ≠ .scheduled) (hc : s.take.stage ≠ .checking)
    (hidle : s.take.copying = none) (hfull : (slotOf s k).full = true) (ctx : Ctx) :
    stageFromReel s k (some ctx) = setTake (slotImage s k).2 { (slotImage s k).2.take with
      stage := .loading, named := none, bytes := (slotImage s k).1, staged := none, copying := some k, ctx := some ctx } := by
  have hthere : ¬ (!(slotOf s k).full) = true := by simp [hfull]
  calc stageFromReel s k (some ctx) = startCopy s k (some ctx) := (if_neg hs).trans ((if_neg hthere).trans (if_neg hc))
    _ = _ := by
      rw [startCopy, if_neg hthere, abandonCopy_idle hidle]
      rfl

theorem stageDiscard_clears {s : State} (hs : s.take.stage ≠ .scheduled) (hc : s.take.stage ≠ .checking)
    (hidle : s.take.copying = none) (ctx : Ctx) : stageDiscard s (some ctx) = reply (stageClear s) ctx .ok [] := by
  calc stageDiscard s (some ctx) = reply (stageClear (abandonCopy s)) ctx .ok [] := (if_neg hc).trans (if_neg hs)
    _ = reply (stageClear s) ctx .ok [] := by rw [abandonCopy_idle hidle]

end Sys2Proof.Machine
end

section
/-! PROOF. O22: loading a take into the staging area. -/

namespace Sys2Proof.Machine

open Sys2Proof

/-- Settles O22: each command by its own branches, outside a resynchronisation. -/
theorem stagingCommands : Obligations.StagingCommands := by
  unfold Obligations.StagingCommands
  intro s ctx n g o k d free t put
  rw [fwExec_stageBegin free, fwExec_stageData free, fwExec_stageEnd free, fwExec_stageFromReel free, fwExec_stageDiscard free]
  refine ⟨fun h => ⟨stageBegin_scheduled h n g ctx, stageFromReel_scheduled h k ctx, if_pos h⟩,
    fun hs h => stageBegin_format hs h ctx,
    fun hs hc hidle h16 hlo hhi hg => stageBegin_loads hs hc hidle (lengthOk_iff.2 ⟨h16, hlo, hhi⟩) hg ctx,
    fun h => ⟨stageData_closed h o d ctx, stageEnd_closed h ctx⟩,
    fun hl hidle => ⟨fun h => stageData_fits hl hidle h ctx, fun h => stageData_over hl hidle h ctx, stageEnd_open hl hidle ctx⟩,
    fun hs h => stageFromReel_empty hs h ctx, fun hs hc hidle hfull => stageFromReel_copies hs hc hidle hfull ctx,
    fun hs => if_neg hs, fun hs hc hidle => stageDiscard_clears hs hc hidle ctx⟩

end Sys2Proof.Machine
end

section
/-! PROOF. O24: scheduling and cancelling a cut. -/

namespace Sys2Proof.Machine

open Sys2Proof

theorem cutCommand_scheduled {s : State} (h : s.take.stage = .scheduled) (m x t0 t1 : Nat) (g : Bytes) (ctx : Ctx) :
    cutCommand s m x t0 t1 g (some ctx) = cutReject s (some ctx) .cutPending := by simp only [cutCommand, h]

theorem cutCommand_notStaged {s : State} (hs : s.take.stage ≠ .scheduled) (hc : s.take.stage ≠ .checked) (m x t0 t1 : Nat)
    (g : Bytes) (ctx : Ctx) : cutCommand s m x t0 t1 g (some ctx) = cutReject s (some ctx) .notStaged := by
  unfold cutCommand
  extract_lets
  split
  next h => exact absurd h hs
  next h _ => exact absurd h hc
  next => rfl

/-- A checked take takes the cut when its digest is the one named and its frame is not the next or an earlier one (R225). -/
theorem cutCommand_checked {s : State} {x : Take} (hc : s.take.stage = .checked) (hx : s.take.staged = some x) (m hard t0 t1 : Nat)
    (g : Bytes) (ctx : Ctx) :
    let f := if m = 0 then t0 else frameOfPtp s.tl.rate t0 t1
    cutCommand s m hard t0 t1 g (some ctx) =
      if g ≠ x.digest then cutReject s (some ctx) .digestMismatch
      else if f ≤ s.tl.frame + 1 then cutReject s (some ctx) .framePast
      else reply (setTake s { s.take with stage := .scheduled, cut := some (f, hard == 1) }) ctx .ok (beBytes 8 f) := by
  simp only [cutCommand, hc, hx, replyTo]

/-- The frame in whose period a PTP time lies, rounded up (R15). -/
theorem frameOfPtp_eq (rate sec ns : Nat) :
    frameOfPtp rate sec ns = ((sec * 1000000000 + ns) * fsOf rate + 15999999999) / 16000000000 :=
  congrArg (· / 16000000000) (Nat.add_sub_assoc (by decide) _)

/-- Settles O24: each command by its own branches, outside a resynchronisation. -/
theorem cutCommands : Obligations.CutCommands := by
  unfold Obligations.CutCommands
  intro s ctx mode hard t0 t1 g x free _
  rw [fwExec_cut free, fwExec_cutCancel free, ← frameOfPtp_eq]
  intro rejected f cut
  refine ⟨fun h => cutCommand_scheduled h mode hard t0 t1 g ctx, fun hs hc => cutCommand_notStaged hs hc mode hard t0 t1 g ctx,
    fun hc hx => ?checked, rfl, fun h => if_pos h, fun h => if_neg h⟩
  case checked =>
    rw [show cut = _ from cutCommand_checked hc hx mode hard t0 t1 g ctx]
    exact ⟨fun hg => if_pos hg, fun hg hf => (if_neg (not_not.2 hg)).trans (if_pos hf),
      fun hg hf => (if_neg (not_not.2 hg)).trans (if_neg (Nat.not_le.2 hf))⟩

end Sys2Proof.Machine
end

section
/-! PROOF. O25: loading, deleting and listing the reel. -/

namespace Sys2Proof.Machine

open Sys2Proof

theorem reelBegin_format {s : State} {n : Nat} (h : n % 16 ≠ 0 ∨ n < 160 ∨ 8388608 < n) (k : Nat) (ctx : Ctx) :
    reelBegin s k n (some ctx) = reply s ctx .stageFormat [] := if_pos (by rw [lengthOk_eq_false h]; rfl)

/-- A load of a fitting length empties its slot, and opens where the usable DRAM holds it (R219, R409). -/
theorem reelBegin_fits {s : State} {n : Nat} (h : lengthOk n = true) (k : Nat) (ctx : Ctx) :
    let emptied := setSlot s k ReelSlot.empty
    reelBegin s k n (some ctx) =
      if dramHolds s (reelAddr s k) n then reply (setTake emptied { emptied.take with reelLoad := some (k, n) }) ctx .ok []
      else reply (setTake emptied { emptied.take with reelLoad := none }) ctx .stageFormat [] := if_neg (by simp [h])

theorem reelData_closed {s : State} (h : s.take.reelLoad = none) (k o : Nat) (d : Bytes) (ctx : Ctx) :
    reelData s k o d (some ctx) = reply s ctx .reelState [] := by simp only [reelData, h, replyTo]

theorem reelEnd_closed {s : State} (h : s.take.reelLoad = none) (k : Nat) (ctx : Ctx) :
    reelEnd s k (some ctx) = reply s ctx .reelState [] := by simp only [reelEnd, h, replyTo]

theorem reelData_other {s : State} {j k n : Nat} (h : s.take.reelLoad = some (j, n)) (hj : j ≠ k) (o : Nat) (d : Bytes) (ctx : Ctx) :
    reelData s k o d (some ctx) = reply s ctx .reelState [] := by
  simp only [reelData, h]
  exact if_pos hj

theorem reelEnd_other {s : State} {j k n : Nat} (h : s.take.reelLoad = some (j, n)) (hj : j ≠ k) (ctx : Ctx) :
    reelEnd s k (some ctx) = reply s ctx .reelState [] := by
  simp only [reelEnd, h]
  exact if_pos hj

section
variable {s : State} {k n : Nat} (h : s.take.reelLoad = some (k, n))
include h

theorem reelData_open (o : Nat) (d : Bytes) (ctx : Ctx) : reelData s k o d (some ctx) =
    if o + d.length > n ∨ !dramHolds s (reelAddr s k) n then reply s ctx .stageFormat []
    else reply (dramWrite s 13 0 (reelAddr s k + o) d) ctx .ok [] := by
  simp only [reelData, h]
  exact if_neg (not_not.2 rfl)

theorem reelEnd_noDram (hd : ¬ dramHolds s (reelAddr s k) n = true) (ctx : Ctx) :
    reelEnd s k (some ctx) = reply (setTake s { s.take with reelLoad := none }) ctx .stageFormat [] := by
  simp only [reelEnd, h]
  exact (if_neg (not_not.2 rfl)).trans (if_pos (by simp [hd]))

/-- The end of a load tests the container as read back: its header, the places of its sections, and every SCRC (R219). -/
theorem reelEnd_dram (hd : dramHolds s (reelAddr s k) n = true) (ctx : Ctx) :
    let b := memRead s (reelAddr s k) n 13 0
    let ended := setTake b.2 { b.2.take with reelLoad := none }
    reelEnd s k (some ctx) =
      if !headerOk b.1 || decide (48 + 16 * beAt b.1 6 2 > n) || (directory b.1).any (fun e => decide (e.ofs + e.len > n)) then
        reply ended ctx .stageFormat []
      else if (badCrc (directory b.1)).isSome then reply ended ctx .stageCrc []
      else reply (setSlot ended k { full := true, len := n, slate := beAt b.1 8 4, digest := sliceB b.1 16 16 }) ctx .ok [] := by
  simp only [reelEnd, h]
  exact (if_neg (not_not.2 rfl)).trans (if_neg (by simp [hd]))

end

/-- Settles O25: each command by its own branches. -/
theorem reelCommands : Obligations.ReelCommands := by
  unfold Obligations.ReelCommands
  intro s ctx k n o d _ b ended holds emptied
  rw [fwExec_reelBegin, fwExec_reelData, fwExec_reelEnd, fwExec_reelDelete]
  refine ⟨fun h => reelBegin_format h k ctx, fun h16 hlo hhi => ?begin, fun h => ⟨reelData_closed h k o d ctx, reelEnd_closed h k ctx⟩,
    fun j h hj => ⟨reelData_other h hj o d ctx, reelEnd_other h hj ctx⟩, fun h hd hfit => ?stores, fun h hbad => ?tooLong,
    fun h hd => reelEnd_noDram h hd ctx, fun h hd hhead => ?header, fun h hd hhead hdir hsect => ?crc, rfl⟩
  case begin =>
    rw [reelBegin_fits (lengthOk_iff.2 ⟨h16, hlo, hhi⟩)]
    exact ⟨fun hd => if_pos hd, fun hd => if_neg hd⟩
  case stores =>
    have hd' : dramHolds s (reelAddr s k) n = true := hd
    rw [reelData_open h]
    exact if_neg (by simp [hd', hfit])
  case tooLong =>
    rw [reelData_open h]
    exact if_pos (hbad.imp_right fun hd => by simpa [holds] using hd)
  case header =>
    rw [reelEnd_dram h hd]
    exact if_pos (by simp [b, hhead])
  case crc =>
    have htest : ¬ (!headerOk b.1 || decide (48 + 16 * beAt b.1 6 2 > n) ||
        (directory b.1).any fun e => decide (e.ofs + e.len > n)) = true := by simp [hhead, hdir, hsect]
    rw [reelEnd_dram h hd]
    refine ⟨fun hcrc => (if_neg htest).trans (if_pos (Option.isSome_iff_ne_none.2 hcrc)), fun hcrc => (if_neg htest).trans (if_neg ?_)⟩
    simp [b, hcrc]

end Sys2Proof.Machine
end

section
/-! PROOF. O23: how the check of a staged take ends. -/

namespace Sys2Proof.Machine

open Sys2Proof

/-! Storing the images of a take leaves the takes and the registers alone (R186). -/

theorem loadImages_take (s : State) (t : Take) (k : Nat) : (loadImages s t k).take = s.take :=
  (foldl_keeps State.take _ (fun u x => by split <;> rfl) _ _).trans (foldl_keeps State.take _ (fun u x => by split <;> rfl) _ _)

theorem loadImages_regs (s : State) (t : Take) (k : Nat) : (loadImages s t k).regs = s.regs :=
  (foldl_keeps State.regs _ (fun u x => by split <;> rfl) _ _).trans (foldl_keeps State.regs _ (fun u x => by split <;> rfl) _ _)

theorem stageImages_take (s : State) (t : Take) : (stageImages s t).take = s.take := by
  unfold stageImages
  extract_lets clash
  split
  · rfl
  · exact foldl_keeps State.take _ (fun u k => loadImages_take u t k) _ _

theorem stageImages_regs (s : State) (t : Take) : (stageImages s t).regs = s.regs := by
  unfold stageImages
  extract_lets clash
  split
  · rfl
  · exact foldl_keeps State.regs _ (fun u k => loadImages_regs u t k) _ _

/-! The check, step by step (R222). -/

section
variable {s : State} (hs : s.take.stage = .checking) (hw : s.take.waiting = false)
include hs hw

/-- A check in progress goes through the steps before step 7 first (R222). -/
theorem checkDone_checking : checkDone s =
    match checkEarly s s.take.bytes s.take.named with
    | .error e => checkEnds s (.error e)
    | .ok t =>
      if bankHeld s then setTake s { s.take with waiting := true }
      else match inconsistent s t with
        | some sect => checkEnds s (.error (.inconsistent, sect))
        | none => checkEnds s (.ok t) := if_neg (by simp [hs, hw])

theorem checkDone_error {e : CheckFail × Nat} (h : checkEarly s s.take.bytes s.take.named = .error e) :
    checkDone s = checkEnds s (.error e) := by
  rw [checkDone_checking hs hw]
  simp only [h]

variable {x : Take} (hx : checkEarly s s.take.bytes s.take.named = .ok x)
include hx

theorem checkDone_held (hb : bankHeld s = true) : checkDone s = setTake s { s.take with waiting := true } := by
  rw [checkDone_checking hs hw]
  simp only [hx, hb, if_true]

theorem checkDone_inconsistent (hb : bankHeld s = false) {sect : Nat} (hi : inconsistent s x = some sect) :
    checkDone s = checkEnds s (.error (.inconsistent, sect)) := by
  rw [checkDone_checking hs hw]
  simp only [hx, hb, hi, Bool.false_eq_true, if_false]

theorem checkDone_ok (hb : bankHeld s = false) (hi : inconsistent s x = none) : checkDone s = checkEnds s (.ok x) := by
  rw [checkDone_checking hs hw]
  simp only [hx, hb, hi, Bool.false_eq_true, if_false]

end

/-- The area as a check ends: no reply is owed and nothing waits. -/
def checkOver (s : State) : State := setTake s { s.take with ctx := none, waiting := false }

/-- The slate a failed check is recorded with: the one the load named, or the container's (R221). -/
def checkedSlate (s : State) : Nat := match s.take.named with | some n => n.2 | none => beAt s.take.bytes 8 4

theorem checkedSlate_cast (s : State) : (checkedSlate s : Int) =
    match s.take.named with | some n => (n.2 : Int) | none => (beAt s.take.bytes 8 4 : Int) := by
  unfold checkedSlate
  cases s.take.named <;> rfl

/-- A check that failed with nothing behind it: the area is FAILED, and its command is answered (R221). -/
theorem checkEnds_error {s : State} (hn : s.take.next = []) (e : CheckFail × Nat) : checkEnds s (.error e) =
    replyTo (stageFail (checkOver s) e.1.status e.2 (checkedSlate s)) s.take.ctx e.1.status [] :=
  if_neg (not_not.2 hn)

/-- A check that passed with nothing behind it: the area is CHECKED, its images are loaded, and its command is answered (R221, R186). -/
theorem checkEnds_ok {s : State} (hn : s.take.next = []) (x : Take) : checkEnds s (.ok x) =
    raise (replyTo (stageImages (setTake (checkOver s) { (checkOver s).take with stage := .checked, staged := some x }) x)
      s.take.ctx .ok []) 12 1 :=
  if_neg (not_not.2 hn)

theorem checkResume_free {s : State} (hw : s.take.waiting = true) (hb : bankHeld s = false) :
    checkResume s = checkDone (setTake s { s.take with waiting := false }) := if_pos (by simp [hw, hb])

theorem copyDone_copying {s : State} {k : Nat} (h : s.take.copying = some k) :
    copyDone s = setTake s { s.take with stage := .checking, copying := none } := by simp only [copyDone, h]

theorem exec_stageCheckDone (s : State) : exec .stageCheckDone s = .next (checkDone s) := rfl
theorem exec_stageCheckResume (s : State) : exec .stageCheckResume s = .next (checkResume s) := rfl
theorem exec_reelCopyDone (s : State) : exec .reelCopyDone s = .next (copyDone s) := rfl

/-- Settles O23: the check step by step, and what each of its two ends leaves. -/
theorem stagingCheckEnds : Obligations.StagingCheckEnds := by
  unfold Obligations.StagingCheckEnds
  intro s hs hw hn
  rw [exec_stageCheckDone]
  intro early ended slate failed checked
  have hslate : slate = (checkedSlate s : Int) := (checkedSlate_cast s).symm
  have hfailed (st : Status) (sect : Nat) :
      failed st sect = replyTo (stageFail (checkOver s) st sect (checkedSlate s)) s.take.ctx st [] := by
    simp only [failed, hslate]
    rfl
  refine ⟨fun e he => ?error, fun x hx hb => ?held, fun x hx hb => ⟨fun sect hi => ?inconsistent, fun hi => ?ok⟩,
    fun x u => ⟨stageImages_take u x, stageImages_regs u x⟩, fun r hr hb _ => ?resume, fun r k hk => ?copied⟩
  case error => rw [checkDone_error hs hw he, checkEnds_error hn, hfailed]
  case held =>
    rw [checkDone_held hs hw hx hb]
    rfl
  case inconsistent =>
    rw [checkDone_inconsistent hs hw hx hb hi, checkEnds_error hn, hfailed]
    rfl
  case ok =>
    rw [checkDone_ok hs hw hx hb hi, checkEnds_ok hn]
    rfl
  case resume =>
    rw [exec_stageCheckResume, exec_stageCheckDone, checkResume_free hr hb]
    rfl
  case copied =>
    rw [exec_reelCopyDone, copyDone_copying hk]
    rfl

end Sys2Proof.Machine
end

section
/-! SUPPORT. What the engines leave alone as they take up an incoming take or drain a master. They report errors, count, log, and write
memory and their own registers: the streams, the firmware and its queue stay, and TAKE_CUTS keeps its count. The lemmas follow the model
file by file, one per operation. -/

namespace Sys2Proof.Machine

open Sys2Proof

/-- From `o` on, the streams, the firmware with its queue, and TAKE_CUTS have stayed as they were. -/
structure EngineFrame (o s : State) : Prop where
  strm : s.strm = o.strm
  fw : s.fw = o.fw
  fwQ : s.ccp.fwQ = o.ccp.fwQ
  cuts : getR s Reg.TAKE_CUTS = getR o Reg.TAKE_CUTS

theorem ne_cuts_below {a : Nat} (h : a < 0xC0000) : a ≠ Reg.TAKE_CUTS := by
  simp only [Reg.TAKE_CUTS]
  omega

theorem ne_cuts_above {a : Nat} (h : 0xD0000 ≤ a) : a ≠ Reg.TAKE_CUTS := by
  simp only [Reg.TAKE_CUTS]
  omega

theorem intStatAt_ne_cuts {n a : Nat} (ha : intStatAt n = some a) : a ≠ Reg.TAKE_CUTS := by
  rintro rfl
  unfold intStatAt at ha
  split at ha
  all_goals exact absurd ha (by decide)

variable {o : State}

theorem EngineFrame.refl (s : State) : EngineFrame s s := ⟨rfl, rfl, rfl, rfl⟩

theorem EngineFrame.trans {s t : State} (h : EngineFrame o s) (k : EngineFrame s t) : EngineFrame o t :=
  ⟨k.strm.trans h.strm, k.fw.trans h.fw, k.fwQ.trans h.fwQ, k.cuts.trans h.cuts⟩

/-- The other fields may change, and of the command engine all but the firmware queue. -/
theorem EngineFrame.keep {s : State} (h : EngineFrame o s) {pending hw view latch tl log ccp pwr portA portB time clk geo path kpu disp fab
    cnv xpt take pipe pair lio dram mem rdata freeCtr} (hq : ccp.fwQ = s.ccp.fwQ := by rfl) :
    EngineFrame o ⟨pending, hw, s.regs, view, latch, tl, log, ccp, pwr, portA, portB, time, clk, geo, path, kpu, disp, fab, s.fw, cnv, xpt,
      s.strm, take, pipe, pair, lio, dram, mem, rdata, freeCtr⟩ :=
  ⟨h.strm, h.fw, hq.trans h.fwQ, h.cuts⟩

/-- One step after another, where the second names its state more than once. -/
theorem EngineFrame.andThen {s t : State} (h : EngineFrame o s) (k : EngineFrame o s → EngineFrame o t) : EngineFrame o t := k h

/-- The state of a pair that was taken apart by a `match`. -/
theorem EngineFrame.of_eq {α : Type} {q : α × State} {a : α} {s : State} (h : EngineFrame o q.2) (e : q = (a, s)) :
    EngineFrame o s := by subst e; exact h

theorem EngineFrame.ite {c : Prop} [Decidable c] {a b : State} (ha : EngineFrame o a) (hb : EngineFrame o b) :
    EngineFrame o (if c then a else b) := by split; exacts [ha, hb]

theorem EngineFrame.iteFst {β : Type} {c : Prop} [Decidable c] {a b : State × β} (ha : EngineFrame o a.1) (hb : EngineFrame o b.1) :
    EngineFrame o (if c then a else b).1 := by split; exacts [ha, hb]

theorem EngineFrame.iteSnd {β : Type} {c : Prop} [Decidable c] {a b : β × State} (ha : EngineFrame o a.2) (hb : EngineFrame o b.2) :
    EngineFrame o (if c then a else b).2 := by split; exacts [ha, hb]

theorem EngineFrame.foldl {α : Type} {f : State → α → State} {l : List α} {s : State} (h : EngineFrame o s)
    (step : ∀ t x, EngineFrame o t → EngineFrame o (f t x)) : EngineFrame o (l.foldl f s) :=
  foldl_invariant _ f step l s h

theorem EngineFrame.foldlFst {α β : Type} {f : State × β → α → State × β} {l : List α} {a : State × β} (h : EngineFrame o a.1)
    (step : ∀ t x, EngineFrame o t.1 → EngineFrame o (f t x).1) : EngineFrame o (l.foldl f a).1 :=
  foldl_invariant (fun a => EngineFrame o a.1) f step l a h

theorem EngineFrame.foldlSnd {α β : Type} {f : β × State → α → β × State} {l : List α} {a : β × State} (h : EngineFrame o a.2)
    (step : ∀ t x, EngineFrame o t.2 → EngineFrame o (f t x).2) : EngineFrame o (l.foldl f a).2 :=
  foldl_invariant (fun a => EngineFrame o a.2) f step l a h

/-- A fold whose steps may use that the element is one of the list. -/
theorem EngineFrame.foldlMem {α : Type} {f : State → α → State} {l : List α} {s : State} (h : EngineFrame o s)
    (step : ∀ t, ∀ x ∈ l, EngineFrame o t → EngineFrame o (f t x)) : EngineFrame o (l.foldl f s) := by
  induction l generalizing s with
  | nil => exact h
  | cons x l ih => exact ih (step s x List.mem_cons_self h) fun t y hy => step t y (List.mem_cons_of_mem x hy)

/-! Registers, causes, events. -/

theorem EngineFrame.setR {s : State} {a v : Nat} (h : EngineFrame o s) (ha : a ≠ Reg.TAKE_CUTS := by decide) :
    EngineFrame o (setR s a v) := ⟨h.strm, h.fw, h.fwQ, (getR_setR_ne s a v _ ha.symm).trans h.cuts⟩

theorem EngineFrame.setF {s : State} {f : Fld} {v : Nat} (h : EngineFrame o s) (hf : f.addr ≠ Reg.TAKE_CUTS := by decide) :
    EngineFrame o (setF s f v) := h.setR hf

theorem EngineFrame.addCtr {s : State} {a n : Nat} (h : EngineFrame o s) (ha : a ≠ Reg.TAKE_CUTS := by decide) :
    EngineFrame o (addCtr s a n) := h.setR ha

theorem EngineFrame.setR64 {s : State} {lo hi v : Nat} (h : EngineFrame o s) (hlo : lo ≠ Reg.TAKE_CUTS := by decide)
    (hhi : hi ≠ Reg.TAKE_CUTS := by decide) : EngineFrame o (setR64 s lo hi v) := (h.setR hlo).setR hhi

theorem sendVector_fwQ (s : State) (n : Nat) : (sendVector s n).ccp.fwQ = s.ccp.fwQ := by
  unfold sendVector
  split
  · rfl
  · split <;> rfl

theorem sendRisen_fwQ (s t : State) : (sendRisen s t).ccp.fwQ = t.ccp.fwQ :=
  foldl_keeps (fun u : State => u.ccp.fwQ) _ (fun u n => by
    split
    · exact sendVector_fwQ u n
    · rfl) _ _

@[simp] theorem raise_fwQ (s : State) (n b : Nat) : (raise s n b).ccp.fwQ = s.ccp.fwQ := by
  unfold raise
  split
  · exact sendRisen_fwQ _ _
  · rfl

theorem EngineFrame.setEvent {s : State} {a m : Nat} (h : EngineFrame o s) (ha : a ≠ Reg.TAKE_CUTS := by decide) :
    EngineFrame o (setEvent s a m) := (h.setR ha).keep

theorem EngineFrame.raise {s : State} {n b : Nat} (h : EngineFrame o s) : EngineFrame o (raise s n b) := by
  unfold Machine.raise
  split
  next a ha =>
    rw [sendRisen_eq]
    exact (h.setEvent (intStatAt_ne_cuts ha)).keep (sendRisen_fwQ _ _)
  next => exact h

theorem EngineFrame.pushEvent {s e} (h : EngineFrame o s) : EngineFrame o (pushEvent s e) := .ite h.keep h.keep
theorem EngineFrame.logEv {s code payload} (h : EngineFrame o s) : EngineFrame o (logEv s code payload) := h.pushEvent
theorem EngineFrame.logCommit {s code payload} (h : EngineFrame o s) : EngineFrame o (logCommit s code payload) := h.pushEvent
theorem EngineFrame.logRun {s code payload run first} (h : EngineFrame o s) : EngineFrame o (logRun s code payload run first) :=
  h.pushEvent
theorem EngineFrame.freeBits {w s} (h : EngineFrame o s) : EngineFrame o (freeBits w s).2 := h.keep

/-! Memory, error correction and the fabric. -/

theorem EngineFrame.whole {s} {hit : Nat → Bool} (h : EngineFrame o s) : EngineFrame o (whole s hit) := .ite h h.keep
theorem EngineFrame.blockWrite {s a b} (h : EngineFrame o s) : EngineFrame o (blockWrite s a b) := h.keep.whole

theorem EngineFrame.capture {s mem kind m src a} (h : EngineFrame o s) : EngineFrame o (capture s mem kind m src a) :=
  .ite h h.setEvent.setR.setR64.setR64

theorem EngineFrame.eccReport {s k ue m src a} (h : EngineFrame o s) : EngineFrame o (eccReport s k ue m src a) := by
  unfold Machine.eccReport
  extract_lets counted cored captured x first
  have hcounted : EngineFrame o counted := h.addCtr (ne_cuts_above (by split <;> simp only [Reg.FAB_ECCUNC, Reg.FAB_ECCCOR] <;> omega))
  have hcored : EngineFrame o cored := .ite (hcounted.addCtr (by split <;> decide)) hcounted
  have hcaptured : EngineFrame o captured := hcored.capture
  have hx : EngineFrame o x := .ite hcaptured.raise hcaptured
  exact .ite hcaptured.raise (EngineFrame.raise (.ite hx.keep hx.keep.logRun))

theorem EngineFrame.eccRead {s a n m src} (h : EngineFrame o s) : EngineFrame o (eccRead s a n m src).2 :=
  h.foldlSnd fun _ _ h => by extract_lets; split; exacts [h.eccReport, h]

theorem EngineFrame.memWrite {s a b} (h : EngineFrame o s) : EngineFrame o (memWrite s a b) := h.keep

theorem EngineFrame.openWrite {s k size ps} (h : EngineFrame o s) : EngineFrame o (openWrite s k size ps) := .ite h h.whole

theorem EngineFrame.dramWord {s m src c w} (h : EngineFrame o s) : EngineFrame o (dramWord s m src c w) :=
  .ite h (.ite h.memWrite (.ite h.eccRead.addCtr h.eccRead.addCtr.memWrite))

theorem EngineFrame.dramCells {s m src a w} (h : EngineFrame o s) : EngineFrame o (dramCells s m src a w) :=
  h.foldl fun _ _ h => h.dramWord

theorem EngineFrame.dramWrite {s m src a d} (h : EngineFrame o s) : EngineFrame o (dramWrite s m src a d) :=
  .ite h.memWrite h.dramCells

theorem EngineFrame.burstWrite {s b d} (h : EngineFrame o s) : EngineFrame o (burstWrite s b d) := .ite h.dramWrite h.memWrite

theorem EngineFrame.publishDrains {s} (h : EngineFrame o s) : EngineFrame o (publishDrains s) :=
  h.setR.foldl fun _ _ h => h.setR (ne_cuts_above (by simp only [Reg.FAB_MSTAT]; omega))

theorem EngineFrame.masterReset {s m src beats more} (h : EngineFrame o s) : EngineFrame o (masterReset s m src beats more) := by
  unfold Machine.masterReset
  extract_lets n bursts fab drained
  have hbursts : EngineFrame o bursts := h.foldl fun _ _ h => by split; exacts [.ite h h.burstWrite, h]
  have hdrained : EngineFrame o drained := hbursts.keep
  split
  · exact hdrained.keep.publishDrains
  · exact .ite hdrained.addCtr.logEv.raise hdrained.keep.publishDrains

end Sys2Proof.Machine
end

section
/-! SUPPORT. What the engines leave alone at a cut, engine by engine. -/

namespace Sys2Proof.Machine

open Sys2Proof

-- These proofs are many and short; elaborated all at once, in one text with the model, they need more threads than fit in memory.
set_option Elab.async false

variable {o : State}

/-! The clock system (R350 to R371). -/

theorem EngineFrame.setServo {s p v} (h : EngineFrame o s) : EngineFrame o (setServo s p v) := .ite h.keep h.keep
theorem EngineFrame.servoState {s p st} (h : EngineFrame o s) : EngineFrame o (servoState s p st) := .ite h h.setServo.logEv.raise
theorem EngineFrame.noteRequest {s} (h : EngineFrame o s) : EngineFrame o (noteRequest s) := h.keep

theorem EngineFrame.steerPort {ycur s p} (h : EngineFrame o s) : EngineFrame o (steerPort ycur s p) :=
  .ite h (.ite (.ite h.setServo.servoState h.setServo) (.ite h.setServo.servoState h.setServo))

theorem EngineFrame.updateSteer {s} (h : EngineFrame o s) : EngineFrame o (updateSteer s) := by
  rw [updateSteer_eq]
  exact h.steerPort.steerPort.noteRequest

theorem EngineFrame.clkState {s st} (h : EngineFrame o s) : EngineFrame o (clkState s st) := .ite h h.keep.raise
theorem EngineFrame.clkFreeRun {s} (h : EngineFrame o s) : EngineFrame o (clkFreeRun s) := h.keep.clkState.updateSteer
theorem EngineFrame.startSwitch {s r} (h : EngineFrame o s) : EngineFrame o (startSwitch s r) := h.addCtr.logEv.keep.clkState

theorem EngineFrame.enterHoldover {s} (h : EngineFrame o s) : EngineFrame o (enterHoldover s) :=
  .ite h h.keep.clkState.addCtr.raise.logEv.updateSteer

theorem EngineFrame.abandonSwitch {s} (h : EngineFrame o s) : EngineFrame o (abandonSwitch s) := by
  unfold Machine.abandonSwitch; split; exacts [h.startSwitch, h.enterHoldover]

theorem EngineFrame.applySelection {s : State} (h : EngineFrame o s) : EngineFrame o (applySelection s) := by
  unfold Machine.applySelection
  refine .ite h ?_
  extract_lets hold
  split
  · exact .ite h.enterHoldover (by split; exacts [h.startSwitch, h])
  · exact .ite h (by split; exacts [h.startSwitch, h])
  · exact .ite h (by split; exacts [h.startSwitch, h])
  · exact .ite h.enterHoldover (by split; exacts [.ite (.ite h.startSwitch h) h.startSwitch, .ite h h.enterHoldover])
  · exact .ite h.enterHoldover (by split; exacts [.ite (.ite h.startSwitch h) h.startSwitch, .ite h h.enterHoldover])
  · exact .ite h h.abandonSwitch
  · exact h

theorem EngineFrame.afterFail {s r} (h : EngineFrame o s) : EngineFrame o (afterFail s r) := by
  unfold Machine.afterFail; split; exacts [.ite h.abandonSwitch h, .ite h.applySelection h, .ite h.applySelection h, h]

theorem EngineFrame.refSet {s r on} (h : EngineFrame o s) : EngineFrame o (refSet s r on) := h.keep

theorem EngineFrame.loadClock {s c newRate} (h : EngineFrame o s) : EngineFrame o (loadClock s c newRate) := by
  unfold Machine.loadClock
  extract_lets rv val prio policy same fresh installed s₁ s₂ s₃ s₄ s₅ on s₆ s₇
  have h₃ : EngineFrame o s₃ := h.setR.setR.setR.setR.setR
  have h₄ : EngineFrame o s₄ := h₃.foldlMem fun t n hn ht => by
    have hn := List.mem_range.1 hn
    extract_lets a d t'
    have ht' : EngineFrame o t' := (ht.setR (ne_cuts_below (by simp only [a, Reg.CLK_REFCFG]; omega))).setR
      (ne_cuts_below (by simp only [d, Reg.CLK_REFDLY]; omega))
    exact ht'.setR (ne_cuts_below (by simp only [Reg.CLK_OUTCFG]; omega))
  have h₇ : EngineFrame o s₇ := (EngineFrame.foldl h₄.setR fun _ _ h => h.refSet).foldl fun _ _ h => h.afterFail
  exact .ite h₇ h₇.applySelection

/-! The fabric (R433, R435, R436). -/

theorem EngineFrame.loadFabric {s t} (h : EngineFrame o s) : EngineFrame o (loadFabric s t) := by
  unfold Machine.loadFabric
  extract_lets rec_ slice s₁ s₂
  have h₁ : EngineFrame o s₁ := h.foldl fun u m hu => by
    extract_lets base
    have hbase : 0xD0000 ≤ base := by simp only [base, Reg.FAB_WIN0]; omega
    split
    · extract_lets u' p
      have hu' : EngineFrame o u' := hu.foldl fun v w hv => by
        extract_lets a
        have ha : 0xD0000 ≤ a := by omega
        exact (((hv.setR (ne_cuts_above ha)).setR (ne_cuts_above (by omega))).setR (ne_cuts_above (by omega))).setR
          (ne_cuts_above (by omega))
      exact (hu'.setR (ne_cuts_above (by simp only [Reg.FAB_PRIO_LO]; omega))).setR
        (ne_cuts_above (by simp only [Reg.FAB_PRIO_HI]; omega))
    · exact (EngineFrame.foldl hu fun v w hv => hv.setR (ne_cuts_above (by omega))).foldlMem fun v a ha hv =>
        hv.setR (ne_cuts_above (by simp at ha; rcases ha with rfl | rfl <;> simp only [Reg.FAB_PRIO_LO, Reg.FAB_PRIO_HI] <;> omega))
  have h₂ : EngineFrame o s₂ := h₁.foldl fun u m hu => hu.setR (ne_cuts_above (by simp only [Reg.FAB_SLICE]; omega))
  exact .ite h₂.keep (.ite h₁.keep.logEv h₁)

/-! The path engines: the list of a tick, and the head store of a rate that ends (R86, R90). -/

theorem EngineFrame.reportHits {s mst} {code : Nat → Nat} {hit : Nat → Bool} (h : EngineFrame o s) :
    EngineFrame o (reportHits s mst code hit) := h.foldl fun _ _ h => h.eccReport

theorem EngineFrame.headMove {s r q} (h : EngineFrame o s) : EngineFrame o (headMove s r q) := by
  unfold Machine.headMove
  exact h.reportHits.keep.whole
theorem EngineFrame.headFlush {s} (h : EngineFrame o s) : EngineFrame o (headFlush s) := h.foldl fun _ _ h => h.headMove
theorem EngineFrame.pathMaster {s} (h : EngineFrame o s) : EngineFrame o (pathMaster s).2 := .iteSnd h h.keep

theorem EngineFrame.takeList {s t} (h : EngineFrame o s) : EngineFrame o (takeList s t).2 := by
  unfold Machine.takeList
  exact .foldlSnd (a := ([], s)) h fun _ _ h => h.pathMaster.eccRead

/-! The geometry engine (R47 to R51). -/

theorem objR_low {n w : Nat} (hn : n < 1024) (hw : w < 8) : (objR n w) ≠ Reg.TAKE_CUTS :=
  ne_cuts_below (by simp only [objR, Reg.GEOM_OBJ_X]; omega)

theorem objCount_le (s : State) : objCount s ≤ 1024 := by unfold objCount; split <;> decide

theorem objsWith_lt {s : State} {w : Nat} {p : Nat × Nat} (h : p ∈ objsWith s w) : p.1 < 1024 := by
  obtain ⟨q, -, hq⟩ := List.mem_filterMap.1 h
  split at hq
  next hin =>
    obtain rfl := Option.some.inj hq
    dsimp only
    omega
  next => cases hq

theorem entryWords_lt {s : State} {n : Nat} {ws : List Nat} {x : Nat × Nat} (h : x ∈ entryWords s n ws) : x.1 < 6 := by
  obtain ⟨w, hw, rfl⟩ := List.mem_map.1 h
  exact List.mem_range.1 hw

theorem EngineFrame.markChanged {s n} (h : EngineFrame o s) : EngineFrame o (markChanged s n) := h.keep

theorem EngineFrame.objStore {s : State} {n : Nat} {ws : List (Nat × Nat)} (h : EngineFrame o s) (hn : n < 1024)
    (hws : ∀ x ∈ ws, x.1 < 8) : EngineFrame o (objStore s n ws) :=
  (h.foldlMem fun _ x hx h => h.setR (objR_low hn (hws x hx))).andThen fun h => .ite h.markChanged h

theorem EngineFrame.kspmCommit {s v} (h : EngineFrame o s) : EngineFrame o (kspmCommit s v) :=
  .ite h (h.setR.foldl fun _ _ h => .ite h.markChanged h)

theorem EngineFrame.floorCommit {s v} (h : EngineFrame o s) : EngineFrame o (floorCommit s v) :=
  .ite h (h.setR.foldl fun _ _ h => h.markChanged)

theorem EngineFrame.changeEnabled {s} (h : EngineFrame o s) : EngineFrame o (changeEnabled s) :=
  h.foldl fun _ _ h => .ite h.markChanged h

theorem EngineFrame.loadObjects {s init} (h : EngineFrame o s) : EngineFrame o (loadObjects s init) :=
  h.foldl fun t x h => by
    split
    next hx =>
      have := objCount_le t
      exact (h.objStore (by omega) fun y hy => Nat.lt_of_lt_of_le (entryWords_lt hy) (by decide)).markChanged
    next => exact h

theorem EngineFrame.farBits {s t} (h : EngineFrame o s) : EngineFrame o (farBits s t) :=
  (h.foldlMem fun _ p hp h => h.setR (objR_low (objsWith_lt hp) (by decide))).foldl fun u x h => by
    split
    next hx =>
      have := objCount_le u
      exact h.setR (objR_low (by omega) (by decide))
    next => exact h

theorem EngineFrame.cutGeometry {s old t} (h : EngineFrame o s) : EngineFrame o (cutGeometry s old t none) := by
  unfold Machine.cutGeometry
  extract_lets s₁ s₂ s₃ s₄ _ s₅ same
  have h₅ : EngineFrame o s₅ := h.setF.setR.kspmCommit.floorCommit.loadObjects.keep.farBits
  exact .ite h₅ h₅.changeEnabled

theorem EngineFrame.cutDivider {s t} (h : EngineFrame o s) : EngineFrame o (cutDivider s t) := .ite h.setF.setF.setF h.setF

/-! Room correction (R118). -/

theorem EngineFrame.setChan {s c v} (h : EngineFrame o s) : EngineFrame o (setChan s c v) := h.keep

theorem EngineFrame.storeSlot {s c q x} (h : EngineFrame o s) : EngineFrame o (storeSlot s c q x) := by
  unfold Machine.storeSlot; split; exacts [.ite h.blockWrite h, h]

theorem EngineFrame.clearRings {s} (h : EngineFrame o s) : EngineFrame o (clearRings s) :=
  h.keep.whole.foldl fun _ _ h => h.storeSlot

theorem EngineFrame.moveRings {s old} (h : EngineFrame o s) : EngineFrame o (moveRings s old) := .ite h h.keep.whole

theorem EngineFrame.channelCut {s q c} (h : EngineFrame o s) : EngineFrame o (channelCut s q c).1 :=
  .iteFst h.setChan (.iteFst h.setChan (by extract_lets; split; exacts [.iteFst h.setChan h.setChan, h.setChan]))

theorem EngineFrame.convCut {s : State} {q : ConvCut} (h : EngineFrame o s) : EngineFrame o (convCut s q) := by
  unfold Machine.convCut; extract_lets s₁ one
  have h₁ : EngineFrame o s₁ := by unfold s₁; split; exacts [.ite h.clearRings h.moveRings, h.clearRings]
  have hq : EngineFrame o ((List.range (busCount s₁)).foldl one (s₁, 0, 0, false, [])).1 :=
    h₁.foldlFst fun _ _ h => h.channelCut
  generalize (List.range (busCount s₁)).foldl one (s₁, 0, 0, false, []) = r at hq ⊢
  obtain ⟨s₂, rep, lost, aff, items⟩ := r
  exact ((EngineFrame.ite hq hq.addCtr).foldl fun _ _ h => h.setChan).andThen fun h =>
    (EngineFrame.ite h.keep h).andThen fun h => (EngineFrame.ite h.logEv h).andThen fun h => .ite h h.raise

/-! Local audio (R372 to R396). -/

theorem EngineFrame.setTdm {s p v} (h : EngineFrame o s) : EngineFrame o (setTdm s p v) := h.keep
theorem EngineFrame.tdmEnter {s p q} (h : EngineFrame o s) : EngineFrame o (tdmEnter s p q) := .ite h.setTdm h.setTdm.raise
theorem EngineFrame.maskShadow {s p v} (h : EngineFrame o s) : EngineFrame o (maskShadow s p v) := h.setTdm

theorem EngineFrame.tdmStart {s p pcfg pstart mask n} (h : EngineFrame o s) : EngineFrame o (tdmStart s p pcfg pstart mask n) :=
  h.tdmEnter

theorem EngineFrame.tdmCut {s lio n newRate} (h : EngineFrame o s) : EngineFrame o (tdmCut s lio n newRate) :=
  h.foldl fun t p h => by
    extract_lets pc ps mk q t'
    have ht' : EngineFrame o t' := ((h.setR (ne_cuts_above (by simp only [Reg.TDM_PCFG]; omega))).setR
      (ne_cuts_above (by simp only [Reg.TDM_MASK]; omega))).setR (ne_cuts_above (by simp only [Reg.TDM_PSTART]; omega))
    refine .ite (.ite ht'.maskShadow ht'.tdmStart) ?_
    split
    · exact ht'.setTdm
    · exact ht'
    · exact ht'.tdmEnter

theorem EngineFrame.decCut {s lio} (h : EngineFrame o s) : EngineFrame o (decCut s lio) :=
  h.setR.foldl fun _ _ h => (h.keep.setR (ne_cuts_above (by simp only [Reg.DEC_CHCFG]; omega))).setR
    (ne_cuts_above (by simp only [Reg.DEC_CHDLY]; omega))

theorem EngineFrame.setPdm {s g v} (h : EngineFrame o s) : EngineFrame o (setPdm s g v) := h.keep

theorem EngineFrame.pdmCut {s lio} (h : EngineFrame o s) : EngineFrame o (pdmCut s lio) :=
  h.foldl fun t c h => by
    extract_lets a
    have hcfg : EngineFrame o (Machine.setR t a c.1) := h.setR (ne_cuts_above (by simp only [a, Reg.PDM_GCFG]; omega))
    exact .ite h (.ite hcfg hcfg.setPdm)

theorem EngineFrame.lioCut {s lio n newRate} (h : EngineFrame o s) : EngineFrame o (lioCut s lio n newRate) :=
  h.tdmCut.decCut.pdmCut

/-! Streams (R285 to R289). -/

theorem Sparse.get_replaceRange_above {α : Type} [DecidableEq α] (d : Nat → α) (m block : Sparse α) {lo hi b : Nat} (hb : hi ≤ b)
    (h : lo ≤ hi) : Sparse.get d (Sparse.replaceRange d m lo hi block) b = Sparse.get d m b := by
  have hbelow : ∀ p ∈ m.filter (fun p => decide (p.1 < lo)) ++
      block.filter (fun p => lo ≤ p.1 && p.1 < hi && p.2 ≠ d p.1), p.1 < b := by
    intro p hp
    rcases List.mem_append.1 hp with hp | hp
    · have := of_decide_eq_true (List.mem_filter.1 hp).2
      omega
    · have := (List.mem_filter.1 hp).2
      simp only [Bool.and_eq_true, decide_eq_true_eq] at this
      omega
  rw [Sparse.replaceRange, Sparse.get_append_below d _ hbelow]
  exact Sparse.get_filter_from d m hb

theorem getR_replaceLow (s : State) {lo hi : Nat} (rows : RegFile) (hle : lo ≤ hi) (hhi : hi ≤ Reg.TAKE_CUTS) :
    getR { s with regs := Sparse.replaceRange regDefault s.regs lo hi rows } Reg.TAKE_CUTS = getR s Reg.TAKE_CUTS :=
  congrArg BitVec.toNat (Sparse.get_replaceRange_above regDefault s.regs rows hhi hle)

theorem EngineFrame.extWrite {s e rows} (h : EngineFrame o s) : EngineFrame o (extWrite s e rows) :=
  h.foldl fun _ _ h => h.foldl fun _ _ h => h.dramCells

theorem EngineFrame.putRows {a r e rows} (h : EngineFrame o a.2) : EngineFrame o (putRows a r e rows).2 :=
  .iteSnd h.extWrite (h.foldlSnd fun _ _ h => h.openWrite)

theorem EngineFrame.carryRx {was : State} {p : Int} {old : RxEnt} {a : List RxSt × State} {r : Nat} {x : RxSt}
    (h : EngineFrame o a.2) : EngineFrame o (carryRx was p old a r x).2 := .iteSnd h h.putRows

theorem txR_low {n : Nat} (hn : n < 128) : (Reg.STRM_TX0 + 16 * n) ≠ Reg.TAKE_CUTS :=
  ne_cuts_below (by simp only [Reg.STRM_TX0]; omega)

end Sys2Proof.Machine
end

section
/-! SUPPORT. TAKE_CUTS at a cut: the stages of a cut leave it, but for what the outgoing transmit set clears behind the incoming one. -/

namespace Sys2Proof.Machine

open Sys2Proof

variable {o : State}

/-! The stages before the streams. -/

theorem EngineFrame.stamp {s} (h : EngineFrame o s) : EngineFrame o (stamp s) := h.keep
theorem EngineFrame.setBank {s b v} (h : EngineFrame o s) : EngineFrame o (setBank s b v) := .ite h.keep h.keep

theorem Sparse.get_clearRange_above {α : Type} (d : Nat → α) (m : Sparse α) (lo : Nat) {hi b : Nat} (h : hi ≤ b) :
    Sparse.get d (Sparse.clearRange m lo hi) b = Sparse.get d m b := by
  induction m with
  | nil => rfl
  | cons p t ih =>
    unfold Sparse.clearRange at ih ⊢
    rw [List.filter_cons]
    split
    next => simp only [Sparse.get, ih]
    next hdrop =>
      have hin : p.1 < hi := by
        by_contra hge
        simp [Nat.not_lt.1 hge] at hdrop
      rw [ih]
      simp only [Sparse.get]
      rw [if_neg (by omega), if_neg (by omega)]

theorem taskW_below_cuts (b : Nat) : taskW b 4096 ≤ Reg.TAKE_CUTS := by
  unfold taskW
  split <;> decide

theorem EngineFrame.clearWindow {s b} (h : EngineFrame o s) : EngineFrame o (clearWindow s b) :=
  ⟨h.strm, h.fw, h.fwQ, (congrArg BitVec.toNat (Sparse.get_clearRange_above regDefault s.regs _ (taskW_below_cuts b))).trans h.cuts⟩

theorem EngineFrame.cutBanks {s t hadOld hard pos} (h : EngineFrame o s) : EngineFrame o (cutBanks s t hadOld hard pos) :=
  (EngineFrame.ite (by split; exacts [h.setBank, h]) h).keep.clearWindow.setBank

theorem EngineFrame.cutRate {s rate} (h : EngineFrame o s) : EngineFrame o (cutRate s rate) :=
  .ite h (.ite h.headFlush.keep.clkFreeRun h.headFlush.keep)

theorem EngineFrame.loadWords {s : State} {a step : Nat} {l : List Nat} (h : EngineFrame o s)
    (hend : a + step * l.length ≤ Reg.TAKE_CUTS) (hstep : 0 < step) : EngineFrame o (loadWords s a step l) :=
  h.foldlMem fun _ x hx h => h.setR (by
    have hlt : step * x.2 < step * l.length := Nat.mul_lt_mul_of_pos_left (by simpa using (List.mem_zipIdx hx).2.1) hstep
    omega)

theorem EngineFrame.loadSections {s t} (h : EngineFrame o s) (ht : TakeFits t) : EngineFrame o (loadSections s t) := by
  obtain ⟨hceil, hsel, hmon, -⟩ := ht
  exact (((h.setR.setR.setR.setR.setR.setR64.setR64.setR.setR.setR.setR.setR.loadWords (by rw [hceil]; decide) (by decide)).loadWords
    (by rw [hsel]; decide) (by decide)).loadWords (by rw [hmon]; decide) (by decide)).setR

/-! The streams (R285). -/

/-- The number of transmit entries of the outgoing take. -/
def outgoingTx (s : State) : Nat := ((s.strm.tx.head?.map (·.ents)).getD []).length

/-- The status words of the entries that the incoming take does not have keep their lower half only. -/
theorem getR_txAbsent (s : State) (lo hi n : Nat) : getR (txAbsent s lo hi) (Reg.STRM_TX0 + 16 * n) =
    if lo ≤ n ∧ n < hi then getR s (Reg.STRM_TX0 + 16 * n) % 65536 else getR s (Reg.STRM_TX0 + 16 * n) := by
  have hfold (l : List Nat) (s : State) : getR (l.foldl (fun s t => setR s (Reg.STRM_TX0 + 16 * t)
      (getR s (Reg.STRM_TX0 + 16 * t) % 65536)) s) (Reg.STRM_TX0 + 16 * n) =
      if n ∈ l then getR s (Reg.STRM_TX0 + 16 * n) % 65536 else getR s (Reg.STRM_TX0 + 16 * n) := by
    induction l generalizing s with
    | nil => rfl
    | cons t l ih =>
      rw [List.foldl_cons, ih, getR_setR]
      by_cases ht : n = t
      · subst ht
        simp only [if_true, List.mem_cons, true_or]
        split <;> omega
      · rw [if_neg (show ¬ Reg.STRM_TX0 + 16 * n = Reg.STRM_TX0 + 16 * t by omega)]
        simp only [List.mem_cons, ht, false_or]
  refine (hfold _ s).trans ?_
  simp [and_comm]

theorem cuts_eq_txStatus : Reg.TAKE_CUTS = Reg.STRM_TX0 + 16 * 27912 := by decide

theorem EngineFrame.first {lab : Nat} {s : State} {e : TxEnt × Nat} (h : EngineFrame o s) (he : e.2 < 128) :
    EngineFrame o (strmCut.first lab s e) :=
  h.setR (ne_cuts_below (by simp only [Fld.plus, F.STRM_TX0_NEXTSEQ]; omega))

/-- An outgoing set that reaches past the transmit table, with no entry behind it in the incoming one, leaves only the lower half
of what TAKE_CUTS holds. -/
theorem getR_strmCut_cuts {s : State} {t : StreamSec} (hin : t.tx.length ≤ 128) (hout : 27912 < outgoingTx s) (p : Int) (lab : Nat)
    (rateNew : Bool) : getR (strmCut s t p lab rateNew) Reg.TAKE_CUTS = getR s Reg.TAKE_CUTS % 65536 := by
  unfold strmCut
  extract_lets _ s₁ was before inst rows _ s₂ s₃
  have h₁ : getR s₁ Reg.TAKE_CUTS = getR s Reg.TAKE_CUTS ∧ s₁.strm.tx = s.strm.tx := by
    unfold s₁
    split <;> exact ⟨rfl, rfl⟩
  have hbefore : before.length = outgoingTx s := by rw [outgoingTx, ← h₁.2]
  have h₂ : getR s₂ Reg.TAKE_CUTS = getR s₁ Reg.TAKE_CUTS := getR_replaceLow s₁ rows (by simp only [rxR]; omega) (by decide)
  have h₃ : EngineFrame s₂ s₃ := (EngineFrame.refl s₂).setR64.setR
  clear_value was
  split
  rename_i rx s₄ hq
  have h₄ : EngineFrame s₃ s₄ := by
    refine EngineFrame.of_eq (EngineFrame.foldlSnd (a := ([], s₃)) (.refl s₃) fun a q h => ?_) hq
    split; exacts [h.carryRx, h]
  extract_lets _ s₅
  have h₅ : getR s₅ Reg.TAKE_CUTS = getR s₄ Reg.TAKE_CUTS % 65536 := by
    rw [cuts_eq_txStatus]
    exact (getR_txAbsent _ t.tx.length before.length 27912).trans (if_pos ⟨by omega, by omega⟩)
  have hrest : EngineFrame s₅ (t.tx.zipIdx.foldl (fun s e =>
      match before[e.2]? with
      | some o => if sameTx o e.1 then s else strmCut.first lab s e
      | none => strmCut.first lab s e) s₅) := by
    refine (EngineFrame.refl s₅).foldlMem fun u e he hu => ?_
    have he : e.2 < 128 := by
      have := (List.mem_zipIdx he).2.1
      omega
    split; exacts [.ite hu (hu.first he), hu.first he]
  calc _ = getR s₅ Reg.TAKE_CUTS := hrest.cuts
    _ = getR s₄ Reg.TAKE_CUTS % 65536 := h₅
    _ = getR s Reg.TAKE_CUTS % 65536 := by rw [h₄.cuts, h₃.cuts, h₂, h₁.1]

theorem satAdd_lt (w a b : Nat) : satAdd w a b < 2 ^ w := by
  have := Nat.two_pow_pos w
  unfold satAdd
  omega

theorem TakeFits.txFew {t : Take} (h : TakeFits t) : t.streams.tx.length ≤ 128 := by
  obtain ⟨-, -, -, -, -, htx, -⟩ := h
  exact htx

/-- What TAKE_CUTS counts at a cut whose outgoing transmit set reaches past the transmit table. -/
theorem getR_performCut_cuts {s : State} {t : Take} (ht : TakeFits t) (hout : 27912 < outgoingTx s) (asked : Bool) (named : Nat) :
    getR (performCut s t asked named none) Reg.TAKE_CUTS = satAdd 32 (getR s Reg.TAKE_CUTS % 65536) 1 := by
  unfold performCut
  extract_lets old hard lab0 pos first rateNew fell e skip s₁ s₂ s₃ overlap x
  have h₃ : EngineFrame s s₃ := .ite (EngineFrame.refl s).stamp.logCommit.logCommit (EngineFrame.refl s).stamp.logCommit
  split
  rename_i s₄ hq
  have h₄ : EngineFrame s s₄ := (EngineFrame.iteSnd (a := (some x.1, x.2)) (b := (none, s₃)) h₃.takeList h₃).of_eq hq
  extract_lets _ _ s₅ s₆ s₇ lab _ _ _ _ _ s₈ s₉ s₁₀ _ _ s₁₁ s₁₂ s₁₃ _ s₁₄ s₁₅ s₁₆
  have h₅ : EngineFrame s s₅ := by unfold s₅; clear_value old; cases old <;> exact h₄.keep
  have h₈ : EngineFrame s s₈ := h₅.cutBanks.cutRate.keep
  have h₁₄ : EngineFrame s s₁₄ := ((h₈.loadSections ht).cutDivider.loadClock.loadFabric).keep.cutGeometry.convCut
  have hout₁₄ : outgoingTx s₁₄ = outgoingTx s := by rw [outgoingTx, h₁₄.strm, outgoingTx]
  have h₁₅ : getR s₁₅ Reg.TAKE_CUTS = getR s Reg.TAKE_CUTS % 65536 := by
    rw [(EngineFrame.refl _).lioCut.cuts, getR_strmCut_cuts (TakeFits.txFew ht) (hout₁₄ ▸ hout), h₁₄.cuts]
  have h₁₆ : getR s₁₆ Reg.TAKE_CUTS = satAdd 32 (getR s Reg.TAKE_CUTS % 65536) 1 := by
    rw [getR_addCtr, if_pos rfl, h₁₅, Nat.mod_eq_of_lt (satAdd_lt 32 _ 1)]
  exact (EngineFrame.raise (.ite (EngineFrame.refl s₁₆).addCtr (.refl s₁₆))).cuts.trans h₁₆

end Sys2Proof.Machine
end

section
/-! PROOF. O41 fails: a cut cuts TAKE_CUTS down where the transmit set it replaces is longer than the transmit table (R271, R285). -/

namespace Sys2Proof.Machine

open Sys2Proof

/-- A transmit entry that sends nothing. -/
def idleTx : TxEnt :=
  { dsta := 0, dstb := 0, sport := 0, dport := 0, ssrc := 0, pt := 0, ch := 0, np := 0, csum := false, ttl := 0, dscp := 0, mapofs := 0,
    seqofs := 0 }

/-- After 65,536 cuts, with 27,913 transmit entries in the outgoing set: more than the 128 a take may have. -/
def overfull : State :=
  setR { State.reset with strm := { State.reset.strm with tx := [{ first := 0, ents := List.replicate 27913 idleTx, map := [] }] } }
    Reg.TAKE_CUTS 65536

/-- A program without kernels and tasks. -/
def taskless : GraphSec :=
  { ncores := 1, divMax := 4, slotsTotal := 0, setsTotal := 0, busNeed := [], auxNeed := [], imemLo := 0, imemHi := 0, dmemLo := 0,
    dmemHi := 0, kernels := [], tasks := [], arcs := [], buffers := [], images := [] }

/-- A take without kernels, objects or streams, its lists as long as its sections have them. -/
def quietTake : Take :=
  { slate := 1, digest := zeroBytes 16, raw := [],
    sys := { rate := 1, depth := 3, tick := 1, headroom := false, twoFit := false, variant := 0 }, graph := taskless, images := [],
    geo := { speakers := [], tris := [], csets := [], members := [], trilist := [], init := [] },
    render := { budget := 0, reserve := 0, slew := 0, lista := 0, listb := 0, farbase := 0, kspm := 0, floor := 0, farslot := [] },
    corr := { drbase := 0, xflen := 1, len := [], setid := [] }, xpt := { moncfg := List.replicate 128 0, nodes := [] },
    safety := { ceil := List.replicate 8 0, adctrl := 0, adstep := 0, adceil := 0, adfloor := 0, ceilsel := List.replicate 96 0 },
    streams := StreamSec.none, clock := none, fabric := none, localio := LioSec.none, hasLio := false, cont := ContSec.none }

theorem takeFits_quietTake : TakeFits quietTake := by
  unfold TakeFits
  exact ⟨rfl, rfl, rfl, rfl, rfl, Nat.zero_le _, nofun⟩

theorem getR_overfull_cuts : getR overfull Reg.TAKE_CUTS = 65536 := getR_setR_same _ _ _

theorem outgoingTx_overfull : 27912 < outgoingTx overfull := by
  have hlen : outgoingTx overfull = (List.replicate 27913 idleTx).length := rfl
  rw [hlen, List.length_replicate]
  decide

/-- Refutes O41: the statement takes any state, and in `overfull` the entries of the outgoing set that the incoming one does not have run
past the table from STRM_TX0 on. The status word of entry 27,912 would lie where TAKE_CUTS is, and the cut clears its upper half: TAKE_CUTS
goes from 65,536 to 1, not to 65,537. -/
theorem not_cutTakesEffect : ¬ Obligations.CutTakesEffect := by
  unfold Obligations.CutTakesEffect
  rintro ⟨-, hcut, -⟩
  obtain ⟨-, -, -, -, -, -, -, -, -, -, -, hregs⟩ := hcut overfull quietTake false 0
  have hcount := (hregs takeFits_quietTake).1
  rw [getR_performCut_cuts takeFits_quietTake outgoingTx_overfull, getR_overfull_cuts] at hcount
  exact absurd hcount (by decide)

end Sys2Proof.Machine
end

section
/-! SUPPORT. What sending leaves alone: a reply or a frame of the device changes registers, ports, the command engine and the free-value
counter, and of the command engine not the firmware queue. -/

namespace Sys2Proof.Machine

open Sys2Proof

/-- From `o` on, something was sent. -/
structure Sent (o s : State) : Prop where
  same : s = { o with regs := s.regs, ccp := s.ccp, portA := s.portA, portB := s.portB, freeCtr := s.freeCtr }
  fwQ : s.ccp.fwQ = o.ccp.fwQ

variable {o : State}

theorem Sent.refl (s : State) : Sent s s := ⟨rfl, rfl⟩

theorem Sent.trans {s t : State} (h : Sent o s) (k : Sent s t) : Sent o t :=
  ⟨by rw [k.same, h.same], k.fwQ.trans h.fwQ⟩

/-- The fields that sending changes may change further. -/
theorem Sent.keep {s : State} (h : Sent o s) {regs ccp portA portB freeCtr} (hq : ccp.fwQ = s.ccp.fwQ := by rfl) :
    Sent o ⟨s.pending, s.hw, regs, s.view, s.latch, s.tl, s.log, ccp, s.pwr, portA, portB, s.time, s.clk, s.geo, s.path, s.kpu, s.disp,
      s.fab, s.fw, s.conv, s.xpt, s.strm, s.take, s.pipe, s.pair, s.lio, s.dram, s.mem, s.rdata, freeCtr⟩ :=
  ⟨by rw [h.same], hq.trans h.fwQ⟩

theorem Sent.ite {c : Prop} [Decidable c] {a b : State} (ha : Sent o a) (hb : Sent o b) : Sent o (if c then a else b) := by
  split; exacts [ha, hb]

theorem Sent.foldl {α : Type} {f : State → α → State} {l : List α} {s : State} (h : Sent o s)
    (step : ∀ t x, Sent o t → Sent o (f t x)) : Sent o (l.foldl f s) := foldl_invariant _ f step l s h

theorem Sent.addCtr {s a n} (h : Sent o s) : Sent o (addCtr s a n) := h.keep
theorem Sent.setR {s a v} (h : Sent o s) : Sent o (setR s a v) := h.keep

theorem Sent.raise {s n b} (h : Sent o s) : Sent o (raise s n b) := by
  rw [raise_eq]
  exact h.keep (raise_fwQ s n b)

theorem Sent.setPort {s p v} (h : Sent o s) : Sent o (setPort s p v) := .ite h.keep h.keep
theorem Sent.txLoss {s p ctr} (h : Sent o s) : Sent o (txLoss s p ctr) := h.addCtr.raise
theorem Sent.enqueue1 {s p f} (h : Sent o s) : Sent o (enqueue1 s p f) := .ite h (.ite h.txLoss h.setPort)
theorem Sent.enqueue3 {s p f} (h : Sent o s) : Sent o (enqueue3 s p f) := .ite h (.ite h.txLoss (.ite h.setPort h.setPort))
theorem Sent.freeUdp {s ip dport} (h : Sent o s) : Sent o (freeUdp s ip dport).2 := h.keep

theorem Sent.sendUdp {s p mac u payload kind} {put : State → Nat → TxFrame → State} (h : Sent o s)
    (hput : ∀ t u x, Sent o t → Sent o (put t u x)) : Sent o (sendUdp s p mac u payload kind put) := by
  unfold Machine.sendUdp; split; exacts [h.txLoss, h.foldl fun _ _ h => hput _ _ _ h]

/-! Replies (R247, R253, R255). -/

theorem Sent.ringPlace {s b} (h : Sent o s) : Sent o (ringPlace s b).2 := by
  unfold Machine.ringPlace
  extract_lets tail b'
  split
  · exact h
  · dsimp only
    exact Sent.raise (.setR h.keep)

theorem Sent.spiPlace {s b} (h : Sent o s) : Sent o (spiPlace s b) := .ite h.keep h.keep.raise

theorem Sent.udpReply {s ctx ip port b} (h : Sent o s) : Sent o (udpReply s ctx ip port b) :=
  h.keep.foldl fun _ _ h => h.enqueue3

theorem Sent.placeReply {s ctx b} (h : Sent o s) : Sent o (placeReply s ctx b) := by
  unfold Machine.placeReply; split; exacts [.ite h.keep (.ite h.ringPlace h.keep), h.spiPlace, h.udpReply]

theorem Sent.noteReplied {s ctx b} (h : Sent o s) : Sent o (noteReplied s ctx b) := by
  unfold Machine.noteReplied; split; exacts [h, h.keep]

theorem Sent.reply {s ctx st payload} (h : Sent o s) : Sent o (reply s ctx st payload) :=
  (Sent.ite h.addCtr.raise h).noteReplied.placeReply

end Sys2Proof.Machine
end

section
/-! PROOF. O26: loading and switching firmware images. -/

namespace Sys2Proof.Machine

open Sys2Proof

theorem fwBegin_active {s : State} {i : Nat} (h : i = s.fw.running) (n : Nat) (ctx : Ctx) :
    fwBegin s i n (some ctx) = reply s ctx .fwActive [] := if_pos h

theorem fwBegin_pending {s : State} {i f : Nat} (hi : i ≠ s.fw.running) (h : s.fw.sched = some (i, f)) (n : Nat) (ctx : Ctx) :
    fwBegin s i n (some ctx) = reply s ctx .fwPending [] := (if_neg hi).trans (if_pos (by simp [h]))

/-- The flash with the area of an image erased (R237). -/
def erased (m : Memory) (i : Nat) : Memory := Sparse.clearRange m (flashImage i) (flashImage i + 0x200000)

/-- A load opens over erased flash; the area of a load it abandons is erased too. -/
theorem fwBegin_loads {s : State} {i : Nat} (hi : i ≠ s.fw.running) (h : s.fw.sched = none) (n : Nat) (ctx : Ctx) :
    fwBegin s i n (some ctx) = reply { s with
      mem := match s.fw.load with | some (k, _) => erased (erased s.mem i) k | none => erased s.mem i
      fw := { s.fw with load := some (i, n) } } ctx .ok [] := by
  refine ((if_neg hi).trans (if_neg (by simp [h]))).trans ?_
  dsimp only
  cases s.fw.load <;> rfl

theorem fwData_closed {s : State} (h : s.fw.load = none) (o : Nat) (d : Bytes) (ctx : Ctx) :
    fwData s o d (some ctx) = reply s ctx .fwState [] := by simp only [fwData, h, replyTo]

theorem fwEnd_closed {s : State} (h : s.fw.load = none) (ctx : Ctx) : fwEnd s (some ctx) = reply s ctx .fwState [] := by
  simp only [fwEnd, h, replyTo]

theorem fwData_open {s : State} {i n : Nat} (h : s.fw.load = some (i, n)) (o : Nat) (d : Bytes) (ctx : Ctx) :
    fwData s o d (some ctx) =
      if o + d.length > n then reply s ctx .badParam [] else reply (memWrite s (flashImage i + o) d) ctx .ok [] := by
  simp only [fwData, h, replyTo]

theorem fwEnd_open {s : State} {i n : Nat} (h : s.fw.load = some (i, n)) (ctx : Ctx) : fwEnd s (some ctx) =
    reply { s with fw := { s.fw with load := none } } ctx
      (if imageValid s (imageOf s i) = true ∧ (imageOf s i).length = n then .ok else .fwInvalid) [] := by
  simp only [fwEnd, h, replyTo, Bool.and_eq_true, beq_iff_eq]
  rfl

theorem fwSwitch_pending {s : State} (h : s.fw.sched ≠ none) (i f : Nat) (ctx : Ctx) :
    fwSwitch s i f (some ctx) = reply s ctx .fwPending [] := if_pos (Option.isSome_iff_ne_none.2 h)

section
variable {s : State} (h : s.fw.sched = none)
include h

theorem fwSwitch_free (i f : Nat) (ctx : Ctx) : fwSwitch s i f (some ctx) =
    if i = s.fw.running then reply s ctx .fwActive []
    else if !imageValid s (imageOf s i) then reply s ctx .fwInvalid []
    else if f ≤ s.tl.frame + 1 then reply s ctx .framePast []
    else reply { s with fw := { s.fw with sched := some (i, f), schedArr := ctx.arr } } ctx .ok [] :=
  if_neg (by simp [h])

theorem fwSwitch_valid {i : Nat} (hi : i ≠ s.fw.running) (hv : imageValid s (imageOf s i) = true) (f : Nat) (ctx : Ctx) :
    fwSwitch s i f (some ctx) = if f ≤ s.tl.frame + 1 then reply s ctx .framePast []
      else reply { s with fw := { s.fw with sched := some (i, f), schedArr := ctx.arr } } ctx .ok [] :=
  (fwSwitch_free h i f ctx).trans ((if_neg hi).trans (if_neg (by simp [hv])))

end

/-! The ready report and the fallback (R238). -/

theorem exec_fwReady (v : Nat) (s : State) : exec (.fwReady v) s = .next (fwReady s v) := rfl
theorem exec_fwFallback (s : State) : exec .fwFallback s = .next (fwFallback s) := rfl

/-- The ready report ends the restart and the switch in progress; nothing else of the firmware changes. -/
theorem fwReady_fw (s : State) : (fwReady s 1).fw = { s.fw with restarting := false, ready := true, switching := none } := by
  unfold fwReady
  refine (congrArg State.fw (if_neg (by decide))).trans ?_
  extract_lets s₁ s₂ _ s₃
  split
  next =>
    rw [raise_fw, logEv_fw]
    rfl
  next hnone => exact congrArg (fun x => { s.fw with restarting := false, ready := true, switching := x }) hnone

theorem fwReady_zero (s : State) : fwReady s 0 = s := if_pos (by decide)

/-- The firmware restarts from an image with its queue answered (R237). -/
theorem restartFw_fw (s : State) (i : Nat) :
    (restartFw s i).fw = { s.fw with running := i, restarting := true, ready := false } ∧ (restartFw s i).ccp.fwQ = [] := by
  unfold restartFw
  extract_lets q _ _ s₁ s₂
  have h₁ : s₁.fw = { s.fw with running := i, restarting := true, ready := false } ∧ s₁.ccp.fwQ = [] :=
    have h := (EngineFrame.refl _).masterReset
    ⟨h.fw, h.fwQ⟩
  have h₂ : Sent s₂ (q.foldl (fun s c => reply s c.1 .fwRestarting []) s₂) := (Sent.refl s₂).foldl fun _ _ h => h.reply
  refine ⟨?_, h₂.fwQ.trans h₁.2⟩
  rw [h₂.same]
  exact h₁.1

theorem fwFallback_ready {s : State} (h : s.fw.ready = true) : fwFallback s = s := if_pos (.inl h)

/-- Without a ready report the image before restarts (R238). -/
theorem fwFallback_fw {s : State} (h : s.fw.ready = false) (hrun : s.pwr.boot = .running) :
    (fwFallback s).fw = { s.fw with running := s.fw.previous, restarting := true, ready := false, switching := none } ∧
      (fwFallback s).ccp.fwQ = [] := by
  have hlate : ¬ (s.fw.ready ∨ s.pwr.boot ≠ .running) := by simp [h, hrun]
  obtain ⟨hfw, hq⟩ := restartFw_fw { s with fw := { s.fw with switching := none } } s.fw.previous
  unfold fwFallback
  rw [if_neg hlate]
  extract_lets p _ s₁
  rw [raise_fw, logEv_fw, raise_fwQ, logEv_ccp]
  exact ⟨hfw, hq⟩

/-- Settles O26: each command by its own branches; the restart through what its reset and its replies leave alone. -/
theorem firmwareCommands : Obligations.FirmwareCommands := by
  unfold Obligations.FirmwareCommands
  intro s ctx i n o f d
  rw [fwExec_fwBegin, fwExec_fwData, fwExec_fwEnd, fwExec_fwSwitch, exec_fwReady, exec_fwReady, exec_fwFallback]
  refine ⟨fun hi => fwBegin_active hi n ctx, fun g hi hg => fwBegin_pending hi hg n ctx, fun hi hnone => ?begin,
    fun h => ⟨fwData_closed h o d ctx, fwEnd_closed h ctx⟩, fun h => ⟨fun hfit => ?stores, fun hbad => ?tooLong, fwEnd_open h ctx⟩,
    fun h => fwSwitch_pending h i f ctx, fun hnone hi => ?active, fun hnone hi hv => ?invalid, fun hnone hi hv => ?switch,
    ⟨_, rfl, ?_⟩, congrArg _ (fwReady_zero s), fun h => congrArg _ (fwFallback_ready h), fun h hrun => ⟨_, rfl, ?_⟩⟩
  case begin =>
    rw [fwBegin_loads hi hnone]
    refine ⟨fun h => ?_, fun k l h => ?_⟩ <;>
      rw [h] <;> rfl
  case stores => exact (fwData_open h o d ctx).trans (if_neg (Nat.not_lt.2 hfit))
  case tooLong => exact (fwData_open h o d ctx).trans (if_pos hbad)
  case active => exact (fwSwitch_free hnone i f ctx).trans (if_pos hi)
  case invalid => exact (fwSwitch_free hnone i f ctx).trans ((if_neg hi).trans (if_pos (by simp [hv])))
  case switch =>
    rw [fwSwitch_valid hnone hi hv]
    exact ⟨fun hpast => if_pos hpast, fun hlater => if_neg (Nat.not_le.2 hlater)⟩
  · rw [fwReady_fw]
    exact ⟨rfl, rfl, rfl, rfl⟩
  · obtain ⟨hfw, hq⟩ := fwFallback_fw h hrun
    rw [hfw, hq]
    exact ⟨rfl, rfl, rfl, rfl⟩

end Sys2Proof.Machine
end

section
/-! SUPPORT. Clappers: what a unit sends, what a clapper it hears or misses does to its paths and its role (R452 to R458). -/

namespace Sys2Proof.Machine

open Sys2Proof

variable {o : State}

theorem Sent.pair {s : State} (h : Sent o s) : s.pair = o.pair := by rw [h.same]
theorem Sent.take {s : State} (h : Sent o s) : s.take = o.take := by rw [h.same]
theorem Sent.mem {s : State} (h : Sent o s) : s.mem = o.mem := by rw [h.same]

theorem Sent.replyTo {s ctx st payload} (h : Sent o s) : Sent o (replyTo s ctx st payload) := by
  unfold Machine.replyTo; split; exacts [h.reply, h]

theorem whilePowered_on {s : State} (h : powered s = true) (f : State → State) : whilePowered s f = f s := if_pos h

theorem whilePowered_off {s : State} (h : powered s = false) (f : State → State) : whilePowered s f = s := if_neg (by simp [h])

/-- What a unit without power or without a partner would do, it does not. -/
theorem whilePowered_idle {s : State} {f : State → State} (h : f s = s) : whilePowered s f = s := by
  unfold whilePowered
  rw [h, ite_self]

/-! Sending (R452, R454, R457). -/

theorem clapSend_unpaired {s : State} (h : paired s = false) : clapSend s = s := if_pos (by simp [h])
theorem netClapSend_unpaired {s : State} (h : paired s = false) : netClapSend s = s := if_pos (by simp [h])

/-- The slot that ends counts where no clapper came on the pair link (R454). -/
def slotCounted (s : State) : State := if s.pair.gotP then s else addCtr s Reg.PAIR_PCLAPMISS 1

theorem slotCounted_pair (s : State) : (slotCounted s).pair = s.pair := by unfold slotCounted; split <;> rfl

theorem clapLink_pair (s : State) (r : Bool) : (clapLink s r).pair = { s.pair with
    cseqP := (s.pair.cseqP + 1) % 2 ^ 32
    tx := s.pair.tx ++ [pairMsg 1 (clapperBody s ((s.pair.cseqP + 1) % 2 ^ 32) r)] } := rfl

/-- The clapper says RELEASE while RESYNC is pending for a released role (R457). -/
theorem releasing_eq (s : State) : releasing s = decide (s.pair.pend = some (.resync, 9)) := beq_eq_decide _ _

theorem clapSend_paired {s : State} (h : paired s = true) :
    (clapSend s).pair = { s.pair with
      gotP := false, cutUntold := false, cseqP := (s.pair.cseqP + 1) % 2 ^ 32
      tx := s.pair.tx ++ [pairMsg 1 (clapperBody (slotCounted s) ((s.pair.cseqP + 1) % 2 ^ 32)
        (decide (s.pair.pend = some (.resync, 9))))] } ∧ (clapSend s).regs = (slotCounted s).regs := by
  have hsend : clapSend s = clapLink (setPair (slotCounted s) { (slotCounted s).pair with gotP := false, cutUntold := false })
      (releasing (slotCounted s)) := if_neg (by simp [h])
  rw [hsend, releasing_eq, ← slotCounted_pair s]
  exact ⟨rfl, rfl⟩

/-- A network clapper goes out on every port that carries them; the ports and their counters aside it takes the next CSEQ. -/
theorem clapNet_sent (s : State) (r : Bool) : Sent (setPair s { s.pair with cseqN := (s.pair.cseqN + 1) % 2 ^ 32 }) (clapNet s r) :=
  (Sent.refl _).foldl fun _ _ h => .ite (h.keep.sendUdp fun _ _ _ h => h.enqueue1) h

theorem clapNet_pair (s : State) (r : Bool) : (clapNet s r).pair = { s.pair with cseqN := (s.pair.cseqN + 1) % 2 ^ 32 } :=
  (clapNet_sent s r).pair

theorem netClapSend_paired {s : State} (h : paired s = true) :
    (netClapSend s).pair = { s.pair with gotN := false, cseqN := (s.pair.cseqN + 1) % 2 ^ 32 } := by
  refine (congrArg State.pair (if_neg (by simp [h]))).trans ((clapNet_pair _ _).trans ?_)
  rw [setPair_pair]
  split <;> rfl

/-! Hearing (R453 to R455). -/

/-- From `o` on, what a unit has heard on its two paths has stayed. -/
structure PathsAs (o s : State) : Prop where
  pclap : s.pair.pclap = o.pair.pclap
  nclap : s.pair.nclap = o.pair.nclap
  gotP : s.pair.gotP = o.pair.gotP
  gotN : s.pair.gotN = o.pair.gotN
  peerP : s.pair.peerP = o.pair.peerP

theorem PathsAs.refl (s : State) : PathsAs s s := ⟨rfl, rfl, rfl, rfl, rfl⟩

theorem PathsAs.trans {s t : State} (h : PathsAs o s) (k : PathsAs s t) : PathsAs o t :=
  ⟨k.pclap.trans h.pclap, k.nclap.trans h.nclap, k.gotP.trans h.gotP, k.gotN.trans h.gotN, k.peerP.trans h.peerP⟩

/-- The pair block has not changed but for fields that do not record what was heard. -/
theorem PathsAs.of_pair {s : State} {p : PairSt} (h : s.pair = p) (hp : (p.pclap, p.nclap, p.gotP, p.gotN, p.peerP) =
    (o.pair.pclap, o.pair.nclap, o.pair.gotP, o.pair.gotN, o.pair.peerP)) : PathsAs o s := by
  simp only [Prod.mk.injEq] at hp
  obtain ⟨h₁, h₂, h₃, h₄, h₅⟩ := hp
  exact ⟨h ▸ h₁, h ▸ h₂, h ▸ h₃, h ▸ h₄, h ▸ h₅⟩

theorem PathsAs.rolePend {s r c} (h : PathsAs o s) : PathsAs o (rolePend s r c) := by
  unfold Machine.rolePend
  split
  · exact h
  · exact h.trans (.of_pair rfl rfl)

theorem pairRelease_pair {s : State} (h : s.pair.role = .active) : (pairRelease s).pair =
    { (clapNet (clapLink s true) true).pair with driven := false, driveAt := none, pend := some (.resync, 9) } := by
  have hrelease : pairRelease s = { clapNet (clapLink s true) true with pair := { (clapNet (clapLink s true) true).pair with
      driven := false, driveAt := none, pend := some (.resync, 9) } } := if_neg (not_not.mpr h)
  rw [hrelease]

theorem PathsAs.pairRelease {s} (h : PathsAs o s) : PathsAs o (pairRelease s) := by
  by_cases hr : s.pair.role = .active
  · refine h.trans (.of_pair (pairRelease_pair hr) ?_)
    rw [clapNet_pair]
    rfl
  · rwa [show Machine.pairRelease s = s from if_pos hr]

theorem PathsAs.pairMeet {s net p} (h : PathsAs o s) : PathsAs o (pairMeet s net p) := by
  unfold Machine.pairMeet
  split
  · exact h
  · split
    · extract_lets own
      split
      · exact h.pairRelease.rolePend
      · exact h
    · split
      · exact h.rolePend
      · exact h

theorem seizeStaging_pair (s : State) : (seizeStaging s).pair = s.pair :=
  ((Sent.refl _).foldl fun _ _ h => h.replyTo).pair

theorem PathsAs.peerCut {s old p} (h : PathsAs o s) : PathsAs o (peerCut s old p) := by
  unfold Machine.peerCut
  split
  · split
    · exact h.trans (.of_pair (seizeStaging_pair _) rfl)
    · exact h
  · exact h

/-- What a clapper says of its sender. -/
def seenIn (b : Bytes) : PeerSeen :=
  { role := beAt b 3 1 % 8, actFrame := beAt b 32 8, digest := sliceB b 40 16, devid := beAt b 8 8, frame := beAt b 24 8 }

/-- A unit that takes a clapper has heard both things of its path: that a clapper came, and that the path is current. -/
theorem clapperTake_link {s : State} {b : Bytes} (h : bit (beAt b 3 1) 3 = false) :
    (clapperTake s false b).pair.pclap = true ∧ (clapperTake s false b).pair.gotP = true ∧
      (clapperTake s false b).pair.peerP = some (seenIn b) := by
  unfold clapperTake
  extract_lets p _ s₁ _ s₂ old _ _ s₃ s₄
  rw [if_neg (by simp [h])]
  have h₄ : s₄.pair = s₃.pair := by
    unfold s₄
    split
    · rfl
    · exact raise_pair ..
  have hp : PathsAs s₃ (pairMeet (peerCut s₄ old p) false p) := (PathsAs.of_pair h₄ rfl).peerCut.pairMeet
  exact ⟨hp.pclap, hp.gotP, hp.peerP⟩

theorem clapperTake_net {s : State} {b : Bytes} (h : bit (beAt b 3 1) 3 = false) :
    (clapperTake s true b).pair.nclap = true ∧ (clapperTake s true b).pair.gotN = true := by
  unfold clapperTake
  extract_lets p _ s₁ _ s₂ old _ _ s₃ s₄
  rw [if_neg (by simp [h])]
  have h₄ : s₄.pair = s₃.pair := by
    unfold s₄
    split
    · rfl
    · exact raise_pair ..
  have hp : PathsAs s₃ (pairMeet s₄ true p) := (PathsAs.of_pair h₄ rfl).pairMeet
  exact ⟨hp.nclap, hp.gotN⟩

/-! Missing (R454, R458). -/

/-- The link's loss touches the resynchronisation only. -/
theorem linkLost_pair (s : State) : (linkLost s).pair.pclap = s.pair.pclap ∧ (linkLost s).pair.nclap = s.pair.nclap ∧
    (linkLost s).pair.role = s.pair.role ∧ (linkLost s).pair.pend = s.pair.pend := by
  unfold linkLost
  split <;> exact ⟨rfl, rfl, rfl, rfl⟩

theorem rolePend_takeover (s : State) : (rolePend s .active 2).pair = { s.pair with pend := some (.active, 2) } := by
  unfold rolePend takeoverPending
  split
  · rename_i h
    rw [← eq_of_beq h]
  · rfl

/-- The state in which a path has ceased to be current. -/
def pathDropped (s : State) (net : Bool) : State :=
  if net then setPair s { s.pair with nclap := false, peerN := none }
  else linkLost (setPair s { s.pair with pclap := false, peerP := none })

theorem pathDropped_link (s : State) : (pathDropped s false).pair.pclap = false ∧ (pathDropped s false).pair.nclap = s.pair.nclap ∧
    (pathDropped s false).pair.role = s.pair.role ∧ (pathDropped s false).pair.pend = s.pair.pend := linkLost_pair _

/-- What a unit reports of a path that was current until now; with both lost a standby is to be an orphan. -/
def lossTold (u : State) (net : Bool) : State :=
  let v := raise u 18 2
  let both := !v.pair.pclap && !v.pair.nclap
  let paths := if both then 3 else if net then 2 else 1
  let v := logEv v 0x1202 [(1, (paths : Int))]
  if !both then v else
  let w := raise v 18 1
  if w.pair.role == .standby && w.pair.pend.isNone then rolePend w .orphan 10 else w

/-- The state in which a path has been left: one left by RELEASE makes a standby take over. -/
def pathLeft (s : State) (net released : Bool) : State :=
  if released && (pathDropped s net).pair.role == .standby then rolePend (pathDropped s net) .active 2 else pathDropped s net

/-- A path is left, and its loss told where the path was current. -/
theorem pathLost_eq (s : State) (net released : Bool) : pathLost s net released =
    if !(if net then s.pair.nclap else s.pair.pclap) then pathLeft s net released else lossTold (pathLeft s net released) net := rfl

/-- Telling of a loss changes the role a unit asks for only where both paths are lost and no other role is asked for. -/
theorem lossTold_pair_kept {u : State} (net : Bool) (h : u.pair.pclap = true ∨ u.pair.nclap = true ∨ u.pair.pend ≠ none) :
    (lossTold u net).pair = u.pair := by
  unfold lossTold
  extract_lets v both paths v' w
  have hv : v'.pair = u.pair := (logEv_pair ..).trans (raise_pair u 18 2)
  have hw : w.pair = u.pair := (raise_pair ..).trans hv
  have hv₀ : v.pair = u.pair := raise_pair ..
  split
  · exact hv
  · rename_i hboth
    rw [if_neg, hw]
    simp only [both, hv₀, hw] at hboth ⊢
    rcases h with h | h | h <;> simp_all

theorem lossTold_pair_orphan {u : State} (net : Bool) (hP : u.pair.pclap = false) (hN : u.pair.nclap = false)
    (hr : u.pair.role = .standby) (hp : u.pair.pend = none) :
    (lossTold u net).pair = { u.pair with pend := some (.orphan, 10) } := by
  unfold lossTold
  extract_lets v both paths v' w
  have hv : v.pair = u.pair := raise_pair ..
  have hw : w.pair = u.pair := (raise_pair ..).trans ((logEv_pair ..).trans hv)
  rw [if_neg (by simp [both, hv, hP, hN]), if_pos (by simp [hw, hr, hp]), rolePend, if_neg (by simp [takeoverPending, hw, hp]),
    setPair_pair, hw]

theorem pathLost_released {s : State} (h : s.pair.role = .standby) :
    (pathLost s false true).pair.pclap = false ∧ (pathLost s false true).pair.pend = some (.active, 2) := by
  obtain ⟨hclap, -, hrole, -⟩ := pathDropped_link s
  have hleft : pathLeft s false true = rolePend (pathDropped s false) .active 2 := if_pos (by simp [hrole, h])
  have hu : (pathLeft s false true).pair = { (pathDropped s false).pair with pend := some (.active, 2) } := by
    rw [hleft, rolePend_takeover]
  have hpair : (pathLost s false true).pair = (pathLeft s false true).pair := by
    cases hP : s.pair.pclap
    · exact congrArg State.pair ((pathLost_eq ..).trans (if_pos (by simp [hP])))
    · rw [(pathLost_eq s false true).trans (if_neg (by simp [hP]))]
      exact lossTold_pair_kept _ (.inr (.inr (by rw [hu]; exact Option.some_ne_none _)))
  rw [hpair, hu]
  exact ⟨hclap, rfl⟩

/-- A standby that hears neither path any more is to be an orphan (R458). -/
theorem pathLost_link_orphan {s : State} (hP : s.pair.pclap = true) (hN : s.pair.nclap = false) (hr : s.pair.role = .standby)
    (hp : s.pair.pend = none) :
    (pathLost s false false).pair.pclap = false ∧ (pathLost s false false).pair.pend = some (.orphan, 10) := by
  obtain ⟨hclap, hnet, hrole, hpend⟩ := pathDropped_link s
  have hlost : pathLost s false false = lossTold (pathDropped s false) false := (pathLost_eq ..).trans (if_neg (by simp [hP]))
  rw [hlost, lossTold_pair_orphan _ hclap (hnet.trans hN) (hrole.trans hr) (hpend.trans hp)]
  exact ⟨hclap, rfl⟩

theorem pathLost_net_pair {s : State} (hP : s.pair.pclap = true) (hN : s.pair.nclap = true) :
    (pathLost s true false).pair = { s.pair with nclap := false, peerN := none } := by
  have hlost : pathLost s true false = lossTold (pathDropped s true) true := (pathLost_eq ..).trans (if_neg (by simp [hN]))
  rw [hlost, lossTold_pair_kept (u := pathDropped s true) _ (.inl hP)]
  rfl

/-! Which clappers are taken (R450, R451, R453). -/

theorem clapperTake_released {s : State} {b : Bytes} (h : bit (beAt b 3 1) 3 = true) : clapperTake s false b =
    pathLost (setPair s { s.pair with variantRun := false, dualRun := false, gotP := true }) false true := if_pos h

theorem clapperReceive_valid {s : State} {net : Bool} {b : Bytes} (hp : paired s = true) (h : clapperOk s b = (true, false)) :
    clapperReceive s net b = clapperTake s net b := (if_neg (by simp [hp])).trans (if_pos (by simp [h]))

theorem netClapper_dropped {s : State} {b : Bytes} (h : b.length ≠ 60 ∨ crc32c (b.take 56) ≠ beAt b 56 4) : netClapper s b = s :=
  if_neg (by rwa [not_and_or])

theorem netClapper_taken {s : State} {b : Bytes} (hl : b.length = 60) (hc : crc32c (b.take 56) = beAt b 56 4) (hp : paired s = true)
    (h : clapperOk s (b.take 56) = (true, false)) : netClapper s b = clapperTake s true (b.take 56) :=
  (if_pos ⟨hl, hc⟩).trans (clapperReceive_valid hp h)

/-- A unit that takes a message of the pair link is paired. -/
theorem paired_of_linkBody {s t : State} {type : Nat} {b x : Bytes} (h : linkBody s type b = (some x, t)) : paired s = true := by
  by_contra hp
  have hdown : linkBody s type b = (none, s) := if_pos (by simp [hp])
  simp [hdown] at h

theorem onLink_none {s : State} {type : Nat} {b : Bytes} (f : State → Bytes → State) (h : (linkBody s type b).1 = none) :
    onLink s type b f = (linkBody s type b).2 := by
  unfold onLink
  split
  · rename_i hsome
    rw [hsome] at h
    cases h
  · rename_i hnone
    rw [hnone]

theorem onLink_some {s t : State} {type : Nat} {b x : Bytes} (f : State → Bytes → State) (h : linkBody s type b = (some x, t)) :
    onLink s type b f = f t x := by rw [onLink, h]

end Sys2Proof.Machine
end

section
/-! SUPPORT. Beacons and the peer table (R233 to R236). -/

namespace Sys2Proof.Machine

open Sys2Proof

theorem beaconSend_none {s : State} (h : s.take.active = none) : beaconSend s = s := by rw [beaconSend, h]

theorem beaconSend_silent {s : State} {t : Take} (h : s.take.active = some t) (hg : t.cont.group = 0 ∨ getF s F.TAKE_BCNCTRL_ENABLE = 0) :
    beaconSend s = s := by
  simp only [beaconSend, h]
  exact if_pos hg

/-- A beacon that goes out takes the next number and changes nothing else but the ports and their counters. -/
theorem beaconSend_sent {s : State} {t : Take} (h : s.take.active = some t)
    (hg : ¬ (t.cont.group = 0 ∨ getF s F.TAKE_BCNCTRL_ENABLE = 0)) :
    Sent (setTake s { s.take with bseq := (s.take.bseq + 1) % 2 ^ 32 }) (beaconSend s) := by
  simp only [beaconSend, h]
  rw [if_neg hg]
  exact (Sent.refl _).foldl fun _ _ h => .ite (h.keep.sendUdp fun _ _ _ h => h.enqueue3) h

theorem beaconReceive_bad {s : State} {b : Bytes} (h : beaconOk b = false) : beaconReceive s b = addCtr s Reg.TAKE_BCNBAD 1 :=
  if_pos (by simp [h])

theorem beaconReceive_known {s : State} {b : Bytes} (h : beaconOk b = true)
    (hk : beAt b 8 8 = s.hw.devid ∨ (beAt b 8 8, beAt b 16 4) ∈ s.take.seen) : beaconReceive s b = s :=
  (if_neg (by simp [h])).trans (if_pos (by simpa using hk))

theorem beaconReceive_new {s : State} {b : Bytes} (h : beaconOk b = true) (hd : beAt b 8 8 ≠ s.hw.devid)
    (hs : (beAt b 8 8, beAt b 16 4) ∉ s.take.seen) : beaconReceive s b = beaconTake s b :=
  (if_neg (by simp [h])).trans (if_neg (by simp [hd, hs]))

theorem putPeer_first {s : State} (h : s.take.peers = []) (n : Nat) (p : Peer) : (putPeer s n p).take.peers = [(n, p)] := by
  simp [putPeer, h]

/-- What a beacon says of its sender, with the mismatches found. -/
def peerOf (b : Bytes) (mm : Bool × Bool) : Peer :=
  { devid := beAt b 8 8, group := beAt b 4 4, role := bits (beAt b 3 1) 4 2, staged := bit (beAt b 3 1) 0,
    cutsched := bit (beAt b 3 1) 1, aslate := beAt b 28 4, adigest := sliceB b 32 16, sslate := beAt b 56 4, nextcut := beAt b 76 8,
    bseq := beAt b 16 4, mmActive := mm.1, mmNext := mm.2, age := 0 }

/-- The first peer takes the lowest entry, with what its beacon says of it. -/
theorem beaconTake_first {s : State} {b : Bytes} (h : s.take.peers = []) : ∃ y, (beaconTake s b).take.peers = [(0, y)] ∧
    y.devid = beAt b 8 8 ∧ y.group = beAt b 4 4 ∧ y.aslate = beAt b 28 4 ∧ y.adigest = sliceB b 32 16 ∧ y.nextcut = beAt b 76 8 ∧
    y.bseq = beAt b 16 4 ∧ y.age = 0 := by
  unfold beaconTake
  extract_lets dev f _ s₁ found was cmp mm
  have hfound : found = none := congrArg (List.find? _) h
  have hfree : freePeer s₁ = some 0 := by
    rw [freePeer, show s₁.take.peers = [] from h]
    decide
  rw [hfound, hfree]
  dsimp only
  refine ⟨peerOf b mm, Eq.trans ?_ (putPeer_first (s := s₁) h 0 _), rfl, rfl, rfl, rfl, rfl, rfl, rfl⟩
  split
  · rw [raise_take, logEv_take, addCtr_take]
    rfl
  · rfl

theorem peerExpire_absent {s : State} {n : Nat} (h : ∀ y ∈ s.take.peers, y.1 ≠ n) : peerExpire s n = s := by
  have hnone : s.take.peers.find? (·.1 == n) = none := List.find?_eq_none.mpr fun y hy => by simpa using h y hy
  simp only [peerExpire, hnone]

theorem raise_regs_congr {s t : State} {n b a : Nat} (ha : intStatAt n = some a) (h : t.regs = s.regs) :
    (raise t n b).regs = (raise s n b).regs := by
  rw [raise_regs _ _ _ _ ha, raise_regs _ _ _ _ ha]
  simp only [setR, getR, h]

/-- The table without the peer of entry n, whose beacons are no longer known. -/
def peerRemoved (s : State) (n dev : Nat) : State :=
  setTake s { s.take with peers := s.take.peers.filter (·.1 != n), seen := s.take.seen.filter (·.1 != dev) }

theorem peerExpire_found {s : State} {n : Nat} {x : Nat × Peer} (h : s.take.peers.find? (·.1 == n) = some x) : peerExpire s n =
    if x.2.group ≠ 0 ∧ x.2.group = ownGroup s then raise (logEv (peerRemoved s n x.2.devid) 0x0C06 [(8, (x.2.devid : Int))]) 12 5
    else peerRemoved s n x.2.devid := by
  rw [peerExpire, h]
  rfl

/-- The only peer expires: the table is empty, and one of the own group is reported. -/
theorem peerExpire_only {s : State} {n : Nat} {e : Peer} (h : s.take.peers = [(n, e)]) : (peerExpire s n).take.peers = [] ∧
    (peerExpire s n).regs = if e.group ≠ 0 ∧ e.group = ownGroup s then (raise s 12 5).regs else s.regs := by
  have hempty : (peerRemoved s n e.devid).take.peers = [] := by simp [peerRemoved, h]
  rw [peerExpire_found (show s.take.peers.find? (·.1 == n) = some (n, e) by simp [h])]
  split
  · exact ⟨by rw [raise_take, logEv_take, hempty], raise_regs_congr rfl (logEv_regs ..)⟩
  · exact ⟨hempty, rfl⟩

end Sys2Proof.Machine
end

section
/-! PROOF. O56: clappers, roles and beacons. -/

namespace Sys2Proof.Machine

open Sys2Proof

theorem exec_clapSend (s : State) : exec .clapSend s = .next (whilePowered s clapSend) := rfl
theorem exec_networkClapperSend (s : State) : exec .networkClapperSend s = .next (whilePowered s netClapSend) := rfl

theorem exec_pairLinkClapLoss (s : State) :
    exec .pairLinkClapLoss s = .next (whilePowered s fun s => if paired s then pathLost s false false else s) := rfl

theorem exec_networkClapLoss (s : State) :
    exec .networkClapLoss s = .next (whilePowered s fun s => if paired s then pathLost s true false else s) := rfl

theorem exec_clapperReceive_link (b : Bytes) (s : State) :
    exec (.clapperReceive false b) s = .next (whilePowered s fun s => onLink s 1 b fun s x => clapperReceive s false x) := rfl

theorem exec_clapperReceive_net (b : Bytes) (s : State) :
    exec (.clapperReceive true b) s = .next (whilePowered s fun s => netClapper s b) := rfl

theorem exec_beaconSend (s : State) : exec .beaconSend s = .next (beaconSend s) := rfl
theorem exec_beaconReceive (b : Bytes) (s : State) : exec (.beaconReceive b) s = .next (whilePowered s fun s => beaconReceive s b) := rfl
theorem exec_peerExpire (n : Nat) (s : State) : exec (.peerExpire n) s = .next (peerExpire s n) := rfl

/-- Settles O56: each event is its function while the unit has power; a unit that is not paired sends nothing and misses nothing,
a clapper that is taken makes its path current, and what becomes of the role is what the loss of a path asks for. -/
theorem clappersAndBeacons : Obligations.ClappersAndBeacons := by
  unfold Obligations.ClappersAndBeacons
  intro s b x n t e p missed link act
  refine ⟨fun hp => ⟨?_, ?_, ?_, ?_⟩, fun hoff i hi => ?_, fun hon hp => ?_, fun hon hp => ?_, fun hon hlink => ?_, fun hbad => ?_,
    fun hon hlink hok => ⟨fun hact => ?_, fun hact hr => ?_⟩, fun hon hp hl hc hok hact => ?_, fun hon hp hP hN hr hpend => ?_,
    fun hon hp hN hP => ?_, fun hnone => ?_, fun hsome hsilent => ?_, fun hsome hgroup hen => ?_, fun hon hbad => ?_,
    fun hon hok hknown => ?_, fun hon hok hdev hseen hempty => ?_, fun habsent => ?_, fun honly => ?_⟩
  · rw [exec_clapSend, whilePowered_idle (clapSend_unpaired hp)]
  · rw [exec_networkClapperSend, whilePowered_idle (netClapSend_unpaired hp)]
  · rw [exec_pairLinkClapLoss, whilePowered_idle]
    exact if_neg (by simp [hp])
  · rw [exec_networkClapLoss, whilePowered_idle]
    exact if_neg (by simp [hp])
  · simp only [List.mem_cons, List.not_mem_nil, or_false] at hi
    rcases hi with rfl | rfl | rfl | rfl | rfl | rfl | rfl
    · rw [exec_clapSend, whilePowered_off hoff]
    · rw [exec_networkClapperSend, whilePowered_off hoff]
    · rw [exec_pairLinkClapLoss, whilePowered_off hoff]
    · rw [exec_networkClapLoss, whilePowered_off hoff]
    · rw [exec_clapperReceive_link, whilePowered_off hoff]
    · rw [exec_clapperReceive_net, whilePowered_off hoff]
    · rw [exec_beaconReceive, whilePowered_off hoff]
  · rw [exec_clapSend, whilePowered_on hon]
    exact ⟨_, rfl, clapSend_paired hp⟩
  · rw [exec_networkClapperSend, whilePowered_on hon]
    exact ⟨_, rfl, netClapSend_paired hp⟩
  · rw [exec_clapperReceive_link, whilePowered_on hon, onLink_none _ hlink]
  · rw [exec_clapperReceive_net, whilePowered_idle]
    exact netClapper_dropped hbad
  · rw [exec_clapperReceive_link, whilePowered_on hon, onLink_some _ hlink, clapperReceive_valid (paired_of_linkBody hlink) hok]
    exact ⟨_, rfl, clapperTake_link hact⟩
  · rw [exec_clapperReceive_link, whilePowered_on hon, onLink_some _ hlink, clapperReceive_valid (paired_of_linkBody hlink) hok,
      clapperTake_released hact]
    exact ⟨_, rfl, pathLost_released hr⟩
  · rw [exec_clapperReceive_net, whilePowered_on hon, netClapper_taken hl hc hp hok]
    exact ⟨_, rfl, clapperTake_net hact⟩
  · rw [exec_pairLinkClapLoss, whilePowered_on hon, if_pos hp]
    exact ⟨_, rfl, pathLost_link_orphan hP hN hr hpend⟩
  · rw [exec_networkClapLoss, whilePowered_on hon, if_pos hp]
    refine ⟨_, rfl, ?_⟩
    rw [pathLost_net_pair hP hN]
    exact ⟨rfl, hP, rfl⟩
  · rw [exec_beaconSend, beaconSend_none hnone]
  · rw [exec_beaconSend, beaconSend_silent hsome hsilent]
  · have hsent := beaconSend_sent hsome (by simp [hgroup, hen])
    rw [exec_beaconSend]
    exact ⟨_, rfl, hsent.take, hsent.mem⟩
  · rw [exec_beaconReceive, whilePowered_on hon, beaconReceive_bad hbad]
  · rw [exec_beaconReceive, whilePowered_idle (beaconReceive_known hok hknown)]
  · obtain ⟨y, hy⟩ := beaconTake_first (b := b) hempty
    rw [exec_beaconReceive, whilePowered_on hon, beaconReceive_new hok hdev hseen]
    exact ⟨_, y, rfl, hy⟩
  · rw [exec_peerExpire, peerExpire_absent habsent]
  · rw [exec_peerExpire]
    exact ⟨_, rfl, peerExpire_only honly⟩

end Sys2Proof.Machine
end

section
/-! SUPPORT. O59, the named operations. A step keeps the queues of the command engine within their limits, and the memory behind
the fabric in its canonical form: `Upholds lim s₀ s` says that s, reached from s₀, still has what s₀ had of the two. Both parts go
through the same operations, so they are followed together. A state that differs elsewhere upholds the same (`keep`, `engine`), the
memory changes by `remember` alone, and each queue by a lemma of its own. The lemmas then follow the model file by file, one per
operation, each a chain of the operations it is made of in the order they happen. -/

namespace Sys2Proof.Machine

open Sys2Proof

/-- What was in order in s₀ is in order in s: the memory in its canonical form, and each queue within its limit. The quad-SPI buffer
grows by WRITE_CMD alone, so that every other operation keeps whatever limit it is within. -/
structure Upholds (lim : Nat) (s₀ s : State) : Prop where
  memory : MemoryCanonical s₀ → MemoryCanonical s
  frameQ : s₀.ccp.frameQ.length ≤ 256 → s.ccp.frameQ.length ≤ 256
  fwQ : s₀.ccp.fwQ.length ≤ 32 → s.ccp.fwQ.length ≤ 32
  snaps : s₀.ccp.snaps.length ≤ 8 → s.ccp.snaps.length ≤ 8
  spiIn : s₀.ccp.spiIn.length ≤ lim → s.ccp.spiIn.length ≤ lim

variable {lim : Nat} {s₀ : State}

theorem Upholds.refl (s : State) : Upholds lim s s := ⟨id, id, id, id, id⟩

/-- A state with the memory and the command engine of another, whatever else differs. -/
theorem Upholds.keep {s : State} (h : Upholds lim s₀ s) {pending hw regs view latch tl log pwr portA portB time clk geo path kpu disp
    fab fw cnv xpt strm take pipe pair lio dram rdata freeCtr} :
    Upholds lim s₀ ⟨pending, hw, regs, view, latch, tl, log, s.ccp, pwr, portA, portB, time, clk, geo, path, kpu, disp, fab, fw, cnv,
      xpt, strm, take, pipe, pair, lio, dram, s.mem, rdata, freeCtr⟩ := ⟨h.memory, h.frameQ, h.fwQ, h.snaps, h.spiIn⟩

/-- A command engine with the queues of another, whatever else differs in it. -/
theorem Upholds.engine {s : State} (h : Upholds lim s₀ s) {sessions pend arrivals fresh bar2 ringHeld spiOut spiHeld spiOvf msixAddr
    msixData msixMask msixPend msixSent msixLast perst authRun} :
    Upholds lim s₀ { s with ccp := ⟨sessions, s.ccp.frameQ, pend, arrivals, fresh, s.ccp.fwQ, s.ccp.snaps, bar2, ringHeld,
      s.ccp.spiIn, spiOut, spiHeld, spiOvf, msixAddr, msixData, msixMask, msixPend, msixSent, msixLast, perst, authRun⟩ } :=
  ⟨h.memory, h.frameQ, h.fwQ, h.snaps, h.spiIn⟩

/-- The memory becomes one that is canonical. -/
theorem Upholds.remember {s : State} (h : Upholds lim s₀ s) {m : Memory} (hm : MemoryCanonical s₀ → Memory.wf m = true) :
    Upholds lim s₀ { s with mem := m } := ⟨hm, h.frameQ, h.fwQ, h.snaps, h.spiIn⟩

/-- The frame queue becomes one within its limit. -/
theorem Upholds.setFrameQ {s : State} (h : Upholds lim s₀ s) {q} (hq : s.ccp.frameQ.length ≤ 256 → q.length ≤ 256) :
    Upholds lim s₀ { s with ccp := { s.ccp with frameQ := q } } := ⟨h.memory, fun h₀ => hq (h.frameQ h₀), h.fwQ, h.snaps, h.spiIn⟩

/-- The firmware queue becomes one within its limit. -/
theorem Upholds.setFwQ {s : State} (h : Upholds lim s₀ s) {q} (hq : s.ccp.fwQ.length ≤ 32 → q.length ≤ 32) :
    Upholds lim s₀ { s with ccp := { s.ccp with fwQ := q } } := ⟨h.memory, h.frameQ, fun h₀ => hq (h.fwQ h₀), h.snaps, h.spiIn⟩

/-- The snapshots that wait become ones within their limit. -/
theorem Upholds.setSnaps {s : State} (h : Upholds lim s₀ s) {q} (hq : s.ccp.snaps.length ≤ 8 → q.length ≤ 8) :
    Upholds lim s₀ { s with ccp := { s.ccp with snaps := q } } := ⟨h.memory, h.frameQ, h.fwQ, fun h₀ => hq (h.snaps h₀), h.spiIn⟩

/-- The quad-SPI buffer becomes one within its limit. -/
theorem Upholds.setSpiIn {s : State} (h : Upholds lim s₀ s) {q} (hq : s.ccp.spiIn.length ≤ lim → q.length ≤ lim) :
    Upholds lim s₀ { s with ccp := { s.ccp with spiIn := q } } := ⟨h.memory, h.frameQ, h.fwQ, h.snaps, fun h₀ => hq (h.spiIn h₀)⟩

/-- A queue with room for one more. -/
theorem length_push_le {α : Type} {l : List α} {x : α} {n : Nat} (hroom : ¬ l.length ≥ n) : (l ++ [x]).length ≤ n := by
  rw [List.length_append, List.length_singleton]; omega

/-- One step after another, where the second names its state more than once. -/
theorem Upholds.andThen {s t : State} (h : Upholds lim s₀ s) (k : Upholds lim s₀ s → Upholds lim s₀ t) : Upholds lim s₀ t := k h

theorem Upholds.ite {c : Prop} [Decidable c] {a b : State} (ha : Upholds lim s₀ a) (hb : Upholds lim s₀ b) :
    Upholds lim s₀ (if c then a else b) := by split; exacts [ha, hb]

/-- A test whose failure the second branch relies on: a queue that has room. -/
theorem Upholds.iteNot {c : Prop} [Decidable c] {a b : State} (ha : c → Upholds lim s₀ a) (hb : ¬ c → Upholds lim s₀ b) :
    Upholds lim s₀ (if c then a else b) := by split; exacts [ha ‹_›, hb ‹_›]

theorem Upholds.foldl {α : Type} {f : State → α → State} {l : List α} {s : State} (h : Upholds lim s₀ s)
    (step : ∀ t x, Upholds lim s₀ t → Upholds lim s₀ (f t x)) : Upholds lim s₀ (l.foldl f s) :=
  foldl_invariant _ f step l s h

theorem Upholds.foldlSnd {α β : Type} {f : β × State → α → β × State} {l : List α} {a : β × State} (h : Upholds lim s₀ a.2)
    (step : ∀ t x, Upholds lim s₀ t.2 → Upholds lim s₀ (f t x).2) : Upholds lim s₀ (l.foldl f a).2 :=
  foldl_invariant (fun a => Upholds lim s₀ a.2) f step l a h

theorem Upholds.foldlSndSnd {α β γ : Type} {f : γ × β × State → α → γ × β × State} {l : List α} {a : γ × β × State}
    (h : Upholds lim s₀ a.2.2) (step : ∀ t x, Upholds lim s₀ t.2.2 → Upholds lim s₀ (f t x).2.2) : Upholds lim s₀ (l.foldl f a).2.2 :=
  foldl_invariant (fun a => Upholds lim s₀ a.2.2) f step l a h

theorem Upholds.foldlFst {α β : Type} {f : State × β → α → State × β} {l : List α} {a : State × β} (h : Upholds lim s₀ a.1)
    (step : ∀ t x, Upholds lim s₀ t.1 → Upholds lim s₀ (f t x).1) : Upholds lim s₀ (l.foldl f a).1 :=
  foldl_invariant (fun a => Upholds lim s₀ a.1) f step l a h

theorem Upholds.iteSnd {β : Type} {c : Prop} [Decidable c] {a b : β × State} (ha : Upholds lim s₀ a.2) (hb : Upholds lim s₀ b.2) :
    Upholds lim s₀ (if c then a else b).2 := by split; exacts [ha, hb]

theorem Upholds.itePair {β : Type} {c : Prop} [Decidable c] {x y : β} {a b : State} (ha : Upholds lim s₀ a) (hb : Upholds lim s₀ b) :
    Upholds lim s₀ (if c then (x, a) else (y, b)).2 := by split; exacts [ha, hb]

theorem Upholds.iteFst {β : Type} {c : Prop} [Decidable c] {a b : State × β} (ha : Upholds lim s₀ a.1) (hb : Upholds lim s₀ b.1) :
    Upholds lim s₀ (if c then a else b).1 := by split; exacts [ha, hb]

theorem Upholds.iteSndSnd {β γ : Type} {c : Prop} [Decidable c] {a b : γ × β × State} (ha : Upholds lim s₀ a.2.2)
    (hb : Upholds lim s₀ b.2.2) : Upholds lim s₀ (if c then a else b).2.2 := by split; exacts [ha, hb]

/-- The state of a pair that was taken apart by a `match`. -/
theorem Upholds.of_eq {α : Type} {q : α × State} {a : α} {s : State} (h : Upholds lim s₀ q.2) (e : q = (a, s)) :
    Upholds lim s₀ s := by subst e; exact h

theorem Upholds.setR {s a v} (h : Upholds lim s₀ s) : Upholds lim s₀ (setR s a v) := h.keep
theorem Upholds.setF {s f v} (h : Upholds lim s₀ s) : Upholds lim s₀ (setF s f v) := h.setR
theorem Upholds.setFB {s f b} (h : Upholds lim s₀ s) : Upholds lim s₀ (setFB s f b) := h.setF
theorem Upholds.addCtr {s a n} (h : Upholds lim s₀ s) : Upholds lim s₀ (addCtr s a n) := h.setR
theorem Upholds.addF {s f n} (h : Upholds lim s₀ s) : Upholds lim s₀ (addF s f n) := h.setF
theorem Upholds.maxF {s f v} (h : Upholds lim s₀ s) : Upholds lim s₀ (maxF s f v) := .ite h.setF h
theorem Upholds.setR64 {s lo hi v} (h : Upholds lim s₀ s) : Upholds lim s₀ (setR64 s lo hi v) := h.setR.setR
theorem Upholds.freeBits {w s} (h : Upholds lim s₀ s) : Upholds lim s₀ (freeBits w s).2 := h.keep
theorem Upholds.stamp {s} (h : Upholds lim s₀ s) : Upholds lim s₀ (stamp s) := h.keep
theorem Upholds.sendVector {s n} (h : Upholds lim s₀ s) : Upholds lim s₀ (sendVector s n) := .ite h (.ite h.engine h.engine)

theorem Upholds.sendRisen {before after} (h : Upholds lim s₀ after) : Upholds lim s₀ (sendRisen before after) :=
  h.foldl fun _ _ h => .ite h.sendVector h

theorem Upholds.setEvent {s a m} (h : Upholds lim s₀ s) : Upholds lim s₀ (setEvent s a m) := h.setR.engine

theorem Upholds.raise {s n b} (h : Upholds lim s₀ s) : Upholds lim s₀ (raise s n b) := by
  unfold Machine.raise; split; exacts [h.setEvent.sendRisen, h]

theorem Upholds.pushEvent {s e} (h : Upholds lim s₀ s) : Upholds lim s₀ (pushEvent s e) := .ite h.keep h.keep
theorem Upholds.logEv {s code payload} (h : Upholds lim s₀ s) : Upholds lim s₀ (logEv s code payload) := h.pushEvent

theorem Upholds.logRun {s code payload run first} (h : Upholds lim s₀ s) : Upholds lim s₀ (logRun s code payload run first) :=
  h.pushEvent

theorem Upholds.logCommit {s code payload} (h : Upholds lim s₀ s) : Upholds lim s₀ (logCommit s code payload) := h.pushEvent

theorem Upholds.whilePowered {s} {f : State → State} (h : Upholds lim s₀ s) (hf : ∀ t, Upholds lim s₀ t → Upholds lim s₀ (f t))
    : Upholds lim s₀ (whilePowered s f) :=
  .ite (hf _ h) h

theorem Upholds.whole {s} {hit : Nat → Bool} (h : Upholds lim s₀ s) : Upholds lim s₀ (whole s hit) := .ite h h.keep
theorem Upholds.blockWrite {s a b} (h : Upholds lim s₀ s) : Upholds lim s₀ (blockWrite s a b) :=
  (h.remember fun w => wf_memBlock _ a b (h.memory w)).whole

theorem Upholds.pendAs {s n c} (h : Upholds lim s₀ s) : Upholds lim s₀ (pendAs s n c) := h.engine
theorem Upholds.pendNow {s c} (h : Upholds lim s₀ s) : Upholds lim s₀ (pendNow s c) := h.engine
theorem Upholds.queueWrite {s a v} (h : Upholds lim s₀ s) : Upholds lim s₀ (queueWrite s a v) := h.pendNow
theorem Upholds.frameAs {s f n c} (h : Upholds lim s₀ s) (hroom : ¬ s.ccp.frameQ.length ≥ 256) : Upholds lim s₀ (frameAs s f n c) :=
  h.setFrameQ fun _ => length_push_le hroom

end Sys2Proof.Machine
end

section
/-! SUPPORT. O59, the log: recording an event. -/

namespace Sys2Proof.Machine

open Sys2Proof

variable {lim : Nat} {s₀ : State}

theorem Upholds.logSramFail {s offset} (h : Upholds lim s₀ s) : Upholds lim s₀ (logSramFail s offset) := .ite h h.keep.raise

theorem Upholds.publishLog {s} (h : Upholds lim s₀ s) : Upholds lim s₀ (publishLog s) :=
  h.setR.setR.setR.setR.foldl fun _ _ h => h.foldl fun _ _ h => h.setR

end Sys2Proof.Machine
end

section
/-! SUPPORT. O59, the clock system: selection, switches, holdover, re-timing. -/

namespace Sys2Proof.Machine

open Sys2Proof

variable {lim : Nat} {s₀ : State}

theorem Upholds.setServo {s p v} (h : Upholds lim s₀ s) : Upholds lim s₀ (setServo s p v) := .ite h.keep h.keep
theorem Upholds.servoState {s p st} (h : Upholds lim s₀ s) : Upholds lim s₀ (servoState s p st) := .ite h h.setServo.logEv.raise
theorem Upholds.noteRequest {s} (h : Upholds lim s₀ s) : Upholds lim s₀ (noteRequest s) := h.keep

theorem Upholds.updateSteer {s} (h : Upholds lim s₀ s) : Upholds lim s₀ (updateSteer s) :=
  (Upholds.ite (.ite h (.ite (.ite h.setServo.servoState h.setServo) (.ite h.setServo.servoState h.setServo)))
    (.ite
      ((Upholds.ite h (.ite (.ite h.setServo.servoState h.setServo) (.ite h.setServo.servoState h.setServo))).setServo.andThen fun h =>
        .ite h.servoState h)
      ((Upholds.ite h (.ite (.ite h.setServo.servoState h.setServo) (.ite h.setServo.servoState h.setServo))).setServo.andThen fun h =>
        .ite h.servoState h))).noteRequest

theorem Upholds.clkState {s st} (h : Upholds lim s₀ s) : Upholds lim s₀ (clkState s st) := .ite h h.keep.raise
theorem Upholds.setRef {s r v} (h : Upholds lim s₀ s) : Upholds lim s₀ (setRef s r v) := h.keep
theorem Upholds.startSwitch {s r} (h : Upholds lim s₀ s) : Upholds lim s₀ (startSwitch s r) := h.addCtr.logEv.keep.clkState

theorem Upholds.enterHoldover {s} (h : Upholds lim s₀ s) : Upholds lim s₀ (enterHoldover s) :=
  .ite h h.keep.clkState.addCtr.raise.logEv.updateSteer

theorem Upholds.abandonSwitch {s} (h : Upholds lim s₀ s) : Upholds lim s₀ (abandonSwitch s) := by
  unfold Machine.abandonSwitch; split; exacts [h.startSwitch, h.enterHoldover]

theorem Upholds.applySelection {s : State} (h : Upholds lim s₀ s) : Upholds lim s₀ (applySelection s) :=
  .ite h (by
    split
    · exact .ite h.enterHoldover (by split; exacts [h.startSwitch, h])
    · exact .ite h (by split; exacts [h.startSwitch, h])
    · exact .ite h (by split; exacts [h.startSwitch, h])
    · exact .ite h.enterHoldover (by
        extract_lets; split; exacts [.ite (.ite h.startSwitch h) h.startSwitch, .ite h h.enterHoldover])
    · exact .ite h.enterHoldover (by
        extract_lets; split; exacts [.ite (.ite h.startSwitch h) h.startSwitch, .ite h h.enterHoldover])
    · exact .ite h h.abandonSwitch
    · exact h)

theorem Upholds.afterFail {s r} (h : Upholds lim s₀ s) : Upholds lim s₀ (afterFail s r) := by
  unfold Machine.afterFail; split; exacts [.ite h.abandonSwitch h, .ite h.applySelection h, .ite h.applySelection h, h]

theorem Upholds.refFail {s r cause} (h : Upholds lim s₀ s) : Upholds lim s₀ (refFail s r cause) :=
  .ite h.setRef h.setRef.addCtr.logEv.raise.afterFail

theorem Upholds.refSet {s r on} (h : Upholds lim s₀ s) : Upholds lim s₀ (refSet s r on) := h.setRef
theorem Upholds.refInstall {s r on} (h : Upholds lim s₀ s) : Upholds lim s₀ (refInstall s r on) := h.refSet.afterFail
theorem Upholds.refQualified {s r} (h : Upholds lim s₀ s) : Upholds lim s₀ (refQualified s r) := h.setRef.logEv

theorem Upholds.refWindow {s v three r m} (h : Upholds lim s₀ s) : Upholds lim s₀ (refWindow s v three r m) :=
  .ite h.setRef (by
    extract_lets
    split
    · exact (Upholds.ite h.setRef.refFail (.ite h.setRef.refFail h.setRef)).setRef
    · exact .ite (Upholds.ite h.setRef.refFail (.ite h.setRef.refFail h.setRef)).setRef
        (.ite (Upholds.ite h.setRef.refFail (.ite h.setRef.refFail h.setRef)).setRef
          (.ite (Upholds.ite h.setRef.refFail (.ite h.setRef.refFail h.setRef)).setRef
            (Upholds.ite h.setRef.refFail (.ite h.setRef.refFail h.setRef)).setRef.refQualified))
    · exact .ite (Upholds.ite h.setRef.refFail (.ite h.setRef.refFail h.setRef)).setRef
        (.ite (Upholds.ite h.setRef.refFail (.ite h.setRef.refFail h.setRef)).setRef
          (Upholds.ite h.setRef.refFail (.ite h.setRef.refFail h.setRef)).setRef.refQualified)
    · exact (Upholds.ite h.setRef.refFail (.ite h.setRef.refFail h.setRef)).setRef)

theorem Upholds.measurementWindow {s meas dco} (h : Upholds lim s₀ s) : Upholds lim s₀ (measurementWindow s meas dco) :=
  .ite h
    ((Upholds.ite h.keep h).andThen fun h =>
      ((Upholds.ite h.keep.logEv.raise h.keep).foldl fun _ _ h => h.refWindow).andThen fun h =>
        (Upholds.ite h.keep h).applySelection)

theorem Upholds.enterAcquiring {s} (h : Upholds lim s₀ s) : Upholds lim s₀ (enterAcquiring s) := h.keep.clkState
theorem Upholds.measureStep {s lead} (h : Upholds lim s₀ s) : Upholds lim s₀ (measureStep s lead) := .ite h.keep.clkState h
theorem Upholds.enterJump {s} (h : Upholds lim s₀ s) : Upholds lim s₀ (enterJump s) := .ite h.keep.clkState h
theorem Upholds.endJump {s} (h : Upholds lim s₀ s) : Upholds lim s₀ (endJump s) := .ite h.keep.enterAcquiring.applySelection h

theorem Upholds.splice {s} (h : Upholds lim s₀ s) : Upholds lim s₀ (splice s) :=
  h.stamp.keep.addCtr.logCommit.raise.enterAcquiring.updateSteer.applySelection

theorem Upholds.dpllLock {s} (h : Upholds lim s₀ s) : Upholds lim s₀ (dpllLock s) := .ite h.clkState h
theorem Upholds.dpllLockLoss {s} (h : Upholds lim s₀ s) : Upholds lim s₀ (dpllLockLoss s) := .ite h.enterAcquiring h

theorem Upholds.fastlockStep {s} (h : Upholds lim s₀ s) : Upholds lim s₀ (fastlockStep s) := by
  unfold Machine.fastlockStep; split; exacts [h.keep, h]

theorem Upholds.clkFreeRun {s} (h : Upholds lim s₀ s) : Upholds lim s₀ (clkFreeRun s) := h.keep.clkState.updateSteer

theorem Upholds.publishClk {s} (h : Upholds lim s₀ s) : Upholds lim s₀ (publishClk s) :=
  h.setR.setR.setR.setR.setR.setR64.setR64.setR.setR64.foldl fun _ _ h => h.setR.setR.setR.setR

end Sys2Proof.Machine
end

section
/-! SUPPORT. O59, the fabric: asking, granting, stalls and errors. -/

namespace Sys2Proof.Machine

open Sys2Proof

variable {lim : Nat} {s₀ : State}

theorem Upholds.capture {s mem kind m src a} (h : Upholds lim s₀ s) : Upholds lim s₀ (capture s mem kind m src a) :=
  .ite h h.setEvent.setR.setR64.setR64

theorem Upholds.fabError {s kind m src a} (h : Upholds lim s₀ s) : Upholds lim s₀ (fabError s kind m src a) := by
  unfold Machine.fabError; exact h.keep.capture.logRun.raise

theorem Upholds.fabBoundary {s} (h : Upholds lim s₀ s) : Upholds lim s₀ (fabBoundary s) := h.keep

theorem Upholds.eccReport {s k ue m src a} (h : Upholds lim s₀ s) : Upholds lim s₀ (eccReport s k ue m src a) :=
  (Upholds.ite h.addCtr.addCtr h.addCtr).andThen fun h =>
    .ite h.capture.raise
      ((Upholds.ite h.capture.raise h.capture).andThen fun h => (Upholds.ite h.keep h.keep.logRun).raise)

theorem Upholds.eccRead {s a n m src} (h : Upholds lim s₀ s) : Upholds lim s₀ (eccRead s a n m src).2 :=
  h.foldlSnd fun _ _ h => by extract_lets; split; exacts [h.eccReport, h]

theorem Upholds.openRead {s k size m ps} (h : Upholds lim s₀ s) : Upholds lim s₀ (openRead s k size m ps).2 :=
  .iteSnd h (h.foldl fun _ _ h => h.eccReport)

theorem Upholds.openWrite {s k size ps} (h : Upholds lim s₀ s) : Upholds lim s₀ (openWrite s k size ps) := .ite h h.whole
theorem Upholds.memWrite {s a b} (h : Upholds lim s₀ s) : Upholds lim s₀ (memWrite s a b) :=
  (h.remember fun w => Memory.wf_writeBytes _ a b (h.memory w)).keep
theorem Upholds.memRead {s a n m src} (h : Upholds lim s₀ s) : Upholds lim s₀ (memRead s a n m src).2 := h.eccRead

theorem Upholds.dramWord {s m src c w} (h : Upholds lim s₀ s) : Upholds lim s₀ (dramWord s m src c w) :=
  .ite h (.ite h.memWrite (.ite h.eccRead.addCtr h.eccRead.addCtr.memWrite))

theorem Upholds.dramCells {s m src a w} (h : Upholds lim s₀ s) : Upholds lim s₀ (dramCells s m src a w) :=
  h.foldl fun _ _ h => h.dramWord

theorem Upholds.dramWrite {s m src a d} (h : Upholds lim s₀ s) : Upholds lim s₀ (dramWrite s m src a d) :=
  .ite h.memWrite h.dramCells

theorem Upholds.burstWrite {s b d} (h : Upholds lim s₀ s) : Upholds lim s₀ (burstWrite s b d) := .ite h.dramWrite h.memWrite
theorem Upholds.publishDrains {s} (h : Upholds lim s₀ s) : Upholds lim s₀ (publishDrains s) := h.setR.foldl fun _ _ h => h.setR

theorem Upholds.masterReset {s m src beats more} (h : Upholds lim s₀ s) : Upholds lim s₀ (masterReset s m src beats more) := by
  unfold Machine.masterReset; extract_lets; split
  · exact (h.foldl fun _ _ h => by split; exacts [.ite h h.burstWrite, h]).keep.publishDrains
  · exact .ite (h.foldl fun _ _ h => by split; exacts [.ite h h.burstWrite, h]).keep.addCtr.logEv.raise
      (h.foldl fun _ _ h => by split; exacts [.ite h h.burstWrite, h]).keep.publishDrains

theorem Upholds.retire {s b} (h : Upholds lim s₀ s) : Upholds lim s₀ (retire s b) := .ite h h.keep.publishDrains
theorem Upholds.fwRestart {s img} (h : Upholds lim s₀ s) : Upholds lim s₀ (fwRestart s img) := h.keep.masterReset

theorem Upholds.burstEnd {s b} (h : Upholds lim s₀ s) : Upholds lim s₀ (burstEnd s b) := by
  unfold Machine.burstEnd; split
  · exact h.burstWrite
  · exact .ite h.memRead.keep.fwRestart (.ite h.memRead.keep.logSramFail h.memRead.keep)

theorem Upholds.grant {s t} (h : Upholds lim s₀ s) : Upholds lim s₀ (grant s t) := by
  unfold Machine.grant; split; exacts [h, h.keep]

theorem Upholds.scrubOne {s k} (h : Upholds lim s₀ s) : Upholds lim s₀ (scrubOne s k) :=
  ((h.foldl fun _ _ h => h.eccReport).foldl fun _ _ h => .ite h.logSramFail h).keep

theorem Upholds.injectAt {s a mask} (h : Upholds lim s₀ s) : Upholds lim s₀ (injectAt s a mask) := h.keep
theorem Upholds.publishFab {s} (h : Upholds lim s₀ s) : Upholds lim s₀ (publishFab s) := h.setR

end Sys2Proof.Machine
end

section
/-! SUPPORT. O59, the network ports: queues, counters, the transmit side. -/

namespace Sys2Proof.Machine

open Sys2Proof

variable {lim : Nat} {s₀ : State}

theorem Upholds.setPort {s p v} (h : Upholds lim s₀ s) : Upholds lim s₀ (setPort s p v) := .ite h.keep h.keep
theorem Upholds.txLoss {s p ctr} (h : Upholds lim s₀ s) : Upholds lim s₀ (txLoss s p ctr) := h.addCtr.raise

theorem Upholds.enqueue0 {s p f} (h : Upholds lim s₀ s) : Upholds lim s₀ (enqueue0 s p f).2 :=
  .iteSnd h (.iteSnd h.txLoss h.setPort)

theorem Upholds.enqueue1 {s p f} (h : Upholds lim s₀ s) : Upholds lim s₀ (enqueue1 s p f) := .ite h (.ite h.txLoss h.setPort)

theorem Upholds.enqueue2 {s p f} (h : Upholds lim s₀ s) : Upholds lim s₀ (enqueue2 s p f) :=
  .ite h.txLoss (.ite h.txLoss h.setPort)

theorem Upholds.enqueue3 {s p f} (h : Upholds lim s₀ s) : Upholds lim s₀ (enqueue3 s p f) :=
  .ite h (.ite h.txLoss (.ite h.setPort h.setPort))

theorem Upholds.sendUdp {s p mac u payload kind} {put : State → Nat → TxFrame → State} (h : Upholds lim s₀ s)
    (hput : ∀ t u x, Upholds lim s₀ t → Upholds lim s₀ (put t u x)) : Upholds lim s₀ (sendUdp s p mac u payload kind put) := by
  unfold Machine.sendUdp; split; exacts [h.txLoss, h.foldl fun _ _ h => hput _ _ _ h]

theorem Upholds.complete {s p tag st lost} (h : Upholds lim s₀ s) : Upholds lim s₀ (complete s p tag st lost) := h.setPort

theorem Upholds.completeLate {s p f} (h : Upholds lim s₀ s) : Upholds lim s₀ (completeLate s p f) := by
  unfold Machine.completeLate; split; exacts [h.addCtr.complete.raise, h]

theorem Upholds.expireLate {s p t} (h : Upholds lim s₀ s) : Upholds lim s₀ (expireLate s p t) :=
  h.setPort.foldl fun _ _ h => h.completeLate

theorem Upholds.leaving {s p f e} (h : Upholds lim s₀ s) : Upholds lim s₀ (leaving s p f e) := by
  unfold Machine.leaving; split; exacts [h.maxF, .ite (.ite h.setPort.complete h.addCtr.complete.raise) h.complete, h]

theorem Upholds.frameBad {s n} (h : Upholds lim s₀ s) : Upholds lim s₀ (frameBad s n).2 := .iteSnd h h.keep.openRead
theorem Upholds.startSound {s p q t f} (h : Upholds lim s₀ s) : Upholds lim s₀ (startSound s p q t f) := h.leaving.setPort

theorem Upholds.startFrame {s p q t f} (h : Upholds lim s₀ s) : Upholds lim s₀ (startFrame s p q t f) :=
  .ite h.frameBad h.frameBad.startSound

theorem Upholds.dropStale {n p t} {s : State} (h : Upholds lim s₀ s) : Upholds lim s₀ (dropStale s p t n) := by
  induction n generalizing s with
  | zero => exact h
  | succ n ih => unfold Machine.dropStale; extract_lets; split; exacts [.ite (ih h.setPort.txLoss) h, h]

theorem Upholds.lower3 {s p t} {ok : Nat → TxFrame → Bool} (h : Upholds lim s₀ s) : Upholds lim s₀ (takeNext.lower3 s p t ok)
    := by
  unfold Machine.takeNext.lower3; extract_lets; split; exacts [.ite h.setPort.startFrame h, h]

theorem Upholds.lower2 {s p t} {ok : Nat → TxFrame → Bool} (h : Upholds lim s₀ s) : Upholds lim s₀ (takeNext.lower2 s p t ok)
    := by
  unfold Machine.takeNext.lower2; extract_lets; split; exacts [.ite h.setPort.startFrame h.lower3, h.lower3]

theorem Upholds.takeLower {s p t} (h : Upholds lim s₀ s) : Upholds lim s₀ (takeNext.takeLower s p t) := by
  unfold Machine.takeNext.takeLower; extract_lets; split
  · exact .ite (Upholds.ite h h.dropStale).setPort.startFrame (Upholds.ite h h.dropStale).lower2
  · exact (Upholds.ite h h.dropStale).lower2

theorem Upholds.takeNext {s p t} (h : Upholds lim s₀ s) : Upholds lim s₀ (takeNext s p t) :=
  .ite h.expireLate (by
    split
    · exact h.expireLate.setPort.startFrame
    · exact by split; exacts [.ite h.expireLate.setPort.startFrame h.expireLate.takeLower, h.expireLate.takeLower])

theorem Upholds.endFrame {s : State} {p : Nat} (h : Upholds lim s₀ s) : Upholds lim s₀ (endFrame s p) := by
  unfold Machine.endFrame; extract_lets; split
  · exact h
  · split; exacts [h.setPort.addCtr.addCtr, h.setPort.addCtr.addCtr, h.setPort.addCtr.addCtr, h.setPort.addCtr]

theorem Upholds.sendPause {s p quanta} (h : Upholds lim s₀ s) : Upholds lim s₀ (sendPause s p quanta) :=
  .ite h (h.foldl fun _ _ h => .ite h.txLoss h.setPort)

theorem Upholds.fillControl {s p fill refresh} (h : Upholds lim s₀ s) : Upholds lim s₀ (fillControl s p fill refresh) :=
  .ite h (.ite (.ite h.setPort.sendPause (.ite h.sendPause h)) (.ite h.setPort.sendPause h))

theorem Upholds.discardQueued {s p} (h : Upholds lim s₀ s) : Upholds lim s₀ (discardQueued s p) :=
  .ite h.setPort h.setPort.addCtr.raise

theorem Upholds.linkBoundary {s p} (h : Upholds lim s₀ s) : Upholds lim s₀ (linkBoundary s p) := by
  unfold Machine.linkBoundary; extract_lets; split
  · exact h
  · exact h.setPort.setF.setFB.setFB.setFB.andThen fun h =>
      .ite h.setFB (Upholds.ite h.setFB.logEv h.setFB.logEv.discardQueued).raise

theorem Upholds.publishNet {s p} (h : Upholds lim s₀ s) : Upholds lim s₀ (publishNet s p) := h.setFB.setFB.setR

end Sys2Proof.Machine
end

section
/-! SUPPORT. O59, the replies the command engine sends. -/

namespace Sys2Proof.Machine

open Sys2Proof

variable {lim : Nat} {s₀ : State}

theorem Upholds.ringPlace {s b} (h : Upholds lim s₀ s) : Upholds lim s₀ (ringPlace s b).2 := .itePair h h.engine.setR.raise

theorem Upholds.udpReply {s ctx ip port b} (h : Upholds lim s₀ s) : Upholds lim s₀ (udpReply s ctx ip port b) :=
  h.keep.foldl fun _ _ h => h.enqueue3

theorem Upholds.spiPlace {s b} (h : Upholds lim s₀ s) : Upholds lim s₀ (spiPlace s b) := .ite h.engine h.engine.raise

theorem Upholds.placeReply {s ctx b} (h : Upholds lim s₀ s) : Upholds lim s₀ (placeReply s ctx b) := by
  unfold Machine.placeReply; split; exacts [.ite h.engine (.ite h.ringPlace h.engine), h.spiPlace, h.udpReply]

theorem Upholds.putSession {s v} (h : Upholds lim s₀ s) : Upholds lim s₀ (putSession s v) := h.engine

theorem Upholds.noteReplied {s ctx b} (h : Upholds lim s₀ s) : Upholds lim s₀ (noteReplied s ctx b) := by
  unfold Machine.noteReplied; split; exacts [h, h.engine]

theorem Upholds.replyCode {s ctx code payload} (h : Upholds lim s₀ s) : Upholds lim s₀ (replyCode s ctx code payload) :=
  (Upholds.ite h.addCtr.raise h).noteReplied.placeReply

theorem Upholds.reply {s ctx st payload} (h : Upholds lim s₀ s) : Upholds lim s₀ (reply s ctx st payload) := h.replyCode

theorem Upholds.replyTo {s ctx st payload} (h : Upholds lim s₀ s) : Upholds lim s₀ (replyTo s ctx st payload) := by
  unfold Machine.replyTo; split; exacts [h.reply, h]

end Sys2Proof.Machine
end

section
/-! SUPPORT. O59, the clappers on the pair link and on the network. -/

namespace Sys2Proof.Machine

open Sys2Proof

variable {lim : Nat} {s₀ : State}

theorem Upholds.pairSend {s type body} (h : Upholds lim s₀ s) : Upholds lim s₀ (pairSend s type body) := h.keep
theorem Upholds.clapLink {s release} (h : Upholds lim s₀ s) : Upholds lim s₀ (clapLink s release) := h.keep.pairSend

theorem Upholds.clapNet {s release} (h : Upholds lim s₀ s) : Upholds lim s₀ (clapNet s release) :=
  h.keep.foldl fun _ _ h => .ite (h.keep.sendUdp (fun _ _ _ h => h.enqueue1)) h

theorem Upholds.pairRelease {s} (h : Upholds lim s₀ s) : Upholds lim s₀ (pairRelease s) := .ite h h.clapLink.clapNet.keep

end Sys2Proof.Machine
end

section
/-! SUPPORT. O59, the DMA engines. -/

namespace Sys2Proof.Machine

open Sys2Proof

variable {lim : Nat} {s₀ : State}

theorem Upholds.setCore {s k c} (h : Upholds lim s₀ s) : Upholds lim s₀ (setCore s k c) := h.keep

theorem Upholds.dmaPart {s k out local_ ra n} (h : Upholds lim s₀ s) : Upholds lim s₀ (dmaPart s k out local_ ra n).2 := by
  unfold Machine.dmaPart; split
  · exact h.fabError
  · exact .iteSnd (.iteSnd h.eccRead (.ite h.eccRead.dramWrite h.eccRead.memWrite)) (.iteSnd h.eccRead h.eccRead.memWrite)

theorem Upholds.dmaTransfer {s k d limit} (h : Upholds lim s₀ s) : Upholds lim s₀ (dmaTransfer s k d limit).2 :=
  .iteSnd h (h.foldlSnd fun _ _ h => .iteSnd h.dmaPart h)

theorem Upholds.dmaStop {k s d} (h : Upholds lim s₀ s) : Upholds lim s₀ (dmaStop k s d) := h.keep.dmaTransfer
theorem Upholds.dmaDrain {s k} (h : Upholds lim s₀ s) : Upholds lim s₀ (dmaDrain s k) := h.keep.masterReset

theorem Upholds.sourceReset {s k} (h : Upholds lim s₀ s) : Upholds lim s₀ (sourceReset s k) :=
  .ite h.masterReset (h.foldl fun _ _ h => h.dmaStop).dmaDrain

theorem Upholds.dmaFail {s k ch} (h : Upholds lim s₀ s) : Upholds lim s₀ (dmaFail s k ch) := h.dmaDrain.setCore
theorem Upholds.dmaError {s k} (h : Upholds lim s₀ s) : Upholds lim s₀ (dmaError s k) := h.dmaFail

end Sys2Proof.Machine
end

section
/-! SUPPORT. O59, the dispatcher. -/

namespace Sys2Proof.Machine

open Sys2Proof

variable {lim : Nat} {s₀ : State}

theorem Upholds.setBank {s b v} (h : Upholds lim s₀ s) : Upholds lim s₀ (setBank s b v) := .ite h.keep h.keep
theorem Upholds.noteCore {s b t k} (h : Upholds lim s₀ s) : Upholds lim s₀ (noteCore s b t k) := h.setR
theorem Upholds.noteCancel {s b t reason race} (h : Upholds lim s₀ s) : Upholds lim s₀ (noteCancel s b t reason race) := h.setR

theorem Upholds.clearWindow {s b} (h : Upholds lim s₀ s) : Upholds lim s₀ (clearWindow s b) := h.keep

theorem Upholds.setInst {s i} (h : Upholds lim s₀ s) : Upholds lim s₀ (setInst s i) := .ite h.keep.setR h.keep

theorem Upholds.missFrame {s f cancelled late task} (h : Upholds lim s₀ s) : Upholds lim s₀ (missFrame s f cancelled late task) :=
  .ite h.keep h.keep.addCtr.raise

theorem Upholds.instFault {s k} (h : Upholds lim s₀ s) : Upholds lim s₀ (instFault s k) := by
  unfold Machine.instFault; split; exacts [h, h.setInst.addCtr.raise.missFrame]

theorem Upholds.logMissed {l} {s : State} (h : Upholds lim s₀ s) : Upholds lim s₀ (logMissed s l) := by
  induction l generalizing s with
  | nil => exact h.keep
  | cons x l ih => exact .ite (ih h.logRun) h.keep

theorem Upholds.missRecords {s} (h : Upholds lim s₀ s) : Upholds lim s₀ (missRecords s) := h.logMissed

theorem Upholds.takeToken {s b idx f} (h : Upholds lim s₀ s) : Upholds lim s₀ (takeToken s b idx f) := by
  unfold Machine.takeToken; split
  · exact h
  · exact by
      split
      · exact h
      · exact .ite (.ite h.addCtr.raise h.keep) (by
          extract_lets
          split
          · exact .ite (.ite h.addCtr h.setInst) h.addCtr
          · exact .ite h.addCtr h.setInst)

theorem Upholds.cancelInst {s i} (h : Upholds lim s₀ s) : Upholds lim s₀ (cancelInst s i) :=
  .ite h.setInst.noteCancel.addCtr (.ite h.setInst.noteCancel.addCtr.raise h.setInst.noteCancel.addCtr)

theorem Upholds.noteMissed {s cancelled late} (h : Upholds lim s₀ s) : Upholds lim s₀ (noteMissed s cancelled late) :=
  h.foldl fun _ _ h => h.missFrame

theorem Upholds.deadline {s due} (h : Upholds lim s₀ s) : Upholds lim s₀ (deadline s due) :=
  ((h.foldl fun _ _ h => h.cancelInst).foldl fun _ _ h => h.setInst.addCtr.setCore).noteMissed

theorem Upholds.abortInst {s i} (h : Upholds lim s₀ s) : Upholds lim s₀ (abortInst s i) :=
  h.sourceReset.setCore.setInst.addCtr.raise.logEv.missFrame

theorem Upholds.deadlineToken {s t} (h : Upholds lim s₀ s) : Upholds lim s₀ (deadlineToken s t) := by
  unfold Machine.deadlineToken; split; exacts [h, h.keep.deadline, (h.keep.foldl fun _ _ h => h.abortInst).deadline]

theorem Upholds.hostCancel {s c} (h : Upholds lim s₀ s) : Upholds lim s₀ (hostCancel s c) :=
  .ite h (h.foldl fun _ _ h => h.cancelInst).noteMissed.logEv

theorem Upholds.releaseBank {s b} (h : Upholds lim s₀ s) : Upholds lim s₀ (releaseBank s b) := by
  unfold Machine.releaseBank; split; exacts [.ite h.keep.setBank h, h]

theorem Upholds.startInst {s i k} (h : Upholds lim s₀ s) : Upholds lim s₀ (startInst s i k) := by
  unfold Machine.startInst; split; exacts [h, h.setCore.setInst.noteCore.keep.andThen fun h => .ite h.addCtr h]

theorem Upholds.noteDepths {s} (h : Upholds lim s₀ s) : Upholds lim s₀ (noteDepths s) := h.foldl fun _ _ h => h.setR.maxF

theorem Upholds.dispatcherCycle {s : State} (h : Upholds lim s₀ s) : Upholds lim s₀ (dispatcherCycle s) := by
  refine (Upholds.noteDepths ?_).keep
  split
  case' h_1 => apply Upholds.startInst
  all_goals
    refine (((h.keep.foldl fun _ _ h => ?_).foldl fun _ _ h => h.deadlineToken).keep.foldl
      fun _ _ h => h.hostCancel).releaseBank.releaseBank
    split; exacts [h.takeToken, h]

theorem Upholds.injectSource {s code f} (h : Upholds lim s₀ s) : Upholds lim s₀ (injectSource s code f) := h.keep
theorem Upholds.injectToken {s t} (h : Upholds lim s₀ s) : Upholds lim s₀ (injectToken s t) := h.keep
theorem Upholds.sendArcs {s i idxs} (h : Upholds lim s₀ s) : Upholds lim s₀ (sendArcs s i idxs) := .ite h.keep h

theorem Upholds.taskEnd {s k} (h : Upholds lim s₀ s) : Upholds lim s₀ (taskEnd s k) := by
  unfold Machine.taskEnd; extract_lets; split; exacts [h.setCore, h.setCore.sendArcs.setInst]

theorem Upholds.taskSignal {s k arc} (h : Upholds lim s₀ s) : Upholds lim s₀ (taskSignal s k arc) := by
  unfold Machine.taskSignal; split; exacts [h, .ite h.sendArcs.setInst h.addCtr.raise.logEv]

theorem Upholds.publishDisp {s active} (h : Upholds lim s₀ s) : Upholds lim s₀ (publishDisp s active) :=
  (h.setR.setR.setR.foldl fun _ _ h => h.setR).keep

end Sys2Proof.Machine
end

section
/-! SUPPORT. O59, the convolution engine. -/

namespace Sys2Proof.Machine

open Sys2Proof

variable {lim : Nat} {s₀ : State}

theorem Upholds.setChan {s c v} (h : Upholds lim s₀ s) : Upholds lim s₀ (setChan s c v) := h.keep
theorem Upholds.sramWords {s c keys v} (h : Upholds lim s₀ s) : Upholds lim s₀ (sramWords s c keys v).2 := h.openRead

theorem Upholds.storeSlot {s c q x} (h : Upholds lim s₀ s) : Upholds lim s₀ (storeSlot s c q x) := by
  unfold Machine.storeSlot; split; exacts [.ite h.blockWrite h, h]

theorem Upholds.convRead {s c a n} (h : Upholds lim s₀ s) : Upholds lim s₀ (convRead s c a n).2 :=
  .ite h.eccRead.addCtr.raise h.eccRead

theorem Upholds.delayLine {s c p b k} (h : Upholds lim s₀ s) : Upholds lim s₀ (delayLine s c p b k).2 :=
  h.foldlSnd fun _ _ h => .iteSnd h (.iteSnd h.convRead h.convRead)

theorem Upholds.blockInto {s c p n reserve lines x} (h : Upholds lim s₀ s) :
    Upholds lim s₀ (blockInto s c p n reserve lines x).2 :=
  .iteSnd (h.foldlSnd fun _ _ h => by split; exacts [h, .iteSnd h.convRead h.convRead])
    (h.foldlSnd fun _ _ h => by split; exacts [h, .iteSnd h.convRead h.convRead]).sramWords.openWrite

theorem Upholds.histWords {s c n} (h : Upholds lim s₀ s) : Upholds lim s₀ (histWords s c n).2.2 := h.sramWords.sramWords

theorem Upholds.blockWindow {s : State} {c p : Nat} {n : Int} (h : Upholds lim s₀ s) :
    Upholds lim s₀ (blockWindow s c p n).2 := by
  unfold Machine.blockWindow; extract_lets places r s₁
  have hr : Upholds lim s₀ r.2 := .iteSnd h (h.foldlSnd fun _ _ h => h.eccRead)
  exact (Upholds.ite hr.addCtr.raise hr).histWords

theorem Upholds.intoActive {s c p n lines x} (h : Upholds lim s₀ s) : Upholds lim s₀ (intoActive s c p n lines x).2 := by
  unfold Machine.intoActive; split; exacts [h.blockInto, h]

theorem Upholds.intoReserve {s c p n lines chg} (h : Upholds lim s₀ s) : Upholds lim s₀ (intoReserve s c p n lines chg).2 := by
  unfold Machine.intoReserve; split
  · split; exacts [h.blockInto, h]
  · exact h

theorem Upholds.blockWork {s c p n} (h : Upholds lim s₀ s) : Upholds lim s₀ (blockWork s c p n) := by
  cases hdue : blockDue s c p (prepRun (chanOf s c) (runFor (chanOf s c) n) n) n with
  | false => rwa [blockWork_not_due hdue]
  | true =>
    rw [blockWork_due hdue]
    exact (Upholds.ite h.blockWindow.delayLine.intoActive.intoReserve.blockWrite
      h.blockWindow.delayLine.intoActive.intoReserve).setChan

theorem Upholds.takeInput {s c n x} (h : Upholds lim s₀ s) : Upholds lim s₀ (takeInput s c n x) :=
  (Upholds.ite h.openWrite h.openWrite.blockWrite).setChan

theorem Upholds.ringHeard {s : State} {c which : Nat} {n : Int} {x : Option ConvCtx} (h : Upholds lim s₀ s) :
    Upholds lim s₀ (ringHeard s c which n x).2 := by
  unfold Machine.ringHeard; split
  · exact h
  · extract_lets r
    exact .iteSnd h (h.sramWords : Upholds lim s₀ r.2)

theorem Upholds.channelFeed {s : State} {c : Nat} {n : Int} {x : List Int} (h : Upholds lim s₀ s) :
    Upholds lim s₀ (channelFeed s c n x).2.2 := by
  unfold Machine.channelFeed
  refine .iteSndSnd h.takeInput ?_
  extract_lets s₁ ch r hist
  have h₁ : Upholds lim s₀ hist.2.2 := (h.foldl fun _ _ h => h.blockWork).histWords
  split
  next ra s₂ hra =>
    have h₂ : Upholds lim s₀ (ra, s₂).2 := hra ▸ h₁.ringHeard
    dsimp only
    exact (Upholds.ringHeard h₂).setChan.takeInput

theorem Upholds.noteSat {s k} (h : Upholds lim s₀ s) : Upholds lim s₀ (correctBus.noteSat s k) := .ite h h.addCtr.raise

theorem Upholds.correctBus {s : State} {c : Nat} {n : Int} {x : List Int} (h : Upholds lim s₀ s) :
    Upholds lim s₀ (correctBus s c n x).2 := by
  unfold Machine.correctBus; extract_lets _ _ y
  have hq : Upholds lim s₀ (Machine.channelFeed s c n y).2.2 := h.channelFeed
  generalize Machine.channelFeed s c n y = q at hq ⊢
  dsimp only
  split; exacts [.iteSnd hq hq.noteSat, hq.noteSat]

theorem Upholds.genFrame {s n} (h : Upholds lim s₀ s) : Upholds lim s₀ (genFrame s n) := .ite h.keep h.keep

theorem Upholds.channelBoundary {s c n} (h : Upholds lim s₀ s) : Upholds lim s₀ (channelBoundary s c n) := by
  unfold Machine.channelBoundary; extract_lets; split
  · exact h.setChan
  · exact by extract_lets; split; exacts [.ite h.setChan.addCtr.raise h.setChan, h.setChan]

theorem Upholds.clearMiss {s} (h : Upholds lim s₀ s) : Upholds lim s₀ (clearMiss s) := h.keep

theorem Upholds.convBoundary {s n} (h : Upholds lim s₀ s) : Upholds lim s₀ (convBoundary s n) :=
  (h.foldl fun _ _ h => h.channelBoundary).genFrame

theorem Upholds.chgReject {s st} (h : Upholds lim s₀ s) : Upholds lim s₀ (chgReject s st) := by
  unfold Machine.chgReject; split; exacts [h.addCtr, h.addCtr.raise, h.addCtr.raise, h.addCtr.raise, h]

theorem Upholds.setChange {s c slot fx x} (h : Upholds lim s₀ s) : Upholds lim s₀ (setChange s c slot fx x).2 := by
  unfold Machine.setChange; extract_lets; split
  · exact h.chgReject
  · exact (Upholds.ite h.setChan.addCtr h.setChan).stamp.logCommit

theorem Upholds.setEnd {s} (h : Upholds lim s₀ s) : Upholds lim s₀ (setEnd s).2 := by
  unfold Machine.setEnd; split; exacts [h, by extract_lets; split; exacts [h.keep, .iteSnd h.keep.addCtr h.keep.setChan]]

theorem Upholds.conversionDone {s c slot} (h : Upholds lim s₀ s) : Upholds lim s₀ (conversionDone s c slot) := by
  unfold Machine.conversionDone; extract_lets; split; exacts [h.setChan.storeSlot.raise, h]

/-- Bytes written one after another. -/
theorem wf_foldl_write {α : Type} {at_ : α → Nat} {byte : α → Byte} (l : List α) (m : Memory) (w : Memory.wf m = true) :
    Memory.wf (l.foldl (fun m x => Memory.write m (at_ x) (byte x)) m) = true :=
  foldl_invariant (fun m => Memory.wf m = true) _ (fun m _ w => Memory.wf_write m _ _ w) l m w

theorem Upholds.clearRings {s} (h : Upholds lim s₀ s) : Upholds lim s₀ (clearRings s) :=
  (h.remember fun w => Sparse.wf_filter _ _ _ (h.memory w)).whole.foldl fun _ _ h => h.storeSlot

theorem Upholds.moveRings {s old} (h : Upholds lim s₀ s) : Upholds lim s₀ (moveRings s old) :=
  .ite h (h.remember fun w => wf_foldl_write _ _ (Sparse.wf_filter _ _ _ (h.memory w))).whole

theorem Upholds.channelCut {s q c} (h : Upholds lim s₀ s) : Upholds lim s₀ (channelCut s q c).1 :=
  .iteFst h.setChan (.iteFst h.setChan (by extract_lets; split; exacts [.iteFst h.setChan h.setChan, h.setChan]))

theorem Upholds.convCut {s : State} {q : ConvCut} (h : Upholds lim s₀ s) : Upholds lim s₀ (convCut s q) := by
  unfold Machine.convCut; extract_lets s₁ one
  have h₁ : Upholds lim s₀ s₁ := by unfold s₁; split; exacts [.ite h.clearRings h.moveRings, h.clearRings]
  have hq : Upholds lim s₀ ((List.range (busCount s₁)).foldl one (s₁, 0, 0, false, [])).1 :=
    h₁.foldlFst fun _ _ h => h.channelCut
  generalize (List.range (busCount s₁)).foldl one (s₁, 0, 0, false, []) = r at hq ⊢
  obtain ⟨s₂, rep, lost, aff, items⟩ := r
  exact ((Upholds.ite hq hq.addCtr).foldl fun _ _ h => h.setChan).andThen fun h =>
    (Upholds.ite h.keep h).andThen fun h => (Upholds.ite h.logEv h).andThen fun h => .ite h h.raise

theorem Upholds.publishConv {s n active} (h : Upholds lim s₀ s) : Upholds lim s₀ (publishConv s n active) :=
  Upholds.keep (s := if active then _ else _) (.ite h.keep h.keep)

theorem Upholds.convUsed {s n} (h : Upholds lim s₀ s) : Upholds lim s₀ (convUsed s n) := h.foldl fun _ _ h => h.setR.maxF
theorem Upholds.capCommit {s pos idx} (h : Upholds lim s₀ s) : Upholds lim s₀ (capCommit s pos idx) :=
  .ite (by split; exacts [h, h.keep.setR64]) h.keep

theorem Upholds.capStore {s ring i v} (h : Upholds lim s₀ s) : Upholds lim s₀ (capStore s ring i v) := h.blockWrite
end Sys2Proof.Machine
end

section
/-! SUPPORT. O59, the crosspoint and its paths. -/

namespace Sys2Proof.Machine

open Sys2Proof

variable {lim : Nat} {s₀ : State}

theorem Upholds.nodeReject {s out inp log} (h : Upholds lim s₀ s) : Upholds lim s₀ (nodeReject s out inp log) :=
  .ite h.addCtr.raise.logEv h.addCtr.raise

theorem Upholds.ngainCommit {s v} (h : Upholds lim s₀ s) : Upholds lim s₀ (ngainCommit s v) :=
  (Upholds.ite h.nodeReject (.ite h.nodeReject (.ite h.nodeReject h.keep))).andThen fun h => .ite h.setF h

theorem Upholds.decideMute {s} (h : Upholds lim s₀ s) : Upholds lim s₀ (decideMute s) := h.keep
theorem Upholds.houseAssert {s} (h : Upholds lim s₀ s) : Upholds lim s₀ (houseAssert s) := .ite h h.keep.addCtr.raise.logEv
theorem Upholds.houseRelease {s} (h : Upholds lim s₀ s) : Upholds lim s₀ (houseRelease s) := .ite h h.keep.logEv
theorem Upholds.fmuteSet {s b} (h : Upholds lim s₀ s) : Upholds lim s₀ (fmuteSet s b) := .ite h h.setEvent.addCtr.raise.logEv
theorem Upholds.fmuteClear {s v} (h : Upholds lim s₀ s) : Upholds lim s₀ (fmuteClear s v) := h.setF
theorem Upholds.ceilLimCommit {s v} (h : Upholds lim s₀ s) : Upholds lim s₀ (ceilLimCommit s v) := .ite h h.setR

theorem Upholds.holdClear {s} (h : Upholds lim s₀ s) : Upholds lim s₀ (holdClear s) := h.keep

theorem Upholds.meterBoundary {s peaks} (h : Upholds lim s₀ s) : Upholds lim s₀ (meterBoundary s peaks) := .ite h h.keep

theorem Upholds.publishXpt {s active} (h : Upholds lim s₀ s) : Upholds lim s₀ (publishXpt s active) := h.setR.setR

end Sys2Proof.Machine
end

section
/-! SUPPORT. O59, the streams in both directions. -/

namespace Sys2Proof.Machine

open Sys2Proof

variable {lim : Nat} {s₀ : State}

theorem Upholds.setRx {s r x} (h : Upholds lim s₀ s) : Upholds lim s₀ (setRx s r x) := h.keep

theorem Upholds.rxAccept {s r leg seq x} (h : Upholds lim s₀ s) : Upholds lim s₀ (rxAccept s r leg seq x) :=
  (Upholds.ite h.addCtr.setF.logEv h.addCtr.setF).setRx

theorem Upholds.rxSequence {s : State} {r leg : Nat} {x : RxSt} {m : RtpPkt} (h : Upholds lim s₀ s) :
    Upholds lim s₀ (rxSequence s r leg x m).1 := by
  unfold Machine.rxSequence; extract_lets _ d s₁ y s₂
  show Upholds lim s₀ s₂
  unfold s₂; split; exacts [(Upholds.ite h.addCtr h).maxF, .ite h.addCtr h]

theorem Upholds.extWrite {s e rows} (h : Upholds lim s₀ s) : Upholds lim s₀ (extWrite s e rows) :=
  h.foldl fun _ _ h => h.foldl fun _ _ h => h.dramCells

theorem Upholds.putRows {a r e rows} (h : Upholds lim s₀ a.2) : Upholds lim s₀ (putRows a r e rows).2 :=
  .iteSnd h.extWrite (h.foldlSnd fun _ _ h => h.openWrite)

theorem Upholds.readStore {s r x n} (h : Upholds lim s₀ s) : Upholds lim s₀ (readStore s r x n).2 :=
  .iteSnd h (.iteSnd (h.foldlSnd fun _ _ h => .itePair h.eccRead.addCtr.raise h.eccRead) (h.foldlSnd fun _ _ h => h.openRead))

theorem Upholds.rxAudio {s r leg x m} (h : Upholds lim s₀ s) : Upholds lim s₀ (rxAudio s r leg x m) :=
  .ite h.setRx.addF (.ite h.setRx.addF (by extract_lets; split; exacts [h.rxAccept, h.rxAccept.putRows.setRx]))

theorem Upholds.streamPacket {s r leg m} (h : Upholds lim s₀ s) : Upholds lim s₀ (streamPacket s r leg m) := by
  unfold Machine.streamPacket; split
  · exact h.addCtr
  · exact .ite h.addCtr
      (.ite h.addF.addCtr
        (.ite h.rxSequence.rxAudio
          (.ite h.rxSequence.rxAccept (Upholds.ite h.rxSequence.rxAccept.setR h.rxSequence.rxAccept).keep)))

theorem Upholds.streamLegDown {s r leg} (h : Upholds lim s₀ s) : Upholds lim s₀ (streamLegDown s r leg) := by
  unfold Machine.streamLegDown; split; exacts [h, .ite h (.ite h.setRx.logEv.raise (.ite h.setRx.logEv.raise h.setRx))]

theorem Upholds.rxCapture {s r x p lab} (h : Upholds lim s₀ s) : Upholds lim s₀ (rxCapture s r x p lab).2 := by
  unfold Machine.rxCapture; extract_lets; split
  · exact (Upholds.ite h.setRx.addCtr h.setRx.addCtr.addCtr.raise).logRun
  · exact .iteSnd h.readStore.setRx (Upholds.ite h.readStore.setRx.addCtr h.readStore.setRx.addCtr.addCtr.raise).logRun
  · exact h.setRx

theorem Upholds.strmCapture {s t p lab c} (h : Upholds lim s₀ s) : Upholds lim s₀ (strmCapture s t p lab c).2 :=
  h.foldlSnd fun _ _ h => by split; exacts [h, .iteSnd h h.rxCapture]

theorem Upholds.carryRx {was : State} {p : Int} {old : RxEnt} {a : List RxSt × State} {r : Nat} {x : RxSt}
    (h : Upholds lim s₀ a.2) : Upholds lim s₀ (carryRx was p old a r x).2 :=
  .iteSnd h h.putRows

theorem Upholds.txAbsent {s lo hi} (h : Upholds lim s₀ s) : Upholds lim s₀ (txAbsent s lo hi) := h.foldl fun _ _ h => h.setR
theorem Upholds.strmDark {s} (h : Upholds lim s₀ s) : Upholds lim s₀ (strmDark s) := (h.foldl fun _ _ h => h.setR).txAbsent
theorem Upholds.first {lab s e} (h : Upholds lim s₀ s) : Upholds lim s₀ (strmCut.first lab s e) := h.setF

theorem Upholds.strmCut {s : State} {t : StreamSec} {p : Int} {lab : Nat} {rateNew : Bool} (h : Upholds lim s₀ s) :
    Upholds lim s₀ (strmCut s t p lab rateNew) := by
  unfold Machine.strmCut; extract_lets _ s₁ was before inst rows _ s₂ s₃
  have h₁ : Upholds lim s₀ s₁ := .ite h.keep h
  have h₃ : Upholds lim s₀ s₃ := h₁.keep
  clear_value was
  split
  rename_i rx s₄ hq
  have h₄ : Upholds lim s₀ s₄ := by
    refine Upholds.of_eq (Upholds.foldlSnd (a := ([], s₃)) h₃ fun a q h => ?_) hq
    split; exacts [h.carryRx, h]
  exact h₄.keep.txAbsent.foldl fun _ _ h => by split; exacts [.ite h h.first, h.first]

theorem Upholds.txPacket {s t e map shown idx} (h : Upholds lim s₀ s) : Upholds lim s₀ (txPacket s t e map shown idx) :=
  (Upholds.ite h.addCtr.setR.setF h).andThen fun h =>
    .ite (.ite h (h.sendUdp (fun _ _ _ h => h.enqueue1)))
      ((Upholds.ite h (h.sendUdp (fun _ _ _ h => h.enqueue1))).sendUdp (fun _ _ _ h => h.enqueue1))

theorem Upholds.strmTransmit {s : State} {p : Int} {lab : Nat} {out : Sparse (List Int)} (h : Upholds lim s₀ s) :
    Upholds lim s₀ (strmTransmit s p lab out) := by
  unfold Machine.strmTransmit; extract_lets _ s₁ i0 sets newest one s₂
  have hone : ∀ u t k, Upholds lim s₀ u → Upholds lim s₀ (one u t k) := by
    intro u t k h
    unfold one; split
    · exact h
    split
    · exact h
    exact .ite h (h.foldl fun _ _ h => .ite h h.txPacket)
  have h₂ : Upholds lim s₀ s₂ := Upholds.foldl h.keep fun _ _ h => hone _ _ _ (hone _ _ _ h)
  exact .ite h₂.keep h₂

theorem Upholds.publishStrm {s active} (h : Upholds lim s₀ s) : Upholds lim s₀ (publishStrm s active) :=
  (h.setR.setR.foldl fun _ _ h => h.setR).foldl fun _ _ h => h.setR

theorem Upholds.metaCount {s ctr} (h : Upholds lim s₀ s) : Upholds lim s₀ (metaCount s ctr) := h.addCtr.raise

theorem Upholds.metaDrop {s ctr reason obj frame} (h : Upholds lim s₀ s) : Upholds lim s₀ (metaDrop s ctr reason obj frame) :=
  h.metaCount.logRun.keep

theorem Upholds.metaCollide {s} (h : Upholds lim s₀ s) : Upholds lim s₀ (metaCollide s) := h.addCtr.raise

theorem Upholds.metaPacket {s b pk} (h : Upholds lim s₀ s) : Upholds lim s₀ (metaPacket s b pk) :=
  .ite h.metaCount
    (.ite h.metaDrop
      (.ite h.metaDrop
        ((h.foldlFst fun _ _ h => by split; exacts [h.metaCount, .iteFst h.metaCollide h]).foldl fun _ _ h =>
          .ite h.metaDrop h.keep)))

theorem Upholds.ompReceive {s} (h : Upholds lim s₀ s) : Upholds lim s₀ (ompReceive s) := by
  unfold Machine.ompReceive; split; exacts [h.keep.metaPacket, h]

theorem Upholds.metaInject {s b} (h : Upholds lim s₀ s) : Upholds lim s₀ (metaInject s b) := h.keep.metaPacket

end Sys2Proof.Machine
end

section
/-! SUPPORT. O59, the memory controller. -/

namespace Sys2Proof.Machine

open Sys2Proof

variable {lim : Nat} {s₀ : State}

theorem Upholds.useCheck {s a} (h : Upholds lim s₀ s) : Upholds lim s₀ (useCheck s a) := h.keep

theorem Upholds.missEv {s log unit engine what frame} (h : Upholds lim s₀ s) : Upholds lim s₀ (missEv s log unit engine what
    frame) :=
  .ite h.logEv h

theorem Upholds.conv {s due log m c} (h : Upholds lim s₀ s) : Upholds lim s₀ (noteMiss.conv s due log m c) :=
  h.keep.addCtr.raise.missEv

theorem Upholds.noteMiss {s use due a n log} (h : Upholds lim s₀ s) : Upholds lim s₀ (noteMiss s use due a n log) := by
  unfold Machine.noteMiss; split
  · exact .ite h h.keep.addCtr.raise.missEv
  · exact h.conv
  · exact h.conv
  · exact h.conv
  · exact h.conv
  · exact h.conv
  · exact (Upholds.addCtr (by split; exacts [h.setRx, h])).raise.missEv
  · exact h

theorem Upholds.expireReqs {s} (h : Upholds lim s₀ s) : Upholds lim s₀ (expireReqs s) := h.keep.foldl fun _ _ h => h.noteMiss

theorem Upholds.masterError {s m src a} (h : Upholds lim s₀ s) : Upholds lim s₀ (masterError s m src a) :=
  .ite h.dmaError (by split; exacts [h.noteMiss, h.noteMiss, h])

theorem Upholds.dramRequest {s q} (h : Upholds lim s₀ s) : Upholds lim s₀ (dramRequest s q) :=
  .ite h (.ite h.fabError.masterError (Upholds.keep (by split; exacts [h.keep.addCtr, h.keep.addCtr, h])))

theorem Upholds.agePromotion {s id t} (h : Upholds lim s₀ s) : Upholds lim s₀ (agePromotion s id t) := .ite h.keep.addCtr h
theorem Upholds.rhRefresh {s bank row} (h : Upholds lim s₀ s) : Upholds lim s₀ (rhRefresh s bank row) := .ite h h.keep.addCtr

theorem Upholds.rhActivate {s bank row} (h : Upholds lim s₀ s) : Upholds lim s₀ (rhActivate s bank row) :=
  (h.foldl fun _ _ h => h.rhRefresh).keep

theorem Upholds.returnReads {n} {s : State} (h : Upholds lim s₀ s) : Upholds lim s₀ (returnReads n s) := by
  induction n generalizing s with
  | zero => exact h
  | succ n ih => unfold Machine.returnReads; extract_lets; split; exacts [ih h.keep, h]

theorem Upholds.dramData {s r} (h : Upholds lim s₀ s) : Upholds lim s₀ (dramData s r) :=
  .ite h.memRead.keep.returnReads h.dramCells

theorem Upholds.drainDram {s} (h : Upholds lim s₀ s) : Upholds lim s₀ (drainDram s) := h.foldl fun _ _ h => h.keep.dramData

theorem Upholds.dramComplete {s ch hit} (h : Upholds lim s₀ s) : Upholds lim s₀ (dramComplete s ch hit) := by
  unfold Machine.dramComplete; split
  · exact h
  · exact by
      extract_lets
      split
      · exact .ite
          (Upholds.ite (Upholds.ite h h.rhActivate).keep.dramData.useCheck
            (Upholds.ite h h.rhActivate).keep.dramData.useCheck.noteMiss).addCtr.raise
          (Upholds.ite h h.rhActivate).keep.dramData.useCheck
      · exact (Upholds.ite h h.rhActivate).keep.dramData.useCheck

theorem Upholds.dramRefresh {s} (h : Upholds lim s₀ s) : Upholds lim s₀ (dramRefresh s) := by
  unfold Machine.dramRefresh; split; exacts [h.keep, h.keep, h]

theorem Upholds.trackLane {s l n} (h : Upholds lim s₀ s) : Upholds lim s₀ (trackLane s l n) :=
  (Upholds.ite h.setF.setF h.setF.setF.addCtr).andThen fun h =>
    (Upholds.ite h.logEv.raise h).andThen fun h => .ite h.keep h

theorem Upholds.oscRead {s counts} (h : Upholds lim s₀ s) : Upholds lim s₀ (oscRead s counts) :=
  .ite h (h.foldl fun _ _ h => h.trackLane)

theorem Upholds.mr4Poll {s rates} (h : Upholds lim s₀ s) : Upholds lim s₀ (mr4Poll s rates) := by
  unfold Machine.mr4Poll; split; exacts [.ite h h.keep.logEv.raise, h.keep]

theorem Upholds.powerDown {s rank} (h : Upholds lim s₀ s) : Upholds lim s₀ (powerDown s rank) := .ite h h.keep

theorem Upholds.selfRefresh {s issued} (h : Upholds lim s₀ s) : Upholds lim s₀ (selfRefresh s issued) :=
  .ite h (by split; exacts [h.keep, h.keep, h.keep, h])

theorem Upholds.memCfgRej {s} (h : Upholds lim s₀ s) : Upholds lim s₀ (memCfgRej s) := h.raise
theorem Upholds.memCfgCommit {s v} (h : Upholds lim s₀ s) : Upholds lim s₀ (memCfgCommit s v) := .ite h.memCfgRej h.setR

theorem Upholds.memTrain {s sets ctx} (h : Upholds lim s₀ s) : Upholds lim s₀ (memTrain s sets ctx) :=
  .ite (by split; exacts [(Upholds.ite h h.memCfgRej).reply, h.memCfgRej]) h.keep

theorem Upholds.trainCtrlCommit {s v} (h : Upholds lim s₀ s) : Upholds lim s₀ (trainCtrlCommit s v) :=
  .ite h.setF.memTrain h.setF

theorem Upholds.trainStore {s fsp t} (h : Upholds lim s₀ s) : Upholds lim s₀ (trainStore s fsp t) :=
  (h.foldl fun _ _ h => h.setF.setF.setF.setF.setF).keep

theorem Upholds.dramWindows {s} (h : Upholds lim s₀ s) : Upholds lim s₀ (dramWindows s) :=
  h.foldl fun _ _ h => h.foldl fun _ _ h => .ite h.setR h

theorem Upholds.setUsable {s} (h : Upholds lim s₀ s) : Upholds lim s₀ (setUsable s) := h.setR64.dramWindows

theorem Upholds.trainFail {s fsp t} (h : Upholds lim s₀ s) : Upholds lim s₀ (trainFail s fsp t) := by
  unfold Machine.trainFail; exact h.keep.setF.setUsable.logEv.raise

theorem Upholds.trainSets {l} {s : State} (h : Upholds lim s₀ s) : Upholds lim s₀ (trainSets l s) := by
  induction l generalizing s with
  | nil => exact h.keep.setF.setUsable
  | cons r l ih => exact .ite h.trainFail (ih h.trainStore)

theorem Upholds.trainApply {s res ms} (h : Upholds lim s₀ s) : Upholds lim s₀ (trainApply s res ms) :=
  .ite h.setF h.setF.trainSets

theorem Upholds.trainingDone {s fsp1 fsp0 ms} (h : Upholds lim s₀ s) : Upholds lim s₀ (trainingDone s fsp1 fsp0 ms) := by
  unfold Machine.trainingDone; split; exacts [h, h.keep.trainApply.raise.keep.replyTo]

theorem Upholds.fspStatus {s st ctx done} (h : Upholds lim s₀ s) : Upholds lim s₀ (fspStatus s st ctx done) :=
  (Upholds.ite h.setF.raise h.setF).replyTo

theorem Upholds.fspRequest {s target ctx} (h : Upholds lim s₀ s) : Upholds lim s₀ (fspRequest s target ctx) :=
  .ite h.fspStatus (.ite h.fspStatus (.ite h.fspStatus (.ite h.memCfgRej.fspStatus (.ite h.keep.addCtr h.keep))))

theorem Upholds.fspReqCommit {s v} (h : Upholds lim s₀ s) : Upholds lim s₀ (fspReqCommit s v) := .ite h.setF.fspRequest h.setF

theorem Upholds.fspDone {s t ms} (h : Upholds lim s₀ s) : Upholds lim s₀ (fspDone s t ms) := by
  unfold Machine.fspDone; split
  · exact h
  · exact .ite h
      (.ite h.keep.fspStatus
        ((Upholds.ite h.keep (.ite h.keep.trainApply.raise h.keep.trainApply.raise)).andThen fun h =>
          (Upholds.ite h.logEv h).fspStatus))

theorem Upholds.publishMem {s} (h : Upholds lim s₀ s) : Upholds lim s₀ (publishMem s) := h.setR.setFB.setR.setR.setR.maxF

end Sys2Proof.Machine
end

section
/-! SUPPORT. O59, the geometry unit. -/

namespace Sys2Proof.Machine

open Sys2Proof

variable {lim : Nat} {s₀ : State}

theorem Upholds.markChanged {s o} (h : Upholds lim s₀ s) : Upholds lim s₀ (markChanged s o) := h.keep

theorem Upholds.objStore {s o ws} (h : Upholds lim s₀ s) : Upholds lim s₀ (objStore s o ws) :=
  (h.foldl fun _ _ h => h.setR).andThen fun h => .ite h.markChanged h

theorem Upholds.objReject {s} (h : Upholds lim s₀ s) : Upholds lim s₀ (objReject s) := h.addCtr.raise

theorem Upholds.objWrite {s o w v} (h : Upholds lim s₀ s) : Upholds lim s₀ (objWrite s o w v) :=
  .ite h (by split; exacts [h.objStore, h.objStore, h.objStore, h.objStore, h.objStore, .ite h.objReject h.objStore, h])

theorem Upholds.metaApply {s m} (h : Upholds lim s₀ s) : Upholds lim s₀ (metaApply s m) :=
  .ite h.objReject h.stamp.objStore.keep

theorem Upholds.metaChoose {best m} (h : Upholds lim s₀ best.2) : Upholds lim s₀ (metaChoose best m).2 := by
  unfold Machine.metaChoose; split; exacts [h, h.metaCollide]

theorem Upholds.dropRunEnd {s} (h : Upholds lim s₀ s) : Upholds lim s₀ (dropRunEnd s) := (Upholds.ite h h.keep).keep

theorem Upholds.metaTick {s} (h : Upholds lim s₀ s) : Upholds lim s₀ (metaTick s).2 := by
  refine .iteSnd h ?_
  exact .foldl (.foldlSnd (a := ([], _)) h.keep fun _ _ h => .iteSnd h.metaDrop h.metaChoose) fun _ _ h => h.metaApply

theorem Upholds.kspmCommit {s v} (h : Upholds lim s₀ s) : Upholds lim s₀ (kspmCommit s v) :=
  .ite h (h.setR.foldl fun _ _ h => .ite h.markChanged h)

theorem Upholds.floorCommit {s v} (h : Upholds lim s₀ s) : Upholds lim s₀ (floorCommit s v) :=
  .ite h (h.setR.foldl fun _ _ h => h.markChanged)

theorem Upholds.changeEnabled {s} (h : Upholds lim s₀ s) : Upholds lim s₀ (changeEnabled s) :=
  h.foldl fun _ _ h => .ite h.markChanged h

theorem Upholds.geomCtrlCommit {s v} (h : Upholds lim s₀ s) : Upholds lim s₀ (geomCtrlCommit s v) :=
  .ite h.setFB.changeEnabled h.setFB

theorem Upholds.setTargets {s o t} (h : Upholds lim s₀ s) : Upholds lim s₀ (setTargets s o t) := h.keep
theorem Upholds.geomCount {s a b n} (h : Upholds lim s₀ s) : Upholds lim s₀ (geomCount s a b n) := .ite h h.addCtr.raise

theorem Upholds.evalOne {s g o prio} (h : Upholds lim s₀ s) : Upholds lim s₀ (evalOne s g o prio) :=
  h.setTargets.keep.geomCount.geomCount.geomCount.geomCount.setR

theorem Upholds.geoRead {s o} (h : Upholds lim s₀ s) : Upholds lim s₀ (geoRead s o).2 := .iteSnd h h.openRead

theorem Upholds.evalAll {g l left} {s : State} (h : Upholds lim s₀ s) : Upholds lim s₀ (evalAll g l left s).1 := by
  induction l generalizing left s with
  | nil => exact h
  | cons o l ih => exact .iteFst (ih (.ite h.geoRead h.geoRead.evalOne)) h

theorem Upholds.statClear {s} (h : Upholds lim s₀ s) : Upholds lim s₀ (statClear s) := h.foldl fun _ _ h => h.setR
theorem Upholds.statSet {s b os} (h : Upholds lim s₀ s) : Upholds lim s₀ (statSet s b os) := h.foldl fun _ _ h => h.setR

theorem Upholds.statPaths {s} (h : Upholds lim s₀ s) : Upholds lim s₀ (statPaths s) :=
  (h.foldl fun _ _ h => h.setR).foldl fun _ _ h => h.setR

theorem Upholds.pathCount {s a b n} (h : Upholds lim s₀ s) : Upholds lim s₀ (pathCount s a b n) := .ite h h.addCtr.raise
theorem Upholds.pathTick {s t objs} {kept : Nat → Bool} (h : Upholds lim s₀ s) : Upholds lim s₀ (pathTick s t kept objs) :=
  (Upholds.ite (Upholds.ite h h.addCtr.raise).logRun h).pathCount.addCtr.pathCount.pathCount.setR.keep.blockWrite

theorem Upholds.geomTick {s late} (h : Upholds lim s₀ s) : Upholds lim s₀ (geomTick s late) := by
  unfold Machine.geomTick; split
  · exact h
  · exact .ite h
      ((Upholds.iteFst h.keep.statClear (h.keep.statClear.foldl fun _ _ h => h.setTargets).keep.evalAll).statSet.andThen fun h =>
        Upholds.andThen (by split; exacts [h.geomCount.logRun, h.geomCount]) fun h =>
          (Upholds.ite h.keep h.keep.statSet.geomCount.logRun).keep.statPaths.setR.maxF.setR.setR.setR64.pathTick)

theorem Upholds.pathMaster {s} (h : Upholds lim s₀ s) : Upholds lim s₀ (pathMaster s).2 := .iteSnd h h.keep

theorem Upholds.takeList {s t} (h : Upholds lim s₀ s) : Upholds lim s₀ (takeList s t).2 :=
  Upholds.foldlSnd (a := ([], s)) h fun _ _ h => h.pathMaster.eccRead

theorem Upholds.farLoad {s : State} {w : FarWin} (h : Upholds lim s₀ s) : Upholds lim s₀ (farLoad s w) := by
  unfold Machine.farLoad; extract_lets base c n m a b s₁
  have hb : Upholds lim s₀ b.2 := .iteSnd h.pathMaster.eccRead h.pathMaster.eccRead.eccRead
  exact (Upholds.ite hb.blockWrite.addCtr.raise hb.blockWrite).keep

theorem Upholds.farFetch {s} (h : Upholds lim s₀ s) : Upholds lim s₀ (farFetch s) :=
  (h.keep.foldl fun _ _ h => h.farLoad).setR64

theorem Upholds.publishGeom {s} (h : Upholds lim s₀ s) : Upholds lim s₀ (publishGeom s) := h.setR.setR.setR

end Sys2Proof.Machine
end

section
/-! SUPPORT. O59, local audio: TDM, decimators, pulse-density outputs. -/

namespace Sys2Proof.Machine

open Sys2Proof

variable {lim : Nat} {s₀ : State}

theorem Upholds.setTdm {s p v} (h : Upholds lim s₀ s) : Upholds lim s₀ (setTdm s p v) := h.keep
theorem Upholds.tdmEnter {s p q} (h : Upholds lim s₀ s) : Upholds lim s₀ (tdmEnter s p q) := .ite h.setTdm h.setTdm.raise
theorem Upholds.zxForce {s n} (h : Upholds lim s₀ s) : Upholds lim s₀ (zxForce s n) := .ite h h.addCtr.raise

theorem Upholds.tdmSlip {s p lab slow} (h : Upholds lim s₀ s) : Upholds lim s₀ (tdmSlip s p lab slow) :=
  (Upholds.ite h.addCtr h).andThen fun h =>
    (Upholds.ite h.addCtr h).andThen fun h => .ite h.logRun h.logRun.setTdm.raise

theorem Upholds.maskReleaseAt {s p i m} (h : Upholds lim s₀ s) : Upholds lim s₀ (maskReleaseAt s p i m) := by
  unfold Machine.maskReleaseAt; extract_lets; split; exacts [h.setTdm.setR, h]

theorem Upholds.slaveRelease {s p n edges} (h : Upholds lim s₀ s) : Upholds lim s₀ (slaveRelease s p n edges) :=
  .ite h (by split; exacts [h, h.maskReleaseAt])

theorem Upholds.tdmPortCapture {s : State} {tdmbuf p : Nat} {n : Int} {lab : Nat} {edges : List TdmSample}
    (h : Upholds lim s₀ s) : Upholds lim s₀ (tdmPortCapture s tdmbuf p n lab edges).2 := by
  unfold Machine.tdmPortCapture; extract_lets; split; extract_lets
  dsimp only
  refine Upholds.blockWrite (.zxForce (.setTdm ?_))
  exact h.slaveRelease.setTdm.foldl fun _ _ h => h.tdmSlip

theorem Upholds.decChannel {s : State} {lio : LioSec} {mics : List (List Bool)} {tdm : List (List (List Int))} {n : Int}
    {c : Nat} {cap : Captured} (h : Upholds lim s₀ s) : Upholds lim s₀ (decChannel s lio mics tdm n c cap).2 := by
  unfold Machine.decChannel; split
  · exact h
  refine .iteSnd h ?_
  extract_lets; split; extract_lets
  dsimp only
  refine .ite (.foldl (.blockWrite ?_) fun _ _ h => h.capStore) (.blockWrite ?_)
  all_goals
    exact (Upholds.ite (Upholds.ite h.keep h.keep.addCtr.raise).raise (.ite h.keep h.keep.addCtr.raise)).foldl
      fun _ _ h => h.blockWrite

theorem Upholds.lioCapture {s : State} {lio : LioSec} {bi : BoundaryIn} {n : Int} {lab : Nat} {cap : Captured}
    (h : Upholds lim s₀ s) : Upholds lim s₀ (lioCapture s lio bi n lab cap).2 := by
  unfold Machine.lioCapture
  generalize List.range 16 = ports
  split
  rename_i tdm s₁ hq
  have h₁ : Upholds lim s₀ s₁ := by
    refine Upholds.of_eq (Upholds.foldlSnd (a := ([], s)) h fun a p h => ?_) hq
    split
    · exact h
    · extract_lets r
      have hr : Upholds lim s₀ r.2 := h.tdmPortCapture
      clear_value r
      exact hr
  exact Upholds.foldlSnd (a := (_, s₁)) h₁ fun _ _ h => h.decChannel

theorem Upholds.maskShadow {s p v} (h : Upholds lim s₀ s) : Upholds lim s₀ (maskShadow s p v) := h.setTdm
theorem Upholds.maskCommit {s p v} (h : Upholds lim s₀ s) : Upholds lim s₀ (maskCommit s p v) := h.setR.maskShadow

theorem Upholds.releaseMasks {s n} (h : Upholds lim s₀ s) : Upholds lim s₀ (releaseMasks s n) :=
  h.foldl fun _ _ h => .ite h.maskReleaseAt h

theorem Upholds.masksSettle {s n} (h : Upholds lim s₀ s) : Upholds lim s₀ (masksSettle s n) :=
  h.foldl fun _ _ h => by split; exacts [.ite h.setTdm h, h]

theorem Upholds.tdmStart {s p pcfg pstart mask n} (h : Upholds lim s₀ s) : Upholds lim s₀ (tdmStart s p pcfg pstart mask n) :=
  h.tdmEnter

theorem Upholds.tdmCut {s lio n newRate} (h : Upholds lim s₀ s) : Upholds lim s₀ (tdmCut s lio n newRate) :=
  h.foldl fun _ _ h =>
    .ite (.ite h.setR.setR.setR.maskShadow h.setR.setR.setR.tdmStart) (by
      split
      · exact h.setR.setR.setR.setTdm
      · exact h.setR.setR.setR
      · exact h.setR.setR.setR.tdmEnter)

theorem Upholds.decCut {s lio} (h : Upholds lim s₀ s) : Upholds lim s₀ (decCut s lio) :=
  h.setR.foldl fun _ _ h => h.keep.setR.setR

theorem Upholds.setPdm {s g v} (h : Upholds lim s₀ s) : Upholds lim s₀ (setPdm s g v) := h.keep

theorem Upholds.pdmCut {s lio} (h : Upholds lim s₀ s) : Upholds lim s₀ (pdmCut s lio) :=
  h.foldl fun _ _ h => .ite h (.ite h.setR h.setR.setPdm)

theorem Upholds.lioCut {s lio n newRate} (h : Upholds lim s₀ s) : Upholds lim s₀ (lioCut s lio n newRate) :=
  h.tdmCut.decCut.pdmCut

theorem Upholds.tdmStates {s n} (h : Upholds lim s₀ s) : Upholds lim s₀ (tdmStates s n) :=
  h.foldl fun _ _ h => by extract_lets; split; exacts [.ite h.tdmEnter h, .ite h.tdmEnter h, h]

theorem Upholds.tdmEmit {s lio n out} (h : Upholds lim s₀ s) : Upholds lim s₀ (tdmEmit s lio n out) :=
  h.foldl fun _ _ h => .ite h (Upholds.ite h h.eccRead).setTdm.zxForce.blockWrite

theorem Upholds.pdmLoadErr {s g kind} (h : Upholds lim s₀ s) : Upholds lim s₀ (pdmLoadErr s g kind) :=
  h.addCtr.raise.logRun.setPdm

theorem Upholds.pdmQueue {s g f} (h : Upholds lim s₀ s) : Upholds lim s₀ (pdmQueue s g f) := .ite h.setPdm h.setPdm.pdmLoadErr

theorem Upholds.pdmStrobe {s g phase} (h : Upholds lim s₀ s) : Upholds lim s₀ (pdmStrobe s g phase) :=
  .ite h
    (Upholds.andThen (by split; exacts [h.setR.pdmLoadErr, h.setR.setPdm]) fun h =>
      .ite h.setPdm (.ite h.setPdm (.ite h.setPdm (.ite h.setPdm h.setPdm.addCtr.raise))))

theorem Upholds.pdmEmit {s lio mute out} (h : Upholds lim s₀ s) : Upholds lim s₀ (pdmEmit s lio mute out) :=
  h.foldl fun _ _ h => .ite h (.ite h.pdmQueue h.pdmQueue.pdmStrobe)

theorem Upholds.spanCommit {s g v} (h : Upholds lim s₀ s) : Upholds lim s₀ (spanCommit s g v) := h.setR.setPdm

theorem Upholds.pdmClearAssert {s} (h : Upholds lim s₀ s) : Upholds lim s₀ (pdmClearAssert s) :=
  .ite h h.keep.addCtr.raise.logEv

theorem Upholds.pdmClearRelease {s} (h : Upholds lim s₀ s) : Upholds lim s₀ (pdmClearRelease s) := h.keep

theorem Upholds.publishLio {s} (h : Upholds lim s₀ s) : Upholds lim s₀ (publishLio s) :=
  ((h.foldl fun _ _ h => by extract_lets; split; exacts [h.setR.setR64.setR, h.setR]).setR.foldl fun _ _ h => h.setR).setR

theorem Upholds.tdmMaskRelease {s p idx m} (h : Upholds lim s₀ s) : Upholds lim s₀ (tdmMaskRelease s p idx m) :=
  .ite h.maskReleaseAt h.maskReleaseAt

theorem Upholds.tdmZeroxTimeout {s p out j} (h : Upholds lim s₀ s) : Upholds lim s₀ (tdmZeroxTimeout s p out j) := by
  unfold Machine.tdmZeroxTimeout; extract_lets; split; exacts [h, .ite h.setTdm.zxForce h]

theorem Upholds.decSettled {s c} (h : Upholds lim s₀ s) : Upholds lim s₀ (decSettled s c) := by
  unfold Machine.decSettled; split; exacts [h, .ite h h.keep.raise]

end Sys2Proof.Machine
end

section
/-! SUPPORT. O59, the renderer. -/

namespace Sys2Proof.Machine

open Sys2Proof

variable {lim : Nat} {s₀ : State}

theorem Upholds.reportHits {s mst} {code : Nat → Nat} {hit : Nat → Bool} (h : Upholds lim s₀ s) : Upholds lim s₀ (reportHits s
    mst code hit) :=
  h.foldl fun _ _ h => h.eccReport

theorem Upholds.headMove {s r q} (h : Upholds lim s₀ s) : Upholds lim s₀ (headMove s r q) := by
  unfold Machine.headMove; extract_lets
  exact (h.reportHits.remember fun w => wf_headOut _ r q (by split; exacts [h.memory w, Sparse.wf_filter _ _ _ (h.memory w)])).whole

theorem Upholds.objCapture {s p objs} (h : Upholds lim s₀ s) : Upholds lim s₀ (objCapture s p objs) :=
  (Upholds.ite h.headMove (h.remember fun w => Sparse.wf_filter _ _ _ (h.memory w)).whole).foldl fun _ _ h => .ite h.blockWrite h

theorem Upholds.headFlush {s} (h : Upholds lim s₀ s) : Upholds lim s₀ (headFlush s) := h.foldl fun _ _ h => h.headMove

theorem Upholds.farStore {s t p objs} (h : Upholds lim s₀ s) : Upholds lim s₀ (farStore s t p objs) :=
  h.foldl fun _ _ h => .ite h h.blockWrite

theorem Upholds.tapHits {s hits} (h : Upholds lim s₀ s) : Upholds lim s₀ (tapHits s hits) :=
  h.foldl fun _ _ h => h.pathMaster.eccReport

theorem Upholds.renderSide {s : State} {ri : RenderIn} {nodes : Sparse Node} {mixes : Nat → Bool} {g : GraphSec} {w : Work}
    {x : Side} (h : Upholds lim s₀ s) : Upholds lim s₀ (renderSide s ri nodes mixes g w x).2.2 := by
  unfold Machine.renderSide; split; extract_lets acc rows bus mix bsat msat s₁ s₂ s₃ s₄ s₅ bytes s₆
  have h₄ : Upholds lim s₀ s₄ := h.tapHits.pathCount.pathCount.pathCount
  have h₅ : Upholds lim s₀ s₅ := .ite h₄ h₄.addCtr.raise
  have h₆ : Upholds lim s₀ s₆ := by unfold s₆; split; exacts [h₅.blockWrite, h₅]
  exact h₆

end Sys2Proof.Machine
end

section
/-! SUPPORT. O59, the stages of the frame under processing. -/

namespace Sys2Proof.Machine

open Sys2Proof

variable {lim : Nat} {s₀ : State}

theorem Upholds.setWork {s w} (h : Upholds lim s₀ s) : Upholds lim s₀ (setWork s w) := h.keep

theorem Upholds.sideRendered {s w x second} (h : Upholds lim s₀ s) : Upholds lim s₀ (sideRendered s w x second).2.2 := by
  unfold Machine.sideRendered; split; exacts [h.renderSide, h]

theorem Upholds.slotRegs {s used} (h : Upholds lim s₀ s) : Upholds lim s₀ (slotRegs s used) :=
  h.setR.maxF.foldl fun _ _ h => h.setR

theorem Upholds.pathRender {s} (h : Upholds lim s₀ s) : Upholds lim s₀ (pathRender s) := by
  unfold Machine.pathRender; split
  · exact h
  · exact .ite h (Upholds.slotRegs (by split; exacts [h.sideRendered.sideRendered, h.sideRendered])).setWork.injectSource

theorem Upholds.freeSamples {n} {s : State} (h : Upholds lim s₀ s) : Upholds lim s₀ (freeSamples n s).2 := by
  induction n generalizing s with
  | zero => exact h
  | succ n ih => exact ih h.freeBits

theorem Upholds.bufferSamples {s t kind p ofs} (h : Upholds lim s₀ s) : Upholds lim s₀ (bufferSamples s t kind p ofs).2 := by
  unfold Machine.bufferSamples; split; exacts [h.eccRead, h.freeSamples]

theorem Upholds.busSamples {s w x c} (h : Upholds lim s₀ s) : Upholds lim s₀ (busSamples s w x c).2 := by
  unfold Machine.busSamples; split; exacts [h, .iteSnd h h.bufferSamples]

theorem Upholds.correctGroup {s : State} {g : Nat} (h : Upholds lim s₀ s) : Upholds lim s₀ (correctGroup s g) := by
  unfold Machine.correctGroup; split
  · exact h
  refine .ite h (Upholds.setWork (h.foldlSnd fun a c h => .iteSnd h ?_))
  split
  rename_i x s₁ hx
  have h₁ : Upholds lim s₀ (x, s₁).2 := hx ▸ .iteSnd h.busSamples h
  split
  rename_i f s₂ hf
  have h₂ : Upholds lim s₀ (f, s₂).2 := hf ▸ Upholds.correctBus h₁
  exact .ite (h₂.foldl fun _ _ h => h.capStore) h₂

theorem Upholds.sideSafety {s : State} {w : Work} {x : Side} {second : Bool} {hits : List Nat} (h : Upholds lim s₀ s) :
    Upholds lim s₀ (sideSafety s w x second hits).2.2 := by
  unfold Machine.sideSafety; split
  · exact h
  generalize List.range 32 = gs, List.range 8 = is
  extract_lets r
  have hr : Upholds lim s₀ r.2.2 := by
    refine Upholds.foldlSndSnd (a := (x, hits, s)) h fun a g h => ?_
    split
    · exact h
    extract_lets
    split
    · refine Upholds.foldlSndSnd (a := (_, a.2.1, a.2.2)) h fun b c h => ?_
      split
      · exact h
      extract_lets own
      split
      rename_i v s₁ hv
      suffices Upholds lim s₀ (v, s₁).2 from this
      rw [← hv]
      exact .iteSnd (by split; exacts [h, h.busSamples]) h
    · split
      · exact h
      refine Upholds.foldlSndSnd (a := (_, a.2.1, a.2.2)) h fun b c h => ?_
      extract_lets c
      split
      rename_i v s₁ hv
      suffices Upholds lim s₀ (v, s₁).2 from this
      rw [← hv]
      exact h.bufferSamples
  clear_value r
  obtain ⟨y, hits, s₁⟩ := r
  exact hr

theorem Upholds.safetyStage {s : State} (h : Upholds lim s₀ s) : Upholds lim s₀ (safetyStage s) := by
  unfold Machine.safetyStage; split
  · exact h
  split
  rename_i a hits s₁ h₁
  have h₁ : Upholds lim s₀ (a, hits, s₁).2.2 := h₁ ▸ h.sideSafety
  split
  rename_i b hits' s₂ h₂
  have h₂ : Upholds lim s₀ (b, hits', s₂).2.2 := by rw [← h₂]; split; exacts [h₁.sideSafety, h₁]
  exact (Upholds.ite h₂ h₂.addCtr.raise).setWork

theorem Upholds.emissionCutoff {s} (h : Upholds lim s₀ s) : Upholds lim s₀ (emissionCutoff s) := by
  unfold Machine.emissionCutoff; split
  · exact h
  · exact by
      extract_lets
      split
      · exact (h.pathRender.foldl fun _ _ h => h.correctGroup).safetyStage
      · exact (h.pathRender.foldl fun _ _ h => h.correctGroup).safetyStage.convUsed.andThen fun h =>
          .ite h.keep.injectToken (by extract_lets; split; exacts [h.keep.injectToken.keep, h.keep.injectToken.keep.addCtr.logEv])

theorem Upholds.startWork {s p xin} (h : Upholds lim s₀ s) : Upholds lim s₀ (startWork s p xin) :=
  (Upholds.iteSnd h.takeList h).keep.andThen fun h => .ite h h.setWork.injectSource.injectSource

theorem Upholds.houseFrames {s} (h : Upholds lim s₀ s) : Upholds lim s₀ (houseFrames s) := .ite h.keep h

theorem Upholds.emitFrame {s note} (h : Upholds lim s₀ s) (hnote : ∀ t x2 x5, Upholds lim s₀ t → Upholds lim s₀ (note t x2 x5))
    : Upholds lim s₀ (emitFrame s note).2 := by
  unfold Machine.emitFrame; extract_lets; split
  · exact h
  · exact (Upholds.ite h h.addCtr.raise).andThen fun h => .ite (hnote _ _ _ h.keep.tdmEmit.pdmEmit) h.keep.tdmEmit.pdmEmit

end Sys2Proof.Machine
end

section
/-! SUPPORT. O59, the kernel processors. -/

namespace Sys2Proof.Machine

open Sys2Proof

variable {lim : Nat} {s₀ : State}

theorem Upholds.storeBytes {s f} (h : Upholds lim s₀ s) : Upholds lim s₀ (storeBytes s f) :=
  h.foldl fun _ _ h => .ite h.memWrite h

theorem Upholds.landAll {s k due} (h : Upholds lim s₀ s) : Upholds lim s₀ (landAll s k due) :=
  (h.setCore.foldl fun _ _ h => h.storeBytes).andThen fun h => (Upholds.ite h.addCtr h).andThen fun h => .ite h h.addCtr.raise

theorem Upholds.drainFlights {n k} {s : State} (h : Upholds lim s₀ s) : Upholds lim s₀ (drainFlights n s k) := by
  induction n generalizing s with
  | zero => exact h
  | succ n ih => exact .ite h (ih h.setCore.landAll)

theorem Upholds.kpuFault {s k cause addr} (h : Upholds lim s₀ s) : Upholds lim s₀ (kpuFault s k cause addr) :=
  h.setCore.drainFlights.setCore.setEvent.raise.logEv.instFault

theorem Upholds.closeBundle {s k act} (h : Upholds lim s₀ s) : Upholds lim s₀ (closeBundle s k act) :=
  .ite h.eccRead.kpuFault (.ite h.eccRead.kpuFault h.eccRead.setCore.landAll)

theorem Upholds.issueFlight {s k f} (h : Upholds lim s₀ s) : Upholds lim s₀ (issueFlight s k f) := h.setCore

theorem Upholds.vecOp {s h ok srcs d lat f} (hs : Upholds lim s₀ s) : Upholds lim s₀ (vecOp s h ok srcs d lat f) :=
  .ite hs (.ite hs (.ite hs.kpuFault (by split; exacts [hs.issueFlight, hs.kpuFault])))

theorem Upholds.cmpOp {s h a b pd} {f : Int → Int → Bool} (hs : Upholds lim s₀ s) : Upholds lim s₀ (cmpOp s h a b pd f) :=
  .ite hs (.ite hs (.ite hs.kpuFault (by split; exacts [hs.issueFlight, hs.kpuFault])))

theorem Upholds.accOp {s h ok add srcs acc f} (hs : Upholds lim s₀ s) : Upholds lim s₀ (accOp s h ok add srcs acc f) :=
  .ite hs (.ite hs (.ite hs.kpuFault (by split; exacts [hs.issueFlight, hs.kpuFault])))

theorem Upholds.addrUpdate {s h a v} (hs : Upholds lim s₀ s) : Upholds lim s₀ (addrUpdate s h a v) := by
  unfold Machine.addrUpdate; split; exacts [hs, hs.issueFlight]

theorem Upholds.loadOp {s : State} {h : KHd} {a : KAddr} {u : Nat} {exec? ok : Bool} {mk : Core → List Nat → Option Flight}
    (hs : Upholds lim s₀ s) : Upholds lim s₀ (loadOp s h a u exec? ok mk) :=
  .ite hs (.ite hs.kpuFault (by
    extract_lets; split
    · exact hs.kpuFault
    · exact .ite hs.eccRead.kpuFault (by split; exacts [hs.eccRead.issueFlight.addrUpdate, hs.eccRead.kpuFault])))

theorem Upholds.storeOp {s h a u mask exec? ok words} (hs : Upholds lim s₀ s) : Upholds lim s₀ (storeOp s h a u mask exec? ok
    words) :=
  .ite hs
    (.ite hs.kpuFault (by split; exacts [hs.kpuFault, by extract_lets; split; exacts [hs.kpuFault, hs.issueFlight.addrUpdate]]))

theorem Upholds.ctOp {s h} {run : Core → Except Nat CtAct} (hs : Upholds lim s₀ s) : Upholds lim s₀ (ctOp s h run) :=
  .ite hs (.ite hs.closeBundle (.ite hs.kpuFault (by split; exacts [hs.closeBundle, hs.kpuFault])))

theorem Upholds.ctX {s h d} {f : Core → Int} (hs : Upholds lim s₀ s) : Upholds lim s₀ (ctX s h d f) := hs.ctOp
theorem Upholds.stallCore {s k w} (h : Upholds lim s₀ s) : Upholds lim s₀ (stallCore s k w) := h.setCore
theorem Upholds.unstall {s k cycles} (h : Upholds lim s₀ s) : Upholds lim s₀ (unstall s k cycles) := h.setCore

theorem Upholds.queueDma {s k ch addr} (h : Upholds lim s₀ s) : Upholds lim s₀ (queueDma s k ch addr) :=
  (Upholds.iteSnd h.eccRead h).andThen fun h => .ite h.kpuFault h.setCore.closeBundle

theorem Upholds.dmaDone {s k ch} (h : Upholds lim s₀ s) : Upholds lim s₀ (dmaDone s k ch) :=
  .ite h (by
    split
    · exact h
    · exact by
        extract_lets
        split
        · exact h.dmaTransfer.setCore
        · exact h.dmaTransfer.setCore.dmaFail
        · exact (Upholds.ite h.dmaTransfer h.dmaTransfer.kpuFault).setCore.dmaFail)

theorem Upholds.interruptEntry {s k} (h : Upholds lim s₀ s) : Upholds lim s₀ (interruptEntry s k) := .ite h h.setCore

theorem Upholds.finishTask {s k} (h : Upholds lim s₀ s) : Upholds lim s₀ (finishTask s k) :=
  .ite h.closeBundle h.closeBundle.drainFlights.taskEnd

theorem Upholds.finishSignal {s k arc} (h : Upholds lim s₀ s) : Upholds lim s₀ (finishSignal s k arc) :=
  .ite h.closeBundle h.closeBundle.taskSignal

theorem Upholds.kpuFaultWrite {s v} (h : Upholds lim s₀ s) : Upholds lim s₀ (kpuFaultWrite s v) :=
  h.foldl fun _ _ h => .ite h (.ite h.setR.sourceReset.setCore (.ite h.setCore h))

theorem Upholds.mboxWrite {s k v} (h : Upholds lim s₀ s) : Upholds lim s₀ (mboxWrite s k v) := .ite h.setCore h

theorem Upholds.kpuClkWrite {s v} (h : Upholds lim s₀ s) : Upholds lim s₀ (kpuClkWrite s v) :=
  (Upholds.ite h.setF h).andThen fun h => .ite h.setEvent.addCtr.raise h.setF.setF

theorem Upholds.ungate {s} (h : Upholds lim s₀ s) : Upholds lim s₀ (ungate s) := h.keep
theorem Upholds.gateCores {s} (h : Upholds lim s₀ s) : Upholds lim s₀ (gateCores s) := h.keep.setR
theorem Upholds.publishKpu {s} (h : Upholds lim s₀ s) : Upholds lim s₀ (publishKpu s) := h.foldl fun _ _ h => h.setR.setR.setR

end Sys2Proof.Machine
end

section
/-! SUPPORT. O59, staging and its check. -/

namespace Sys2Proof.Machine

open Sys2Proof

variable {lim : Nat} {s₀ : State}

theorem Upholds.setTake {s t} (h : Upholds lim s₀ s) : Upholds lim s₀ (setTake s t) := h.keep

theorem Upholds.stageFail {s st sect slate} (h : Upholds lim s₀ s) : Upholds lim s₀ (stageFail s st sect slate) := by
  unfold Machine.stageFail; exact h.setTake.setR.addCtr.logEv.raise

theorem Upholds.abandonCopy {s} (h : Upholds lim s₀ s) : Upholds lim s₀ (abandonCopy s) := by
  unfold Machine.abandonCopy; split; exacts [h.setTake.replyTo, h]

theorem Upholds.stageClear {s} (h : Upholds lim s₀ s) : Upholds lim s₀ (stageClear s) := h.setTake

theorem Upholds.startLoad {s len slate ctx} (h : Upholds lim s₀ s) : Upholds lim s₀ (startLoad s len slate ctx) :=
  h.abandonCopy.setTake.replyTo

theorem Upholds.setSlot {s k v} (h : Upholds lim s₀ s) : Upholds lim s₀ (setSlot s k v) := h.setTake

theorem Upholds.startCopy {s slot ctx} (h : Upholds lim s₀ s) : Upholds lim s₀ (startCopy s slot ctx) :=
  .ite h.replyTo (Upholds.iteSnd h.abandonCopy.memRead h.abandonCopy).setTake

theorem Upholds.loadImages {s t k} (h : Upholds lim s₀ s) : Upholds lim s₀ (loadImages s t k) :=
  (h.foldl fun _ _ h => .ite h.memWrite h).foldl fun _ _ h => .ite h.memWrite h

theorem Upholds.stageImages {s t} (h : Upholds lim s₀ s) : Upholds lim s₀ (stageImages s t) :=
  .ite h (h.foldl fun _ _ h => h.loadImages)

theorem Upholds.discardNow {s ctx} (h : Upholds lim s₀ s) : Upholds lim s₀ (discardNow s ctx) :=
  .ite h.replyTo h.abandonCopy.stageClear.replyTo

theorem Upholds.stageNexts {s} (h : Upholds lim s₀ s) : Upholds lim s₀ (stageNexts s) :=
  h.setTake.stageClear.foldl fun _ _ h => by split; exacts [h.discardNow, h.startLoad, h.startCopy]

theorem Upholds.checkEnds {s r} (h : Upholds lim s₀ s) : Upholds lim s₀ (checkEnds s r) :=
  .ite h.setTake.replyTo.stageNexts (by split; exacts [h.setTake.setTake.stageImages.replyTo.raise, h.setTake.stageFail.replyTo])

theorem Upholds.checkDone {s} (h : Upholds lim s₀ s) : Upholds lim s₀ (checkDone s) :=
  .ite h (by split; exacts [h.checkEnds, .ite h.setTake (by split; exacts [h.checkEnds, h.checkEnds])])

theorem Upholds.checkResume {s} (h : Upholds lim s₀ s) : Upholds lim s₀ (checkResume s) := .ite h.setTake.checkDone h

theorem Upholds.stageBegin {s len slate ctx} (h : Upholds lim s₀ s) : Upholds lim s₀ (stageBegin s len slate ctx) :=
  .ite h.replyTo (.ite h.replyTo (.ite h.setTake h.startLoad))

theorem Upholds.stageData {s ofs d ctx} (h : Upholds lim s₀ s) : Upholds lim s₀ (stageData s ofs d ctx) :=
  .ite h.replyTo (.ite h.replyTo h.setTake.replyTo)

theorem Upholds.stageEnd {s ctx} (h : Upholds lim s₀ s) : Upholds lim s₀ (stageEnd s ctx) := .ite h.replyTo h.setTake

theorem Upholds.stageFromReel {s slot ctx} (h : Upholds lim s₀ s) : Upholds lim s₀ (stageFromReel s slot ctx) :=
  .ite h.replyTo (.ite h.replyTo (.ite h.setTake h.startCopy))

theorem Upholds.copyDone {s} (h : Upholds lim s₀ s) : Upholds lim s₀ (copyDone s) := by
  unfold Machine.copyDone; split; exacts [h.setTake, h]

theorem Upholds.stageDiscard {s ctx} (h : Upholds lim s₀ s) : Upholds lim s₀ (stageDiscard s ctx) := .ite h.setTake h.discardNow
theorem Upholds.stageStatus {s ctx} (h : Upholds lim s₀ s) : Upholds lim s₀ (stageStatus s ctx) := h.replyTo

theorem Upholds.reelBegin {s slot len ctx} (h : Upholds lim s₀ s) : Upholds lim s₀ (reelBegin s slot len ctx) :=
  .ite h.replyTo (.ite h.setSlot.setTake.replyTo h.setSlot.setTake.replyTo)

theorem Upholds.reelData {s slot ofs d ctx} (h : Upholds lim s₀ s) : Upholds lim s₀ (reelData s slot ofs d ctx) := by
  unfold Machine.reelData; split; exacts [.ite h.replyTo (.ite h.replyTo h.dramWrite.replyTo), h.replyTo]

theorem Upholds.reelEnd {s slot ctx} (h : Upholds lim s₀ s) : Upholds lim s₀ (reelEnd s slot ctx) := by
  unfold Machine.reelEnd; split
  · exact h.replyTo
  · exact .ite h.replyTo
      (.ite h.setTake.replyTo (.ite h.memRead.setTake.replyTo (.ite h.memRead.setTake.replyTo h.memRead.setTake.setSlot.replyTo)))

theorem Upholds.reelDelete {s slot ctx} (h : Upholds lim s₀ s) : Upholds lim s₀ (reelDelete s slot ctx) := h.setSlot.replyTo
theorem Upholds.reelList {s ctx} (h : Upholds lim s₀ s) : Upholds lim s₀ (reelList s ctx) := h.replyTo
theorem Upholds.reelBaseCommit {s lo v} (h : Upholds lim s₀ s) : Upholds lim s₀ (reelBaseCommit s lo v) := .ite h h.setR64
theorem Upholds.cutReject {s ctx st} (h : Upholds lim s₀ s) : Upholds lim s₀ (cutReject s ctx st) := h.addCtr.replyTo

theorem Upholds.cutCommand {s tmode hard t0 t1 digest ctx} (h : Upholds lim s₀ s) : Upholds lim s₀ (cutCommand s tmode hard t0
    t1 digest ctx) := by
  unfold Machine.cutCommand; extract_lets; split
  · exact h.cutReject
  · exact .ite h.cutReject (.ite h.cutReject h.setTake.replyTo)
  · exact h.cutReject

theorem Upholds.cutCancel {s ctx} (h : Upholds lim s₀ s) : Upholds lim s₀ (cutCancel s ctx) := .ite h.setTake.replyTo h.replyTo
theorem Upholds.rootKey {s img} (h : Upholds lim s₀ s) : Upholds lim s₀ (rootKey s img) := h.setF

theorem Upholds.restartFw {s img} (h : Upholds lim s₀ s) : Upholds lim s₀ (restartFw s img) :=
  (h.setFwQ fun _ => Nat.zero_le _).keep.fwRestart.keep.foldl fun _ _ h => h.reply

theorem Upholds.fwBegin {s img len ctx} (h : Upholds lim s₀ s) : Upholds lim s₀ (fwBegin s img len ctx) := by
  have erased : ∀ {t : State} (i : Nat), Upholds lim s₀ t →
      Upholds lim s₀ { t with mem := Sparse.clearRange t.mem (flashImage i) (flashImage i + 0x200000) } :=
    fun i h => h.remember fun w => Sparse.wf_clearRange _ _ _ _ (h.memory w)
  exact .ite h.replyTo (.ite h.replyTo (Upholds.keep (by split; exacts [erased _ (erased _ h), erased _ h])).replyTo)

theorem Upholds.fwData {s ofs d ctx} (h : Upholds lim s₀ s) : Upholds lim s₀ (fwData s ofs d ctx) := by
  unfold Machine.fwData; split; exacts [.ite h.replyTo h.memWrite.replyTo, h.replyTo]

theorem Upholds.fwEnd {s ctx} (h : Upholds lim s₀ s) : Upholds lim s₀ (fwEnd s ctx) := by
  unfold Machine.fwEnd; split; exacts [h.replyTo, h.keep.replyTo]

theorem Upholds.fwSwitch {s img f ctx} (h : Upholds lim s₀ s) : Upholds lim s₀ (fwSwitch s img f ctx) :=
  .ite h.replyTo (.ite h.replyTo (.ite h.replyTo (.ite h.replyTo h.keep.replyTo)))

theorem Upholds.fwStatus {s ctx} (h : Upholds lim s₀ s) : Upholds lim s₀ (fwStatus s ctx) := h.replyTo
theorem Upholds.fwSwitchNow {s img f} (h : Upholds lim s₀ s) : Upholds lim s₀ (fwSwitchNow s img f) := h.stamp.keep.restartFw

theorem Upholds.fwReady {s v} (h : Upholds lim s₀ s) : Upholds lim s₀ (fwReady s v) :=
  .ite h (by extract_lets; split; exacts [h.keep.logEv.raise, h.keep])

theorem Upholds.fwFallback {s} (h : Upholds lim s₀ s) : Upholds lim s₀ (fwFallback s) := .ite h h.keep.restartFw.logEv.raise

end Sys2Proof.Machine
end

section
/-! SUPPORT. O59, takes and cuts. -/

namespace Sys2Proof.Machine

open Sys2Proof

variable {lim : Nat} {s₀ : State}

theorem Upholds.cutRate {s rate} (h : Upholds lim s₀ s) : Upholds lim s₀ (cutRate s rate) :=
  .ite h (.ite h.headFlush.keep.clkFreeRun h.headFlush.keep)

theorem Upholds.loadWords {s a step l} (h : Upholds lim s₀ s) : Upholds lim s₀ (loadWords s a step l) :=
  h.foldl fun _ _ h => h.setR

theorem Upholds.loadSections {s t} (h : Upholds lim s₀ s) : Upholds lim s₀ (loadSections s t) :=
  h.setR.setR.setR.setR.setR.setR64.setR64.setR.setR.setR.setR.setR.loadWords.loadWords.loadWords.setR

theorem Upholds.loadClock {s c newRate} (h : Upholds lim s₀ s) : Upholds lim s₀ (loadClock s c newRate) :=
  (((h.setR.setR.setR.setR.setR.foldl fun _ _ h => h.setR.setR.setR).setR.foldl fun _ _ h => h.refSet).foldl fun _ _ h =>
    h.afterFail).andThen fun h => .ite h h.applySelection

theorem Upholds.loadFabric {s t} (h : Upholds lim s₀ s) : Upholds lim s₀ (loadFabric s t) :=
  (h.foldl fun _ _ h =>
    by
      extract_lets
      split
      · exact (h.foldl fun _ _ h => h.setR.setR.setR.setR).setR.setR
      · exact (h.foldl fun _ _ h => h.setR).foldl fun _ _ h => h.setR).andThen fun h =>
    .ite (h.foldl fun _ _ h => h.setR).keep (.ite h.keep.logEv h)

theorem Upholds.loadObjects {s init} (h : Upholds lim s₀ s) : Upholds lim s₀ (loadObjects s init) :=
  h.foldl fun _ _ h => .ite h.objStore.markChanged h

theorem Upholds.mergeObjects {s b} (h : Upholds lim s₀ s) : Upholds lim s₀ (mergeObjects s b) :=
  h.foldl fun _ _ h => .ite h h.objStore.keep

theorem Upholds.farBits {s t} (h : Upholds lim s₀ s) : Upholds lim s₀ (farBits s t) :=
  (h.foldl fun _ _ h => h.setR).foldl fun _ _ h => .ite h.setR h

theorem Upholds.cutGeometry {s old t rs} (h : Upholds lim s₀ s) : Upholds lim s₀ (cutGeometry s old t rs) :=
  h.setF.setR.kspmCommit.floorCommit.andThen fun h =>
    Upholds.andThen (by split; exacts [h.mergeObjects, h.loadObjects]) fun h =>
      .ite h.keep.farBits h.keep.farBits.changeEnabled

theorem Upholds.cutDivider {s t} (h : Upholds lim s₀ s) : Upholds lim s₀ (cutDivider s t) := .ite h.setF.setF.setF h.setF

theorem Upholds.cutBanks {s t hadOld hard pos} (h : Upholds lim s₀ s) : Upholds lim s₀ (cutBanks s t hadOld hard pos) :=
  (Upholds.ite (by split; exacts [h.setBank, h]) h).keep.clearWindow.setBank

theorem Upholds.loadLastAd {s b} (h : Upholds lim s₀ s) : Upholds lim s₀ (loadLastAd s b) :=
  h.foldl fun _ _ h => .ite h h.setChan

theorem Upholds.performCut {s : State} {t : Take} {asked : Bool} {named : Nat} {rs : Option RsItems} (h : Upholds lim s₀ s) :
    Upholds lim s₀ (performCut s t asked named rs) := by
  unfold Machine.performCut
  extract_lets old hard lab0 pos first rateNew fell e skip s₁ s₂ s₃ overlap x
  have h₃ : Upholds lim s₀ s₃ := .ite h.stamp.logCommit.logCommit h.stamp.logCommit
  split
  rename_i s₄ hq
  have h₄ : Upholds lim s₀ s₄ := (Upholds.iteSnd (a := (some x.1, x.2)) (b := (none, s₃)) h₃.takeList h₃).of_eq hq
  extract_lets _ _ s₅ s₆ s₇ lab _ _ _ _ _ s₈ s₉ s₁₀ _ _ s₁₁ s₁₂ s₁₃ _ s₁₄ s₁₅ s₁₆
  have h₅ : Upholds lim s₀ s₅ := by unfold s₅; clear_value old; cases old <;> exact h₄.keep
  have h₈ : Upholds lim s₀ s₈ := h₅.cutBanks.cutRate.keep
  have h₁₃ : Upholds lim s₀ s₁₃ := h₈.loadSections.cutDivider.loadClock.loadFabric.keep.cutGeometry.convCut
  have h₁₄ : Upholds lim s₀ s₁₄ := by unfold s₁₄; split; exacts [h₁₃.keep.loadLastAd, h₁₃]
  have h₁₆ : Upholds lim s₀ s₁₆ := h₁₄.strmCut.lioCut.addCtr
  exact (Upholds.ite h₁₆.addCtr h₁₆).raise

theorem Upholds.cutDue {s} (h : Upholds lim s₀ s) : Upholds lim s₀ (cutDue s) := by
  unfold Machine.cutDue; split; exacts [.ite h (by split; exacts [h.addCtr.logEv.setTake.stageFail.raise, h.performCut]), h]

theorem Upholds.cutImages {s} (h : Upholds lim s₀ s) : Upholds lim s₀ (cutImages s) := by
  unfold Machine.cutImages; split; exacts [(h.foldl fun _ _ h => h.loadImages).keep, h]

theorem Upholds.relockFrame {s} (h : Upholds lim s₀ s) : Upholds lim s₀ (relockFrame s) := .ite h (.ite h.keep h.keep)
theorem Upholds.relockRamp {s} (h : Upholds lim s₀ s) : Upholds lim s₀ (relockRamp s) := .ite h h.keep.applySelection

theorem Upholds.publishTake {s} (h : Upholds lim s₀ s) : Upholds lim s₀ (publishTake s) :=
  h.setR.setR.loadWords.setR.loadWords.setR64.setR64.setR64

end Sys2Proof.Machine
end

section
/-! SUPPORT. O59, the beacon and the role. -/

namespace Sys2Proof.Machine

open Sys2Proof

variable {lim : Nat} {s₀ : State}

theorem Upholds.beaconSend {s} (h : Upholds lim s₀ s) : Upholds lim s₀ (beaconSend s) := by
  unfold Machine.beaconSend; split
  · exact h
  · exact .ite h (h.setTake.foldl fun _ _ h => .ite (h.keep.sendUdp (fun _ _ _ h => h.enqueue3)) h)

theorem Upholds.putPeer {s n p} (h : Upholds lim s₀ s) : Upholds lim s₀ (putPeer s n p) := h.setTake

theorem Upholds.beaconTake {s b} (h : Upholds lim s₀ s) : Upholds lim s₀ (beaconTake s b) := by
  unfold Machine.beaconTake; extract_lets; split
  · exact h.setTake.addCtr
  · exact .ite h.setTake.putPeer.addCtr.logEv.raise h.setTake.putPeer

theorem Upholds.beaconReceive {s b} (h : Upholds lim s₀ s) : Upholds lim s₀ (beaconReceive s b) :=
  .ite h.addCtr (.ite h h.beaconTake)

theorem Upholds.peerExpire {s n} (h : Upholds lim s₀ s) : Upholds lim s₀ (peerExpire s n) := by
  unfold Machine.peerExpire; split; exacts [h, .ite h.setTake.logEv.raise h.setTake]

theorem Upholds.agePeers {s units} (h : Upholds lim s₀ s) : Upholds lim s₀ (agePeers s units) := h.setTake

theorem Upholds.publishPeers {s} (h : Upholds lim s₀ s) : Upholds lim s₀ (publishPeers s) := h.keep

end Sys2Proof.Machine
end

section
/-! SUPPORT. O59, network time and its servos. -/

namespace Sys2Proof.Machine

open Sys2Proof

variable {lim : Nat} {s₀ : State}

theorem Upholds.servoTo {s p st} (h : Upholds lim s₀ s) : Upholds lim s₀ (servoTo s p st) := by
  unfold Machine.servoTo; extract_lets; split
  · exact h.servoState.refFail
  · exact h.servoState.refFail
  · exact h.servoState.refFail
  · exact .ite h.servoState.dpllLock h.servoState
  · exact .ite h.servoState.dpllLockLoss h.servoState
  · exact h.servoState

theorem Upholds.applyServoEn {s} (h : Upholds lim s₀ s) : Upholds lim s₀ (applyServoEn s) :=
  .ite (Upholds.ite h.servoTo.refInstall (.ite h.servoTo.refInstall h)).servoTo.refInstall
    (.ite (Upholds.ite h.servoTo.refInstall (.ite h.servoTo.refInstall h)).servoTo.refInstall
      (.ite h.servoTo.refInstall (.ite h.servoTo.refInstall h)))

theorem Upholds.servoFilter {s p o} (h : Upholds lim s₀ s) : Upholds lim s₀ (servoFilter s p o) := h.setServo.noteRequest

theorem Upholds.acceptOffset {s : State} {p : Nat} {o t2 : Int} (h : Upholds lim s₀ s) :
    Upholds lim s₀ (acceptOffset s p o t2) := by
  unfold Machine.acceptOffset; extract_lets s₁ x s₂ _ s₃ v s₄
  have h₄ : Upholds lim s₀ s₄ := by
    unfold s₄
    split; exacts [h.addCtr.setR64.setServo.servoTo, h.addCtr.setR64.setServo.servoTo, h.addCtr.setR64.setServo]
  split
  · exact h₄.setServo
  · exact .ite h₄.servoFilter.setServo.servoTo h₄.servoFilter.setServo
  · exact h₄.servoFilter
  · exact h₄

theorem Upholds.handleOffset {s p o t2} (h : Upholds lim s₀ s) : Upholds lim s₀ (handleOffset s p o t2) :=
  .ite h
    (.ite h.keep.enterJump
      (.ite
        (.ite ((Upholds.ite h.addCtr.raise h.addCtr).andThen fun h => (Upholds.ite h.logEv h).setServo)
          h.servoTo.acceptOffset) (.ite h.servoTo.acceptOffset h.acceptOffset)))

theorem Upholds.ptpSync {s p m} (h : Upholds lim s₀ s) : Upholds lim s₀ (ptpSync s p m) :=
  .ite h ((Upholds.ite h.addCtr h).andThen fun h => .ite h.setServo h.setServo.handleOffset)

theorem Upholds.followUp {s : State} {p : Nat} {m : PtpMsg} (h : Upholds lim s₀ s) : Upholds lim s₀ (followUp s p m) :=
  .ite h (by split; exacts [.ite h.setServo.handleOffset h.addCtr, h.addCtr])

theorem Upholds.servoTimeout {s p} (h : Upholds lim s₀ s) : Upholds lim s₀ (servoTimeout s p) :=
  .ite h.setServo.noteRequest.servoTo h

theorem Upholds.fdiffReport {s p} (h : Upholds lim s₀ s) : Upholds lim s₀ (fdiffReport s p) :=
  .ite h (by split; exacts [.ite h.setServo h.setServo.setServo.setR, h])

theorem Upholds.rephase {s} (h : Upholds lim s₀ s) : Upholds lim s₀ (rephase s) := .ite h.keep h

theorem Upholds.jumpTime {s units kind} (h : Upholds lim s₀ s) : Upholds lim s₀ (jumpTime s units kind) := by
  unfold Machine.jumpTime; exact (Upholds.ite h.keep.clkState.rephase h.keep).logEv.addCtr.raise

theorem Upholds.ptpLock {s} (h : Upholds lim s₀ s) : Upholds lim s₀ (ptpLock s) := .ite h.dpllLock h

theorem Upholds.timeBoundary {s} (h : Upholds lim s₀ s) : Upholds lim s₀ (timeBoundary s) := by
  unfold Machine.timeBoundary; extract_lets; split
  · exact (Upholds.ite h.keep.ptpLock h.keep.ptpLock.rephase).jumpTime
  · exact (Upholds.ite h.keep.ptpLock h.keep.ptpLock.rephase).jumpTime
  · exact .ite h.keep.ptpLock h.keep.ptpLock.rephase

theorem Upholds.publishTime {s} (h : Upholds lim s₀ s) : Upholds lim s₀ (publishTime s) :=
  h.setR.setR.setR.setR.setR.setR.setR.setR.setR

theorem Upholds.pdelayUdp {s} (h : Upholds lim s₀ s) : Upholds lim s₀ (pdelayUdp s).2 := h.keep

theorem Upholds.pdelayReq {s : State} {p : Nat} {m : PdelayReq} (h : Upholds lim s₀ s) : Upholds lim s₀ (pdelayReq s p m) := by
  unfold Machine.pdelayReq
  refine .ite h (.ite h.addCtr ?_)
  extract_lets body x s₁ fr
  have h₁ : Upholds lim s₀ s₁ := Upholds.iteSnd h.pdelayUdp h
  split
  · exact h₁.enqueue0.of_eq ‹_›
  · exact (h₁.enqueue0.of_eq ‹_›).addCtr

theorem Upholds.launchEntry {s p m t} (h : Upholds lim s₀ s) : Upholds lim s₀ (launchEntry s p m t) :=
  .ite h.complete.txLoss (.ite h.completeLate h.enqueue0)

theorem Upholds.launchPlace {s p m t} (h : Upholds lim s₀ s) : Upholds lim s₀ (launchPlace s p m t) :=
  .ite h.keep (h.keep.foldl fun _ _ h => h.launchEntry)

theorem Upholds.launchRequest {s p m t} (h : Upholds lim s₀ s) : Upholds lim s₀ (launchRequest s p m t) :=
  .ite (h.setPort.foldl fun _ _ h => h.enqueue3) h.setPort.launchPlace

theorem Upholds.tsqRead {s p} (h : Upholds lim s₀ s) : Upholds lim s₀ (tsqRead s p) := by
  unfold Machine.tsqRead; extract_lets; split; exacts [h.setPort.keep, h.keep]

end Sys2Proof.Machine
end

section
/-! SUPPORT. O59, the events of the clock system. -/

namespace Sys2Proof.Machine

open Sys2Proof

variable {lim : Nat} {s₀ : State}

theorem Upholds.idleTake {s p t} (h : Upholds lim s₀ s) : Upholds lim s₀ (idleTake s p t) := .ite h.expireLate h.takeNext

theorem Upholds.rateMismatch {s r offset} (h : Upholds lim s₀ s) : Upholds lim s₀ (rateMismatch s r offset) :=
  .ite h h.logEv.refFail

theorem Upholds.referenceGlitch {s r} (h : Upholds lim s₀ s) : Upholds lim s₀ (referenceGlitch s r) :=
  .ite h (.ite h.setRef.addCtr.refFail h.setRef.addCtr)

theorem Upholds.pauseExpire {s p q t} (h : Upholds lim s₀ s) : Upholds lim s₀ (pauseExpire s p q t) := h.setPort.idleTake

theorem Upholds.linkChange {s p sync speed an lf rf} (h : Upholds lim s₀ s) : Upholds lim s₀ (linkChange s p sync speed an lf
    rf) :=
  h.setPort

end Sys2Proof.Machine
end

section
/-! SUPPORT. O59, the pair link and its messages. -/

namespace Sys2Proof.Machine

open Sys2Proof

variable {lim : Nat} {s₀ : State}

theorem Upholds.setPair {s p} (h : Upholds lim s₀ s) : Upholds lim s₀ (setPair s p) := h.keep

theorem Upholds.linkLost {s} (h : Upholds lim s₀ s) : Upholds lim s₀ (linkLost s) := by
  unfold Machine.linkLost; split; exacts [h.setPair, h]

theorem Upholds.roleChange {s : State} {new : Role} {cause : Nat} (h : Upholds lim s₀ s) :
    Upholds lim s₀ (roleChange s new cause) := by
  have logged : ∀ t, Upholds lim s₀ t → ∀ c p, Upholds lim s₀ ((if cause = 4 then Machine.logCommit else Machine.logEv) t c p) := by
    intro t ht c p; split; exacts [ht.logCommit, ht.logEv]
  refine .ite h (.ite ?_ (Upholds.raise (logged _ ?_ _ _)))
  all_goals
    split
    case' h_1 => apply Upholds.setR64
    all_goals split <;> exact h.setPair.setPair

theorem Upholds.rolePend {s new cause} (h : Upholds lim s₀ s) : Upholds lim s₀ (rolePend s new cause) := .ite h h.setPair

theorem Upholds.pathLost {s net released} (h : Upholds lim s₀ s) : Upholds lim s₀ (pathLost s net released) :=
  (Upholds.ite h.setPair h.setPair.linkLost).andThen fun h =>
    (Upholds.ite h.rolePend h).andThen fun h =>
      .ite h (.ite h.raise.logEv (.ite h.raise.logEv.raise.rolePend h.raise.logEv.raise))

theorem Upholds.pairMeet {s net p} (h : Upholds lim s₀ s) : Upholds lim s₀ (pairMeet s net p) :=
  .ite h (.ite (.ite h.pairRelease.rolePend h) (.ite h.rolePend h))

theorem Upholds.seizeStaging {s} (h : Upholds lim s₀ s) : Upholds lim s₀ (seizeStaging s) :=
  h.setTake.stageClear.foldl fun _ _ h => h.replyTo

theorem Upholds.beginTransfer {s} (h : Upholds lim s₀ s) : Upholds lim s₀ (beginTransfer s) := h.setPair.seizeStaging

theorem Upholds.peerCut {s old p} (h : Upholds lim s₀ s) : Upholds lim s₀ (peerCut s old p) := by
  unfold Machine.peerCut; split; exacts [.ite h.beginTransfer h, h]

theorem Upholds.clapperTake {s net b} (h : Upholds lim s₀ s) : Upholds lim s₀ (clapperTake s net b) :=
  (Upholds.ite h.setPair.setPair h.setPair.setPair).andThen fun h =>
    .ite h.pathLost
      ((Upholds.ite h.setPair h.setPair).andThen fun h =>
        (Upholds.ite h h.raise).andThen fun h => (Upholds.ite h h.peerCut).pairMeet)

theorem Upholds.clapperReceive {s net b} (h : Upholds lim s₀ s) : Upholds lim s₀ (clapperReceive s net b) :=
  .ite h (.ite h.clapperTake (.ite h.setPair.logEv h))

theorem Upholds.netClapper {s b} (h : Upholds lim s₀ s) : Upholds lim s₀ (netClapper s b) := .ite h.clapperReceive h

theorem Upholds.linkBody {s type b} (h : Upholds lim s₀ s) : Upholds lim s₀ (linkBody s type b).2 :=
  .iteSnd h (.iteSnd h.addCtr (.iteSnd h h))

theorem Upholds.matchDone {s} (h : Upholds lim s₀ s) : Upholds lim s₀ (matchDone s) := .ite h.rolePend h

theorem Upholds.compareDigest {s f own peer} (h : Upholds lim s₀ s) : Upholds lim s₀ (compareDigest s f own peer) :=
  .ite h.setR.setR.addCtr.setPair.matchDone
    (h.setR.setR.setR.addCtr.setPair.logRun.andThen fun h => (Upholds.ite h.raise h).andThen fun h => .ite h.rolePend h)

theorem Upholds.compareHeld {s} (h : Upholds lim s₀ s) : Upholds lim s₀ (compareHeld s) :=
  h.setPair.foldl fun _ _ h => by split; exacts [h.compareDigest, h]

theorem Upholds.noteDigest {s lab out} (h : Upholds lim s₀ s) : Upholds lim s₀ (noteDigest s lab out) :=
  .ite h h.pairSend.setPair.compareHeld

theorem Upholds.dropUncompared {s} (h : Upholds lim s₀ s) : Upholds lim s₀ (dropUncompared s) :=
  (Upholds.ite h.setR h).setPair

theorem Upholds.switchNow {s} (h : Upholds lim s₀ s) : Upholds lim s₀ (switchNow s) := by
  unfold Machine.switchNow; split; exacts [h.roleChange, h.roleChange, h]

theorem Upholds.pairResync {s ctx} (h : Upholds lim s₀ s) : Upholds lim s₀ (pairResync s ctx) :=
  .ite h.replyTo (by
    split
    · exact h.replyTo
    · exact h.replyTo
    · exact .ite (Upholds.rolePend (by split; exacts [h.setPair, h])) h.replyTo
    · exact (Upholds.rolePend (by split; exacts [h.setPair, h])))

theorem Upholds.pairStatus {s ctx} (h : Upholds lim s₀ s) : Upholds lim s₀ (pairStatus s ctx) := h.replyTo
theorem Upholds.rsFail {s} (h : Upholds lim s₀ s) : Upholds lim s₀ (rsFail s) := by
  unfold Machine.rsFail; exact h.setPair.logEv.raise

theorem Upholds.rsPhase {s} (h : Upholds lim s₀ s) : Upholds lim s₀ (rsPhase s) := by
  unfold Machine.rsPhase; split
  · exact .ite h (.ite h.setPair h.beginTransfer)
  · exact .ite h.rsFail (.ite h.setPair h)
  · exact by split; exacts [.ite h.setPair.matchDone h, h]
  · exact h.matchDone
  · exact h

theorem Upholds.rsCut {s} (h : Upholds lim s₀ s) : Upholds lim s₀ (rsCut s) := by
  unfold Machine.rsCut; split; exacts [.ite h (by split; exacts [h.rsFail, .ite h.rsFail h.performCut.setPair]), h]

theorem Upholds.realignDue {s} (h : Upholds lim s₀ s) : Upholds lim s₀ (realignDue s) := by
  unfold Machine.realignDue; split; exacts [h, h.setPair.stamp.keep.addCtr.logCommit.raise]

theorem Upholds.loadPeerSet {s idx b} (h : Upholds lim s₀ s) : Upholds lim s₀ (loadPeerSet s idx b).2.2 :=
  .iteSndSnd h (by split; exacts [h, .iteSndSnd h.addCtr h.setChan])

theorem Upholds.sendSetReady {s bus slot ok setid} (h : Upholds lim s₀ s) : Upholds lim s₀ (sendSetReady s bus slot ok setid) :=
  h.pairSend

theorem Upholds.xferSet {s idx ofs total d} (h : Upholds lim s₀ s) : Upholds lim s₀ (xferSet s idx ofs total d) :=
  .ite h.setPair (.ite h.setPair.loadPeerSet (.ite h.setPair.loadPeerSet.setPair h.setPair.loadPeerSet.sendSetReady))

theorem Upholds.xferReceive {s b} (h : Upholds lim s₀ s) : Upholds lim s₀ (xferReceive s b) :=
  .ite h (.ite h.xferSet (.ite h (by split; exacts [.ite h.setPair h.setPair.setTake, h.setPair, h.setPair, h])))

theorem Upholds.alignReceive {s phase b} (h : Upholds lim s₀ s) : Upholds lim s₀ (alignReceive s phase b) :=
  .ite h (.ite h.setR.logEv h.setR.setPair)

theorem Upholds.setOutcome {s b own} (h : Upholds lim s₀ s) : Upholds lim s₀ (setOutcome s b own) :=
  .ite h.keep h.keep.addCtr.logEv

theorem Upholds.placeSetChange {s c slot fx x} (h : Upholds lim s₀ s) : Upholds lim s₀ (placeSetChange s c slot fx x) :=
  .ite h.setOutcome (.iteNot (fun _ => h.setOutcome) fun hroom => h.engine.frameAs hroom)

theorem Upholds.setReadyReceive {s b} (h : Upholds lim s₀ s) : Upholds lim s₀ (setReadyReceive s b) :=
  .ite h h.pairSend.placeSetChange

theorem Upholds.setSchedReceive {s b} (h : Upholds lim s₀ s) : Upholds lim s₀ (setSchedReceive s b) := .ite h h.placeSetChange

theorem Upholds.sendReady {s} (h : Upholds lim s₀ s) : Upholds lim s₀ (sendReady s) :=
  h.setPair.foldl fun _ _ h => h.sendSetReady

theorem Upholds.sendXfer {s kind idx b} (h : Upholds lim s₀ s) : Upholds lim s₀ (sendXfer s kind idx b) :=
  h.foldl fun _ _ h => h.pairSend

theorem Upholds.sendItems {s t} (h : Upholds lim s₀ s) : Upholds lim s₀ (sendItems s t) :=
  ((Upholds.ite h h.sendXfer).foldl fun _ _ h => h.foldl fun _ _ h => by split; exacts [h.sendXfer, h]).sendXfer.sendXfer

theorem Upholds.sendAlign {s} (h : Upholds lim s₀ s) : Upholds lim s₀ (sendAlign s) := h.pairSend

theorem Upholds.servePeer {s} (h : Upholds lim s₀ s) : Upholds lim s₀ (servePeer s) := by
  unfold Machine.servePeer; extract_lets; split; exacts [(Upholds.ite h.sendItems (.ite h.sendAlign h)).setPair, h.setPair]

theorem Upholds.driveDue {s} (h : Upholds lim s₀ s) : Upholds lim s₀ (driveDue s) := by
  unfold Machine.driveDue; split; exacts [.ite h.setPair h, h]

theorem Upholds.forwardSet {s c slot f} (h : Upholds lim s₀ s) : Upholds lim s₀ (forwardSet s c slot f) := .ite h.sendXfer h

theorem Upholds.pairRoles {s} (h : Upholds lim s₀ s) : Upholds lim s₀ (pairRoles s) :=
  .ite h (by
    extract_lets
    split
    · exact .ite h.roleChange h
    · exact (Upholds.ite h.roleChange h).setPair.roleChange.andThen fun h =>
        (Upholds.ite h.addCtr h).andThen fun h =>
          (Upholds.ite h.logEv.raise h).andThen fun h => .ite h (h.setPair.foldl fun _ _ h => h.reply))

theorem Upholds.pairCfgCommit {s a v} (h : Upholds lim s₀ s) : Upholds lim s₀ (pairCfgCommit s a v) :=
  .ite h.raise (.ite (.ite h.setFB.setF h.setFB.setF.setPair) h.setR)

theorem Upholds.pairCtrlCommit {s v} (h : Upholds lim s₀ s) : Upholds lim s₀ (pairCtrlCommit s v) := .ite h.rolePend h
theorem Upholds.evidence {s} (h : Upholds lim s₀ s) : Upholds lim s₀ (evidence s) := .ite h.rolePend h
theorem Upholds.monitored {s} (h : Upholds lim s₀ s) : Upholds lim s₀ (monitored s) := .ite h h.setPair.logEv.raise
theorem Upholds.publishPair {s} (h : Upholds lim s₀ s) : Upholds lim s₀ (publishPair s) := h.setR.setF.setR

theorem Upholds.clapSend {s} (h : Upholds lim s₀ s) : Upholds lim s₀ (clapSend s) :=
  .ite h (Upholds.ite h h.addCtr).setPair.clapLink

theorem Upholds.netClapSend {s} (h : Upholds lim s₀ s) : Upholds lim s₀ (netClapSend s) :=
  .ite h (Upholds.ite h h.addCtr).setPair.clapNet

theorem Upholds.linkSync {s up} (h : Upholds lim s₀ s) : Upholds lim s₀ (linkSync s up) :=
  .ite h (.ite h.setPair h.setPair.addCtr.linkLost)

theorem Upholds.onLink {s : State} {type : Nat} {b : Bytes} {f : State → Bytes → State} (h : Upholds lim s₀ s)
    (hf : ∀ t b, Upholds lim s₀ t → Upholds lim s₀ (f t b)) : Upholds lim s₀ (onLink s type b f) := by
  have hb := h.linkBody (type := type) (b := b)
  unfold Machine.onLink
  generalize Machine.linkBody s type b = r at hb ⊢
  split; exacts [hf _ _ hb, hb]

theorem Upholds.digestReceive {s b} (h : Upholds lim s₀ s) : Upholds lim s₀ (digestReceive s b) := .ite h h.setPair.compareHeld

theorem Upholds.switchReceive {s b} (h : Upholds lim s₀ s) : Upholds lim s₀ (switchReceive s b) := by
  unfold Machine.switchReceive; split; exacts [h.engine.keep, h]

end Sys2Proof.Machine
end

section
/-! SUPPORT. O59, the profile. -/

namespace Sys2Proof.Machine

open Sys2Proof

variable {lim : Nat} {s₀ : State}

theorem Upholds.venuePlace {s} (h : Upholds lim s₀ s) : Upholds lim s₀ (venuePlace s) := h.foldl fun _ _ h => h.setChan

end Sys2Proof.Machine
end

section
/-! SUPPORT. O59, the recorder. -/

namespace Sys2Proof.Machine

open Sys2Proof

variable {lim : Nat} {s₀ : State}

theorem Upholds.slotWritten {s i n} (h : Upholds lim s₀ s) : Upholds lim s₀ (slotWritten s i n) := by
  unfold Machine.slotWritten; exact h.whole

theorem Upholds.writeRec {s r run} (h : Upholds lim s₀ s) : Upholds lim s₀ (writeRec s r run) :=
  .ite (.ite h.keep.raise h.keep) (.ite h.keep (.ite h.keep.slotWritten.raise.raise h.keep.slotWritten.raise))

theorem Upholds.bumpHeld {s e i} (h : Upholds lim s₀ s) : Upholds lim s₀ (bumpHeld s e i) := h.keep
theorem Upholds.holdEvent {s e cseq} (h : Upholds lim s₀ s) : Upholds lim s₀ (holdEvent s e cseq) := .ite h.keep h.keep
theorem Upholds.doClear {s cseq} (h : Upholds lim s₀ s) : Upholds lim s₀ (doClear s cseq) := h.keep.writeRec

theorem Upholds.newEvent {s e} (h : Upholds lim s₀ s) : Upholds lim s₀ (newEvent s e) :=
  (Upholds.ite h h.stamp).andThen fun h => .ite h.writeRec h.holdEvent

theorem Upholds.failNow {s ofs} (h : Upholds lim s₀ s) : Upholds lim s₀ (failNow s ofs) := by
  unfold Machine.failNow; extract_lets; split; exacts [h.logSramFail.keep.newEvent, h.logSramFail]

theorem Upholds.bumpEvent {s e q} (h : Upholds lim s₀ s) : Upholds lim s₀ (bumpEvent s e q) :=
  .ite h.keep (.ite h.eccRead.failNow.newEvent h.eccRead.keep.slotWritten)

theorem Upholds.writeEvent {s e} (h : Upholds lim s₀ s) : Upholds lim s₀ (writeEvent s e) :=
  .ite (by split; exacts [h.doClear, h])
    (.ite (by split; exacts [h.bumpEvent, h.newEvent]) (by split; exacts [h.bumpHeld, h.newEvent]))

theorem Upholds.flushLog {s} (h : Upholds lim s₀ s) : Upholds lim s₀ (flushLog s) :=
  (h.keep.foldl fun _ _ h => h.writeEvent).keep

theorem Upholds.logStart {s} (h : Upholds lim s₀ s) : Upholds lim s₀ (logStart s) :=
  .ite h (((h.keep.foldl fun _ _ h => h.writeRec).foldl fun _ _ h => h.doClear).foldl fun _ _ h => h.writeRec)

theorem Upholds.logClear {s} (h : Upholds lim s₀ s) : Upholds lim s₀ (logClear s) := .ite h (.ite h.keep h.keep)

theorem Upholds.logFetch {s seq} (h : Upholds lim s₀ s) : Upholds lim s₀ (logFetch s seq).2 := by
  unfold Machine.logFetch; split; exacts [h, .iteSnd h (.iteSnd h.eccRead.logSramFail h.eccRead)]

end Sys2Proof.Machine
end

section
/-! SUPPORT. O59, resets, the boot sequence and the trip. -/

namespace Sys2Proof.Machine

open Sys2Proof

variable {lim : Nat} {s₀ : State}

theorem Upholds.setPwr {s p} (h : Upholds lim s₀ s) : Upholds lim s₀ (setPwr s p) := h.keep
theorem Upholds.publishPwr {s} (h : Upholds lim s₀ s) : Upholds lim s₀ (publishPwr s) := h.setF.setFB.setFB
theorem Upholds.showNow {s l} (h : Upholds lim s₀ s) : Upholds lim s₀ (showNow s l) := h.keep

theorem Upholds.enterClkFault {s cause} (h : Upholds lim s₀ s) : Upholds lim s₀ (enterClkFault s cause) :=
  .ite h h.clkState.logEv.raise.pairRelease.pairRoles.flushLog.publishClk.publishPair.publishPwr.showNow

theorem Upholds.identRegs {s cause} (h : Upholds lim s₀ s) : Upholds lim s₀ (identRegs s cause) :=
  (Upholds.ite h.setR64.setR.setFB.setF.setF.setR h.setR64.setR.setFB.setF.setF).andThen fun h =>
    .ite h.setR.setR.setF.setF.setF h

theorem Upholds.resetRegisters {old new : State} {cause : Nat} (h : Upholds lim s₀ new) :
    Upholds lim s₀ (resetRegisters old new cause) :=
  (Upholds.ite h.identRegs.setF.setF h.identRegs).setR.setR.keep

theorem Upholds.deviceReset {s cause xo test} (h : Upholds lim s₀ s) : Upholds lim s₀ (deviceReset s cause xo test) := by
  unfold Machine.deviceReset; extract_lets _ _ _ _ _ _ _ new
  have hnew : Upholds lim s₀ new := ⟨fun w => Sparse.wf_filter _ _ _ (h.memory w), fun _ => Nat.zero_le _, fun _ => Nat.zero_le _,
    fun _ => Nat.zero_le _, fun _ => Nat.zero_le _⟩
  exact hnew.resetRegisters

theorem Upholds.releaseReset {s cause xo test} (h : Upholds lim s₀ s) : Upholds lim s₀ (releaseReset s cause xo test) :=
  h.pairRelease.deviceReset.keep

theorem Upholds.startFirmware {s img fallback} (h : Upholds lim s₀ s) : Upholds lim s₀ (startFirmware s img fallback) :=
  h.rootKey.setFB.setF.setF.keep

theorem Upholds.flashBoot {s} (h : Upholds lim s₀ s) : Upholds lim s₀ (flashBoot s) :=
  .ite h.startFirmware (.ite h.startFirmware h.setPwr)

theorem Upholds.romStart {s} (h : Upholds lim s₀ s) : Upholds lim s₀ (romStart s) :=
  .ite h (by
    extract_lets
    split
    · exact h.venuePlace.setPwr
    · exact h.venuePlace.setPwr
    · exact .ite h.venuePlace.flashBoot h.venuePlace.setPwr
    · exact h.venuePlace.flashBoot)

theorem Upholds.bootGo {s} (h : Upholds lim s₀ s) : Upholds lim s₀ (bootGo s) := .ite h.startFirmware h
theorem Upholds.uartBoot {s image} (h : Upholds lim s₀ s) : Upholds lim s₀ (uartBoot s image) := .ite h.setPwr.startFirmware h

theorem Upholds.restartClk {s} (h : Upholds lim s₀ s) : Upholds lim s₀ (restartClk s) :=
  .updateSteer (h.keep.foldl fun _ _ h => h.refInstall)

theorem Upholds.wakeDone {s} (h : Upholds lim s₀ s) : Upholds lim s₀ (wakeDone s) := h.keep.restartClk.logEv

theorem Upholds.pwrGoodRise {s g} (h : Upholds lim s₀ s) : Upholds lim s₀ (pwrGoodRise s g) := by
  unfold Machine.pwrGoodRise; split
  · exact .ite h (.ite h.setF.setPwr.romStart h.setF.setPwr)
  · exact .ite h (.ite h.setF.setPwr h.setF.wakeDone)
  · exact h

theorem Upholds.enablesDown {s q kind} (h : Upholds lim s₀ s) : Upholds lim s₀ (enablesDown s q kind) :=
  h.setPwr.setF.setR.publishPwr.showNow

theorem Upholds.sequenceTimeout {s} (h : Upholds lim s₀ s) : Upholds lim s₀ (sequenceTimeout s) := by
  unfold Machine.sequenceTimeout; extract_lets; split; exacts [h.setR.enablesDown, h.setR.enablesDown, h]

theorem Upholds.railState {s k mv under} (h : Upholds lim s₀ s) : Upholds lim s₀ (railState s k mv under) :=
  .ite h (.ite h.setPwr h.setPwr.addCtr.raise.logEv.fmuteSet.pairRelease)

theorem Upholds.pgoodPin {s k low} (h : Upholds lim s₀ s) : Upholds lim s₀ (pgoodPin s k low) := by
  unfold Machine.pgoodPin; split; exacts [.ite h h.setF, h]

theorem Upholds.railUndervoltage {s k mv low} (h : Upholds lim s₀ s) : Upholds lim s₀ (railUndervoltage s k mv low) :=
  h.setR.pgoodPin.railState

theorem Upholds.kpuRail {s} (h : Upholds lim s₀ s) : Upholds lim s₀ (kpuRail s) := .ite h h.railState
theorem Upholds.wdtWrite {s v} (h : Upholds lim s₀ s) : Upholds lim s₀ (wdtWrite s v) := .ite h.setF.setPwr h.setF

theorem Upholds.wdtExpire {s : State} {rel : WdtIn} (h : Upholds lim s₀ s) : Upholds lim s₀ (wdtExpire s rel) :=
  .ite h (.ite h.releaseReset h.restartFw.setPwr.addCtr.raise.logEv)

theorem Upholds.thermalSample {s temps} (h : Upholds lim s₀ s) : Upholds lim s₀ (thermalSample s temps) :=
  (h.foldl fun _ _ h => h.setR).andThen fun h =>
    (Upholds.ite (.ite h.setF.setFB.addCtr.logEv.raise h.setF) (.ite h.setF.setFB h.setF)).andThen fun h => .ite h.setPwr h

theorem Upholds.thermalTrip {s k temp} (h : Upholds lim s₀ s) : Upholds lim s₀ (thermalTrip s k temp) :=
  .ite h h.setPwr.logEv.raise.fmuteSet.pairRelease

theorem Upholds.tripDivider {s} (h : Upholds lim s₀ s) : Upholds lim s₀ (tripDivider s) := h.setF.kpuRail
theorem Upholds.thermalShutdown {s} (h : Upholds lim s₀ s) : Upholds lim s₀ (thermalShutdown s) := .ite h.enablesDown h
theorem Upholds.pmbWrite {s v} (h : Upholds lim s₀ s) : Upholds lim s₀ (pmbWrite s v) := .ite h.setR.setFB.setPwr h.setR

theorem Upholds.pmbusDone {s nack pec data} (h : Upholds lim s₀ s) : Upholds lim s₀ (pmbusDone s nack pec data) :=
  .ite h
    ((Upholds.ite h.setFB.setFB h.setFB).andThen fun h =>
      (Upholds.ite h.setFB h).andThen fun h => (Upholds.ite h.setR h).raise)

theorem Upholds.wakeStart {s b} (h : Upholds lim s₀ s) : Upholds lim s₀ (wakeStart s b) := .ite h h.setR.raise.setPwr
theorem Upholds.darkCommit {s} (h : Upholds lim s₀ s) : Upholds lim s₀ (darkCommit s) := .ite h.setEvent h.setPwr.logEv

theorem Upholds.dropChange {s c} (h : Upholds lim s₀ s) : Upholds lim s₀ (dropChange s c) := by
  unfold Machine.dropChange; split; exacts [h.replyTo, h]

theorem Upholds.darkDiscard {s} (h : Upholds lim s₀ s) : Upholds lim s₀ (darkDiscard s) := by
  unfold Machine.darkDiscard; extract_lets s₁ s₂ s₃ s₄
  have h₂ : Upholds lim s₀ s₂ := (h.abandonCopy.foldl fun _ _ h => h.dropChange).replyTo
  have h₄ : Upholds lim s₀ s₄ := (h₂.foldl fun _ _ h => h.replyTo).foldl fun _ _ h => h.reply
  exact ((h₄.setFrameQ (q := []) fun _ => Nat.zero_le _).setSnaps (q := []) fun _ => Nat.zero_le _).setTake.stageClear

theorem Upholds.darkFinish {s} (h : Upholds lim s₀ s) : Upholds lim s₀ (darkFinish s) :=
  h.drainDram.darkDiscard.strmDark.setF.setR.setR.keep

end Sys2Proof.Machine
end

section
/-! SUPPORT. O59, register accesses and what a committed word does. -/

namespace Sys2Proof.Machine

open Sys2Proof

variable {lim : Nat} {s₀ : State}

theorem Upholds.clearRc {s a} (h : Upholds lim s₀ s) : Upholds lim s₀ (clearRc s a) := by
  unfold Machine.clearRc; split; exacts [h, h.foldl fun _ _ h => h.setR.keep]

theorem Upholds.readReg {s a} (h : Upholds lim s₀ s) : Upholds lim s₀ (readReg s a).2 :=
  .iteSnd h (.iteSnd h.tsqRead (.iteSnd h.tsqRead (.ite h.keep h.keep.clearRc)))

theorem Upholds.readRegs {n a} {s : State} (h : Upholds lim s₀ s) : Upholds lim s₀ (readRegs n a s).2 := by
  induction n generalizing a s with
  | zero => exact h
  | succ n ih => exact ih h.readReg

theorem Upholds.storeWord {s a v} (h : Upholds lim s₀ s) : Upholds lim s₀ (storeWord s a v) := h.setR
theorem Upholds.resend {s n} (h : Upholds lim s₀ s) : Upholds lim s₀ (resend s n) := .ite h.sendVector h
theorem Upholds.ringTail {s v} (h : Upholds lim s₀ s) : Upholds lim s₀ (ringTail s v) := .ite h.raise h.setR
theorem Upholds.ringHead {s v} (h : Upholds lim s₀ s) : Upholds lim s₀ (ringHead s v) := .ite h.raise h.setR
theorem Upholds.setShown {s a v} (h : Upholds lim s₀ s) : Upholds lim s₀ (setShown s a v) := h.setR.keep

theorem Upholds.showRecord {s r} (h : Upholds lim s₀ s) : Upholds lim s₀ (showRecord s r) :=
  h.setShown.foldl fun _ _ h => h.setShown

theorem Upholds.rdSelect {s : State} {v : Nat} (h : Upholds lim s₀ s) : Upholds lim s₀ (rdSelect s v) := by
  unfold Machine.rdSelect; extract_lets s₁ x
  have hx : Upholds lim s₀ x.2 := h.setR.logFetch
  exact hx.showRecord

theorem Upholds.writeNow {s a v} (h : Upholds lim s₀ s) : Upholds lim s₀ (writeNow s a v) :=
  .ite h.ringTail
    (.ite h.ringHead
      (.ite h.setR.sendRisen
        (.ite h.storeWord.sendRisen
          (.ite h.storeWord.resend (.ite h.rdSelect (.ite h (.ite h.wdtWrite (.ite h.pmbWrite h.mboxWrite))))))))

theorem Upholds.commitSys {s a v fw} (h : Upholds lim s₀ s) : Upholds lim s₀ (commitSys s a v fw) :=
  .ite (.ite h.bootGo h) (.ite (.ite h h.keep.setF) h.storeWord)

theorem Upholds.commitClk {s a v} (h : Upholds lim s₀ s) : Upholds lim s₀ (commitClk s a v) :=
  .ite (Upholds.ite h.setFB.keep h.setFB).applySelection
    (.ite h.setR.applySelection
      (.ite h.storeWord.applySelection
        (.ite h.setR
          (.ite ((Upholds.ite h.storeWord h.storeWord).andThen fun h => .ite h h.refInstall)
            (.ite h.storeWord h.storeWord)))))

theorem Upholds.commitTime {s a v} (h : Upholds lim s₀ s) : Upholds lim s₀ (commitTime s a v) :=
  .ite (.ite h.storeWord.applyServoEn.keep.enterJump h.storeWord.applyServoEn) (.ite h.storeWord h.storeWord)

theorem Upholds.commitNet {s p a v} (h : Upholds lim s₀ s) : Upholds lim s₀ (commitNet s p a v) :=
  .ite (.ite h.storeWord.raise ((Upholds.ite h.storeWord h.storeWord.linkChange).andThen fun h => .ite h h.applyServoEn))
    (.ite h.setR (.ite h.setR h.storeWord))

theorem Upholds.commitConv {s a v} (h : Upholds lim s₀ s) : Upholds lim s₀ (commitConv s a v) :=
  .ite h.setR (.ite h.storeWord (.ite h.storeWord.capCommit h.storeWord))

theorem Upholds.commitDisp {s a v} (h : Upholds lim s₀ s) : Upholds lim s₀ (commitDisp s a v) :=
  .ite (.ite h.keep h) (.ite (.ite (h.storeWord.foldl fun _ _ h => h.setR) h.storeWord) h.storeWord)

theorem Upholds.commitXpt {s a v} (h : Upholds lim s₀ s) : Upholds lim s₀ (commitXpt s a v) :=
  .ite h.ngainCommit (.ite h.ceilLimCommit (.ite h.fmuteClear (.ite (.ite h.fmuteSet h) (.ite (.ite h.holdClear h) h.storeWord))))

theorem Upholds.logCtrlCommit {s v} (h : Upholds lim s₀ s) : Upholds lim s₀ (logCtrlCommit s v) :=
  (Upholds.ite h.logClear h).andThen fun h => .ite h (.ite h.logStart h.logStart.logEv)

theorem Upholds.commitWord {s a v fw} (h : Upholds lim s₀ s) : Upholds lim s₀ (commitWord s a v fw) :=
  .ite h (by
    split
    · exact h.commitSys
    · exact h.commitClk
    · exact h.commitTime
    · exact h.commitNet
    · exact h.commitNet
    · exact .ite h.geomCtrlCommit (.ite h.kspmCommit (.ite h.floorCommit (.ite h.objWrite h.storeWord)))
    · exact .ite h.setR h.storeWord
    · exact h.commitConv
    · exact .ite h.kpuClkWrite (.ite h.kpuFaultWrite h.storeWord)
    · exact h.commitDisp
    · exact h.commitXpt
    · exact .ite h.reelBaseCommit (.ite h.reelBaseCommit h.storeWord)
    · exact .ite h.maskCommit h.storeWord
    · exact .ite h.spanCommit h.storeWord
    · exact .ite h.memCfgCommit (.ite h.fspReqCommit (.ite h.trainCtrlCommit (.ite h.setR h.storeWord)))
    · exact .ite (.ite h.storeWord.keep h.storeWord) h.storeWord
    · exact .ite h.pairCfgCommit (.ite h.pairCtrlCommit (.ite h.setR h.storeWord))
    · exact .ite h.logCtrlCommit (.ite h h.storeWord)
    · exact .ite (.ite h.storeWord.darkCommit h.storeWord) h.storeWord
    · exact h.storeWord)

theorem Upholds.commitWrite {s a v fw} (h : Upholds lim s₀ s) : Upholds lim s₀ (commitWrite s a v fw) :=
  .ite h (by
    extract_lets
    split
    · exact .ite h.stamp.commitWord.resend (.ite h.stamp.commitWord.sendRisen h.stamp.commitWord)
    · exact h.stamp.commitWord)

theorem Upholds.hostWrite {s a v} (h : Upholds lim s₀ s) : Upholds lim s₀ (hostWrite s a v) := .ite h.writeNow h.queueWrite

theorem Upholds.registerWrite {s a v be} (h : Upholds lim s₀ s) : Upholds lim s₀ (registerWrite s a v be) :=
  .ite h (.ite h.addCtr h.hostWrite)

theorem Upholds.registerRead {s a} (h : Upholds lim s₀ s) : Upholds lim s₀ (registerRead s a) := .ite h h.readReg.keep

theorem Upholds.intstatClear {s n v} (h : Upholds lim s₀ s) : Upholds lim s₀ (intstatClear s n v) := by
  unfold Machine.intstatClear; split; exacts [h.hostWrite, h]

theorem Upholds.msixEntry {s n addr data masked} (h : Upholds lim s₀ s) : Upholds lim s₀ (msixEntry s n addr data masked) :=
  .ite h (.ite h.engine (.ite h.engine.sendVector h.engine))

theorem Upholds.pciePerst {s low} (h : Upholds lim s₀ s) : Upholds lim s₀ (pciePerst s low) := h.engine

end Sys2Proof.Machine
end

section
/-! SUPPORT. O59, the command engine. -/

namespace Sys2Proof.Machine

open Sys2Proof

variable {lim : Nat} {s₀ : State}

theorem Upholds.pendOp {s op ctx} (h : Upholds lim s₀ s) : Upholds lim s₀ (pendOp s op ctx) := h.pendAs

theorem Upholds.queueFrame {s f c ctx} (h : Upholds lim s₀ s) : Upholds lim s₀ (queueFrame s f c ctx) :=
  .ite h.reply (.iteNot (fun _ => h.reply) fun hroom => (h.frameAs hroom).reply)

theorem Upholds.setChangeCmd {s b k fx x ctx} (h : Upholds lim s₀ s) : Upholds lim s₀ (setChangeCmd s b k fx x ctx) :=
  .ite h.reply (.iteNot (fun _ => h.reply) fun hroom => h.frameAs hroom)

theorem Upholds.readCmd {s a n ctx} (h : Upholds lim s₀ s) : Upholds lim s₀ (readCmd s a n ctx) := h.readRegs.reply

theorem Upholds.writeWords {l a} {s : State} (h : Upholds lim s₀ s) : Upholds lim s₀ (writeWords s a l) := by
  induction l generalizing a s with
  | nil => exact h
  | cons v l ih => exact ih h.hostWrite

theorem Upholds.writeCmd {s at_ a l ctx} (h : Upholds lim s₀ s) : Upholds lim s₀ (writeCmd s at_ a l ctx) := by
  unfold Machine.writeCmd; split; exacts [h.queueFrame, h.writeWords.reply]

theorem Upholds.modifyCmd {s at_ a m v ctx} (h : Upholds lim s₀ s) : Upholds lim s₀ (modifyCmd s at_ a m v ctx) := by
  unfold Machine.modifyCmd; split; exacts [h.queueFrame, (Upholds.ite h.writeNow h.pendAs).reply]

theorem Upholds.snapshotCmd {s f l ctx} (h : Upholds lim s₀ s) : Upholds lim s₀ (snapshotCmd s f l ctx) :=
  .ite h.reply (.iteNot (fun _ => h.reply) fun hroom => h.setSnaps fun _ => length_push_le hroom)

theorem Upholds.logRecords {n seq} {s : State} (h : Upholds lim s₀ s) : Upholds lim s₀ (logRecords n seq s).2 := by
  induction n generalizing seq s with
  | zero => exact h
  | succ n ih =>
    refine .iteSnd h ?_
    have hf := h.logFetch (seq := seq)
    generalize Machine.logFetch s seq = r at hf ⊢
    split; exacts [hf, ih hf]

theorem Upholds.logReadCmd {s first n ctx} (h : Upholds lim s₀ s) : Upholds lim s₀ (logReadCmd s first n ctx) :=
  .ite h.reply h.logRecords.reply

theorem Upholds.setBeginCmd {s bus slot size ctx} (h : Upholds lim s₀ s) : Upholds lim s₀ (setBeginCmd s bus slot size ctx) :=
  .ite h.reply (.ite h.addCtr.reply h.keep.reply)

theorem Upholds.setDataCmd {s ofs d ctx} (h : Upholds lim s₀ s) : Upholds lim s₀ (setDataCmd s ofs d ctx) := by
  unfold Machine.setDataCmd; split; exacts [.ite h.reply h.keep.reply, h.reply]

theorem Upholds.eccInjectCmd {s k kind ofs ctx} (h : Upholds lim s₀ s) : Upholds lim s₀ (eccInjectCmd s k kind ofs ctx) :=
  .ite h.reply (by split; exacts [h.injectAt.reply, h.reply])

theorem Upholds.logClearCmd {s ctx} (h : Upholds lim s₀ s) : Upholds lim s₀ (logClearCmd s ctx) := .ite h.reply h.pendOp

theorem Upholds.pairSwitchCmd {s f ctx} (h : Upholds lim s₀ s) : Upholds lim s₀ (pairSwitchCmd s f ctx) := by
  unfold Machine.pairSwitchCmd; split; exacts [h.reply, .iteNot (fun _ => h.reply) fun hroom => (h.frameAs hroom).pairSend.reply]

theorem Upholds.setEndCmd {s ctx} (h : Upholds lim s₀ s) : Upholds lim s₀ (setEndCmd s ctx) :=
  (Upholds.reply (by split; exacts [by split; exacts [h.setEnd.forwardSet, h.setEnd], h.setEnd]))

theorem Upholds.hwExec {s at_ op ctx} (h : Upholds lim s₀ s) : Upholds lim s₀ (hwExec s at_ op ctx) := by
  unfold Machine.hwExec; split; exacts [h.readCmd, h.writeCmd, h.modifyCmd, h.snapshotCmd, h]

theorem Upholds.fwExec {s op ctx} (h : Upholds lim s₀ s) : Upholds lim s₀ (fwExec s op ctx) :=
  .ite h.reply (by
    split
    · exact h.reply
    · exact h.reply
    · exact h.reply
    · exact h.stageBegin
    · exact h.stageData
    · exact h.stageEnd
    · exact h.stageFromReel
    · exact .ite h.reply h.pendOp
    · exact h.stageStatus
    · exact h.cutCommand
    · exact h.pendOp
    · exact h.reelBegin
    · exact h.reelData
    · exact h.reelEnd
    · exact h.reelDelete
    · exact h.reelList
    · exact h.logReadCmd
    · exact h.reply
    · exact h.reply
    · exact h.logClearCmd
    · exact h.pairStatus
    · exact h.pairSwitchCmd
    · exact h.pairResync
    · exact h.setBeginCmd
    · exact h.setDataCmd
    · exact h.setEndCmd
    · exact h.setChangeCmd
    · exact h.reply
    · exact h.queueFrame
    · exact h.queueFrame
    · exact h.fwBegin
    · exact h.fwData
    · exact h.fwEnd
    · exact h.fwSwitch
    · exact h.fwStatus
    · exact h.reply
    · exact h.fspRequest
    · exact h.memTrain
    · exact h.eccInjectCmd
    · exact h)

theorem Upholds.opCommit {s op ctx} (h : Upholds lim s₀ s) : Upholds lim s₀ (opCommit s op ctx) := by
  unfold Machine.opCommit; split
  · exact (Upholds.ite h h.stamp).stageDiscard
  · exact (Upholds.ite h.stamp h).cutCancel
  · exact .ite h.replyTo h.stamp.logClear.replyTo
  · exact .ite h.setChange.setOutcome h.setChange.replyTo
  · exact h.stamp.keep
  · exact h.stamp.keep
  · exact h.stamp.switchNow
  · exact h.fwSwitchNow
  · exact h

theorem Upholds.commitAny {s a v fw} (h : Upholds lim s₀ s) : Upholds lim s₀ (commitAny s a v fw) :=
  .ite h.writeNow h.commitWrite

theorem Upholds.commitWords {fw l a} {s : State} (h : Upholds lim s₀ s) : Upholds lim s₀ (commitWords fw s a l) := by
  induction l generalizing a s with
  | nil => exact h
  | cons v l ih => exact ih h.commitAny

theorem Upholds.commitChange {s x1} (h : Upholds lim s₀ s) : Upholds lim s₀ (commitChange s x1) := by
  unfold Machine.commitChange; split; exacts [h.commitWords, h.commitAny, h.opCommit]

theorem Upholds.fwRun {x seq code n} {s : State} (h : Upholds lim s₀ s) : Upholds lim s₀ (fwRun x seq code n s) := by
  induction n generalizing s with
  | zero => exact h
  | succ n ih =>
    refine .ite h ?_
    split
    · exact h
    next hq =>
      have hrest : s.ccp.fwQ.length ≤ 32 → _ := fun b => Nat.le_of_succ_le (hq ▸ b)
      exact .ite (h.setFwQ hrest).fwExec (ih (h.setFwQ hrest).fwExec)

theorem Upholds.authDrop {s x} (h : Upholds lim s₀ s) : Upholds lim s₀ (authDrop s x) := by
  unfold Machine.authDrop; extract_lets; split; exacts [h.addCtr.raise.logRun.engine, h.addCtr.raise]

theorem Upholds.sequenceRule {s ctx} (h : Upholds lim s₀ s) : Upholds lim s₀ (sequenceRule s ctx).2 := by
  unfold Machine.sequenceRule; extract_lets; split
  · exact .iteSnd h.putSession
      (.iteSnd (by split; exacts [h.putSession.addCtr.placeReply, h.putSession]) h.putSession.addCtr.placeReply)
  · exact .iteSnd h.putSession.placeReply h.putSession

/-- Firmware, the commands that wait, and the registers of the command ring as they were in o. -/
structure CommandsKept (o s : State) : Prop where
  fw : s.fw = o.fw
  fwQ : s.ccp.fwQ = o.ccp.fwQ
  ringHeld : s.ccp.ringHeld = o.ccp.ringHeld
  spiIn : s.ccp.spiIn = o.ccp.spiIn
  head : getR s Reg.HOST_CMDHEAD = getR o Reg.HOST_CMDHEAD
  tail : getR s Reg.HOST_CMDTAIL = getR o Reg.HOST_CMDTAIL

section

variable {o s : State}

theorem CommandsKept.refl (s : State) : CommandsKept s s := ⟨rfl, rfl, rfl, rfl, rfl, rfl⟩

theorem CommandsKept.trans {t : State} (h : CommandsKept o s) (k : CommandsKept s t) : CommandsKept o t :=
  ⟨k.fw.trans h.fw, k.fwQ.trans h.fwQ, k.ringHeld.trans h.ringHeld, k.spiIn.trans h.spiIn, k.head.trans h.head, k.tail.trans h.tail⟩

/-- The other fields may change, and of the command engine all but its queues. -/
theorem CommandsKept.keep (h : CommandsKept o s) {t : State} (hfw : t.fw = s.fw := by rfl) (hregs : t.regs = s.regs := by rfl)
    (hfwQ : t.ccp.fwQ = s.ccp.fwQ := by rfl) (hring : t.ccp.ringHeld = s.ccp.ringHeld := by rfl)
    (hspi : t.ccp.spiIn = s.ccp.spiIn := by rfl) : CommandsKept o t :=
  h.trans ⟨hfw, hfwQ, hring, hspi, getR_congr _ _ _ hregs, getR_congr _ _ _ hregs⟩

theorem CommandsKept.ite {c : Prop} [Decidable c] {a b : State} (ha : CommandsKept o a) (hb : CommandsKept o b) :
    CommandsKept o (if c then a else b) := by split; exacts [ha, hb]

theorem CommandsKept.setR {a v : Nat} (h : CommandsKept o s) (hhead : Reg.HOST_CMDHEAD ≠ a := by decide)
    (htail : Reg.HOST_CMDTAIL ≠ a := by decide) : CommandsKept o (setR s a v) :=
  h.trans ⟨rfl, rfl, rfl, rfl, getR_setR_ne _ _ _ _ hhead, getR_setR_ne _ _ _ _ htail⟩

theorem CommandsKept.addCtr {a n : Nat} (h : CommandsKept o s) (hhead : Reg.HOST_CMDHEAD ≠ a := by decide)
    (htail : Reg.HOST_CMDTAIL ≠ a := by decide) : CommandsKept o (addCtr s a n) := h.setR hhead htail

theorem CommandsKept.sendVector {n} (h : CommandsKept o s) : CommandsKept o (sendVector s n) := .ite h (.ite h.keep h.keep)

theorem CommandsKept.sendRisen {t : State} (h : CommandsKept o s) : CommandsKept o (sendRisen t s) :=
  foldl_invariant (CommandsKept o) _ (fun _ _ h => .ite h.sendVector h) _ _ h

theorem intStatAt_ne_cmdRing {n a : Nat} (ha : intStatAt n = some a) : Reg.HOST_CMDHEAD ≠ a ∧ Reg.HOST_CMDTAIL ≠ a := by
  unfold intStatAt at ha
  split at ha
  case h_22 => cases ha
  all_goals
    cases ha
    decide

theorem CommandsKept.raise {n b : Nat} (h : CommandsKept o s) : CommandsKept o (raise s n b) := by
  unfold Machine.raise
  split
  next a ha =>
    obtain ⟨hhead, htail⟩ := intStatAt_ne_cmdRing ha
    exact ((h.setR hhead htail).keep (t := Machine.setEvent s a (2 ^ b))).sendRisen
  next => exact h

/-! A packet of metadata moves no command. -/

theorem CommandsKept.metaCount {a : Nat} (h : CommandsKept o s) (hhead : Reg.HOST_CMDHEAD ≠ a := by decide)
    (htail : Reg.HOST_CMDTAIL ≠ a := by decide) : CommandsKept o (metaCount s a) := (h.addCtr hhead htail).raise

theorem CommandsKept.metaCollide (h : CommandsKept o s) : CommandsKept o (metaCollide s) := h.addCtr.raise

theorem CommandsKept.logRun {code payload run first} (h : CommandsKept o s) : CommandsKept o (logRun s code payload run first) :=
  .ite h.keep h.keep

theorem CommandsKept.metaDrop {a reason obj frame : Nat} (h : CommandsKept o s) (hhead : Reg.HOST_CMDHEAD ≠ a := by decide)
    (htail : Reg.HOST_CMDTAIL ≠ a := by decide) : CommandsKept o (metaDrop s a reason obj frame) :=
  (h.metaCount hhead htail).logRun.keep

theorem CommandsKept.metaPacket {b : Bytes} {pk : Nat} (h : CommandsKept o s) : CommandsKept o (metaPacket s b pk) := by
  unfold Machine.metaPacket
  refine .ite h.metaCount ?_
  extract_lets c frame first late
  refine .ite h.metaDrop (.ite h.metaDrop ?_)
  split
  next t ents ht =>
    have hentries : CommandsKept o (t, ents).1 := by
      rw [← ht]
      refine foldl_invariant (fun a : State × List MetaEnt => CommandsKept o a.1) _ (fun a e h => ?_) _ _ h
      split
      · exact h.metaCount
      · split; exacts [h.metaCollide, h]
    exact foldl_invariant (CommandsKept o) _ (fun _ _ h => .ite h.metaDrop h.keep) _ _ hentries

theorem CommandsKept.metaInject {b : Bytes} (h : CommandsKept o s) : CommandsKept o (metaInject s b) :=
  (h.keep (t := { s with strm := { s.strm with packets := s.strm.packets + 1 } })).metaPacket

end

theorem metaInject_fwQ (s : State) (b : Bytes) : (metaInject s b).ccp.fwQ = s.ccp.fwQ := (CommandsKept.refl s).metaInject.fwQ

theorem Upholds.takeCommand {s ctx p} (h : Upholds lim s₀ s) : Upholds lim s₀ (takeCommand s ctx p) :=
  .ite h.addCtr.reply
    (.ite h.addCtr.reply
      (.ite h.addCtr.reply (by
        extract_lets
        split
        · exact h.addCtr.reply
        · exact .ite h.addCtr.hwExec (.ite h.addCtr.reply (.iteNot (fun _ => h.addCtr.reply) fun hroom => by
            split
            · exact h.addCtr.metaInject.setFwQ fun _ => length_push_le (by rwa [metaInject_fwQ])
            · exact h.addCtr.setFwQ fun _ => length_push_le hroom)))))

theorem Upholds.takePkt {s : State} {x : Sess} {nport mac : Nat} {p : CcpPkt} (h : Upholds lim s₀ s) :
    Upholds lim s₀ (takePkt s x nport mac p) := by
  refine .ite h.authDrop ?_
  extract_lets _ s₁ ctx
  have hq : Upholds lim s₀ (Machine.sequenceRule s₁ ctx).2 := (Upholds.ite h.engine h).sequenceRule
  split
  · exact (hq.of_eq ‹_›).engine.takeCommand
  · exact hq.of_eq ‹_›

theorem Upholds.badPacket {s} (h : Upholds lim s₀ s) : Upholds lim s₀ (badPacket s) := h.addCtr.raise

theorem Upholds.takePacket {s x nport mac b} (h : Upholds lim s₀ s) : Upholds lim s₀ (takePacket s x nport mac b) := by
  unfold Machine.takePacket; split; exacts [h.badPacket, h.takePkt]

theorem Upholds.cmdHead {s v} (h : Upholds lim s₀ s) : Upholds lim s₀ (cmdHead s v) := h.setR.raise

theorem Upholds.ringTake {s} (h : Upholds lim s₀ s) : Upholds lim s₀ (ringTake s) := by
  unfold Machine.ringTake; extract_lets; split; exacts [h.badPacket.cmdHead.raise, h.cmdHead.takePkt]

theorem Upholds.drainRing {n} {s : State} (h : Upholds lim s₀ s) : Upholds lim s₀ (drainRing n s) := by
  induction n generalizing s with
  | zero => exact h
  | succ n ih => exact .ite h (ih h.ringTake)

theorem Upholds.serveRing {s} (h : Upholds lim s₀ s) : Upholds lim s₀ (serveRing s) := h.drainRing

theorem Upholds.drainSpi {n} {s : State} (h : Upholds lim s₀ s) : Upholds lim s₀ (drainSpi n s) := by
  induction n generalizing s with
  | zero => exact h
  | succ n ih =>
    unfold Machine.drainSpi; split
    · exact h
    next hq => exact .ite h (ih (h.setSpiIn fun b => Nat.le_of_succ_le (by rwa [hq] at b)).raise.takePacket)

theorem Upholds.serveSpi {s} (h : Upholds lim s₀ s) : Upholds lim s₀ (serveSpi s) := h.drainSpi

theorem Upholds.cmdTailWrite {s data v} (h : Upholds lim s₀ s) : Upholds lim s₀ (cmdTailWrite s data v) :=
  .ite h h.engine.writeNow.serveRing

theorem Upholds.writeCmdSpi {s b} (h : Upholds 2 s₀ s) : Upholds 2 s₀ (writeCmdSpi s b) :=
  .ite h (.iteNot (fun _ => h.engine.addCtr.raise) fun hroom => (h.setSpiIn fun _ => length_push_le hroom).serveSpi.serveRing)

theorem Upholds.ringSend {s b} (h : Upholds lim s₀ s) : Upholds lim s₀ (ringSend s b) := .ite h h.cmdTailWrite

theorem Upholds.deliverPacket {s x nport mac b} (h : Upholds 2 s₀ s) : Upholds 2 s₀ (deliverPacket s x nport mac b) := by
  unfold Machine.deliverPacket; split; exacts [h.ringSend, h.writeCmdSpi, h.takePacket]

theorem Upholds.ccpCommand {h op s} (hs : Upholds 2 s₀ s) : Upholds 2 s₀ (ccpCommand h op s) :=
  .ite hs hs.deliverPacket.fwRun.serveRing

end Sys2Proof.Machine
end

section
/-! SUPPORT. O59, the receive side of the network. -/

namespace Sys2Proof.Machine

open Sys2Proof

variable {lim : Nat} {s₀ : State}

theorem Upholds.cpqPut {s p flags stamp tagged b} (h : Upholds lim s₀ s) : Upholds lim s₀ (cpqPut s p flags stamp tagged b) :=
  .ite h.addCtr.raise h.setPort

theorem Upholds.filtered {s p} (h : Upholds lim s₀ s) : Upholds lim s₀ (filtered s p) := h.addCtr

theorem Upholds.timeEngine {s p f o stamp} (h : Upholds lim s₀ s) : Upholds lim s₀ (timeEngine s p f o stamp) := by
  unfold Machine.timeEngine; extract_lets; split; exacts [h.ptpSync, h.followUp, h.pdelayReq, h]

theorem Upholds.macControl {s p f} (h : Upholds lim s₀ s) : Upholds lim s₀ (macControl s p f) :=
  .ite (.ite h.setPort.addCtr.raise h) (.ite (.ite h.setPort.addCtr.raise h) h.filtered)

theorem Upholds.dispatch {s p stamp tagged f whole} (h : Upholds lim s₀ s) : Upholds lim s₀ (dispatch s p stamp tagged f whole) :=
  .ite h.macControl (by
    split
    · exact h.timeEngine.cpqPut
    · exact by
        split
        · exact h.cpqPut
        · exact by
            split
            · exact h.streamPacket
            · exact .ite (.ite h.badPacket h.takePacket.serveRing)
                (.ite h.beaconReceive (.ite h.netClapper (Upholds.ite h.addCtr h).cpqPut)))

theorem Upholds.monitorFrame {s p f} (h : Upholds lim s₀ s) : Upholds lim s₀ (monitorFrame s p f) := by
  unfold Machine.monitorFrame; extract_lets; split; exacts [.ite h.monitored h, h]

theorem Upholds.deliver {s p stamp b} (h : Upholds lim s₀ s) : Upholds lim s₀ (deliver s p stamp b) :=
  .ite h.cpqPut (.ite h.filtered h.monitorFrame.dispatch)

theorem Upholds.forwardFrame {s : State} {p stamp : Nat} {b : Bytes} (h : Upholds lim s₀ s) :
    Upholds lim s₀ (forwardFrame s p stamp b) := by
  unfold Machine.forwardFrame; extract_lets q tagged w f raw plain tc event
  have hplain : Upholds lim s₀ plain := h.enqueue2
  have hevent : ∀ o extra corr, Upholds lim s₀ (event o extra corr) := by
    intro o extra corr
    unfold event; split
    · exact h.enqueue0.of_eq ‹_›
    · exact (h.enqueue0.of_eq ‹_›).addCtr.raise
  refine .ite h (.ite hplain ?_)
  split
  · exact hplain
  split
  · exact hevent _ _ _
  · exact .ite (hevent _ _ _) h
  · exact .ite (hevent _ _ _) h
  · exact .ite (hevent _ _ _) h
  · exact .ite hplain h
  · exact hplain

theorem Upholds.chainFrame {s p stamp b} (h : Upholds lim s₀ s) : Upholds lim s₀ (chainFrame s p stamp b) :=
  .ite h.setPort.addCtr.logRun.raise
    (.ite (Upholds.ite h.setPort.forwardFrame h.setPort).deliver
      (.ite (.ite h.setPort.deliver h.setPort.forwardFrame) (.ite h.setPort.forwardFrame.deliver h.setPort.forwardFrame.filtered)))

theorem Upholds.wakeDetect {s p b} (h : Upholds lim s₀ s) : Upholds lim s₀ (wakeDetect s p b) := .ite h h.setF.raise.wakeStart

theorem Upholds.passSound {s p h} (hs : Upholds lim s₀ s) : Upholds lim s₀ (passSound s p h) :=
  .ite (.ite hs.cpqPut hs) (.ite hs.chainFrame (.ite hs.deliver hs.filtered))

theorem Upholds.passFrame {s p h} (hs : Upholds lim s₀ s) : Upholds lim s₀ (passFrame s p h) :=
  .ite hs.frameBad hs.frameBad.passSound

theorem Upholds.passFrames {s busy} (h : Upholds lim s₀ s) : Upholds lim s₀ (passFrames s busy) :=
  h.keep.foldl fun _ _ h => h.passFrame

theorem Upholds.frameReceive {s p b cap codeErr align fill other} (h : Upholds lim s₀ s) : Upholds lim s₀ (frameReceive s p b
    cap codeErr align fill other) :=
  .ite h
    (.ite (.ite h.wakeDetect h)
      (.ite h
        (.ite h.addCtr.raise.fillControl.passFrames
          (Upholds.ite h.fillControl.addCtr.raise h.fillControl.addCtr).setPort.passFrames)))

theorem Upholds.linkEvent {s p sync speed an lf rf} (h : Upholds lim s₀ s) : Upholds lim s₀ (linkEvent s p sync speed an lf rf) :=
  (Upholds.ite h.linkChange h.linkChange.passFrames).andThen fun h => .ite h.setFB.raise.wakeStart h

end Sys2Proof.Machine
end

section
/-! SUPPORT. O59, the host interfaces. -/

namespace Sys2Proof.Machine

open Sys2Proof

variable {lim : Nat} {s₀ : State}

theorem Upholds.rplHeadWrite {s v} (h : Upholds lim s₀ s) : Upholds lim s₀ (rplHeadWrite s v) := .ite h h.writeNow

theorem Upholds.placeHeld {n} {s : State} (h : Upholds lim s₀ s) : Upholds lim s₀ (placeHeld n s) := by
  induction n generalizing s with
  | zero => exact h
  | succ n ih =>
    unfold Machine.placeHeld; split
    · exact h
    rename_i b t _
    have hr := h.ringPlace (b := b)
    generalize Machine.ringPlace s b = r at hr ⊢
    split; exacts [ih hr.engine, hr]

theorem Upholds.replyRelease {s} (h : Upholds lim s₀ s) : Upholds lim s₀ (replyRelease s) := .ite h h.placeHeld.serveRing
theorem Upholds.readStat {s} (h : Upholds lim s₀ s) : Upholds lim s₀ (readStat s) := .ite h h.engine.keep
theorem Upholds.readRpl {s} (h : Upholds lim s₀ s) : Upholds lim s₀ (readRpl s) := .ite h h.keep

theorem Upholds.ackRpl {s} (h : Upholds lim s₀ s) : Upholds lim s₀ (ackRpl s) :=
  .ite h (h.engine.foldl fun _ _ h => h.spiPlace).serveRing.serveSpi

end Sys2Proof.Machine
end

section
/-! SUPPORT. O59, the frame boundary. -/

namespace Sys2Proof.Machine

open Sys2Proof

variable {lim : Nat} {s₀ : State}

theorem Upholds.advanceTimeline {s} (h : Upholds lim s₀ s) : Upholds lim s₀ (advanceTimeline s) := h.keep

theorem Upholds.transmitEmitted {s} (h : Upholds lim s₀ s) : Upholds lim s₀ (transmitEmitted s) := by
  unfold Machine.transmitEmitted; split; exacts [h.strmTransmit, h]

theorem Upholds.cancelStep {s} (h : Upholds lim s₀ s) : Upholds lim s₀ (cancelStep s) := .ite h.keep h

theorem Upholds.endOfFrame {s} (h : Upholds lim s₀ s) : Upholds lim s₀ (endOfFrame s) :=
  h.keep.emissionCutoff.advanceTimeline.cancelStep.timeBoundary.agePeers.linkBoundary.linkBoundary.transmitEmitted.fabBoundary
    |>.clearMiss.expireReqs.keep.relockFrame.relockRamp

theorem Upholds.spliceDue {s} (h : Upholds lim s₀ s) : Upholds lim s₀ (spliceDue s) :=
  (Upholds.ite h.keep.splice h).realignDue

theorem Upholds.captureFrame {s lab bi} (h : Upholds lim s₀ s) : Upholds lim s₀ (captureFrame s lab bi).2 := by
  unfold Machine.captureFrame; extract_lets; split; exacts [h.objCapture, h.strmCapture.lioCapture.objCapture.farStore]

theorem Upholds.beginProcessing {s xin} (h : Upholds lim s₀ s) : Upholds lim s₀ (beginProcessing s xin) :=
  h.startWork.injectToken.convBoundary.ungate

theorem Upholds.takeDue {s} (h : Upholds lim s₀ s) : Upholds lim s₀ (takeDue s) :=
  (h.setFrameQ fun b => (List.length_filter_le _ _).trans b).keep

theorem Upholds.commitFrameAddressed {s} (h : Upholds lim s₀ s) : Upholds lim s₀ (commitFrameAddressed s) :=
  h.takeDue.foldl fun _ _ h => h.commitChange

theorem Upholds.commitPending {s} (h : Upholds lim s₀ s) : Upholds lim s₀ (commitPending s) :=
  h.engine.foldl fun _ _ h => h.commitChange

theorem Upholds.commitBoundary {s : State} {bi : BoundaryIn} (h : Upholds lim s₀ s) : Upholds lim s₀ (commitBoundary s bi).2 := by
  unfold Machine.commitBoundary; extract_lets lab s₁ x s₂ s₃
  have hx : Upholds lim s₀ x.2 := h.spliceDue.releaseMasks.captureFrame
  have h₃ : Upholds lim s₀ s₃ := hx.masksSettle.beginProcessing.rsPhase.cutDue.rsCut
  dsimp only
  exact h₃.commitFrameAddressed.commitPending.tripDivider.endJump

theorem Upholds.publishSys {s} (h : Upholds lim s₀ s) : Upholds lim s₀ (publishSys s) :=
  h.setR64.setR64.setR.setR.setFB.setF.setFB.setFB.setR.setR

theorem Upholds.publish {s} (h : Upholds lim s₀ s) : Upholds lim s₀ (publish s) :=
  h.publishLog.publishPair.publishTake.publishPeers.publishPwr.publishNet.publishNet.publishClk.publishTime.publishFab.publishDrains
    |>.publishMem.publishKpu.publishDisp.publishConv.publishXpt.publishStrm.publishGeom.publishLio.publishSys.showRecord.keep

theorem Upholds.logBoundary {s} (h : Upholds lim s₀ s) : Upholds lim s₀ (logBoundary s) := h.flushLog
theorem Upholds.snapNow {s x} (h : Upholds lim s₀ s) : Upholds lim s₀ (snapNow s x) := h.reply
theorem Upholds.snapshots {s} (h : Upholds lim s₀ s) : Upholds lim s₀ (snapshots s) :=
  (h.setSnaps fun b => (List.length_filter_le _ _).trans b).foldl fun _ _ h => h.snapNow

theorem Upholds.emission {s xin} (h : Upholds lim s₀ s) : Upholds lim s₀ (emission s xin) :=
  (h.houseFrames.decideMute.emitFrame (fun _ _ _ h => h.noteDigest)).meterBoundary

theorem Upholds.tickBoundary {s} (h : Upholds lim s₀ s) : Upholds lim s₀ (tickBoundary s) :=
  .ite h.dropRunEnd h.dropRunEnd.metaTick.geomTick.farFetch

theorem Upholds.clearFresh {s} (h : Upholds lim s₀ s) : Upholds lim s₀ (clearFresh s) := h.engine

theorem Upholds.darkBoundary {s xin} (h : Upholds lim s₀ s) : Upholds lim s₀ (darkBoundary s xin) :=
  h.keep.emission.logBoundary.publish

theorem Upholds.darkEnd {s} (h : Upholds lim s₀ s) : Upholds lim s₀ (darkEnd s) :=
  h.clearFresh.advanceTimeline.transmitEmitted.darkFinish.logBoundary.publish

theorem Upholds.afterCommits {s xin} (h : Upholds lim s₀ s) : Upholds lim s₀ (afterCommits s xin) :=
  h.pairRoles.cutImages.gateCores.driveDue.tickBoundary.tdmStates.emission.dropUncompared.sendReady.servePeer.missRecords
    |>.logBoundary.publish.snapshots.serveRing

theorem Upholds.frameBoundary {s bi} (h : Upholds lim s₀ s) : Upholds lim s₀ (frameBoundary s bi) :=
  .ite h (.ite h.darkEnd (h.clearFresh.endOfFrame.commitBoundary.andThen fun h => .ite h.darkBoundary h.afterCommits))

end Sys2Proof.Machine
end

section
/-! SUPPORT. O59, register accesses over the fabric. -/

namespace Sys2Proof.Machine

open Sys2Proof

variable {lim : Nat} {s₀ : State}

theorem Upholds.fabRegWrite {m s a v} (h : Upholds lim s₀ s) : Upholds lim s₀ (fabRegWrite m s a v) :=
  .ite h.hostWrite (.ite h.fwReady (.ite h.writeNow h.pendNow))

theorem Upholds.regBurst {s : State} {b : Burst} (h : Upholds lim s₀ s) : Upholds lim s₀ (regBurst s b) := by
  unfold Machine.regBurst; split
  · exact (h.foldl fun _ _ h => h.fabRegWrite).serveRing
  · exact h.readRegs.keep

theorem Upholds.carryOut {s b} (h : Upholds lim s₀ s) : Upholds lim s₀ (carryOut s b) :=
  .ite h (.ite h.regBurst (.ite h.keep (.ite h.burstEnd.keep h.burstEnd)))

theorem Upholds.finishBurst {s b} (h : Upholds lim s₀ s) : Upholds lim s₀ (finishBurst s b) := .ite h.carryOut.keep h.carryOut
theorem Upholds.endBurst {s b} (h : Upholds lim s₀ s) : Upholds lim s₀ (endBurst s b) := h.finishBurst.retire

theorem Upholds.fabAsk {s r} (h : Upholds lim s₀ s) : Upholds lim s₀ (fabAsk s r) :=
  .ite h.fabError.keep.masterError (by split; exacts [h.fabError.keep.masterError, .ite h.keep h.keep.grant])

theorem Upholds.wakeStalled {s : State} (h : Upholds lim s₀ s) : Upholds lim s₀ (wakeStalled s) := by
  unfold Machine.wakeStalled; extract_lets _ r
  have hr : Upholds lim s₀ r.2 := Upholds.foldlSnd h.keep fun _ _ h => .iteSnd h h.fabAsk
  exact hr.keep

theorem Upholds.drainEnd {s m src cycles} (h : Upholds lim s₀ s) : Upholds lim s₀ (drainEnd s m src cycles) := by
  unfold Machine.drainEnd; split
  · exact h
  · exact (h.keep.foldl fun _ _ h => h.finishBurst.grant).keep.publishDrains.addCtr.logEv.raise.wakeStalled

end Sys2Proof.Machine
end

section
/-! PROOF. O59: every command keeps the queues within their limits, and the memory canonical with them. -/

namespace Sys2Proof.Machine

open Sys2Proof

variable {s₀ : State}

/-- Where a command answers a next state, that state has what s₀ had. -/
def UpheldAfter (s₀ : State) (o : Host.Outcome State Fault Refusal) : Prop := ∀ t, o = .next t → Upholds 2 s₀ t

theorem Upholds.next {s : State} (h : Upholds 2 s₀ s) : UpheldAfter s₀ (.next s) := by
  rintro _ ⟨⟩
  exact h

theorem UpheldAfter.ite {c : Prop} [Decidable c] {a b} (ha : UpheldAfter s₀ a) (hb : UpheldAfter s₀ b) :
    UpheldAfter s₀ (if c then a else b) := by
  split; exacts [ha, hb]

/-- Every command, by the lemma of what it does. -/
theorem Upholds.exec {s} (h : Upholds 2 s₀ s) (i : Instr) : UpheldAfter s₀ (exec i s) := by
  cases i with
  | frameBoundary => exact h.frameBoundary.next
  | pathRender => exact h.pathRender.next
  | correctionGroupStart => exact Upholds.next (by split; exacts [.ite h.correctGroup h, h])
  | convBlockWork => exact h.blockWork.next
  | setConversionDone => exact h.conversionDone.next
  | safetyStage => exact h.safetyStage.next
  | emissionCutoff => exact h.emissionCutoff.next
  | rootPllRelockDone => exact (Upholds.ite h.keep h).next
  | dispatcherCycle => exact h.cutImages.dispatcherCycle.next
  | tdoneDrainEnd => exact Upholds.next (by split; exacts [.ite h.unstall.finishTask h, h])
  | tsigDrainEnd => exact Upholds.next (by split; exacts [.ite h.unstall.finishSignal h, h])
  | nop => exact (Upholds.ite h.ctOp (.ite h.kpuFault h)).next
  | vadd | vsub | vneg | vabs | vmin | vmax | vand | vor | vxor | vshl | vshr | vlsr | vshli | vshri | vmov | vbcast | vperm | vmul
    | vmulq | vnar | vmovx => exact h.vecOp.next
  | vcmpeq | vcmplt | vcmple => exact h.cmpOp.next
  | mul | mac | msu | mulb | macb | msub | cmac | cmacj | aclr | accld | accadd => exact h.accOp.next
  | arnd => exact Upholds.next (by split; exacts [h.vecOp, .ite h.kpuFault h])
  | ldv | lds | ldx => exact h.loadOp.next
  | stv | sts | stx => exact h.storeOp.next
  | addX | subX | andX | orX | xorX | shl | shr | sra | addi | movi | mfs => exact h.ctX.next
  | cmp | movv | br | brx | call | zloop | setbase | setlen | mts | rfi => exact h.ctOp.next
  | dmaq => exact (Upholds.ite (.ite h.queueDma h.stallCore) h.ctOp).next
  | dmaqQueueSpace => exact Upholds.next (by split; exacts [.ite h.unstall.queueDma h, h])
  | dmaw => exact (Upholds.ite (.ite h.closeBundle h.stallCore) h.ctOp).next
  | dmawReturn => exact Upholds.next (by split; exacts [.ite h.unstall.closeBundle h, h])
  | dmaTransferDone => exact h.dmaDone.next
  | tdone => exact (Upholds.ite (.ite h.finishTask h.stallCore) h.ctOp).next
  | tsig => exact (Upholds.ite (.ite h.finishSignal h.stallCore) h.ctOp).next
  | swi => exact (Upholds.ite h.setCore.ctOp h.ctOp).next
  | bkpt => exact (Upholds.ite (.ite h.closeBundle.setCore h.closeBundle) h.ctOp).next
  | interruptEntry => exact h.interruptEntry.next
  | kpuMbox => exact h.mboxWrite.next
  | kpuFaultClear | kpuDivRequest | kpuGateRequest | dispCancel | dispHistclr | geomForce | xptNgainWrite | xptCeillimWrite |
    xptFmuteSet | xptFmuteClear | xptHoldClear | timeSet | xosuspectClear | memTrainStart | memFspreqGo | stormClear | forceact |
    logStart | logCtrlClear | pwrDarkEnter => exact h.queueWrite.next
  | houseMuteAssert => exact h.houseAssert.next
  | houseMuteRelease => exact h.houseRelease.next
  | identify | ping | time | read | write | modify | snapshot | stageBegin | stageData | stageEnd | stageFromReel | stageDiscard |
    stageStatus | cut | cutCancel | reelBegin | reelData | reelEnd | reelDelete | reelList | logRead | logInfo | logSpill |
    logClear | pairStatus | pairSwitchover | pairResync | setBegin | setData | setEnd | setChange | setQuery | genStart | genStop |
    fwBegin | fwData | fwEnd | fwSwitch | fwStatus | metaInject | memFsp | memRetrain | eccInject => exact h.ccpCommand.next
  | reelCopyDone => exact h.copyDone.next
  | stageCheckResume => exact h.checkResume.next
  | stageCheckDone => exact h.checkDone.next
  | fwReady => exact h.fwReady.next
  | fwFallback => exact h.fwFallback.next
  | hostCmdtailWrite => exact h.cmdTailWrite.next
  | hostRplheadWrite => exact h.rplHeadWrite.next
  | replyHoldRelease => exact h.replyRelease.next
  | readStat => exact h.readStat.next
  | writeCmd => exact h.writeCmdSpi.next
  | readRpl => exact h.readRpl.next
  | ackRpl => exact h.ackRpl.next
  | qspiUnknownInstruction => exact (Upholds.ite h.addCtr h).next
  | intstatClear => exact h.intstatClear.next
  | msixVectorUnmask => exact h.msixEntry.next
  | registerWrite => exact h.registerWrite.serveRing.next
  | pciePerst => exact h.pciePerst.next
  | streamPacketReceive => exact (h.whilePowered (fun _ h => h.streamPacket)).next
  | streamLegDown => exact h.streamLegDown.next
  | ompReceive => exact h.ompReceive.next
  | frameReceive => exact h.frameReceive.next
  | pauseExpire => exact (h.whilePowered (fun _ h => h.pauseExpire)).next
  | xoffRefresh => exact (h.whilePowered (fun _ h => h.fillControl)).next
  | macFrameEnd => exact (h.whilePowered (fun _ h => h.endFrame.takeNext)).next
  | linkStateChange => exact h.linkEvent.next
  | ptpSyncReceive => exact (h.whilePowered (fun _ h => h.ptpSync)).next
  | followUpReceive => exact (h.whilePowered (fun _ h => h.followUp)).next
  | servoTimeout => exact h.servoTimeout.next
  | fdiffReport => exact h.fdiffReport.next
  | pdelayReqReceive => exact (h.whilePowered (fun _ h => h.pdelayReq)).next
  | launchRequest => exact (h.whilePowered (fun _ h => h.launchRequest)).next
  | launchDue => exact (h.whilePowered (fun _ h => h.idleTake)).next
  | tsqRead => exact h.tsqRead.next
  | measurementWindow => exact h.measurementWindow.next
  | refStop => exact h.refFail.next
  | rateMismatch => exact h.rateMismatch.next
  | spliceStepMeasure => exact h.measureStep.next
  | fastlockStep => exact h.fastlockStep.next
  | dpllLock => exact (Upholds.ite h.dpllLock h).next
  | dpllLockLoss => exact (Upholds.ite h.dpllLockLoss h).next
  | xoInFault => exact (Upholds.ite h.enterClkFault h).next
  | rootPllUnlock => exact h.enterClkFault.next
  | tdmMaskRelease => exact h.tdmMaskRelease.next
  | tdmZeroxTimeout => exact h.tdmZeroxTimeout.next
  | decSettled => exact h.decSettled.next
  | pdmLoadStrobe => exact (Upholds.ite h.pdmStrobe h).next
  | pdmClearAssert => exact h.pdmClearAssert.next
  | pdmClearRelease => exact h.pdmClearRelease.next
  | dramRequest => exact (h.whilePowered (fun _ h => h.dramRequest)).next
  | agePromotion => exact (h.whilePowered (fun _ h => h.agePromotion)).next
  | dramRequestComplete => exact (h.whilePowered (fun _ h => h.dramComplete)).next
  | refresh => exact (h.whilePowered (fun _ h => h.dramRefresh)).next
  | wckDqOscillatorRead => exact (h.whilePowered (fun _ h => h.oscRead)).next
  | mr4Poll => exact (h.whilePowered (fun _ h => h.mr4Poll)).next
  | rowHammerRefresh => exact (h.whilePowered (fun _ h => h.rhRefresh)).next
  | rowHammerTableClear => exact (h.whilePowered (fun _ h => h.keep)).next
  | powerDownEntry => exact (h.whilePowered (fun _ h => h.powerDown)).next
  | selfRefreshEntry => exact (h.whilePowered (fun _ h => h.selfRefresh)).next
  | memTrainingDone => exact h.trainingDone.next
  | memFspChangeDone => exact h.fspDone.next
  | fabricRequest => exact .ite h.next (.ite h.keep.next h.fabAsk.next)
  | burstGrant => exact (h.keep.foldl fun _ _ h => h.endBurst).grant.wakeStalled.next
  | masterReset => exact h.masterReset.next
  | fabDrainEvent => exact h.drainEnd.next
  | eccStormWindow => exact (Upholds.ite h.keep.logEv.raise h.keep).next
  | scrub =>
    have hs : Upholds 2 s₀ ((List.range 9).foldl Machine.scrubOne s) := h.foldl fun _ _ h => h.scrubOne
    exact .ite h.next (Upholds.ite hs.keep.raise hs).next
  | clapSend => exact (h.whilePowered (fun _ h => h.clapSend)).next
  | networkClapperSend => exact (h.whilePowered (fun _ h => h.netClapSend)).next
  | clapperReceive => exact (h.whilePowered (fun _ h => .ite h.netClapper (h.onLink (fun _ _ h => h.clapperReceive)))).next
  | pairLinkClapLoss | networkClapLoss => exact (h.whilePowered (fun _ h => .ite h.pathLost h)).next
  | pairLinkSync => exact h.linkSync.next
  | evidenceWindowExpire => exact (h.whilePowered (fun _ h => h.evidence)).next
  | digestReceive => exact (h.whilePowered (fun _ h => h.onLink (fun _ _ h => h.digestReceive))).next
  | switchReceive => exact (h.whilePowered (fun _ h => h.onLink (fun _ _ h => h.switchReceive))).next
  | xferReceive => exact (h.whilePowered (fun _ h => h.onLink (fun _ _ h => h.xferReceive))).next
  | alignReceive => exact (h.whilePowered (fun _ h => h.onLink (fun _ _ h => h.alignReceive))).next
  | resyncTimeout => exact (h.whilePowered (fun _ h => by split; exacts [h.rsFail, h.rsFail, h.rsFail, h.rsFail, h])).next
  | setreadyReceive => exact (h.whilePowered (fun _ h => h.onLink (fun _ _ h => h.setReadyReceive))).next
  | setschedReceive => exact (h.whilePowered (fun _ h => h.onLink (fun _ _ h => h.setSchedReceive))).next
  | beaconSend => exact h.beaconSend.next
  | beaconReceive => exact (h.whilePowered (fun _ h => h.beaconReceive)).next
  | peerExpire => exact h.peerExpire.next
  | logRdseqSelect => exact h.rdSelect.next
  | hoursTick => exact h.keep.next
  | powerOnReset | brownout => exact h.deviceReset.next
  | resetN => exact h.releaseReset.next
  | pwrGoodRise => exact h.pwrGoodRise.next
  | sequenceTimeout => exact h.sequenceTimeout.next
  | sysBootgo => exact (Upholds.ite h.uartBoot h.setPwr.queueWrite).next
  | ckeyWrite => exact h.pendNow.next
  | railUndervoltage => exact h.railUndervoltage.next
  | wdtKick => exact h.wdtWrite.next
  | wdtExpire => exact h.wdtExpire.next
  | thermalSample => exact h.thermalSample.next
  | thermalTrip => exact h.thermalTrip.next
  | thermalShutdown => exact h.thermalShutdown.next
  | hostWake => exact h.wakeStart.next
  | pmbusTransaction => exact h.pmbWrite.next
  | pmbusDone => exact h.pmbusDone.next
  | pmbAlert => exact h.raise.logEv.next
  | referenceGlitch => exact h.referenceGlitch.next
  | launchLatewinExpire => exact (h.whilePowered (fun _ h => h.expireLate)).next
  | registerRead => exact h.registerRead.next
  | hostCauseenWrite => exact h.writeNow.next
  | netrefclkLoss => exact (Upholds.ite h.setPwr (h.setPwr.foldl fun _ _ h => h.linkEvent).linkSync).next

/-- A step: an idle one changes nothing, and a command acts on the state with the rest of the queue. -/
theorem step_upholds {s t : State} (ht : step s = .next t) : Upholds 2 s t := by
  unfold step at ht
  split at ht
  · exact (Upholds.refl s).next t ht
  · exact (Upholds.refl s).keep.exec _ t ht

/-- Settles O59: what a step upholds, of the queues. -/
theorem everyStepKeepsQueuesBounded : Obligations.EveryStepKeepsQueuesBounded := by
  unfold Obligations.EveryStepKeepsQueuesBounded
  intro s t hs ht
  obtain ⟨hframe, hfw, hsnap, hspi⟩ := hs
  have h := step_upholds ht
  exact ⟨h.frameQ hframe, h.fwQ hfw, h.snaps hsnap, h.spiIn hspi⟩

end Sys2Proof.Machine
end

section
/-! SUPPORT. Fields of byte strings: what a slice of a concatenation is, field by field. -/

namespace Sys2Proof.Machine

open Sys2Proof

@[simp] theorem length_beBytes (n v : Nat) : (beBytes n v).length = n := by
  induction n with
  | zero => rfl
  | succ n ih => rw [beBytes, List.length_cons, ih]

@[simp] theorem length_zeroBytes (n : Nat) : (zeroBytes n).length = n := List.length_replicate

/-- The digits of a string after those of a number already read. -/
theorem foldl_beVal (b : Bytes) (a : Nat) :
    b.foldl (fun a x => a * 256 + x.toNat) a = a * 256 ^ b.length + beVal b := by
  induction b generalizing a with
  | nil => simp [beVal]
  | cons x t ih =>
    rw [beVal, List.foldl_cons, List.foldl_cons, ih, ih, List.length_cons, pow_succ]
    ring

/-- A field reads as the number it was written from. -/
theorem beVal_beBytes {n v : Nat} (h : v < 256 ^ n) : beVal (beBytes n v) = v := by
  suffices ∀ v, beVal (beBytes n v) = v % 256 ^ n by rw [this, Nat.mod_eq_of_lt h]
  clear h
  intro v
  induction n with
  | zero => rw [pow_zero, Nat.mod_one]; rfl
  | succ n ih =>
    rw [beBytes, beVal, List.foldl_cons, foldl_beVal, ih, length_beBytes, Nat.mod_pow_succ, BitVec.toNat_ofNat]
    ring

theorem beVal_zeroBytes (n : Nat) : beVal (zeroBytes n) = 0 := by
  induction n with
  | zero => rfl
  | succ n ih => simpa [zeroBytes, beVal, List.replicate_succ] using ih

theorem sliceB_append {b : Bytes} {o : Nat} (h : b.length ≤ o) (t : Bytes) (n : Nat) :
    sliceB (b ++ t) o n = sliceB t (o - b.length) n := by
  rw [sliceB, sliceB, List.drop_append, List.drop_eq_nil_of_le h, List.nil_append]

theorem beAt_append {b : Bytes} {o : Nat} (h : b.length ≤ o) (t : Bytes) (n : Nat) : beAt (b ++ t) o n = beAt t (o - b.length) n :=
  congrArg beVal (sliceB_append h t n)

theorem sliceB_first (b t : Bytes) : sliceB (b ++ t) 0 b.length = b := by
  rw [sliceB, List.drop_zero, List.take_left]

/-! A field and what follows it: the offset of the next field counts from there. -/

theorem beAt_skip {k o : Nat} (h : k ≤ o) (v : Nat) (t : Bytes) (n : Nat) : beAt (beBytes k v ++ t) o n = beAt t (o - k) n := by
  rw [beAt_append (by rwa [length_beBytes]), length_beBytes]

theorem beAt_skip_zeros {k o : Nat} (h : k ≤ o) (t : Bytes) (n : Nat) : beAt (zeroBytes k ++ t) o n = beAt t (o - k) n := by
  rw [beAt_append (by rwa [length_zeroBytes]), length_zeroBytes]

theorem drop_skip {k o : Nat} (h : k ≤ o) (v : Nat) (t : Bytes) : (beBytes k v ++ t).drop o = t.drop (o - k) := by
  rw [List.drop_append, List.drop_eq_nil_of_le (by rwa [length_beBytes]), List.nil_append, length_beBytes]

theorem drop_skip_zeros {k o : Nat} (h : k ≤ o) (t : Bytes) : (zeroBytes k ++ t).drop o = t.drop (o - k) := by
  rw [List.drop_append, List.drop_eq_nil_of_le (by rwa [length_zeroBytes]), List.nil_append, length_zeroBytes]

theorem beAt_field {n v : Nat} (h : v < 256 ^ n) (t : Bytes) : beAt (beBytes n v ++ t) 0 n = v := by
  have := sliceB_first (beBytes n v) t
  rw [length_beBytes] at this
  rw [beAt, this, beVal_beBytes h]

theorem beAt_zeros (n : Nat) (t : Bytes) : beAt (zeroBytes n ++ t) 0 n = 0 := by
  have := sliceB_first (zeroBytes n) t
  rw [length_zeroBytes] at this
  rw [beAt, this, beVal_zeroBytes]

/-- The last field of a string. -/
theorem beAt_lastField {n v : Nat} (h : v < 256 ^ n) : beAt (beBytes n v) 0 n = v := by
  simpa using beAt_field h []

theorem beAt_lastZeros (n : Nat) : beAt (zeroBytes n) 0 n = 0 := by simpa using beAt_zeros n []

end Sys2Proof.Machine
end

section
/-! PROOF. O17: a command packet and its parameters. -/

namespace Sys2Proof.Machine

open Sys2Proof

/-! Records of one length, one after another. -/

theorem length_flatMap_const {α : Type} {f : α → Bytes} {w : Nat} (hf : ∀ a, (f a).length = w) (l : List α) :
    (l.flatMap f).length = w * l.length := by
  induction l with
  | nil => rfl
  | cons a l ih => rw [List.flatMap_cons, List.length_append, hf, ih, List.length_cons, Nat.mul_succ, Nat.add_comm]

/-- A field of a record is that field of its element. -/
theorem beAt_flatMap {α : Type} {f : α → Bytes} {w : Nat} (hf : ∀ a, (f a).length = w) (l : List α) {i : Nat} (hi : i < l.length)
    {o n : Nat} (hon : o + n ≤ w) : beAt (l.flatMap f) (w * i + o) n = beAt (f l[i]) o n := by
  induction l generalizing i with
  | nil => simp at hi
  | cons a l ih =>
    cases i with
    | zero =>
      have ho : o ≤ (f a).length := by rw [hf]; omega
      rw [List.flatMap_cons, Nat.mul_zero, Nat.zero_add, beAt, sliceB, List.drop_append_of_le_length ho,
        List.take_append_of_le_length (by rw [List.length_drop, hf]; omega)]
      rfl
    | succ i =>
      rw [List.flatMap_cons, beAt_append (by rw [hf, Nat.mul_succ]; omega), hf,
        show w * (i + 1) + o - w = w * i + o by rw [Nat.mul_succ]; omega, ih]
      rfl

theorem parseParams_cut (m x t0 t1 : Nat) (g : Bytes) (h : ccpFits (.cut m x t0 t1 g)) :
    parseParams 0x0401 (paramBytes (.cut m x t0 t1 g)) = .ok (.cut m x t0 t1 g) := by
  simp [ccpFits] at h
  obtain ⟨hm, hx, ht0, ht1, hg⟩ := h
  have hd : (g ++ zeroBytes 16).take 16 = g := by rw [← hg, List.take_left]
  have hs : sliceB (paramBytes (.cut m x t0 t1 g)) 16 16 = g := by
    rw [sliceB, List.take_of_length_le (by simp [paramBytes])]
    simp [paramBytes, hd, drop_skip, drop_skip_zeros]
  simp only [parseParams, hs]
  simp [fixedLen, paramBytes, hd, hg, beAt_skip, beAt_skip_zeros, beAt_field, beAt_zeros, hm, hx, ht0, ht1]

theorem parseParams_write (a : Nat) (l : List Nat) (h : ccpFits (.write a l)) :
    parseParams 0x0202 (paramBytes (.write a l)) = .ok (.write a l) := by
  simp [ccpFits] at h
  obtain ⟨ha, hl, hv⟩ := h
  have hlen : ∀ v, (beBytes 4 v).length = 4 := length_beBytes 4
  have hn : beAt (paramBytes (.write a l)) 4 2 = l.length := by simp [paramBytes, beAt_skip, beAt_field, hl]
  have hwords : ((List.range l.length).map fun i => beAt (paramBytes (.write a l)) (8 + 4 * i) 4) = l := by
    refine List.ext_getElem (by simp) fun i _ hi => ?_
    rw [List.getElem_map, List.getElem_range, paramBytes, beAt_append (by simp)]
    have hword := beAt_flatMap hlen l hi (o := 0) (n := 4) (by omega)
    simp only [Nat.add_zero] at hword
    simpa [hword] using beAt_lastField (n := 4) (hv _ (List.getElem_mem hi))
  simp only [parseParams, hn, hwords]
  simp [fixedLen, paramBytes, beAt_skip, beAt_field, beAt_zeros, ha, length_flatMap_const hlen]
  rw [if_neg (by omega), if_pos (by omega)]

/-- One range of a SNAPSHOT. -/
def rangeBytes (r : Nat × Nat) : Bytes := beBytes 4 r.1 ++ beBytes 2 r.2 ++ zeroBytes 2

theorem length_rangeBytes (r : Nat × Nat) : (rangeBytes r).length = 8 := by simp [rangeBytes]

theorem parseParams_snapshot (f : Nat) (l : List (Nat × Nat)) (h : ccpFits (.snapshot f l)) :
    parseParams 0x0210 (paramBytes (.snapshot f l)) = .ok (.snapshot f l) := by
  simp [ccpFits] at h
  obtain ⟨hf, hl, hr⟩ := h
  have hb : paramBytes (.snapshot f l) = (beBytes 8 f ++ beBytes 2 l.length ++ zeroBytes 2) ++ l.flatMap rangeBytes := rfl
  have hfield : ∀ {i : Nat} (hi : i < l.length) {o n : Nat}, o + n ≤ 8 →
      beAt (paramBytes (.snapshot f l)) (12 + (8 * i + o)) n = beAt (rangeBytes l[i]) o n := by
    intro i hi o n hon
    rw [hb, beAt_append (by simp), ← beAt_flatMap length_rangeBytes l hi hon]
    simp
  have hranges : ((List.range l.length).map fun i =>
      (beAt (paramBytes (.snapshot f l)) (12 + 8 * i) 4, beAt (paramBytes (.snapshot f l)) (16 + 8 * i) 2)) = l := by
    refine List.ext_getElem (by simp) fun i _ hi => ?_
    obtain ⟨hofs, hcount⟩ : l[i].1 < 4294967296 ∧ l[i].2 < 65536 := hr _ _ (List.getElem_mem hi)
    rw [List.getElem_map, List.getElem_range, show 16 + 8 * i = 12 + (8 * i + 4) by omega, hfield hi (by omega),
      ← Nat.add_zero (8 * i), hfield hi (by omega)]
    simp [rangeBytes, beAt_skip, beAt_field, hofs, hcount]
  have hrsv : ∀ i, i < l.length → beAt (paramBytes (.snapshot f l)) (18 + 8 * i) 2 = 0 := by
    intro i hi
    rw [show 18 + 8 * i = 12 + (8 * i + 6) by omega, hfield hi (by omega)]
    simp [rangeBytes, beAt_skip, beAt_lastZeros]
  have hn : beAt (paramBytes (.snapshot f l)) 8 2 = l.length := by simp [hb, beAt_skip, beAt_field, hl]
  have hz : beAt (paramBytes (.snapshot f l)) 10 2 = 0 := by simp [hb, beAt_skip, beAt_zeros]
  have hframe : beAt (paramBytes (.snapshot f l)) 0 8 = f := by simp [hb, beAt_field, hf]
  have hlen : (paramBytes (.snapshot f l)).length = 12 + 8 * l.length := by
    simp [hb, length_flatMap_const length_rangeBytes]; omega
  simp only [parseParams, hn, hranges, hframe, fixedLen, hlen]
  rw [if_neg (by omega), if_neg (by simp), if_neg]
  simpa [hz] using hrsv

theorem parseParams_paramBytes (op : CcpOp) (h : ccpFits op) : parseParams (opcodeOf op) (paramBytes op) = .ok op := by
  cases op
  case cut m x t0 t1 g => exact parseParams_cut m x t0 t1 g h
  case write a l => exact parseParams_write a l h
  case snapshot f l => exact parseParams_snapshot f l h
  all_goals
    simp [ccpFits] at h
    simp [opcodeOf, parseParams, paramBytes, fixedLen, minLen, beAt_skip, beAt_skip_zeros, beAt_field, beAt_zeros, beAt_lastField,
      beAt_lastZeros, drop_skip, drop_skip_zeros, h]
  case reelData => omega

theorem crcByte_lt {p c : Nat} (b : Byte) (hp : p < 2 ^ 32) (hc : c < 2 ^ 32) : crcByte p c b < 2 ^ 32 := by
  have hbit : ∀ {c}, c < 2 ^ 32 → crcBit p c < 2 ^ 32 := by
    intro c hc
    unfold crcBit
    split
    · exact Nat.xor_lt_two_pow (by omega) hp
    · omega
  have hfirst : c ^^^ b.toNat < 2 ^ 32 := Nat.xor_lt_two_pow hc (by have := b.isLt; omega)
  exact hbit (hbit (hbit (hbit (hbit (hbit (hbit (hbit hfirst)))))))

/-- The CRC fills its four bytes (R244). -/
theorem crc32c_lt (b : Bytes) : crc32c b < 2 ^ 32 :=
  Nat.xor_lt_two_pow (foldl_invariant (· < 2 ^ 32) _ (fun _ x h => crcByte_lt x (by decide) h) b _ (by decide)) (by decide)

/-- The payload of a command packet (R244). -/
def payloadOf (h : CcpHdr) (op : CcpOp) : Bytes := (if bit h.flags 1 then beBytes 8 h.f else []) ++ paramBytes op

/-- The authentication block of a command packet (R244). -/
def authBlock (h : CcpHdr) : Bytes := if bit h.flags 2 then beBytes 4 h.keyId ++ (h.tag ++ zeroBytes 16).take 16 else []

/-- A command packet as the engine takes it apart. -/
def sentPacket (h : CcpHdr) (op : CcpOp) : CcpPkt :=
  { version := h.version, flags := h.flags, opcode := opcodeOf op, status := h.status, seq := h.seq, payload := payloadOf h op,
    body := ccpHeader h.version h.flags (opcodeOf op) h.status h.seq (payloadOf h op).length ++ payloadOf h op,
    auth := if bit h.flags 2 then some (h.keyId, h.tag) else none }

theorem length_ccpHeader (v f o st q n : Nat) : (ccpHeader v f o st q n).length = 16 := by simp [ccpHeader]

theorem opcodeOf_lt (op : CcpOp) : opcodeOf op < 65536 := by cases op <;> simp [opcodeOf]

theorem length_authBlock {h : CcpHdr} (htag : bit h.flags 2 = true → h.tag.length = 16) :
    (authBlock h).length = if bit h.flags 2 then 20 else 0 := by
  unfold authBlock
  split
  next hon => simp [htag hon]
  next => rfl

theorem length_commandPacket {h : CcpHdr} (htag : bit h.flags 2 = true → h.tag.length = 16) (op : CcpOp) :
    (commandPacket h op).length = 20 + (payloadOf h op).length + if bit h.flags 2 then 20 else 0 := by
  show (withCrc (ccpHeader _ _ _ _ _ _ ++ payloadOf h op ++ authBlock h)).length = _
  simp only [withCrc, List.length_append, length_ccpHeader, length_authBlock htag, length_beBytes]
  omega

/-- The fields of a header (R243), whatever follows it. -/
theorem ccpHeader_fields {v f o st q n : Nat} (hv : v < 256) (hf : f < 256) (ho : o < 65536) (hst : st < 65536) (hq : q < 2 ^ 32)
    (hn : n < 2 ^ 32) (t : Bytes) :
    let b := ccpHeader v f o st q n ++ t
    beAt b 0 2 = 0x434E ∧ beAt b 2 1 = v ∧ beAt b 3 1 = f ∧ beAt b 4 2 = o ∧ beAt b 6 2 = st ∧ beAt b 8 4 = q ∧ beAt b 12 4 = n := by
  simp at hq hn
  simp [ccpHeader, beAt_skip, beAt_field, hv, hf, ho, hst, hq, hn]

/-- A packet closed by its CRC passes the test of the CRC (R244). -/
theorem withCrc_closed (b : Bytes) :
    crc32c ((withCrc b).take ((withCrc b).length - 4)) = beAt (withCrc b) ((withCrc b).length - 4) 4 := by
  have hlen : (withCrc b).length - 4 = b.length := by simp [withCrc]
  rw [hlen, withCrc, List.take_left, beAt_append le_rfl, Nat.sub_self, beAt_lastField (crc32c_lt b)]

/-- Step 1 of R246 on a command packet: it passes, and every field is as it was sent. -/
theorem parsePacket_commandPacket {h : CcpHdr} (op : CcpOp) (hv : h.version < 256) (hf : h.flags < 256) (hst : h.status < 65536)
    (hq : h.seq < 2 ^ 32) (hk : bit h.flags 2 = true → h.keyId < 2 ^ 32) (htag : bit h.flags 2 = true → h.tag.length = 16)
    (hp : (payloadOf h op).length ≤ 16384) :
    parsePacket (commandPacket h op) = some (sentPacket h op) := by
  set n := (payloadOf h op).length with hn
  have hlen := length_commandPacket htag op
  have hclosed : crc32c ((commandPacket h op).take ((commandPacket h op).length - 4)) =
      beAt (commandPacket h op) ((commandPacket h op).length - 4) 4 := withCrc_closed _
  set header := ccpHeader h.version h.flags (opcodeOf op) h.status h.seq n with hheader
  have hhead : header.length = 16 := length_ccpHeader ..
  obtain ⟨crc, hb⟩ : ∃ crc, commandPacket h op = header ++ (payloadOf h op ++ (authBlock h ++ crc)) :=
    ⟨_, by simp only [← List.append_assoc]; rfl⟩
  obtain ⟨hmagic, hversion, hflags, hopcode, hstatus, hseq, hplen⟩ :=
    ccpHeader_fields (n := n) hv hf (opcodeOf_lt op) hst hq (by omega) (payloadOf h op ++ (authBlock h ++ crc))
  rw [← hheader, ← hb] at hmagic hversion hflags hopcode hstatus hseq hplen
  have hpayload : sliceB (commandPacket h op) 16 n = payloadOf h op := by
    rw [hb, sliceB_append hhead.le, hhead, Nat.sub_self, hn, sliceB_first]
  have hbody : (commandPacket h op).take (16 + n) = header ++ payloadOf h op := by
    rw [hb, ← List.append_assoc, ← hhead, hn, ← List.length_append, List.take_left]
  have hauth : bit h.flags 2 = true →
      beAt (commandPacket h op) (16 + n) 4 = h.keyId ∧ sliceB (commandPacket h op) (20 + n) 16 = h.tag := by
    intro hon
    replace hk := hk hon
    replace htag := htag hon
    have hblock : authBlock h ++ crc = beBytes 4 h.keyId ++ (h.tag ++ crc) := by
      rw [authBlock, if_pos hon, ← htag, List.take_left, List.append_assoc]
    have hfirst : (header ++ payloadOf h op).length = 16 + n := by rw [List.length_append, hhead]
    rw [hb, ← List.append_assoc, hblock, beAt_append (by omega), sliceB_append (by omega), hfirst, Nat.sub_self, beAt_field hk,
      show 20 + n - (16 + n) = 4 by omega, sliceB_append (by simp), length_beBytes, Nat.sub_self, ← htag, sliceB_first]
    exact ⟨rfl, rfl⟩
  rw [parsePacket, hmagic, hversion, hflags, hopcode, hstatus, hseq, hplen, hpayload, hbody, if_neg]
  · unfold sentPacket
    split
    · obtain ⟨hkey, htag⟩ := hauth ‹_›
      rw [hkey, htag]
    · rfl
  · rw [packetLen, hplen, hflags, hclosed, hlen]
    simp
    omega

/-- Settles O17: the parameters by their fields, the packet by its parts. -/
theorem commandPacketRoundTrip : Obligations.CommandPacketRoundTrip := by
  unfold Obligations.CommandPacketRoundTrip
  intro h op hv hf hst hq _ hk htag hfits at_ auth payload hp
  exact ⟨parseParams_paramBytes op hfits, _, parsePacket_commandPacket op hv hf hst hq (fun _ => hk) (fun _ => htag) hp, rfl, rfl,
    rfl, rfl, rfl, rfl, rfl, length_commandPacket (fun _ => htag) op⟩

end Sys2Proof.Machine
end

section
/-! PROOF. O1: a step runs the command at the front, and every command completes. -/

namespace Sys2Proof.Machine

open Sys2Proof

/-- A choice between two answers that complete completes. -/
theorem ite_completes {c : Prop} [Decidable c] {a b : Host.Outcome State Fault Refusal} (ha : ∃ t, a = .next t)
    (hb : ∃ t, b = .next t) : ∃ t, (if c then a else b) = .next t := by split; exacts [ha, hb]

/-- Every command answers a next state: its meaning is a function of the state, or a choice between such. -/
theorem exec_completes (c : Instr) (s : State) : ∃ t, exec c s = .next t := by
  cases c
  case fabricRequest => exact ite_completes ⟨_, rfl⟩ (ite_completes ⟨_, rfl⟩ ⟨_, rfl⟩)
  case scrub => exact ite_completes ⟨_, rfl⟩ ⟨_, rfl⟩
  all_goals exact ⟨_, rfl⟩

/-- Settles O1: the front by definition, completion command by command. -/
theorem stepRunsFront : Obligations.StepRunsFront := by
  unfold Obligations.StepRunsFront
  exact ⟨fun _ _ _ => rfl, fun s h => by rw [step, h], exec_completes⟩

end Sys2Proof.Machine
end

section
/-! PROOF. O20: the commands the engine executes itself, each by its branches (R248, R259, R260). -/

namespace Sys2Proof.Machine

open Sys2Proof

theorem queueFrame_full {s : State} {f : Nat} (h : s.tl.frame < f) (hfull : 256 ≤ s.ccp.frameQ.length) (c : Change) (ctx : Ctx) :
    queueFrame s f c ctx = reply s ctx .queueFull [] := (if_neg (Nat.not_le.2 h)).trans (if_pos hfull)

theorem modifyCmd_waits {s : State} {a : Nat} (h : atOnce a = false) (m v : Nat) (ctx : Ctx) :
    modifyCmd s none a m v ctx = reply (pendAs s ctx.arr (.modify a m v)) ctx .ok [] := by
  simp only [modifyCmd, h, Bool.false_eq_true, if_false]

theorem modifyCmd_atOnce {s : State} {a : Nat} (h : atOnce a = true) (m v : Nat) (ctx : Ctx) :
    modifyCmd s none a m v ctx = reply (writeNow s a (modifyValue s a m v)) ctx .ok [] := by
  simp only [modifyCmd, h, if_true]

/-- With AT a WRITE or a MODIFY is a change that names its frame (R248). -/
theorem hwExec_at {a m v : Nat} {l : List Nat} {op : CcpOp} {c : Change}
    (h : op = .write a l ∧ c = .write a l false ∨ op = .modify a m v ∧ c = .modify a m v) (s : State) (f : Nat) (ctx : Ctx) :
    hwExec s (some f) op ctx = queueFrame s f c ctx := by
  obtain ⟨rfl, rfl⟩ | ⟨rfl, rfl⟩ := h <;> rfl

theorem snapshotCmd_past {s : State} {f : Nat} (hf : f ≠ 0) (h : f ≤ s.tl.frame) (rs : List (Nat × Nat)) (ctx : Ctx) :
    snapshotCmd s f rs ctx = reply s ctx .framePast [] := if_pos ⟨hf, h⟩

/-- A frame that has not begun, or none. -/
theorem not_begun {s : State} {f : Nat} (h : f = 0 ∨ s.tl.frame < f) : ¬ (f ≠ 0 ∧ f ≤ s.tl.frame) := by omega

theorem snapshotCmd_full {s : State} {f : Nat} (h : f = 0 ∨ s.tl.frame < f) (hfull : 8 ≤ s.ccp.snaps.length)
    (rs : List (Nat × Nat)) (ctx : Ctx) : snapshotCmd s f rs ctx = reply s ctx .queueFull [] :=
  (if_neg (not_begun h)).trans (if_pos hfull)

theorem snapshotCmd_room {s : State} {f : Nat} (h : f = 0 ∨ s.tl.frame < f) (hroom : s.ccp.snaps.length < 8)
    (rs : List (Nat × Nat)) (ctx : Ctx) : snapshotCmd s f rs ctx =
      { s with ccp := { s.ccp with snaps := s.ccp.snaps ++ [{ frame := f, ranges := rs, ctx := ctx }] } } :=
  (if_neg (not_begun h)).trans (if_neg (Nat.not_le.2 hroom))

/-- Settles O20: each command by its own branches. -/
theorem engineCommands : Obligations.EngineCommands := by
  unfold Obligations.EngineCommands
  intro s ctx a n m v f l rs
  refine ⟨rfl, rfl, fun h => modifyCmd_waits h m v ctx, fun h => modifyCmd_atOnce h m v ctx, fun op c hc => ?_,
    fun hf h => snapshotCmd_past hf h rs ctx, fun h hfull => snapshotCmd_full h hfull rs ctx,
    fun h hroom => snapshotCmd_room h hroom rs ctx⟩
  rw [hwExec_at hc]
  exact ⟨fun h => queueFrame_past h c ctx, fun h hfull => queueFrame_full h hfull c ctx,
    fun h hroom => queueFrame_room h hroom c ctx⟩

end Sys2Proof.Machine
end

section
/-! PROOF. O21: the commands that only ask, each outside a resynchronisation (R261, R482). -/

namespace Sys2Proof.Machine

open Sys2Proof

theorem beBytes_zero (n : Nat) : beBytes n 0 = zeroBytes n := by
  induction n with
  | zero => rfl
  | succ n ih => rw [beBytes, ih, Nat.zero_div]; rfl

/-- A spill file without records is all zeros (R485). -/
theorem logSpillBytes_empty {s : State} (h : s.log.spill = []) : logSpillBytes s = beBytes 512 0 := by
  rw [logSpillBytes, h, List.flatMap_nil, List.nil_append, beBytes_zero]
  exact List.take_of_length_le (by rw [zeroBytes, List.length_replicate])

/-- Records from a, counted from the oldest one, lie at the head or beyond it (R482). -/
theorem logReadCmd_range {s : State} {a : Nat}
    (h : (s.log.head + 2 ^ 32 - s.log.first) % 2 ^ 32 ≤ (a + 2 ^ 32 - s.log.first) % 2 ^ 32) (n : Nat) (ctx : Ctx) :
    logReadCmd s a n ctx = reply s ctx .logRange [] := if_pos h

/-- A record without damage is fetched as it stands, and the fetch reports nothing. -/
theorem logFetch_sound {s : State} {a : Nat} {r : LogRec} (hinj : s.fab.inj = []) (hr : findRec s.log a = some r)
    (hbad : r.bad = false) : logFetch s a = (some r, s) := by
  simp only [logFetch, hr, eccRead_none _ _ _ _ _ hinj, hbad, Bool.or_self, Bool.false_eq_true, if_false, ite_self]

theorem logRecords_one {s : State} {a : Nat} {r : LogRec} (ha : a ≠ s.log.head) (hf : logFetch s a = (some r, s)) :
    logRecords 1 a s = ([recBytes r], s) := by
  simp only [logRecords, if_neg ha, hf]

theorem logReadCmd_one {s : State} {a : Nat} {r : LogRec}
    (h : (a + 2 ^ 32 - s.log.first) % 2 ^ 32 < (s.log.head + 2 ^ 32 - s.log.first) % 2 ^ 32) (hf : logFetch s a = (some r, s)) (ctx : Ctx) :
    logReadCmd s a 1 ctx = reply s ctx .ok (beBytes 4 s.log.head ++ beBytes 4 1 ++ recBytes r ++ beBytes 4 s.log.head) := by
  have ha : a ≠ s.log.head := by rintro rfl; exact lt_irrefl _ h
  rw [logReadCmd, if_neg (Nat.not_le.2 h), logRecords_one ha hf]
  simp

/-- Settles O21: each question by what its reply lists. -/
theorem queryReplies : Obligations.QueryReplies := by
  unfold Obligations.QueryReplies
  intro s ctx d b free w reg l
  have asks : ∀ (op : CcpOp) {t : State}, _ = t → fwExec s op ctx = t := fun op _ h => (if_neg (not_heldBack free op)).trans h
  refine ⟨asks _ rfl, asks _ rfl, asks _ rfl, asks _ rfl, asks _ rfl, asks _ rfl, fun hspill => asks _ ?spill, asks _ rfl, asks _ rfl,
    asks _ rfl, fun a n h => asks _ (logReadCmd_range h n ctx),
    fun a r h hinj hr hbad => asks _ (logReadCmd_one h (logFetch_sound hinj hr hbad) ctx)⟩
  case spill => exact congrArg (reply s ctx .ok) (logSpillBytes_empty hspill)

end Sys2Proof.Machine
end

section
/-! PROOF. O19: the steps of R246 that a packet may fail, each with what it answers. -/

namespace Sys2Proof.Machine

open Sys2Proof

theorem takePacket_unparsed {b : Bytes} (h : parsePacket b = none) (s : State) (x : Sess) (port mac : Nat) :
    takePacket s x port mac b = badPacket s := by
  rw [takePacket, h]

theorem takePacket_parsed {b : Bytes} {p : CcpPkt} (h : parsePacket b = some p) (s : State) (x : Sess) (port mac : Nat) :
    takePacket s x port mac b = takePkt s x port mac p := by
  rw [takePacket, h]

theorem takePkt_unauthorised {s : State} {x : Sess} {p : CcpPkt} (h : authOk s x p = false) (port mac : Nat) :
    takePkt s x port mac p = authDrop s x := by
  rw [takePkt, h]; rfl

theorem authDrop_local {x : Sess} (h : isUdp x = false) (s : State) : authDrop s x = raise (addCtr s Reg.HOST_AUTHFAIL 1) 21 4 := by
  cases x with
  | pcie => rfl
  | qspi => rfl
  | udp ip src => cases h

/-- A command over UDP that passes step 2 ends a run of authentication failures (R258). -/
def authorised (s : State) (x : Sess) : State := if isUdp x then { s with ccp := { s.ccp with authRun := false } } else s

/-- The context of a packet that passed step 2 (R247). -/
def packetCtx (s : State) (x : Sess) (port mac : Nat) (p : CcpPkt) : Ctx :=
  { sess := x, nport := port, mac := mac, seq := p.seq, opcode := p.opcode, auth := p.auth.map (·.1), arr := s.ccp.arrivals }

theorem authorised_arrivals (s : State) (x : Sess) : (authorised s x).ccp.arrivals = s.ccp.arrivals := by
  cases x <;> rfl

/-- What step 3 lets through goes on to the checks, and arrives after all before it (R30). -/
theorem takePkt_authorised {s t : State} {x : Sess} {p : CcpPkt} {port mac : Nat} {new : Bool} (h : authOk s x p = true)
    (hseq : sequenceRule (authorised s x) (packetCtx s x port mac p) = (new, t)) : takePkt s x port mac p =
      if new then takeCommand { t with ccp := { t.ccp with arrivals := t.ccp.arrivals + 1 } } (packetCtx s x port mac p) p else t := by
  rw [packetCtx, ← authorised_arrivals s x] at hseq ⊢
  rw [takePkt, h, Bool.not_true, if_neg Bool.false_ne_true]
  rw [show (if isUdp x then { s with ccp := { s.ccp with authRun := false } } else s) = authorised s x from rfl]
  simp only [hseq]
  cases new <;> rfl

theorem takePkt_not_new {s t : State} {x : Sess} {p : CcpPkt} {port mac : Nat} (h : authOk s x p = true)
    (hseq : sequenceRule (authorised s x) (packetCtx s x port mac p) = (false, t)) : takePkt s x port mac p = t :=
  takePkt_authorised h hseq

theorem takePkt_new {s t : State} {x : Sess} {p : CcpPkt} {port mac : Nat} (h : authOk s x p = true)
    (hseq : sequenceRule (authorised s x) (packetCtx s x port mac p) = (true, t)) : takePkt s x port mac p =
      takeCommand { t with ccp := { t.ccp with arrivals := t.ccp.arrivals + 1 } } (packetCtx s x port mac p) p :=
  takePkt_authorised h hseq

/-- A command whose execution has not been replied to (R246). -/
theorem sequenceRule_unreplied {s : State} {ctx : Ctx} {v : Session} (hv : sessionOf s ctx.sess = some v)
    (h : v.last.find? (·.1 == ctx.seq) = some (ctx.seq, false)) : sequenceRule s ctx = (false, putSession s v) := by
  simp only [sequenceRule, hv, Option.getD_some, h, Bool.not_false, if_true]

/-- The last command replied to (R246). -/
theorem sequenceRule_retry {s : State} {ctx : Ctx} {v : Session} {c : Bytes} (hv : sessionOf s ctx.sess = some v)
    (hlast : v.last.head? = some (ctx.seq, true)) (hc : v.cached = some c) :
    sequenceRule s ctx = (false, placeReply (addCtr (putSession s v) Reg.HOST_RETRY 1) ctx c) := by
  obtain ⟨t, ht⟩ := List.head?_eq_some_iff.1 hlast
  simp [sequenceRule, hv, ht, hc]

/-- An earlier one of the last eight (R246). -/
theorem sequenceRule_duplicate {s : State} {ctx : Ctx} {v : Session} (hv : sessionOf s ctx.sess = some v)
    (h : v.last.find? (·.1 == ctx.seq) = some (ctx.seq, true)) (hnot : v.last.head?.map (·.1) ≠ some ctx.seq) :
    sequenceRule s ctx = (false, placeReply (addCtr (putSession s v) Reg.HOST_DUP 1) ctx
      (replyPacket (putSession s v) ctx Status.duplicate.code [])) := by
  simp only [sequenceRule, hv, Option.getD_some, h, Bool.not_true, Bool.false_eq_true, if_false, if_neg hnot]

/-- A packet of the current version that carries a command without flags (R243). -/
structure PlainPkt (p : CcpPkt) : Prop where
  version : p.version = 1
  flags : p.flags = 0
  status : p.status = 0

theorem takeCommand_badVersion {p : CcpPkt} (h : p.version ≠ 1) (s : State) (ctx : Ctx) :
    takeCommand s ctx p = reply (addCtr s Reg.HOST_CMDS 1) ctx .badVersion [] := if_pos h

theorem takeCommand_badFlags {p : CcpPkt} (hv : p.version = 1)
    (h : bit p.flags 0 = true ∨ 8 ≤ p.flags ∨ p.status ≠ 0 ∨ (bit p.flags 1 = true ∧ p.opcode ≠ 0x0202 ∧ p.opcode ≠ 0x0203))
    (s : State) (ctx : Ctx) : takeCommand s ctx p = reply (addCtr s Reg.HOST_CMDS 1) ctx .badFlags [] := by
  refine (if_neg (not_not.2 hv)).trans (if_pos ?_)
  obtain h | h | h | ⟨hat, h2, h3⟩ := h
  · simp only [h, Bool.true_or]
  · have : p.flags / 8 ≠ 0 := by omega
    simp only [bne_iff_ne.2 this, Bool.or_true, Bool.true_or]
  · simp only [bne_iff_ne.2 h, Bool.or_true, Bool.true_or]
  · simp [hat, atOpcode, h2, h3]

/-- Without flags the whole payload is parameters. -/
theorem takeCommand_plain_rejected {p : CcpPkt} (hp : PlainPkt p) {s : State} {ctx : Ctx} {e : Status}
    (h : checkCommand (addCtr s Reg.HOST_CMDS 1) ctx none p.payload = .error e) :
    takeCommand s ctx p = reply (addCtr s Reg.HOST_CMDS 1) ctx e [] := by
  obtain ⟨hv, hf, hs⟩ := hp
  have hbit : ∀ i, bit 0 i = false := by simp [bit]
  simp [takeCommand, hv, hf, hs, hbit, h]

/-- With AT the payload begins with the frame (R243). -/
theorem takeCommand_at_rejected {p : CcpPkt} (hv : p.version = 1) (hf : p.flags = 2) (hs : p.status = 0) (hop : p.opcode = 0x0203)
    (hlen : 8 ≤ p.payload.length) {s : State} {ctx : Ctx} {e : Status}
    (h : checkCommand (addCtr s Reg.HOST_CMDS 1) ctx (some (beAt p.payload 0 8)) (p.payload.drop 8) = .error e) :
    takeCommand s ctx p = reply (addCtr s Reg.HOST_CMDS 1) ctx e [] := by
  have h0 : bit 2 0 = false := rfl
  have h1 : bit 2 1 = true := rfl
  simp [takeCommand, hv, hf, hs, hop, h0, h1, atOpcode, Nat.not_lt.2 hlen, h]

/-- The block with the metadata of META_INJECT complete as its packet arrives (R288). -/
def metaTaken (s : State) (op : CcpOp) : State := match op with | .metaInject d => metaInject s d | _ => s

/-- A command waits for firmware (R249). -/
def waitsForFw (s : State) (ctx : Ctx) (op : CcpOp) : State :=
  let q := metaTaken s op
  { q with ccp := { q.ccp with fwQ := q.ccp.fwQ ++ [(ctx, none, op)] } }

/-- Step 10 of R246 for a command that passes steps 4 to 9. -/
theorem takeCommand_plain_passed {p : CcpPkt} (hp : PlainPkt p) {s : State} {ctx : Ctx} {op : CcpOp}
    (h : checkCommand (addCtr s Reg.HOST_CMDS 1) ctx none p.payload = .ok op) :
    let r := addCtr s Reg.HOST_CMDS 1
    takeCommand s ctx p =
      if hwOpcode p.opcode then hwExec r none op ctx
      else if r.fw.restarting then reply r ctx .fwRestarting []
      else if 32 ≤ r.ccp.fwQ.length then reply r ctx .queueFull []
      else waitsForFw r ctx op := by
  obtain ⟨hv, hf, hs⟩ := hp
  have hbit : ∀ i, bit 0 i = false := by simp [bit]
  simp only [takeCommand, hv, hf, hs, hbit, h, ne_eq, not_true, if_false, Nat.zero_div, bne_self_eq_false, Bool.or_self,
    Bool.false_and, Bool.false_eq_true, ge_iff_le]
  rfl

theorem takeCommand_plain_engine {p : CcpPkt} (hp : PlainPkt p) {s : State} {ctx : Ctx} {op : CcpOp}
    (h : checkCommand (addCtr s Reg.HOST_CMDS 1) ctx none p.payload = .ok op) (hop : hwOpcode p.opcode = true) :
    takeCommand s ctx p = hwExec (addCtr s Reg.HOST_CMDS 1) none op ctx :=
  (takeCommand_plain_passed hp h).trans (if_pos hop)

/-- What step 10 does with a command for firmware (R250). -/
theorem takeCommand_plain_firmware {p : CcpPkt} (hp : PlainPkt p) {s : State} {ctx : Ctx} {op : CcpOp}
    (h : checkCommand (addCtr s Reg.HOST_CMDS 1) ctx none p.payload = .ok op) (hop : hwOpcode p.opcode = false) :
    let r := addCtr s Reg.HOST_CMDS 1
    (s.fw.restarting = true → takeCommand s ctx p = reply r ctx .fwRestarting []) ∧
    (s.fw.restarting = false → 32 ≤ s.ccp.fwQ.length → takeCommand s ctx p = reply r ctx .queueFull []) ∧
    (s.fw.restarting = false → s.ccp.fwQ.length < 32 → takeCommand s ctx p = waitsForFw r ctx op) := by
  rw [takeCommand_plain_passed hp h, hop]
  simp +contextual [Nat.not_le.2]

theorem checkCommand_unparsed {s : State} {ctx : Ctx} {b : Bytes} {e : Status} (h : parseParams ctx.opcode b = .error e)
    (f : Option Nat) : checkCommand s ctx f b = .error e := by
  rw [checkCommand, h]

theorem checkCommand_badParam {s : State} {ctx : Ctx} {b : Bytes} {op : CcpOp} (h : parseParams ctx.opcode b = .ok op)
    (hp : paramsOk s op = false) (f : Option Nat) : checkCommand s ctx f b = .error .badParam := by
  simp only [checkCommand, h, hp, Bool.not_false, if_true]

theorem checkCommand_framePast {s : State} {ctx : Ctx} {b : Bytes} {op : CcpOp} {f : Nat} (h : parseParams ctx.opcode b = .ok op)
    (hp : paramsOk s op = true) (hr : replyFits s ctx op = true) (hf : f ≤ s.tl.frame) :
    checkCommand s ctx (some f) b = .error .framePast := by
  simp only [checkCommand, h, hp, hr, Bool.not_true, Bool.false_eq_true, if_false, if_pos hf]

theorem parseParams_unknown {code : Nat} (h : code = 0 ∨ code = 0x0204 ∨ 0x0A20 < code) (b : Bytes) :
    parseParams code b = .error .badOpcode := by
  unfold parseParams
  split
  case h_44 => rfl
  all_goals omega

theorem parseParams_read_badLength {b : Bytes} (h : b.length ≠ 8) : parseParams 0x0201 b = .error .badLength := if_pos h

theorem parseParams_read {b : Bytes} (h : b.length = 8) (h0 : beAt b 6 2 = 0) :
    parseParams 0x0201 b = .ok (.read (beAt b 0 4) (beAt b 4 2)) := by
  simp [parseParams, fixedLen, h, h0]

theorem parseParams_modify {b : Bytes} (h : b.length = 12) :
    parseParams 0x0203 b = .ok (.modify (beAt b 0 4) (beAt b 4 4) (beAt b 8 4)) := by
  simp [parseParams, fixedLen, h]

theorem parseParams_stageData_badLength {b : Bytes} (h : (b.length - 4) % 16 ≠ 0) :
    parseParams 0x0302 b = .error .badLength := if_pos h

/-- READ outside its range (R259). -/
theorem paramsOk_read_false {a n : Nat} (h : a % 4 ≠ 0 ∨ n = 0 ∨ 4096 < n) (s : State) : paramsOk s (.read a n) = false := by
  simp only [paramsOk, rangeOk, Bool.and_eq_false_iff, beq_eq_false_iff_ne, decide_eq_false_iff_not]
  omega

/-- The mask and the value of a MODIFY may be any (R259). -/
theorem paramsOk_modify (s : State) (a m v : Nat) : paramsOk s (.modify a m v) = paramsOk s (.modify a 0 0) := rfl

theorem replyFits_local {ctx : Ctx} (h : isUdp ctx.sess = false) (s : State) (op : CcpOp) : replyFits s ctx op = true := by
  rw [replyFits, h]; rfl

theorem addCtr_frame (s : State) (a n : Nat) : (addCtr s a n).tl.frame = s.tl.frame := by
  simp

/-- Steps 1 to 3 of R246. -/
theorem takePacket_checks (s : State) (x : Sess) (port mac : Nat) (b : Bytes) :
    let taken := takePacket s x port mac b
    let unsigned_ := raise (addCtr s Reg.HOST_AUTHFAIL 1) 21 4
    (parsePacket b = none → taken = raise (addCtr s Reg.HOST_BADCRC 1) 21 3) ∧
    (∀ q, parsePacket b = some q → authOk s x q = false →
      (isUdp x = false → taken = unsigned_) ∧
      (∀ ip src, x = .udp ip src →
        let d := logRun unsigned_ 0x1501 [(4, (ip : Int)), (2, (src : Int))] 0 (!unsigned_.ccp.authRun)
        taken = { d with ccp := { d.ccp with authRun := true } })) ∧
    (∀ q v, parsePacket b = some q → authOk s x q = true →
      let r := authorised s x
      let ctx := packetCtx s x port mac q
      let kept := putSession r v
      sessionOf r x = some v →
      (v.last.find? (·.1 == q.seq) = some (q.seq, false) → taken = kept) ∧
      (∀ c, v.last.head? = some (q.seq, true) → v.cached = some c → taken = placeReply (addCtr kept Reg.HOST_RETRY 1) ctx c) ∧
      (v.last.find? (·.1 == q.seq) = some (q.seq, true) → v.last.head?.map (·.1) ≠ some q.seq →
        taken = placeReply (addCtr kept Reg.HOST_DUP 1) ctx (replyPacket kept ctx Status.duplicate.code []))) := by
  refine ⟨fun h => takePacket_unparsed h s x port mac, fun q hq hauth => ?dropped, fun q v hq hauth => ?repeated⟩
  case dropped =>
    rw [takePacket_parsed hq, takePkt_unauthorised hauth]
    exact ⟨fun hx => authDrop_local hx s, by rintro ip src rfl; rfl⟩
  case repeated =>
    intro r ctx kept hv
    rw [takePacket_parsed hq]
    exact ⟨fun h => takePkt_not_new hauth (sequenceRule_unreplied hv h),
      fun c hlast hc => takePkt_not_new hauth (sequenceRule_retry hv hlast hc),
      fun h hnot => takePkt_not_new hauth (sequenceRule_duplicate hv h hnot)⟩

/-- Settles O19: steps 1 to 3 packet by packet, then the checks of a new command one by one. -/
theorem commandChecks : Obligations.CommandChecks := by
  unfold Obligations.CommandChecks
  refine ⟨takePacket_checks, fun s ctx p hop => ?_⟩
  have rejects {e : Status} : PlainPkt p → checkCommand (addCtr s Reg.HOST_CMDS 1) ctx none p.payload = .error e →
      takeCommand s ctx p = reply (addCtr s Reg.HOST_CMDS 1) ctx e [] := fun hp => takeCommand_plain_rejected hp
  have plain : p.version = 1 ∧ p.flags = 0 ∧ p.status = 0 → PlainPkt p := fun ⟨hv, hf, hs⟩ => ⟨hv, hf, hs⟩
  refine ⟨fun h => takeCommand_badVersion h s ctx, fun hv h => takeCommand_badFlags hv h s ctx, ?opcode, ?readLength, ?stageLength,
    ?readParam, ?past, ?firmware⟩
  case opcode =>
    intro hp h
    exact rejects (plain hp) (checkCommand_unparsed (parseParams_unknown (hop ▸ h) _) none)
  case readLength =>
    intro hp h hlen
    exact rejects (plain hp) (checkCommand_unparsed ((hop ▸ h : ctx.opcode = _) ▸ parseParams_read_badLength hlen) none)
  case stageLength =>
    intro hp h hlen
    exact rejects (plain hp) (checkCommand_unparsed ((hop ▸ h : ctx.opcode = _) ▸ parseParams_stageData_badLength hlen) none)
  case readParam =>
    intro hp h hlen h0 hbad
    have hparse := parseParams_read hlen h0
    rw [← h, hop] at hparse
    exact rejects (plain hp) (checkCommand_badParam hparse (paramsOk_read_false hbad _) none)
  case past =>
    intro hv hf hs h hlen a hp hx hpast
    have hdrop : (p.payload.drop 8).length = 12 := by rw [List.length_drop, hlen]
    have hparse := parseParams_modify hdrop
    rw [← h, hop] at hparse
    exact takeCommand_at_rejected hv hf hs h (by omega) (checkCommand_framePast hparse ((paramsOk_modify _ a _ _).trans hp)
      (replyFits_local hx _ _) ((addCtr_frame s _ _).symm ▸ hpast))
  case firmware =>
    intro op hp hok hhw
    exact takeCommand_plain_firmware (plain hp) hok hhw

end Sys2Proof.Machine
end

section
/-! PROOF. O38: the rings, the quad-SPI port, MSI-X and PERST#, each operation by its branches (R251, R253 to R255, R265, R539). -/

namespace Sys2Proof.Machine

open Sys2Proof

theorem powered_of_pcieUp {s : State} (h : pcieUp s = true) : powered s = true := by
  simp only [pcieUp, Bool.and_eq_true] at h
  exact h.1.1

theorem perst_of_pcieUp {s : State} (h : pcieUp s = true) : s.ccp.perst = false := by
  simp only [pcieUp, Bool.and_eq_true, Bool.not_eq_true'] at h
  exact h.2

/-- The block with bytes of the host in the command ring, from the tail on (R253). -/
def ringStored (s : State) (data : Bytes) : State :=
  { s with ccp := { s.ccp with bar2 := ringStore s.ccp.bar2 0 (getR s Reg.HOST_CMDTAIL) (data.take 65536) } }

theorem writeNow_cmdTail (s : State) (v : Nat) : writeNow s Reg.HOST_CMDTAIL v = ringTail s v := if_pos rfl

theorem writeNow_rplHead (s : State) (v : Nat) : writeNow s Reg.HOST_RPLHEAD v = ringHead s v := (if_neg (by decide)).trans (if_pos rfl)

theorem cmdTailWrite_up {s : State} (up : pcieUp s = true) (data : Bytes) (v : Nat) :
    cmdTailWrite s data v = serveRing (ringTail (ringStored s data) v) := by
  simp only [cmdTailWrite, up, Bool.not_true, Bool.false_eq_true, if_false, writeNow_cmdTail, ringStored]

theorem ringTail_unaligned {v : Nat} (h : v % 16 ≠ 0) (s : State) : ringTail s v = raise s 21 2 := if_pos (.inl h)

theorem ringTail_room {s : State} {v : Nat} (h16 : v % 16 = 0) (hv : v < 65536)
    (hroom : (v + 65536 - getR s Reg.HOST_CMDHEAD) % 65536 ≤ 65520) : ringTail s v = setR s Reg.HOST_CMDTAIL v := by
  rw [ringTail, Nat.mod_eq_of_lt hv, if_neg (by omega)]

theorem rplHeadWrite_up {s : State} (up : pcieUp s = true) (v : Nat) : rplHeadWrite s v = ringHead s v := by
  simp only [rplHeadWrite, up, Bool.not_true, Bool.false_eq_true, if_false, writeNow_rplHead]

/-- A head that is a multiple of 16 within the ring counts as it stands (R253). -/
theorem ringHead_aligned {v : Nat} (hv : v < 65536) (h16 : v % 16 = 0) (s : State) :
    ringHead s v =
      if (v + 65536 - getR s Reg.HOST_RPLHEAD) % 65536 > (getR s Reg.HOST_RPLTAIL + 65536 - getR s Reg.HOST_RPLHEAD) % 65536 then
        raise s 21 2
      else setR s Reg.HOST_RPLHEAD v := by
  rw [ringHead, Nat.mod_eq_of_lt hv, show v / 16 * 16 = v by omega]

/-- The block with a reply in the reply ring, padded to 16 bytes (R253). -/
def ringPlaced (s : State) (b : Bytes) : State :=
  let tail := getR s Reg.HOST_RPLTAIL
  raise (setR { s with ccp := { s.ccp with bar2 := ringStore s.ccp.bar2 0x10000 tail (padTo 16 b) } } Reg.HOST_RPLTAIL
    ((tail + (padTo 16 b).length) % 65536)) 21 0

theorem ringPlace_room {s : State} {b : Bytes}
    (h : (padTo 16 b).length ≤ ringFree (getR s Reg.HOST_RPLHEAD) (getR s Reg.HOST_RPLTAIL)) :
    ringPlace s b = (true, ringPlaced s b) := if_neg (Nat.not_lt.2 h)

theorem ringPlace_full {s : State} {b : Bytes}
    (h : ringFree (getR s Reg.HOST_RPLHEAD) (getR s Reg.HOST_RPLTAIL) < (padTo 16 b).length) : ringPlace s b = (false, s) := if_pos h

theorem replyRelease_powered {s : State} (h : powered s = true) : replyRelease s = serveRing (placeHeld s.ccp.ringHeld.length s) := by
  simp only [replyRelease, h, Bool.not_true, Bool.false_eq_true, if_false]

/-- The one reply that waits goes out. -/
theorem placeHeld_one {s : State} {b : Bytes} (hb : s.ccp.ringHeld = [b])
    (h : (padTo 16 b).length ≤ ringFree (getR s Reg.HOST_RPLHEAD) (getR s Reg.HOST_RPLTAIL)) :
    placeHeld 1 s = { ringPlaced s b with ccp := { (ringPlaced s b).ccp with ringHeld := [] } } := by
  simp only [placeHeld, hb, ringPlace_room h]

/-- A reply that finds no room keeps all of them waiting. -/
theorem placeHeld_full {s : State} {b : Bytes} {t : List Bytes} (hb : s.ccp.ringHeld = b :: t)
    (h : ringFree (getR s Reg.HOST_RPLHEAD) (getR s Reg.HOST_RPLTAIL) < (padTo 16 b).length) (n : Nat) : placeHeld n s = s := by
  cases n with
  | zero => rfl
  | succ n => simp only [placeHeld, hb, ringPlace_full h]

/-- While a reply waits for ring space the engine takes no packet (R253). -/
theorem serveRing_held {s : State} (h : s.ccp.ringHeld ≠ []) : serveRing s = s := if_pos (.inl h)

/-- The status word counts the oldest reply, 0 without one (R254). -/
theorem spiStatus_eq (s : State) : spiStatus s =
    ((s.ccp.spiOut.head?.map (·.length)).getD 0) * 65536 + b2n (irqAsserted s) * 8 + b2n s.ccp.spiOvf * 4 +
      b2n (decide (s.ccp.spiOut ≠ [])) * 2 + b2n (decide (s.ccp.spiIn.length < 2)) := by
  unfold spiStatus
  cases s.ccp.spiOut <;> simp

theorem readStat_powered {s : State} (h : powered s = true) :
    readStat s = { s with rdata := beBytes 4 (spiStatus s), ccp := { s.ccp with spiOvf := false } } := by
  rw [readStat, h]; rfl

theorem writeCmdSpi_full {s : State} (h : powered s = true) (hfull : 2 ≤ s.ccp.spiIn.length) (b : Bytes) :
    writeCmdSpi s b = raise (addCtr { s with ccp := { s.ccp with spiOvf := true } } Reg.HOST_SPIOVF 1) 21 6 := by
  simp only [writeCmdSpi, h, Bool.not_true, Bool.false_eq_true, if_false, ge_iff_le, if_pos hfull]

theorem writeCmdSpi_room {s : State} (h : powered s = true) (hroom : s.ccp.spiIn.length < 2) (b : Bytes) :
    writeCmdSpi s b = serveRing (serveSpi { s with ccp := { s.ccp with spiIn := s.ccp.spiIn ++ [b] } }) := by
  simp only [writeCmdSpi, h, Bool.not_true, Bool.false_eq_true, if_false, ge_iff_le, if_neg (Nat.not_le.2 hroom)]

/-- A reply queue without room for the largest reply holds back the packets of the quad-SPI buffer (R255). -/
theorem drainSpi_heldBack {s : State} (h : s.ccp.spiHeld ≠ [] ∨ 65536 < (s.ccp.spiOut.map (·.length)).sum + 16424) (n : Nat) :
    drainSpi n s = s := by
  cases n with
  | zero => rfl
  | succ n =>
    unfold drainSpi
    split
    · rfl
    · exact if_pos h

theorem readRpl_powered {s : State} (h : powered s = true) : readRpl s = { s with rdata := s.ccp.spiOut.headD [] } := by
  rw [readRpl, h]; rfl

theorem ackRpl_powered {s : State} (h : powered s = true) : ackRpl s = serveSpi (serveRing (s.ccp.spiHeld.foldl spiPlace
    { s with ccp := { s.ccp with spiOut := s.ccp.spiOut.drop 1, spiHeld := [] } })) := by
  simp only [ackRpl, h, Bool.not_true, Bool.false_eq_true, if_false]

theorem sendVector_masked {s : State} {n : Nat} (hp : s.ccp.perst = false) (h : bit s.ccp.msixMask n = true) :
    sendVector s n = { s with ccp := { s.ccp with msixPend := s.ccp.msixPend ||| 2 ^ n } } := by
  simp only [sendVector, hp, h, Bool.false_eq_true, if_false, if_true]

theorem sendVector_unmasked {s : State} {n : Nat} (hp : s.ccp.perst = false) (h : bit s.ccp.msixMask n = false) :
    sendVector s n = { s with ccp := { s.ccp with msixSent := Sparse.putN s.ccp.msixSent n (Sparse.getN s.ccp.msixSent n + 1),
                                                  msixLast := (Sparse.getN s.ccp.msixAddr n, Sparse.getN s.ccp.msixData n) } } := by
  simp only [sendVector, hp, h, Bool.false_eq_true, if_false]

theorem getN_putN_same (m : Sparse Nat) (k v : Nat) : Sparse.getN (Sparse.putN m k v) k = v := Sparse.get_put_same _ m k v

theorem bit_andNot_same (m n : Nat) : bit (andNot m (2 ^ n)) n = false := by
  rw [bit, testBit_andNot, Nat.testBit_two_pow_self, Bool.not_true, Bool.and_false]

/-- The MSI-X table with a message in entry n (R251). -/
def msixFilled (c : CcpSt) (n addr data : Nat) : CcpSt :=
  { c with msixAddr := Sparse.putN c.msixAddr n (addr % 2 ^ 64 / 4 * 4), msixData := Sparse.putN c.msixData n (data % 2 ^ 32) }

/-- The table with vector n unmasked, and nothing pending there. -/
def msixOpened (c : CcpSt) (n : Nat) : CcpSt :=
  { c with msixMask := andNot c.msixMask (2 ^ n), msixPend := andNot c.msixPend (2 ^ n) }

theorem msixEntry_masked {s : State} {n : Nat} (hn : n < 32) (up : pcieUp s = true) (addr data : Nat) :
    msixEntry s n addr data true =
      { s with ccp := { msixFilled s.ccp n addr data with msixMask := s.ccp.msixMask ||| 2 ^ n } } := by
  rw [msixEntry, if_neg (by simp [up, hn])]; rfl

/-- A vector that pends is sent as its entry is unmasked (R265). -/
theorem msixEntry_unmasked {s : State} {n : Nat} (hn : n < 32) (up : pcieUp s = true) (addr data : Nat) :
    let t := { s with ccp := msixOpened (msixFilled s.ccp n addr data) n }
    msixEntry s n addr data false = if bit s.ccp.msixPend n then sendVector t n else t := by
  rw [msixEntry, if_neg (by simp [up, hn])]; rfl

/-- Unmasking sends the message of the new entry. -/
theorem sendVector_opened {s : State} {n : Nat} (up : pcieUp s = true) (addr data : Nat) :
    let c := msixOpened (msixFilled s.ccp n addr data) n
    sendVector { s with ccp := c } n =
      { s with ccp := { c with msixSent := Sparse.putN s.ccp.msixSent n (Sparse.getN s.ccp.msixSent n + 1),
                               msixLast := (addr % 2 ^ 64 / 4 * 4, data % 2 ^ 32) } } := by
  intro c
  have haddr : Sparse.getN c.msixAddr n = addr % 2 ^ 64 / 4 * 4 := getN_putN_same _ _ _
  have hdata : Sparse.getN c.msixData n = data % 2 ^ 32 := getN_putN_same _ _ _
  have hoff : c.perst = false := perst_of_pcieUp up
  have hopen : bit c.msixMask n = false := bit_andNot_same s.ccp.msixMask n
  rw [← haddr, ← hdata]
  exact sendVector_unmasked (s := { s with ccp := c }) hoff hopen

theorem outcome_congr {s t : State} (h : s = t) : (.next s : Host.Outcome State Fault Refusal) = .next t := congrArg _ h

/-- Settles O38: the transports operation by operation, then the MSI-X table. -/
theorem hostTransportsAndMsix : Obligations.HostTransportsAndMsix := by
  unfold Obligations.HostTransportsAndMsix
  refine ⟨fun s data v up => ?transports, fun s n addr data low hn up => ?msix⟩
  case transports =>
    have on := powered_of_pcieUp up
    refine ⟨fun h => outcome_congr ((cmdTailWrite_up up data v).trans (congrArg serveRing (ringTail_unaligned h _))),
      fun h16 hv hroom => outcome_congr ((cmdTailWrite_up up data v).trans (congrArg serveRing (ringTail_room h16 hv hroom))),
      fun hv h16 h => outcome_congr (((rplHeadWrite_up up v).trans (ringHead_aligned hv h16 s)).trans (if_neg (Nat.not_lt.2 h))),
      fun hv h16 h => outcome_congr (((rplHeadWrite_up up v).trans (ringHead_aligned hv h16 s)).trans (if_pos h)),
      fun h => outcome_congr (by rw [replyRelease_powered on, h]; rfl),
      fun b hb h => outcome_congr (by rw [replyRelease_powered on, hb]; exact congrArg serveRing (placeHeld_one hb h)),
      fun b t hb h => outcome_congr ?held,
      outcome_congr (by rw [readStat_powered on, spiStatus_eq]),
      fun h => outcome_congr (writeCmdSpi_full on h data),
      fun h => outcome_congr (writeCmdSpi_room on h data),
      fun h => drainSpi_heldBack h.symm 2,
      outcome_congr (readRpl_powered on), outcome_congr (ackRpl_powered on), outcome_congr (if_pos on)⟩
    case held =>
      rw [replyRelease_powered on, placeHeld_full hb h]
      exact serveRing_held (hb ▸ List.cons_ne_nil b t)
  case msix =>
    have off := perst_of_pcieUp up
    have hn' : n < 32 := by omega
    refine ⟨sendVector_masked off, sendVector_unmasked off, outcome_congr (msixEntry_masked hn' up addr data),
      fun h => outcome_congr ((msixEntry_unmasked hn' up addr data).trans (if_neg (by simp [h]))),
      fun h => outcome_congr (((msixEntry_unmasked hn' up addr data).trans (if_pos h)).trans (sendVector_opened up addr data)), rfl⟩

end Sys2Proof.Machine
end

section
/-! PROOF. O18: a plain command over an idle transport. Its packet arrives (R253, R255, R256), steps 1 to 10 of R246 let it through,
and the engine or firmware executes it (R249, R250). -/

namespace Sys2Proof.Machine

open Sys2Proof

/-! The packet of a plain command. -/

theorem bit_zero (i : Nat) : bit 0 i = false := Nat.zero_testBit i

/-- Without flags there is no authentication block. -/
theorem not_auth {flags : Nat} (h : flags = 0) {P : Prop} (hon : bit flags 2 = true) : P := by
  rw [h, bit_zero] at hon
  cases hon

theorem payloadOf_plain {h : CcpHdr} (hp : PlainHdr h) (op : CcpOp) : payloadOf h op = paramBytes op := by
  obtain ⟨-, hflags, -, -⟩ := hp
  simp [payloadOf, hflags, bit_zero]

theorem sentPacket_plain {h : CcpHdr} (hp : PlainHdr h) (op : CcpOp) : PlainPkt (sentPacket h op) := by
  obtain ⟨hversion, hflags, hstatus, -⟩ := hp
  exact ⟨hversion, hflags, hstatus⟩

theorem sentPacket_auth {h : CcpHdr} (hp : PlainHdr h) (op : CcpOp) : (sentPacket h op).auth = none := by
  obtain ⟨-, hflags, -, -⟩ := hp
  simp [sentPacket, hflags, bit_zero]

theorem parsePacket_plain {h : CcpHdr} (hp : PlainHdr h) {op : CcpOp} (hlen : (paramBytes op).length ≤ 16384) :
    parsePacket (commandPacket h op) = some (sentPacket h op) := by
  have hpay := payloadOf_plain hp op
  obtain ⟨hversion, hflags, hstatus, hseq⟩ := hp
  exact parsePacket_commandPacket op (by omega) (by omega) (by omega) hseq (not_auth hflags) (not_auth hflags) (hpay ▸ hlen)

theorem length_commandPacket_plain {h : CcpHdr} (hp : PlainHdr h) (op : CcpOp) :
    (commandPacket h op).length = 20 + (paramBytes op).length := by
  have hpay := payloadOf_plain hp op
  obtain ⟨-, hflags, -, -⟩ := hp
  rw [length_commandPacket (not_auth hflags), hpay, hflags, bit_zero]
  rfl

/-- The first 16 bytes of a packet say how long it is (R244). -/
theorem packetLen_plain {h : CcpHdr} (hp : PlainHdr h) {op : CcpOp} (hlen : (paramBytes op).length ≤ 16384) :
    packetLen ((commandPacket h op).take 16) = (commandPacket h op).length := by
  have hpay := payloadOf_plain hp op
  have hwhole := length_commandPacket_plain hp op
  obtain ⟨hversion, hflags, hstatus, hseq⟩ := hp
  obtain ⟨-, -, hfl, -, -, -, hn⟩ := ccpHeader_fields (v := h.version) (f := h.flags) (st := h.status) (n := (payloadOf h op).length)
    (by omega) (by omega) (opcodeOf_lt op) (by omega) hseq (by rw [hpay]; omega) []
  have hhead : (commandPacket h op).take 16 =
      ccpHeader h.version h.flags (opcodeOf op) h.status h.seq (payloadOf h op).length ++ [] := by
    rw [List.append_nil]
    show (withCrc (ccpHeader _ _ _ _ _ _ ++ payloadOf h op ++ authBlock h)).take 16 = _
    rw [withCrc, List.append_assoc, List.append_assoc, ← length_ccpHeader, List.take_left]
    rfl
  rw [hhead, packetLen, hn, hfl, hwhole, hpay, hflags, bit_zero]
  rfl

/-! Steps 2 to 10 of R246. -/

/-- A new command is one more of its session, and changes nothing else. -/
theorem sequenceRule_new {s : State} {ctx : Ctx} (h : (sequenceRule s ctx).1 = true) : ∃ v, (sequenceRule s ctx).2 = putSession s v := by
  revert h
  unfold sequenceRule
  extract_lets v kept stale high
  split
  · split
    · exact nofun
    · split
      · split <;> exact nofun
      · exact nofun
  · split
    · exact nofun
    · exact fun _ => ⟨_, rfl⟩

/-- The block once steps 2 and 3 have let a command through: it arrives after all before it (R30). -/
def admitted (a : State) (h : CcpHdr) (op : CcpOp) : State :=
  let r := (sequenceRule (authorised a h.sess) (ctxOf a h op)).2
  { r with ccp := { r.ccp with arrivals := r.ccp.arrivals + 1 } }

theorem received_eq (a : State) (h : CcpHdr) (op : CcpOp) : received a h op = addCtr (admitted a h op) Reg.HOST_CMDS 1 := rfl

theorem CommandsKept.admitted {a : State} {h : CcpHdr} {op : CcpOp} (hnew : newCommand a h op) : CommandsKept a (admitted a h op) := by
  obtain ⟨v, hv⟩ := sequenceRule_new hnew
  have hauth : CommandsKept a (authorised a h.sess) := .ite (CommandsKept.refl a).keep (.refl a)
  have hput : CommandsKept a (sequenceRule (authorised a h.sess) (ctxOf a h op)).2 := by
    rw [authorised, hv]
    exact hauth.keep
  exact hput.keep

theorem CommandsKept.received {a : State} {h : CcpHdr} {op : CcpOp} (hnew : newCommand a h op) : CommandsKept a (received a h op) :=
  (CommandsKept.admitted hnew).addCtr

theorem CommandsKept.metaTaken {o s : State} {op : CcpOp} (h : CommandsKept o s) : CommandsKept o (metaTaken s op) := by
  unfold Machine.metaTaken; split; exacts [h.metaInject, h]

section

variable {a : State} {h : CcpHdr} {op : CcpOp} (hp : PlainHdr h) (hsecure : (isUdp h.sess && a.hw.secure) = false)
  (hnew : newCommand a h op)

include hp hsecure hnew

/-- Steps 2 and 3. -/
theorem takePkt_plain : takePkt a h.sess (ctxOf a h op).nport (ctxOf a h op).mac (sentPacket h op) =
    takeCommand (admitted a h op) (ctxOf a h op) (sentPacket h op) := by
  have hauth := sentPacket_auth hp op
  have hctx : packetCtx a h.sess (ctxOf a h op).nport (ctxOf a h op).mac (sentPacket h op) = ctxOf a h op := by
    rw [packetCtx, hauth]; rfl
  have hok : authOk a h.sess (sentPacket h op) = true := by rw [authOk, hauth, hsecure]; rfl
  have hseq : sequenceRule (authorised a h.sess) (packetCtx a h.sess (ctxOf a h op).nport (ctxOf a h op).mac (sentPacket h op)) =
      (true, (sequenceRule (authorised a h.sess) (ctxOf a h op)).2) := by
    rw [hctx]; exact Prod.ext hnew rfl
  rw [takePkt_new hok hseq, hctx]
  rfl

variable (hfits : ccpFits op) (hparams : paramsOk (received a h op) op = true)
  (hreply : replyFits (received a h op) (ctxOf a h op) op = true)

omit hsecure hnew in
include hfits hparams hreply in
/-- Steps 6 to 9. -/
theorem checkCommand_plain : checkCommand (received a h op) (ctxOf a h op) none (sentPacket h op).payload = .ok op := by
  have hparse : parseParams (ctxOf a h op).opcode (sentPacket h op).payload = .ok op := by
    rw [sentPacket, payloadOf_plain hp]; exact parseParams_paramBytes op hfits
  rw [checkCommand, hparse]
  simp only [hparams, hreply, Bool.not_true, Bool.false_eq_true, if_false]

include hfits hparams hreply

/-- An opcode of the engine is executed as it is taken (R250). -/
theorem takePkt_engine (hop : hwOpcode (opcodeOf op) = true) :
    takePkt a h.sess (ctxOf a h op).nport (ctxOf a h op).mac (sentPacket h op) = hwExec (received a h op) none op (ctxOf a h op) := by
  have hcheck := checkCommand_plain hp hfits hparams hreply
  rw [received_eq] at hcheck ⊢
  rw [takePkt_plain hp hsecure hnew, takeCommand_plain_engine (sentPacket_plain hp op) hcheck hop]

/-- Every other waits for firmware that is not restarting, in a queue with room (R250). -/
theorem takePkt_firmware (hop : hwOpcode (opcodeOf op) = false) (hfw : a.fw.restarting = false) (hq : a.ccp.fwQ = []) :
    takePkt a h.sess (ctxOf a h op).nport (ctxOf a h op).mac (sentPacket h op) = waitsForFw (received a h op) (ctxOf a h op) op := by
  have hkept := CommandsKept.admitted hnew
  have hrestart : (admitted a h op).fw.restarting = false := by rw [hkept.fw, hfw]
  have hroom : (admitted a h op).ccp.fwQ.length < 32 := by rw [hkept.fwQ, hq]; decide
  have hcheck := checkCommand_plain hp hfits hparams hreply
  rw [received_eq] at hcheck ⊢
  obtain ⟨-, -, queued⟩ := takeCommand_plain_firmware (sentPacket_plain hp op) hcheck hop
  rw [takePkt_plain hp hsecure hnew, queued hrestart hroom]

end

/-! The arrival of the packet (R253, R255, R256). -/

theorem length_padTo (b : Bytes) : (padTo 16 b).length = (b.length + 15) / 16 * 16 := by
  rw [padTo, List.length_append, length_zeroBytes]
  omega

/-- What the engine does once it has taken the packet: it goes on with its transport. -/
def takenFrom (x : Sess) (u : State) : State :=
  match x with
  | .pcie => drainRing 4095 u
  | .qspi => serveRing (drainSpi 1 u)
  | .udp _ _ => u

theorem drainRing_empty {s : State} (h : getR s Reg.HOST_CMDHEAD = getR s Reg.HOST_CMDTAIL) (n : Nat) : drainRing n s = s := by
  cases n with
  | zero => rfl
  | succ n => exact if_pos (.inr h)

theorem serveRing_pending {s : State} (hheld : s.ccp.ringHeld = []) (h : getR s Reg.HOST_CMDHEAD ≠ getR s Reg.HOST_CMDTAIL) :
    serveRing s = drainRing 4095 (ringTake s) := by
  rw [serveRing, drainRing, if_neg (not_or.2 ⟨not_not.2 hheld, h⟩)]

theorem drainSpi_empty {s : State} (h : s.ccp.spiIn = []) (n : Nat) : drainSpi n s = s := by
  cases n with
  | zero => rfl
  | succ n => simp only [drainSpi, h]

/-- The packet at the head of the command ring passes step 1 and is taken (R253). -/
theorem ringTake_packet {s : State} {b : Bytes} {p : CcpPkt} (hlen : packetLen (cmdBytes s (getR s Reg.HOST_CMDHEAD) 16) = b.length)
    (hfit : b.length ≤ (getR s Reg.HOST_CMDTAIL + 65536 - getR s Reg.HOST_CMDHEAD) % 65536)
    (hb : cmdBytes s (getR s Reg.HOST_CMDHEAD) b.length = b) (hp : parsePacket b = some p) :
    ringTake s = takePkt (cmdHead s (getR s Reg.HOST_CMDHEAD + (b.length + 15) / 16 * 16)) .pcie 0 0 p := by
  simp only [ringTake, hlen, if_pos hfit, hb, hp]

section

variable {s : State} {h : CcpHdr} {op : CcpOp} (hp : PlainHdr h) (hlen : (paramBytes op).length ≤ 16384)

/-- The command ring with the packet, up to the new tail. -/
def ringFilled (s : State) (b : Bytes) : State :=
  setR (ringStored s (padTo 16 b)) Reg.HOST_CMDTAIL ((getR s Reg.HOST_CMDTAIL + (padTo 16 b).length) % 65536)

theorem ringSend_idle (up : pcieUp s = true) (idle : TransportIdle s) {b : Bytes} (hb : b.length ≤ 65520) :
    ringSend s b = serveRing (ringFilled s b) := by
  obtain ⟨h16, hlt, hempty, -⟩ := idle
  have hpad := length_padTo b
  rw [ringSend, hempty, if_neg (by rw [ringFree]; omega), cmdTailWrite_up up, ringTail_room (by omega) (by omega), ringFilled]
  show (_ + 65536 - getR s Reg.HOST_CMDHEAD) % 65536 ≤ 65520
  omega

include hp hlen

/-- Over PCIe the engine finds the packet between head and tail. -/
theorem ringTake_command (idle : TransportIdle s) (hx : h.sess = .pcie) : ringTake (ringFilled s (commandPacket h op)) =
    takePkt (arrived s h op) .pcie 0 0 (sentPacket h op) := by
  obtain ⟨h16, hlt, hempty, -⟩ := idle
  set b := commandPacket h op with hb
  have hsize : b.length = 20 + (paramBytes op).length := length_commandPacket_plain hp op
  have hpad := length_padTo b
  have hhead : getR (ringFilled s b) Reg.HOST_CMDHEAD = getR s Reg.HOST_CMDTAIL :=
    (getR_setR_ne (ringStored s (padTo 16 b)) Reg.HOST_CMDTAIL _ Reg.HOST_CMDHEAD (by decide)).trans hempty
  have htail : getR (ringFilled s b) Reg.HOST_CMDTAIL = (getR s Reg.HOST_CMDTAIL + (padTo 16 b).length) % 65536 := by
    rw [ringFilled, getR_setR_same]
    omega
  have htake : (padTo 16 b).take 65536 = padTo 16 b := List.take_of_length_le (by omega)
  have hread : ∀ n ≤ b.length, cmdBytes (ringFilled s b) (getR (ringFilled s b) Reg.HOST_CMDHEAD) n = b.take n := by
    intro n hn
    rw [hhead]
    show cmdBytes (ringStored s (padTo 16 b)) _ n = _
    rw [ringStored, htake, cmdBytes_ringStore s _ _ n (by omega) (by omega), padTo, List.take_append_of_le_length hn]
  rw [ringTake_packet (b := b) (by rw [hread 16 (by omega)]; exact packetLen_plain hp hlen) (by rw [hhead, htail]; omega)
    (by rw [hread b.length le_rfl, List.take_length]) (parsePacket_plain hp hlen), hhead]
  simp only [arrived, hx, ringFilled, ringStored, htake, hpad, ← hb]

/-- Over each transport the engine takes the packet as it was sent. -/
theorem deliverPacket_command (up : sessUp s h.sess = true) (idle : TransportIdle s) :
    deliverPacket s h.sess h.nport h.mac (commandPacket h op) = takenFrom h.sess
      (takePkt (arrived s h op) h.sess (ctxOf (arrived s h op) h op).nport (ctxOf (arrived s h op) h op).mac (sentPacket h op)) := by
  have hparse := parsePacket_plain hp hlen
  have hsize := length_commandPacket_plain hp op
  have hidle := idle
  obtain ⟨h16, hlt, hempty, hheld, hspiIn, hspiHeld, hspiOut⟩ := hidle
  match hx : h.sess with
  | .pcie =>
    have hup : pcieUp s = true := by rwa [sessUp, if_pos hx] at up
    have hpad := length_padTo (commandPacket h op)
    have hne : getR (ringFilled s (commandPacket h op)) Reg.HOST_CMDHEAD ≠ getR (ringFilled s (commandPacket h op)) Reg.HOST_CMDTAIL := by
      rw [ringFilled, getR_setR_same, getR_setR_ne _ _ _ _ (by decide)]
      show getR s Reg.HOST_CMDHEAD ≠ _
      omega
    have hsend := ringSend_idle (b := commandPacket h op) hup idle (by omega)
    rw [deliverPacket, hsend, serveRing_pending (s := ringFilled s _) hheld hne, ringTake_command hp hlen idle hx]
    simp only [takenFrom, ctxOf, hx, isUdp, Bool.false_eq_true, if_false]
  | .qspi =>
    have hon : powered s = true := by rwa [sessUp, if_neg (by simp [hx])] at up
    have hroom : s.ccp.spiIn.length < 2 := by rw [hspiIn]; decide
    have hfirst : serveSpi { s with ccp := { s.ccp with spiIn := s.ccp.spiIn ++ [commandPacket h op] } } =
        drainSpi 1 (takePacket (raise s 21 1) .qspi 0 0 (commandPacket h op)) := by
      rw [serveSpi, drainSpi]
      simp only [hspiIn, List.nil_append]
      rw [if_neg (not_or.2 ⟨not_not.2 hspiHeld, Nat.not_lt.2 hspiOut⟩), ← hspiIn]
    rw [deliverPacket, writeCmdSpi_room hon hroom, hfirst, takePacket_parsed hparse]
    simp only [takenFrom, ctxOf, arrived, hx, isUdp, Bool.false_eq_true, if_false]
  | .udp ip port =>
    simp only [deliverPacket, takenFrom, takePacket_parsed hparse, ctxOf, arrived, hx, isUdp, if_true]

omit hp hlen

/-- What the packet's arrival leaves as it was. -/
theorem arrived_kept (idle : TransportIdle s) : (arrived s h op).hw = s.hw ∧ (arrived s h op).fw = s.fw ∧
    (arrived s h op).ccp.fwQ = s.ccp.fwQ ∧ (arrived s h op).ccp.spiIn = [] ∧
    getR (arrived s h op) Reg.HOST_CMDHEAD = getR (arrived s h op) Reg.HOST_CMDTAIL := by
  obtain ⟨-, -, hempty, -, hspiIn, -⟩ := idle
  match hx : h.sess with
  | .pcie =>
    simp only [arrived, hx, cmdHead]
    set stored := Machine.setR _ Reg.HOST_CMDTAIL _ with hstored
    have hkept := (CommandsKept.refl (setR stored Reg.HOST_CMDHEAD
      ((getR s Reg.HOST_CMDTAIL + (padTo 16 (commandPacket h op)).length) % 65536))).raise (n := 21) (b := 1)
    refine ⟨raise_hw _ _ _, hkept.fw, hkept.fwQ, hkept.spiIn.trans hspiIn, hkept.head.trans (.trans ?_ hkept.tail.symm)⟩
    rw [getR_setR_same, getR_setR_ne _ _ _ _ (by decide), hstored, getR_setR_same]
  | .qspi =>
    simp only [arrived, hx]
    have hkept := (CommandsKept.refl s).raise (n := 21) (b := 1)
    exact ⟨raise_hw _ _ _, hkept.fw, hkept.fwQ, hkept.spiIn.trans hspiIn, hkept.head.trans (hempty.trans hkept.tail.symm)⟩
  | .udp ip port =>
    simp only [arrived, hx]
    exact ⟨trivial, trivial, trivial, hspiIn, hempty⟩

end

/-! Execution (R249, R250). -/

/-- With an empty quad-SPI buffer the engine goes on with the command ring alone. -/
theorem takenFrom_noSpi {u : State} (h : u.ccp.spiIn = []) (x : Sess) : takenFrom x u = servedOn x u := by
  cases x with
  | pcie => rfl
  | qspi => simp only [takenFrom, servedOn, drainSpi_empty h]
  | udp ip port => rfl

/-- With nothing on its transports the engine rests. -/
theorem takenFrom_idle {u : State} (hspi : u.ccp.spiIn = []) (h : getR u Reg.HOST_CMDHEAD = getR u Reg.HOST_CMDTAIL) (x : Sess) :
    takenFrom x u = u := by
  cases x with
  | pcie => exact drainRing_empty h _
  | qspi => simp only [takenFrom, drainSpi_empty hspi, serveRing, drainRing_empty h]
  | udp ip port => rfl

/-- No command of the engine fills the quad-SPI buffer. -/
theorem hwExec_noSpi {s : State} (h : s.ccp.spiIn = []) (at_ : Option Nat) (op : CcpOp) (ctx : Ctx) :
    (hwExec s at_ op ctx).ccp.spiIn = [] := by
  have hupheld : Upholds 0 s (hwExec s at_ op ctx) := (Upholds.refl s).hwExec
  exact List.length_eq_zero_iff.1 (Nat.le_zero.1 (hupheld.spiIn (by rw [h]; exact le_rfl)))

/-- Firmware that is ready executes the one command that waits, and its run ends with it (R249). -/
theorem fwRun_one {u : State} {ctx : Ctx} {at_ : Option Nat} {op : CcpOp} (hready : u.fw.ready = true)
    (hq : u.ccp.fwQ = [(ctx, at_, op)]) (n : Nat) :
    fwRun ctx.sess ctx.seq ctx.opcode (n + 1) u = fwExec { u with ccp := { u.ccp with fwQ := [] } } op ctx := by
  simp [fwRun, hready, hq]

/-- The command that waits alone is the one firmware executes. -/
theorem fwRun_waitsForFw {r : State} {ctx : Ctx} {op : CcpOp} (hready : r.fw.ready = true) (hq : r.ccp.fwQ = []) (n : Nat) :
    fwRun ctx.sess ctx.seq ctx.opcode (n + 1) (waitsForFw r ctx op) = fwExec (metaTaken r op) op ctx := by
  have hkept : CommandsKept r (metaTaken r op) := (CommandsKept.refl r).metaTaken
  have hempty : (metaTaken r op).ccp.fwQ = [] := hkept.fwQ.trans hq
  rw [fwRun_one (at_ := none)]
  · show fwExec { metaTaken r op with ccp := { (metaTaken r op).ccp with fwQ := [] } } op ctx = _
    rw [← hempty]
  · exact (congrArg FwSt.ready hkept.fw).trans hready
  · show (metaTaken r op).ccp.fwQ ++ _ = _
    rw [hempty, List.nil_append]

/-- A command's row is the exchange of its packet. -/
theorem exec_commandOf (h : CcpHdr) (op : CcpOp) (s : State) : exec (commandOf h op) s = .next (ccpCommand h op s) := by
  cases op <;> rfl

theorem ccpCommand_up {s : State} {h : CcpHdr} (up : sessUp s h.sess = true) (hseq : h.seq < 2 ^ 32) (op : CcpOp) :
    ccpCommand h op s =
      serveRing (fwRun h.sess h.seq (opcodeOf op) 32 (deliverPacket s h.sess h.nport h.mac (commandPacket h op))) := by
  simp only [ccpCommand, up, Bool.not_true, Bool.false_eq_true, if_false, Nat.mod_eq_of_lt hseq]

/-- Settles O18: the arrival of the packet, steps 1 to 10, and the execution by the engine or by firmware. -/
theorem commandsReachTheirExecution : Obligations.CommandsReachTheirExecution := by
  unfold Obligations.CommandsReachTheirExecution
  intro s h op hp hfits hlen up idle hsecure hq a hnew r c hparams hreply
  obtain ⟨hhw, hfw, hfwQ, hspi, hring⟩ : a.hw = s.hw ∧ a.fw = s.fw ∧ a.ccp.fwQ = s.ccp.fwQ ∧ a.ccp.spiIn = [] ∧
      getR a Reg.HOST_CMDHEAD = getR a Reg.HOST_CMDTAIL := arrived_kept idle
  have hkept : CommandsKept a r := .received hnew
  have hseq : h.seq < 2 ^ 32 := by
    obtain ⟨-, -, -, hseq⟩ := hp
    exact hseq
  rw [exec_commandOf, ccpCommand_up up hseq, deliverPacket_command hp hlen up idle]
  rw [← hhw] at hsecure
  refine ⟨fun hop => ?engine, fun hop hready hrestart => ?firmware⟩
  case engine =>
    rw [takePkt_engine hp hsecure hnew hfits hparams hreply hop, takenFrom_noSpi (hwExec_noSpi (hkept.spiIn.trans hspi) _ _ _)]
  case firmware =>
    have hw : CommandsKept r (metaTaken r op) := (CommandsKept.refl r).metaTaken
    have hrest : getR (waitsForFw r c op) Reg.HOST_CMDHEAD = getR (waitsForFw r c op) Reg.HOST_CMDTAIL :=
      ((hkept.trans hw).head.trans hring).trans (hkept.trans hw).tail.symm
    have hnone : (waitsForFw r c op).ccp.spiIn = [] := (hkept.trans hw).spiIn.trans hspi
    rw [takePkt_firmware hp hsecure hnew hfits hparams hreply hop (hfw ▸ hrestart) (hfwQ.trans hq), takenFrom_idle hnone hrest]
    have hrun := fwRun_waitsForFw (r := r) (ctx := c) (op := op) (by rw [hkept.fw, hfw, hready]) (hkept.fwQ.trans (hfwQ.trans hq)) 31
    exact congrArg (fun t => Host.Outcome.next (serveRing t)) hrun

end Sys2Proof.Machine
end

section
/-! SUPPORT. A packet of a receive stream on the way into its store (R277, R280, R281, R293). -/

namespace Sys2Proof.Machine

open Sys2Proof

/-! The status window of a receive entry (R293). -/

theorem rxR_ne {r v w : Nat} (h : v ≠ w) : rxR r v ≠ rxR r w := by
  unfold rxR
  omega

theorem lastSeq_addr (r : Nat) : (F.STRM_RX0_LASTSEQ.plus (32 * r)).addr = rxR r 0 := rfl

theorem late_addr (r : Nat) : (F.STRM_RX6_LATE.plus (32 * r)).addr = rxR r 6 := by
  show 0x51018 + 32 * r = 0x51000 + 32 * r + 24
  omega

theorem pdMax_addr (r : Nat) : (F.STRM_RX7_PDMAX.plus (32 * r)).addr = rxR r 7 := by
  show 0x5101C + 32 * r = 0x51000 + 32 * r + 28
  omega

theorem getR_setF_ne (s : State) (f : Fld) (v : Nat) {a : Nat} (h : a ≠ f.addr) : getR (setF s f v) a = getR s a :=
  getR_setR_ne s _ _ a h

theorem getR_addCtr_ne (s : State) {a b : Nat} (n : Nat) (h : b ≠ a) : getR (addCtr s a n) b = getR s b := getR_setR_ne s a _ b h

theorem getR_addCtr_same (s : State) (a n : Nat) : getR (addCtr s a n) a = satAdd 32 (getR s a) n := by
  rw [getR_addCtr, if_pos rfl, satAdd]
  omega

theorem getR_maxF_ne (s : State) (f : Fld) (v : Nat) {a : Nat} (h : a ≠ f.addr) : getR (maxF s f v) a = getR s a := by
  unfold maxF
  split
  · exact getR_setF_ne s f v h
  · rfl

/-- A counter field of 16 bits counts one on. -/
theorem getF_addF_16 (s : State) (f : Fld) (n : Nat) (hw : f.hi = f.lo + 15) (h : f.hi < 32) :
    getF (addF s f n) f = satAdd 16 (getF s f) n := by
  have hwidth : f.hi + 1 - f.lo = 16 := by omega
  rw [addF, getF_setF_same s f _ (by omega) h, hwidth, satAdd]
  omega

theorem maxF_state (s : State) (f : Fld) (v : Nat) : maxF s f v = { s with regs := (maxF s f v).regs } := by
  unfold maxF
  split <;> rfl

/-! The sequence of a leg (R280). -/

/-- What the sequence check leaves as it was: of the state all but counters of the window and, of the entry, all but what it remembers of
earlier packets. -/
structure Sequenced (s : State) (r : Nat) (x : RxSt) (t : State) (y : RxSt) : Prop where
  state : t = { s with regs := t.regs }
  words : ∀ w, w < 3 ∨ w = 6 → getR t (rxR r w) = getR s (rxR r w)
  ent : y.ent = x.ent
  store : y.store = x.store
  st : y.st = x.st
  dups : y.dups = x.dups

section
variable (s : State) (r leg : Nat) (x : RxSt) (m : RtpPkt)

/-- A gap counts in word 3 or 4, the difference of the legs in word 7. -/
theorem rxSequence_sequenced (hleg : leg < 2) : Sequenced s r x (rxSequence s r leg x m).1 (rxSequence s r leg x m).2 := by
  unfold rxSequence
  extract_lets prev d counted y measured
  have hcounted : counted = { s with regs := counted.regs } ∧ ∀ w, w < 3 ∨ w = 6 → getR counted (rxR r w) = getR s (rxR r w) := by
    unfold counted
    split
    · exact ⟨rfl, fun w hw => getR_addCtr_ne s 1 (rxR_ne (by omega))⟩
    · exact ⟨rfl, fun _ _ => rfl⟩
  obtain ⟨hcstate, hcwords⟩ := hcounted
  have hmeasured : measured = { s with regs := measured.regs } ∧ ∀ w, w < 3 ∨ w = 6 → getR measured (rxR r w) = getR s (rxR r w) := by
    unfold measured
    split
    · refine ⟨by rw [maxF_state, hcstate], fun w hw => .trans (getR_maxF_ne _ _ _ ?_) (hcwords w hw)⟩
      rw [pdMax_addr]
      exact rxR_ne (by omega)
    · exact ⟨hcstate, hcwords⟩
  have hy : y.ent = x.ent ∧ y.store = x.store ∧ y.st = x.st ∧ y.dups = x.dups := by
    unfold y
    repeat' split
    all_goals exact ⟨rfl, rfl, rfl, rfl⟩
  obtain ⟨hstate, hwords⟩ := hmeasured
  obtain ⟨hent, hstore, hst, hdups⟩ := hy
  exact ⟨hstate, hwords, hent, hstore, hst, hdups⟩

/-! What an accepted packet does to its entry and its window (R281, R293). -/

/-- The entry with a leg up. -/
def upRx : RxSt := if leg = 0 then { x with upA := true, outA := false } else { x with upB := true, outB := false }

/-- The entry that has accepted a packet on a leg: it runs, without a fade-in after it waited (R279). -/
def acceptedRx : RxSt := { upRx leg x with run := if (upRx leg x).st = .waiting then 16 else (upRx leg x).run, st := .running }

variable (seq : Nat)

theorem acceptedRx_kept : (acceptedRx leg x).ent = x.ent ∧ (acceptedRx leg x).store = x.store ∧ (acceptedRx leg x).dups = x.dups := by
  simp only [acceptedRx, upRx]
  split <;> exact ⟨rfl, rfl, rfl⟩

theorem acceptedRx_up : (if leg = 0 then (acceptedRx leg x).upA else (acceptedRx leg x).upB) = true := by
  simp only [acceptedRx, upRx]
  split <;> rfl

theorem rxAccept_eq : ∃ log, rxAccept s r leg seq x =
    setRx { setF (addCtr s (rxR r (1 + leg)) 1) (F.STRM_RX0_LASTSEQ.plus (32 * r)) seq with log := log } r (acceptedRx leg x) := by
  unfold rxAccept
  extract_lets counted numbered back logged up primed
  have hlogged : logged = { numbered with log := logged.log } := by
    unfold logged logEv pushEvent
    repeat' split
    all_goals rfl
  have hprimed : { primed with st := .running } = acceptedRx leg x := by
    show { (if (upRx leg x).st = .waiting then { upRx leg x with run := 16 } else upRx leg x) with st := .running } = _
    unfold acceptedRx
    split <;> rfl
  exact ⟨logged.log, by rw [hprimed, ← hlogged]⟩

theorem rxAccept_strm : (rxAccept s r leg seq x).strm = { s.strm with rx := s.strm.rx.set r (acceptedRx leg x) } := by
  obtain ⟨log, h⟩ := rxAccept_eq s r leg x seq
  rw [h]
  rfl

theorem rxAccept_kept : (rxAccept s r leg seq x).tl = s.tl ∧ (rxAccept s r leg seq x).fab = s.fab ∧
    (rxAccept s r leg seq x).mem = s.mem := by
  obtain ⟨log, h⟩ := rxAccept_eq s r leg x seq
  rw [h]
  exact ⟨rfl, rfl, rfl⟩

theorem rxAccept_regs : (rxAccept s r leg seq x).regs =
    (setF (addCtr s (rxR r (1 + leg)) 1) (F.STRM_RX0_LASTSEQ.plus (32 * r)) seq).regs := by
  obtain ⟨log, h⟩ := rxAccept_eq s r leg x seq
  rw [h]
  rfl

theorem getF_rxAccept_lastSeq : getF (rxAccept s r leg seq x) (F.STRM_RX0_LASTSEQ.plus (32 * r)) = seq % 65536 := by
  rw [getF_congr _ _ _ (rxAccept_regs s r leg x seq)]
  exact getF_setF_same _ _ seq (by decide : F.STRM_RX0_LASTSEQ.lo ≤ F.STRM_RX0_LASTSEQ.hi) (by decide : F.STRM_RX0_LASTSEQ.hi < 32)

theorem getR_rxAccept_packets : getR (rxAccept s r leg seq x) (rxR r (1 + leg)) = satAdd 32 (getR s (rxR r (1 + leg))) 1 := by
  rw [getR_congr _ _ _ (rxAccept_regs s r leg x seq), getR_setF_ne _ _ _ (lastSeq_addr r ▸ rxR_ne (by omega)), getR_addCtr_same]

end

/-! The store of an entry (R277, R406). -/

/-- Entries stored at consecutive keys read back. -/
theorem Sparse.get_foldl_put {α : Type} [DecidableEq α] (d : Nat → α) (m : Sparse α) (k : Nat) (v : Nat → α) {i n : Nat} (hi : i < n) :
    Sparse.get d ((List.range n).foldl (fun m j => Sparse.put d m (k + j) (v j)) m) (k + i) = v i := by
  induction n with
  | zero => exact absurd hi (Nat.not_lt_zero i)
  | succ n ih =>
    rw [List.range_succ, List.foldl_append, List.foldl_cons, List.foldl_nil, Sparse.get_put]
    by_cases h : i = n
    · rw [if_pos (by rw [h]), h]
    · rw [if_neg (by omega), ih (by omega)]

/-- The rows of a packet of n sample periods that stands at sample position k. -/
def packetRows (e : RxEnt) (b : Bytes) (k n : Nat) : List (Nat × List Int) := (List.range n).map fun i => (k + i, rxSamples e b i)

theorem get_putRows_packet (a : Sparse (List Int) × State) (r : Nat) (e : RxEnt) (b : Bytes) (k : Nat) {i n : Nat} (hi : i < n) :
    Sparse.get (fun _ => []) (putRows a r e (packetRows e b k n)).1 (k + i) = if bit e.flags 0 then [1] else rxSamples e b i := by
  unfold putRows packetRows
  split
  · simp only [List.foldl_map]
    exact Sparse.get_foldl_put _ a.1 k (fun _ => [1]) hi
  · rw [← Sparse.get_foldl_put (fun _ => []) a.1 k (rxSamples e b) hi, List.foldl_map]
    congr 1
    refine (List.foldl_hom Prod.fst ?_).symm
    intro x y
    rfl

/-- From `o` on, no codeword is damaged, and of the registers only MEM_RMW has counted. -/
def OnlyMerges (o s : State) : Prop := s.fab.inj = [] ∧ ∀ a, a ≠ Reg.MEM_RMW → getR s a = getR o a

theorem OnlyMerges.dramWord {o s : State} (h : OnlyMerges o s) (m src c : Nat) (w : List (Option Byte)) :
    OnlyMerges o (dramWord s m src c w) := by
  obtain ⟨hinj, hregs⟩ := h
  unfold Machine.dramWord
  rw [eccRead_none s c 16 m src hinj]
  split
  · exact ⟨hinj, hregs⟩
  · split
    · exact ⟨by rw [memWrite, hinj]; rfl, hregs⟩
    · refine ⟨by simp [memWrite, hinj], fun a ha => ?_⟩
      exact (getR_addCtr_ne s 1 ha).trans (hregs a ha)

theorem OnlyMerges.extWrite {o s : State} (h : OnlyMerges o s) (e : RxEnt) (rows : List (Nat × List Int)) :
    OnlyMerges o (extWrite s e rows) :=
  foldl_invariant (OnlyMerges o) _ (fun _ _ h => foldl_invariant (OnlyMerges o) _ (fun _ _ h =>
    foldl_invariant (OnlyMerges o) _ (fun _ _ h => h.dramWord ..) _ _ h) _ _ h) _ _ h

theorem openWrite_eq (s : State) (k size : Nat) (ps : List Nat) : ∃ f, openWrite s k size ps = { s with fab := f } := by
  unfold openWrite whole
  repeat' split
  all_goals exact ⟨_, rfl⟩

/-- Into the packet buffers, a write touches neither registers nor memory. -/
theorem putRows_packetBuffer (a : Sparse (List Int) × State) (r : Nat) {e : RxEnt} (rows : List (Nat × List Int))
    (h : bit e.flags 0 = false) : (putRows a r e rows).2.regs = a.2.regs ∧ (putRows a r e rows).2.mem = a.2.mem := by
  rw [putRows, if_neg (by simp [h])]
  refine foldl_invariant (fun b : Sparse (List Int) × State => b.2.regs = a.2.regs ∧ b.2.mem = a.2.mem) _ (fun b q hb => ?_) rows a
    ⟨rfl, rfl⟩
  obtain ⟨f, hf⟩ := openWrite_eq b.2 6 0x200000 (storePlaces r q.2.length q.1)
  rw [hf]
  exact hb

theorem getR_putRows (a : Sparse (List Int) × State) (r : Nat) {e : RxEnt} (rows : List (Nat × List Int))
    (hinj : bit e.flags 0 = true → a.2.fab.inj = []) {b : Nat} (hb : b ≠ Reg.MEM_RMW) : getR (putRows a r e rows).2 b = getR a.2 b := by
  by_cases h : bit e.flags 0 = true
  · have hmerges : OnlyMerges a.2 (extWrite a.2 e rows) := OnlyMerges.extWrite ⟨hinj h, fun _ _ => rfl⟩ e rows
    rw [putRows, if_pos h]
    exact hmerges.2 b hb
  · exact getR_congr _ _ b (putRows_packetBuffer a r rows (by simpa using h)).1

theorem rxR_ne_merges {r w : Nat} (h : w < 3) : rxR r w ≠ Reg.MEM_RMW := by
  simp only [rxR, Reg.STRM_RX0, Reg.MEM_RMW]
  omega

/-! A packet of samples (R277, R280). -/

/-- The media sample index of a packet's first sample (R277). -/
def rxIndex (s : State) (e : RxEnt) (m : RtpPkt) : Int :=
  let base := ((16 * s.tl.frame : Nat) : Int) - 2 ^ 31
  base + (((m.ts + e.linkofs : Nat) : Int) - base) % 2 ^ 32

section
variable {s : State} {r leg : Nat} {x : RxSt} {m : RtpPkt}

theorem rxAudio_late (h : rxIndex s x.ent m + x.ent.np - 1 < ((16 * s.tl.frame : Nat) : Int)) :
    rxAudio s r leg x m = addF (setRx s r x) (F.STRM_RX6_LATE.plus (32 * r)) 1 := by
  have hearly : rxIndex s x.ent m + x.ent.np - 1 < ((16 * s.tl.frame : Nat) : Int) + x.ent.depth := by omega
  refine (if_neg ?early).trans (if_pos ?late)
  case early => exact not_le.2 hearly
  case late => exact h

/-- The sample periods of a packet that the store of entry y takes: none that has gone by, and none twice (R277). -/
def newRows (s : State) (y : RxSt) (m : RtpPkt) : List (Nat × List Int) :=
  (List.range y.ent.np).filterMap fun (i : Nat) =>
    let n := (samplePos s (rxIndex s y.ent m + (i : Int))).toNat
    if rxIndex s y.ent m + (i : Int) < ((16 * s.tl.frame : Nat) : Int) ∨ Sparse.get (fun _ => []) y.store n ≠ [] then none
    else some (n, rxSamples y.ent m.payload i)

/-- An empty store takes a packet in the window whole. -/
theorem newRows_of_empty {y : RxSt} (hstore : y.store = []) (hlo : ((16 * s.tl.frame : Nat) : Int) ≤ rxIndex s y.ent m)
    (hpos : 0 ≤ samplePos s (rxIndex s y.ent m)) :
    newRows s y m = packetRows y.ent m.payload (samplePos s (rxIndex s y.ent m)).toNat y.ent.np := by
  rw [newRows, packetRows, ← List.filterMap_eq_map]
  refine List.filterMap_congr fun i _ => ?_
  have hplace : (samplePos s (rxIndex s y.ent m + (i : Int))).toNat = (samplePos s (rxIndex s y.ent m)).toNat + i := by
    unfold samplePos at hpos ⊢
    omega
  have hahead : ¬ rxIndex s y.ent m + (i : Int) < ((16 * s.tl.frame : Nat) : Int) := by omega
  simp only [hplace, hstore, Sparse.get, ne_eq, not_true_eq_false, or_false, hahead, if_false, Function.comp_apply]

/-- A packet in the window, neither early nor late, is accepted, and its new sample periods are stored. -/
theorem rxAudio_window (hr : r < s.strm.rx.length) (hlo : ((16 * s.tl.frame : Nat) : Int) ≤ rxIndex s x.ent m + x.ent.np - 1)
    (hhi : rxIndex s x.ent m + x.ent.np - 1 < ((16 * s.tl.frame : Nat) : Int) + x.ent.depth) :
    let t := rxAccept s r leg m.seq x
    let y := acceptedRx leg x
    let put := putRows (y.store, t) r y.ent (newRows t y m)
    rxAudio s r leg x m = setRx put.2 r { y with store := put.1 } := by
  intro t y put
  have hentry : t.strm.rx[r]? = some y := by
    rw [rxAccept_strm]
    exact List.getElem?_set_self hr
  obtain ⟨htl, -, -⟩ := rxAccept_kept s r leg x m.seq
  obtain ⟨hent, -, -⟩ := acceptedRx_kept leg x
  have hindex : rxIndex t y.ent m = rxIndex s x.ent m := by rw [rxIndex, htl, hent]; rfl
  refine ((if_neg ?early).trans (if_neg ?late)).trans ?stored
  case early => exact not_le.2 hhi
  case late => exact not_lt.2 hlo
  case stored =>
    show (match t.strm.rx[r]? with | none => _ | some z => _ : State) = _
    rw [hentry]
    simp only [put, newRows, hindex]
    rw [htl, hent]
    rfl

/-! Which way a packet goes (R276, R288). -/

theorem streamPacket_noEntry (h : s.strm.rx[r]? = none) : streamPacket s r leg m = addCtr s Reg.STRM_RXUNK 1 := by
  rw [streamPacket, h]

theorem streamPacket_noLeg (h : s.strm.rx[r]? = some x) (hleg : legPresent x.ent leg = false) :
    streamPacket s r leg m = addCtr s Reg.STRM_RXUNK 1 := by
  rw [streamPacket, h]
  exact if_pos (by rw [hleg]; rfl)

theorem streamPacket_bad (h : s.strm.rx[r]? = some x) (hleg : legPresent x.ent leg = true) (hbad : rxBad s x.ent m = true) :
    streamPacket s r leg m = addCtr (addF s (F.STRM_RX7_FMTERR.plus (32 * r)) 1) Reg.STRM_RXBAD 1 := by
  rw [streamPacket, h]
  exact (if_neg (by simp [hleg])).trans (if_pos hbad)

/-- The entry with a metadata packet's number remembered, once (R285). -/
def remembered (x : RxSt) (m : RtpPkt) : RxSt := if x.dups.contains m.seq then x else { x with dups := (m.seq :: x.dups).take 64 }

/-- A metadata packet behind those that wait for their completion, with its place in the order of ingress (R288). -/
def queueMeta (s : State) (r : Nat) (m : RtpPkt) : State :=
  let s := if m.payload.length ≥ 6 then setR s (rxR r 5) (beAt m.payload 4 2) else s
  { s with strm := { s.strm with omp := s.strm.omp ++ [(s.strm.packets, m.payload)], packets := s.strm.packets + 1 } }

theorem queueMeta_strm : (queueMeta s r m).strm =
    { s.strm with omp := s.strm.omp ++ [(s.strm.packets, m.payload)], packets := s.strm.packets + 1 } := by
  unfold queueMeta
  split <;> rfl

/-- What a good packet does for an entry of metadata, after the sequence check. -/
def rxMeta (s : State) (r leg : Nat) (x : RxSt) (m : RtpPkt) : State :=
  let t := rxAccept s r leg m.seq (remembered x m)
  if x.dups.contains m.seq then t else queueMeta t r m

theorem rxMeta_strm : (rxMeta s r leg x m).strm.rx = s.strm.rx.set r (acceptedRx leg (remembered x m)) ∧ (rxMeta s r leg x m).strm.omp =
    if x.dups.contains m.seq then s.strm.omp else s.strm.omp ++ [(s.strm.packets, m.payload)] := by
  unfold rxMeta
  split
  · rw [rxAccept_strm]
    exact ⟨rfl, rfl⟩
  · rw [queueMeta_strm, rxAccept_strm]
    exact ⟨rfl, rfl⟩

/-- A good packet passes the sequence check; what follows depends on the kind of its entry. -/
theorem streamPacket_good (h : s.strm.rx[r]? = some x) (hleg2 : leg < 2) (hleg : legPresent x.ent leg = true)
    (hgood : rxBad s x.ent m = false) : ∃ t y, Sequenced s r x t y ∧
      (x.ent.kind = 0 → streamPacket s r leg m = rxAudio t r leg y m) ∧
      (x.ent.kind ≠ 0 → streamPacket s r leg m = rxMeta t r leg y m) := by
  have hseq := rxSequence_sequenced s r leg x m hleg2
  have hpass : streamPacket s r leg m = if (rxSequence s r leg x m).2.ent.kind = 0
      then rxAudio (rxSequence s r leg x m).1 r leg (rxSequence s r leg x m).2 m
      else rxMeta (rxSequence s r leg x m).1 r leg (rxSequence s r leg x m).2 m := by
    rw [streamPacket, h]
    exact (if_neg (by simp [hleg])).trans (if_neg (by simp [hgood]))
  rw [hseq.ent] at hpass
  exact ⟨_, _, hseq, fun hkind => hpass.trans (if_pos hkind), fun hkind => hpass.trans (if_neg hkind)⟩

end

end Sys2Proof.Machine
end

section
/-! PROOF. O50: the packets of streams and of metadata (R276 to R289, R314). -/

namespace Sys2Proof.Machine

open Sys2Proof

theorem exec_streamPacketReceive {s : State} (on : powered s = true) (r leg : Nat) (m : RtpPkt) :
    exec (.streamPacketReceive r leg m) s = .next (streamPacket s r leg m) :=
  congrArg Host.Outcome.next (whilePowered_on on _)

section
variable {s : State} {r leg : Nat} {x : RxSt} {m : RtpPkt}

theorem rxIndex_congr {s t : State} (h : t.tl = s.tl) (e : RxEnt) (m : RtpPkt) : rxIndex t e m = rxIndex s e m := by
  rw [rxIndex, h, rxIndex]

/-- A late packet leaves the store and the state of its stream, and counts (R277, R280). -/
theorem streamPacket_late (hx : s.strm.rx[r]? = some x) (hleg2 : leg < 2) (hleg : legPresent x.ent leg = true)
    (hgood : rxBad s x.ent m = false) (hkind : x.ent.kind = 0)
    (hlate : rxIndex s x.ent m + x.ent.np - 1 < ((16 * s.tl.frame : Nat) : Int)) :
    ∃ z, (streamPacket s r leg m).strm.rx[r]? = some z ∧ z.store = x.store ∧ z.st = x.st ∧
      getF (streamPacket s r leg m) (F.STRM_RX6_LATE.plus (32 * r)) = satAdd 16 (getF s (F.STRM_RX6_LATE.plus (32 * r))) 1 := by
  obtain ⟨t, y, hseq, haudio, -⟩ := streamPacket_good hx hleg2 hleg hgood
  have htl : t.tl = s.tl := by rw [hseq.state]
  have hstrm : t.strm = s.strm := by rw [hseq.state]
  have hr : r < t.strm.rx.length := by
    rw [hstrm]
    exact (List.getElem?_eq_some_iff.1 hx).1
  rw [haudio hkind, rxAudio_late (by rw [rxIndex_congr htl, htl, hseq.ent]; exact hlate)]
  refine ⟨y, List.getElem?_set_self hr, hseq.store, hseq.st, ?_⟩
  rw [getF_addF_16 _ (F.STRM_RX6_LATE.plus (32 * r)) _ rfl (by decide : F.STRM_RX6_LATE.hi < 32), getF, getF, late_addr,
    ← hseq.words 6 (.inr rfl)]
  rfl

/-- A packet falls into the window, the store being empty (R277); where DRAM rings are the store, no codeword is damaged. -/
structure InWindow (s : State) (x : RxSt) (m : RtpPkt) : Prop where
  begins : ((16 * s.tl.frame : Nat) : Int) ≤ rxIndex s x.ent m
  ends : rxIndex s x.ent m + x.ent.np - 1 < ((16 * s.tl.frame : Nat) : Int) + x.ent.depth
  samples : 0 < x.ent.np
  empty : x.store = []
  place : 0 ≤ samplePos s ((16 * s.tl.frame : Nat) : Int)
  whole : bit x.ent.flags 0 = true → s.fab.inj = []

/-- In `t` entry r is `z` and has accepted and stored the packet that came in `s` (R277, R281, R293). -/
structure PacketStored (s : State) (r leg : Nat) (e : RxEnt) (m : RtpPkt) (t : State) (z : RxSt) : Prop where
  entry : t.strm.rx[r]? = some z
  running : z.st = .running
  up : (if leg = 0 then z.upA else z.upB) = true
  stored : ∀ i : Nat, i < e.np → Sparse.get (fun _ => []) z.store (samplePos s (rxIndex s e m + i)).toNat =
    if bit e.flags 0 then [1] else rxSamples e m.payload i
  lastSeq : getF t (F.STRM_RX0_LASTSEQ.plus (32 * r)) = m.seq % 65536
  counted : getR t (rxR r (1 + leg)) = satAdd 32 (getR s (rxR r (1 + leg))) 1
  mem : bit e.flags 0 = false → t.mem = s.mem

theorem rxAudio_stores (hr : r < s.strm.rx.length) (hleg : leg < 2) (h : InWindow s x m) :
    ∃ z, PacketStored s r leg x.ent m (rxAudio s r leg x m) z := by
  obtain ⟨hlo, hhi, hnp, hempty, hplace, hinj⟩ := h
  obtain ⟨htl, hfab, hmem⟩ := rxAccept_kept s r leg x m.seq
  obtain ⟨hent, hstore, -⟩ := acceptedRx_kept leg x
  have hpos : 0 ≤ samplePos s (rxIndex s x.ent m) := by
    unfold samplePos at hplace ⊢
    omega
  have hsamplePos : ∀ n, samplePos (rxAccept s r leg m.seq x) n = samplePos s n := fun n => by rw [samplePos, htl, samplePos]
  have hrows : newRows (rxAccept s r leg m.seq x) (acceptedRx leg x) m =
      packetRows x.ent m.payload (samplePos s (rxIndex s x.ent m)).toNat x.ent.np := by
    rw [newRows_of_empty (hstore.trans hempty) (by rwa [hent, rxIndex_congr htl, htl])
      (by rwa [hent, rxIndex_congr htl, hsamplePos]), hent, rxIndex_congr htl, hsamplePos]
  rw [rxAudio_window hr (by omega) hhi, hstore, hempty, hent, hrows]
  have hkept : ∀ w < 3, getR (putRows ([], rxAccept s r leg m.seq x) r x.ent
      (packetRows x.ent m.payload (samplePos s (rxIndex s x.ent m)).toNat x.ent.np)).2 (rxR r w) =
      getR (rxAccept s r leg m.seq x) (rxR r w) := fun w hw =>
    getR_putRows _ r _ (fun h => hfab ▸ hinj h) (rxR_ne_merges hw)
  refine ⟨_, List.getElem?_set_self ?_, rfl, acceptedRx_up leg x, fun i hi => ?_, ?_, ?_, fun h => ?_⟩
  · rw [(EngineFrame.refl _).putRows.strm, rxAccept_strm]
    exact List.length_set.symm ▸ hr
  · have hi' : (samplePos s (rxIndex s x.ent m + i)).toNat = (samplePos s (rxIndex s x.ent m)).toNat + i := by
      unfold samplePos at hpos ⊢
      omega
    rw [hi']
    exact get_putRows_packet _ r x.ent m.payload _ hi
  · refine Eq.trans ?_ (getF_rxAccept_lastSeq s r leg x m.seq)
    exact congrArg (bits · 15 0) (hkept 0 (by decide))
  · exact (hkept (1 + leg) (by omega)).trans (getR_rxAccept_packets s r leg x m.seq)
  · exact (putRows_packetBuffer _ r _ h).2.trans hmem

theorem Sequenced.inWindow {t : State} {y : RxSt} (h : Sequenced s r x t y) (hw : InWindow s x m) : InWindow t y m := by
  obtain ⟨hstate, -, hent, hstore, -, -⟩ := h
  obtain ⟨hlo, hhi, hnp, hempty, hplace, hinj⟩ := hw
  rw [hstate]
  exact ⟨hent ▸ hlo, hent ▸ hhi, hent ▸ hnp, hstore.trans hempty, hplace, hent ▸ hinj⟩

theorem Sequenced.packetStored {t u : State} {y z : RxSt} (h : Sequenced s r x t y) (hleg : leg < 2)
    (hu : PacketStored t r leg y.ent m u z) : PacketStored s r leg x.ent m u z := by
  obtain ⟨hstate, hwords, hent, -, -, -⟩ := h
  obtain ⟨hentry, hrun, hup, hstored, hseq, hcount, hmem⟩ := hu
  rw [hwords (1 + leg) (by omega)] at hcount
  rw [hent] at hstored hmem
  rw [hstate] at hstored hmem
  exact ⟨hentry, hrun, hup, hstored, hseq, hcount, hmem⟩

/-- A packet in the window runs its stream, counts on its leg, and its samples lie in the store (R277, R281). -/
theorem streamPacket_window (hx : s.strm.rx[r]? = some x) (hleg2 : leg < 2) (hleg : legPresent x.ent leg = true)
    (hgood : rxBad s x.ent m = false) (hkind : x.ent.kind = 0) (h : InWindow s x m) :
    ∃ z, PacketStored s r leg x.ent m (streamPacket s r leg m) z := by
  obtain ⟨t, y, hseq, haudio, -⟩ := streamPacket_good hx hleg2 hleg hgood
  have hr : r < t.strm.rx.length := by
    rw [hseq.state]
    exact (List.getElem?_eq_some_iff.1 hx).1
  obtain ⟨z, hz⟩ := rxAudio_stores hr hleg2 (hseq.inWindow h)
  exact ⟨z, haudio hkind ▸ hseq.packetStored hleg2 hz⟩

/-- A metadata packet runs its stream and waits for its completion, but not a second time (R285, R288). -/
theorem streamPacket_meta (hx : s.strm.rx[r]? = some x) (hleg2 : leg < 2) (hleg : legPresent x.ent leg = true)
    (hgood : rxBad s x.ent m = false) (hkind : x.ent.kind ≠ 0) :
    ∃ z, (streamPacket s r leg m).strm.rx[r]? = some z ∧ z.st = .running ∧
      z.dups = (if x.dups.contains m.seq then x.dups else (m.seq :: x.dups).take 64) ∧
      (streamPacket s r leg m).strm.omp =
        if x.dups.contains m.seq then s.strm.omp else s.strm.omp ++ [(s.strm.packets, m.payload)] := by
  obtain ⟨t, y, hseq, -, hmeta⟩ := streamPacket_good hx hleg2 hleg hgood
  have hstrm : t.strm = s.strm := by rw [hseq.state]
  have hr : r < s.strm.rx.length := (List.getElem?_eq_some_iff.1 hx).1
  obtain ⟨hrx, homp⟩ := rxMeta_strm (s := t) (r := r) (leg := leg) (x := y) (m := m)
  obtain ⟨-, -, hdups⟩ := acceptedRx_kept leg (remembered y m)
  rw [hstrm] at hrx homp
  rw [hmeta hkind, hrx, homp, hseq.dups]
  refine ⟨_, List.getElem?_set_self hr, rfl, ?_, rfl⟩
  rw [hdups, remembered, ← hseq.dups]
  split <;> rfl

end

/-! A leg that goes down (R281). -/

/-- The entry with a leg no longer up. -/
def downRx (leg : Nat) (x : RxSt) : RxSt := if leg = 0 then { x with upA := false } else { x with upB := false }

/-- The entry of which STREAM_LEG reports a leg down. -/
def outRx (leg : Nat) (x : RxSt) : RxSt := if leg = 0 then { downRx leg x with outA := true } else { downRx leg x with outB := true }

section
variable {s : State} {r leg : Nat} {x : RxSt}

theorem streamLegDown_noEntry (h : s.strm.rx[r]? = none) : streamLegDown s r leg = s := by
  rw [streamLegDown, h]

theorem streamLegDown_wasDown (hx : s.strm.rx[r]? = some x) (hup : (if leg = 0 then x.upA else x.upB) = false) :
    streamLegDown s r leg = s := by
  rw [streamLegDown, hx]
  exact if_pos (by rw [hup]; rfl)

/-- A leg that was up: the stream has its other leg, or it goes down where it ran. -/
theorem streamLegDown_wasUp (hx : s.strm.rx[r]? = some x) (hup : (if leg = 0 then x.upA else x.upB) = true) :
    streamLegDown s r leg =
      if (if leg = 0 then x.upB else x.upA) = true then
        raise (logEv (setRx s r (outRx leg x)) 0x0503 [(2, (r : Int)), (1, (leg : Int)), (1, 0), frameF (frameNow s)]) 5 3
      else if x.st = .running then
        raise (logEv (setRx s r { downRx leg x with st := .down }) 0x0502 [(2, (r : Int)), frameF (frameNow s)]) 5 4
      else setRx s r (downRx leg x) := by
  rw [streamLegDown, hx]
  refine (if_neg (by rw [hup]; decide)).trans ?_
  unfold outRx downRx
  split <;> rfl

end

/-! An Object Metadata Packet is complete (R286 to R289). -/

/-- Whether the metadata of a frame comes after the tick that would have taken it (R287). -/
def isLate (s : State) (frame : Nat) : Bool :=
  match s.strm.lastTick with
  | some l => decide (frame ≤ l)
  | none => false

section
variable {s : State} {b : Bytes} {pk : Nat}

theorem metaPacket_bad (h : metaPacketOk b = false) : metaPacket s b pk = metaCount s Reg.STRM_METABAD :=
  if_pos (by rw [h]; rfl)

theorem metaPacket_early (h : metaPacketOk b = true) (hfar : s.tl.frame + 256 < beAt b 8 8) :
    metaPacket s b pk = metaDrop s Reg.STRM_METAEARLY 2 (beAt b 16 2) (beAt b 8 8) :=
  (if_neg (by rw [h]; decide)).trans (if_pos hfar)

theorem metaPacket_past (h : metaPacketOk b = true) (hnear : beAt b 8 8 ≤ s.tl.frame + 256)
    (hpast : beAt b 8 8 + getF s F.STRM_MLATE_FRAMES < s.tl.frame) :
    metaPacket s b pk = metaDrop s Reg.STRM_METAPAST 1 (beAt b 16 2) (beAt b 8 8) :=
  ((if_neg (by rw [h]; decide)).trans (if_neg (not_lt.2 hnear))).trans (if_pos hpast)

/-- A packet of one good entry, neither too far ahead nor past, with room in the metadata store. -/
theorem metaPacket_single {e : MetaEnt} (h : metaPacketOk b = true) (hone : beAt b 6 2 = 1) (hnear : beAt b 8 8 ≤ s.tl.frame + 256)
    (hpresent : s.tl.frame ≤ beAt b 8 8 + getF s F.STRM_MLATE_FRAMES)
    (hentry : metaEntry (sliceB b 16 32) (beAt b 8 8) (isLate s (beAt b 8 8)) pk = some e) (hroom : s.strm.meta_.length < 8192) :
    metaPacket s b pk = { s with strm := { s.strm with meta_ := s.strm.meta_ ++ [e] } } := by
  refine ((if_neg (by rw [h]; decide)).trans (if_neg (not_lt.2 hnear))).trans ((if_neg (not_lt.2 hpresent)).trans ?_)
  extract_lets late
  have hfirst : metaEntry (sliceB b (16 + 32 * 0) 32) (beAt b 8 8) late pk = some e := hentry
  simp only [hone, List.range_one, List.foldl_cons, List.foldl_nil, hfirst, List.any_nil, Bool.false_eq_true, if_false,
    List.nil_append]
  exact if_neg (not_le.2 hroom)

end

/-- OMP_RECEIVE completes the oldest packet. -/
theorem exec_ompReceive_cons {s : State} {pk : Nat} {b : Bytes} {rest : List (Nat × Bytes)} (h : s.strm.omp = (pk, b) :: rest) :
    exec .ompReceive s = .next (metaPacket { s with strm := { s.strm with omp := rest } } b pk) := by
  show Host.Outcome.next (ompReceive s) = _
  rw [ompReceive, h]

theorem exec_ompReceive_nil {s : State} (h : s.strm.omp = []) : exec .ompReceive s = .next s := by
  show Host.Outcome.next (ompReceive s) = _
  rw [ompReceive, h]

/-- Settles O50: each packet by the way it takes, each leg by what the other does. -/
theorem streamPackets : Obligations.StreamPackets := by
  unfold Obligations.StreamPackets
  refine ⟨fun s r leg m _ => ⟨fun off => ?_, fun hx => ⟨fun on => ?_, ?_⟩⟩, fun s r leg m x hleg2 hx => ?entry,
    fun s => exec_ompReceive_nil, fun s pk b rest e homp => ?metaPacket⟩
  · exact congrArg Host.Outcome.next (whilePowered_off off _)
  · rw [exec_streamPacketReceive on, streamPacket_noEntry hx]
  · exact congrArg Host.Outcome.next (streamLegDown_noEntry hx)
  case entry =>
    intro got ent w si
    refine ⟨fun on hleg => ?_, fun on hleg hbad => ?_, fun on hleg hgood hkind => ⟨fun hlate => ?late, ?window⟩,
      fun on hleg hgood hkind => ?metadata, ?legs⟩
    · exact (exec_streamPacketReceive on r leg m).trans (congrArg _ (streamPacket_noLeg hx hleg))
    · exact (exec_streamPacketReceive on r leg m).trans (congrArg _ (streamPacket_bad hx hleg hbad))
    case late =>
      obtain ⟨z, hz⟩ := streamPacket_late hx hleg2 hleg hgood hkind hlate
      exact ⟨_, z, exec_streamPacketReceive on r leg m, hz⟩
    case window =>
      intro hlo hhi hnp hempty hplace hinj
      obtain ⟨z, hz⟩ := streamPacket_window hx hleg2 hleg hgood hkind ⟨hlo, hhi, hnp, hempty, hplace, hinj⟩
      exact ⟨_, z, exec_streamPacketReceive on r leg m, hz.entry, hz.running, hz.up, hz.stored, hz.lastSeq, hz.counted, hz.mem⟩
    case metadata =>
      obtain ⟨z, hz⟩ := streamPacket_meta hx hleg2 hleg hgood hkind
      exact ⟨_, z, exec_streamPacketReceive on r leg m, hz⟩
    case legs =>
      intro up other down out lost
      have hlost : up = true → lost = _ := fun hup => congrArg Host.Outcome.next (streamLegDown_wasUp hx hup)
      refine ⟨fun hup => congrArg Host.Outcome.next (streamLegDown_wasDown hx hup), fun hup hother => ?_, fun hup hother hrun => ?_,
        fun hup hother hrun => ?_⟩
      · exact (hlost hup).trans (congrArg Host.Outcome.next (if_pos hother))
      · exact (hlost hup).trans (congrArg Host.Outcome.next ((if_neg (Bool.eq_false_iff.1 hother)).trans (if_pos hrun)))
      · exact (hlost hup).trans (congrArg Host.Outcome.next ((if_neg (Bool.eq_false_iff.1 hother)).trans (if_neg hrun)))
  case metaPacket =>
    intro u frame
    rw [exec_ompReceive_cons homp]
    refine ⟨fun h => ?_, fun h hfar => ?_, fun h hnear hpast => ?_, fun h hone hnear hpresent hentry hroom => ?_⟩
    · rw [metaPacket_bad h]
    · exact congrArg Host.Outcome.next (metaPacket_early h hfar)
    · exact congrArg Host.Outcome.next (metaPacket_past h hnear hpast)
    · exact congrArg Host.Outcome.next (metaPacket_single h hone hnear hpresent hentry hroom)

end Sys2Proof.Machine
end

section
/-! PROOF. O58: the memory keeps its canonical form. -/

namespace Sys2Proof.Machine

open Sys2Proof

/-- Settles O58: what a step upholds, of the memory. -/
theorem everyStepKeepsMemoryCanonical : Obligations.EveryStepKeepsMemoryCanonical := by
  unfold Obligations.EveryStepKeepsMemoryCanonical
  exact fun s t hs ht => (step_upholds ht).memory hs

end Sys2Proof.Machine
end

section
/-! SUPPORT. Reads of registers through the operations that write others, count, record and raise. -/

namespace Sys2Proof.Machine

open Sys2Proof

theorem getR_logEv (s : State) (code : Nat) (p : List (Nat × Int)) (a : Nat) : getR (logEv s code p) a = getR s a :=
  getR_congr _ _ a (logEv_regs s code p)

theorem getF_logEv (s : State) (code : Nat) (p : List (Nat × Int)) (f : Fld) : getF (logEv s code p) f = getF s f :=
  getF_congr _ _ f (logEv_regs s code p)

theorem getF_addCtr_ne (s : State) (a n : Nat) (f : Fld) (h : f.addr ≠ a) : getF (addCtr s a n) f = getF s f :=
  getF_setR_ne s f a _ h

/-- A flag that is set reads set. -/
theorem getF_setFB_same (s : State) (f : Fld) (b : Bool) (one : f.hi = f.lo) (h : f.hi < 32) : getF (setFB s f b) f = b2n b := by
  rw [setFB, getF_setF_same s f _ one.ge h, one]
  cases b <;> simp [b2n]

/-- A flag is 0 or 1. -/
theorem getF_flag_lt (s : State) (f : Fld) (one : f.hi = f.lo) : getF s f < 2 := by
  have h := bits_lt (getR s f.addr) f.hi f.lo
  rw [one] at h
  simpa [getF, one] using h

theorem unsigned_lt (w : Nat) (x : Int) : unsigned w x < 2 ^ w := by
  have h := Int.emod_lt_of_pos x (b := ((2 ^ w : Nat) : Int)) (by exact_mod_cast Nat.two_pow_pos w)
  have h0 := Int.emod_nonneg x (b := ((2 ^ w : Nat) : Int)) (by exact_mod_cast (Nat.two_pow_pos w).ne')
  unfold unsigned
  omega

/-- A little-endian field reads as the number it was written from. -/
theorem leVal_leBytes {n v : Nat} (h : v < 256 ^ n) : leVal (leBytes n v) = v := by
  induction n generalizing v with
  | zero => rw [pow_zero] at h; simp [leBytes, leVal]; omega
  | succ n ih =>
    have hq : v / 256 < 256 ^ n := Nat.div_lt_of_lt_mul (by rwa [pow_succ'] at h)
    have hstep : leVal (leBytes (n + 1) v) = leVal (leBytes n (v / 256)) * 256 + v % 256 := by
      simp [leBytes, leVal]
    rw [hstep, ih hq]
    omega

theorem pay_cons (n : Nat) (x : Int) (l : List (Nat × Int)) : pay ((n, x) :: l) = leBytes n (unsigned (8 * n) x) ++ pay l := rfl

theorem unsigned_lt_bytes (n : Nat) (x : Int) : unsigned (8 * n) x < 256 ^ n := by
  have h := unsigned_lt (8 * n) x
  rwa [pow_mul] at h

theorem length_leBytes (n v : Nat) : (leBytes n v).length = n := by
  induction n generalizing v with
  | zero => rfl
  | succ n ih => simp [leBytes, ih]

/-- A field at the head of a string. -/
theorem leAt_field {n v : Nat} (h : v < 256 ^ n) (t : Bytes) : leAt (leBytes n v ++ t) 0 n = v := by
  rw [leAt, sliceB, List.drop_zero, List.take_left' (length_leBytes n v), leVal_leBytes h]

/-- A field behind another. -/
theorem leAt_skip {k o : Nat} (h : k ≤ o) (v : Nat) (t : Bytes) (n : Nat) : leAt (leBytes k v ++ t) o n = leAt t (o - k) n := by
  rw [leAt, leAt, sliceB, sliceB, List.drop_append, length_leBytes, List.drop_eq_nil_of_le (by rw [length_leBytes]; exact h),
    List.nil_append]

/-- A raised cause stands in its INTSTAT. -/
theorem bit_raise (s : State) (n b a : Nat) (h : intStatAt n = some a) (hb : b < 32) : bit (getR (raise s n b) a) b = true := by
  rw [getR_raise s n b a a h, if_pos rfl, bit, Nat.testBit_mod_two_pow, Nat.testBit_or, Nat.testBit_two_pow_self]
  simp [hb]

theorem getR_raise_ne (s : State) (n b a x : Nat) (h : intStatAt n = some a) (hx : x ≠ a) : getR (raise s n b) x = getR s x := by
  rw [getR_raise s n b a x h, if_neg hx]

/-- From `o` on, registers, the log and the command engine may have changed: what reporting an event does. -/
structure Reported (o s : State) : Prop where
  same : s = { o with regs := s.regs, log := s.log, ccp := s.ccp }

variable {o : State}

theorem Reported.refl (s : State) : Reported s s := ⟨rfl⟩

/-- The three fields may change further. -/
theorem Reported.keep {s : State} (h : Reported o s) {regs log ccp} : Reported o { s with regs := regs, log := log, ccp := ccp } :=
  ⟨by rw [h.same]⟩

theorem Reported.setR {s a v} (h : Reported o s) : Reported o (setR s a v) := h.keep
theorem Reported.setF {s f v} (h : Reported o s) : Reported o (setF s f v) := h.keep
theorem Reported.setFB {s f b} (h : Reported o s) : Reported o (setFB s f b) := h.keep
theorem Reported.addCtr {s a n} (h : Reported o s) : Reported o (addCtr s a n) := h.keep

theorem Reported.raise {s n b} (h : Reported o s) : Reported o (raise s n b) := by
  rw [raise_eq]
  exact h.keep

theorem Reported.ite {c : Prop} [Decidable c] {a b : State} (ha : Reported o a) (hb : Reported o b) :
    Reported o (if c then a else b) := by split; exacts [ha, hb]

theorem Reported.pushEvent {s e} (h : Reported o s) : Reported o (pushEvent s e) := .ite h.keep h.keep
theorem Reported.logEv {s code p} (h : Reported o s) : Reported o (logEv s code p) := h.pushEvent

end Sys2Proof.Machine
end

section
/-! PROOF. O49: the thermal warning (R504, R505). -/

namespace Sys2Proof.Machine

open Sys2Proof

/-- The sensors' readings in their registers (R504). -/
def tempsRead (s : State) (temps : List Int) : State :=
  temps.zipIdx.foldl (fun s x => setR s (Reg.PWR_TEMP + 4 * x.2) (unsigned 16 x.1)) s

/-- The rise to PWR_TWARN (R505). -/
def warnRaised (s : State) (temps : List Int) (top : Int) : State :=
  raise (logEv (addCtr (setFB s F.PWR_STATUS_WARN true) Reg.PWR_WARNCNT 1) 0x1403
    [(1, (temps.findIdx (· == top) : Int)), (2, top)]) 20 5

/-- What WARN makes of the highest sensor (R505, R506). -/
def warnJudged (s : State) (temps : List Int) (top : Int) : State :=
  let warn := signed 16 (getF s F.PWR_TWARN_TEMP)
  if getF s F.PWR_STATUS_WARN = 0 then if top ≥ warn then warnRaised s temps top else s
  else if top ≤ warn - 80 then setFB s F.PWR_STATUS_WARN false else s

/-- The trip ends 10 °C below +125 °C (R506). -/
def tripCooled (s : State) (top : Int) : State :=
  if s.pwr.trip ∧ top ≤ 1840 then setPwr s { s.pwr with trip := false } else s

theorem thermalSample_eq (s : State) (t0 t1 t2 t3 t4 t5 t6 t7 : Int) :
    let temps := [t0, t1, t2, t3, t4, t5, t6, t7]
    let top := temps.foldl max t0
    thermalSample s temps = tripCooled (warnJudged (setF (tempsRead s temps) F.PWR_STATUS_TMAX (unsigned 16 top)) temps top) top := rfl

/-- Of the registers only those of the sensors change as they are read. -/
theorem getR_tempsRead_ne (s : State) (temps : List Int) {a : Nat} (h : ∀ k, k < temps.length → a ≠ Reg.PWR_TEMP + 4 * k) :
    getR (tempsRead s temps) a = getR s a := by
  induction temps using List.reverseRecOn with
  | nil => rfl
  | append_singleton l x ih =>
    have hx : a ≠ Reg.PWR_TEMP + 4 * l.length := h _ (by simp)
    simp only [tempsRead, List.zipIdx_append, List.foldl_append, List.zipIdx_singleton, List.foldl_cons, List.foldl_nil, Nat.zero_add]
    rw [getR_setR_ne _ _ _ _ hx]
    exact ih fun k hk => h k (by simp; omega)

/-- Every sensor reads back. -/
theorem getR_tempsRead (s : State) (temps : List Int) {k : Nat} (hk : k < temps.length) :
    getR (tempsRead s temps) (Reg.PWR_TEMP + 4 * k) = unsigned 16 (temps.getD k 0) := by
  induction temps using List.reverseRecOn with
  | nil => simp at hk
  | append_singleton l x ih =>
    have hlt : unsigned 16 x % 2 ^ 32 = unsigned 16 x := Nat.mod_eq_of_lt (by have := unsigned_lt 16 x; omega)
    simp only [tempsRead, List.zipIdx_append, List.foldl_append, List.zipIdx_singleton, List.foldl_cons, List.foldl_nil, Nat.zero_add]
    rw [getR_setR]
    by_cases he : k = l.length
    · subst he
      simpa using hlt
    · have hkl : k < l.length := by simp at hk; omega
      rw [if_neg (by omega), List.getD_append _ _ _ _ hkl]
      exact ih hkl

theorem getR_tempsRead_other (s : State) (temps : List Int) (a : Nat) (h : a < Reg.PWR_TEMP ∨ Reg.PWR_TEMP + 4 * temps.length ≤ a) :
    getR (tempsRead s temps) a = getR s a := getR_tempsRead_ne s temps fun k hk => by omega

theorem reported_tempsRead (s : State) (temps : List Int) : Reported s (tempsRead s temps) :=
  foldl_invariant (Reported s) _ (fun _ _ h => h.setR) _ _ (.refl s)

theorem log_tempsRead (s : State) (temps : List Int) : (tempsRead s temps).log = s.log ∧ (tempsRead s temps).ccp = s.ccp := by
  unfold tempsRead
  refine foldl_invariant (fun t : State => t.log = s.log ∧ t.ccp = s.ccp) _ (fun t x h => ?_) _ s ⟨rfl, rfl⟩
  exact h


theorem tripCooled_eq (s : State) (top : Int) :
    tripCooled s top = { s with pwr := { s.pwr with trip := s.pwr.trip && decide (1840 < top) } } := by
  unfold tripCooled
  split
  next h => simp [setPwr, h.1, not_lt.2 h.2]
  next h =>
    have hkeep : (s.pwr.trip && decide (1840 < top)) = s.pwr.trip := by
      cases hp : s.pwr.trip with
      | false => rfl
      | true => simpa [hp] using h
    rw [hkeep]

section
variable {s : State} {temps : List Int} {top : Int}

theorem getF_warnRaised {f : Fld} (hi : f.addr ≠ Reg.PWR_INTSTAT) (hc : f.addr ≠ Reg.PWR_WARNCNT) :
    getF (warnRaised s temps top) f = getF (setFB s F.PWR_STATUS_WARN true) f := by
  rw [warnRaised, getF_raise_ne _ _ _ _ f rfl hi, getF_logEv, getF_addCtr_ne _ _ _ _ hc]

theorem getR_warnRaised_other {a : Nat} (hi : a ≠ Reg.PWR_INTSTAT) (hc : a ≠ Reg.PWR_WARNCNT) (hs : a ≠ Reg.PWR_STATUS) :
    getR (warnRaised s temps top) a = getR s a := by
  rw [warnRaised, getR_raise_ne _ _ _ _ _ rfl hi, getR_logEv, getR_addCtr_ne _ _ hc, setFB, getR_setF_ne _ _ _ hs]

theorem getR_warnRaised_count :
    getR (warnRaised s temps top) Reg.PWR_WARNCNT = satAdd 32 (getR s Reg.PWR_WARNCNT) 1 := by
  rw [warnRaised, getR_raise_ne _ _ _ _ _ rfl (by decide), getR_logEv, getR_addCtr_same, setFB, getR_setF_ne _ _ _ (by decide)]

theorem bit_warnRaised : bit (getR (warnRaised s temps top) Reg.PWR_INTSTAT) 5 = true := bit_raise _ _ _ _ rfl (by decide)

theorem reported_warnJudged {o : State} (h : Reported o s) : Reported o (warnJudged s temps top) :=
  .ite (.ite h.setFB.addCtr.logEv.raise h) (.ite h.setFB h)

/-- The event of the rise (R505). -/
def warnEvent (s : State) (temps : List Int) (top : Int) : LogEvent :=
  { code := 0x1403, payload := pay [(1, (temps.findIdx (· == top) : Int)), (2, top)], run := none, first := false, cseq := none,
    hours := s.log.hoursCnt }

/-- The record of the rise: the lowest sensor that reads the highest temperature, and that temperature. -/
theorem warnRaised_log (hroom : eventsWaiting s.log < 256) (hlen : temps.length ≤ 8) (hmem : top ∈ temps) :
    ∃ e : LogEvent, (warnRaised s temps top).log.queue = s.log.queue ++ [e] ∧ e.code = 0x1403 ∧
      temps.getD (leAt e.payload 0 1) 0 = top ∧ leAt e.payload 1 2 = unsigned 16 top := by
  have hfound : temps.findIdx (· == top) < temps.length := List.findIdx_lt_length_of_exists ⟨top, hmem, by simp⟩
  have hat : temps.getD (temps.findIdx (· == top)) 0 = top := by
    rw [List.getD_eq_getElem _ _ hfound]
    simpa using List.findIdx_getElem (w := hfound)
  have hk : unsigned 8 (temps.findIdx (· == top) : Int) = temps.findIdx (· == top) := by
    unfold unsigned; omega
  refine ⟨warnEvent s temps top, ?_, rfl, ?_, ?_⟩
  · rw [warnRaised, raise_log, logEv, pushEvent, if_pos (by simpa using hroom)]
    rfl
  · rw [warnEvent, pay_cons, leAt_field (unsigned_lt_bytes 1 _), hk, hat]
  · rw [warnEvent, pay_cons, leAt_skip (le_refl 1), pay_cons, leAt_field (unsigned_lt_bytes 2 _)]

end

/-- The state the judgement of WARN starts from: the readings stand in their registers. -/
def sampleShown (s : State) (temps : List Int) (top : Int) : State := setF (tempsRead s temps) F.PWR_STATUS_TMAX (unsigned 16 top)

section
variable (s : State) (temps : List Int) (top : Int)

theorem reported_sampleShown : Reported s (sampleShown s temps top) := (reported_tempsRead s temps).setF

theorem getR_sampleShown_other {a : Nat} (hs : a ≠ Reg.PWR_STATUS) (h : a < Reg.PWR_TEMP ∨ Reg.PWR_TEMP + 4 * temps.length ≤ a) :
    getR (sampleShown s temps top) a = getR s a := by
  rw [sampleShown, getR_setF_ne _ _ _ hs, getR_tempsRead_other s temps a h]

theorem getF_sampleShown_tmax : getF (sampleShown s temps top) F.PWR_STATUS_TMAX = unsigned 16 top := by
  rw [sampleShown, getF_setF_same _ _ _ (by decide) (by decide)]
  exact Nat.mod_eq_of_lt (unsigned_lt 16 top)

theorem getF_sampleShown_warn : getF (sampleShown s temps top) F.PWR_STATUS_WARN = getF s F.PWR_STATUS_WARN := by
  rw [sampleShown, getF_setF_apart _ _ _ _ (by decide) (by decide) (by decide), getF, getF,
    getR_tempsRead_other s temps _ (.inl (by decide))]

theorem getF_sampleShown_twarn : getF (sampleShown s temps top) F.PWR_TWARN_TEMP = getF s F.PWR_TWARN_TEMP := by
  rw [getF, getF, getR_sampleShown_other _ _ _ (by decide) (.inl (by decide))]

theorem sampleShown_log : (sampleShown s temps top).log = s.log ∧ (sampleShown s temps top).ccp = s.ccp := log_tempsRead s temps

end

/-- The highest sensor, as the device compares them one after the other. -/
theorem foldl_max_eight (t0 t1 t2 t3 t4 t5 t6 t7 : Int) :
    [t0, t1, t2, t3, t4, t5, t6, t7].foldl max t0 = max (max (max (max (max (max (max t0 t1) t2) t3) t4) t5) t6) t7 := by
  simp only [List.foldl_cons, List.foldl_nil, max_self]

theorem max_eight_mem (t0 t1 t2 t3 t4 t5 t6 t7 : Int) :
    max (max (max (max (max (max (max t0 t1) t2) t3) t4) t5) t6) t7 ∈ [t0, t1, t2, t3, t4, t5, t6, t7] := by
  simp only [List.mem_cons, List.not_mem_nil, or_false]
  omega

/-- Behind the fused and pin-given registers a reset writes four more: CLK_STATUS, PWR_STATUS, PWR_LASTSHUT and PWR_WAKECFG. -/
theorem getR_resetRegisters {old new : State} {cause a : Nat} (hc : a ≠ Reg.CLK_STATUS) (hp : a ≠ Reg.PWR_STATUS)
    (hl : a ≠ Reg.PWR_LASTSHUT) (hw : a ≠ Reg.PWR_WAKECFG) :
    getR (resetRegisters old new cause) a = getR (identRegs new cause) a := by
  have hstop : ∀ u : State, getR (if u.clk.st = .fault then setF (setF (identRegs new cause) F.CLK_STATUS_REF_STATE 7)
      F.PWR_STATUS_FAULTSRC (faultSources (identRegs new cause)) else identRegs new cause) a = getR (identRegs new cause) a := by
    intro u
    split
    · rw [getR_setF_ne _ _ _ hp, getR_setF_ne _ _ _ hc]
    · rfl
  unfold resetRegisters
  change getR (setR (setR _ _ _) _ _) a = _
  rw [getR_setR_ne _ _ _ _ hw, getR_setR_ne _ _ _ _ hl]
  exact hstop new

/-- What no fuse or strap gives is as the register tables have it, in every other block (R512). -/
theorem getR_identRegs_twarn (s : State) (cause : Nat) :
    getR (identRegs s cause) Reg.PWR_TWARN = if s.hw.igrade then 0x690 else getR s Reg.PWR_TWARN := by
  unfold identRegs
  extract_lets ids named straps graded part
  have hstraps : getR straps Reg.PWR_TWARN = getR s Reg.PWR_TWARN := by
    simp (disch := decide) only [straps, named, ids, setFB, setR64, getR_setF_ne, getR_setR_ne]
  have hgraded : getR graded Reg.PWR_TWARN = if s.hw.igrade then 0x690 else getR s Reg.PWR_TWARN := by
    simp only [graded, show straps.hw = s.hw from rfl]
    split
    · rw [getR_setR_same]; rfl
    · exact hstraps
  split
  · simpa (disch := decide) only [part, getR_setF_ne, getR_setR_ne] using hgraded
  · exact hgraded

/-- The block as a reset leaves it, before its registers have their values (R494). -/
def blankReset (s : State) (xo test : Bool) : State :=
  { State.reset with
    pending := s.pending, hw := s.hw, regs := [], view := [], freeCtr := s.freeCtr,
    mem := s.mem.filter fun c => decide (0x90000000 ≤ c.1) && decide (c.1 < 0xA0000000),
    ccp := { CcpSt.reset with perst := s.ccp.perst },
    fw := { FwSt.reset with pref := s.fw.pref },
    clk := if xo then ClkSt.reset else { ClkSt.reset with st := .fault },
    pwr := { PwrSt.reset with netref := s.pwr.netref, seq := if test then .held else .raising 0, en := if test then 0 else 1 },
    xpt := { XptSt.reset with house := s.xpt.house, houseLow := s.xpt.house },
    lio := { LioSt.reset with clear := s.lio.clear } }

theorem deviceReset_eq (s : State) (cause : Nat) (xo test : Bool) :
    deviceReset s cause xo test = resetRegisters s (blankReset s xo test) cause := rfl

/-- The threshold after a reset (R505). -/
theorem getF_twarn_deviceReset (s : State) (cause : Nat) (xo test : Bool) :
    getF (deviceReset s cause xo test) F.PWR_TWARN_TEMP = if s.hw.igrade then 16 * 105 else 16 * 100 := by
  have hblank : getR (blankReset s xo test) Reg.PWR_TWARN = 0x640 := rfl
  have hword : getR (deviceReset s cause xo test) Reg.PWR_TWARN = if s.hw.igrade then 0x690 else 0x640 := by
    rw [deviceReset_eq, getR_resetRegisters (by decide) (by decide) (by decide) (by decide), getR_identRegs_twarn, hblank]
    rfl
  rw [getF, show F.PWR_TWARN_TEMP.addr = Reg.PWR_TWARN from rfl, hword]
  split <;> rfl

section
variable {s : State} {temps : List Int} {top : Int}

theorem warnJudged_rise (hoff : getF s F.PWR_STATUS_WARN = 0) (h : signed 16 (getF s F.PWR_TWARN_TEMP) ≤ top) :
    warnJudged s temps top = warnRaised s temps top := (if_pos hoff).trans (if_pos h)

theorem warnJudged_cool (hoff : getF s F.PWR_STATUS_WARN = 0) (h : top < signed 16 (getF s F.PWR_TWARN_TEMP)) :
    warnJudged s temps top = s := (if_pos hoff).trans (if_neg (not_le.2 h))

theorem warnJudged_clear (hon : getF s F.PWR_STATUS_WARN = 1) (h : top ≤ signed 16 (getF s F.PWR_TWARN_TEMP) - 80) :
    warnJudged s temps top = setFB s F.PWR_STATUS_WARN false := (if_neg (by omega)).trans (if_pos h)

theorem warnJudged_hot (hon : getF s F.PWR_STATUS_WARN = 1) (h : signed 16 (getF s F.PWR_TWARN_TEMP) - 80 < top) :
    warnJudged s temps top = s := (if_neg (by omega)).trans (if_neg (not_le.2 h))

theorem warnJudged_cases : warnJudged s temps top = warnRaised s temps top ∨ warnJudged s temps top = setFB s F.PWR_STATUS_WARN false ∨
    warnJudged s temps top = s := by
  have hflag := getF_flag_lt s F.PWR_STATUS_WARN rfl
  have hstate : getF s F.PWR_STATUS_WARN = 0 ∨ getF s F.PWR_STATUS_WARN = 1 := by omega
  rcases hstate with hoff | hon
  · rcases le_or_gt (signed 16 (getF s F.PWR_TWARN_TEMP)) top with h | h
    · exact .inl (warnJudged_rise hoff h)
    · exact .inr (.inr (warnJudged_cool hoff h))
  · rcases le_or_gt top (signed 16 (getF s F.PWR_TWARN_TEMP) - 80) with h | h
    · exact .inr (.inl (warnJudged_clear hon h))
    · exact .inr (.inr (warnJudged_hot hon h))

theorem getF_warnJudged_tmax : getF (warnJudged s temps top) F.PWR_STATUS_TMAX = getF s F.PWR_STATUS_TMAX := by
  have hset : ∀ b, getF (setFB s F.PWR_STATUS_WARN b) F.PWR_STATUS_TMAX = getF s F.PWR_STATUS_TMAX := fun b =>
    getF_setF_apart _ _ _ _ (by decide) (by decide) (by decide)
  rcases @warnJudged_cases s temps top with h | h | h <;> rw [h]
  · rw [getF_warnRaised (by decide) (by decide), hset]
  · exact hset false

theorem getR_warnJudged_temp {k : Nat} (hk : k < 8) :
    getR (warnJudged s temps top) (Reg.PWR_TEMP + 4 * k) = getR s (Reg.PWR_TEMP + 4 * k) := by
  have haway : ∀ {a}, a < Reg.PWR_TEMP ∨ Reg.PWR_TEMP + 32 ≤ a → Reg.PWR_TEMP + 4 * k ≠ a := by omega
  rcases @warnJudged_cases s temps top with h | h | h <;> rw [h]
  · exact getR_warnRaised_other (haway (.inr (by decide))) (haway (.inr (by decide))) (haway (.inl (by decide)))
  · exact getR_setF_ne _ _ _ (haway (.inl (by decide)))

/-- Without a rise the sample reports nothing. -/
theorem warnJudged_quiet (h : getF s F.PWR_STATUS_WARN = 1 ∨ top < signed 16 (getF s F.PWR_TWARN_TEMP)) :
    (warnJudged s temps top).log = s.log ∧ (warnJudged s temps top).ccp = s.ccp := by
  unfold warnJudged
  extract_lets warn
  split
  next hoff => rw [if_neg (by omega)]; exact ⟨rfl, rfl⟩
  next => split <;> exact ⟨rfl, rfl⟩

theorem getF_warn_raised : getF (warnRaised s temps top) F.PWR_STATUS_WARN = 1 :=
  (getF_warnRaised (by decide) (by decide)).trans (getF_setFB_same _ _ true rfl (by decide))

end

theorem exec_thermalSample (s : State) (temps : List Int) : exec (.thermalSample temps) s = .next (thermalSample s temps) := rfl

/-- Settles O49: the readings are shown, WARN is judged by its four cases, and the trip cools. -/
theorem thermalWarning : Obligations.ThermalWarning := by
  unfold Obligations.ThermalWarning
  intro s t0 t1 t2 t3 t4 t5 t6 t7 k xo test temps top warn on
  refine ⟨?_, _, rfl, getF_twarn_deviceReset s 1 xo test⟩
  have hmem : top ∈ temps := max_eight_mem t0 t1 t2 t3 t4 t5 t6 t7
  have hflag := getF_flag_lt s F.PWR_STATUS_WARN rfl
  let u := sampleShown s temps top
  have hoff : ¬ on → getF u F.PWR_STATUS_WARN = 0 := fun h => (getF_sampleShown_warn s temps top).trans (by omega)
  have hon : on → getF u F.PWR_STATUS_WARN = 1 := fun h => (getF_sampleShown_warn s temps top).trans h
  have hwarn : signed 16 (getF u F.PWR_TWARN_TEMP) = warn := congrArg (signed 16) (getF_sampleShown_twarn s temps top)
  obtain ⟨hlog, hccp⟩ := sampleShown_log s temps top
  have hcount : getR u Reg.PWR_WARNCNT = getR s Reg.PWR_WARNCNT :=
    getR_sampleShown_other s temps top (by decide) (.inr (by simp [temps, Reg.PWR_TEMP, Reg.PWR_WARNCNT]))
  have htemp : k < 8 → getR u (Reg.PWR_TEMP + 4 * k) = unsigned 16 (temps.getD k 0) := fun hk =>
    (getR_setF_ne _ _ _ (by simp only [Reg.PWR_TEMP, F.PWR_STATUS_TMAX]; omega)).trans (getR_tempsRead s temps hk)
  have hsample : thermalSample s temps = tripCooled (warnJudged u temps top) top := by
    rw [thermalSample_eq, foldl_max_eight]
    rfl
  have hframe : Reported s (warnJudged u temps top) := reported_warnJudged (reported_sampleShown s temps top)
  have hquiet : on ∨ top < warn → (warnJudged u temps top).log = s.log ∧ (warnJudged u temps top).ccp = s.ccp := fun h => by
    rw [← hlog, ← hccp]
    exact warnJudged_quiet (h.imp hon (hwarn ▸ ·))
  refine ⟨_, (exec_thermalSample s temps).trans (congrArg _ hsample), ?_⟩
  rw [tripCooled_eq]
  have hR : ∀ (w : State) p a, getR { w with pwr := p } a = getR w a := fun w p a => getR_congr _ _ a rfl
  have hF : ∀ (w : State) p f, getF { w with pwr := p } f = getF w f := fun w p f => getF_congr _ _ f rfl
  simp only [hR, hF]
  refine ⟨fun hk => (getR_warnJudged_temp hk).trans (htemp hk), getF_warnJudged_tmax.trans (getF_sampleShown_tmax s temps top),
    fun h hw => ?rise, fun h hw => ?clear, fun h hw => ?hot, fun h hw => ?cool, hquiet, ?frame⟩
  case rise =>
    rw [warnJudged_rise (hoff h) (hwarn ▸ hw)]
    refine ⟨getF_warn_raised, getR_warnRaised_count.trans (by rw [hcount]), bit_warnRaised, fun hroom => ?_⟩
    have hevent := warnRaised_log (temps := temps) (by rwa [hlog]) (le_refl 8) hmem
    rwa [hlog] at hevent
  case clear =>
    rw [warnJudged_clear (hon h) (hwarn ▸ hw)]
    exact getF_setFB_same u _ false rfl (by decide)
  case hot =>
    rw [warnJudged_hot (hon h) (hwarn ▸ hw)]
    exact hon h
  case cool =>
    rw [warnJudged_cool (hoff h) (hwarn ▸ hw)]
    exact getF_sampleShown_warn s temps top
  case frame => rw [hframe.same]

end Sys2Proof.Machine
end

section
/-! PROOF. O47: the script log recorder (R477 to R480, R482, R485). -/

namespace Sys2Proof.Machine

open Sys2Proof

/-! Writing a record: each way it can go. -/

@[simp] theorem setRun_recs (l : LogSt) (c : Nat) (run : Option Nat) (q : Nat) : (setRun l c run q).recs = l.recs := by
  cases run <;> rfl

@[simp] theorem setRun_spill (l : LogSt) (c : Nat) (run : Option Nat) (q : Nat) : (setRun l c run q).spill = l.spill := by
  cases run <;> rfl

@[simp] theorem setRun_head (l : LogSt) (c : Nat) (run : Option Nat) (q : Nat) : (setRun l c run q).head = l.head := by
  cases run <;> rfl

@[simp] theorem setRun_full (l : LogSt) (c : Nat) (run : Option Nat) (q : Nat) : (setRun l c run q).full = l.full := by
  cases run <;> rfl

@[simp] theorem setRun_lost (l : LogSt) (c : Nat) (run : Option Nat) (q : Nat) : (setRun l c run q).lost = l.lost := by
  cases run <;> rfl

@[simp] theorem setRun_none (l : LogSt) (c q : Nat) : setRun l c none q = l := rfl

@[simp] theorem dropRun_recs (l : LogSt) (c : Nat) (run : Option Nat) : (dropRun l c run).recs = l.recs := by cases run <;> rfl
@[simp] theorem dropRun_full (l : LogSt) (c : Nat) (run : Option Nat) : (dropRun l c run).full = l.full := by cases run <;> rfl
@[simp] theorem dropRun_lost (l : LogSt) (c : Nat) (run : Option Nat) : (dropRun l c run).lost = l.lost := by cases run <;> rfl

section
variable {s : State} {r : LogRec} {run : Option Nat}

/-- The record as it is written: it takes the next SEQ (R475, R477). -/
def filledRec (s : State) (r : LogRec) : LogRec :=
  { r with seq := s.log.head, hours := (getR s Reg.LOG_HOURS + r.hours) % 2 ^ 32, pcyc := getF s F.LOG_PCYC_PCYC, gap := s.log.gap }

theorem writeRec_lost (h : (s.log.failed = true ∧ 8 ≤ s.log.spill.length) ∨ (s.log.failed = false ∧ s.log.full = true)) :
    writeRec s r run = { s with log := dropRun { s.log with lost := satAdd 32 s.log.lost 1 } r.code run } := by
  rcases h with ⟨hf, hfull⟩ | ⟨hf, hfull⟩
  · exact (if_pos hf).trans (if_neg (by omega))
  · exact (if_neg (by simp [hf])).trans (if_pos hfull)

theorem writeRec_spill (hf : s.log.failed = true) (h : s.log.spill.length < 8) :
    (writeRec s r run).log = setRun { s.log with
      spill := s.log.spill ++ [{ filledRec s r with spill := true }], head := (s.log.head + 1) % 2 ^ 32, gap := false }
      r.code run s.log.head := by
  simp only [writeRec, hf, if_true, if_pos h, raise_log]
  rfl

theorem writeRec_last (hf : s.log.failed = false) (hn : s.log.full = false) (h : 8191 ≤ s.log.recs.length) :
    ∃ f : LogRec, f.code = 0x1301 ∧ f.seq = s.log.head ∧ (writeRec s r run).log = dropRun { s.log with
      recs := s.log.recs ++ [f], head := (s.log.head + 1) % 2 ^ 32, gap := false, full := true, lost := satAdd 32 s.log.lost 1 }
      r.code run := by
  refine ⟨{ filledRec s r with code := 0x1301, payload := pay [(2, (r.code : Int)), frameF r.frame] }, rfl, rfl, ?_⟩
  simp only [writeRec, hf, hn, Bool.false_eq_true, if_false, ge_iff_le, if_pos h, raise_log, slotWritten_log]
  rfl

theorem writeRec_next (hf : s.log.failed = false) (hn : s.log.full = false) (h : s.log.recs.length < 8191) :
    (writeRec s r run).log = setRun { s.log with
      recs := s.log.recs ++ [filledRec s r], head := (s.log.head + 1) % 2 ^ 32, gap := false } r.code run s.log.head := by
  simp only [writeRec, hf, hn, Bool.false_eq_true, if_false, ge_iff_le, if_neg (not_le.2 h), raise_log, slotWritten_log]
  rfl

end

/-! Events (R478, R479). -/

theorem pushEvent_room {s : State} {e : LogEvent} (h : eventsWaiting s.log < 256) :
    (pushEvent s e).log = { s.log with queue := s.log.queue ++ [e] } := congrArg State.log (if_pos h)

/-- An event that finds the queue full is lost, and with it the run it would have opened. -/
theorem pushEvent_full {s : State} {e : LogEvent} (h : 256 ≤ eventsWaiting s.log) :
    (pushEvent s e).log = { s.log with
      lost := satAdd 32 s.log.lost 1, gap := true,
      lostRuns := (if e.first then e.run.toList.map (e.code, ·) else []) ++ s.log.lostRuns } := by
  rw [pushEvent, if_neg (not_lt.2 h)]
  cases e.run <;> cases e.first <;> rfl

/-- An event like the last record's adds to that record. -/
theorem writeEvent_repeat {s : State} {e : LogEvent} {r : LogRec} (hs : s.log.started = true) (hc : e.code ≠ 0x1302) (hrun : e.run = none)
    (hlast : lastRec s.log = some r) (hcode : r.code = e.code) (hpay : r.payload = e.payload) (hinj : s.fab.inj = []) :
    (writeEvent s e).log = bumpRec s.log r.seq := by
  have hrep : repeatOf s.log e = some r.seq := by simp [repeatOf, hrun, hlast, hcode, hpay]
  have hbump : writeEvent s e = bumpEvent s e r.seq := by simp only [writeEvent, if_neg hc, if_pos hs, hrep]
  rw [hbump, bumpEvent, hrun]
  split
  · rfl
  · simp only [eccRead_none _ _ _ _ _ hinj, slotWritten_log, Bool.false_eq_true, if_false, setRun_none]

/-! The read window (R482, R488). -/

section
variable (s : State)

theorem setShown_log (a v : Nat) : (setShown s a v).log = s.log := rfl

/-- The words of the window, one after the other. -/
theorem getR_showWords (w : List Nat) (n a : Nat) :
    getR ((List.range n).foldl (fun s i => setShown s (Reg.LOG_RDDATA + 4 * i) (w.getD i 0)) s) a =
      if Reg.LOG_RDDATA ≤ a ∧ a < Reg.LOG_RDDATA + 4 * n ∧ a % 4 = 0 then w.getD ((a - Reg.LOG_RDDATA) / 4) 0 % 2 ^ 32 else getR s a := by
  induction n with
  | zero =>
    rw [if_neg (by omega)]
    rfl
  | succ n ih =>
    rw [List.range_succ, List.foldl_append, List.foldl_cons, List.foldl_nil]
    change getR (setR _ _ _) a = _
    rw [getR_setR, ih]
    have hb : Reg.LOG_RDDATA % 4 = 0 := rfl
    by_cases he : a = Reg.LOG_RDDATA + 4 * n
    · rw [if_pos he, if_pos (by omega)]
      congr 2
      omega
    · rw [if_neg he]
      by_cases hin : Reg.LOG_RDDATA ≤ a ∧ a < Reg.LOG_RDDATA + 4 * n ∧ a % 4 = 0
      · rw [if_pos hin, if_pos (by omega)]
      · rw [if_neg hin, if_neg (by omega)]

theorem showRecord_log (r : Option LogRec) : (showRecord s r).log = s.log := by
  unfold showRecord
  extract_lets w shown
  generalize List.range 16 = places
  exact foldl_keeps (fun t : State => t.log) _ (fun t i => setShown_log t _ _) places shown

/-- The window shows a record that reads, and says so. -/
theorem getR_showRecord_some {r : LogRec} (hr : r.bad = false) (a : Nat) : getR (showRecord s (some r)) a =
    if Reg.LOG_RDDATA ≤ a ∧ a < Reg.LOG_RDDATA + 64 ∧ a % 4 = 0 then (recWords r).getD ((a - Reg.LOG_RDDATA) / 4) 0 % 2 ^ 32
    else if a = Reg.LOG_RDSTAT then 1 else getR s a := by
  have hshow : showRecord s (some r) = (List.range 16).foldl
      (fun s i => setShown s (Reg.LOG_RDDATA + 4 * i) ((recWords r).getD i 0)) (setShown s Reg.LOG_RDSTAT 1) := by
    simp only [showRecord, hr, Bool.false_eq_true, if_false]
    rfl
  rw [hshow, getR_showWords]
  congr 1
  exact getR_setR s _ _ _

theorem getR_showRecord_none : getR (showRecord s none) Reg.LOG_RDSTAT = 0 := by
  have hshow : showRecord s none = (List.range 16).foldl
      (fun s i => setShown s (Reg.LOG_RDDATA + 4 * i) (([] : List Nat).getD i 0)) (setShown s Reg.LOG_RDSTAT 0) := rfl
  rw [hshow, getR_showWords, if_neg (by decide)]
  exact getR_setR_same s _ _

theorem logFetch_none {q : Nat} (h : findRec s.log q = none) : logFetch s q = (none, s) := by
  simp only [logFetch, h]

/-- With no damaged codeword a record reads as it stands. -/
theorem logFetch_some {q : Nat} {r : LogRec} (h : findRec s.log q = some r) (hr : r.bad = false) (hinj : s.fab.inj = []) :
    logFetch s q = (some r, s) := by
  simp only [logFetch, h, eccRead_none _ _ _ _ _ hinj, hr, Bool.or_self, Bool.false_eq_true, if_false, ite_self]

end

theorem exec_logRdseqSelect (s : State) (v : Nat) : exec (.logRdseqSelect v) s = .next (rdSelect s v) := rfl

theorem rdSelect_found {s : State} {v : Nat} {r : LogRec} (h : findRec s.log (v % 2 ^ 32) = some r) (hr : r.bad = false)
    (hinj : s.fab.inj = []) : rdSelect s v = showRecord (setR s Reg.LOG_RDSEQ v) (some r) := by
  simp only [rdSelect, logFetch_some (setR s Reg.LOG_RDSEQ v) h hr hinj]

theorem rdSelect_absent {s : State} {v : Nat} (h : findRec s.log (v % 2 ^ 32) = none) :
    rdSelect s v = showRecord (setR s Reg.LOG_RDSEQ v) none := by
  simp only [rdSelect, logFetch_none (setR s Reg.LOG_RDSEQ v) h]

/-- Settles O47: a record by the way it goes, an event by the room it finds, the window by what the read finds. -/
theorem logRecorder : Obligations.LogRecorder := by
  unfold Obligations.LogRecorder
  intro s r run e v l filled t loses once
  refine ⟨fun hf hn h => ?next, fun hf hn h => ?last, fun hf hfull => writeRec_lost (.inr ⟨hf, hfull⟩), fun hf h => ?spill,
    fun hf h => writeRec_lost (.inl ⟨hf, h⟩), pushEvent_room, pushEvent_full, fun hs hc hrun hlast hcode hpay hinj => ?same,
    fun hinj hfind hr => ?shown, fun hfind => ?absent⟩
  case next =>
    have ht : t = _ := writeRec_next hf hn h
    rw [ht]
    exact ⟨setRun_recs _ _ _ _, setRun_head _ _ _ _, (setRun_full _ _ _ _).trans hn, setRun_lost _ _ _ _⟩
  case last =>
    obtain ⟨f, hcode, hseq, ht⟩ := writeRec_last (r := r) (run := run) hf hn h
    have ht : t = _ := ht
    rw [ht]
    exact ⟨dropRun_full _ _ _, dropRun_lost _ _ _, f, dropRun_recs _ _ _, hcode, hseq⟩
  case spill =>
    have ht : t = _ := writeRec_spill hf h
    rw [ht]
    exact ⟨setRun_recs _ _ _ _, setRun_spill _ _ _ _⟩
  case same =>
    rw [writeEvent_repeat hs hc hrun hlast hcode hpay hinj]
    rfl
  case shown =>
    have hword := getR_showRecord_some (setR s Reg.LOG_RDSEQ v) hr
    refine ⟨_, (exec_logRdseqSelect s v).trans (congrArg _ (rdSelect_found hfind hr hinj)), showRecord_log _ _, ?_, ?_, fun i hi => ?_⟩
    · rw [hword, if_neg (by decide), if_neg (by decide), getR_setR_same]
    · rw [hword, if_neg (by decide), if_pos rfl]
    · have hb : Reg.LOG_RDDATA % 4 = 0 := rfl
      rw [hword, if_pos (by omega), Nat.add_sub_cancel_left, Nat.mul_div_cancel_left i (by decide)]
  case absent =>
    exact ⟨_, (exec_logRdseqSelect s v).trans (congrArg _ (rdSelect_absent hfind)), showRecord_log _ _, getR_showRecord_none _⟩

end Sys2Proof.Machine
end

section
/-! SUPPORT. Commands that need power; signed fields of registers. -/

namespace Sys2Proof.Machine

open Sys2Proof

/-- A command that needs power acts while there is some. -/
theorem exec_powered {i : Instr} {s : State} {f : State → State} (on : powered s = true) (h : exec i s = .next (whilePowered s f)) :
    exec i s = .next (f s) := h.trans (congrArg _ (whilePowered_on on f))

theorem unsigned_of_nonneg {w : Nat} {x : Int} (h0 : 0 ≤ x) (h : x < (2 ^ w : Nat)) : unsigned w x = x.toNat := by
  rw [unsigned, Int.emod_eq_of_lt h0 h]

theorem unsigned_of_neg {w : Nat} {x : Int} (h0 : x < 0) (h : -(2 ^ w : Nat) ≤ x) : unsigned w x = (x + (2 ^ w : Nat)).toNat := by
  rw [unsigned, ← Int.add_emod_right, Int.emod_eq_of_lt (by omega) (by omega)]

/-- A field holds a value of its range with its sign. -/
theorem signed_unsigned {w : Nat} {x : Int} (lo : -(2 ^ w : Nat) ≤ x) (hi : x < (2 ^ w : Nat)) :
    signed (w + 1) (unsigned (w + 1) x) = x := by
  have hpow : 2 ^ (w + 1) = 2 * 2 ^ w := by rw [pow_succ, mul_comm]
  have hu := unsigned_lt (w + 1) x
  simp only [signed, Nat.add_sub_cancel, Nat.mod_eq_of_lt hu]
  rcases lt_or_ge x 0 with hneg | hpos
  · rw [unsigned_of_neg hneg (by omega), if_neg (by omega)]
    push_cast [hpow] at lo ⊢
    omega
  · rw [unsigned_of_nonneg hpos (by omega), if_pos (by omega)]
    omega

/-- A signed field reads within its range. -/
theorem signed_range (w v : Nat) : -(2 ^ w : Nat) ≤ signed (w + 1) v ∧ signed (w + 1) v < (2 ^ w : Nat) := by
  have hpow : 2 ^ (w + 1) = 2 * 2 ^ w := by rw [pow_succ, mul_comm]
  have hv : v % 2 ^ (w + 1) < 2 ^ (w + 1) := Nat.mod_lt _ (Nat.two_pow_pos _)
  simp only [signed, Nat.add_sub_cancel]
  split
  · omega
  · have hcast : (2 : Int) ^ (w + 1) = ((2 * 2 ^ w : Nat) : Int) := by push_cast; rw [pow_succ, mul_comm]
    rw [hcast]
    omega

end Sys2Proof.Machine
end

section
/-! PROOF. O31: refresh, tracking, row hammer, power-down and self-refresh (R410, R417 to R422). -/

namespace Sys2Proof.Machine

open Sys2Proof

/-! The commands of the maintenance, each with the function it runs. -/

theorem exec_refresh (s : State) : exec .refresh s = .next (whilePowered s fun s => dramRefresh s) := rfl
theorem exec_wckDqOscillatorRead (counts : List Nat) (s : State) :
    exec (.wckDqOscillatorRead counts) s = .next (whilePowered s fun s => oscRead s counts) := rfl
theorem exec_mr4Poll (rates : List (Nat × Bool)) (s : State) :
    exec (.mr4Poll rates) s = .next (whilePowered s fun s => mr4Poll s rates) := rfl
theorem exec_rowHammerRefresh (bank row : Nat) (s : State) :
    exec (.rowHammerRefresh bank row) s = .next (whilePowered s fun s => rhRefresh s bank row) := rfl
theorem exec_rowHammerTableClear (s : State) :
    exec .rowHammerTableClear s = .next (whilePowered s fun s => { s with dram := { s.dram with rh := [] } }) := rfl
theorem exec_powerDownEntry (rank : Nat) (s : State) :
    exec (.powerDownEntry rank) s = .next (whilePowered s fun s => powerDown s rank) := rfl
theorem exec_selfRefreshEntry (issued : Bool) (s : State) :
    exec (.selfRefreshEntry issued) s = .next (whilePowered s fun s => selfRefresh s issued) := rfl

/-! Refresh (R417, R421). -/

theorem dramRefresh_out {s : State} (h : s.dram.selfRef = .out) : dramRefresh s = { s with dram := { s.dram with open_ := [], pd := 0 } } := by
  unfold dramRefresh
  split
  · rfl
  · rfl
  next hout _ => exact absurd h hout

theorem dramRefresh_asleep {s : State} (h : s.dram.selfRef = .in_) : dramRefresh s = s := by
  simp only [dramRefresh, h]

/-! Tracking (R410). -/

/-- The next value of a lane's tracking: one step towards the drift, which is limited to 32 steps. -/
def trackStep (s : State) (l n : Nat) : Int :=
  let t := signed 8 (getF s (F.MEM_LANE2_TRACK.plus (16 * l)))
  let goal := clampI (-32) 32 (driftOf n (s.dram.n0.getD l 0))
  if t < goal then t + 1 else if goal < t then t - 1 else t

theorem clampI_between {lo hi : Int} (h : lo ≤ hi) (x : Int) : lo ≤ clampI lo hi x ∧ clampI lo hi x ≤ hi := by
  unfold clampI
  split
  · omega
  · split <;> omega

theorem trackStep_range (s : State) (l n : Nat) : -(2 ^ 7 : Nat) ≤ trackStep s l n ∧ trackStep s l n < (2 ^ 7 : Nat) := by
  have ht : _ ≤ signed 8 (getF s (F.MEM_LANE2_TRACK.plus (16 * l))) ∧ signed 8 (getF s (F.MEM_LANE2_TRACK.plus (16 * l))) < _ :=
    signed_range 7 _
  have hg := clampI_between (by decide : (-32 : Int) ≤ 32) (driftOf n (s.dram.n0.getD l 0))
  unfold trackStep
  dsimp only
  split
  · omega
  · split <;> omega

/-- A lane's count, its drift and its tracking: the field holds the next value, whatever is counted and reported beside it. -/
theorem track_trackLane (s : State) {l : Nat} (hl : l < 8) (n : Nat) :
    signed 8 (getF (trackLane s l n) (F.MEM_LANE2_TRACK.plus (16 * l))) = trackStep s l n := by
  have hrange := trackStep_range s l n
  have hstored : ∀ u : State, signed 8 (getF (setF u (F.MEM_LANE2_TRACK.plus (16 * l)) (unsigned 8 (trackStep s l n)))
      (F.MEM_LANE2_TRACK.plus (16 * l))) = trackStep s l n := fun u => by
    have hfield : getF (setF u (F.MEM_LANE2_TRACK.plus (16 * l)) (unsigned 8 (trackStep s l n))) (F.MEM_LANE2_TRACK.plus (16 * l)) =
        unsigned 8 (trackStep s l n) :=
      (getF_setF_same u (F.MEM_LANE2_TRACK.plus (16 * l)) _ (Nat.zero_le 7) (Nat.lt_of_sub_eq_succ rfl : 7 < 32)).trans
        (Nat.mod_eq_of_lt (unsigned_lt 8 _))
    rw [hfield]
    exact signed_unsigned hrange.1 hrange.2
  have hadj : F.MEM_LANE2_TRACK.addr + 16 * l ≠ Reg.MEM_DRIFTADJ := by simp only [F.MEM_LANE2_TRACK, Reg.MEM_DRIFTADJ]; omega
  have hint : F.MEM_LANE2_TRACK.addr + 16 * l ≠ Reg.MEM_INTSTAT := by simp only [F.MEM_LANE2_TRACK, Reg.MEM_INTSTAT]; omega
  unfold trackLane
  extract_lets f t goal t' shown counted warned
  have ht' : t' = trackStep s l n := rfl
  have hshown : signed 8 (getF shown f) = trackStep s l n := by
    rw [← ht']
    exact hstored _
  have hcounted : getF counted f = getF shown f := by
    unfold counted
    split
    · rfl
    · exact getF_addCtr_ne _ _ _ _ hadj
  have hwarned : getF warned f = getF counted f := by
    unfold warned
    split
    · rw [getF_raise_ne _ _ _ _ _ rfl hint, getF_logEv]
    · rfl
  rw [← hshown, ← hcounted, ← hwarned]
  split <;> rfl

theorem oscRead_idle {s : State} (h : s.dram.fsp ≠ 0 ∨ s.dram.ready = false) (counts : List Nat) : oscRead s counts = s :=
  if_pos (h.imp id (by simp [·]))

theorem oscRead_one {s : State} (h0 : s.dram.fsp = 0) (hr : s.dram.ready = true) (n : Nat) : oscRead s [n] = trackLane s 0 n :=
  if_neg (by simp [h0, hr])

/-! Refresh rates (R418). -/

theorem mr4Poll_cool {s : State} {rates : List (Nat × Bool)} (h : rates.all (fun r => !r.2) = true) :
    mr4Poll s rates = { s with dram := { s.dram with hotRef := false } } := by
  have hnone : rates.zipIdx.find? (fun r => r.1.2) = none := List.find?_eq_none.2 fun x hx => by
    simpa using List.all_eq_true.1 h x.1 (List.fst_mem_of_mem_zipIdx hx)
  simp only [mr4Poll, hnone]

theorem mr4Poll_hot {s : State} {rates : List (Nat × Bool)} (h : rates.any (·.2) = true) : (mr4Poll s rates).dram.hotRef = true := by
  obtain ⟨x, hx, hhot⟩ := List.any_eq_true.1 h
  obtain ⟨i, hi⟩ := List.mem_iff_getElem?.1 hx
  have hsome : (rates.zipIdx.find? fun r => r.1.2).isSome = true :=
    List.find?_isSome.2 ⟨(x, i), List.mk_mem_zipIdx_iff_getElem?.2 hi, hhot⟩
  obtain ⟨y, hy⟩ := Option.isSome_iff_exists.1 hsome
  simp only [mr4Poll, hy]
  split
  · assumption
  · rw [raise_dram, logEv_dram]

/-! Row hammer (R419). -/

/-- The entry whose neighbours are refreshed, counted from zero again, and its bank without an open row. -/
theorem rhRefresh_due {s : State} {bank row : Nat} (h : s.dram.rhDue.contains (bank, row) = true) :
    rhRefresh s bank row = addCtr { s with dram := { s.dram with
      rhDue := s.dram.rhDue.filter (· != (bank, row))
      open_ := s.dram.open_.filter (·.1 != bank)
      rh := s.dram.rh.map fun e => if e.bank = bank ∧ e.row = row then { e with count := 0 } else e } } Reg.MEM_RHREF 1 :=
  if_neg (by simpa using h)

/-! Power-down and self-refresh (R420 to R422). -/

theorem powerDown_off {s : State} (h : getF s F.MEM_PDTIMER_CK = 0) (rank : Nat) : powerDown s rank = s := if_pos (.inl h)

theorem powerDown_idle {s : State} {rank : Nat} (hck : getF s F.MEM_PDTIMER_CK ≠ 0) (hreq : s.dram.reqs = []) (hopen : s.dram.open_ = [])
    (hrank : rank < dramRanks s) (hready : s.dram.ready = true) (hself : s.dram.selfRef = .out) :
    powerDown s rank = { s with dram := { s.dram with pd := s.dram.pd ||| 2 ^ rank } } :=
  if_neg (by simp [hck, hreq, hopen, hrank, hready, hself])

theorem selfRefresh_kept {s : State} (h : getF s F.MEM_SRCTRL_IDLE = 0 ∨ takePresent s = true) (issued : Bool) : selfRefresh s issued = s :=
  if_pos (h.imp id .inl)

theorem selfRefresh_due {s : State} (hidle : getF s F.MEM_SRCTRL_IDLE ≠ 0) (htake : takePresent s = false) (htr : s.dram.training = none)
    (hch : s.dram.change = none) (hreq : s.dram.reqs = []) (hready : s.dram.ready = true) :
    (s.dram.selfRef = .out → selfRefresh s false = { s with dram := { s.dram with selfRef := .entering } }) ∧
    (s.dram.selfRef = .entering → selfRefresh s true = { s with dram := { s.dram with selfRef := .in_, open_ := [], pd := 0 } }) := by
  have hmay : ¬ (getF s F.MEM_SRCTRL_IDLE = 0 ∨ takePresent s ∨ s.dram.training.isSome ∨ s.dram.change.isSome ∨ s.dram.reqs ≠ [] ∨
      !s.dram.ready) := by simp [hidle, htake, htr, hch, hreq, hready]
  refine ⟨fun h => ?_, fun h => ?_⟩ <;> simp only [selfRefresh, if_neg hmay, h]

/-- Settles O31: each command of the maintenance by its own branches. -/
theorem dramMaintenance : Obligations.DramMaintenance := by
  unfold Obligations.DramMaintenance
  intro s counts rank bank row rates on d with_
  refine ⟨fun h => ?_, fun h => ?_, fun h => ?_, fun h0 hr => ⟨_, ?_, track_trackLane s (by decide : 0 < 8) rank⟩, fun h => ?_,
    fun h => ⟨_, exec_powered on (exec_mr4Poll rates s), mr4Poll_hot h⟩, fun h => ⟨_, (exec_powered on (exec_rowHammerRefresh bank row s)).trans (congrArg _ (rhRefresh_due h)), rfl, rfl, rfl⟩,
    exec_powered on (exec_rowHammerTableClear s), fun h => ?_, fun hck hreq hopen hrank hready hself => ?_, fun h => ⟨?_, ?_⟩,
    fun hidle htake htr hch hreq hready => ⟨fun h => ?_, fun h => ?_⟩⟩
  · exact (exec_powered on (exec_refresh s)).trans (congrArg _ (dramRefresh_out h))
  · exact (exec_powered on (exec_refresh s)).trans (congrArg _ (dramRefresh_asleep h))
  · exact (exec_powered on (exec_wckDqOscillatorRead counts s)).trans (congrArg _ (oscRead_idle h counts))
  · exact (exec_powered on (exec_wckDqOscillatorRead [rank] s)).trans (congrArg _ (oscRead_one h0 hr rank))
  · exact (exec_powered on (exec_mr4Poll rates s)).trans (congrArg _ (mr4Poll_cool h))
  · exact (exec_powered on (exec_powerDownEntry rank s)).trans (congrArg _ (powerDown_off h rank))
  · exact (exec_powered on (exec_powerDownEntry rank s)).trans (congrArg _ (powerDown_idle hck hreq hopen hrank hready hself))
  · exact (exec_powered on (exec_selfRefreshEntry false s)).trans (congrArg _ (selfRefresh_kept h false))
  · exact (exec_powered on (exec_selfRefreshEntry true s)).trans (congrArg _ (selfRefresh_kept h true))
  · exact (exec_powered on (exec_selfRefreshEntry false s)).trans (congrArg _ ((selfRefresh_due hidle htake htr hch hreq hready).1 h))
  · exact (exec_powered on (exec_selfRefreshEntry true s)).trans (congrArg _ ((selfRefresh_due hidle htake htr hch hreq hready).2 h))

end Sys2Proof.Machine
end

section
/-! PROOF. O28: training and frequency changes of the memory (R403, R407 to R409, R411, R412). -/

namespace Sys2Proof.Machine

open Sys2Proof

theorem fwExec_memRetrain (s : State) (ctx : Ctx) :
    fwExec s .memRetrain ctx = memTrain s (getF s F.MEM_TRAINCTRL_SETS) (some ctx) := if_neg (not_heldBack_open s)

theorem fwExec_memFsp (s : State) (t : Nat) (ctx : Ctx) : fwExec s (.memFsp t) ctx = fspRequest s t (some ctx) :=
  if_neg (not_heldBack_open s)

/-! Asking for a training (R403, R411). -/

section
variable {s : State} {sets : Nat} {ctx : Ctx}

theorem memTrain_refused (hs : dramSupported s = true)
    (h : takePresent s = true ∨ s.dram.training.isSome = true ∨ s.dram.change.isSome = true) :
    memTrain s sets (some ctx) = reply s ctx .notPermitted [] :=
  (if_pos (h.imp id .inr)).trans (by rw [if_pos hs])

theorem memTrain_unsupported (hs : dramSupported s = false) :
    memTrain s sets (some ctx) = reply (raise s 16 0) ctx .notPermitted [] :=
  (if_pos (.inr (.inl (by simp [hs])))).trans (by rw [if_neg (by simp [hs])]; rfl)

theorem memTrain_begins {c : Option Ctx} (ht : takePresent s = false) (hs : dramSupported s = true)
    (h : ¬ (s.dram.training.isSome = true ∨ s.dram.change.isSome = true)) :
    memTrain s sets c = { s with dram := { s.dram with training := some (sets % 4), trainCtx := c } } :=
  if_neg (by simpa [ht, hs] using h)

end

/-! Asking for a frequency change (R412). -/

section
variable {s : State} {t : Nat} {ctx : Option Ctx}

theorem fspRequest_take (h : takePresent s = true) : fspRequest s 1 ctx = fspStatus s .notPermitted ctx false :=
  if_pos ⟨rfl, h⟩

theorem fspRequest_busy (ht : takePresent s = false) (h : s.dram.change.isSome = true) :
    fspRequest s t ctx = fspStatus s .memBusy ctx false := (if_neg (by simp [ht])).trans (if_pos h)

theorem fspRequest_untrainable (ht : takePresent s = false) (hc : s.dram.change = none) (hne : t ≠ s.dram.fsp)
    (hb : bit s.dram.trained t = false) (hs : dramSupported s = false) :
    fspRequest s t ctx = fspStatus (raise s 16 0) .notPermitted ctx false :=
  (if_neg (by simp [ht])).trans ((if_neg (by simp [hc])).trans ((if_neg hne).trans (if_pos (by simp [hb, hs]))))

/-- The change that a request brings about: during a training it waits for the end of it. -/
def fspAsked (s : State) (t : Nat) (ctx : Option Ctx) : FspChange :=
  { target := t, deferred := s.dram.training.isSome, running := !s.dram.training.isSome, upto := s.dram.nextId, ctx := ctx }

theorem fspRequest_taken (ht : takePresent s = false) (hc : s.dram.change = none) (hne : t ≠ s.dram.fsp)
    (h : bit s.dram.trained t = true ∨ dramSupported s = true) :
    fspRequest s t ctx = if s.dram.training.isSome then
      addCtr { s with dram := { s.dram with change := some (fspAsked s t ctx) } } Reg.MEM_DEFER 1
      else { s with dram := { s.dram with change := some (fspAsked s t ctx) } } :=
  (if_neg (by simp [ht])).trans ((if_neg (by simp [hc])).trans ((if_neg hne).trans
    (if_neg (by rcases h with h | h <;> simp [h]))))

end

/-! The end of a training (R408, R409). -/

theorem dramWindows_dram (s : State) : (dramWindows s).dram = s.dram := by
  refine foldl_keeps (fun u : State => u.dram) _ (fun u m => ?_) _ s
  refine foldl_keeps (fun u : State => u.dram) _ (fun u t => ?_) _ u
  split <;> rfl

/-- The windows lie above the registers of the controller. -/
theorem getR_dramWindows (s : State) {a : Nat} (h : a < Reg.FAB_WIN0) : getR (dramWindows s) a = getR s a := by
  refine foldl_keeps (fun u : State => getR u a) _ (fun u m => ?_) _ s
  refine foldl_keeps (fun u : State => getR u a) _ (fun u t => ?_) _ u
  split
  · exact getR_setR_ne _ _ _ _ (by omega)
  · rfl

theorem setUsable_dram (s : State) : (setUsable s).dram = s.dram := dramWindows_dram _

/-- Without READY no byte is usable. -/
theorem usable_setUsable {s : State} (h : s.dram.ready = false) :
    getR64 (setUsable s) Reg.MEM_USABLE_LO Reg.MEM_USABLE_HI = 0 := by
  have hv : (if s.dram.ready then dramUsable s else 0) = 0 := if_neg (by simp [h])
  rw [getR64, setUsable, hv, getR_dramWindows _ (by decide), getR_dramWindows _ (by decide), setR64, getR_setR_same,
    getR_setR_ne _ _ _ _ (by decide), getR_setR_same]
  rfl

/-- What a training found, in the rows of the lanes (R408). -/
def trainRows (s : State) (fsp : Nat) (t : TrainSet) : State :=
  t.lanes.zipIdx.foldl (fun s x =>
    let f := fun (a b : Fld) => (if fsp = 0 then a else b).plus (16 * x.2)
    let s := setF (setF s (f F.MEM_LANE0_RDLY0 F.MEM_LANE0_RDLY1) (trainedOf x.1.rd).1) (f F.MEM_LANE0_WDLY0 F.MEM_LANE0_WDLY1)
      (trainedOf x.1.wr).1
    let s := setF (setF s (f F.MEM_LANE1_EYER0 F.MEM_LANE1_EYER1) (trainedOf x.1.rd).2) (f F.MEM_LANE1_EYEW0 F.MEM_LANE1_EYEW1)
      (trainedOf x.1.wr).2
    setF s (F.MEM_LANE2_TRACK.plus (16 * x.2)) 0) s

theorem trainRows_dram (s : State) (fsp : Nat) (t : TrainSet) : (trainRows s fsp t).dram = s.dram := by
  refine foldl_keeps (fun u : State => u.dram) _ (fun u x => ?_) _ s
  rfl

/-- The results of a set point as the controller then holds them. -/
def withResults (d : MemSt) (fsp : Nat) (t : TrainSet) : MemSt :=
  { d with trained := d.trained ||| 2 ^ fsp, retrain := false, n0 := if fsp = 0 then t.lanes.map (·.n0) else d.n0,
           n1 := if fsp = 0 then d.n1 else t.lanes.map (·.n0) }

theorem trainStore_dram (s : State) (fsp : Nat) (t : TrainSet) : (trainStore s fsp t).dram = withResults s.dram fsp t := by
  have h : (trainStore s fsp t).dram = withResults (trainRows s fsp t).dram fsp t := rfl
  rw [h, trainRows_dram]

section
variable {s : State} {b : TrainSet} {ms : Nat}

theorem trainApply_passed (h : (trainFails b).1 = 0) : (trainApply s [(0, b)] ms).dram.ready = bit (s.dram.trained ||| 1) s.dram.fsp ∧
    (trainApply s [(0, b)] ms).dram.trained = s.dram.trained ||| 1 ∧
    (trainApply s [(0, b)] ms).dram.training = s.dram.training ∧ (trainApply s [(0, b)] ms).dram.trainCtx = s.dram.trainCtx := by
  have hstep : trainApply s [(0, b)] ms = trainSets [] (trainStore (setF s F.MEM_TRAINSTAT_MS (min ms 65535)) 0 b) := by
    simp only [trainApply, trainSets, h]
    rfl
  have hend : (trainApply s [(0, b)] ms).dram =
      { (trainStore (setF s F.MEM_TRAINSTAT_MS (min ms 65535)) 0 b).dram with
        ready := bit (trainStore (setF s F.MEM_TRAINSTAT_MS (min ms 65535)) 0 b).dram.trained
          (trainStore (setF s F.MEM_TRAINSTAT_MS (min ms 65535)) 0 b).dram.fsp
        trainFail := false } := by
    rw [hstep, trainSets, setUsable_dram]
    rfl
  rw [hend, trainStore_dram]
  exact ⟨rfl, rfl, rfl, rfl⟩

theorem trainApply_failed (h : (trainFails b).1 ≠ 0) :
    (trainApply s [(0, b)] ms).dram = { s.dram with ready := false, trainFail := true, trained := andNot s.dram.trained 1 } ∧
    getR64 (trainApply s [(0, b)] ms) Reg.MEM_USABLE_LO Reg.MEM_USABLE_HI = 0 := by
  have hstep : trainApply s [(0, b)] ms = trainFail (setF s F.MEM_TRAINSTAT_MS (min ms 65535)) 0 b := by
    simp [trainApply, trainSets, h]
  rw [hstep]
  constructor
  · rw [trainFail, raise_dram, logEv_dram, setUsable_dram]
    rfl
  · have hkept : ∀ (u : State) p a, a ≠ Reg.MEM_INTSTAT → getR (raise (logEv u 0x1001 p) 16 6) a = getR u a := fun u p a ha => by
      rw [getR_raise_ne _ _ _ _ _ rfl ha, getR_logEv]
    rw [trainFail, getR64, hkept _ _ _ (by decide), hkept _ _ _ (by decide)]
    exact usable_setUsable rfl

end

theorem exec_memTrainingDone (a b : TrainSet) (ms : Nat) (s : State) :
    exec (.memTrainingDone a b ms) s = .next (trainingDone s a b ms) := rfl

theorem exec_memFspChangeDone (t : TrainSet) (ms : Nat) (s : State) : exec (.memFspChangeDone t ms) s = .next (fspDone s t ms) := rfl

theorem replyTo_dram (s : State) (ctx : Option Ctx) (st : Status) (payload : Bytes) : (replyTo s ctx st payload).dram = s.dram := by
  rw [(Sent.refl s).replyTo.same]

theorem fspStatus_dram (s : State) (st : Status) (ctx : Option Ctx) (done : Bool) : (fspStatus s st ctx done).dram = s.dram := by
  unfold fspStatus
  rw [replyTo_dram]
  split
  · rw [raise_dram]; rfl
  · rfl

/-- The training of FSP0 ends: what it found is applied, its interrupt raised, a deferred change starts, the reply goes out. -/
theorem trainingDone_fsp0 {s : State} (h : s.dram.training = some 1) (a b : TrainSet) (ms : Nat) :
    let t := trainApply { s with dram := { s.dram with training := none, trainCtx := none } } [(0, b)] ms
    (trainingDone s a b ms).dram = { t.dram with change := t.dram.change.map fun c => { c with running := true, upto := t.dram.nextId } } ∧
      (s.dram.trainCtx = none → ∀ r, r ≠ Reg.MEM_INTSTAT → getR (trainingDone s a b ms) r = getR t r) := by
  intro t
  have hb1 : bit 1 1 = false := rfl
  have hb0 : bit 1 0 = true := rfl
  have hdone : trainingDone s a b ms = replyTo { raise t 16 1 with dram := { (raise t 16 1).dram with
      change := (raise t 16 1).dram.change.map fun c => { c with running := true, upto := (raise t 16 1).dram.nextId } } }
      s.dram.trainCtx .ok [] := by
    simp only [trainingDone, h, hb1, hb0, Bool.false_eq_true, if_false, if_true, List.nil_append]
    rfl
  rw [hdone, replyTo_dram, raise_dram]
  refine ⟨rfl, fun hctx r hr => ?_⟩
  rw [hctx]
  exact getR_raise_ne t 16 1 _ r rfl hr

/-- A change ends: with the results of its target, the target is the set point in use. -/
theorem fspDone_trained {s : State} {c : FspChange} (hc : s.dram.change = some c) (hrun : c.running = true)
    (hb : bit s.dram.trained c.target = true) (hfree : ¬ (c.target = 1 ∧ takePresent s = true)) (t : TrainSet) (ms : Nat) :
    (fspDone s t ms).dram = { s.dram with change := none, selfRef := .out, pd := 0, open_ := [], fsp := c.target } := by
  simp only [fspDone, hc, hrun, Bool.not_true, Bool.false_eq_true, if_false, if_neg hfree, hb, if_true, fspStatus_dram]
  split
  · rw [logEv_dram]
  · rfl

/-- One to FSP1 ends where it began once a take stands. -/
theorem fspDone_refused {s : State} {c : FspChange} (hc : s.dram.change = some c) (hrun : c.running = true)
    (htarget : c.target = 1) (htake : takePresent s = true) (t : TrainSet) (ms : Nat) :
    (fspDone s t ms).dram = { s.dram with change := none, selfRef := .out, pd := 0, open_ := [] } := by
  simp only [fspDone, hc, hrun, Bool.not_true, Bool.false_eq_true, if_false, htarget, htake, and_self, if_true, fspStatus_dram]

/-- Settles O28: each request by what it finds, each end by what was found. -/
theorem memoryTrainingAndFsp : Obligations.MemoryTrainingAndFsp := by
  unfold Obligations.MemoryTrainingAndFsp
  intro s ctx t v ms a b d busy with_ able
  simp only [fwExec_memRetrain, fwExec_memFsp]
  refine ⟨fun h hs => memTrain_refused hs h, memTrain_unsupported, memTrain_begins, fspRequest_take, fspRequest_busy,
    fun ht hc hne hb hs => fspRequest_untrainable ht hc hne hb hs, fun ht hc hne h htr => ?deferred, fun ht hb hne h => ?begun, rfl, rfl,
    fun h => ?_, fun h hpass => ?passed, fun h hfail => ?failed, fun h => ?_, fun c hc hrun hb hfree => ?changed,
    fun c hc hrun htarget htake => ?kept⟩
  case deferred =>
    rw [fspRequest_taken ht hc hne h, if_pos htr, fspAsked, htr]
    rfl
  case begun =>
    have htr : s.dram.training.isSome = false := Bool.eq_false_iff.2 fun h => hb (.inl h)
    have hc : s.dram.change = none := Option.not_isSome_iff_eq_none.1 fun h => hb (.inr h)
    rw [fspRequest_taken ht hc hne h, if_neg (by simp [htr]), fspAsked, htr]
    rfl
  case passed =>
    obtain ⟨hready, htrained, htr, hctx⟩ := trainApply_passed (ms := ms)
      (s := { s with dram := { s.dram with training := none, trainCtx := none } }) hpass
    refine ⟨_, exec_memTrainingDone a b ms s, ?_⟩
    rw [(trainingDone_fsp0 h a b ms).1]
    exact ⟨hready, htr, hctx, htrained⟩
  case failed =>
    obtain ⟨hdram, husable⟩ := trainApply_failed (ms := ms)
      (s := { s with dram := { s.dram with training := none, trainCtx := none } }) hfail
    obtain ⟨hd, hregs⟩ := trainingDone_fsp0 h a b ms
    refine ⟨_, exec_memTrainingDone a b ms s, ?_⟩
    rw [hd, hdram]
    refine ⟨rfl, rfl, rfl, rfl, fun hctx => ?_⟩
    rw [getR64, hregs hctx _ (by decide), hregs hctx _ (by decide)]
    exact husable
  case changed =>
    refine ⟨_, exec_memFspChangeDone a ms s, ?_⟩
    rw [fspDone_trained hc hrun hb hfree]
    exact ⟨rfl, rfl⟩
  case kept =>
    refine ⟨_, exec_memFspChangeDone a ms s, ?_⟩
    rw [fspDone_refused hc hrun htarget htake]
    exact ⟨rfl, rfl, rfl⟩
  · exact (exec_memTrainingDone a b ms s).trans (by simp only [trainingDone, show s.dram.training = none from h])
  · exact (exec_memFspChangeDone a ms s).trans (by simp only [fspDone, show s.dram.change = none from h])

end Sys2Proof.Machine
end

section
/-! PROOF. O29: the address map of the DRAM, and a request that joins its queue (R405, R413, R414, R416, R420, R422, R434, R445). -/

namespace Sys2Proof.Machine

open Sys2Proof

/-! The address map (R405). -/

/-- Row, rank and bank give the row index back. -/
theorem dramW_injective {ranks a b : Nat} (hbank : dramBank a = dramBank b) (hrank : dramRank ranks a = dramRank ranks b)
    (hrow : dramRow ranks a = dramRow ranks b) : dramW a = dramW b := by
  simp only [dramRank, dramRow, ← Nat.div_div_eq_div_mul] at hrank hrow
  have hhigh : dramW a / 16 = dramW b / 16 := by
    rw [← Nat.div_add_mod (dramW a / 16) ranks, ← Nat.div_add_mod (dramW b / 16) ranks, hrank, hrow]
  have hlow : dramW a % 16 = dramW b % 16 := by
    rw [dramBank, dramBank, hhigh] at hbank
    exact Nat.xor_left_inj.1 hbank
  omega

theorem dramAddress_injective {ranks a b : Nat} (ha : 0x1000000000 ≤ a) (hb : 0x1000000000 ≤ b) (hchan : dramChan a = dramChan b)
    (hslot : dramSlot a = dramSlot b) (hbank : dramBank a = dramBank b) (hrank : dramRank ranks a = dramRank ranks b)
    (hrow : dramRow ranks a = dramRow ranks b) (hbyte : a % 256 = b % 256) : a = b := by
  have hw := dramW_injective hbank hrank hrow
  simp only [dramW, dramSlot, dramChan, dramBlock] at hw hslot hchan
  omega

/-! The windows of the fabric. -/

/-- Decoding goes by the registers of the windows alone. -/
theorem pageClosed_congr {s t : State} (h : ∀ a, Reg.FAB_WIN0 ≤ a → getR s a = getR t a) (m a : Nat) :
    pageClosed s m a = pageClosed t m a := by
  have hword : ∀ w j, winWord s m w j = winWord t m w j := fun w j => h _ (by omega)
  have hdecode : fabDecode s m a = fabDecode t m a := by simp only [fabDecode, winHits, hword]
  simp only [pageClosed, hdecode, hword]

/-! A request joins its queue. -/

theorem exec_dramRequest (q : DramIn) (s : State) : exec (.dramRequest q) s = .next (whilePowered s fun s => dramRequest s q) := rfl

section
variable {s : State} {q : DramIn}

/-- The bytes a request covers. -/
def reqLen (q : DramIn) : Nat := if !q.write.isEmpty then q.write.length else q.len

theorem reqLen_eq : (if q.write.isEmpty then q.len else q.write.length) = reqLen q := by
  unfold reqLen
  cases q.write.isEmpty <;> rfl

/-- The request as it stands in its queue. -/
def joining (s : State) (q : DramIn) : DramReq :=
  { id := s.dram.nextId, chan := dramChan q.addr, master := (dramPort s q.use).1, cls := dramClass q.use, native := dramClass q.use,
    head := false, addr := q.addr, write := q.write, len := reqLen q, closed := pageClosed s (dramPort s q.use).1 q.addr,
    due := q.deadline.map (fun f => (f : Int) + s.tl.z + s.tl.adj), use := q.use, at_ := q.at_, passed := 0, missed := false }

/-- Self-refresh ends for a request, and is counted (R422). -/
def wokenFor (s : State) : State :=
  match s.dram.selfRef with
  | .entering => addCtr { s with dram := { s.dram with selfRef := .out } } Reg.MEM_SRABORT 1
  | .in_ => addCtr { s with dram := { s.dram with selfRef := .out } } Reg.MEM_SRWAKE 1
  | _ => s

theorem wokenFor_cases (s : State) : (∃ c, c < Reg.FAB_WIN0 ∧ (s.dram.selfRef = .entering ∨ s.dram.selfRef = .in_) ∧
    wokenFor s = addCtr { s with dram := { s.dram with selfRef := .out } } c 1) ∨
    (s.dram.selfRef ≠ .entering ∧ s.dram.selfRef ≠ .in_ ∧ wokenFor s = s) := by
  unfold wokenFor
  cases h : s.dram.selfRef with
  | out => exact .inr ⟨by simp, by simp, rfl⟩
  | entering => exact .inl ⟨Reg.MEM_SRABORT, by decide, .inl rfl, rfl⟩
  | in_ => exact .inl ⟨Reg.MEM_SRWAKE, by decide, .inr rfl, rfl⟩
  | dark => exact .inr ⟨by simp, by simp, rfl⟩

/-- What wakes the DRAM leaves the windows, and with them the page hint. -/
theorem pageClosed_wokenFor (m a : Nat) : pageClosed (wokenFor s) m a = pageClosed s m a := by
  refine pageClosed_congr (fun x hx => ?_) m a
  rcases wokenFor_cases s with ⟨c, hc, -, h⟩ | ⟨-, -, h⟩ <;> rw [h]
  exact getR_addCtr_ne _ _ (by omega)

theorem wokenFor_kept (s : State) : (wokenFor s).tl = s.tl ∧ (wokenFor s).mem = s.mem ∧
    (wokenFor s).dram = { s.dram with selfRef := (wokenFor s).dram.selfRef } := by
  rcases wokenFor_cases s with ⟨c, -, -, h⟩ | ⟨-, -, h⟩ <;> rw [h]
  · exact ⟨rfl, rfl, rfl⟩
  · exact ⟨rfl, rfl, rfl⟩

/-- The request in the queue of its channel, with its rank out of power-down (R420). -/
def joined (s : State) (q : DramIn) : State :=
  { wokenFor s with dram := { (wokenFor s).dram with
      reqs := joinQueue s.dram.reqs (joining s q), nextId := s.dram.nextId + 1
      pd := andNot (wokenFor s).dram.pd (2 ^ dramRank (dramRanks (wokenFor s)) q.addr) } }

theorem dramRequest_none (h : reqLen q = 0 ∨ q.addr < 0x1000000000) : dramRequest s q = s := by
  unfold dramRequest
  dsimp only
  rw [reqLen_eq, if_pos (by simpa using h)]

theorem dramRequest_undecoded (hn : 0 < reqLen q) (ha : 0x1000000000 ≤ q.addr)
    (h : fabTarget s (dramPort s q.use).1 q.addr (reqLen q) (!q.write.isEmpty) ≠ some 0) :
    dramRequest s q = masterError (fabError s 0 (dramPort s q.use).1 (dramPort s q.use).2 q.addr) (dramPort s q.use).1
      (dramPort s q.use).2 q.addr := by
  unfold dramRequest
  dsimp only
  rw [reqLen_eq, if_neg (by simp; omega), if_pos h]

theorem dramRequest_joins (hn : 0 < reqLen q) (ha : 0x1000000000 ≤ q.addr)
    (h : fabTarget s (dramPort s q.use).1 q.addr (reqLen q) (!q.write.isEmpty) = some 0) : dramRequest s q = joined s q := by
  unfold dramRequest
  dsimp only
  rw [reqLen_eq, if_neg (by simp; omega), if_neg (not_not.2 h)]
  obtain ⟨htl, -, hdram⟩ := wokenFor_kept s
  have hnext : (wokenFor s).dram.nextId = s.dram.nextId := by rw [hdram]
  have hreqs : (wokenFor s).dram.reqs = s.dram.reqs := by rw [hdram]
  change { wokenFor s with dram := { (wokenFor s).dram with
    reqs := joinQueue (wokenFor s).dram.reqs { joining s q with
      id := (wokenFor s).dram.nextId, closed := pageClosed (wokenFor s) (dramPort s q.use).1 q.addr
      due := q.deadline.map fun f => (f : Int) + (wokenFor s).tl.z + (wokenFor s).tl.adj }
    nextId := (wokenFor s).dram.nextId + 1
    pd := andNot (wokenFor s).dram.pd (2 ^ dramRank (dramRanks (wokenFor s)) q.addr) } } = joined s q
  rw [hnext, hreqs, htl, pageClosed_wokenFor]
  rfl

end

/-- Settles O29: the map by its quotients and remainders, a request by what its window says. -/
theorem dramRequestQueues : Obligations.DramRequestQueues := by
  unfold Obligations.DramRequestQueues
  refine ⟨fun ranks a b _ ha hb hchan hslot hbank hrank hrow hbyte =>
    dramAddress_injective ha hb hchan hslot hbank hrank hrow hbyte, fun k c p j => ⟨rfl, rfl, rfl, rfl, rfl, rfl, rfl, rfl, rfl, rfl, rfl⟩,
    fun s q on => ?_⟩
  intro write n port d r lower queues
  have hexec : exec (.dramRequest q) s = .next (dramRequest s q) := exec_powered on (exec_dramRequest q s)
  refine ⟨fun h => hexec.trans (congrArg _ (dramRequest_none h)), fun hn ha h => hexec.trans (congrArg _ (dramRequest_undecoded hn ha h)),
    fun hn ha h => ⟨joined s q, hexec.trans (congrArg _ (dramRequest_joins hn ha h)), rfl, rfl, (wokenFor_kept s).2.1, fun hself => ?_,
      fun hself => ?_⟩⟩
  · rcases wokenFor_cases s with ⟨c, -, -, hw⟩ | ⟨hne, hni, -⟩
    · change (wokenFor s).dram.selfRef = .out
      rw [hw]
      rfl
    · exact (hself.elim hne hni).elim
  · change (wokenFor s).regs = s.regs
    have hself : s.dram.selfRef = .out := hself
    simp only [wokenFor, hself]

end Sys2Proof.Machine
end

section
/-! SUPPORT. A strobed write into the DRAM: every byte it leaves (R406). -/

namespace Sys2Proof.Machine

open Sys2Proof

/-- What a strobed write from a on has for a byte: nothing below it, and nothing where its strobe is clear. -/
def strobe (a : Nat) (w : List (Option Byte)) (p : Nat) : Option Byte := if a ≤ p then w.getD (p - a) none else none

theorem getD_wordCells (a : Nat) (w : List (Option Byte)) (c : Nat) {j : Nat} (hj : j < 16) :
    (wordCells a w c).getD j none = strobe a w (c + j) := by
  rw [wordCells, List.getD_eq_getElem?_getD, List.getElem?_map, List.getElem?_range hj]
  by_cases h : c + j < a
  · simp [strobe, h, not_le.2 h]
  · simp [strobe, h, not_lt.1 h]

theorem length_wordCells (a : Nat) (w : List (Option Byte)) (c : Nat) : (wordCells a w c).length = 16 := by simp [wordCells]

section
variable {s : State} {m src c : Nat} {w : List (Option Byte)}

/-- With no damaged codeword a byte reads as it stands in memory. -/
theorem readByte_sound (h : s.fab.inj = []) (a : Nat) : readByte s a = Memory.read s.mem a := by
  simp [readByte, ueByte, h]

theorem getD_mergeWord (h : s.fab.inj = []) {j : Nat} (hj : j < w.length) :
    (mergeWord s c w).getD j 0 = (w.getD j none).getD (Memory.read s.mem (c + j)) := by
  simp [mergeWord, hj, readByte_sound h]

/-- A word of a write changes memory and the count of merges, and damages no codeword. -/
theorem dramWord_kept (h : s.fab.inj = []) :
    (dramWord s m src c w).fab.inj = [] ∧ (dramWord s m src c w).rdata = s.rdata ∧ (dramWord s m src c w).dram = s.dram := by
  unfold dramWord
  split
  · exact ⟨h, rfl, rfl⟩
  · split
    · exact ⟨by simp [memWrite, h], rfl, rfl⟩
    · rw [eccRead_none _ _ _ _ _ h]
      exact ⟨by simp [memWrite, h, addCtr, setR], rfl, rfl⟩

theorem getD_of_noStrobe (h : ∀ x ∈ w, x = none) (j : Nat) : w.getD j none = none := by
  rw [List.getD_eq_getElem?_getD]
  cases hj : w[j]? with
  | none => rfl
  | some x => rw [h x (List.mem_of_getElem? hj)]; rfl

theorem getD_of_allStrobes (h : w.all (·.isSome) = true) {j : Nat} (hj : j < w.length) (old : Byte) :
    (w.map (·.getD 0)).getD j 0 = (w.getD j none).getD old := by
  obtain ⟨b, hb⟩ := Option.isSome_iff_exists.1 (List.all_eq_true.1 h _ (List.getElem_mem hj))
  simp [hj, hb]

/-- The bytes of its codeword are as its strobes say, every other byte as before. -/
theorem read_dramWord (h : s.fab.inj = []) (hw : w.length = 16) (p : Nat) : Memory.read (dramWord s m src c w).mem p =
    if c ≤ p ∧ p < c + 16 then (w.getD (p - c) none).getD (Memory.read s.mem p) else Memory.read s.mem p := by
  unfold dramWord
  split
  next hnone => rw [getD_of_noStrobe (by simpa using hnone)]; exact (ite_self _).symm
  next =>
    split
    next hall =>
      rw [read_memWrite, List.length_map, hw]
      exact ite_congr rfl (fun hp => getD_of_allStrobes hall (by omega) _) fun _ => rfl
    next =>
      rw [eccRead_none _ _ _ _ _ h]
      simp only [Bool.false_eq_true, if_false]
      rw [read_memWrite, mergeWord, List.length_map, List.length_zipIdx, hw, ← mergeWord]
      refine ite_congr rfl (fun hp => ?_) fun _ => rfl
      rw [getD_mergeWord h (by omega), Nat.add_sub_cancel' hp.1]

/-- The words of a write return no data and leave the queues alone. -/
theorem dramCells_kept (h : s.fab.inj = []) {a : Nat} :
    (dramCells s m src a w).rdata = s.rdata ∧ (dramCells s m src a w).dram = s.dram := by
  have hall : (dramCells s m src a w).fab.inj = [] ∧ (dramCells s m src a w).rdata = s.rdata ∧ (dramCells s m src a w).dram = s.dram := by
    unfold dramCells
    refine foldl_invariant (fun t : State => t.fab.inj = [] ∧ t.rdata = s.rdata ∧ t.dram = s.dram) _ ?_ _ s ⟨h, rfl, rfl⟩
    rintro t k ⟨hinj, hrdata, hdram⟩
    obtain ⟨h1, h2, h3⟩ := dramWord_kept (m := m) (src := src) (c := 16 * (a / 16 + k)) (w := wordCells a w (16 * (a / 16 + k))) hinj
    exact ⟨h1, h2.trans hrdata, h3.trans hdram⟩
  exact hall.2

/-- The bytes of a DRAM write are as its strobes say, codeword by codeword. -/
theorem read_dramCells (h : s.fab.inj = []) (a p : Nat) :
    Memory.read (dramCells s m src a w).mem p = (strobe a w p).getD (Memory.read s.mem p) := by
  have hwords : ∀ n, ((List.range n).foldl (fun s k => dramWord s m src (16 * (a / 16 + k)) (wordCells a w (16 * (a / 16 + k)))) s).fab.inj = []
      ∧ Memory.read ((List.range n).foldl (fun s k => dramWord s m src (16 * (a / 16 + k)) (wordCells a w (16 * (a / 16 + k)))) s).mem p
        = if 16 * (a / 16) ≤ p ∧ p < 16 * (a / 16 + n) then (strobe a w p).getD (Memory.read s.mem p) else Memory.read s.mem p := by
    intro n
    induction n with
    | zero => 
      rw [if_neg (by omega)]
      exact ⟨h, rfl⟩
    | succ n ih =>
      obtain ⟨hinj, hread⟩ := ih
      rw [List.range_succ, List.foldl_append, List.foldl_cons, List.foldl_nil]
      refine ⟨(dramWord_kept hinj).1, ?_⟩
      rw [read_dramWord hinj (length_wordCells a w _), hread]
      by_cases hp : 16 * (a / 16 + n) ≤ p ∧ p < 16 * (a / 16 + n) + 16
      · rw [if_pos hp, getD_wordCells a w _ (by omega), if_neg (by omega), if_pos (by omega), Nat.add_sub_cancel' hp.1]
      · rw [if_neg hp]
        by_cases hq : 16 * (a / 16) ≤ p ∧ p < 16 * (a / 16 + n)
        · rw [if_pos hq, if_pos (by omega)]
        · rw [if_neg hq, if_neg (by omega)]
  rw [dramCells, (hwords _).2]
  split
  · rfl
  next hout =>
    have hclear : strobe a w p = none := by
      unfold strobe
      split
      · exact List.getD_eq_default _ _ (by omega)
      · rfl
    rw [hclear]
    rfl

end

end Sys2Proof.Machine
end

section
/-! PROOF. O30: a DRAM request is served (R406, R411, R412, R414 to R416). -/

namespace Sys2Proof.Machine

open Sys2Proof

theorem exec_dramRequestComplete (ch : Nat) (hit : Bool) (s : State) :
    exec (.dramRequestComplete ch hit) s = .next (whilePowered s fun s => dramComplete s ch hit) := rfl
theorem exec_agePromotion (id t : Nat) (s : State) : exec (.agePromotion id t) s = .next (whilePowered s fun s => agePromotion s id t) := rfl

/-! What an activate changes (R415, R419). -/

/-- From `o` on, rows were opened: the tables of rows, and counters. -/
structure RowsOpened (o s : State) : Prop where
  same : s = { o with
    regs := s.regs, dram := { o.dram with rh := s.dram.rh, rhDue := s.dram.rhDue, open_ := s.dram.open_ } }

theorem RowsOpened.refl (s : State) : RowsOpened s s := ⟨rfl⟩

theorem RowsOpened.keep {o s : State} (h : RowsOpened o s) {regs rh rhDue open_} : RowsOpened o { s with
    regs := regs, dram := { s.dram with rh := rh, rhDue := rhDue, open_ := open_ } } := ⟨by rw [h.same]⟩

theorem RowsOpened.rhRefresh {o s : State} (h : RowsOpened o s) (bank row : Nat) : RowsOpened o (rhRefresh s bank row) := by
  unfold Machine.rhRefresh
  split
  · exact h
  · exact h.keep

theorem RowsOpened.rhActivate {o s : State} (h : RowsOpened o s) (bank row : Nat) : RowsOpened o (rhActivate s bank row) := by
  have hfold : RowsOpened o ((s.dram.rhDue.filter (·.1 == bank)).foldl (fun s d => Machine.rhRefresh s d.1 d.2) s) :=
    foldl_invariant (RowsOpened o) _ (fun t d ht => ht.rhRefresh d.1 d.2) _ s h
  exact hfold.keep

/-! Which request is served (R414 to R416). -/

theorem pickOf_nil (s : State) (hit : Bool) : pickOf s hit [] = none := by cases hit <;> rfl

theorem pickOf_one (s : State) (hit : Bool) (r : DramReq) : pickOf s hit [r] = some r := by
  unfold pickOf
  dsimp only
  cases hit with
  | false => rfl
  | true =>
    simp only [if_true, List.find?_cons, List.find?_nil]
    split
    next h => 
      split at h
      · exact h.symm
      · simp at h
    next => rfl

section
variable {s : State} {ch : Nat} {hit : Bool}

/-- Nothing that a channel may serve: nothing is served. -/
theorem nextReq_none (h : s.dram.reqs.filter (fun r => r.chan == ch && mayServe s r) = []) : nextReq s ch hit = none := by
  simp [nextReq, h, pickOf_nil]

/-- The requests of one list entry, picked by a test: that entry or none. -/
theorem filter_one (p : DramReq → Bool) (r : DramReq) : [r].filter p = [r] ∨ [r].filter p = [] := by
  cases h : p r <;> simp [h]

/-- One request that a channel may serve, which none of the others holds back: it is served. -/
theorem nextReq_one {r : DramReq} (h : s.dram.reqs.filter (fun r => r.chan == ch && mayServe s r) = [r])
    (hfirst : s.dram.reqs.find? (fun e => decide (e.id < r.id) && reqOverlap e r) = none) : nextReq s ch hit = some r := by
  have hserved : ∀ l : List DramReq, l = [r] → (pickOf s hit l).map (firstOf s.dram.reqs s.dram.reqs.length) = some r := by
    rintro l rfl
    rw [pickOf_one, Option.map_some]
    cases s.dram.reqs.length with
    | zero => rfl
    | succ n => rw [firstOf, hfirst]
  -- Whichever queue the request stands in, it is all that stands there.
  have hone : ∀ l : List DramReq, (l = [r] ∨ l = []) → (!l.isEmpty) = true → l = [r] := by
    rintro l (hl | hl) hne
    · exact hl
    · simp [hl] at hne
  unfold nextReq
  rw [h]
  refine hserved _ ?_
  split
  next hh => rw [hone _ (filter_one _ r) hh]; rfl
  next =>
    split
    next hq => exact hone _ (filter_one _ r) hq
    next =>
      split
      next hq => exact hone _ (filter_one _ r) hq
      next =>
        split
        next hq => exact hone _ (filter_one _ r) hq
        next =>
          split
          next hq => exact hone _ (filter_one _ r) hq
          next => rfl

/-- The request served leaves its queue, and its data moves: rows may open, the rest of the device stands (R415). -/
theorem dramComplete_takes {r : DramReq} (h : nextReq s ch hit = some r) (hdue : r.due = none) :
    ∃ (u : State) (f : DramReq → DramReq), dramComplete s ch hit = useCheck (dramData u r) r.addr ∧
      u.mem = s.mem ∧ u.rdata = s.rdata ∧ u.fab = s.fab ∧ u.dram.heldReads = s.dram.heldReads ∧
      u.dram.reqs = (s.dram.reqs.filter (·.id != r.id)).map f ∧
      ∀ e, (f e).id = e.id ∧ (f e).master = e.master ∧ (f e).write = e.write := by
  have hcomplete : dramComplete s ch hit = _ := dramComplete.eq_1 s ch hit
  simp -zeta only [h, hdue] at hcomplete
  revert hcomplete
  extract_lets ranks bank row low before passed s1 open_ d s2 s3
  intro hcomplete
  have hrows : RowsOpened s s1 := by
    unfold s1
    split
    · exact .refl s
    · exact (RowsOpened.refl s).rhActivate bank row
  refine ⟨s2, fun e => if passed e then { e with passed := e.passed + 1 } else e, hcomplete, ?_, ?_, ?_, ?_, ?_, fun e => ?_⟩
  · exact (congrArg State.mem hrows.same :)
  · exact (congrArg State.rdata hrows.same :)
  · exact (congrArg State.fab hrows.same :)
  · exact (congrArg (fun u : State => u.dram.heldReads) hrows.same :)
  · have hreqs : s1.dram.reqs = s.dram.reqs := (congrArg (fun u : State => u.dram.reqs) hrows.same :)
    unfold s2
    rw [hreqs]
  · dsimp only
    split <;> exact ⟨rfl, rfl, rfl⟩

end

/-! The data effect of a request (R406, R416). -/

section
variable {u : State} {r : DramReq}

/-- The bytes of a read join those that their port waits for, and what may go back goes back. -/
theorem dramData_ofRead (hread : r.write = []) (hinj : u.fab.inj = []) (hheld : u.dram.heldReads = []) :
    dramData u r = returnReads 1 { u with
      dram := { u.dram with heldReads := [(r.master, r.id, Memory.readBytes u.mem r.addr r.len)] } } := by
  simp only [dramData, hread, List.isEmpty_nil, if_true, memRead_none _ _ _ _ _ hinj, hheld, List.nil_append]
  rfl

/-- A read that no earlier read of its port holds back is returned. -/
theorem dramData_returned (hread : r.write = []) (hinj : u.fab.inj = []) (hheld : u.dram.heldReads = []) (hreqs : u.dram.reqs = []) :
    dramData u r = { u with rdata := Memory.readBytes u.mem r.addr r.len } := by
  rw [dramData_ofRead hread hinj hheld]
  have hgoes : returnReads 1 { u with
      dram := { u.dram with heldReads := [(r.master, r.id, Memory.readBytes u.mem r.addr r.len)] } }
      = { u with dram := { u.dram with heldReads := [] }, rdata := Memory.readBytes u.mem r.addr r.len } := by
    simp [returnReads, hreqs]
  rw [hgoes, ← hheld]

/-- A read whose port waits for an earlier one is held back. -/
theorem dramData_held (hread : r.write = []) (hinj : u.fab.inj = []) (hheld : u.dram.heldReads = [])
    (hearlier : u.dram.reqs.any (fun e => e.write.isEmpty && e.master == r.master && decide (e.id < r.id)) = true) :
    dramData u r = { u with dram := { u.dram with heldReads := [(r.master, r.id, Memory.readBytes u.mem r.addr r.len)] } } := by
  rw [dramData_ofRead hread hinj hheld]
  simp only [returnReads, hearlier, List.find?_cons, List.find?_nil, Bool.true_or, Bool.not_true]

/-- A write stores its strobed bytes and nothing else. -/
theorem dramData_stored (hwrite : r.write ≠ []) (hinj : u.fab.inj = []) : (dramData u r).rdata = u.rdata ∧ (dramData u r).dram = u.dram ∧
    ∀ p, Memory.read (dramData u r).mem p = (strobe r.addr r.write p).getD (Memory.read u.mem p) := by
  have hcells : dramData u r = dramCells u r.master (dramSource u r.use) r.addr r.write := by simp [dramData, hwrite]
  rw [hcells]
  exact ⟨(dramCells_kept hinj).1, (dramCells_kept hinj).2, read_dramCells hinj r.addr⟩

end

/-! Age promotion (R414). -/

section
variable {s : State} {r : DramReq} {id t : Nat} (h : s.dram.reqs = [r])
include h

theorem agePromotion_old (hid : r.id = id) (hhead : r.head = false)
    (hold : r.at_ + getF s (if r.native = 0 then F.MEM_AGE0_NS else F.MEM_AGE1_NS) < t) : agePromotion s id t
      = addCtr { s with dram := { s.dram with reqs := [{ r with head := true }] } } Reg.MEM_PROMO 1 := by
  simp [agePromotion, h, hid, hhead, hold]

theorem agePromotion_young (hyoung : t ≤ r.at_ + getF s (if r.native = 0 then F.MEM_AGE0_NS else F.MEM_AGE1_NS)) :
    agePromotion s id t = s := by
  simp [agePromotion, h, Nat.not_lt.2 hyoung]

end

/-! What a training or a frequency change holds back (R411, R412). -/

theorem mayServe_calm {s : State} (ht : s.dram.training = none) (hc : s.dram.change = none) (r : DramReq) : mayServe s r = true := by
  simp [mayServe, ht, hc]

theorem mayServe_not {s : State} {r : DramReq} (h : s.dram.training ≠ none ∨ ∃ c, s.dram.change = some c ∧ c.running = true ∧ c.upto ≤ r.id) :
    mayServe s r = false := by
  rcases h with h | ⟨c, hc, hrun, hid⟩
  · simp [mayServe, h]
  · simp [mayServe, hc, hrun, hid]

/-- A channel with nothing to serve leaves everything as it stands. -/
theorem dramComplete_nothing {s : State} {ch : Nat} {hit : Bool}
    (h : s.dram.reqs.filter (fun r => r.chan == ch && mayServe s r) = []) : dramComplete s ch hit = s := by
  rw [dramComplete, nextReq_none h]

/-- Settles O30: the one request a channel may serve leaves its queue and its data moves; a read waits for the earlier read of its
port. -/
theorem dramRequestServed : Obligations.DramRequestServed := by
  unfold Obligations.DramRequestServed
  intro s ch id at_ hit r on
  have hrun := exec_powered on (exec_dramRequestComplete ch hit s)
  have hage := exec_powered on (exec_agePromotion id at_ s)
  rw [hrun, hage]
  refine ⟨fun hnone => ?_, fun hone hch hdue hinj hheld htr hchg => ?_, fun e htwo hm hid hew hrw hech hch hdue hinj hheld htr hchg hlap => ?_,
    fun hstop => ?_, fun hone hid hhead hold => ?_, fun hone hyoung => ?_⟩
  · rw [dramComplete_nothing (by rw [hnone]; rfl)]
  · obtain ⟨u, f, hu, hmem, hrdata, hfab, huheld, hureqs, hf⟩ := dramComplete_takes (s := s) (ch := ch) (hit := hit)
      (nextReq_one (by simp [hone, hch, mayServe_calm htr hchg]) (by simp [hone])) hdue
    rw [hone, List.filter_cons_of_neg (by simp), List.filter_nil, List.map_nil] at hureqs
    rw [hheld] at huheld
    rw [← hfab] at hinj
    rw [hu, ← hmem, ← hrdata]
    refine ⟨_, rfl, ?_⟩
    by_cases hw : r.write = []
    · rw [dramData_returned hw hinj huheld hureqs]
      exact ⟨hureqs, huheld, fun _ => ⟨rfl, rfl⟩, fun hne => absurd hw hne⟩
    · obtain ⟨hr, hd, hbytes⟩ := dramData_stored hw hinj
      refine ⟨(congrArg (·.reqs) hd).trans hureqs, (congrArg (·.heldReads) hd).trans huheld, fun hnil => absurd hnil hw, fun _ => ⟨hr, fun p => ?_⟩⟩
      refine (hbytes p).trans ?_
      unfold strobe
      split <;> rfl
  · obtain ⟨u, f, hu, hmem, hrdata, hfab, huheld, hureqs, hf⟩ := dramComplete_takes (s := s) (ch := ch) (hit := hit)
      (nextReq_one (r := r) (by simp [htwo, hch, hech, mayServe_calm htr hchg]) (by simp [htwo, hlap])) hdue
    have hne : e.id ≠ r.id := Nat.ne_of_lt hid
    rw [htwo, List.filter_cons_of_pos (by simp [hne]), List.filter_cons_of_neg (by simp), List.filter_nil] at hureqs
    obtain ⟨hfid, hfm, hfw⟩ := hf e
    rw [hheld] at huheld
    rw [← hfab] at hinj
    rw [hu, dramData_held hrw hinj huheld (by simp [hureqs, hfid, hfm, hfw, hew, hm, hid]), ← hmem, ← hrdata]
    refine ⟨_, rfl, ?_, rfl, rfl⟩
    refine (congrArg (List.map (·.id)) hureqs).trans ?_
    rw [List.map_map, List.map_cons, List.map_nil]
    exact congrArg (fun n => [n]) hfid
  · rw [dramComplete_nothing]
    refine List.filter_eq_nil_iff.2 fun e he => ?_
    have hnot : mayServe s e = false := mayServe_not (hstop.imp_right fun ⟨c, hc, hrun, hall⟩ => ⟨c, hc, hrun, hall e he⟩)
    simp [hnot]
  · rw [agePromotion_old hone hid hhead hold]
  · rw [agePromotion_young hone hyoung]

end Sys2Proof.Machine
end

section
/-! SUPPORT. What reporting an error of the fabric leaves alone (R434, R441, R446). -/

namespace Sys2Proof.Machine

open Sys2Proof

variable {o s : State}

theorem Reported.setR64 {lo hi v} (h : Reported o s) : Reported o (setR64 s lo hi v) := h.setR.setR
theorem Reported.setEvent {a m} (h : Reported o s) : Reported o (setEvent s a m) := h.keep
theorem Reported.logRun {code p r x} (h : Reported o s) : Reported o (logRun s code p r x) := h.pushEvent

theorem Reported.foldl {α : Type} {f : State → α → State} {l : List α} (h : Reported o s)
    (hf : ∀ t x, Reported o t → Reported o (f t x)) : Reported o (l.foldl f s) := foldl_invariant (Reported o) f hf l s h

theorem Reported.capture {mem kind m src a} (h : Reported o s) : Reported o (capture s mem kind m src a) :=
  .ite h h.setEvent.setR.setR64.setR64

theorem Reported.publishDrains (h : Reported o s) : Reported o (publishDrains s) := h.setR.foldl fun _ _ h => h.setR

theorem Reported.mem (h : Reported o s) : s.mem = o.mem := by rw [h.same]
theorem Reported.fab (h : Reported o s) : s.fab = o.fab := by rw [h.same]
theorem Reported.rdata (h : Reported o s) : s.rdata = o.rdata := by rw [h.same]

/-- An error of the fabric is reported: memory stands (R434). -/
theorem fabError_mem (s : State) (kind m src a : Nat) : (fabError s kind m src a).mem = s.mem := by
  unfold fabError
  extract_lets first t
  exact ((Reported.refl _).capture.logRun.raise (n := 17) (b := 2 + kind)).mem.trans rfl

end Sys2Proof.Machine
end

section
/-! PROOF. O32: a request at the fabric (R430 to R435, R437). -/

namespace Sys2Proof.Machine

open Sys2Proof

theorem exec_fabricRequest (m src a len : Nat) (data : Bytes) (parity : Bool) (s : State) :
    exec (.fabricRequest m src a len data parity) s = execFabricRequest m src a len data parity s := rfl

theorem mustStall_iff (s : State) (m src : Nat) : mustStall s m src = true ↔ draining s m src = true ∨ 64 ≤ portLoad s m := by
  simp [mustStall]

/-- A request of a length the fabric has is one or is held back (R431, R437). -/
theorem execFabricRequest_fits {m src a len : Nat} {data : Bytes} {parity : Bool} {s : State}
    (hlo : 1 ≤ if data.isEmpty then len else data.length) (hhi : (if data.isEmpty then len else data.length) ≤ 1024) :
    execFabricRequest m src a len data parity s =
      let r : FabReq := { master := m, source := src, addr := a, len := len, data := data, parity := parity }
      .next (if mustStall s m src then { s with fab := { s.fab with stalled := s.fab.stalled ++ [r] } } else fabAsk s r) := by
  unfold execFabricRequest
  extract_lets n r
  have hn : ¬ (n == 0 || decide (n > 1024)) = true := by
    simp only [Bool.or_eq_true, beq_iff_eq, decide_eq_true_eq]
    omega
  rw [if_neg hn]
  split <;> rfl

/-! Arbitration (R435). -/

/-- The highest of the priorities is at least each of them. -/
theorem le_foldl_max {α : Type} (f : α → Nat) (l : List α) (n : Nat) :
    n ≤ l.foldl (fun p b => max p (f b)) n ∧ ∀ x ∈ l, f x ≤ l.foldl (fun p b => max p (f b)) n := by
  induction l generalizing n with
  | nil => simp
  | cons y t ih =>
    obtain ⟨hn, ht⟩ := ih (max n (f y))
    refine ⟨(Nat.le_max_left _ _).trans hn, fun x hx => ?_⟩
    rcases List.mem_cons.1 hx with rfl | hx
    · exact (Nat.le_max_right _ _).trans hn
    · exact ht x hx

/-- What a choice among a list leaves is one of the list. -/
theorem mem_of_foldl_pick {α : Type} {f : Option α → α → Option α} (hf : ∀ o y, f o y = o ∨ f o y = some y) {l : List α} {o : Option α}
    {b : α} (h : l.foldl f o = some b) : o = some b ∨ b ∈ l := by
  induction l generalizing o with
  | nil => exact .inl h
  | cons y t ih =>
    rcases ih h with hy | ht
    · rcases hf o y with ho | ho
      · exact .inl (ho ▸ hy)
      · exact .inr (Option.some.inj (ho ▸ hy) ▸ List.mem_cons_self ..)
    · exact .inr (List.mem_cons_of_mem _ ht)

/-- The next burst of a target waits for it and is of the highest priority that waits for it. -/
theorem nextGrant_highest {s : State} {t : Nat} {b : Burst} (h : nextGrant s t = some b) :
    b ∈ s.fab.waiting ∧ b.target = t ∧
      ∀ x ∈ s.fab.waiting, x.target = t → fabPrio s x.master t ≤ fabPrio s b.master t := by
  unfold nextGrant at h
  extract_lets w top c last key at h
  have hb : b ∈ c := by
    refine (mem_of_foldl_pick (fun o y => ?_) h).resolve_left (by simp)
    cases o with
    | none => exact .inr rfl
    | some x => exact (ite_eq_or_eq (key y < key x) (some y) (some x)).symm
  obtain ⟨hw, htop⟩ := List.mem_filter.1 hb
  obtain ⟨hwait, htarget⟩ := List.mem_filter.1 hw
  refine ⟨hwait, by simpa using htarget, fun x hx hxt => ?_⟩
  have hle : fabPrio s x.master t ≤ top := (le_foldl_max (fun b : Burst => fabPrio s b.master t) w 0).2 x
    (List.mem_filter.2 ⟨hx, by simpa using hxt⟩)
  rwa [← show fabPrio s b.master t = top by simpa using htop] at hle

/-- The only burst that waits is granted at its target. -/
theorem nextGrant_one {s : State} {b : Burst} (h : s.fab.waiting = [b]) : nextGrant s b.target = some b := by
  simp [nextGrant, h]

theorem nextGrant_none {s : State} {t : Nat} (h : s.fab.waiting = []) : nextGrant s t = none := by simp [nextGrant, h]

theorem grant_none {s : State} {t : Nat} (h : s.fab.waiting = []) : grant s t = s := by rw [grant, nextGrant_none h]

/-- A target without a burst starts the only one that waits. -/
theorem grant_one {s : State} {b : Burst} (hc : s.fab.current = []) (hw : s.fab.waiting = [b]) :
    (grant s b.target).fab.current = [b] ∧ (grant s b.target).fab.waiting = [] ∧ (grant s b.target).mem = s.mem := by
  rw [grant, nextGrant_one hw]
  exact ⟨by simp [hc], by simp [hw], rfl⟩

section
variable {s : State} (r : FabReq) (hp : r.parity = false)
include hp

/-- A request that no window decodes is answered with a decode error, which its master handles. -/
theorem fabAsk_undecoded (ht : fabTarget s r.master r.addr (if !r.data.isEmpty then r.data.length else r.len) (!r.data.isEmpty) = none) :
    fabAsk s r = masterError { fabError s 0 r.master r.source r.addr with
      rdata := if !r.data.isEmpty then [] else zeroBytes (if !r.data.isEmpty then r.data.length else r.len) } r.master r.source r.addr := by
  unfold fabAsk
  rw [if_neg (by simp [hp]), ht]

/-- A request that is decoded waits at its target, which starts it if it carries out none. -/
theorem fabAsk_decoded {t : Nat}
    (ht : fabTarget s r.master r.addr (if !r.data.isEmpty then r.data.length else r.len) (!r.data.isEmpty) = some t) :
    fabAsk s r =
      let b : Burst := { master := r.master, source := r.source, target := t, addr := r.addr,
                         write := if !r.data.isEmpty then some r.data else none,
                         len := if !r.data.isEmpty then r.data.length else r.len, drained := false }
      let u := { s with fab := { s.fab with waiting := s.fab.waiting ++ [b] } }
      if s.fab.current.any (·.target == t) then u else grant u t := by
  unfold fabAsk
  rw [if_neg (by simp [hp]), ht]

end

/-- A core's DMA takes an error response as the error of R149. -/
theorem coreOf_masterError {s : State} {m src : Nat} (hm : 16 ≤ m) (hsrc : src < 32) (hrun : (coreOf s src).state ≠ .fault) (a : Nat) :
    (coreOf (masterError s m src a) src).de = true ∧ (coreOf (masterError s m src a) src).ipend = (coreOf s src).ipend ||| 4 := by
  rw [masterError, if_pos hm, dmaError, coreOf_dmaFail hsrc hrun]
  exact ⟨rfl, rfl⟩

/-- Settles O32: a request that need not wait is refused or joins those of its target; what a target grants is of the highest
priority. -/
theorem fabricRequests : Obligations.FabricRequests := by
  unfold Obligations.FabricRequests
  refine ⟨fun s m src a len data parity => ?_, fun s t b x hb hx hxt => ?_⟩
  · intro write n b asked refused
    have hn : n = if data.isEmpty then len else data.length := by unfold n write; cases data.isEmpty <;> rfl
    have hasked : asked = execFabricRequest m src a len data parity s := exec_fabricRequest ..
    refine ⟨fun hout => ?_, fun hlo hhi hwait => ?_, fun hdrain hload hlo hhi => ?_, fabError_mem s 0 m src a,
      fun hm hsrc hrun => coreOf_masterError hm hsrc hrun a⟩
    · rw [hasked, execFabricRequest, ← hn]
      exact if_pos (by simpa using hout)
    · rw [hasked, execFabricRequest_fits (hn ▸ hlo) (hn ▸ hhi)]
      dsimp only
      rw [if_pos ((mustStall_iff s m src).2 hwait)]
    · have hfree : ¬ mustStall s m src = true := by simp [mustStall_iff, hdrain, hload]
      rw [hasked, execFabricRequest_fits (hn ▸ hlo) (hn ▸ hhi)]
      dsimp only
      rw [if_neg hfree]
      let r : FabReq := { master := m, source := src, addr := a, len := len, data := data, parity := false }
      refine ⟨fun hp => ?_, fun hp ht => ?_, fun t hp ht => ?_⟩
      · subst hp
        rfl
      · subst hp
        exact congrArg _ (fabAsk_undecoded r rfl ht)
      · subst hp
        have hjoins := fabAsk_decoded r rfl ht
        refine ⟨fun hbusy => congrArg _ (hjoins.trans (if_pos hbusy)), fun hc hw => ?_⟩
        have hwait : s.fab.waiting ++ [b t] = [b t] := by rw [hw]; rfl
        have hidle : ¬ s.fab.current.any (·.target == t) = true := by simp [hc]
        exact ⟨_, congrArg _ (hjoins.trans (if_neg hidle)), grant_one (b := b t) hc hwait⟩
  · obtain ⟨hwait, htarget, hbest⟩ := nextGrant_highest hb
    exact ⟨hwait, htarget, hbest x hx hxt⟩

end Sys2Proof.Machine
end

section
/-! SUPPORT. What writes, reads and reports leave of the transactions under way (R431, R435, R437). -/

namespace Sys2Proof.Machine

open Sys2Proof

/-- From `o` on, the transactions of the fabric stand: those carried out, those that wait, those that stall, and what drains. -/
structure Bursts (o s : State) : Prop where
  current : s.fab.current = o.fab.current
  waiting : s.fab.waiting = o.fab.waiting
  stalled : s.fab.stalled = o.fab.stalled
  drains : s.fab.drains = o.fab.drains

variable {o s t : State}

theorem Bursts.refl (s : State) : Bursts s s := ⟨rfl, rfl, rfl, rfl⟩

theorem Bursts.of_fab (h : Bursts o s) (ht : t.fab = s.fab) : Bursts o t :=
  ⟨by rw [ht, h.current], by rw [ht, h.waiting], by rw [ht, h.stalled], by rw [ht, h.drains]⟩

theorem Bursts.reported (h : Bursts o s) (ht : Reported s t) : Bursts o t := h.of_fab ht.fab

theorem Bursts.ite {c : Prop} [Decidable c] {a b : State} (ha : Bursts o a) (hb : Bursts o b) : Bursts o (if c then a else b) := by
  split; exacts [ha, hb]

theorem Bursts.foldl {α : Type} {f : State → α → State} {l : List α} (h : Bursts o s) (hf : ∀ t x, Bursts o t → Bursts o (f t x)) :
    Bursts o (l.foldl f s) := foldl_invariant (Bursts o) f hf l s h

/-- The counts and runs of errors, the damaged codewords, the storm and the scrubber's places are no transactions. -/
theorem Bursts.keep (h : Bursts o s) {inj ueRuns errSum scrub scrubbed storm regs mem rdata log} : Bursts o { s with
    fab := { s.fab with inj := inj, ueRuns := ueRuns, errSum := errSum, scrub := scrub, scrubbed := scrubbed, storm := storm },
    regs := regs, mem := mem, rdata := rdata, log := log } := ⟨h.current, h.waiting, h.stalled, h.drains⟩

theorem Bursts.memWrite {a b} (h : Bursts o s) : Bursts o (memWrite s a b) := h.keep

theorem Bursts.eccReport {k ue m src a} (h : Bursts o s) : Bursts o (eccReport s k ue m src a) := by
  unfold Machine.eccReport
  extract_lets s1 s2 s3 s4 first f s5 s6
  have h1 : Reported s s1 := (Reported.refl s).addCtr
  have h2 : Reported s s2 := .ite h1.addCtr h1
  have h3 : Reported s s3 := h2.capture
  have h5 : Bursts o s5 := (h.reported (.ite h3.raise h3)).keep
  exact .ite (h.reported h3.raise) (h5.reported (Reported.raise (.ite (.refl _) (Reported.refl _).logRun)))

theorem Bursts.eccRead {a n m src} (h : Bursts o s) : Bursts o (eccRead s a n m src).2 := by
  refine foldl_invariant (fun r : Bool × State => Bursts o r.2) _ (fun r c hr => ?_) _ (false, s) h
  dsimp only
  split
  · exact hr.eccReport
  · exact hr

theorem Bursts.dramWord {m src c w} (h : Bursts o s) : Bursts o (dramWord s m src c w) :=
  have hmerge : Bursts o (addCtr (Machine.eccRead s c 16 m src).2 Reg.MEM_RMW 1) := h.eccRead.reported (Reported.refl _).addCtr
  .ite h (.ite h.memWrite (.ite hmerge hmerge.memWrite))

theorem Bursts.burstWrite {b d} (h : Bursts o s) : Bursts o (burstWrite s b d) :=
  .ite (.ite h.memWrite (h.foldl fun _ _ h => h.dramWord)) h.memWrite

end Sys2Proof.Machine
end

section
/-! PROOF. O33: a granted burst is carried out whole (R434, R435, R252). -/

namespace Sys2Proof.Machine

open Sys2Proof

theorem exec_burstGrant (t : Nat) (s : State) : exec (.burstGrant t) s = execBurstGrant t s := rfl

/-- Nothing that stalled: nothing goes on. -/
theorem wakeStalled_none {s : State} (h : s.fab.stalled = []) : wakeStalled s = s := by
  rw [wakeStalled, h, List.foldl_nil, ← h]

section
variable {s : State} {b : Burst} (hd : b.drained = false)
include hd

/-- A burst that does not drain is carried out, and that is all. -/
theorem endBurst_live : endBurst s b = carryOut s b := by simp [endBurst, retire, finishBurst, hd]

/-- The only burst of a target is carried out; then the target grants its next, and what stalled goes on. -/
theorem burstGrant_one (hc : s.fab.current = [b]) : exec (.burstGrant b.target) s =
    .next (wakeStalled (grant (carryOut { s with fab := { s.fab with current := [] } } b) b.target)) := by
  rw [exec_burstGrant, execBurstGrant, hc]
  simp only [List.filter_cons, List.filter_nil, beq_self_eq_true, bne_self_eq_false, if_true, if_false, Bool.false_eq_true,
    List.foldl_cons, List.foldl_nil, endBurst_live hd]

theorem carryOut_registers (ht : b.target = 11) : carryOut s b = regBurst s b := by
  rw [carryOut, if_neg (by simp [hd]), if_pos ht]

/-- A write to the PCIe window leaves the device. -/
theorem carryOut_window (ht : b.target = 12) :
    carryOut s b = { s with rdata := if b.write.isSome then s.rdata else zeroBytes b.len } := by
  rw [carryOut, if_neg (by simp [hd]), if_neg (by simp [ht]), if_pos ht]

/-- A write lands at its memory. -/
theorem carryOut_stored {d : Bytes} (h11 : b.target ≠ 11) (h12 : b.target ≠ 12) (hw : b.write = some d) :
    carryOut s b = burstWrite s b d := by simp [carryOut, burstEnd, hd, h11, h12, hw]

section
variable (hinj : s.fab.inj = []) (hw : b.write = none)
include hinj hw

omit hd in
/-- With no damaged codeword a read returns the bytes of its memory. -/
theorem burstEnd_sound : burstEnd s b = { s with rdata := Memory.readBytes s.mem b.addr b.len } := by
  have hsound : ∀ x : Bytes, eccRead { s with rdata := x } b.addr b.len b.master b.source = (false, { s with rdata := x }) :=
    fun x => eccRead_none _ _ _ _ _ hinj
  simp only [burstEnd, hw, memRead_none _ _ _ _ _ hinj, hsound, Bool.and_false, Bool.false_eq_true, if_false]
  rfl

theorem carryOut_read (h10 : b.target ≠ 10) (h11 : b.target ≠ 11) (h12 : b.target ≠ 12) :
    carryOut s b = { s with rdata := Memory.readBytes s.mem b.addr b.len } := by
  rw [← burstEnd_sound hinj hw]
  simp [carryOut, hd, h10, h11, h12]

/-- A read of the log SRAM returns what stands there. -/
theorem carryOut_logRead (h10 : b.target = 10) :
    carryOut s b = { s with rdata := (List.range b.len).map fun i => logSramByte s (b.addr - regionBase 10 + i) } := by
  have hread := burstEnd_sound hinj hw
  simp [carryOut, hd, h10, hw, hread]

end

end

/-- The four bytes at a word of the registers are one word. -/
theorem wholeWords_one {o : Nat} {d : Bytes} (ho : o % 4 = 0) (hd : d.length = 4) : wholeWords o d = [(o, leAt d 0 4)] := by
  simp [wholeWords, ho, hd, List.range_succ]

theorem regBurst_write {s : State} {b : Burst} {d : Bytes} (ho : (b.addr - regionBase 11) % 4 = 0) (hw : b.write = some d)
    (hd : d.length = 4) : regBurst s b = serveRing (fabRegWrite b.master s (b.addr - regionBase 11) (leAt d 0 4)) := by
  simp [regBurst, hw, wholeWords_one ho hd]

theorem regBurst_read {s : State} {b : Burst} (ho : (b.addr - regionBase 11) % 4 = 0) (hw : b.write = none) (hl : b.len = 4) :
    regBurst s b = { (readReg s (b.addr - regionBase 11)).2 with rdata := leBytes 4 (readReg s (b.addr - regionBase 11)).1 } := by
  have hone : (b.addr - regionBase 11 + 4 + 3) / 4 - (b.addr - regionBase 11) / 4 = 1 := by omega
  have hat : (b.addr - regionBase 11) / 4 * 4 = b.addr - regionBase 11 := by omega
  simp only [regBurst, hw, hl, hone, hat, ho, readRegs, List.flatMap_cons, List.flatMap_nil, List.append_nil, List.drop_zero,
    List.take_of_length_le (Nat.le_of_eq (length_leBytes 4 _))]

/-- A record is 64 bytes (R476). -/
theorem length_recBytes (r : LogRec) : (recBytes r).length = 64 := by
  unfold recBytes
  split
  · rfl
  · simp [recWords, length_leBytes, List.range_succ]

/-- The bytes of the log SRAM where a record stands are the record's (R476, R485). -/
theorem logSramByte_record {s : State} (hinj : s.fab.inj = []) {k i : Nat} {r : LogRec} (hr : s.log.recs[k]? = some r) (hi : i < 64) :
    logSramByte s (64 * k + i) = (recBytes r).getD i 0 := by
  have hk : (64 * k + i) / 64 = k := by omega
  have hm : (64 * k + i) % 64 = i := by omega
  have hsound : ueByte s (regionBase 10 + (64 * k + i)) = false := by simp [ueByte, hinj]
  simp only [logSramByte, hk, hm, hr, hsound, Bool.false_eq_true, if_false]

theorem logSram_record {s : State} (hinj : s.fab.inj = []) {k : Nat} {r : LogRec} (hr : s.log.recs[k]? = some r) :
    (List.range 64).map (fun i => logSramByte s (64 * k + i)) = recBytes r := by
  refine List.ext_getElem (by simp [length_recBytes]) fun i hi hi' => ?_
  have hi64 : i < 64 := by simpa using hi
  rw [List.getElem_map, List.getElem_range, logSramByte_record hinj hr hi64]
  exact List.getD_eq_getElem _ _ hi'

/-- The strobes of a whole write: its bytes. -/
theorem strobe_all (a : Nat) (d : Bytes) (p : Nat) (old : Byte) :
    (strobe a (d.map some) p).getD old = if a ≤ p ∧ p < a + d.length then d.getD (p - a) 0 else old := by
  unfold strobe
  by_cases ha : a ≤ p
  · by_cases hp : p < a + d.length
    · have hlt : p - a < d.length := by omega
      simp [ha, hp, hlt]
    · have hge : d.length ≤ p - a := by omega
      simp [ha, hp, hge]
  · simp [ha]

/-- A burst writes its bytes and no others (R406, R434). -/
theorem read_burstWrite {s : State} (hinj : s.fab.inj = []) (b : Burst) (d : Bytes) (p : Nat) :
    Memory.read (burstWrite s b d).mem p = if b.addr ≤ p ∧ p < b.addr + d.length then d.getD (p - b.addr) 0 else Memory.read s.mem p := by
  unfold burstWrite
  split
  · unfold dramWrite
    split
    · exact read_memWrite s b.addr d p
    · rw [read_dramCells hinj, strobe_all]
  · exact read_memWrite s b.addr d p

/-- Settles O33: the only burst of a target is carried out, after which nothing waits there. -/
theorem fabricBurstsEnd : Obligations.FabricBurstsEnd := by
  unfold Obligations.FabricBurstsEnd
  intro s b hc hw hinj hd idle o
  have hgrant := burstGrant_one hd hc
  refine ⟨fun h11 hbase ho => ?_, fun h11 hstalled => ?_⟩
  · rw [h11] at hgrant
    rw [hgrant, carryOut_registers hd h11]
    exact ⟨fun d hwr hlen => by rw [regBurst_write ho hwr hlen]; rfl, fun hrd hlen => by rw [regBurst_read ho hrd hlen]⟩
  · -- Nothing waits and nothing stalls: what the burst did is all.
    have hend : ∀ t, Bursts idle t → carryOut idle b = t → exec (.burstGrant b.target) s = .next t ∧ t.fab.current = [] ∧ t.fab.waiting = [] := by
      rintro t ht hout
      have hwaits : t.fab.waiting = [] := ht.waiting.trans hw
      rw [hgrant]
      refine ⟨?_, ht.current, hwaits⟩
      rw [show carryOut { s with fab := { s.fab with current := [] } } b = t from hout, grant_none hwaits,
        wakeStalled_none (ht.stalled.trans hstalled)]
    have hread : ∀ x : Bytes, Bursts idle { idle with rdata := x } := fun _ => (Bursts.refl idle).of_fab rfl
    by_cases h12 : b.target = 12
    · obtain ⟨hexec, hcur, hwait⟩ := hend _ (hread _) (carryOut_window hd h12)
      refine ⟨_, hexec, hcur, hwait, fun d _ hne => absurd h12 hne, fun hsome _ => ⟨rfl, if_pos hsome⟩,
        fun _ => ⟨rfl, fun _ hne => absurd h12 hne, fun h10 => absurd (h12.symm.trans h10) (by decide)⟩⟩
    · cases hwr : b.write with
      | some d =>
        obtain ⟨hexec, hcur, hwait⟩ := hend _ (Bursts.refl idle).burstWrite (carryOut_stored hd h11 h12 hwr)
        refine ⟨_, hexec, hcur, hwait, fun d' hd' _ => ?_, fun _ h => absurd h h12, fun h => absurd h (by simp)⟩
        obtain rfl := Option.some.inj hd'
        exact ⟨(Upholds.refl (lim := 0) idle).burstWrite.memory, read_burstWrite (s := idle) hinj b d⟩
      | none =>
        by_cases h10 : b.target = 10
        · obtain ⟨hexec, hcur, hwait⟩ := hend _ (hread _) (carryOut_logRead hd hinj hwr h10)
          refine ⟨_, hexec, hcur, hwait, fun d hd' => absurd hd' (by simp), fun h => absurd h (by simp), fun _ => ⟨rfl, fun hne => absurd h10 hne,
            fun _ k r haddr hlen hrec => ?_⟩⟩
          have hofs : b.addr - regionBase 10 = 64 * k := by omega
          rw [hlen, hofs]
          exact logSram_record (s := idle) hinj hrec
        · obtain ⟨hexec, hcur, hwait⟩ := hend _ (hread _) (carryOut_read hd hinj hwr h10 h11 h12)
          exact ⟨_, hexec, hcur, hwait, fun d hd' => absurd hd' (by simp), fun h => absurd h (by simp), fun _ => ⟨rfl, fun _ _ => rfl,
            fun h => absurd h h10⟩⟩

end Sys2Proof.Machine
end

section
/-! PROOF. O34: master resets, drains, storms and scrubbing (R437, R438, R442, R443). -/

namespace Sys2Proof.Machine

open Sys2Proof

theorem exec_masterReset (m src beats : Nat) (s : State) : exec (.masterReset m src beats) s = .next (masterReset s m src beats 0) := rfl
theorem exec_fabDrainEvent (m src cycles : Nat) (s : State) : exec (.fabDrainEvent m src cycles) s = .next (drainEnd s m src cycles) := rfl
theorem exec_eccStormWindow (s : State) : exec .eccStormWindow s = execEccStormWindow s := rfl
theorem exec_stormClear (v : Nat) (s : State) : exec (.stormClear v) s = .next (queueWrite s Reg.FAB_CTRL v) := rfl
theorem exec_scrub (s : State) : exec .scrub s = execScrub s := rfl

/-! A master reset (R437, R438). -/

/-- The beats already issued of the writes in progress stand, and every transaction of the source drains. -/
def cutBursts (s : State) (m src beats : Nat) : State :=
  let t := (s.fab.current.filter (liveBurst m src)).foldl (fun s b =>
    match b.write with
    | some d => if b.target = 11 ∨ b.target = 12 then s else burstWrite s b (d.take (64 * beats))
    | none => s) s
  { t with fab := { t.fab with current := t.fab.current.map (drainBurst m src beats), waiting := t.fab.waiting.map (drainBurst m src 0) } }

section
variable {s : State} {m src beats : Nat}

/-- After the cut the source drains, or its reset ends: memory stands. -/
theorem masterReset_mem (more : Nat) : (masterReset s m src beats more).mem = (cutBursts s m src beats).mem := by
  unfold masterReset
  extract_lets n t f u
  have hu : ∀ fab, (publishDrains { u with fab := fab }).mem = u.mem := fun fab => (Reported.refl _).publishDrains.mem
  split
  · exact hu _
  · split
    · exact (Reported.refl u).addCtr.logEv.raise.mem
    · exact hu _

/-- With nothing outstanding the reset ends at once. -/
theorem masterReset_idle (hn : outstanding s m src = 0) (hdrains : (cutBursts s m src beats).fab.drains = []) :
    Reported (cutBursts s m src beats) (masterReset s m src beats 0) := by
  unfold masterReset
  extract_lets n t f u
  rw [show u.fab.drains.find? (fun d => d.master == m && d.source == src) = none by rw [show u.fab.drains = [] from hdrains]; rfl]
  exact (if_pos hn : (if n = 0 then _ else _) = _) ▸ (Reported.refl u).addCtr.logEv.raise

/-- What is outstanding drains. -/
theorem masterReset_drains (hn : 0 < outstanding s m src) (hdrains : (cutBursts s m src beats).fab.drains = []) :
    (masterReset s m src beats 0).fab = { (cutBursts s m src beats).fab with
      drains := [{ master := m, source := src, left := outstanding s m src, total := outstanding s m src }] } := by
  unfold masterReset
  extract_lets n t f u
  rw [show u.fab.drains.find? (fun d => d.master == m && d.source == src) = none by rw [show u.fab.drains = [] from hdrains]; rfl]
  dsimp only
  rw [if_neg (by exact Nat.ne_of_gt hn)]
  refine ((Reported.refl _).publishDrains.fab).trans ?_
  rw [show u.fab.drains = [] from hdrains]
  rfl

/-- The beats that were cut are writes: which transactions there are, stands. -/
theorem cutBursts_fab : (cutBursts s m src beats).fab.current = s.fab.current.map (drainBurst m src beats) ∧
    (cutBursts s m src beats).fab.waiting = s.fab.waiting.map (drainBurst m src 0) ∧
    (cutBursts s m src beats).fab.drains = s.fab.drains := by
  unfold cutBursts
  extract_lets t f
  have ht : Bursts s t := (Bursts.refl s).foldl fun u b hu => by
    split
    · exact .ite hu hu.burstWrite
    · exact hu
  exact ⟨congrArg _ ht.current, congrArg _ ht.waiting, ht.drains⟩

/-- A transaction that a reset has reached is no live one of its source. -/
theorem liveBurst_drainBurst (b : Burst) : liveBurst m src (drainBurst m src beats b) = false := by
  by_cases hb : liveBurst m src b = true
  · rw [drainBurst, if_neg (by simp [hb])]
    simp [liveBurst]
  · rw [drainBurst, if_pos (by simpa using hb)]
    simpa using hb

theorem filter_drained (l : List Burst) : (l.map (drainBurst m src beats)).filter (liveBurst m src) = [] := by
  simp [List.filter_eq_nil_iff, liveBurst_drainBurst]

/-- After the reset nothing of the source is outstanding. -/
theorem outstanding_cutBursts : outstanding (cutBursts s m src beats) m src = 0 := by
  obtain ⟨hcur, hwait, _⟩ := cutBursts_fab (s := s) (m := m) (src := src) (beats := beats)
  simp [outstanding, hcur, hwait, filter_drained]

/-- Of the one write in progress the beats already issued stand. -/
theorem cutBursts_write {b : Burst} {d : Bytes} (hc : s.fab.current = [b]) (hlive : liveBurst m src b = true) (hw : b.write = some d)
    (h0 : b.target ≠ 0) (h11 : b.target ≠ 11) (h12 : b.target ≠ 12) :
    (cutBursts s m src beats).mem = Memory.writeBytes s.mem b.addr (d.take (64 * beats)) := by
  simp [cutBursts, hc, hlive, hw, h0, h11, h12, burstWrite, memWrite]

theorem cutBursts_none (hc : s.fab.current = []) : (cutBursts s m src beats).mem = s.mem := by simp [cutBursts, hc]

end

/-! The end of a drain (R437, R448). -/

section
variable {s : State} {m src : Nat}

theorem drainEnd_none (h : draining s m src = false) (cycles : Nat) : drainEnd s m src cycles = s := by
  have hfind : s.fab.drains.find? (fun d => d.master == m && d.source == src) = none :=
    List.find?_eq_none.2 fun d hd hmine => Bool.false_ne_true (h ▸ (List.any_eq_true.2 ⟨d, hd, hmine⟩ : draining s m src = true))
  rw [drainEnd, hfind]

theorem getR_publishDrains_drains (s : State) : getR (publishDrains s) Reg.FAB_DRAINS = getR s Reg.FAB_DRAINS := by
  unfold publishDrains
  extract_lets d s1
  have hports : ∀ l : List Nat, getR (l.foldl (fun s m =>
      let dm := d.filter (·.master == m)
      setR s (Reg.FAB_MSTAT + 0x400 * m) (if dm.isEmpty then 0 else 2 ^ 30 + min 64 (dm.map (·.left)).sum * 2 ^ 16)) s1) Reg.FAB_DRAINS
        = getR s1 Reg.FAB_DRAINS := fun l => by
    refine foldl_keeps (fun u : State => getR u Reg.FAB_DRAINS) _ (fun u k => ?_) l s1
    refine getR_setR_ne u _ _ _ ?_
    simp only [Reg.FAB_MSTAT, Reg.FAB_DRAINS]
    omega
  exact (hports _).trans (getR_setR_ne s _ _ _ (by decide))

/-- The last transaction of a draining source has retired: the source is released and counted. -/
theorem drainEnd_released {d : Drain} (hd : s.fab.drains = [d]) (hm : d.master = m) (hsrc : d.source = src) (hstalled : s.fab.stalled = [])
    (hnone : ∀ b ∈ s.fab.current, ¬ (b.master = m ∧ b.source = src ∧ b.drained = true)) (cycles : Nat) :
    (drainEnd s m src cycles).fab.drains = [] ∧ (drainEnd s m src cycles).mem = s.mem ∧
      getR (drainEnd s m src cycles) Reg.FAB_DRAINS = satAdd 32 (getR s Reg.FAB_DRAINS) 1 := by
  have hfind : s.fab.drains.find? (fun d => d.master == m && d.source == src) = some d := by rw [hd]; simp [hm, hsrc]
  have hdone : s.fab.current.filter (fun b => b.master == m && b.source == src && b.drained) = [] := by
    refine List.filter_eq_nil_iff.2 fun b hb hmine => hnone b hb ?_
    simpa [and_assoc] using hmine
  unfold drainEnd
  rw [hfind]
  dsimp only
  rw [hdone, List.foldl_nil]
  generalize hu : ({ s with fab := { s.fab with
    current := s.fab.current.filter fun b => !(b.master == m && b.source == src && b.drained)
    waiting := s.fab.waiting.filter fun b => !(b.master == m && b.source == src && b.drained)
    drains := s.fab.drains.filter fun x => x != d } } : State) = u
  have hudrains : u.fab.drains = [] := by rw [← hu]; simp [hd]
  have hustalled : u.fab.stalled = [] := by rw [← hu]; exact hstalled
  have humem : u.mem = s.mem := by rw [← hu]
  have hureg : getR u Reg.FAB_DRAINS = getR s Reg.FAB_DRAINS := by rw [← hu]; rfl
  generalize hv : raise (logEv (addCtr (publishDrains u) Reg.FAB_DRAINS 1) 0x1104
    [(1, (m : Int)), (1, (src : Int)), (1, (d.total : Int)), (4, (cycles : Int))]) 17 4 = v
  have hrep : Reported u v := hv ▸ (Reported.refl u).publishDrains.addCtr.logEv.raise
  rw [wakeStalled_none (by rw [hrep.fab, hustalled])]
  refine ⟨by rw [hrep.fab, hudrains], hrep.mem.trans humem, ?_⟩
  rw [← hv, getR_raise_ne _ _ _ _ _ rfl (by decide), getR_logEv, getR_addCtr_same, getR_publishDrains_drains, hureg]

end

/-! The storm (R442). -/

/-- A commit of FAB_CTRL with STORMCLR ends the storm. -/
theorem commitWrite_stormClear (s : State) {v : Nat} (hv : bit v 1 = true) : (commitWrite s Reg.FAB_CTRL v false).fab.storm = false := by
  have habsent : ∀ u : State, unitAbsent u Reg.FAB_CTRL = false := fun u => by simp [unitAbsent, Reg.FAB_CTRL]
  have hwritable : writable s Reg.FAB_CTRL = true := by
    rw [writable, habsent]
    decide
  have hkeep : keepFresh s Reg.FAB_CTRL v = v := by
    rw [keepFresh, show maskOf .w1c Reg.FAB_CTRL = 0 by decide, Nat.and_zero, andNot_zero]
  have hword : (commitWord (stamp s) Reg.FAB_CTRL v false).fab.storm = false := by
    rw [commitWord, habsent]
    change (if bit v 1 then _ else _ : State).fab.storm = false
    rw [if_pos hv]
  rw [commitWrite, hwritable, hkeep]
  exact hword

/-! Scrubbing (R443). -/

/-- From `o` on the scrubber has moved on, and that is all. -/
structure ScrubbedOn (o s : State) : Prop where
  same : s = { o with fab := { o.fab with scrub := s.fab.scrub, scrubbed := s.fab.scrubbed } }

/-- Where the scrubber stands in memory k after its share. -/
def scrubPlace (s : State) (k p : Nat) : Nat :=
  let n := if k = 0 then getF s F.FAB_SCRUBDRAM_BYTES else getF s F.FAB_SCRUBSRAM_BYTES
  if codeSize s k = 0 then 0 else (p + n) % codeSize s k

/-- A share with no damaged codeword moves the scrubber on. -/
theorem scrubOne_sound {o s : State} (h : ScrubbedOn o s) (hinj : o.fab.inj = []) (k : Nat) :
    ScrubbedOn o (scrubOne s k) ∧ (scrubOne s k).fab.scrub = s.fab.scrub.set k (scrubPlace o k (s.fab.scrub.getD k 0)) := by
  have hs : s.fab.inj = [] := by rw [h.same]; exact hinj
  have hmoves : scrubOne s k = { s with fab := { s.fab with
      scrub := s.fab.scrub.set k (scrubPlace s k (s.fab.scrub.getD k 0)), scrubbed := (scrubOne s k).fab.scrubbed } } := by
    simp [scrubOne, hs, byPlace, scrubPlace]
  have hplace : scrubPlace s k = scrubPlace o k := by rw [h.same]; rfl
  refine ⟨⟨?_⟩, ?_⟩
  · rw [hmoves, h.same]
  · rw [hmoves, hplace]

/-- The shares of the first n memories: each of them has moved on by its own, from where it stood. -/
theorem scrubAll_sound {s : State} (hinj : s.fab.inj = []) (n : Nat) : ScrubbedOn s ((List.range n).foldl scrubOne s) ∧
    ∀ k, k < s.fab.scrub.length → ((List.range n).foldl scrubOne s).fab.scrub.length = s.fab.scrub.length ∧
      ((List.range n).foldl scrubOne s).fab.scrub.getD k 0
        = if k < n then scrubPlace s k (s.fab.scrub.getD k 0) else s.fab.scrub.getD k 0 := by
  induction n with
  | zero => exact ⟨⟨rfl⟩, fun k _ => ⟨rfl, by simp⟩⟩
  | succ n ih =>
    obtain ⟨hon, hat⟩ := ih
    rw [List.range_succ, List.foldl_append, List.foldl_cons, List.foldl_nil]
    obtain ⟨hon', hset⟩ := scrubOne_sound hon hinj n
    refine ⟨hon', fun k hk => ?_⟩
    obtain ⟨hlen, hget⟩ := hat k hk
    rw [hset]
    refine ⟨by simp [hlen], ?_⟩
    rcases Nat.lt_trichotomy k n with hlt | rfl | hgt
    · rw [List.getD_eq_getElem?_getD, List.getElem?_set_ne (by omega), ← List.getD_eq_getElem?_getD, hget, if_pos hlt, if_pos (by omega)]
    · rw [List.getD_eq_getElem?_getD, List.getElem?_set_self (by omega), hget]
      simp
    · rw [List.getD_eq_getElem?_getD, List.getElem?_set_ne (by omega), ← List.getD_eq_getElem?_getD, hget, if_neg (by omega),
        if_neg (by omega)]

/-- Once every memory has been read to its end the pass is reported. -/
theorem execScrub_on {s : State} (h : getF s F.FAB_CTRL_SCRUBEN ≠ 0) :
    execScrub s = .next (if (List.range 9).all ((List.range 9).foldl scrubOne s).fab.scrubbed.contains then
      raise { (List.range 9).foldl scrubOne s with fab := { ((List.range 9).foldl scrubOne s).fab with scrubbed := [] } } 17 6
      else (List.range 9).foldl scrubOne s) := by
  rw [execScrub, if_neg h]

/-- Settles O34: the cut of the bursts, the end of a drain, the storm, and each memory's share of the scrubber. -/
theorem fabricService : Obligations.FabricService := by
  unfold Obligations.FabricService
  intro s m src beats cycles v
  rw [exec_masterReset, exec_fabDrainEvent, exec_eccStormWindow, exec_stormClear, exec_scrub]
  obtain ⟨-, -, hdrains⟩ := cutBursts_fab (s := s) (m := m) (src := src) (beats := beats)
  refine ⟨fun hn hd hc hw => ?_, fun b d hc hlive hwr h0 h11 h12 => ?_, fun hn hd => ?_, fun hd => ?_, fun d hd hm hsrc hst hnone => ?_,
    fun hcalm => ?_, fun hstorm => ?_, ?_, fun hoff => ?_, fun hon hinj => ?_⟩
  · have hd' : (cutBursts s m src beats).fab.drains = [] := hdrains.trans hd
    exact ⟨_, rfl, (congrArg (·.drains) (masterReset_idle hn hd').fab).trans hd', (masterReset_mem 0).trans (cutBursts_none hc)⟩
  · exact ⟨_, rfl, (masterReset_mem 0).trans (cutBursts_write hc hlive hwr h0 h11 h12)⟩
  · have hfab := masterReset_drains hn (hdrains.trans hd) (beats := beats)
    refine ⟨_, rfl, by rw [hfab], ?_, ?_⟩
    · unfold outstanding
      rw [hfab]
      exact outstanding_cutBursts
    · simp [draining, hfab]
  · rw [drainEnd_none hd]
  · obtain ⟨hgone, hmem, hctr⟩ := drainEnd_released hd hm hsrc hst hnone cycles
    exact ⟨_, rfl, hgone, by simp [draining, hgone], hmem, hctr⟩
  · exact congrArg Host.Outcome.next (if_neg (Nat.not_lt.2 hcalm))
  · have hrose := (Reported.refl { s with fab := { s.fab with errSum := 0, storm := true } }).logEv (code := 0x1106)
      (p := [(4, (s.fab.errSum : Int))]) |>.raise (n := 17) (b := 5)
    exact ⟨_, congrArg Host.Outcome.next (if_pos hstorm), (congrArg (·.storm) hrose.fab :), (congrArg (·.errSum) hrose.fab :)⟩
  · exact ⟨_, rfl, rfl, commitWrite_stormClear s⟩
  · rw [execScrub, if_pos hoff]
  · obtain ⟨hsame, hplaces⟩ := scrubAll_sound hinj 9
    generalize ht : (List.range 9).foldl scrubOne s = t at hsame hplaces
    rw [execScrub_on hon, ht]
    have hmem : t.mem = s.mem := by rw [hsame.same]
    have htinj : t.fab.inj = [] := by rw [hsame.same]; exact hinj
    have hshares : s.fab.scrub.length = 9 → ∀ k, k < 9 → t.fab.scrub.getD k 0 = scrubPlace s k (s.fab.scrub.getD k 0) :=
      fun hlen k hk => (hplaces k (hlen ▸ hk)).2.trans (if_pos hk)
    have hpass := (Reported.refl { t with fab := { t.fab with scrubbed := [] } }).raise (n := 17) (b := 6)
    refine ⟨_, rfl, ?_⟩
    split
    · rw [hpass.mem, hpass.fab]
      exact ⟨hmem, htinj, hshares⟩
    · exact ⟨hmem, htinj, hshares⟩

end Sys2Proof.Machine
end

section
/-! PROOF. O48: resets (R457, R494, R495). -/

namespace Sys2Proof.Machine

open Sys2Proof

/-! What a reset leaves. -/

/-- `t` is what a reset of `s` leaves, the pair block and the rest of the always-on domain apart. -/
structure WasReset (s t : State) (cause : Nat) (xo high : Bool) : Prop where
  pending : t.pending = s.pending
  hw : t.hw = s.hw
  tl : t.tl = TlSt.reset
  take : t.take = TakeSt.reset
  kpu : t.kpu = KpuSt.reset
  log : t.log = LogSt.reset
  seq : t.pwr.seq = if high then .held else .raising 0
  clk : t.clk.st = if xo then .freeRun else .fault
  mem : t.mem = s.mem.filter (fun c => decide (0x90000000 ≤ c.1) && decide (c.1 < 0xA0000000))
  cause : getR t Reg.SYS_RSTCAUSE = cause
  lastshut : getR t Reg.PWR_LASTSHUT = getR s Reg.PWR_LASTSHUT

/-- From `o` on, registers may have changed. -/
structure RegsOnly (o s : State) : Prop where
  same : s = { o with regs := s.regs }

theorem RegsOnly.refl (s : State) : RegsOnly s s := ⟨rfl⟩
theorem RegsOnly.keep {o s : State} (h : RegsOnly o s) {regs} : RegsOnly o { s with regs := regs } := ⟨by rw [h.same]⟩

theorem RegsOnly.setR {o s : State} {a v} (h : RegsOnly o s) : RegsOnly o (setR s a v) := h.keep
theorem RegsOnly.setF {o s : State} {f v} (h : RegsOnly o s) : RegsOnly o (setF s f v) := h.keep
theorem RegsOnly.setFB {o s : State} {f b} (h : RegsOnly o s) : RegsOnly o (setFB s f b) := h.keep

theorem RegsOnly.ite {o : State} {c : Prop} [Decidable c] {a b : State} (ha : RegsOnly o a) (hb : RegsOnly o b) :
    RegsOnly o (if c then a else b) := by split; exacts [ha, hb]

theorem RegsOnly.identRegs {o s : State} (h : RegsOnly o s) (cause : Nat) : RegsOnly o (identRegs s cause) := by
  unfold Machine.identRegs
  extract_lets ids named straps graded part
  have hstraps : RegsOnly o straps := h.setR.setR.setR.setFB.setF.setF
  have hgraded : RegsOnly o graded := .ite hstraps.setR hstraps
  exact .ite hgraded.setR.setR.setF.setF.setF hgraded

/-- A reset gives the registers their values and changes nothing else of the blank device. -/
theorem resetRegisters_same (old new : State) (cause : Nat) :
    resetRegisters old new cause = { new with regs := (resetRegisters old new cause).regs, view := (resetRegisters old new cause).regs } := by
  unfold resetRegisters
  extract_lets ids shown kept
  have hids : RegsOnly new ids := (RegsOnly.refl new).identRegs cause
  have hshown : RegsOnly new shown := .ite hids.setF.setF hids
  have hkept : RegsOnly new kept := hshown.setR.setR
  exact congrArg (fun u : State => { u with view := kept.regs }) hkept.same

/-- The cause as SYS_RSTCAUSE shows it (R494). -/
theorem getR_identRegs_cause (s : State) {cause : Nat} (h : cause < 2 ^ 32) : getR (identRegs s cause) Reg.SYS_RSTCAUSE = cause := by
  unfold identRegs
  extract_lets ids named straps graded part
  have hstraps : getR straps Reg.SYS_RSTCAUSE = cause := by
    simp (disch := decide) only [straps, named, setFB, getR_setF_ne]
    rw [getR_setR_same, Nat.mod_eq_of_lt h]
  have hgraded : getR graded Reg.SYS_RSTCAUSE = cause := by
    unfold graded
    split
    · rw [getR_setR_ne _ _ _ _ (by decide), hstraps]
    · exact hstraps
  split
  · simpa (disch := decide) only [part, getR_setF_ne, getR_setR_ne] using hgraded
  · exact hgraded

/-- PWR_LASTSHUT belongs to the always-on domain: a reset keeps it (R494). -/
theorem getR_resetRegisters_lastshut (old new : State) (cause : Nat) :
    getR (resetRegisters old new cause) Reg.PWR_LASTSHUT = getR old Reg.PWR_LASTSHUT := by
  unfold resetRegisters
  change getR (setR (setR _ _ _) _ _) Reg.PWR_LASTSHUT = _
  rw [getR_setR_ne _ _ _ _ (by decide), getR_setR_same, Nat.mod_eq_of_lt (getR_lt _ _)]

theorem wasReset_deviceReset (s : State) {cause : Nat} (h : cause < 2 ^ 32) (xo test : Bool) :
    WasReset s (deviceReset s cause xo test) cause xo test ∧ (deviceReset s cause xo test).pair = PairSt.reset := by
  have hcause : getR (deviceReset s cause xo test) Reg.SYS_RSTCAUSE = cause := by
    rw [deviceReset_eq, getR_resetRegisters (by decide) (by decide) (by decide) (by decide), getR_identRegs_cause _ h]
  have hlast : getR (deviceReset s cause xo test) Reg.PWR_LASTSHUT = getR s Reg.PWR_LASTSHUT := by
    rw [deviceReset_eq, getR_resetRegisters_lastshut]
  have hregs := resetRegisters_same s (blankReset s xo test) cause
  generalize (resetRegisters s (blankReset s xo test) cause).regs = regs at hregs
  rw [← deviceReset_eq] at hregs
  refine ⟨⟨?_, ?_, ?_, ?_, ?_, ?_, ?_, ?_, ?_, hcause, hlast⟩, ?_⟩ <;> rw [hregs]
  case refine_8 => cases xo <;> rfl
  all_goals rfl

/-! A reset that makes an ACTIVE unit release its role (R457). -/

/-- From `o` on frames of the unit's own were queued or lost at the ports: beside the pair block, registers of the ports alone changed. -/
structure Farewell (o s : State) : Prop where
  same : s = { o with regs := s.regs, ccp := s.ccp, portA := s.portA, portB := s.portB, freeCtr := s.freeCtr, pair := s.pair }
  regs : ∀ a, a < 0x30000 ∨ 0x50000 ≤ a → getR s a = getR o a

theorem Farewell.refl (s : State) : Farewell s s := ⟨rfl, fun _ _ => rfl⟩

section
variable {o s : State}

theorem Farewell.keep (h : Farewell o s) {ccp portA portB freeCtr pair} :
    Farewell o { s with ccp := ccp, portA := portA, portB := portB, freeCtr := freeCtr, pair := pair } :=
  ⟨by rw [h.same], h.regs⟩

theorem Farewell.txLoss {p ctr} (h : Farewell o s) (hp : p < 2) (hc : 0x30000 ≤ ctr ∧ ctr < 0x40000) : Farewell o (txLoss s p ctr) := by
  refine ⟨by rw [Machine.txLoss, raise_eq, h.same]; rfl, fun a ha => ?_⟩
  have hstat : intStatAt (3 + p) = some (Reg.NET_INTSTAT + p * 0x10000) := by
    rcases (by omega : p = 0 ∨ p = 1) with rfl | rfl <;> rfl
  have hctr : a ≠ netR p ctr := by simp only [netR]; omega
  have hint : a ≠ Reg.NET_INTSTAT + p * 0x10000 := by simp only [Reg.NET_INTSTAT]; omega
  rw [Machine.txLoss, getR_raise_ne _ _ _ _ _ hstat hint, getR_addCtr_ne _ _ hctr, h.regs a ha]

theorem Farewell.setPort {p v} (h : Farewell o s) : Farewell o (setPort s p v) := by
  unfold Machine.setPort; split; exacts [h.keep, h.keep]

theorem Farewell.enqueue1 {p f} (h : Farewell o s) (hp : p < 2) : Farewell o (enqueue1 s p f) := by
  unfold Machine.enqueue1
  extract_lets v
  split
  · exact h
  · split
    · exact h.txLoss hp (by decide)
    · exact h.setPort

theorem lt_two_of_txPorts {p q : Nat} (hp : p < 2) (hq : q ∈ txPorts s p) : q < 2 := by
  unfold txPorts at hq
  split at hq
  · rcases List.mem_cons.1 hq with rfl | hq
    · decide
    · exact List.mem_singleton.1 hq ▸ (by decide)
  · exact List.mem_singleton.1 hq ▸ hp

theorem Farewell.sendUdp {p mac u payload kind} (h : Farewell o s) (hp : p < 2) : Farewell o (sendUdp s p mac u payload kind Machine.enqueue1) := by
  unfold Machine.sendUdp
  split
  · exact h.txLoss hp (by decide)
  · exact List.foldlRecOn (motive := Farewell o) _ _ h fun t ht q hq => ht.enqueue1 (lt_two_of_txPorts hp hq)

theorem Farewell.freeUdp {ip dport} (h : Farewell o s) : Farewell o (freeUdp s ip dport).2 := h.keep

/-- A clapper on the network leaves by the ports that carry clappers. -/
theorem Farewell.clapNet {r} (h : Farewell o s) : Farewell o (clapNet s r) := by
  unfold Machine.clapNet
  extract_lets n p s₁ b
  have h₁ : Farewell o s₁ := h.keep
  refine List.foldlRecOn (motive := Farewell o) _ _ h₁ fun t ht q hq => ?_
  have hlt : q < 2 := by
    rcases List.mem_cons.1 hq with rfl | hq
    · decide
    · exact List.mem_singleton.1 hq ▸ (by decide)
  split
  · have hfree : Farewell o (Machine.freeUdp t (getR t Reg.PAIR_NETGRP) (getR t Reg.PAIR_NETPORT)).2 := ht.freeUdp
    generalize Machine.freeUdp t (getR t Reg.PAIR_NETGRP) (getR t Reg.PAIR_NETPORT) = x at hfree
    exact hfree.sendUdp hlt
  · exact ht

theorem Farewell.pairRelease (s : State) : Farewell s (pairRelease s) := by
  unfold Machine.pairRelease
  split
  · exact .refl s
  · have hlink : Farewell s (clapLink s true) := (Farewell.refl s).keep
    exact hlink.clapNet.keep

/-- What a clapper leaves of the device is what its reset finds (R457, R494). -/
theorem WasReset.farewell {s r t : State} {cause : Nat} {xo high : Bool} (h : WasReset r t cause xo high) (hr : Farewell s r) (p : PairSt) :
    WasReset s { t with pair := p } cause xo high := by
  refine ⟨h.pending.trans ?_, h.hw.trans ?_, h.tl, h.take, h.kpu, h.log, h.seq, h.clk, h.mem.trans ?_, h.cause,
    h.lastshut.trans (hr.regs _ (.inr (by decide)))⟩ <;> rw [hr.same]

theorem wasReset_releaseReset (s : State) {cause : Nat} (h : cause < 2 ^ 32) (xo test : Bool) :
    WasReset s (releaseReset s cause xo test) cause xo test :=
  (wasReset_deviceReset (pairRelease s) h xo test).1.farewell (.pairRelease s) _

theorem pair_releaseReset (s : State) {cause : Nat} (h : cause < 2 ^ 32) (xo test : Bool) :
    (releaseReset s cause xo test).pair = { PairSt.reset with
      tx := (pairRelease s).pair.tx.drop s.pair.tx.length
      farewell := ((pairRelease s).portA.q1.drop s.portA.q1.length ++ (pairRelease s).portB.q1.drop s.portB.q1.length).map fun x : TxFrame => x.bytes } := by
  unfold releaseReset
  extract_lets r t sent
  have hpair : t.pair = PairSt.reset := (wasReset_deviceReset r h xo test).2
  change { t.pair with tx := r.pair.tx.drop s.pair.tx.length, farewell := sent.map fun x : TxFrame => x.bytes } = _
  rw [hpair]

/-- A unit that is not ACTIVE has nothing to release. -/
theorem pair_releaseReset_idle {s : State} {cause : Nat} (h : cause < 2 ^ 32) (xo test : Bool) (hr : s.pair.role ≠ .active) :
    (releaseReset s cause xo test).pair = PairSt.reset := by
  have hsame : pairRelease s = s := if_pos hr
  rw [pair_releaseReset s h, hsame, List.drop_length, List.drop_length, List.drop_length]
  rfl

/-- Of an ACTIVE unit the clapper with RELEASE has left on the pair link, and those of the network. -/
theorem pair_releaseReset_active {s : State} {cause : Nat} (h : cause < 2 ^ 32) (xo test : Bool) (hr : s.pair.role = .active) :
    (releaseReset s cause xo test).pair = { PairSt.reset with
      tx := [pairMsg 1 (clapperBody s ((s.pair.cseqP + 1) % 2 ^ 32) true)], farewell := (releaseReset s cause xo test).pair.farewell } := by
  have htx : (pairRelease s).pair.tx = s.pair.tx ++ [pairMsg 1 (clapperBody s ((s.pair.cseqP + 1) % 2 ^ 32) true)] := by
    rw [pairRelease_pair hr, clapNet_pair]
    rfl
  rw [pair_releaseReset s h, htx, List.drop_left]

end

end Sys2Proof.Machine
end

section
/-! SUPPORT. What the clock system and the servos leave alone (R333, R357 to R364): everything but their own blocks, registers and the
log. -/

namespace Sys2Proof.Machine

open Sys2Proof

/-- From `o` on, beside reports, only the clock system and the time changed. -/
structure ClockOnly (o s : State) : Prop where
  same : s = { o with regs := s.regs, log := s.log, ccp := s.ccp, clk := s.clk, time := s.time }

variable {o s : State}

theorem ClockOnly.refl (s : State) : ClockOnly s s := ⟨rfl⟩

theorem ClockOnly.keep (h : ClockOnly o s) {regs log ccp clk time} :
    ClockOnly o { s with regs := regs, log := log, ccp := ccp, clk := clk, time := time } := ⟨by rw [h.same]⟩

theorem ClockOnly.ite {c : Prop} [Decidable c] {a b : State} (ha : ClockOnly o a) (hb : ClockOnly o b) :
    ClockOnly o (if c then a else b) := by split; exacts [ha, hb]

theorem ClockOnly.reported {t : State} (h : ClockOnly o s) (ht : Reported s t) : ClockOnly o t := ⟨by rw [ht.same, h.same]⟩
theorem ClockOnly.addCtr {a n} (h : ClockOnly o s) : ClockOnly o (addCtr s a n) := h.keep
theorem ClockOnly.raise {n b} (h : ClockOnly o s) : ClockOnly o (raise s n b) := h.reported (Reported.refl s).raise
theorem ClockOnly.logEv {code p} (h : ClockOnly o s) : ClockOnly o (logEv s code p) := h.reported (Reported.refl s).logEv

theorem ClockOnly.clkState {st} (h : ClockOnly o s) : ClockOnly o (clkState s st) := .ite h h.keep.raise

theorem ClockOnly.setServo {p v} (h : ClockOnly o s) : ClockOnly o (setServo s p v) := .ite h.keep h.keep

theorem ClockOnly.servoState {p st} (h : ClockOnly o s) : ClockOnly o (servoState s p st) := .ite h h.setServo.logEv.raise

theorem ClockOnly.steerPort {y p} (h : ClockOnly o s) : ClockOnly o (steerPort y s p) := by
  unfold Machine.steerPort
  extract_lets v want i s₁ s₂
  have h₁ : ClockOnly o s₁ := h.setServo
  have h₂ : ClockOnly o s₂ := h.setServo
  exact .ite h (.ite (.ite h₁.servoState h₁) (.ite h₂.servoState h₂))

theorem ClockOnly.updateSteer (h : ClockOnly o s) : ClockOnly o (updateSteer s) := by
  rw [updateSteer_eq]
  exact (h.steerPort.steerPort).keep

theorem ClockOnly.startSwitch {r} (h : ClockOnly o s) : ClockOnly o (startSwitch s r) := h.addCtr.logEv.keep.clkState

theorem ClockOnly.enterHoldover (h : ClockOnly o s) : ClockOnly o (enterHoldover s) := by
  unfold Machine.enterHoldover
  extract_lets hist full f st k s₁ s₂
  have h₁ : ClockOnly o s₁ := h.keep.clkState
  have h₂ : ClockOnly o s₂ := h₁.addCtr.raise
  exact .ite h h₂.logEv.updateSteer

theorem ClockOnly.abandonSwitch (h : ClockOnly o s) : ClockOnly o (abandonSwitch s) := by
  unfold Machine.abandonSwitch; split; exacts [h.startSwitch, h.enterHoldover]

theorem ClockOnly.applySelection (h : ClockOnly o s) : ClockOnly o (applySelection s) := by
  have hstart : ∀ {r}, ClockOnly o (Machine.startSwitch s r) := h.startSwitch
  unfold Machine.applySelection
  refine .ite h ?_
  extract_lets hold
  split
  case h_1 => exact .ite h.enterHoldover (by split; exacts [hstart, h])
  case h_2 | h_3 => exact .ite h (by split; exacts [hstart, h])
  case h_4 | h_5 =>
    refine .ite h.enterHoldover ?_
    split
    · exact .ite (.ite hstart h) hstart
    · exact .ite h h.enterHoldover
  case h_6 => exact .ite h h.abandonSwitch
  case h_7 => exact h

theorem ClockOnly.afterFail {r} (h : ClockOnly o s) : ClockOnly o (afterFail s r) := by
  unfold Machine.afterFail
  split
  · exact .ite h.abandonSwitch h
  · exact .ite h.applySelection h
  · exact .ite h.applySelection h
  · exact h

theorem ClockOnly.setRef {r v} (h : ClockOnly o s) : ClockOnly o (setRef s r v) := h.keep
theorem ClockOnly.refInstall {r on} (h : ClockOnly o s) : ClockOnly o (refInstall s r on) := h.setRef.afterFail

theorem ClockOnly.refFail {r cause} (h : ClockOnly o s) : ClockOnly o (refFail s r cause) := by
  unfold Machine.refFail
  extract_lets v s₁ s₂ s₃
  exact .ite h.setRef h.setRef.addCtr.logEv.raise.afterFail

theorem ClockOnly.restartClk (h : ClockOnly o s) : ClockOnly o (restartClk s) := by
  unfold Machine.restartClk
  extract_lets on
  exact (foldl_invariant (ClockOnly o) _ (fun t r ht => ht.refInstall) _ _ h.keep).updateSteer

end Sys2Proof.Machine
end

section
/-! PROOF. O48: the power sequence, the watchdog, the rails and the thermal trip (R490, R492, R495, R500, R502, R506, R508, R539). -/

namespace Sys2Proof.Machine

open Sys2Proof

theorem exec_powerOnReset (xo test : Bool) (s : State) : exec (.powerOnReset xo test) s = .next (deviceReset s 1 xo test) := rfl
theorem exec_resetN (xo test : Bool) (s : State) : exec (.resetN xo test) s = .next (releaseReset s 2 xo test) := rfl
theorem exec_brownout (xo test : Bool) (s : State) : exec (.brownout xo test) s = .next (deviceReset s 4 xo test) := rfl
theorem exec_wdtExpire (rel : WdtIn) (s : State) : exec (.wdtExpire rel) s = .next (wdtExpire s rel) := rfl
theorem exec_wdtKick (v : Nat) (s : State) : exec (.wdtKick v) s = .next (wdtWrite s v) := rfl
theorem exec_pwrGoodRise (g : Nat) (s : State) : exec (.pwrGoodRise g) s = .next (pwrGoodRise s g) := rfl
theorem exec_sequenceTimeout (s : State) : exec .sequenceTimeout s = .next (sequenceTimeout s) := rfl
theorem exec_railUndervoltage (k mv : Nat) (low : Bool) (s : State) :
    exec (.railUndervoltage k mv low) s = .next (railUndervoltage s k mv low) := rfl
theorem exec_hostWake (s : State) : exec .hostWake s = .next (wakeStart s 2) := rfl
theorem exec_pmbusTransaction (v : Nat) (s : State) : exec (.pmbusTransaction v) s = .next (pmbWrite s v) := rfl
theorem exec_pmbusDone (nack pec : Bool) (data : Nat) (s : State) : exec (.pmbusDone nack pec data) s = .next (pmbusDone s nack pec data) := rfl
theorem exec_thermalTrip (k : Nat) (temp : Int) (s : State) : exec (.thermalTrip k temp) s = .next (thermalTrip s k temp) := rfl
theorem exec_thermalShutdown (s : State) : exec .thermalShutdown s = .next (thermalShutdown s) := rfl
theorem exec_pmbAlert (s : State) : exec .pmbAlert s = .next (logEv (raise s 20 2) 0x1408 []) := rfl
theorem exec_hoursTick (s : State) : exec .hoursTick s = .next { s with log := { s.log with hoursCnt := s.log.hoursCnt + 1 } } := rfl
theorem exec_netrefclkLoss (lost : Bool) (s : State) : exec (.netrefclkLoss lost) s = execNetrefclkLoss lost s := rfl

theorem RegsOnly.pwr {o s : State} (h : RegsOnly o s) : s.pwr = o.pwr := by rw [h.same]
theorem Reported.pwr {o s : State} (h : Reported o s) : s.pwr = o.pwr := by rw [h.same]
theorem Reported.pair {o s : State} (h : Reported o s) : s.pair = o.pair := by rw [h.same]
theorem Farewell.pwr {o s : State} (h : Farewell o s) : s.pwr = o.pwr := by rw [h.same]

/-! The watchdog (R495). -/

section
variable {s : State}

theorem wdtExpire_second (hb : s.pwr.boot = .running) (h : s.pwr.wdt1 = true) (xo test : Bool) :
    wdtExpire s ⟨xo, test⟩ = releaseReset s 8 xo test := by simp [wdtExpire, hb, h]

theorem wdtExpire_first (hb : s.pwr.boot = .running) (h : s.pwr.wdt1 = false) (rel : WdtIn) :
    (wdtExpire s rel).pwr.wdt1 = true ∧ (wdtExpire s rel).fw = { s.fw with running := s.fw.running, restarting := true, ready := false } ∧
      (wdtExpire s rel).ccp.fwQ = [] := by
  obtain ⟨hfw, hq⟩ := restartFw_fw s s.fw.running
  unfold wdtExpire
  rw [if_neg (by simp [hb]), if_neg (by simp [h])]
  extract_lets u w
  refine ⟨?_, ?_, ?_⟩
  · rw [logEv_pwr, raise_pwr]; rfl
  · rw [logEv_fw, raise_fw]; exact hfw
  · rw [logEv_ccp, raise_fwQ]; exact hq

theorem wdtWrite_pwr (v : Nat) :
    (wdtWrite s v).pwr = if bit v 31 then { s.pwr with wdt1 := false, wdtLoads := s.pwr.wdtLoads + 1 } else s.pwr := by
  unfold wdtWrite
  extract_lets u
  split <;> rfl

end

/-! PGOOD (R490, R511). -/

theorem bit_or_two_pow (x g : Nat) : bit (x ||| 2 ^ g) g = true := by
  rw [bit, Nat.testBit_or, Nat.testBit_two_pow_self, Bool.or_true]

theorem bit_pgood_set (s : State) (v : Nat) {g : Nat} (hg : g < 6) : bit (getF (setF s F.PWR_STATUS_PGOOD v) F.PWR_STATUS_PGOOD) g = bit v g := by
  rw [getF_setF_same _ _ _ (by decide) (by decide), bit, Nat.testBit_mod_two_pow]
  simp [F.PWR_STATUS_PGOOD, hg, bit]

/-- PWR_GOOD of group g shows high. -/
def pgoodUp (s : State) (g : Nat) : State := setF s F.PWR_STATUS_PGOOD (getF s F.PWR_STATUS_PGOOD ||| 2 ^ g)

theorem bit_pgoodUp (s : State) {g : Nat} (hg : g < 6) : bit (getF (pgoodUp s g) F.PWR_STATUS_PGOOD) g = true := by
  rw [pgoodUp, bit_pgood_set s _ hg, bit_or_two_pow]

/-! The power-up sequence and the boot (R490, R498, R500). -/

section
variable {s : State}

theorem pwrGoodRise_next {g : Nat} (h : s.pwr.seq = .raising g) (hg : g < 5) :
    pwrGoodRise s g = setPwr (pgoodUp s g) { s.pwr with seq := .raising (g + 1), en := s.pwr.en ||| 2 ^ (g + 1) } := by
  simp only [pwrGoodRise, h, ne_eq, not_true_eq_false, if_false, ge_iff_le, Nat.not_le.2 hg]
  rfl

theorem pwrGoodRise_last (h : s.pwr.seq = .raising 5) :
    pwrGoodRise s 5 = romStart (setPwr (pgoodUp s 5) { s.pwr with seq := .up }) := by
  simp only [pwrGoodRise, h, ne_eq, not_true_eq_false, if_false, ge_iff_le, Nat.le_refl, if_true]
  rfl

theorem pwrGoodRise_wakes (h : s.pwr.seq = .waking 0) :
    pwrGoodRise s 0 = setPwr (pgoodUp s 0) { s.pwr with seq := .waking 2, en := s.pwr.en ||| 4 } := by
  simp only [pwrGoodRise, h, ne_eq, not_true_eq_false, if_false, if_true]
  rfl

theorem pwrGoodRise_awake (h : s.pwr.seq = .waking 2) : pwrGoodRise s 2 = wakeDone (pgoodUp s 2) := by
  simp only [pwrGoodRise, h, ne_eq, not_true_eq_false, if_false, Nat.succ_ne_zero]
  rfl

/-- The wake is complete: the sequence is up, the DRAM out of self-refresh, the rate that of FREE_RUN (R508). -/
theorem wakeDone_facts : (wakeDone s).pwr = { s.pwr with seq := .up } ∧ (wakeDone s).dram.selfRef = .out ∧ (wakeDone s).tl.rate = 1 := by
  have h : ClockOnly _ (wakeDone s) := (ClockOnly.refl _).restartClk.logEv
  rw [h.same]
  exact ⟨rfl, rfl, rfl⟩

/-- No sequence runs: a PWR_GOOD and its timeout do nothing. -/
theorem sequence_idle (h : ∀ q, s.pwr.seq ≠ .raising q ∧ s.pwr.seq ≠ .waking q) (g : Nat) :
    pwrGoodRise s g = s ∧ sequenceTimeout s = s := by
  unfold pwrGoodRise sequenceTimeout
  cases hq : s.pwr.seq with
  | raising q => exact absurd hq (h q).1
  | waking q => exact absurd hq (h q).2
  | _ => exact ⟨rfl, rfl⟩

theorem venuePlace_pwr : (venuePlace s).pwr = s.pwr := by
  unfold venuePlace
  generalize List.range 64 = l
  exact foldl_keeps (fun u : State => u.pwr) _ (fun u c => setChan_pwr u c _) l s

theorem venuePlace_hw : (venuePlace s).hw = s.hw := by
  unfold venuePlace
  generalize List.range 64 = l
  exact foldl_keeps (fun u : State => u.hw) _ (fun u c => setChan_hw u c _) l s

theorem getF_startFirmware_wdt (img : Nat) (fb : Bool) : getF (startFirmware s img fb) F.PWR_WDT_MS = 2000 := by
  unfold startFirmware
  extract_lets u w
  exact (getF_setF_same u F.PWR_WDT_MS 2000 (by decide) (by decide)).trans (by decide)

theorem startFirmware_pwr (img : Nat) (fb : Bool) :
    (startFirmware s img fb).pwr = { s.pwr with boot := .running, wdt1 := false, wdtLoads := s.pwr.wdtLoads + 1 } := by
  unfold startFirmware
  extract_lets u w
  have hw : RegsOnly s w := (RegsOnly.refl s).setF.setFB.setF.setF
  change { w.pwr with boot := .running, wdt1 := false, wdtLoads := w.pwr.wdtLoads + 1 } = _
  rw [hw.pwr]

/-- A boot from flash starts firmware with the watchdog on, or falls back on the recovery UART (R498). -/
theorem flashBoot_facts : (flashBoot s).pwr.seq = s.pwr.seq ∧ (flashBoot s).pwr.en = s.pwr.en ∧
    ((flashBoot s).pwr.boot = .running ∧ getF (flashBoot s) F.PWR_WDT_MS = 2000 ∨ (flashBoot s).pwr.boot = .uart) := by
  have hstart : ∀ img fb, (startFirmware s img fb).pwr.seq = s.pwr.seq ∧ (startFirmware s img fb).pwr.en = s.pwr.en ∧
      ((startFirmware s img fb).pwr.boot = .running ∧ getF (startFirmware s img fb) F.PWR_WDT_MS = 2000 ∨
        (startFirmware s img fb).pwr.boot = .uart) := fun img fb => by
    rw [startFirmware_pwr]
    exact ⟨rfl, rfl, .inl ⟨rfl, getF_startFirmware_wdt img fb⟩⟩
  unfold flashBoot
  extract_lets p
  split
  · exact hstart p false
  · split
    · exact hstart (1 - p) true
    · exact ⟨rfl, rfl, .inr rfl⟩

theorem romStart_stopped (h : s.clk.st = .fault) : romStart s = s := if_pos h

/-- With the root PLL locked the ROM boots as the straps say (R496, R500). -/
theorem romStart_boots (h : s.clk.st ≠ .fault) : (romStart s).pwr.seq = s.pwr.seq ∧ (romStart s).pwr.en = s.pwr.en ∧
    (s.hw.bootmode = 1 → (romStart s).pwr.boot = .pcieWait) ∧ (s.hw.bootmode = 2 → (romStart s).pwr.boot = .uart) ∧
    (s.hw.bootmode = 3 → s.hw.secure = false → (romStart s).pwr.boot = .debugHold) ∧
    (s.hw.bootmode = 0 → (romStart s).pwr.boot = .running ∧ getF (romStart s) F.PWR_WDT_MS = 2000 ∨ (romStart s).pwr.boot = .uart) := by
  unfold romStart
  rw [if_neg h]
  extract_lets u
  have hpwr : u.pwr = s.pwr := venuePlace_pwr
  have hhw : u.hw = s.hw := venuePlace_hw
  obtain ⟨hseq, hen, hboot⟩ := flashBoot_facts (s := u)
  rw [hpwr] at hseq hen
  have hset : ∀ b, (setPwr u { u.pwr with boot := b }).pwr = { s.pwr with boot := b } := fun b => by rw [setPwr_pwr, hpwr]
  rw [← hhw]
  split
  next hm => rw [hset]; exact ⟨rfl, rfl, fun _ => rfl, by omega, by omega, by omega⟩
  next hm => rw [hset]; exact ⟨rfl, rfl, by omega, fun _ => rfl, by omega, by omega⟩
  next hm =>
    split
    next hsec => exact ⟨hseq, hen, by omega, by omega, fun _ hns => absurd hsec (by simp [hns]), by omega⟩
    next => rw [hset]; exact ⟨rfl, rfl, by omega, by omega, fun _ _ => rfl, by omega⟩
  next h1 h2 h3 => exact ⟨hseq, hen, fun e => absurd e h1, fun e => absurd e h2, fun e => absurd e h3, fun _ => hboot⟩

end

/-! Every enable falls (R490, R506). -/

section
variable {s : State}

theorem getF_publishPwr_pgood (s : State) : getF (publishPwr s) F.PWR_STATUS_PGOOD = getF s F.PWR_STATUS_PGOOD := by
  unfold publishPwr
  extract_lets u
  rw [setFB, getF_setF_apart _ _ _ _ (by decide) (by decide) (by decide)]
  unfold u
  rw [setFB, getF_setF_apart _ _ _ _ (by decide) (by decide) (by decide), getF_setF_apart _ _ _ _ (by decide) (by decide) (by decide)]

theorem getR_publishPwr_ne (s : State) {a : Nat} (h : a ≠ Reg.PWR_STATUS) : getR (publishPwr s) a = getR s a := by
  unfold publishPwr
  extract_lets u
  rw [setFB, getR_setF_ne _ _ _ h]
  unfold u
  rw [setFB, getR_setF_ne _ _ _ h, getR_setF_ne _ _ _ h]

/-- With every enable down no PWR_GOOD is high, and PWR_LASTSHUT says why (R490, R511). -/
theorem enablesDown_facts (q : SeqState) {kind : Nat} (hk : kind < 2 ^ 32) :
    (enablesDown s q kind).pwr = { s.pwr with seq := q, en := 0, boot := .sequencing } ∧
      getF (enablesDown s q kind) F.PWR_STATUS_PGOOD = 0 ∧ getR (enablesDown s q kind) Reg.PWR_LASTSHUT = kind ∧
      ∀ a, a ≠ Reg.PWR_STATUS → a ≠ Reg.PWR_LASTSHUT → getR (enablesDown s q kind) a = getR s a := by
  unfold enablesDown
  extract_lets _ u
  have hregs : ∀ a, getR (showNow (publishPwr (setR u Reg.PWR_LASTSHUT kind)) [Reg.PWR_STATUS, Reg.PWR_LASTSHUT]) a
      = getR (publishPwr (setR u Reg.PWR_LASTSHUT kind)) a := fun a => getR_congr _ _ a rfl
  refine ⟨rfl, ?_, ?_, fun a hs hl => ?_⟩
  · unfold getF
    rw [hregs]
    exact (getF_publishPwr_pgood _).trans ((getF_setR_ne u _ _ _ (by decide)).trans (getF_setF_same _ _ _ (by decide) (by decide)))
  · rw [hregs, getR_publishPwr_ne _ (by decide), getR_setR_same, Nat.mod_eq_of_lt hk]
  · rw [hregs, getR_publishPwr_ne _ hs, getR_setR_ne _ _ _ _ hl]
    exact getR_setF_ne _ _ _ hs

/-- A PWR_GOOD that is awaited is late (R490). -/
theorem sequenceTimeout_late {g : Nat} (h : s.pwr.seq = .raising g ∨ s.pwr.seq = .waking g) :
    sequenceTimeout s = enablesDown (setR s Reg.PWR_SEQSTAT (2 ^ 31 + g % 8)) .failed 1 := by
  unfold sequenceTimeout
  rcases h with h | h <;> rw [h]

theorem thermalShutdown_trip (h : s.pwr.trip = true) : thermalShutdown s = enablesDown s .off 2 := if_pos h
theorem thermalShutdown_cool (h : s.pwr.trip = false) : thermalShutdown s = s := if_neg (by simp [h])

end

/-! The fault mute, and the drivers of an ACTIVE unit (R201, R457). -/

theorem getR_fmuteSet_ne (s : State) (b : Nat) {a : Nat} (h1 : a ≠ Reg.XPT_FMUTE) (h2 : a ≠ Reg.XPT_FMUTECNT) (h3 : a ≠ Reg.XPT_INTSTAT) :
    getR (fmuteSet s b) a = getR s a := by
  unfold fmuteSet
  extract_lets c u
  split
  · rfl
  · rw [getR_logEv, getR_raise_ne _ _ _ _ _ rfl h3, getR_addCtr_ne _ _ h2]
    exact getR_setR_ne _ _ _ _ h1

theorem Reported.fmuteSet {o s b} (h : Reported o s) : Reported o (fmuteSet s b) := .ite h h.setEvent.addCtr.raise.logEv

/-- The outputs are muted for cause b, and an ACTIVE unit lets its drivers go. -/
theorem muteRelease_facts (u : State) {b : Nat} (hb : b < 3) :
    (pairRelease (fmuteSet u b)).pwr = u.pwr ∧ bit (getF (pairRelease (fmuteSet u b)) F.XPT_FMUTE_CAUSE) b = true ∧
    (u.pair.role = .active → (pairRelease (fmuteSet u b)).pair.driven = false ∧
      (pairRelease (fmuteSet u b)).pair.pend = some (.resync, 9)) ∧
    ∀ a, 0x140000 ≤ a → getR (pairRelease (fmuteSet u b)) a = getR u a := by
  have hrelease := Farewell.pairRelease (fmuteSet u b)
  have hmuted : Reported u (fmuteSet u b) := (Reported.refl u).fmuteSet
  have hcause : getF (pairRelease (fmuteSet u b)) F.XPT_FMUTE_CAUSE = getF (fmuteSet u b) F.XPT_FMUTE_CAUSE := by
    unfold getF
    rw [hrelease.regs _ (.inr (by decide))]
  refine ⟨hrelease.pwr.trans hmuted.pwr, ?_, fun hr => ?_, fun a ha => ?_⟩
  · rw [hcause]
    exact fmuteSet_latches u b hb
  · rw [pairRelease_pair (by rw [hmuted.pair]; exact hr)]
    exact ⟨rfl, rfl⟩
  · rw [hrelease.regs a (.inr (by omega)), getR_fmuteSet_ne u b (by simp only [Reg.XPT_FMUTE]; omega)
      (by simp only [Reg.XPT_FMUTECNT]; omega) (by simp only [Reg.XPT_INTSTAT]; omega)]

theorem thermalTrip_again {s : State} (h : s.pwr.trip = true) (k : Nat) (temp : Int) : thermalTrip s k temp = s := if_pos h

/-- A sensor trips (R506). -/
theorem thermalTrip_facts {s : State} (h : s.pwr.trip = false) (k : Nat) (temp : Int) :
    (thermalTrip s k temp).pwr = { s.pwr with trip := true } ∧ bit (getF (thermalTrip s k temp) F.XPT_FMUTE_CAUSE) 1 = true ∧
      (s.pair.role = .active → (thermalTrip s k temp).pair.driven = false) := by
  unfold thermalTrip
  rw [if_neg (by simp [h])]
  extract_lets _ u w
  have hw : Reported u w := (Reported.refl u).logEv.raise
  obtain ⟨hpwr, hcause, hdrive, -⟩ := muteRelease_facts w (b := 1) (by decide)
  exact ⟨hpwr.trans hw.pwr, hcause, fun hr => (hdrive (by rw [hw.pair]; exact hr)).1⟩

/-! The rails (R489, R492, R511). -/

section
variable {s : State} {k mv : Nat} {low : Bool}

/-- A monitor's reading, and the PWR_GOOD pin of its group. -/
def railSeen (s : State) (k mv : Nat) (low : Bool) : State := pgoodPin (setR s (Reg.PWR_RAILMV + 4 * k) (mv % 4096)) k low

theorem railSeen_regsOnly : RegsOnly s (railSeen s k mv low) := by
  have h : RegsOnly s (setR s (Reg.PWR_RAILMV + 4 * k) (mv % 4096)) := (RegsOnly.refl s).setR
  unfold railSeen pgoodPin
  split
  · exact .ite h h.setF
  · exact h

theorem getR_railSeen_ne {a : Nat} (h : a ≠ Reg.PWR_STATUS) (hk : a ≠ Reg.PWR_RAILMV + 4 * k) : getR (railSeen s k mv low) a = getR s a := by
  have hset := getR_setR_ne s (Reg.PWR_RAILMV + 4 * k) (mv % 4096) a hk
  unfold railSeen pgoodPin
  split
  · split
    · exact hset
    · exact (getR_setF_ne _ _ _ h).trans hset
  · exact hset

theorem getR_railSeen_mv : getR (railSeen s k mv low) (Reg.PWR_RAILMV + 4 * k) = mv % 4096 := by
  have hne : Reg.PWR_RAILMV + 4 * k ≠ F.PWR_STATUS_PGOOD.addr := by simp only [Reg.PWR_RAILMV, F.PWR_STATUS_PGOOD]; omega
  have hset : getR (setR s (Reg.PWR_RAILMV + 4 * k) (mv % 4096)) (Reg.PWR_RAILMV + 4 * k) = mv % 4096 := by
    rw [getR_setR_same, Nat.mod_eq_of_lt (by omega)]
  unfold railSeen pgoodPin
  split
  · split
    · exact hset
    · exact (getR_setF_ne _ _ _ hne).trans hset
  · exact hset

theorem lt_six_of_railGroup {g : Nat} (h : railGroup k = some g) : g < 6 := by
  unfold railGroup at h
  have hk : k < 7 := by
    by_contra hk
    rw [List.getD_eq_default _ _ (by simpa using hk)] at h
    exact absurd h (by simp)
  interval_cases k <;> exact Option.some.inj h ▸ (by decide)

/-- PGOOD follows the pin of a group whose enable is up (R511). -/
theorem bit_railSeen_pgood {g : Nat} (hg : railGroup k = some g) (on : powered s = true) (hen : bit s.pwr.en g = true) :
    bit (getF (railSeen s k mv low) F.PWR_STATUS_PGOOD) g = !low := by
  have hpin : ∀ u : State, powered u = true → bit u.pwr.en g = true → bit (getF (pgoodPin u k low) F.PWR_STATUS_PGOOD) g = !low := by
    intro u on hen
    unfold pgoodPin
    rw [hg]
    dsimp only
    rw [if_neg (by simp [on, hen]), bit_pgood_set _ _ (lt_six_of_railGroup hg)]
    cases low
    · exact bit_or_two_pow _ _
    · exact bit_andNot_same _ _
  exact hpin _ on hen

theorem railLimit_congr {s u : State} (h : getR u F.KPU_CLK_DIV_CUR.addr = getR s F.KPU_CLK_DIV_CUR.addr) (k : Nat) :
    railLimit u k = railLimit s k := by
  unfold railLimit getF
  rw [h]

/-- The rail of a reading is judged against the limit in effect. -/
theorem railUndervoltage_eq (hk : k < 9) :
    railUndervoltage s k mv low = railState (railSeen s k mv low) k mv (low || decide (mv < railLimit s k)) := by
  have hlimit : railLimit (railSeen s k mv low) k = railLimit s k :=
    railLimit_congr (getR_railSeen_ne (by decide) (by simp only [Reg.PWR_RAILMV, F.KPU_CLK_DIV_CUR]; omega)) k
  rw [← hlimit, railUndervoltage, Nat.mod_eq_of_lt hk]
  rfl

theorem railState_same {u : State} {under : Bool} (h : bit u.pwr.uvRails k = under) : railState u k mv under = u := if_pos h.symm

theorem railState_back {u : State} (h : bit u.pwr.uvRails k = true) :
    railState u k mv false = setPwr u { u.pwr with uvRails := andNot u.pwr.uvRails (2 ^ k) } := by
  unfold railState
  rw [if_neg (by simp [h]), if_pos (by decide)]

/-- A rail goes under voltage: the outputs are muted, the event is counted, an ACTIVE unit lets its drivers go (R492). -/
theorem railState_falls {u : State} (h : bit u.pwr.uvRails k = false) :
    (railState u k mv true).pwr = { u.pwr with uvRails := u.pwr.uvRails ||| 2 ^ k } ∧
    bit (getF (railState u k mv true) F.XPT_FMUTE_CAUSE) 0 = true ∧
    getR (railState u k mv true) Reg.PWR_UVCNT = satAdd 32 (getR u Reg.PWR_UVCNT) 1 ∧
    (u.pair.role = .active → (railState u k mv true).pair.driven = false ∧ (railState u k mv true).pair.pend = some (.resync, 9)) ∧
    ∀ a, 0x140000 ≤ a → a ≠ Reg.PWR_UVCNT → a ≠ Reg.PWR_INTSTAT → getR (railState u k mv true) a = getR u a := by
  unfold railState
  rw [if_neg (by simp [h]), if_neg (by decide)]
  extract_lets _ u₁ u₂ u₃
  have h₃ : Reported u₁ u₃ := (Reported.refl u₁).addCtr.raise.logEv
  have hcount : getR u₃ Reg.PWR_UVCNT = satAdd 32 (getR u Reg.PWR_UVCNT) 1 := by
    unfold u₃ u₂
    rw [getR_logEv, getR_raise_ne _ _ _ _ _ rfl (by decide), getR_addCtr_same]
    rfl
  obtain ⟨hpwr, hcause, hdrive, hregs⟩ := muteRelease_facts u₃ (b := 0) (by decide)
  refine ⟨hpwr.trans h₃.pwr, hcause, (hregs _ (by decide)).trans hcount, fun hr => hdrive (by rw [h₃.pair]; exact hr), fun a ha hc hi => ?_⟩
  rw [hregs a ha]
  unfold u₃ u₂
  rw [getR_logEv, getR_raise_ne _ _ _ _ _ rfl hi, getR_addCtr_ne _ _ hc]
  rfl

/-- What the statement says of a rail's reading (R489, R492, R511). -/
theorem railUndervoltage_facts (hk : k < 9) :
    let p := s.pwr
    let t := railUndervoltage s k mv low
    getR t (Reg.PWR_RAILMV + 4 * k) = mv % 4096 ∧
    (low = true ∨ mv < railLimit s k → bit p.uvRails k = false → t.pwr = { p with uvRails := p.uvRails ||| 2 ^ k } ∧
      bit (getF t F.XPT_FMUTE_CAUSE) 0 = true ∧ getR t Reg.PWR_UVCNT = satAdd 32 (getR s Reg.PWR_UVCNT) 1 ∧
      (s.pair.role = .active → t.pair.driven = false ∧ t.pair.pend = some (.resync, 9))) ∧
    (low = false → railLimit s k ≤ mv → bit p.uvRails k = true → t.pwr = { p with uvRails := andNot p.uvRails (2 ^ k) } ∧ t.xpt = s.xpt) ∧
    (bit p.uvRails k = decide (low = true ∨ mv < railLimit s k) → t.pwr = p ∧ t.xpt = s.xpt ∧ t.log = s.log) ∧
    (∀ q, railGroup k = some q → powered s = true → bit p.en q = true → bit (getF t F.PWR_STATUS_PGOOD) q = !low) := by
  intro p t
  have ht : t = _ := railUndervoltage_eq hk
  have hseen : RegsOnly s (railSeen s k mv low) := railSeen_regsOnly
  have hpgood := @bit_railSeen_pgood s k mv low
  have hmv := @getR_railSeen_mv s k mv low
  have huv : getR (railSeen s k mv low) Reg.PWR_UVCNT = getR s Reg.PWR_UVCNT :=
    getR_railSeen_ne (by decide) (by simp only [Reg.PWR_UVCNT, Reg.PWR_RAILMV]; omega)
  generalize railSeen s k mv low = u at ht hseen hpgood hmv huv
  have hpwr : u.pwr = p := hseen.pwr
  have hxpt : u.xpt = s.xpt := by rw [hseen.same]
  have hlog : u.log = s.log := by rw [hseen.same]
  have hpair : u.pair = s.pair := by rw [hseen.same]
  have hpg : ∀ v : State, getR v Reg.PWR_STATUS = getR u Reg.PWR_STATUS → getF v F.PWR_STATUS_PGOOD = getF u F.PWR_STATUS_PGOOD :=
    fun v hv => congrArg (fun x => bits x _ _) hv
  rw [ht]
  by_cases hsame : bit p.uvRails k = decide (low = true ∨ mv < railLimit s k)
  · rw [railState_same (by rw [hpwr, hsame, Bool.decide_or, Bool.decide_eq_true])]
    refine ⟨hmv, fun hlow hbit => ?_, fun hlow hmin hbit => ?_, fun _ => ⟨hpwr, hxpt, hlog⟩, fun q => hpgood⟩
    · rw [hbit, decide_eq_true hlow] at hsame
      exact absurd hsame (by decide)
    · rw [hbit, decide_eq_false (by simp [hlow, hmin])] at hsame
      exact absurd hsame (by decide)
  · by_cases hlow : low = true ∨ mv < railLimit s k
    · have hbit : bit u.pwr.uvRails k = false := by simpa [hpwr, hlow] using hsame
      have hunder : (low || decide (mv < railLimit s k)) = true := by simpa using hlow
      obtain ⟨h1, h2, h3, h4, h5⟩ := railState_falls (mv := mv) hbit
      rw [hunder]
      rw [hpwr] at h1
      rw [huv] at h3
      rw [hpair] at h4
      refine ⟨(h5 _ (by simp only [Reg.PWR_RAILMV]; omega) (by simp only [Reg.PWR_RAILMV, Reg.PWR_UVCNT]; omega)
        (by simp only [Reg.PWR_RAILMV, Reg.PWR_INTSTAT]; omega)).trans hmv, fun _ _ => ⟨h1, h2, h3, h4⟩, fun hno hmin => ?_,
        fun h => absurd h hsame, fun q hq on hen => ?_⟩
      · exact absurd hlow (by simp [hno, hmin])
      · rw [hpg _ (h5 _ (by decide) (by decide) (by decide))]
        exact hpgood hq on hen
    · have hbit : bit u.pwr.uvRails k = true := by simpa [hpwr, hlow] using hsame
      have hunder : (low || decide (mv < railLimit s k)) = false := by simpa using hlow
      rw [hunder, railState_back hbit]
      exact ⟨hmv, fun h => absurd h hlow, fun _ _ _ => ⟨by rw [setPwr_pwr, hpwr], hxpt⟩, fun h => absurd h hsame, fun q => hpgood⟩

/-- The limits of the rails: 95% of the nominal voltage, and for VDD_KPU that of the divider in effect (R489, R492). -/
theorem railLimit_table : (∀ q, q < 9 → q ≠ 2 → railLimit s q = [713, 760, 0, 998, 475, 808, 1140, 1710, 713].getD q 0) ∧
    (getF s F.KPU_CLK_DIV_CUR = 2 → railLimit s 2 = 725) ∧ (getF s F.KPU_CLK_DIV_CUR = 3 → railLimit s 2 = 675) ∧
    (getF s F.KPU_CLK_DIV_CUR = 4 → railLimit s 2 = 625) := by
  refine ⟨fun q hq hne => ?_, fun h => ?_, fun h => ?_, fun h => ?_⟩
  · rw [railLimit, if_neg hne]
    interval_cases q <;> rfl
  all_goals
    rw [railLimit, if_pos rfl, h]
    rfl

end

/-! The Dark state and the power management bus (R502, R508). -/

section
variable {s : State}

theorem wakeStart_idle {b : Nat} (h : s.pwr.seq ≠ .dark ∨ bit (getR s Reg.PWR_WAKECFG) b = false) : wakeStart s b = s :=
  if_pos (by simpa using h)

/-- HOST_WAKE_N wakes the device from the Dark state (R508). -/
theorem wakeStart_host (h : s.pwr.seq = .dark) (hb : bit (getR s Reg.PWR_WAKECFG) 2 = true) :
    (wakeStart s 2).pwr = { s.pwr with seq := .waking 0, en := s.pwr.en ||| 1 } ∧ getR (wakeStart s 2) Reg.PWR_WAKECAUSE = 4 := by
  unfold wakeStart
  rw [if_neg (by simp [h, hb])]
  extract_lets u
  have hu : u.pwr = s.pwr := raise_pwr ..
  refine ⟨congrArg (fun q : PwrSt => { q with seq := SeqState.waking 0, en := q.en ||| 1 }) hu, ?_⟩
  · change getR u Reg.PWR_WAKECAUSE = 4
    unfold u
    rw [getR_raise_ne _ _ _ _ _ rfl (by decide), getR_setR_same]
    rfl

/-- A command with GO starts a transaction on the idle bus. -/
theorem pmbWrite_go {v : Nat} (hbusy : getF s F.PWR_PMBSTAT_BUSY = 0) (hv : bit v 31 = true) :
    getF (pmbWrite s v) F.PWR_PMBSTAT_BUSY = 1 ∧ (pmbWrite s v).pwr = { s.pwr with pmbRead := decide (bits v 29 28 = 3) } := by
  unfold pmbWrite
  extract_lets u
  have hu : getF u F.PWR_PMBSTAT_BUSY = 0 := (getF_setR_ne s _ _ _ (by decide)).trans hbusy
  rw [if_pos ⟨hv, hu⟩, beq_eq_decide]
  exact ⟨(getF_congr _ _ _ (setPwr_regs _ _)).trans (getF_setFB_same u _ true rfl (by decide)), rfl⟩

theorem pmbusDone_idle (h : getF s F.PWR_PMBSTAT_BUSY = 0) (nack pec : Bool) (data : Nat) : pmbusDone s nack pec data = s := if_pos h

/-- The transaction ends: its errors show, and a read word that was acknowledged is there. -/
theorem pmbusDone_facts (h : getF s F.PWR_PMBSTAT_BUSY = 1) (nack pec : Bool) (data : Nat) :
    getF (pmbusDone s nack pec data) F.PWR_PMBSTAT_BUSY = 0 ∧ (nack = true → getF (pmbusDone s nack pec data) F.PWR_PMBSTAT_NACK = 1) ∧
      (pec = true → getF (pmbusDone s nack pec data) F.PWR_PMBSTAT_PECERR = 1) ∧
      (s.pwr.pmbRead = true → nack = false → getR (pmbusDone s nack pec data) Reg.PWR_PMBDATA = data % 65536) := by
  have hflag : ∀ (u : State) (c : Bool) (f g : Fld), g.lo ≤ g.hi → f.hi < 32 → f.apart g = true →
      getF (if c then setFB u g true else u) f = getF u f := fun u c f g hg hf hfg => by
    split
    · exact getF_setF_apart u f g _ hg hf hfg
    · rfl
  unfold pmbusDone
  rw [if_neg (by omega)]
  extract_lets u₁ u₂ u₃ u₄
  have hend : ∀ f : Fld, f.addr = Reg.PWR_PMBSTAT → getF (raise u₄ 20 1) f = getF u₃ f := fun f hf => by
    rw [getF_raise_ne _ _ _ _ _ rfl (by rw [hf]; decide)]
    unfold u₄
    split
    · exact getF_setR_ne _ _ _ _ (by rw [hf]; decide)
    · rfl
  refine ⟨?_, fun hn => ?_, fun hp => ?_, fun hread hn => ?_⟩
  · rw [hend _ rfl]
    unfold u₃ u₂
    rw [hflag _ _ _ _ (by decide) (by decide) (by decide), hflag _ _ _ _ (by decide) (by decide) (by decide)]
    exact getF_setFB_same s _ false rfl (by decide)
  · rw [hend _ rfl]
    unfold u₃ u₂
    rw [hflag _ _ _ _ (by decide) (by decide) (by decide), if_pos hn]
    exact getF_setFB_same u₁ _ true rfl (by decide)
  · rw [hend _ rfl]
    unfold u₃
    rw [if_pos hp]
    exact getF_setFB_same u₂ _ true rfl (by decide)
  · have hpwr : u₃.pwr = s.pwr := RegsOnly.pwr (.ite (RegsOnly.setFB (.ite (RegsOnly.refl s).setFB.setFB (RegsOnly.refl s).setFB))
      (.ite (RegsOnly.refl s).setFB.setFB (RegsOnly.refl s).setFB))
    rw [getR_raise_ne _ _ _ _ _ rfl (by decide)]
    unfold u₄
    rw [if_pos (by simp [hpwr, hread, hn]), getR_setR_same, Nat.mod_eq_of_lt (by omega)]

end

/-! NETREFCLK (R539). -/

section
variable {s : State} (hA : s.portA.held = []) (hB : s.portB.held = [])
include hA hB

/-- Frames that wait for their place: none. -/
theorem passFrames_none : passFrames s none = s := by
  have hnone : sortBy (fun a b => ingressBefore ((fun x : Nat × RxHeld => (x.2.stamp, x.1)) a) ((fun x : Nat × RxHeld => (x.2.stamp, x.1)) b))
      (s.portA.held.map (0, ·) ++ s.portB.held.map (1, ·)) = [] := by
    rw [hA, hB]
    rfl
  unfold passFrames
  extract_lets key all waits keep _ _ t
  have hall : all = [] := hnone
  have hkeep : ∀ p, keep p = [] := fun p => by unfold keep; rw [hall]; rfl
  have ht : t = s := by
    have hports : t = { s with portA := { s.portA with held := s.portA.held }, portB := { s.portB with held := s.portB.held } } := by
      rw [← (hkeep 0).trans hA.symm, ← (hkeep 1).trans hB.symm]
    exact hports
  rw [hall, ht]
  rfl

/-- The link of a port drops: with no frame waiting for its place that is all. -/
theorem linkEvent_drops (p : Nat) : linkEvent s p false 0 false false false =
    setPort s p { portOf s p with linkPend := some (false, pcsSpeed (getF s (netF p F.NET_CFG_PCS)) 0, false, false, false) } := by
  have hchange : linkChange s p false 0 false false false =
      setPort s p { portOf s p with linkPend := some (false, pcsSpeed (getF s (netF p F.NET_CFG_PCS)) 0, false, false, false) } := by
    simp [linkChange]
  unfold linkEvent
  rw [hchange]
  generalize hw : setPort s p _ = w
  extract_lets was v up u
  have hup : up = false := by
    unfold up v pcsLink
    rw [← hw, portOf_setPort]
  have hheld : w.portA.held = [] ∧ w.portB.held = [] := by
    rw [← hw]
    unfold setPort portOf
    split <;> exact ⟨hA, hB⟩
  have hu : u = w := by
    unfold u v
    rw [hup, if_neg (by decide), passFrames_none hheld.1 hheld.2]
  rw [hup, hu]
  simp

end

/-- The pair link drops with NETREFCLK: its state, a resynchronisation and the count aside nothing changes (R465, R539). -/
theorem linkSync_drops (s : State) : (linkSync s false).pwr = s.pwr ∧ (linkSync s false).pair.link = false ∧
    ∀ q, portOf (linkSync s false) q = portOf s q := by
  have hlost : ∀ u : State, u.pair.link = false → (linkLost u).pwr = u.pwr ∧ (linkLost u).pair.link = false ∧
      ∀ q, portOf (linkLost u) q = portOf u q := fun u hu => by
    unfold linkLost
    split
    · exact ⟨rfl, hu, fun q => rfl⟩
    · exact ⟨rfl, hu, fun q => rfl⟩
  unfold linkSync
  extract_lets up u
  split
  next h => exact ⟨rfl, h, fun q => rfl⟩
  next =>
    split
    · exact ⟨rfl, rfl, fun q => rfl⟩
    · exact hlost _ rfl

/-- NETREFCLK stops: both ports and the pair link drop. -/
theorem netrefclkLoss_facts {s : State} (hA : s.portA.held = []) (hB : s.portB.held = []) :
    ∃ t, exec (.netrefclkLoss true) s = .next t ∧ t.pwr = { s.pwr with netref := false } ∧ t.pair.link = false ∧ ∀ q, q < 2 →
      (portOf t q).linkPend = some (false, pcsSpeed (getF s (netF q F.NET_CFG_PCS)) 0, false, false, false) := by
  have hlost : execNetrefclkLoss true s = .next (linkSync (linkEvent (linkEvent (setPwr s { s.pwr with netref := false })
      0 false 0 false false false) 1 false 0 false false false) false) := by
    simp only [execNetrefclkLoss, Bool.not_true, Bool.false_eq_true, if_false, List.foldl_cons, List.foldl_nil]
  rw [exec_netrefclkLoss, hlost]
  generalize hu : setPwr s { s.pwr with netref := false } = u
  have hupwr : u.pwr = { s.pwr with netref := false } := by rw [← hu, setPwr_pwr]
  have huA : u.portA = s.portA := by rw [← hu, setPwr_portA]
  have huB : u.portB = s.portB := by rw [← hu, setPwr_portB]
  have hureg : ∀ f, getF u f = getF s f := fun f => getF_congr _ _ f (by rw [← hu, setPwr_regs])
  rw [linkEvent_drops (huA ▸ hA) (huB ▸ hB) 0]
  generalize hv : setPort u 0 _ = v
  have hvA : v.portA.held = [] := by simp only [← hv, setPort, portOf, if_true, huA, hA]
  have hvB : v.portB.held = [] := by simp only [← hv, setPort, if_true, huB, hB]
  have hvreg : ∀ f, getF v f = getF s f := fun f => (getF_congr _ _ f (by rw [← hv, setPort_regs])).trans (hureg f)
  rw [linkEvent_drops hvA hvB 1]
  generalize hw : setPort v 1 _ = w
  obtain ⟨hpwr, hlink, hport⟩ := linkSync_drops w
  have hwpwr : w.pwr = u.pwr := by rw [← hw, setPort_pwr, ← hv, setPort_pwr]
  refine ⟨_, rfl, hpwr.trans (hwpwr.trans hupwr), hlink, fun q hq => ?_⟩
  rw [hport, ← hw]
  interval_cases q
  · rw [portOf_setPort_ne _ _ _ _ (by decide), ← hv, portOf_setPort, hureg]
  · rw [portOf_setPort, hvreg]

/-- Settles O48: the resets, the watchdog, the power sequence, the rails, the wake, the power management bus, the thermal trip and
NETREFCLK, each by what its own operation leaves. -/
theorem powerAndReset : Obligations.PowerAndReset := by
  unfold Obligations.PowerAndReset
  intro s xo test low nack pec g k mv v data temp p released resets
  have hreset : ∀ i cause, cause < 2 ^ 32 → cause ≠ 2 → cause ≠ 8 → exec i s = .next (deviceReset s cause xo test) → resets i cause test := by
    intro i cause hc h2 h8 hexec
    obtain ⟨h, hpair⟩ := wasReset_deviceReset s hc xo test
    exact ⟨_, hexec, h.pending, h.hw, h.tl, h.take, h.kpu, h.log, hpair.trans (if_neg (by simp [h2, h8])).symm, h.seq, h.clk, h.mem, h.cause,
      h.lastshut⟩
  have hrelease : ∀ i cause, cause < 2 ^ 32 → cause = 2 ∨ cause = 8 → exec i s = .next (releaseReset s cause xo test) → resets i cause test := by
    intro i cause hc h28 hexec
    have h := wasReset_releaseReset s hc xo test
    refine ⟨_, hexec, h.pending, h.hw, h.tl, h.take, h.kpu, h.log, ?_, h.seq, h.clk, h.mem, h.cause, h.lastshut⟩
    by_cases hr : s.pair.role = .active
    · rw [if_pos ⟨h28, hr⟩]
      exact pair_releaseReset_active hc xo test hr
    · rw [if_neg (by simp [hr])]
      exact pair_releaseReset_idle hc xo test hr
  obtain ⟨hlimits, hdiv2, hdiv3, hdiv4⟩ := railLimit_table (s := s)
  rw [exec_wdtExpire, exec_wdtKick, exec_pwrGoodRise, exec_pwrGoodRise, exec_pwrGoodRise, exec_pwrGoodRise, exec_sequenceTimeout,
    exec_railUndervoltage, exec_hostWake, exec_pmbusTransaction, exec_pmbusDone, exec_thermalTrip, exec_thermalShutdown]
  refine ⟨hreset _ 1 (by decide) (by decide) (by decide) (exec_powerOnReset xo test s), hrelease _ 2 (by decide) (.inl rfl) (exec_resetN xo test s),
    hreset _ 4 (by decide) (by decide) (by decide) (exec_brownout xo test s), fun hb h1 => ?wdt2, fun hb h1 => ?wdt1, fun hb => ?wdt0,
    fun hv => ⟨_, rfl, ?_⟩, fun hv => ⟨_, rfl, ?_⟩, fun hg h5 => ?next, fun h5 => ?last, fun h => ?wakes, fun h => ?awake, fun h => ?idle,
    fun h => ?late, hlimits, hdiv2, hdiv3, hdiv4, fun hk => ⟨_, rfl, railUndervoltage_facts hk⟩, fun h => ?sleeps, fun hd hb => ?dark,
    fun hbusy hv => ⟨_, rfl, pmbWrite_go hbusy hv⟩, fun h => ?pmbIdle, fun h => ⟨_, rfl, pmbusDone_facts h nack pec data⟩,
    fun h => ?again, fun h => ⟨_, rfl, thermalTrip_facts h k temp⟩, fun h => ?cool, fun h => ?shut, exec_pmbAlert s, exec_hoursTick s, rfl,
    netrefclkLoss_facts⟩
  case wdt2 =>
    refine hrelease _ 8 (by decide) (.inr rfl) ?_
    rw [exec_wdtExpire, wdtExpire_second hb h1]
  case wdt1 =>
    obtain ⟨hwdt, hfw, hq⟩ := wdtExpire_first hb h1 ⟨xo, test⟩
    refine ⟨_, rfl, hwdt, ?_, ?_, hq, ?_⟩ <;> rw [hfw]
  case wdt0 => exact congrArg Host.Outcome.next (if_pos hb)
  · rw [wdtWrite_pwr, if_pos hv]
  · rw [wdtWrite_pwr, if_neg (by simp [hv])]
  case next => exact ⟨_, congrArg Host.Outcome.next (pwrGoodRise_next hg h5), rfl, bit_pgoodUp s (by omega)⟩
  case last =>
    rw [pwrGoodRise_last h5]
    generalize hu : setPwr (pgoodUp s 5) { s.pwr with seq := .up } = u
    have hpwr : u.pwr = { p with seq := .up } := by rw [← hu, setPwr_pwr]
    have hclk : u.clk = s.clk := by rw [← hu, setPwr_clk]; rfl
    have hhw : u.hw = s.hw := by rw [← hu, setPwr_hw]; rfl
    refine ⟨_, rfl, ?_⟩
    by_cases hf : s.clk.st = .fault
    · rw [romStart_stopped (hclk ▸ hf), hpwr]
      exact ⟨rfl, rfl, fun _ => rfl, fun hrun => absurd hf hrun⟩
    · obtain ⟨hseq, hen, hboot⟩ := romStart_boots (s := u) (hclk ▸ hf)
      rw [hpwr] at hseq hen
      rw [hhw] at hboot
      exact ⟨hseq, hen, fun h => absurd h hf, fun _ => hboot⟩
  case wakes => exact ⟨_, congrArg Host.Outcome.next (pwrGoodRise_wakes h), rfl⟩
  case awake => exact ⟨_, congrArg Host.Outcome.next (pwrGoodRise_awake h), wakeDone_facts⟩
  case idle =>
    obtain ⟨hrise, htimeout⟩ := sequence_idle h g
    rw [hrise, htimeout]
    exact ⟨rfl, rfl⟩
  case late =>
    obtain ⟨hpwr, hpgood, hlast, hregs⟩ := enablesDown_facts (s := setR s Reg.PWR_SEQSTAT (2 ^ 31 + g % 8)) .failed (kind := 1) (by decide)
    refine ⟨_, congrArg Host.Outcome.next (sequenceTimeout_late h), hpwr, hpgood, hlast, ?_⟩
    rw [hregs _ (by decide) (by decide), getR_setR_same, Nat.mod_eq_of_lt (by omega)]
  case sleeps => rw [wakeStart_idle h]
  case dark => exact ⟨_, rfl, wakeStart_host hd hb⟩
  case pmbIdle => rw [pmbusDone_idle h]
  case again => rw [thermalTrip_again h]
  case cool => rw [thermalShutdown_cool h]
  case shut =>
    obtain ⟨hpwr, -, hlast, -⟩ := enablesDown_facts (s := s) .off (kind := 2) (by decide)
    exact ⟨_, congrArg Host.Outcome.next (thermalShutdown_trip h), hpwr, hlast⟩

end Sys2Proof.Machine
end

section
/-! SUPPORT. What the selection rules can do (R357, R358). -/

namespace Sys2Proof.Machine

open Sys2Proof

/-- The selection is left as it is, a switch starts, or holdover is entered. -/
def Selected (s t : State) : Prop := t = s ∨ (∃ r, t = startSwitch s r) ∨ t = enterHoldover s

section
variable {s : State}

theorem Selected.stays : Selected s s := .inl rfl
theorem Selected.starts {r : Nat} : Selected s (startSwitch s r) := .inr (.inl ⟨r, rfl⟩)
theorem Selected.holds : Selected s (enterHoldover s) := .inr (.inr rfl)

theorem Selected.ite {c : Prop} [Decidable c] {a b : State} (ha : Selected s a) (hb : Selected s b) : Selected s (if c then a else b) := by
  split; exacts [ha, hb]

theorem selected_abandonSwitch : Selected s (abandonSwitch s) := by
  unfold abandonSwitch; split; exacts [.starts, .holds]

theorem selected_applySelection : Selected s (applySelection s) := by
  unfold applySelection
  refine .ite .stays ?_
  extract_lets hold
  split
  case h_1 => exact .ite .holds (by split; exacts [.starts, .stays])
  case h_2 | h_3 => exact .ite .stays (by split; exacts [.starts, .stays])
  case h_4 | h_5 =>
    refine .ite .holds ?_
    split
    · exact .ite (.ite .starts .stays) .starts
    · exact .ite .stays .holds
  case h_6 => exact .ite .stays selected_abandonSwitch
  case h_7 => exact .stays

/-- A failure of a reference does to the selection what the rules can do (R358). -/
theorem selected_afterFail {r : Nat} : Selected s (afterFail s r) := by
  unfold afterFail
  split
  · exact .ite selected_abandonSwitch .stays
  · exact .ite selected_applySelection .stays
  · exact .ite selected_applySelection .stays
  · exact .stays

end

/-! The blocks of the clock system and of the time: what each step writes. -/

@[simp] theorem clkState_time (s : State) (st : ClkState) : (clkState s st).time = s.time := by
  unfold clkState; split <;> simp

@[simp] theorem startSwitch_time (s : State) (r : Nat) : (startSwitch s r).time = s.time := by
  simp [startSwitch]

/-- A change of REF_STATE (R361, R370). -/
theorem clkState_clk (s : State) (st : ClkState) :
    (clkState s st).clk = { s.clk with st := st, lockedWin := decide (s.clk.st = st) && s.clk.lockedWin } := by
  unfold clkState
  split
  next h => simp [← h]
  next h => simp [h]

@[simp] theorem servoState_clk (s : State) (p : Nat) (st : ServoState) : (servoState s p st).clk = s.clk := by
  unfold servoState
  extract_lets v u
  split
  · rfl
  · simp [u]

@[simp] theorem steerPort_clk (y : Int) (s : State) (p : Nat) : (steerPort y s p).clk = s.clk := by
  unfold Machine.steerPort
  extract_lets v want i s₁ s₂
  have h₁ : s₁.clk = s.clk := setServo_clk ..
  have h₂ : s₂.clk = s.clk := setServo_clk ..
  split
  · rfl
  · split
    · split
      · rw [servoState_clk, h₁]
      · exact h₁
    · split
      · rw [servoState_clk, h₂]
      · exact h₂

theorem servoOf_congr {s t : State} (h : t.time = s.time) (p : Nat) : servoOf t p = servoOf s p := by
  unfold servoOf
  rw [h]

theorem servoOf_setServo_ne (s : State) {p q : Nat} (v : Servo) (h : ¬ (p = 0 ↔ q = 0)) : servoOf (setServo s p v) q = servoOf s q := by
  unfold servoOf setServo
  by_cases hp : p = 0
  · have hq : q ≠ 0 := fun hq => h (by simp [hp, hq])
    simp [hp, hq]
  · have hq : q = 0 := by
      by_contra hq
      exact h (by simp [hp, hq])
    simp [hp, hq]

end Sys2Proof.Machine
end

section
/-! PROOF. O53: Sync, Follow_Up and the servos (R328 to R334, R351, R362). -/

namespace Sys2Proof.Machine

open Sys2Proof

theorem exec_ptpSyncReceive (p : Nat) (m : PtpMsg) (s : State) :
    exec (.ptpSyncReceive p m) s = .next (whilePowered s fun s => ptpSync s p m) := rfl
theorem exec_followUpReceive (p : Nat) (m : PtpMsg) (s : State) :
    exec (.followUpReceive p m) s = .next (whilePowered s fun s => followUp s p m) := rfl
theorem exec_servoTimeout (p : Nat) (s : State) : exec (.servoTimeout p) s = .next (servoTimeout s p) := rfl
theorem exec_fdiffReport (p : Nat) (s : State) : exec (.fdiffReport p) s = .next (fdiffReport s p) := rfl

/-! Syncs and Follow_Ups (R328 to R330). -/

section
variable {s : State} {p : Nat} {m : PtpMsg}

theorem ptp_uncaptured (h : captures s (addrPort s p) m = false) : ptpSync s p m = s ∧ followUp s p m = s :=
  ⟨if_pos (by simp [h]), if_pos (by simp [h])⟩

variable (h : captures s (addrPort s p) m = true)
include h

/-- A Sync counts the Follow_Up that the one before it has not had; then its kind decides. -/
theorem ptpSync_captured : ptpSync s p m =
    let n := addrPort s p
    let u := if (servoOf s n).held = none then s else addCtr s (Reg.TIME_FUMISS + 0x20 * n) 1
    if m.twoStep then setServo u n { servoOf s n with held := some (m.seq, (m.stamp : Int), m.corr) }
    else handleOffset (setServo u n { servoOf s n with held := none }) n (offsetOf u n m.stamp m.origin m.corr) m.stamp := by
  have hmissed : ∀ (o : Option (Nat × Int × Int)) (a b : State), (if o.isSome then b else a) = if o = none then a else b := fun o a b => by
    cases o <;> simp
  unfold ptpSync
  rw [if_neg (by simp [h])]
  dsimp only
  rw [hmissed]

theorem followUp_meets {t2 c : Int} (hheld : (servoOf s (addrPort s p)).held = some (m.seq, t2, c)) : followUp s p m =
    handleOffset (setServo s (addrPort s p) { servoOf s (addrPort s p) with held := none }) (addrPort s p)
      (offsetOf s (addrPort s p) t2 m.origin (c + m.corr)) t2 := by
  unfold followUp
  rw [if_neg (by simp [h])]
  extract_lets v
  rw [show v.held = some (m.seq, t2, c) from hheld]
  exact if_pos rfl

theorem followUp_misses (hheld : ∀ a b, (servoOf s (addrPort s p)).held ≠ some (m.seq, a, b)) :
    followUp s p m = addCtr s (Reg.TIME_FUMISS + 0x20 * addrPort s p) 1 := by
  unfold followUp
  rw [if_neg (by simp [h])]
  extract_lets v
  split
  next q t2 c hq => exact if_neg fun hseq : q = m.seq => hheld t2 c (hseq ▸ hq)
  next => rfl

end

/-! Offsets (R331, R332, R351, R362). -/

section
variable {s : State} {p : Nat} {o t2 : Int}

theorem handleOffset_ignored (h : (servoOf s p).st = .disabled ∨ s.tl.relock = true ∨ s.time.stepPend ≠ none) : handleOffset s p o t2 = s := by
  refine if_pos ?_
  rcases h with h | h | h
  · simp [h]
  · simp [h]
  · simp [Option.isSome_iff_ne_none.2 h]

theorem handleOffset_steps (hrelock : s.tl.relock = false) (hnone : s.time.stepPend = none) (hst : (servoOf s p).st = .acquire)
    (hsteer : (servoOf s p).steer = true) (hen : getF s F.TIME_CTRL_STEPEN = 1)
    (hfar : 4 * getF s (F.TIME_STEPTHR_NS.plus (128 * p)) < o.natAbs) :
    handleOffset s p o t2 = enterJump { s with time := { s.time with stepPend := some (-o) } } := by
  unfold handleOffset
  rw [if_neg (by simp [hrelock, hnone, hst])]
  exact if_pos ⟨hst, hsteer, hen, hfar⟩

theorem enterJump_idle (h : ptpSelected s = false ∨ (s.clk.st ≠ .acquiring ∧ s.clk.st ≠ .locked)) : enterJump s = s := by
  refine if_neg ?_
  rcases h with h | ⟨h1, h2⟩
  · simp [h]
  · simp [h1, h2]

theorem enterJump_pends (h : ptpSelected s = true) (hst : s.clk.st = .acquiring ∨ s.clk.st = .locked) :
    enterJump s = raise { s with clk := { s.clk with st := .splicePending, lockedWin := false, target := s.clk.sel, jump := true } } 1 0 := by
  have hnot : s.clk.st ≠ .splicePending := by rcases hst with hst | hst <;> simp [hst]
  unfold enterJump
  rw [if_pos (by rcases hst with hst | hst <;> simp [h, hst])]
  exact if_neg hnot

theorem noteRequest_time (s : State) : (noteRequest s).time = s.time ∧ (noteRequest s).regs = s.regs := ⟨rfl, rfl⟩

/-- The request of the steering servo, which the DPLL follows while it steers towards one (R351). -/
theorem noteRequest_clk (s : State) : (noteRequest s).clk = { s.clk with
    request := (noteRequest s).clk.request
    dco := if dpllSteers s = true ∧ ptpSelected s = true then (noteRequest s).clk.request else s.clk.dco } :=
  congrArg (fun d : Int => { s.clk with request := (noteRequest s).clk.request, dco := d }) (if_congr (Bool.and_eq_true_iff) rfl rfl)

/-- The servo computation moves the servo, and the request follows the servo that steers (R331, R351). -/
theorem servoFilter_facts (hp : p < 2) :
    let i := servoClamp s p ((servoOf s p).i + rhu 18 (o * (getR s (Reg.TIME_KI + 128 * p) : Nat)))
    let P := rhu 18 (o * (getR s (Reg.TIME_KP + 128 * p) : Nat))
    let t := servoFilter s p o
    servoOf t p = { servoOf s p with pt := P, i := i, y := servoClamp s p (P + i) } ∧ t.regs = s.regs ∧
    ((servoOf s p).steer = true → p = 0 ∨ s.time.sa.steer = false → t.clk.request = clampI (-128000000) 128000000 (-servoClamp s p (P + i))) ∧
    t.clk = { s.clk with request := t.clk.request,
                         dco := if dpllSteers s = true ∧ ptpSelected s = true then t.clk.request else s.clk.dco } := by
  intro i P t
  generalize hv : ({ servoOf s p with pt := P, i := i, y := servoClamp s p (P + i) } : Servo) = v
  have ht : t = noteRequest (setServo s p v) := by rw [← hv]; rfl
  have hclk : (setServo s p v).clk = s.clk := setServo_clk s p v
  refine ⟨?_, ?_, fun hsteer hfirst => ?_, ?_⟩
  · rw [ht, servoOf_congr (noteRequest_time _).1, servoOf_setServo]
  · rw [ht, (noteRequest_time _).2, setServo_regs]
  · have hvs : v.steer = true := by rw [← hv]; exact hsteer
    have hvy : v.y = servoClamp s p (P + i) := by rw [← hv]
    rw [ht, ← hvy]
    interval_cases p
    · exact congrArg (fun y : Int => clampI (-128000000) 128000000 (-y)) (if_pos hvs)
    · have hsa : s.time.sa.steer = false := hfirst.resolve_left (by decide)
      exact congrArg (fun y : Int => clampI (-128000000) 128000000 (-y)) ((if_neg (by simp [setServo, hsa])).trans (if_pos hvs))
  · rw [ht]
    have hsteers : dpllSteers (setServo s p v) = dpllSteers s := by rw [dpllSteers, hclk, dpllSteers]
    have hptp : ptpSelected (setServo s p v) = ptpSelected s := by rw [ptpSelected, hclk, ptpSelected]
    have hnote := noteRequest_clk (setServo s p v)
    rwa [hsteers, hptp, hclk] at hnote

end

/-! A servo that has lost its master (R333). -/

/-- The servo of port p is LOST with its output at y. -/
def LostAt (p : Nat) (y : Int) (s : State) : Prop := (servoOf s p).st = .lost ∧ (servoOf s p).y = y

section
variable {s : State} {p : Nat} {y : Int}

theorem LostAt.of_time {t : State} (h : LostAt p y s) (ht : t.time = s.time) : LostAt p y t := by
  unfold LostAt
  rw [servoOf_congr ht]
  exact h

/-- A servo that stops steering stays LOST with its output. -/
theorem LostAt.steerPort (h : LostAt p y s) (hsel : s.clk.sel = 7) (hp : p < 2) {q : Nat} (hq : q < 2) (x : Int) :
    LostAt p y (steerPort x s q) := by
  have hwant : (s.clk.sel == 4 + q) = false := by
    rw [hsel]
    interval_cases q <;> rfl
  have hkept : ∀ u : State, LostAt p y u → ∀ st, (servoOf u q).st ≠ .lost → LostAt p y (servoState u q st) := fun u hu st hst => by
    have hpq : p ≠ q := fun hpq => hst (hpq ▸ hu.1)
    unfold servoState
    extract_lets v w
    split
    · exact hu
    · have hw : LostAt p y w := by
        unfold LostAt w
        rw [servoOf_setServo_ne _ _ (by omega)]
        exact hu
      exact hw.of_time (by simp)
  unfold Machine.steerPort
  extract_lets v want i s₁ s₂
  have hoff : want = false := hwant
  have h₂ : LostAt p y s₂ := by
    unfold s₂
    by_cases hpq : p = q
    · subst hpq
      unfold LostAt
      rw [servoOf_setServo]
      exact h
    · unfold LostAt
      rw [servoOf_setServo_ne _ _ (by omega)]
      exact h
  rw [hoff]
  split
  · exact h
  · rw [if_neg (by decide)]
    split
    next hst =>
      refine hkept s₂ h₂ _ ?_
      unfold s₂
      rw [servoOf_setServo]
      rcases hst with hst | hst <;> simp [hst]
    next => exact h₂

theorem LostAt.enterHoldover (h : LostAt p y s) (hp : p < 2) : LostAt p y (enterHoldover s) := by
  unfold Machine.enterHoldover
  extract_lets hist full f st k s₁ s₂
  have h₂ : LostAt p y (logEv s₂ 0x0105 [(1, (clkCode st : Int)), (1, (hist.length : Int))]) := h.of_time (by simp [s₂, s₁, k])
  have hsel : (logEv s₂ 0x0105 [(1, (clkCode st : Int)), (1, (hist.length : Int))]).clk.sel = 7 := by
    simp [s₂, s₁, k, clkState_clk]
  split
  · exact h
  · rw [updateSteer_eq]
    have h₀ := h₂.steerPort hsel hp (q := 0) (by decide)
    exact ((h₀ _).steerPort (by rw [steerPort_clk, hsel]) hp (q := 1) (by decide) _).of_time (noteRequest_time _).1

theorem LostAt.selected {t : State} (h : LostAt p y s) (hp : p < 2) (ht : Selected s t) : LostAt p y t := by
  rcases ht with rfl | ⟨r, rfl⟩ | rfl
  · exact h
  · exact h.of_time (startSwitch_time s r)
  · exact h.enterHoldover hp

theorem LostAt.refFail (h : LostAt p y s) (hp : p < 2) {r cause : Nat} : LostAt p y (refFail s r cause) := by
  unfold Machine.refFail
  extract_lets v s₁ s₂ s₃
  split
  · exact h
  · have h₃ : LostAt p y (raise s₃ 1 2) := h.of_time (by simp [s₃, s₂, s₁])
    exact h₃.selected hp selected_afterFail

end

/-! The timeout and the frequency difference (R333, R334). -/

section
variable {s : State} {p : Nat}

theorem servoTimeout_idle (h : (servoOf s p).st = .disabled ∨ (servoOf s p).st = .wait ∨ (servoOf s p).st = .lost) : servoTimeout s p = s := by
  refine if_neg ?_
  rcases h with h | h | h <;> simp [h]

/-- Without an accepted offset the servo is LOST, its output frozen at its integral (R333). -/
theorem servoTimeout_lost (hp : p < 2) (h : (servoOf s p).st = .measure ∨ (servoOf s p).st = .acquire ∨ (servoOf s p).st = .locked) :
    (servoOf (servoTimeout s p) p).st = .lost ∧ (servoOf (servoTimeout s p) p).y = (servoOf s p).i := by
  unfold servoTimeout
  extract_lets v
  rw [if_pos h]
  generalize hu : noteRequest (setServo s p { v with y := v.i }) = u
  have hservo : servoOf u p = { v with y := v.i } := by rw [← hu, servoOf_congr (noteRequest_time _).1, servoOf_setServo]
  have hlive : ¬ (servoOf u p).st = .lost := by
    rw [hservo]
    rcases h with h | h | h <;> simp [v, h]
  have hlost : LostAt p v.i (servoState u p .lost) := by
    unfold servoState
    extract_lets w x
    rw [if_neg hlive]
    have hx : LostAt p v.i x := by
      unfold LostAt x w
      rw [servoOf_setServo, hservo]
      exact ⟨rfl, rfl⟩
    exact hx.of_time (by simp)
  exact hlost.refFail hp

theorem fdiffReport_idle (h : (servoOf s p).st ≠ .measure ∨ (servoOf s p).sec = none) : fdiffReport s p = s := by
  unfold fdiffReport
  extract_lets v
  split
  · rfl
  next hst =>
    have hnone : v.sec = none := h.resolve_left (by simpa using hst)
    rw [hnone]

/-- A second of MEASURE reports its frequency difference (R334). -/
theorem fdiffReport_facts {o1 t1 o2 t2 : Int} (h : (servoOf s p).st = .measure) (hsec : (servoOf s p).sec = some (o1, t1, o2, t2))
    (hlt : t1 < t2) :
    let f := divRhu ((o2 - o1) * 256000000000) (4 * (t2 - t1)).toNat
    (servoOf (fdiffReport s p) p).fdiff = f ∧ (servoOf (fdiffReport s p) p).sec = none ∧
      getR (fdiffReport s p) (Reg.TIME_FDIFF + 128 * p) = unsigned 32 (satS 32 f) := by
  intro f
  have hreport : fdiffReport s p = setR (setServo (setServo s p { servoOf s p with sec := none }) p
      { servoOf (setServo s p { servoOf s p with sec := none }) p with fdiff := f }) (Reg.TIME_FDIFF + 128 * p) (unsigned 32 (satS 32 f)) := by
    unfold fdiffReport
    extract_lets v
    rw [if_neg (by simp [v, h]), show v.sec = some (o1, t1, o2, t2) from hsec]
    exact if_neg (by omega)
  rw [hreport, getR_setR_same, Nat.mod_eq_of_lt (unsigned_lt _ _), servoOf_congr (setR_time _ _ _), servoOf_setServo, servoOf_setServo]
  exact ⟨rfl, rfl, rfl⟩

end

/-- Settles O53: a message is captured or not, an offset steps or filters, a servo is timed out or measures. -/
theorem networkTime : Obligations.NetworkTime := by
  unfold Obligations.NetworkTime
  intro s p m o t2 c o1 t1 o2 hp n v sv clamp
  rw [exec_ptpSyncReceive, exec_followUpReceive, exec_servoTimeout, exec_fdiffReport]
  refine ⟨fun h => ?_, fun on hcap => ?_, rfl, handleOffset_ignored, fun hrelock hnone hst hsteer hen hfar => ?_, servoFilter_facts hp,
    fun h => ?_, fun h => ⟨_, rfl, servoTimeout_lost hp h⟩, fun h => ?_, fun h hsec hlt => ⟨_, rfl, fdiffReport_facts h hsec hlt⟩⟩
  · rcases h with h | off
    · obtain ⟨hsync, hfollow⟩ := ptp_uncaptured (p := p) h
      rw [whilePowered_idle hsync, whilePowered_idle hfollow]
      exact ⟨rfl, rfl⟩
    · rw [whilePowered_off off, whilePowered_off off]
      exact ⟨rfl, rfl⟩
  · intro missed u
    rw [whilePowered_on on, whilePowered_on on, ptpSync_captured hcap]
    refine ⟨fun htwo => congrArg Host.Outcome.next (if_pos htwo), fun hone => congrArg Host.Outcome.next (if_neg (by simp [hone])), fun hheld => ?_,
      fun hheld => ?_⟩
    · rw [followUp_meets hcap hheld]
    · rw [followUp_misses hcap hheld]
  · intro u
    rw [handleOffset_steps hrelock hnone hst hsteer hen hfar]
    exact ⟨fun h => enterJump_idle (s := u) h, fun h hclk => enterJump_pends (s := u) h hclk⟩
  · rw [servoTimeout_idle h]
  · rw [fdiffReport_idle h]

end Sys2Proof.Machine
end

section
/-! SUPPORT. What the recorder leaves alone as it writes its records (R477 to R485), and the entry to FAULT (R364, R457). -/

namespace Sys2Proof.Machine

open Sys2Proof

/-- From `o` on, beside reports, only the fabric's codewords and the change count moved. -/
structure RecorderOnly (o s : State) : Prop where
  same : s = { o with regs := s.regs, log := s.log, ccp := s.ccp, fab := s.fab, tl := s.tl }

section
variable {o s : State}

theorem RecorderOnly.refl (s : State) : RecorderOnly s s := ⟨rfl⟩

theorem RecorderOnly.keep (h : RecorderOnly o s) {regs log ccp fab tl} :
    RecorderOnly o { s with regs := regs, log := log, ccp := ccp, fab := fab, tl := tl } := ⟨by rw [h.same]⟩

theorem RecorderOnly.ite {c : Prop} [Decidable c] {a b : State} (ha : RecorderOnly o a) (hb : RecorderOnly o b) :
    RecorderOnly o (if c then a else b) := by split; exacts [ha, hb]

theorem RecorderOnly.reported {t : State} (h : RecorderOnly o s) (ht : Reported s t) : RecorderOnly o t := ⟨by rw [ht.same, h.same]⟩
theorem RecorderOnly.raise {n b} (h : RecorderOnly o s) : RecorderOnly o (raise s n b) := h.reported (Reported.refl s).raise
theorem RecorderOnly.slotWritten {i n} (h : RecorderOnly o s) : RecorderOnly o (slotWritten s i n) := by
  unfold Machine.slotWritten whole
  exact .ite h h.keep

theorem RecorderOnly.eccReport {k ue m src a} (h : RecorderOnly o s) : RecorderOnly o (eccReport s k ue m src a) := by
  unfold Machine.eccReport
  extract_lets s₁ s₂ s₃ s₄ first _ s₅ s₆
  have h₁ : RecorderOnly o s₁ := h.keep
  have h₂ : RecorderOnly o s₂ := .ite h₁.keep h₁
  have h₃ : RecorderOnly o s₃ := h₂.reported (Reported.refl _).capture
  have h₄ : RecorderOnly o s₄ := .ite h₃.raise h₃
  have h₅ : RecorderOnly o s₅ := h₄.keep
  have h₆ : RecorderOnly o s₆ := .ite h₅ (h₅.reported (Reported.refl _).logRun)
  exact .ite h₃.raise h₆.raise

theorem RecorderOnly.eccRead {a n m src} (h : RecorderOnly o s) : RecorderOnly o (eccRead s a n m src).2 := by
  unfold Machine.eccRead
  refine foldl_invariant (fun r : Bool × State => RecorderOnly o r.2) _ (fun r c hr => ?_) _ _ h
  dsimp only
  split
  · exact hr.eccReport
  · exact hr

theorem RecorderOnly.logSramFail {ofs} (h : RecorderOnly o s) : RecorderOnly o (logSramFail s ofs) := .ite h h.keep.raise

theorem RecorderOnly.writeRec {r run} (h : RecorderOnly o s) : RecorderOnly o (writeRec s r run) :=
  .ite (.ite h.keep.raise h.keep) (.ite h.keep (.ite h.keep.slotWritten.raise.raise h.keep.slotWritten.raise))

theorem RecorderOnly.newEvent {e} (h : RecorderOnly o s) : RecorderOnly o (newEvent s e) := by
  unfold Machine.newEvent
  extract_lets t c
  have ht : RecorderOnly o t := .ite h h.keep
  exact .ite ht.writeRec (.ite ht.keep ht.keep)

theorem RecorderOnly.bumpEvent {e q} (h : RecorderOnly o s) : RecorderOnly o (bumpEvent s e q) := by
  unfold Machine.bumpEvent
  extract_lets i x
  have hfail : RecorderOnly o (failNow x.2 (64 * i)) := by
    unfold failNow
    extract_lets t
    have ht : RecorderOnly o t := h.eccRead.logSramFail
    split
    · exact ht.keep.newEvent
    · exact ht
  exact .ite h.keep (.ite hfail.newEvent h.eccRead.keep.slotWritten)

theorem RecorderOnly.writeEvent {e} (h : RecorderOnly o s) : RecorderOnly o (writeEvent s e) := by
  unfold Machine.writeEvent
  refine .ite (by split; exacts [h.keep.writeRec, h]) (.ite ?_ ?_)
  · split; exacts [h.bumpEvent, h.newEvent]
  · split; exacts [h.keep, h.newEvent]

theorem RecorderOnly.flushLog (h : RecorderOnly o s) : RecorderOnly o (flushLog s) := by
  unfold Machine.flushLog
  extract_lets q gone _ t fail rest u
  exact (foldl_invariant (RecorderOnly o) _ (fun _ _ ht => ht.writeEvent) _ _ h.keep : RecorderOnly o u).keep

end

theorem flushLog_clk (s : State) : (flushLog s).clk = s.clk := by rw [(RecorderOnly.refl s).flushLog.same]
theorem flushLog_pair (s : State) : (flushLog s).pair = s.pair := by rw [(RecorderOnly.refl s).flushLog.same]

theorem roleChange_clk (s : State) (r : Role) (cause : Nat) : (roleChange s r cause).clk = s.clk := by
  unfold roleChange
  extract_lets old _ s₁ _ _ s₂ s₃ log
  have h₂ : s₂.clk = s.clk := by cases r <;> rfl
  have h₃ : s₃.clk = s.clk := by cases r <;> exact h₂
  have hlog : ∀ c p, (log s₃ c p).clk = s.clk := fun c p => by
    by_cases hc : cause = 4
    · simp [log, hc, h₃]
    · simp [log, hc, h₃]
  split
  · rfl
  · split
    · exact h₃
    · rw [raise_clk, hlog]

theorem roleChange_resync_pair (s : State) {cause : Nat} (h : cause ≠ 4) : (roleChange s .resync cause).pair.driven = false := by
  unfold roleChange
  rw [if_neg (fun hh => hh.2 rfl)]
  simp only [if_neg h]
  split <;> simp [roleDrives, clearItems, setPair]

theorem pairRoles_clk (s : State) : (pairRoles s).clk = s.clk := by
  unfold pairRoles
  split
  · rfl
  · extract_lets t
    have ht : t.clk = s.clk := by
      change State.clk (if _ then _ else _) = _
      split
      · exact roleChange_clk ..
      · rfl
    split
    · exact ht
    · extract_lets takeover a b c l
      have ha : a.clk = s.clk := (roleChange_clk _ _ _).trans ht
      have hb : b.clk = s.clk := by
        change State.clk (if _ then _ else _) = _
        split
        · exact ha
        · exact ha
      have hc : c.clk = s.clk := by
        change State.clk (if _ then _ else _) = _
        split
        · rw [raise_clk, logEv_clk, hb]
        · exact hb
      split
      · exact hc
      · exact foldl_invariant (fun u : State => u.clk = s.clk) _ (fun u x hu => by rw [(Sent.refl u).reply.same]; exact hu) _ _ hc

/-- A role released lets the drivers go at its boundary (R457). -/
theorem pairRoles_released {s : State} (hrole : s.pair.role ≠ .init) (hpend : s.pair.pend = some (.resync, 9)) (hd : s.pair.driven = false) :
    (pairRoles s).pair.driven = false := by
  unfold pairRoles
  split
  · exact hd
  · extract_lets t
    have ht : t = s := if_neg fun hh => hrole hh.1
    rw [ht, hpend]
    dsimp only
    rw [if_neg (by decide), if_neg (by decide), if_neg (by decide)]
    exact foldl_invariant (fun u : State => u.pair.driven = false) _ (fun u x hu => by rw [Sent.pair (Sent.refl u).reply]; exact hu) _ _ (roleChange_resync_pair _ (by decide))

/-! What FAULT shows (R364, R370, R511). -/

theorem getR_setR64_ne (s : State) {lo hi v a : Nat} (h1 : a ≠ lo) (h2 : a ≠ hi) : getR (setR64 s lo hi v) a = getR s a := by
  unfold setR64
  rw [getR_setR_ne _ _ _ _ h2, getR_setR_ne _ _ _ _ h1]

/-- The low bits of CLK_STATUS are the state of the clock system (R370). -/
theorem getR_publishClk_state (s : State) : getR (publishClk s) Reg.CLK_STATUS % 8 = clkCode s.clk.st := by
  have hcode : clkCode s.clk.st < 8 := by cases s.clk.st <;> decide
  unfold publishClk
  extract_lets c s₁ s₂ s₃ s₄ s₅ s₆ s₇ s₈ s₉
  have hrefs : ∀ (l : List Nat) (u : State) (f : State → Nat → State), (∀ u r, getR (f u r) Reg.CLK_STATUS = getR u Reg.CLK_STATUS) →
      getR (l.foldl f u) Reg.CLK_STATUS = getR u Reg.CLK_STATUS := fun l u f hf => foldl_keeps (getR · Reg.CLK_STATUS) f hf l u
  rw [hrefs]
  · rw [getR_setR64_ne _ (by decide) (by decide), getR_setR_ne _ _ _ _ (by decide), getR_setR64_ne _ (by decide) (by decide),
      getR_setR64_ne _ (by decide) (by decide), getR_setR_ne _ _ _ _ (by decide), getR_setR_ne _ _ _ _ (by decide),
      getR_setR_ne _ _ _ _ (by decide), getR_setR_ne _ _ _ _ (by decide), getR_setR_same]
    change (_ + clkCode s.clk.st) % 2 ^ 32 % 8 = _
    omega
  · intro u r
    have hne : ∀ b, Reg.CLK_STATUS < b → Reg.CLK_STATUS ≠ b + 16 * r := fun b hb => by omega
    dsimp only
    rw [getR_setR_ne _ _ _ _ (hne _ (by decide)), getR_setR_ne _ _ _ _ (hne _ (by decide)), getR_setR_ne _ _ _ _ (hne _ (by decide)),
      getR_setR_ne _ _ _ _ (hne _ (by decide))]

theorem RegsOnly.publishClk {o s : State} (h : RegsOnly o s) : RegsOnly o (publishClk s) := by
  unfold Machine.publishClk
  extract_lets c s₁ s₂ s₃ s₄ s₅ s₆ s₇ s₈ s₉
  have h₅ : RegsOnly o s₅ := h.setR.setR.setR.setR.setR
  have h₉ : RegsOnly o s₉ := h₅.setR.setR.setR.setR.setR.setR.setR
  exact foldl_invariant (RegsOnly o) _ (fun u r hu => hu.setR.setR.setR.setR) _ _ h₉

theorem RegsOnly.publishPair {o s : State} (h : RegsOnly o s) : RegsOnly o (publishPair s) := h.setR.setF.setR
theorem RegsOnly.publishPwr {o s : State} (h : RegsOnly o s) : RegsOnly o (publishPwr s) := h.setF.setFB.setFB

theorem RegsOnly.clk {o s : State} (h : RegsOnly o s) : s.clk = o.clk := by rw [h.same]
theorem RegsOnly.pair {o s : State} (h : RegsOnly o s) : s.pair = o.pair := by rw [h.same]

theorem getR_publishPair_ne (s : State) {a : Nat} (h1 : a ≠ Reg.PAIR_STATUS) (h2 : a ≠ Reg.PAIR_CFG) (h3 : a ≠ Reg.PAIR_SETTLE) :
    getR (publishPair s) a = getR s a := by
  unfold publishPair
  extract_lets ph u
  rw [getR_setR_ne _ _ _ _ h3, getR_setF_ne _ _ _ h2, getR_setR_ne _ _ _ _ h1]

/-- PWR_STATUS shows the clock fault as the first source of FAULT_N (R491, R511). -/
theorem bit_publishPwr_fault {s : State} (h : s.clk.st = .fault) : bit (getR (publishPwr s) Reg.PWR_STATUS) 22 = true := by
  have hsrc : getF (publishPwr s) F.PWR_STATUS_FAULTSRC = faultSources s % 2 ^ 7 := by
    unfold publishPwr setFB
    rw [getF_setF_apart _ _ _ _ (by decide) (by decide) (by decide), getF_setF_apart _ _ _ _ (by decide) (by decide) (by decide)]
    exact getF_setF_same _ _ _ (by decide) (by decide)
  have hodd : faultSources s % 2 ^ 7 % 2 = 1 := by
    simp only [faultSources, h]
    simp only [beq_self_eq_true, b2n, if_true]
    omega
  have hbit : getR (publishPwr s) Reg.PWR_STATUS / 2 ^ 22 % 2 = 1 := by
    rw [← hsrc] at hodd
    unfold getF bits at hodd
    rw [Nat.shiftRight_eq_div_pow] at hodd
    change _ / 2 ^ 22 % 2 ^ 7 % 2 = 1 at hodd
    change getR (publishPwr s) F.PWR_STATUS_FAULTSRC.addr / 2 ^ 22 % 2 = 1
    omega
  rw [bit, Nat.testBit_eq_decide_div_mod_eq]
  exact decide_eq_true hbit

theorem getView_showNow (s : State) {l : List Nat} {a : Nat} (h : a ∈ l) : getView (showNow s l) a = getR s a := by
  unfold getView getR showNow
  have hput : ∀ (l : List Nat) (v : RegFile), Sparse.get regDefault v a = Sparse.get regDefault s.regs a ∨ a ∈ l →
      Sparse.get regDefault (l.foldl (fun v a => Sparse.put regDefault v a (Sparse.get regDefault s.regs a)) v) a =
        Sparse.get regDefault s.regs a := by
    intro l
    induction l with
    | nil => intro v hv; simpa using hv
    | cons b t ih =>
      intro v hv
      refine ih _ ?_
      rw [Sparse.get_put]
      by_cases hab : a = b
      · exact .inl (by rw [if_pos hab, hab])
      · rw [if_neg hab]
        exact hv.imp_right fun hm => (List.mem_cons.1 hm).resolve_left hab
  rw [hput l s.view (.inr h)]

@[simp] theorem showNow_clk (s : State) (l : List Nat) : (showNow s l).clk = s.clk := rfl
@[simp] theorem showNow_pair (s : State) (l : List Nat) : (showNow s l).pair = s.pair := rfl

/-- The entry to FAULT (R364, R457, R491). -/
theorem enterClkFault_facts {s : State} (h : s.clk.st ≠ .fault) (cause : Nat) :
    let u := enterClkFault s cause
    u.clk = { s.clk with st := .fault, lockedWin := false } ∧ getView u Reg.CLK_STATUS % 8 = 7 ∧
      bit (getView u Reg.PWR_STATUS) 22 = true ∧ (s.pair.role = .active → u.pair.driven = false) := by
  intro u
  obtain ⟨w, hw⟩ : ∃ w, w = raise (logEv (clkState s .fault) 0x0108 [(1, (cause : Int))]) 1 5 := ⟨_, rfl⟩
  obtain ⟨v, hv⟩ : ∃ v, v = flushLog (pairRoles (pairRelease w)) := ⟨_, rfl⟩
  have hu : u = showNow (publishPwr (publishPair (publishClk v))) [Reg.CLK_STATUS, Reg.PWR_STATUS, Reg.PAIR_STATUS] := by
    rw [hv, hw]
    exact if_neg h
  have hwclk : w.clk = { s.clk with st := .fault, lockedWin := false } := by
    rw [hw, raise_clk, logEv_clk, clkState_clk]
    simp [h]
  have hwpair : w.pair = s.pair := by rw [hw, (ClockOnly.refl s).clkState.logEv.raise.same]
  have hclk : v.clk = w.clk := by
    rw [hv, flushLog_clk, pairRoles_clk, (Farewell.pairRelease w).same]
  have hdriven : s.pair.role = .active → v.pair.driven = false := fun hr => by
    have hp := pairRelease_pair (s := w) (by rw [hwpair]; exact hr)
    rw [hv, flushLog_pair]
    refine pairRoles_released ?_ (by rw [hp]) (by rw [hp])
    rw [hp, clapNet_pair]
    change w.pair.role ≠ .init
    rw [hwpair, hr]
    decide
  have hpub : RegsOnly v (publishPair (publishClk v)) := (RegsOnly.refl v).publishClk.publishPair
  have hfault : (publishPair (publishClk v)).clk.st = .fault := by rw [hpub.clk, hclk, hwclk]
  refine ⟨?_, ?_, ?_, fun hr => ?_⟩
  · rw [hu, showNow_clk, hpub.publishPwr.clk, hclk, hwclk]
  · rw [hu, getView_showNow _ (by decide), getR_publishPwr_ne _ (by decide), getR_publishPair_ne _ (by decide) (by decide) (by decide),
      getR_publishClk_state, hclk, hwclk]
    rfl
  · rw [hu, getView_showNow _ (by decide)]
    exact bit_publishPwr_fault hfault
  · rw [hu, showNow_pair, hpub.publishPwr.pair]
    exact hdriven hr

end Sys2Proof.Machine
end

section
/-! PROOF. O54: references, the DPLL and switches of reference (R354 to R364). -/

namespace Sys2Proof.Machine

open Sys2Proof

theorem exec_measurementWindow (meas : List (Bool × Int)) (dco : Int) (s : State) :
    exec (.measurementWindow meas dco) s = .next (measurementWindow s meas dco) := rfl
theorem exec_refStop (r : Nat) (s : State) : exec (.refStop r) s = .next (refFail s r 1) := rfl
theorem exec_rateMismatch (r : Nat) (offset : Int) (s : State) : exec (.rateMismatch r offset) s = .next (rateMismatch s r offset) := rfl
theorem exec_referenceGlitch (r : Nat) (s : State) : exec (.referenceGlitch r) s = .next (referenceGlitch s r) := rfl
theorem exec_spliceStepMeasure (lead : Int) (s : State) : exec (.spliceStepMeasure lead) s = .next (measureStep s lead) := rfl
theorem exec_fastlockStep (s : State) : exec .fastlockStep s = .next (fastlockStep s) := rfl
theorem exec_dpllLock (s : State) :
    exec .dpllLock s = .next (if s.clk.sel < 4 ∧ s.clk.fast.isNone then dpllLock s else s) := rfl
theorem exec_dpllLockLoss (s : State) : exec .dpllLockLoss s = .next (if s.clk.sel < 4 then dpllLockLoss s else s) := rfl
theorem exec_rootPllUnlock (s : State) : exec .rootPllUnlock s = .next (enterClkFault s 3) := rfl
theorem exec_xoInFault (stopped : Bool) (s : State) :
    exec (.xoInFault stopped) s = .next (if s.pwr.netref then enterClkFault s (if stopped then 1 else 2) else s) := rfl

/-! The references: stores, failures, and what a selection leaves of them (R355 to R358). -/

section
variable {s : State}

theorem setRef_setRef (s : State) (r : Nat) (v w : RefSt) : setRef (setRef s r v) r w = setRef s r w := by
  have h : (s.clk.refs.setIfInBounds r v).setIfInBounds r w = s.clk.refs.setIfInBounds r w := by
    simp
  simp only [setRef, h]

theorem startSwitch_refs (s : State) (r : Nat) : (startSwitch s r).clk.refs = s.clk.refs := by
  simp [startSwitch, clkState_clk]

theorem updateSteer_refs (s : State) : (updateSteer s).clk.refs = s.clk.refs := by
  simp [updateSteer_eq, noteRequest]

theorem enterHoldover_refs (s : State) : (enterHoldover s).clk.refs = s.clk.refs := by
  unfold enterHoldover
  extract_lets hist full f st c s₁ s₂
  split
  · rfl
  · rw [updateSteer_refs, logEv_clk, raise_clk]
    change (clkState _ _).clk.refs = _
    rw [clkState_clk]

theorem Selected.refs {t : State} (h : Selected s t) : t.clk.refs = s.clk.refs := by
  rcases h with rfl | ⟨r, rfl⟩ | rfl
  · rfl
  · exact startSwitch_refs s r
  · exact enterHoldover_refs s

theorem refOf_congr {t : State} (h : t.clk.refs = s.clk.refs) (q : Nat) : refOf t q = refOf s q := by unfold refOf; rw [h]

/-! What a selection leaves of the registers. -/

theorem getR_clkState_ne (s : State) (st : ClkState) {a : Nat} (h : a ≠ Reg.CLK_INTSTAT) : getR (clkState s st) a = getR s a := by
  unfold clkState
  split
  · rfl
  · exact getR_raise_ne _ _ _ _ _ rfl h

theorem getR_servoState_ne (s : State) (p : Nat) (st : ServoState) {a : Nat} (h : a ≠ Reg.TIME_INTSTAT) :
    getR (servoState s p st) a = getR s a := by
  unfold servoState
  extract_lets v u
  split
  · rfl
  · rw [getR_raise_ne _ _ _ _ _ rfl h, getR_logEv]
    exact getR_congr _ _ _ (setServo_regs ..)

theorem getR_steerPort_ne (y : Int) (s : State) (p : Nat) {a : Nat} (h : a ≠ Reg.TIME_INTSTAT) : getR (steerPort y s p) a = getR s a := by
  unfold Machine.steerPort
  extract_lets v want i s₁ s₂
  have h₁ : getR s₁ a = getR s a := getR_congr _ _ _ (setServo_regs ..)
  have h₂ : getR s₂ a = getR s a := getR_congr _ _ _ (setServo_regs ..)
  split
  · rfl
  · split
    · split
      · rw [getR_servoState_ne _ _ _ h, h₁]
      · exact h₁
    · split
      · rw [getR_servoState_ne _ _ _ h, h₂]
      · exact h₂

theorem getR_updateSteer_ne (s : State) {a : Nat} (h : a ≠ Reg.TIME_INTSTAT) : getR (updateSteer s) a = getR s a := by
  rw [updateSteer_eq, getR_congr _ _ _ (noteRequest_time _).2, getR_steerPort_ne _ _ _ h, getR_steerPort_ne _ _ _ h]

theorem getR_startSwitch_ne (s : State) (r : Nat) {a : Nat} (h : a ≠ Reg.CLK_INTSTAT) (hc : a ≠ Reg.CLK_SWITCHES) :
    getR (startSwitch s r) a = getR s a := by
  unfold startSwitch
  extract_lets s₁ s₂
  have h₂ : getR s₂ a = getR s a := (getR_logEv _ _ _ _).trans (getR_addCtr_ne _ _ hc)
  exact (getR_clkState_ne _ _ h).trans h₂

theorem getR_enterHoldover_ne (s : State) {a : Nat} (h : a ≠ Reg.CLK_INTSTAT) (ht : a ≠ Reg.TIME_INTSTAT) (hc : a ≠ Reg.CLK_HOLDOVERS) :
    getR (enterHoldover s) a = getR s a := by
  unfold enterHoldover
  extract_lets hist full f st c s₁ s₂
  have h₁ : getR s₁ a = getR s a := getR_clkState_ne _ _ h
  have h₂ : getR s₂ a = getR s a := by
    change getR (raise _ _ _) a = _
    rw [getR_raise_ne _ _ _ _ _ rfl h, getR_addCtr_ne _ _ hc, h₁]
  split
  · rfl
  · rw [getR_updateSteer_ne _ ht, getR_logEv, h₂]

/-- A selection moves no count of failures. -/
theorem Selected.refFails {t : State} (h : Selected s t) : getR t Reg.CLK_REFFAILS = getR s Reg.CLK_REFFAILS := by
  rcases h with rfl | ⟨r, rfl⟩ | rfl
  · rfl
  · exact getR_startSwitch_ne s r (by decide) (by decide)
  · exact getR_enterHoldover_ne s (by decide) (by decide) (by decide)

/-! Failures (R355, R356). -/

variable {r cause : Nat}

theorem refFail_again (h : (refOf s r).st = .off ∨ (refOf s r).st = .failed) (cause : Nat) :
    refFail s r cause = setRef s r { refOf s r with faultWin := true } := if_pos h

/-- A reference as a fault leaves it (R355, R356). -/
def failedRef (v : RefSt) (cause : Nat) : RefSt :=
  { v with
    st := .failed, cause := cause, owed := v.owed || v.ever, timer := 0, badRun := 0, faultWin := true }

theorem refFail_facts (hoff : (refOf s r).st ≠ .off) (hfailed : (refOf s r).st ≠ .failed) (cause : Nat) :
    (refFail s r cause).clk.refs = (setRef s r (failedRef (refOf s r) cause)).clk.refs ∧
      getR (refFail s r cause) Reg.CLK_REFFAILS = satAdd 32 (getR s Reg.CLK_REFFAILS) 1 := by
  unfold refFail
  extract_lets v s₁ s₂ s₃
  rw [if_neg (not_or.2 ⟨hoff, hfailed⟩)]
  have hsel := selected_afterFail (s := raise s₃ 1 2) (r := r)
  rw [hsel.refs, hsel.refFails, raise_clk, getR_raise_ne _ _ _ _ _ rfl (by decide)]
  refine ⟨by rw [logEv_clk]; rfl, ?_⟩
  rw [getR_logEv, getR_addCtr_same]
  rfl

theorem refOf_refFail_same (hr : r < 6) (hoff : (refOf s r).st ≠ .off) (hfailed : (refOf s r).st ≠ .failed) (cause : Nat) :
    refOf (refFail s r cause) r = failedRef (refOf s r) cause := by
  rw [refOf_congr (refFail_facts hoff hfailed cause).1, refOf_setRef _ _ _ hr]

theorem refOf_refFail_ne (hoff : (refOf s r).st ≠ .off) (hfailed : (refOf s r).st ≠ .failed) (cause : Nat) {q : Nat} (hq : q ≠ r) :
    refOf (refFail s r cause) q = refOf s q := by
  rw [refOf_congr (refFail_facts hoff hfailed cause).1, refOf_setRef_ne _ _ _ _ hq.symm]

theorem rateMismatch_off (h : (refOf s r).st = .off) (offset : Int) : rateMismatch s r offset = s := if_pos h

theorem rateMismatch_eq (h : (refOf s r).st ≠ .off) (offset : Int) :
    rateMismatch s r offset = refFail (logEv s 0x0107 [(1, (r : Int)), (4, satS 32 offset)]) r 3 := if_neg h

/-- A rejected edge, counted (R355). -/
def edgeRejected (s : State) (r : Nat) : State :=
  addCtr (setRef s r { refOf s r with glitches := (refOf s r).glitches + 1 }) Reg.CLK_GLITCHES 1

theorem referenceGlitch_off (h : (refOf s r).st = .off) : referenceGlitch s r = s := if_pos h

theorem referenceGlitch_counted (h : (refOf s r).st ≠ .off) (hfew : (refOf s r).glitches < 8) : referenceGlitch s r = edgeRejected s r := by
  unfold referenceGlitch
  rw [if_neg h]
  exact if_neg (by omega)

theorem referenceGlitch_ninth (h : (refOf s r).st ≠ .off) (hmany : 8 ≤ (refOf s r).glitches) :
    referenceGlitch s r = refFail (edgeRejected s r) r 2 := by
  unfold referenceGlitch
  rw [if_neg h]
  exact if_pos (by omega)

theorem refOf_edgeRejected (hr : r < 6) : refOf (edgeRejected s r) r = { refOf s r with glitches := (refOf s r).glitches + 1 } :=
  refOf_setRef s r _ hr

/-- The third part of O54: what stops or disturbs a reference (R355). -/
theorem refFaults (hr : r < 6) (offset : Int) :
    let v := refOf s r
    let failed := fun (i : Instr) (cause glitches : Nat) => ∃ t, exec i s = .next t ∧
      refOf t r = { v with st := .failed, cause := cause, owed := v.owed || v.ever, timer := 0, badRun := 0, glitches := glitches, faultWin := true } ∧
      (∀ q, q ≠ r → refOf t q = refOf s q) ∧ getR t Reg.CLK_REFFAILS = satAdd 32 (getR s Reg.CLK_REFFAILS) 1
    v.st ≠ .off → v.st ≠ .failed → failed (.refStop r) 1 v.glitches ∧ failed (.rateMismatch r offset) 3 v.glitches ∧
      (8 ≤ v.glitches → failed (.referenceGlitch r) 2 (v.glitches + 1)) := by
  intro v failed hoff hfailed
  have hfails : ∀ (u : State) (cause : Nat) (w : RefSt), refOf u r = w → w.st ≠ .off → w.st ≠ .failed →
      refOf (refFail u r cause) r = failedRef w cause ∧ (∀ q, q ≠ r → refOf (refFail u r cause) q = refOf u q) ∧
        getR (refFail u r cause) Reg.CLK_REFFAILS = satAdd 32 (getR u Reg.CLK_REFFAILS) 1 := by
    rintro u cause w rfl h1 h2
    exact ⟨refOf_refFail_same hr h1 h2 cause, fun q hq => refOf_refFail_ne h1 h2 cause hq, (refFail_facts h1 h2 cause).2⟩
  refine ⟨?stops, ?drifts, fun hmany => ?glitches⟩
  case stops => exact ⟨_, exec_refStop r s, hfails s 1 v rfl hoff hfailed⟩
  case drifts =>
    obtain ⟨hv, hq, hcount⟩ := hfails (logEv s 0x0107 [(1, (r : Int)), (4, satS 32 offset)]) 3 v
      (refOf_congr (congrArg ClkSt.refs (logEv_clk ..)) r) hoff hfailed
    refine ⟨_, (exec_rateMismatch r offset s).trans (congrArg Host.Outcome.next (rateMismatch_eq hoff offset)), hv, fun q hne => ?_, ?_⟩
    · rw [hq q hne]
      exact refOf_congr (congrArg ClkSt.refs (logEv_clk ..)) q
    · rw [hcount, getR_logEv]
  case glitches =>
    obtain ⟨hv, hq, hcount⟩ := hfails (edgeRejected s r) 2 { v with glitches := v.glitches + 1 } (refOf_edgeRejected hr) hoff hfailed
    refine ⟨_, (exec_referenceGlitch r s).trans (congrArg Host.Outcome.next (referenceGlitch_ninth hoff hmany)), hv, fun q hne => ?_, ?_⟩
    · rw [hq q hne]
      exact refOf_setRef_ne s r q _ hne.symm
    · rw [hcount, edgeRejected, getR_addCtr_ne _ _ (by decide)]
      rfl

/-! The end of a window (R354 to R356). -/

variable {v f : Int} {three : Bool}

theorem refWindow_off (h : (refOf s r).st = .off) (m : Bool × Int) :
    refWindow s v three r m = setRef s r { refOf s r with faultWin := false, glitches := 0 } := if_pos (.inr h)

/-- A reference as a window in tolerance leaves it, before its qualification moves (R354, R355). -/
def windowedRef (x : RefSt) (f d : Int) : RefSt :=
  { x with freq := f, dev := d, devs := (d :: x.devs).take 16, badRun := 0, glitches := 0, faultWin := false }

theorem refWindow_inTol (hr : r < 6) (hfault : (refOf s r).faultWin = false) (htol : (f - v).natAbs ≤ getF s F.CLK_TOL_PPB)
    (hsum : three = false ∨ (((f - v) :: (refOf s r).devs).take 16).sum.natAbs ≤ 2000) :
    let x := refOf s r
    let w := windowedRef x f (f - v)
    let qual := getF s F.CLK_QUAL_QUAL
    let wtr := getF s F.CLK_QUAL_WTR
    let becomes := fun (y : RefSt) => refWindow s v three r (true, f) = setRef s r y
    (x.st = .failed → becomes { w with st := .qualifying, timer := qual }) ∧
    (x.st = .qualifying → 1 < x.timer → becomes { w with timer := x.timer - 1 }) ∧
    (x.st = .qualifying → x.timer ≤ 1 → x.owed = true → wtr ≠ 0 → becomes { w with st := .wtr, timer := wtr }) ∧
    (x.st = .wtr → 1 < x.timer → becomes { w with timer := x.timer - 1 }) ∧
    (x.st = .wtr → x.timer ≤ 1 → refWindow s v three r (true, f) = refQualified (setRef s r w) r) ∧
    (x.st = .qualified → becomes w) := by
  intro x w qual wtr becomes
  obtain ⟨u, hu⟩ : ∃ u, u = setRef s r { x with freq := f, dev := f - v, devs := ((f - v) :: x.devs).take 16, badRun := 0 } := ⟨_, rfl⟩
  have hux : refOf u r = { x with freq := f, dev := f - v, devs := ((f - v) :: x.devs).take 16, badRun := 0 } := by
    rw [hu, refOf_setRef _ _ _ hr]
  have hset : ∀ y, setRef u r y = setRef s r y := fun y => by rw [hu, setRef_setRef]
  have hF : ∀ g, getF u g = getF s g := fun g => by rw [hu]; rfl
  have hstep : x.st ≠ .off → refWindow s v three r (true, f) =
      match w.st with
      | .failed => setRef u r { w with st := .qualifying, timer := qual }
      | .qualifying =>
        if w.timer > 1 then setRef u r { w with timer := w.timer - 1 }
        else if (w.owed || (u.clk.st == .switching || u.clk.st == .splicePending) && decide (prioPlace u r < prioPlace u u.clk.target)) && wtr != 0 then
          setRef u r { w with st := .wtr, owed := true, timer := wtr }
        else refQualified (setRef u r w) r
      | .wtr => if w.timer > 1 then setRef u r { w with timer := w.timer - 1 } else refQualified (setRef u r w) r
      | _ => setRef u r w := by
    intro hoff
    unfold refWindow
    extract_lets tol d devs isOut bad s₁ s₂ x₂ inTol x₃ qual' wtr' busy better
    have hout : isOut = false := decide_eq_false (by
      change ¬ (f - v).natAbs > ((getF s F.CLK_TOL_PPB : Nat) : Int).natAbs
      rw [Int.natAbs_natCast]
      omega)
    have hbad : bad = 0 := by simp [bad, hout]
    have h₁ : s₁ = u := by simp only [s₁, hbad]; exact hu.symm
    have h₂ : s₂ = u := by
      have hsoft : (three && decide (devs.sum.natAbs > 2000)) = false := by
        rcases hsum with h | h
        · simp [h]
        · rw [decide_eq_false (not_lt.2 h), Bool.and_false]
      simp only [s₂, hbad, hsoft]
      exact h₁
    have hx₂ : x₂ = _ := (congrArg (refOf · r) h₂).trans hux
    have hin : inTol = true := by
      have hw : x₂.faultWin = false := by rw [hx₂]; exact hfault
      simp only [inTol, hw, hout]; rfl
    have hx₃ : x₃ = w := by simp only [x₃, hx₂]; rfl
    rw [if_neg (by simp [hoff])]
    simp only [better, busy, qual', wtr', hin, hx₃, h₂, hF]
    cases w.st <;> rfl
  refine ⟨fun hst => ?_, fun hst ht => ?_, fun hst ht ho hw => ?_, fun hst ht => ?_, fun hst ht => ?_, fun hst => ?_⟩
  all_goals
    have hwst : w.st = _ := hst
    have hon : x.st ≠ .off := by rw [hst]; decide
  · exact (hstep hon).trans (by rw [hwst]; exact hset _)
  · exact (hstep hon).trans (by rw [hwst]; exact (if_pos ht).trans (hset _))
  · have howed : w.owed = true := ho
    refine (hstep hon).trans ?_
    rw [hwst]
    refine (if_neg (not_lt.2 ht)).trans ((if_pos (by simp [howed, hw])).trans ((hset _).trans ?_))
    rw [← howed]
  · exact (hstep hon).trans (by rw [hwst]; exact (if_pos ht).trans (hset _))
  · exact (hstep hon).trans (by rw [hwst]; exact (if_neg (not_lt.2 ht)).trans (by rw [hset]))
  · exact (hstep hon).trans (by rw [hwst]; exact hset _)

/-- The fourth window in a row out of tolerance (R355). -/
theorem refWindow_fails (hr : r < 6) (hoff : (refOf s r).st ≠ .off) (hfailed : (refOf s r).st ≠ .failed)
    (htol : getF s F.CLK_TOL_PPB < (f - v).natAbs) (hrun : 3 ≤ (refOf s r).badRun) :
    (refOf (refWindow s v three r (true, f)) r).st = .failed ∧ (refOf (refWindow s v three r (true, f)) r).cause = 4 := by
  unfold refWindow
  extract_lets x tol d devs isOut bad s₁ s₂ x₂ inTol x₃ qual wtr busy better
  have hout : isOut = true := decide_eq_true (by
    change (f - v).natAbs > ((getF s F.CLK_TOL_PPB : Nat) : Int).natAbs
    rw [Int.natAbs_natCast]
    omega)
  have hbad : bad ≥ 4 := by
    simp only [bad, hout, if_true]
    exact Nat.succ_le_succ hrun
  have h₂ : s₂ = refFail s₁ r 4 := if_pos hbad
  have h₁ : refOf s₁ r = { x with freq := f, dev := f - v, devs := devs, badRun := bad } := refOf_setRef _ _ _ hr
  have hx₂ : x₂ = failedRef { x with freq := f, dev := f - v, devs := devs, badRun := bad } 4 := by
    simp only [x₂, h₂]
    rw [refOf_refFail_same hr (by rw [h₁]; exact hoff) (by rw [h₁]; exact hfailed), h₁]
  have hin : inTol = false := by simp only [inTol, hx₂]; rfl
  have hst : x₃.st = .failed := by simp only [x₃, hx₂]; rfl
  have hcause : x₃.cause = 4 := by simp only [x₃, hx₂]; rfl
  rw [if_neg (by simp [x, hoff])]
  simp only [hst, hin]
  rw [if_neg (by decide), refOf_setRef _ _ _ hr]
  exact ⟨hst, hcause⟩

/-! Windows (R354, R361). -/

theorem measurementWindow_stopped (h : s.clk.st = .fault) (meas : List (Bool × Int)) (dco : Int) : measurementWindow s meas dco = s := if_pos h

/-- The first part of O54: the vote, the XO and the history of a window. -/
theorem measurementWindow_eq (h : s.clk.st ≠ .fault) (meas : List (Bool × Int)) (dco : Int) :
    let c := s.clk
    let m := fun (k : Nat) => if k < 4 then meas.getD k (false, 0) else (servoPresent (servoOf s (k - 4)), servoFreq s (k - 4))
    let votes := ((prioTable s).filter fun k => decide (k < 6) && (m k).1 && !(refOf s k).faultWin && (refOf s k).st != .off).take 2
    let v : Int := match votes with | [a, b] => median3 0 (m a).2 (m b).2 | _ => 0
    let tol := getF s F.CLK_TOL_PPB
    let run := if votes.length = 2 ∧ tol < v.natAbs then c.xoRun + 1 else 0
    let out : Int := if dpllSteers s = true ∧ ptpSelected s = false then clampI (-128000000) 128000000 dco else c.dco
    let good := c.lockedWin = true ∧ c.st = .locked ∧ (refOf s c.sel).st = .qualified ∧ (refOf s c.sel).faultWin = false ∧
      ((m c.sel).2 - v).natAbs ≤ tol
    let windowed := { s with clk := { c with
      dco := out, vote := votes.length, dxo := -v, xoRun := run, lockedWin := decide (c.st = .locked),
      holdTime := if c.st = .holdover ∨ c.st = .holdoverUnaveraged then c.holdTime + 1 else c.holdTime } }
    let judged := fun (t : State) =>
      let u := (List.range 6).foldl (fun u r => refWindow u v (votes.length == 2) r (m r)) t
      applySelection { u with clk := { u.clk with
        hist := if good ∧ (refOf u c.sel).st = .qualified then (u.clk.dco :: u.clk.hist).take 60 else u.clk.hist } }
    (run < 4 ∨ c.xoSuspect = true → measurementWindow s meas dco = judged windowed) ∧
    (4 ≤ run → c.xoSuspect = false → measurementWindow s meas dco = judged
      (raise (logEv { windowed with clk := { windowed.clk with xoSuspect := true } } 0x0106 [(4, -v)]) 1 4)) := by
  intro c m votes v tol run out good windowed judged
  unfold measurementWindow
  rw [if_neg h]
  extract_lets m' s₁ ok two v' three tol' xoRun x selOk grows held d s₂ _ s₃ sel s₄
  have hs₁ : s₁ = { s with clk := { c with dco := out } } := by
    by_cases hsteer : dpllSteers s = true ∧ ptpSelected s = false
    · simp [s₁, out, hsteer, c]
    · have hout : out = c.dco := if_neg hsteer
      rw [hout]
      exact if_neg (by simpa using hsteer)
  have hset : s₁.clk.sel = c.sel ∧ s₁.clk.st = c.st ∧ s₁.clk.lockedWin = c.lockedWin ∧ s₁.clk.holdTime = c.holdTime ∧
      s₁.clk.xoRun = c.xoRun := by rw [hs₁]; exact ⟨rfl, rfl, rfl, rfl, rfl⟩
  obtain ⟨hsel, hst, hlocked, hhold, hxo⟩ := hset
  have hrefs : ∀ k, refOf s₁ k = refOf s k := fun k => by rw [hs₁]; rfl
  have htable : prioTable s₁ = prioTable s := by rw [hs₁]; rfl
  have htol : tol' = tol := by simp only [tol', hs₁]; rfl
  have htwo : two = votes := by simp only [two, ok, htable, hrefs]; rfl
  have hv : v' = v := by simp only [v', htwo]; rfl
  have hthree : three = (votes.length == 2) := by simp only [three, htwo]
  have hrun : xoRun = run := by
    simp only [xoRun, hthree, htol, hv, hxo, run, Bool.and_eq_true, beq_iff_eq, decide_eq_true_eq, gt_iff_lt]
  have hgrows : grows = true ↔ good := by
    simp only [grows, selOk, x, hsel, hst, hlocked, hrefs, hv, htol, Bool.and_eq_true, beq_iff_eq, decide_eq_true_eq, Bool.not_eq_true']
    exact ⟨fun ⟨⟨h1, h2⟩, ⟨h3, h4⟩, h5⟩ => ⟨h1, h2, h3, h4, h5⟩, fun ⟨h1, h2, h3, h4, h5⟩ => ⟨⟨h1, h2⟩, ⟨h3, h4⟩, h5⟩⟩
  have hheld : (if held then c.holdTime + 1 else c.holdTime) =
      if c.st = .holdover ∨ c.st = .holdoverUnaveraged then c.holdTime + 1 else c.holdTime := by
    simp only [held, hst, Bool.or_eq_true, beq_iff_eq]
  have hs₂ : s₂ = windowed := by
    have hd : d = { c with dco := out } := by simp only [d, hs₁]
    simp only [s₂, hd, hheld, htwo, hv, hrun, beq_eq_decide, hs₁, windowed]
  have hend : ∀ t : State, s₃ = t → t.clk.sel = c.sel → applySelection (if grows && (refOf s₄ sel).st == .qualified then
      { s₄ with clk := { s₄.clk with hist := (s₄.clk.dco :: s₄.clk.hist).take 60 } } else s₄) = judged t := by
    intro t ht hsel'
    have hs₄ : s₄ = (List.range 6).foldl (fun u r => refWindow u v (votes.length == 2) r (m r)) t := by
      simp only [s₄, ht, hv, hthree]; rfl
    have hsel₃ : sel = c.sel := by simp only [sel, ht, hsel']
    rw [hsel₃]
    simp only [judged]
    rw [← hs₄]
    refine congrArg applySelection ?_
    by_cases hgood : good ∧ (refOf s₄ c.sel).st = .qualified
    · rw [if_pos hgood]
      exact if_pos (by rw [hgrows.2 hgood.1, hgood.2]; rfl)
    · rw [if_neg hgood]
      exact if_neg fun hh => hgood (by
        rw [Bool.and_eq_true, beq_iff_eq] at hh
        exact ⟨hgrows.1 hh.1, hh.2⟩)
  have hsusp : s₂.clk.xoSuspect = c.xoSuspect := by rw [hs₂]
  refine ⟨fun hcalm => hend _ ?_ rfl, fun hrun4 hnew => hend _ ?_ ?_⟩
  · rw [← hs₂]
    exact if_neg (by
      rw [hrun, hsusp, Bool.and_eq_true, decide_eq_true_eq, Bool.not_eq_true']
      rintro ⟨h1, h2⟩
      rcases hcalm with h | h
      · omega
      · rw [h2] at h; cases h)
  · have hgate : (decide (xoRun ≥ 4) && !s₂.clk.xoSuspect) = true := by
      rw [hrun, hsusp, hnew]
      simpa using hrun4
    have h₃ : s₃ = raise (logEv { s₂ with clk := { s₂.clk with xoSuspect := true } } 0x0106 [(4, -v')]) 1 4 := if_pos hgate
    rw [h₃, hs₂, hv]
  · rw [raise_clk, logEv_clk]

/-! Splices (R362, R363). -/

theorem clkState_new {st : ClkState} (h : s.clk.st ≠ st) :
    clkState s st = raise { s with clk := { s.clk with st := st, lockedWin := false } } 1 0 := if_neg h

theorem measureStep_idle (h : s.clk.st ≠ .switching) (lead : Int) : measureStep s lead = s := if_neg h

theorem measureStep_pends (h : s.clk.st = .switching) (lead : Int) : measureStep s lead =
    raise { s with clk := { s.clk with
      st := .splicePending, lockedWin := false
      delta := if s.clk.target ≥ 4 then ptpDelta s else markDelta s s.clk.target lead } } 1 0 := by
  unfold measureStep
  rw [if_pos h]
  exact clkState_new (by change s.clk.st ≠ _; rw [h]; decide)

theorem ClockOnly.tl {o s : State} (h : ClockOnly o s) : s.tl = o.tl := by rw [h.same]

theorem splice_tl (s : State) : (splice s).tl.frame = ((s.tl.frame : Int) - spliceFrames s.tl.rate s.clk.delta).toNat % 2 ^ 60 ∧
    (splice s).tl.index = ((s.tl.index : Int) - 16 * spliceFrames s.tl.rate s.clk.delta).toNat % 2 ^ 64 := by
  have hsel : ∀ u : State, (applySelection (updateSteer (enterAcquiring u))).tl = u.tl := fun u =>
    (ClockOnly.refl u).keep.clkState.updateSteer.applySelection.tl
  unfold splice
  extract_lets m d s₁ frame index z pos _ _ s₂ s₃ s₄ s₅
  rw [hsel, raise_tl]
  change (logCommit _ _ _).tl.frame = _ ∧ (logCommit _ _ _).tl.index = _
  rw [logCommit_tl]
  exact ⟨rfl, rfl⟩

theorem frameUnits_pos (rate : Nat) : 0 < frameUnits rate := by
  unfold frameUnits frameCycles cycleUnits
  split <;> split <;> decide

/-- What is left of a step after its whole frames is at most half a frame (R363). -/
theorem spliceRest_le (rate : Nat) (delta : Int) :
    2 * (delta - spliceFrames rate delta * (frameUnits rate : Nat)).natAbs ≤ frameUnits rate := by
  have hpos := frameUnits_pos rate
  unfold spliceFrames
  generalize frameUnits rate = n at hpos ⊢
  have h1 : divRhu delta n * (n : Int) * 2 ≤ 2 * delta + n ∧ 2 * delta + n < divRhu delta n * (n : Int) * 2 + 2 * n := by
    have hq := Int.emod_add_mul_ediv (2 * delta + n) ((2 * n : Nat) : Int)
    have hlow := Int.emod_nonneg (2 * delta + n) (b := ((2 * n : Nat) : Int)) (by omega)
    have hhigh := Int.emod_lt_of_pos (2 * delta + n) (b := ((2 * n : Nat) : Int)) (by omega)
    have hmul : ((2 * n : Nat) : Int) * ((2 * delta + n) / ((2 * n : Nat) : Int)) = divRhu delta n * (n : Int) * 2 := by
      unfold divRhu
      push_cast
      ring
    rw [hmul] at hq
    push_cast at hhigh hlow hq
    omega
  omega

/-! The DPLL (R359, R360). -/

theorem fastlockStep_some {b : Nat} (h : s.clk.fast = some b) :
    fastlockStep s = { s with clk := { s.clk with fast := if b / 2 ≤ bwTarget s then none else some (b / 2) } } := by
  unfold fastlockStep
  rw [h]

theorem fastlockStep_none (h : s.clk.fast = none) : fastlockStep s = s := by
  unfold fastlockStep
  rw [h]

theorem dpllLockLoss_widens (h : s.clk.st = .locked) :
    dpllLockLoss s = raise { s with clk := { s.clk with
      st := .acquiring, lockedWin := false
      fast := if getF s F.CLK_POLICY_FASTLOCK = 1 ∧ bwTarget s < min (16 * bwTarget s) 1000000 then some (min (16 * bwTarget s) 1000000) else none } } 1 0 := by
  unfold dpllLockLoss
  rw [if_pos h]
  exact clkState_new (by change s.clk.st ≠ _; rw [h]; decide)

end

/-- Settles O54: the window by its own lines, each failure by what a selection leaves of the references, FAULT by what it publishes. -/
theorem clockSystem : Obligations.ClockSystem := by
  unfold Obligations.ClockSystem
  refine ⟨fun s meas dco => ?window, fun s v f three r hr => ?judge, fun s r offset hr => ?faults, fun s lead => ?splice, spliceRest_le,
    fun s hst hjump => ⟨by simp [spliceReady, hjump], by rw [hst]; rfl⟩, fun s stopped => ?dpll⟩
  case window =>
    intro c m votes v tol run out good windowed judged
    refine ⟨fun h => ?_, fun h hcalm => ?_, fun h hrun hnew => ?_⟩
    · rw [exec_measurementWindow, measurementWindow_stopped h]
    · exact (exec_measurementWindow meas dco s).trans (congrArg Host.Outcome.next ((measurementWindow_eq h meas dco).1 hcalm))
    · exact (exec_measurementWindow meas dco s).trans (congrArg Host.Outcome.next ((measurementWindow_eq h meas dco).2 hrun hnew))
  case judge =>
    intro x d tol qual wtr devs w becomes
    exact ⟨fun h => refWindow_off h _, fun hfault htol hsum => refWindow_inTol hr hfault htol hsum,
      fun hoff hfailed htol hrun => refWindow_fails hr hoff hfailed htol hrun⟩
  case faults =>
    intro v failed glitched
    refine ⟨refFaults hr offset, fun h => ?_, fun h => ?_, fun h hfew => ?_, fun h => ⟨?_, ?_⟩⟩
    · rw [exec_refStop, refFail_again h]
    · have hlog : refOf (logEv s 0x0107 [(1, (r : Int)), (4, satS 32 offset)]) r = v := refOf_congr (congrArg ClkSt.refs (logEv_clk ..)) r
      have hon : (refOf s r).st ≠ .off := fun hoff => by rw [show (refOf s r).st = .failed from h] at hoff; cases hoff
      rw [exec_rateMismatch, rateMismatch_eq hon, refFail_again (.inr (by rw [hlog]; exact h)), hlog]
    · rw [exec_referenceGlitch, referenceGlitch_counted h hfew]
      rfl
    · rw [exec_rateMismatch, rateMismatch_off h]
    · rw [exec_referenceGlitch, referenceGlitch_off h]
  case splice =>
    intro c pending
    refine ⟨fun h ht => ?_, fun h ht => ?_, fun h => ?_, splice_tl s⟩
    · rw [exec_spliceStepMeasure, measureStep_pends h, if_pos ht]
      rfl
    · rw [exec_spliceStepMeasure, measureStep_pends h, if_neg (not_le.2 ht)]
    · rw [exec_spliceStepMeasure, measureStep_idle h]
  case dpll =>
    intro c t w faults
    refine ⟨fun b h => ?_, fun h => ?_, fun hst hsel hfast => ?_, fun h => ?_, fun hst hsel => ?_, fun h => ?_, fun h => ⟨?_, fun hnet => ?_⟩,
      fun h => ?_, fun h => ?_⟩
    · rw [exec_fastlockStep, fastlockStep_some h]
    · rw [exec_fastlockStep, fastlockStep_none h]
    · rw [exec_dpllLock, if_pos ⟨hsel, by rw [hfast]; rfl⟩]
      exact congrArg Host.Outcome.next ((if_pos hst).trans (clkState_new (by rw [hst]; decide)))
    · rw [exec_dpllLock]
      refine congrArg Host.Outcome.next ?_
      by_cases hready : c.sel < 4 ∧ c.fast.isNone
      · refine (if_pos hready).trans (if_neg fun hst => ?_)
        rcases h with h | h | h
        · exact h hst
        · omega
        · exact h (Option.isNone_iff_eq_none.1 hready.2)
      · exact if_neg hready
    · rw [exec_dpllLockLoss, if_pos hsel, dpllLockLoss_widens hst]
    · rw [exec_dpllLockLoss]
      refine congrArg Host.Outcome.next ?_
      rcases h with h | h
      · split
        · exact if_neg h
        · rfl
      · exact if_neg (not_lt.2 h)
    · exact ⟨_, exec_rootPllUnlock s, enterClkFault_facts h 3⟩
    · refine ⟨_, exec_xoInFault stopped s, ?_⟩
      rw [if_pos hnet]
      exact enterClkFault_facts h _
    · rw [exec_xoInFault]
      rcases h with h | h
      · rw [if_neg (by simp [h])]
      · rw [show enterClkFault s (if stopped then 1 else 2) = s from if_pos h, ite_self]
    · rw [exec_rootPllUnlock, show enterClkFault s 3 = s from if_pos h]

end Sys2Proof.Machine
end

section
/-! SUPPORT. The transmit side of a port: what its configuration, its pauses and its queues are left by (R297, R305, R310). -/

namespace Sys2Proof.Machine

open Sys2Proof

/-! The configuration of the ports lies below their counters. -/

/-- The registers that configure the ports hold what they held. -/
def PortCfgKept (s u : State) : Prop := ∀ a, 0x30000 ≤ a → a % 0x10000 < 0xA0 → getR u a = getR s a

section
variable {s u : State} {p : Nat}

theorem PortCfgKept.refl (s : State) : PortCfgKept s s := fun _ _ _ => rfl

theorem PortCfgKept.regs {t : State} (h : PortCfgKept s u) (ht : t.regs = u.regs) : PortCfgKept s t :=
  fun a h1 h2 => (getR_congr _ _ a ht).trans (h a h1 h2)

theorem PortCfgKept.addCtr {c n : Nat} (h : PortCfgKept s u) (hc : c < 0x30000 ∨ 0xA0 ≤ c % 0x10000) : PortCfgKept s (addCtr u c n) :=
  fun a h1 h2 => (getR_addCtr_ne _ _ (by rintro rfl; omega)).trans (h a h1 h2)

theorem PortCfgKept.raise {n b c : Nat} (h : PortCfgKept s u) (hn : intStatAt n = some c) (hc : c < 0x30000 ∨ 0xA0 ≤ c % 0x10000) :
    PortCfgKept s (raise u n b) :=
  fun a h1 h2 => (getR_raise_ne _ _ _ _ _ hn (by rintro rfl; omega)).trans (h a h1 h2)

theorem PortCfgKept.getF (h : PortCfgKept s u) (f : Fld) (p : Nat) (h1 : 0x30000 ≤ f.addr) (h2 : f.addr % 0x10000 < 0xA0) :
    getF u (netF p f) = getF s (netF p f) := by
  unfold Machine.getF
  rw [show (netF p f).addr = f.addr + p * 0x10000 from rfl, h _ (by omega) (by omega)]

theorem PortCfgKept.chainMode (h : PortCfgKept s u) : chainMode u = chainMode s := by
  unfold Machine.chainMode Machine.getF
  rw [h _ (by decide) (by decide)]

theorem PortCfgKept.maySend (h : PortCfgKept s u) (p : Nat) : maySend u p = maySend s p := by
  unfold Machine.maySend macOf addrPort
  dsimp only
  rw [h.chainMode, h.getF _ _ (by decide) (by decide)]
  rw [h (netR _ Reg.NET_MAC_LO) (by simp only [netR, Reg.NET_MAC_LO]; omega) (by simp only [netR, Reg.NET_MAC_LO]; omega)]

theorem PortCfgKept.pcsOn (h : PortCfgKept s u) (p : Nat) : pcsOn u p = pcsOn s p := by
  unfold Machine.pcsOn
  rw [h.getF _ _ (by decide) (by decide)]

theorem PortCfgKept.tagFrame (h : PortCfgKept s u) (p q : Nat) (f : TxFrame) (b : Bytes) : tagFrame u p q f b = tagFrame s p q f b := by
  have htag : tagsIt u p q f = tagsIt s p q f := by
    unfold tagsIt
    rw [h.getF _ _ (by decide) (by decide)]
  have hpcp : Machine.getF u (netF p (if q = 0 then F.NET_VLAN_PCP0 else if q = 1 then F.NET_VLAN_PCP1 else F.NET_VLAN_PCP3)) =
      Machine.getF s (netF p (if q = 0 then F.NET_VLAN_PCP0 else if q = 1 then F.NET_VLAN_PCP1 else F.NET_VLAN_PCP3)) := by
    refine h.getF _ _ ?_ ?_
    · split
      · decide
      · split <;> decide
    · split
      · decide
      · split <;> decide
  unfold Machine.tagFrame
  rw [htag, hpcp, h.getF _ _ (by decide) (by decide)]

end

/-! The pauses of a port (R310): no work of the transmit side moves them. -/

/-- Port p has this pause time, and these by priority. -/
def PauseIs (p a : Nat) (b : Vector Nat 8) (s : State) : Prop := (portOf s p).pause = a ∧ (portOf s p).pfc = b

section
variable {p a : Nat} {b : Vector Nat 8} {s : State}

theorem PauseIs.congr {t : State} (h : PauseIs p a b s) (ht : portOf t p = portOf s p) : PauseIs p a b t := by
  unfold PauseIs; rw [ht]; exact h

theorem PauseIs.stored {v : PortSt} (hp : v.pause = a) (hf : v.pfc = b) : PauseIs p a b (setPort s p v) := by
  unfold PauseIs; rw [portOf_setPort]; exact ⟨hp, hf⟩

theorem PauseIs.raise {n c} (h : PauseIs p a b s) : PauseIs p a b (raise s n c) := h.congr (portOf_raise ..)
theorem PauseIs.addCtr {c n} (h : PauseIs p a b s) : PauseIs p a b (addCtr s c n) := h.congr rfl
theorem PauseIs.txLoss {c} (h : PauseIs p a b s) : PauseIs p a b (txLoss s p c) := h.addCtr.raise

theorem PauseIs.complete {tag st lost} (h : PauseIs p a b s) : PauseIs p a b (complete s p tag st lost) := .stored h.1 h.2

theorem PauseIs.completeLate {f} (h : PauseIs p a b s) : PauseIs p a b (completeLate s p f) := by
  unfold Machine.completeLate
  split
  · exact (PauseIs.addCtr h).complete.raise
  · exact h

theorem PauseIs.expireLate {t} (h : PauseIs p a b s) : PauseIs p a b (expireLate s p t) :=
  foldl_invariant (PauseIs p a b) _ (fun _ _ hu => hu.completeLate) _ _ (.stored h.1 h.2)

theorem PauseIs.leaving {f e} (h : PauseIs p a b s) : PauseIs p a b (leaving s p f e) := by
  unfold Machine.leaving
  split
  · unfold maxF
    split
    · exact h.congr rfl
    · exact h
  · split
    · extract_lets v
      split
      · exact PauseIs.complete (.stored h.1 h.2)
      · exact (PauseIs.addCtr h).complete.raise
    · exact h.complete
  · exact h

theorem portOf_frameBad (s : State) (n p : Nat) : portOf (frameBad s n).2 p = portOf s p := by
  unfold frameBad
  split
  · rfl
  · extract_lets x r
    have hopen : RecorderOnly x.2 r.2 := by
      change RecorderOnly x.2 (openRead _ _ _ _ _).2
      unfold openRead
      split
      · exact .refl _
      · exact foldl_invariant (RecorderOnly x.2) _ (fun _ _ hu => hu.eccReport) _ _ (.refl _)
    have h : portOf r.2 p = portOf x.2 p := by rw [hopen.same]; rfl
    exact h

theorem PauseIs.startFrame {q t f} (h : PauseIs p a b s) : PauseIs p a b (startFrame s p q t f) := by
  have hr := h.congr (portOf_frameBad s f.bytes.length p)
  unfold Machine.startFrame
  extract_lets r
  split
  · exact hr
  · have hl : ∀ e, PauseIs p a b (Machine.leaving r.2 p f e) := fun e => PauseIs.leaving hr
    exact .stored (hl _).1 (hl _).2

theorem PauseIs.dropStale {t n} (h : PauseIs p a b s) : PauseIs p a b (dropStale s p t n) := by
  induction n generalizing s with
  | zero => exact h
  | succ n ih =>
    unfold Machine.dropStale
    extract_lets v
    split
    · split
      · exact ih (PauseIs.txLoss (.stored h.1 h.2))
      · exact h
    · exact h

theorem refill3_pauses (v : PortSt) (n : Nat) : (refill3 v n).pause = v.pause ∧ (refill3 v n).pfc = v.pfc := by
  induction n generalizing v with
  | zero => exact ⟨rfl, rfl⟩
  | succ n ih =>
    unfold refill3
    split
    · split
      · exact ih _
      · exact ⟨rfl, rfl⟩
    · exact ⟨rfl, rfl⟩

theorem PauseIs.lower3 {t} {ok : Nat → TxFrame → Bool} (h : PauseIs p a b s) : PauseIs p a b (takeNext.lower3 s p t ok) := by
  unfold takeNext.lower3
  extract_lets v
  split
  · split
    · exact .startFrame (.stored ((refill3_pauses _ _).1.trans h.1) ((refill3_pauses _ _).2.trans h.2))
    · exact h
  · exact h

theorem PauseIs.lower2 {t} {ok : Nat → TxFrame → Bool} (h : PauseIs p a b s) : PauseIs p a b (takeNext.lower2 s p t ok) := by
  unfold takeNext.lower2
  extract_lets v
  split
  · split
    · exact .startFrame (.stored h.1 h.2)
    · exact h.lower3
  · exact h.lower3

theorem PauseIs.takeLower {t} (h : PauseIs p a b s) : PauseIs p a b (takeNext.takeLower s p t) := by
  unfold takeNext.takeLower
  extract_lets paused u v ok
  have hu : PauseIs p a b u := by
    change PauseIs p a b (if _ then _ else _)
    split
    · exact h
    · exact h.dropStale
  split
  · split
    · exact .startFrame (.stored hu.1 hu.2)
    · exact hu.lower2
  · exact hu.lower2

theorem PauseIs.takeNext {t} (h : PauseIs p a b s) : PauseIs p a b (takeNext s p t) := by
  unfold Machine.takeNext
  extract_lets u v
  have hu : PauseIs p a b u := h.expireLate
  split
  · exact hu
  · split
    · exact .startFrame (.stored hu.1 hu.2)
    · split
      · split
        · exact .startFrame (.stored hu.1 hu.2)
        · exact hu.takeLower
      · exact hu.takeLower

theorem PauseIs.idleTake {t} (h : PauseIs p a b s) : PauseIs p a b (idleTake s p t) := by
  unfold Machine.idleTake
  split
  · exact h.expireLate
  · exact h.takeNext

end

end Sys2Proof.Machine
end

section
/-! PROOF. O52: the transmit side of a port and its launch queue (R305 to R311, R339 to R344). -/

namespace Sys2Proof.Machine

open Sys2Proof

theorem exec_macFrameEnd (p t : Nat) (s : State) : exec (.macFrameEnd p t) s = .next (whilePowered s fun s => takeNext (endFrame s p) p t) := rfl
theorem exec_pauseExpire (p q t : Nat) (s : State) : exec (.pauseExpire p q t) s = .next (whilePowered s fun s => pauseExpire s p q t) := rfl
theorem exec_launchRequest (p : Nat) (m : LaunchReq) (t : Nat) (s : State) :
    exec (.launchRequest p m t) s = .next (whilePowered s fun s => launchRequest s p m t) := rfl
theorem exec_launchDue (p t : Nat) (s : State) : exec (.launchDue p t) s = .next (whilePowered s fun s => idleTake s p t) := rfl
theorem exec_launchLatewinExpire (p t : Nat) (s : State) :
    exec (.launchLatewinExpire p t) s = .next (whilePowered s fun s => expireLate s p t) := rfl
theorem exec_tsqRead (p : Nat) (s : State) : exec (.tsqRead p) s = .next (tsqRead s p) := rfl
theorem exec_pdelayReqReceive (p : Nat) (d : PdelayReq) (s : State) :
    exec (.pdelayReqReceive p d) s = .next (whilePowered s fun s => pdelayReq s p d) := rfl

/-! Timed entries that are too late (R342). -/

section
variable {s : State} {p t : Nat}

theorem expireLate_empty (h : (portOf s p).q0 = []) : expireLate s p t = s := by
  have hsame : { portOf s p with q0 := [] } = portOf s p := by rw [← h]
  unfold expireLate
  simp only [h, List.filter_nil, List.foldl_nil, hsame, setPort_portOf]

/-- What the end of entries that are too late moves: Q0, the completions and their counter. -/
theorem expireLate_facts (hp : p < 2) (s : State) (t : Nat) : ∃ q d, portOf (expireLate s p t) p = { portOf s p with q0 := q, done := d } ∧
    (expireLate s p t).fab = s.fab ∧ PortCfgKept s (expireLate s p t) := by
  unfold expireLate
  extract_lets w v late u
  refine foldl_invariant (fun u : State => ∃ q d, portOf u p = { portOf s p with q0 := q, done := d } ∧ u.fab = s.fab ∧ PortCfgKept s u)
    _ (fun x f hx => ?_) _ _ ⟨_, _, portOf_setPort .., setPort_fab .., (PortCfgKept.refl s).regs (setPort_regs ..)⟩
  obtain ⟨q, d, hport, hfab, hcfg⟩ := hx
  unfold completeLate
  split
  next tag _ _ _ _ _ _ _ =>
    refine ⟨q, d ++ [{ tag := tag, status := .late, stampLost := false }], ?_, ?_, ?_⟩
    · rw [portOf_raise, complete, portOf_setPort, portOf_addCtr, hport]
    · rw [raise_fab, complete, setPort_fab]
      exact hfab
    · refine PortCfgKept.raise ?_ rfl (.inl (by decide))
      exact (hcfg.addCtr (.inl (by simp only [Reg.TIME_LATE]; omega))).regs (setPort_regs ..)
  next => exact ⟨q, d, hport, hfab, hcfg⟩

variable {f : TxFrame} {tag lt po : Nat} {st os : Bool}

section
variable (hk : f.kind = .launch tag true lt st os po true) (hq : (portOf s p).q0 = [f])
include hk hq

theorem expireLate_late (h : lt + lateWin s < t) : expireLate s p t = completeLate (setPort s p { portOf s p with q0 := [] }) p f := by
  unfold expireLate
  extract_lets w v late u
  have hlate : late f = true := by simp only [late, hk, w, gt_iff_lt, h, decide_true, Bool.true_or]
  simp only [u, v, hq, List.filter_cons, hlate, List.filter_nil]
  rfl

theorem expireLate_waits (h : t ≤ lt + lateWin s) (hheld : t < lt + lateWin s ∨ ((portOf s p).wire = none ∧ queuePaused s p 0 f = false)) :
    expireLate s p t = s := by
  have hsame : { portOf s p with q0 := [f] } = portOf s p := by rw [← hq]
  unfold expireLate
  extract_lets w v late u
  have hlate : late f = false := by
    have h1 : decide (t > lt + w) = false := decide_eq_false (not_lt.2 h)
    simp only [late, hk, h1, Bool.false_or]
    rcases hheld with hh | ⟨hw, hpq⟩
    · rw [decide_eq_false (show ¬ t = lt + w from (ne_of_lt hh)), Bool.false_and]
    · rw [hpq, show v.wire = none from hw]
      simp
  simp only [u, v, hq, List.filter_cons, hlate, List.filter_nil]
  simpa using congrArg (setPort s p) hsame

end

/-! What the MAC takes (R305, R341). -/

theorem queuePaused_none (hpause : (portOf s p).pause = 0) (hpfc : (portOf s p).pfc = Vector.replicate 8 0) (q : Nat) (f : TxFrame) :
    queuePaused s p q f = false := by
  have hzero : ∀ i, (Vector.replicate 8 0 : Vector Nat 8)[i]?.getD 0 = 0 := fun i => by
    rw [Vector.getElem?_replicate]
    split <;> rfl
  unfold queuePaused
  simp only [hpause, hpfc, hzero, bne_self_eq_false, Bool.or_self]

/-- The bytes of a frame of queue q on the wire: its tag, if it gets one, and its FCS (R305, R307). -/
def sentBytes (s : State) (p q : Nat) (f : TxFrame) : Bytes :=
  let b := tagFrame s p q f f.bytes
  b ++ leBytes 4 (crc32e b)

theorem startFrame_sound (h : s.fab.inj = []) (q : Nat) : startFrame s p q t f = startSound s p q t f := by
  have hbad : frameBad s f.bytes.length = (false, s) := if_pos (by rw [h]; rfl)
  unfold startFrame
  rw [hbad]
  rfl

theorem startFrame_plain (h : s.fab.inj = []) (hk : f.kind = .media ∨ f.kind = .pause) (q : Nat) :
    startFrame s p q t f = setPort s p { portOf s p with wire := some { f with bytes := sentBytes s p q f } } := by
  rw [startFrame_sound h]
  unfold startSound leaving finishFrame
  rcases hk with hk | hk
  · simp only [hk]; rfl
  · simp only [hk]; rfl

/-- The MAC may send, and no codeword of the packet buffers is damaged (R297, R441). -/
structure CanSend (s : State) (p : Nat) : Prop where
  sound : s.fab.inj = []
  link : (portOf s p).link = true
  may : maySend s p = true
  pcs : pcsOn s p = true

/-- No pause frame waits and none holds a queue (R310). -/
structure Unpaused (v : PortSt) : Prop where
  queue : v.pauseQ = []
  pause : v.pause = 0
  pfc : v.pfc = Vector.replicate 8 0

theorem takeNext_own (hp : p < 2) (h : CanSend s p) {g : TxFrame} {more : List TxFrame} (hq : (portOf s p).pauseQ = g :: more)
    (hk : g.kind = .pause) : ∃ q d, portOf (takeNext s p t) p =
      { portOf s p with q0 := q, done := d, pauseQ := more, wire := some { g with bytes := g.bytes ++ leBytes 4 (crc32e g.bytes) } } := by
  obtain ⟨q, d, hport, hfab, hcfg⟩ := expireLate_facts hp s t
  refine ⟨q, d, ?_⟩
  unfold takeNext
  extract_lets u v
  have hv : v = { portOf s p with q0 := q, done := d } := hport
  have hgo : (!v.link || !maySend u p || !pcsOn u p) = false := by
    rw [hcfg.maySend, hcfg.pcsOn, hv, h.may, h.pcs]
    simp [h.link]
  rw [if_neg (by rw [hgo]; decide), show v.pauseQ = g :: more by rw [hv]; exact hq]
  dsimp only
  have hbytes : ∀ w : State, sentBytes w p 0 g = g.bytes ++ leBytes 4 (crc32e g.bytes) := fun w => by
    simp [sentBytes, tagFrame, tagsIt, hk]
  rw [startFrame_plain (by rw [setPort_fab, hfab]; exact h.sound) (.inr hk), hbytes, portOf_setPort, portOf_setPort, hv]

theorem takeNext_lower (h : CanSend s p) (hu : (portOf s p).pauseQ = []) (hlate : expireLate s p t = s) (hpick : pick0 s p t = none) :
    takeNext s p t = takeNext.takeLower s p t := by
  unfold takeNext
  rw [hlate]
  dsimp only
  rw [if_neg (by simp [h.link, h.may, h.pcs]), hu]
  dsimp only
  rw [hpick]
  rfl

theorem pick0_empty (h : (portOf s p).q0 = []) : pick0 s p t = none := by
  simp [pick0, earliestTimed, h]

theorem takeLower_empty (h1 : (portOf s p).q1 = []) (h2 : (portOf s p).q2 = []) (h3 : (portOf s p).q3 = []) : takeNext.takeLower s p t = s := by
  unfold takeNext.takeLower
  simp only [h1, if_true]
  unfold takeNext.lower2
  simp only [h2]
  unfold takeNext.lower3
  simp only [h3]

/-- A media frame that is not stale leaves Q1 (R305, R308). -/
theorem takeLower_media (h : s.fab.inj = []) (hu : Unpaused (portOf s p)) (h0 : (portOf s p).q0 = []) (h1 : (portOf s p).q1 = [f])
    (hk : f.kind = .media) (hfresh : t ≤ f.at_ + 4000 * getF s (netF p F.NET_STALE_US)) :
    takeNext.takeLower s p t = setPort s p { portOf s p with q1 := [], wire := some { f with bytes := sentBytes s p 1 f } } := by
  have hpaused := queuePaused_none hu.pause hu.pfc
  have hdrop : dropStale s p t 1 = s := by
    unfold dropStale
    simp only [h1]
    exact if_neg (not_lt.2 hfresh)
  have hguard : guardOk s p 1 t f = true := by simp [guardOk, earliestTimed, h0]
  unfold takeNext.takeLower
  simp only [h1, hpaused, Bool.false_eq_true, if_false, List.length_singleton, hdrop, hguard, Bool.not_false, Bool.and_self, if_true]
  rw [startFrame_plain (by rw [setPort_fab]; exact h) (.inl hk), setPort_setPort, portOf_setPort]
  have hbytes : sentBytes (setPort s p { portOf s p with q1 := [] }) p 1 f = sentBytes s p 1 f := by
    unfold sentBytes
    rw [PortCfgKept.tagFrame ((PortCfgKept.refl s).regs (setPort_regs ..))]
  rw [hbytes]

theorem leaving_q0 (e : Nat) : (portOf (leaving s p f e) p).q0 = (portOf s p).q0 := by
  unfold leaving
  split
  · unfold maxF
    split <;> rfl
  · split
    · extract_lets v
      split
      · rw [complete, portOf_setPort, portOf_setPort]
      · rw [portOf_raise, complete, portOf_setPort]
        rfl
    · rw [complete, portOf_setPort]
  · rfl

theorem startSound_leaves (q : Nat) : (portOf (startSound s p q t f) p).q0 = (portOf s p).q0 ∧ (portOf (startSound s p q t f) p).wire ≠ none := by
  unfold startSound
  extract_lets e b u v
  rw [portOf_setPort]
  exact ⟨leaving_q0 e, Option.some_ne_none _⟩

section
variable (h : CanSend s p) (hu : Unpaused (portOf s p)) (hw : (portOf s p).wire = none)
  (hk : f.kind = .launch tag true lt st os po true) (hq : (portOf s p).q0 = [f])
include h hu hw hk hq

theorem takeNext_due (hlt : lt ≤ t) (hin : t ≤ lt + lateWin s) : (portOf (takeNext s p t) p).q0 = [] ∧ (portOf (takeNext s p t) p).wire ≠ none := by
  have hpaused := queuePaused_none hu.pause hu.pfc 0 f
  have htimed : timedAt f = some lt := by simp [timedAt, hk]
  have hpick : pick0 s p t = some 0 := by simp [pick0, earliestTimed, hq, htimed, hlt]
  have hguard : guardOk s p 0 t f = true := by simp [guardOk, earliestTimed, hq, htimed]
  unfold takeNext
  rw [expireLate_waits hk hq hin (.inr ⟨hw, hpaused⟩)]
  dsimp only
  rw [if_neg (by simp [h.link, h.may, h.pcs]), hu.queue]
  dsimp only
  rw [hpick]
  simp only [hq, Option.bind_some, List.getElem?_cons_zero, Option.map_some, hpaused, hguard, Bool.not_false, Bool.and_self, if_true]
  rw [startFrame_sound (by rw [setPort_fab]; exact h.sound)]
  refine ⟨(startSound_leaves 0).1.trans ?_, (startSound_leaves 0).2⟩
  rw [portOf_setPort]
  rfl

theorem takeNext_early (hlt : t < lt) (h1 : (portOf s p).q1 = []) (h2 : (portOf s p).q2 = []) (h3 : (portOf s p).q3 = []) :
    takeNext s p t = s := by
  have htimed : timedAt f = some lt := by simp [timedAt, hk]
  have hpick : pick0 s p t = none := by simp [pick0, earliestTimed, hq, htimed, not_le.2 hlt]
  rw [takeNext_lower h hu.queue (expireLate_waits hk hq (by omega) (.inr ⟨hw, queuePaused_none hu.pause hu.pfc 0 f⟩)) hpick]
  exact takeLower_empty h1 h2 h3

end

/-! A frame ends (R305, R317). -/

theorem endFrame_idle (h : (portOf s p).wire = none) : endFrame s p = s := by
  unfold endFrame
  simp only [h]

theorem endFrame_facts (h : (portOf s p).wire = some f) : portOf (endFrame s p) p = { portOf s p with wire := none } ∧
    (endFrame s p).fab = s.fab ∧ PortCfgKept s (endFrame s p) ∧
    getR (endFrame s p) (netR p Reg.NET_TXOK) = satAdd 32 (getR s (netR p Reg.NET_TXOK)) 1 ∧
    (f.kind = .pause → getR (endFrame s p) (netR p Reg.NET_PAUSETX) = satAdd 32 (getR s (netR p Reg.NET_PAUSETX)) 1) ∧
    (f.kind = .forward → getR (endFrame s p) (netR p Reg.NET_FWDOK) = satAdd 32 (getR s (netR p Reg.NET_FWDOK)) 1) := by
  obtain ⟨u, hu⟩ : ∃ u, u = addCtr (setPort s p { portOf s p with wire := none }) (netR p Reg.NET_TXOK) 1 := ⟨_, rfl⟩
  have hport : portOf u p = { portOf s p with wire := none } := by rw [hu, portOf_addCtr, portOf_setPort]
  have hfab : u.fab = s.fab := by rw [hu]; exact setPort_fab ..
  have hctr : ∀ c, 0x300A0 ≤ c → c < 0x30100 → netR p c < 0x30000 ∨ 0xA0 ≤ netR p c % 0x10000 := fun c h1 h2 => by
    simp only [netR]; omega
  have hcfg : PortCfgKept s u := by
    rw [hu]
    exact ((PortCfgKept.refl s).regs (setPort_regs ..)).addCtr (hctr _ (by decide) (by decide))
  have htx : getR u (netR p Reg.NET_TXOK) = satAdd 32 (getR s (netR p Reg.NET_TXOK)) 1 := by
    rw [hu, getR_addCtr_same, getR_setPort]
  have hother : ∀ c, c ≠ Reg.NET_TXOK → getR u (netR p c) = getR s (netR p c) := fun c hc => by
    rw [hu, getR_addCtr_ne _ _ (by simp only [netR]; omega), getR_setPort]
  have hmore : ∀ c, 0x300A0 ≤ c → c < 0x30100 → c ≠ Reg.NET_TXOK → portOf (addCtr u (netR p c) 1) p = { portOf s p with wire := none } ∧
      (addCtr u (netR p c) 1).fab = s.fab ∧ PortCfgKept s (addCtr u (netR p c) 1) ∧
      getR (addCtr u (netR p c) 1) (netR p Reg.NET_TXOK) = satAdd 32 (getR s (netR p Reg.NET_TXOK)) 1 ∧
      getR (addCtr u (netR p c) 1) (netR p c) = satAdd 32 (getR s (netR p c)) 1 := fun c h1 h2 hc =>
    ⟨hport, hfab, hcfg.addCtr (hctr c h1 h2), by rw [getR_addCtr_ne _ _ (by simp only [netR]; omega), htx],
      by rw [getR_addCtr_same, hother c hc]⟩
  obtain ⟨pport, pfab, pcfg, ptx, pown⟩ := hmore Reg.NET_PAUSETX (by decide) (by decide) (by decide)
  obtain ⟨fport, ffab, fcfg, ftx, fown⟩ := hmore Reg.NET_FWDOK (by decide) (by decide) (by decide)
  cases hk : f.kind with
  | pause =>
    have hend : endFrame s p = addCtr u (netR p Reg.NET_PAUSETX) 1 := by simp only [endFrame, h, hk, hu]
    rw [hend]
    exact ⟨pport, pfab, pcfg, ptx, fun _ => pown, fun h => (by cases h)⟩
  | forward =>
    have hend : endFrame s p = addCtr u (netR p Reg.NET_FWDOK) 1 := by simp only [endFrame, h, hk, hu]
    rw [hend]
    exact ⟨fport, ffab, fcfg, ftx, fun h => (by cases h), fun _ => fown⟩
  | event =>
    have hend : endFrame s p = addCtr u (netR p Reg.NET_FWDOK) 1 := by simp only [endFrame, h, hk, hu]
    rw [hend]
    exact ⟨fport, ffab, fcfg, ftx, fun h => (by cases h), fun h => (by cases h)⟩
  | plain | media | pdelayResp | launch =>
    have hend : endFrame s p = u := by simp only [endFrame, h, hk, hu]
    rw [hend]
    exact ⟨hport, hfab, hcfg, htx, fun h => (by cases h), fun h => (by cases h)⟩

/-! Pauses run out (R310). -/

theorem pauseExpire_port {q : Nat} (h : 8 ≤ q) : (portOf (pauseExpire s p q t) p).pause = 0 := by
  have hstored : PauseIs p 0 (portOf s p).pfc (setPort s p { portOf s p with pause := 0 }) := .stored rfl rfl
  unfold pauseExpire
  extract_lets v
  rw [if_pos h]
  exact hstored.idleTake.1

theorem pauseExpire_priority {q : Nat} (h : q < 8) :
    (portOf (pauseExpire s p q t) p).pfc[q]? = some 0 ∧ (portOf (pauseExpire s p q t) p).pause = (portOf s p).pause := by
  have hstored : PauseIs p (portOf s p).pause ((portOf s p).pfc.setIfInBounds q 0)
      (setPort s p { portOf s p with pfc := (portOf s p).pfc.setIfInBounds q 0 }) := .stored rfl rfl
  unfold pauseExpire
  extract_lets v
  rw [if_neg (not_le.2 h)]
  obtain ⟨hpause, hpfc⟩ := hstored.idleTake (t := t)
  refine ⟨?_, hpause⟩
  rw [hpfc, Vector.getElem?_setIfInBounds_self_of_lt h]

/-! Launch requests (R308, R340, R342). -/

/-- A launch entry as it waits in Q0 (R340). -/
def launchFrame (m : LaunchReq) (t : Nat) : TxFrame :=
  { bytes := m.frame, at_ := t, kind := .launch m.tag m.timed (ltimeOf m t) m.stamp m.onestep m.ptpofs m.latewin }

/-- Whether the last request was turned away (R340). -/
def noteFull (b : Bool) (s : State) : State := { s with time := { s.time with launchFull := b } }

theorem portOf_noteFull (b : Bool) (s : State) (p : Nat) : portOf (noteFull b s) p = portOf s p := rfl

theorem setPort_noteFull (b : Bool) (s : State) (p : Nat) (v : PortSt) : setPort (noteFull b s) p v = noteFull b (setPort s p v) := by
  by_cases hp : p = 0 <;> simp [setPort, noteFull, hp]

theorem chainMode_setPort (s : State) (p : Nat) (v : PortSt) : chainMode (setPort s p v) = chainMode s :=
  PortCfgKept.chainMode ((PortCfgKept.refl s).regs (setPort_regs ..))

theorem txPorts_single (h : chainMode s = false) : txPorts s p = [p] := by simp [txPorts, h]
theorem txPorts_chain (h : chainMode s = true) : txPorts s 0 = [0, 1] := by simp [txPorts, h]

theorem launchFull_congr {u : State} (h : (portOf u p).q0 = (portOf s p).q0) (n : Nat) : launchFull u p n = launchFull s p n := by
  unfold launchFull launchCount
  rw [h]

variable {m : LaunchReq}

theorem launchPlace_single (h : chainMode s = false) : launchPlace s p m t =
    if launchFull s p m.frame.length then noteFull true s else launchEntry (noteFull false s) p m t := by
  unfold launchPlace
  rw [txPorts_single h]
  cases hfull : launchFull s p m.frame.length <;> simp [hfull, noteFull]

theorem launchEntry_down (h : (portOf s p).link = false) :
    launchEntry s p m t = txLoss (complete s p m.tag .linkDown false) p Reg.NET_TXDROP := if_pos (by simp [h])

theorem launchEntry_late (h : (portOf s p).link = true) (ht : m.timed = true) (hw : m.latewin = true) (hlate : ltimeOf m t + lateWin s < t) :
    launchEntry s p m t = completeLate s p (launchFrame m t) := by
  unfold launchEntry
  extract_lets lt f
  rw [if_neg (by simp [h])]
  exact if_pos (by simp only [ht, hw, Bool.true_and]; exact decide_eq_true hlate)

theorem launchEntry_waits (h : (portOf s p).link = true) (hn : launchFull s p m.frame.length = false)
    (hin : m.timed = false ∨ m.latewin = false ∨ t ≤ ltimeOf m t + lateWin s) :
    launchEntry s p m t = setPort s p { portOf s p with q0 := (portOf s p).q0 ++ [launchFrame m t] } := by
  have hroom : ¬ queueBytes (portOf s p).q0 + m.frame.length > 8192 := by
    unfold launchFull at hn
    rw [Bool.or_eq_false_iff] at hn
    exact of_decide_eq_false hn.2
  unfold launchEntry
  extract_lets lt f
  have hgate : ¬ (m.timed && m.latewin && decide (lt + lateWin s < t)) = true := by
    rw [Bool.and_eq_true, Bool.and_eq_true, decide_eq_true_eq]
    rintro ⟨⟨h1, h2⟩, h3⟩
    rcases hin with h | h | h
    · rw [h1] at h; cases h
    · rw [h2] at h; cases h
    · exact absurd h3 (not_lt.2 h)
  rw [if_neg (by simp [h]), if_neg hgate]
  unfold enqueue0
  rw [if_neg hroom, if_neg (by simp [h])]
  rfl

/-- The port once firmware has taken its frames from the control processor queue (R303). -/
def afterTaken (v : PortSt) (n : Nat) : PortSt := { v with cpq := v.cpq.drop n }

theorem launchRequest_entry (h : m.viaQ3 = false) : launchRequest s p m t = launchPlace (setPort s p (afterTaken (portOf s p) m.taken)) p m t :=
  if_neg (by simp [h])

theorem launchFull_afterTaken (k n : Nat) : launchFull (setPort s p (afterTaken (portOf s p) k)) p n = launchFull s p n :=
  launchFull_congr (by rw [portOf_setPort]; rfl) n

theorem lateWin_noteFull (b : Bool) (w : PortSt) : lateWin (noteFull b (setPort s p w)) = lateWin s := by
  unfold lateWin
  rw [getF_congr (noteFull b (setPort s p w)) s _ (setPort_regs ..)]

section
variable (hvia : m.viaQ3 = false) (hchain : chainMode s = false)
include hvia hchain

theorem launchRequest_full (h : launchFull s p m.frame.length = true) :
    launchRequest s p m t = noteFull true (setPort s p (afterTaken (portOf s p) m.taken)) := by
  rw [launchRequest_entry hvia, launchPlace_single ((chainMode_setPort ..).trans hchain), launchFull_afterTaken, if_pos h]

theorem launchRequest_room (h : launchFull s p m.frame.length = false) :
    launchRequest s p m t = launchEntry (noteFull false (setPort s p (afterTaken (portOf s p) m.taken))) p m t := by
  rw [launchRequest_entry hvia, launchPlace_single ((chainMode_setPort ..).trans hchain), launchFull_afterTaken, if_neg (by rw [h]; decide)]

variable (hroom : launchFull s p m.frame.length = false)
include hroom

theorem launchRequest_waits (hlink : (portOf s p).link = true) (hin : m.timed = false ∨ m.latewin = false ∨ t ≤ ltimeOf m t + lateWin s) :
    launchRequest s p m t = noteFull false (setPort s p { afterTaken (portOf s p) m.taken with q0 := (portOf s p).q0 ++ [launchFrame m t] }) := by
  have hport : portOf (noteFull false (setPort s p (afterTaken (portOf s p) m.taken))) p = afterTaken (portOf s p) m.taken := by
    rw [portOf_noteFull, portOf_setPort]
  rw [launchRequest_room hvia hchain hroom, launchEntry_waits (by rw [hport]; exact hlink)
    (by rw [launchFull_congr (s := s) (by rw [hport]; rfl)]; exact hroom) (by rw [lateWin_noteFull]; exact hin), hport, setPort_noteFull,
    setPort_setPort]
  rfl

theorem launchRequest_late (hlink : (portOf s p).link = true) (ht : m.timed = true) (hw : m.latewin = true)
    (hlate : ltimeOf m t + lateWin s < t) : launchRequest s p m t =
      raise (complete (addCtr (noteFull false (setPort s p (afterTaken (portOf s p) m.taken))) (Reg.TIME_LATE + 0x20 * p) 1) p m.tag .late false) 2 5 := by
  have hport : portOf (noteFull false (setPort s p (afterTaken (portOf s p) m.taken))) p = afterTaken (portOf s p) m.taken := by
    rw [portOf_noteFull, portOf_setPort]
  rw [launchRequest_room hvia hchain hroom, launchEntry_late (by rw [hport]; exact hlink) ht hw (by rw [lateWin_noteFull]; exact hlate)]
  rfl

theorem launchRequest_down (hlink : (portOf s p).link = false) : launchRequest s p m t =
    txLoss (noteFull false (setPort s p { afterTaken (portOf s p) m.taken with
      done := (portOf s p).done ++ [{ tag := m.tag, status := .linkDown, stampLost := false }] })) p Reg.NET_TXDROP := by
  have hport : portOf (noteFull false (setPort s p (afterTaken (portOf s p) m.taken))) p = afterTaken (portOf s p) m.taken := by
    rw [portOf_noteFull, portOf_setPort]
  rw [launchRequest_room hvia hchain hroom, launchEntry_down (by rw [hport]; exact hlink)]
  unfold complete
  rw [hport, setPort_noteFull, setPort_setPort]
  rfl

end

/-- In chain mode an own frame is an entry on each port (R298, R321). -/
theorem launchRequest_both (hvia : m.viaQ3 = false) (hchain : chainMode s = true) (htimed : m.timed = false) (hA : s.portA.link = true)
    (hB : s.portB.link = true) (hfA : launchFull s 0 m.frame.length = false) (hfB : launchFull s 1 m.frame.length = false) :
    (launchRequest s 0 m t).portA.q0 = s.portA.q0 ++ [launchFrame m t] ∧ (launchRequest s 0 m t).portB.q0 = s.portB.q0 ++ [launchFrame m t] := by
  obtain ⟨u, hu⟩ : ∃ u, u = setPort s 0 (afterTaken (portOf s 0) m.taken) := ⟨_, rfl⟩
  have hu0 : portOf u 0 = afterTaken s.portA m.taken := by rw [hu, portOf_setPort]; rfl
  have hu1 : portOf u 1 = s.portB := by rw [hu, portOf_setPort_ne _ _ _ _ (by decide)]; rfl
  have hf0 : launchFull u 0 m.frame.length = false := by rw [launchFull_congr (s := s) (by rw [hu0]; rfl)]; exact hfA
  have hf1 : launchFull u 1 m.frame.length = false := by rw [launchFull_congr (s := s) (by rw [hu1]; rfl)]; exact hfB
  have hplace : launchRequest s 0 m t = launchEntry (launchEntry (noteFull false u) 0 m t) 1 m t := by
    rw [launchRequest_entry hvia, ← hu]
    unfold launchPlace
    rw [txPorts_chain (by rw [hu]; exact (chainMode_setPort ..).trans hchain)]
    simp only [List.any_cons, List.any_nil, hf0, hf1, Bool.or_self, Bool.false_eq_true, if_false, List.foldl_cons, List.foldl_nil]
    rfl
  have h0 : launchEntry (noteFull false u) 0 m t =
      setPort (noteFull false u) 0 { afterTaken s.portA m.taken with q0 := s.portA.q0 ++ [launchFrame m t] } := by
    rw [launchEntry_waits (s := noteFull false u) (by rw [portOf_noteFull, hu0]; exact hA) ((launchFull_congr (s := u) rfl _).trans hf0) (.inl htimed), portOf_noteFull, hu0]
    rfl
  obtain ⟨y, hy⟩ : ∃ y, y = launchEntry (noteFull false u) 0 m t := ⟨_, rfl⟩
  have hy1 : portOf y 1 = s.portB := by
    rw [hy, h0, portOf_setPort_ne _ _ _ _ (by decide), portOf_noteFull, hu1]
  have hy0 : (portOf y 0).q0 = s.portA.q0 ++ [launchFrame m t] := by rw [hy, h0, portOf_setPort]
  have h1 : launchEntry y 1 m t = setPort y 1 { s.portB with q0 := s.portB.q0 ++ [launchFrame m t] } := by
    rw [launchEntry_waits (by rw [hy1]; exact hB) ((launchFull_congr (s := u) (by rw [hy1, hu1]) _).trans hf1) (.inl htimed), hy1]
  rw [hplace, ← hy, h1]
  exact ⟨hy0, rfl⟩

/-! The timestamp queue (R344) and Pdelay_Reqs (R339). -/

theorem tsqRead_empty (h : (portOf s p).tsq = []) : tsqRead s p = { s with rdata := beBytes 4 0 } := by
  unfold tsqRead
  simp only [h]

theorem tsqRead_facts {tag x : Nat} {rest : List (Nat × Nat)} (h : (portOf s p).tsq = (tag, x) :: rest) :
    (portOf (tsqRead s p) p).tsq = rest ∧ (tsqRead s p).rdata = beBytes 4 (2 ^ 31 + p * 2 ^ 30 + tag % 2 ^ 16) ∧
      getR (tsqRead s p) (Reg.TIME_TSQ_W1 + 0x40 * p) = x % 4000000000 ∧
      getR (tsqRead s p) (Reg.TIME_TSQ_W2 + 0x40 * p) = x / 4000000000 % 2 ^ 32 := by
  obtain ⟨u, hu⟩ : ∃ u, u = setPort s p { portOf s p with tsq := rest } := ⟨_, rfl⟩
  obtain ⟨y, hy⟩ : ∃ y, y = setR (setR (setR u (Reg.TIME_TSQ_W1 + 0x40 * p) (x % 4000000000)) (Reg.TIME_TSQ_W2 + 0x40 * p)
      (x / 4000000000 % 2 ^ 32)) (Reg.TIME_TSQ_W3 + 0x40 * p) (x / 4000000000 / 2 ^ 32 % 2 ^ 16) := ⟨_, rfl⟩
  have hread : ∃ view, tsqRead s p = { y with view := view, rdata := beBytes 4 (2 ^ 31 + p * 2 ^ 30 + tag % 2 ^ 16) } := by
    unfold tsqRead
    simp only [h]
    rw [hy, hu]
    exact ⟨_, rfl⟩
  obtain ⟨view, hread⟩ := hread
  have hregs : ∀ a, getR (tsqRead s p) a = getR y a := fun a => getR_congr _ _ a (by rw [hread])
  refine ⟨?_, by rw [hread], ?_, ?_⟩
  · have hport : portOf (tsqRead s p) p = portOf u p := by rw [hread, hy]; rfl
    rw [hport, hu, portOf_setPort]
  · rw [hregs, hy, getR_setR_ne _ _ _ _ (by simp only [Reg.TIME_TSQ_W1, Reg.TIME_TSQ_W3]; omega),
      getR_setR_ne _ _ _ _ (by simp only [Reg.TIME_TSQ_W1, Reg.TIME_TSQ_W2]; omega), getR_setR_same]
    exact Nat.mod_eq_of_lt (by omega)
  · rw [hregs, hy, getR_setR_ne _ _ _ _ (by simp only [Reg.TIME_TSQ_W2, Reg.TIME_TSQ_W3]; omega), getR_setR_same]
    exact Nat.mod_eq_of_lt (by omega)

variable {d : PdelayReq}

theorem pdelayReq_ignored (h : d.version ≠ 2 ∨ 2 ≤ d.minor ∨ bit (getF s F.TIME_CTRL_PDRESP) p = false ∨
    d.domain ≠ getF s (F.TIME_SVCFG_DOMAIN.plus (128 * p)) ∨ maySend s p = false) : pdelayReq s p d = s := by
  refine if_pos ?_
  rcases h with h | h | h | h | h <;> simp [h]

section
variable (hver : d.version = 2) (hminor : d.minor ≤ 1) (hresp : bit (getF s F.TIME_CTRL_PDRESP) p = true)
  (hdom : d.domain = getF s (F.TIME_SVCFG_DOMAIN.plus (128 * p))) (hmay : maySend s p = true)
include hver hminor hresp hdom hmay

/-- A Pdelay_Req that the port answers. -/
theorem pdelayReq_gate : ¬ (d.version != 2 || decide (d.minor ≥ 2) || !bit (getF s F.TIME_CTRL_PDRESP) p ||
    d.domain != getF s (F.TIME_SVCFG_DOMAIN.plus (128 * p)) || !maySend s p) = true := by
  have h2 : ¬ d.minor ≥ 2 := by omega
  simp [hver, h2, hresp, hdom, hmay]

theorem pdelayReq_skipped (h : ∃ o c i, ∃ y ∈ (portOf s p).q0, y.kind = .pdelayResp o c i) :
    pdelayReq s p d = addCtr s Reg.TIME_PDSKIP 1 := by
  obtain ⟨o, c, i, y, hy, hk⟩ := h
  unfold pdelayReq
  rw [if_neg (pdelayReq_gate hver hminor hresp hdom hmay)]
  exact if_pos (List.any_eq_true.2 ⟨y, hy, by rw [hk]⟩)

theorem pdelayReq_answered (hq : (portOf s p).q0 = []) (hlink : (portOf s p).link = true) (hudp : d.overUdp = false) :
    (portOf (pdelayReq s p d) p).q0.map (·.kind) = [.pdelayResp 14 d.corr d.stamp] ∧ (pdelayReq s p d).regs = s.regs := by
  unfold pdelayReq
  rw [if_neg (pdelayReq_gate hver hminor hresp hdom hmay)]
  extract_lets queued skip body x u plain fr
  have hqueued : ¬ queued = true := by simp [queued, hq]
  have hu : u = s := by simp only [u, x, hudp]; rfl
  have hfr : fr.2 = 14 ∧ fr.1.length ≤ 128 := by
    have hbody : body.length = 54 := by simp [body, pdelayRespBytes, zeroBytes]
    have hplain : plain.length = 68 := by simp [plain, hbody]
    simp only [fr, hudp, Bool.false_eq_true, if_false, true_and]
    simp [zeroBytes, hplain]
  have henq : enqueue0 u p { bytes := fr.1, at_ := d.stamp, kind := .pdelayResp fr.2 d.corr d.stamp } =
      (true, setPort s p { portOf s p with q0 := [{ bytes := fr.1, at_ := d.stamp, kind := .pdelayResp 14 d.corr d.stamp }] }) := by
    unfold enqueue0
    dsimp only
    rw [hu, hq, hfr.1, if_neg (by simp only [queueBytes, List.map_nil, List.sum_nil]; omega), if_neg (by simp [hlink])]
    rfl
  rw [if_neg hqueued, henq]
  exact ⟨by rw [portOf_setPort]; rfl, setPort_regs ..⟩

end

end

section
variable {s : State} {p t : Nat}

/-- With every queue empty the end of a frame leaves the MAC idle (R305). -/
theorem takeNext_ended {f : TxFrame} (hw : (portOf s p).wire = some f) (hq : (portOf s p).pauseQ = []) (h0 : (portOf s p).q0 = [])
    (h1 : (portOf s p).q1 = []) (h2 : (portOf s p).q2 = []) (h3 : (portOf s p).q3 = []) : takeNext (endFrame s p) p t = endFrame s p := by
  obtain ⟨hport, -, -, -, -, -⟩ := endFrame_facts hw
  have hlate : expireLate (endFrame s p) p t = endFrame s p := expireLate_empty (by rw [hport]; exact h0)
  have hlower : takeNext.takeLower (endFrame s p) p t = endFrame s p :=
    takeLower_empty (by rw [hport]; exact h1) (by rw [hport]; exact h2) (by rw [hport]; exact h3)
  unfold takeNext
  rw [hlate]
  dsimp only
  split
  · rfl
  · rw [hport]
    dsimp only
    rw [hq]
    dsimp only
    rw [pick0_empty (by rw [hport]; exact h0)]
    exact hlower

/-- A media frame leaves an idle MAC (R305). -/
theorem takeNext_media (h : CanSend s p) (hu : Unpaused (portOf s p)) (h0 : (portOf s p).q0 = []) {f : TxFrame} (h1 : (portOf s p).q1 = [f])
    (hk : f.kind = .media) (hfresh : t ≤ f.at_ + 4000 * getF s (netF p F.NET_STALE_US)) :
    takeNext s p t = setPort s p { portOf s p with q1 := [], wire := some { f with bytes := sentBytes s p 1 f } } := by
  rw [takeNext_lower h hu.queue (expireLate_empty h0) (pick0_empty h0), takeLower_media h.sound hu h0 h1 hk hfresh]

end

/-- Settles O52: what the MAC takes by the heads of its queues, the launch queue by the place a request finds. -/
theorem transmitAndLaunch : Obligations.TransmitAndLaunch := by
  unfold Obligations.TransmitAndLaunch
  intro s p q t f g m d tag x rest more hp v able idle entry full w down launch onTime
  have run : ∀ (i : Instr) (k : State → State), exec i s = .next (whilePowered s k) → powered s = true → exec i s = .next (k s) :=
    fun i k hi hon => hi.trans (congrArg Host.Outcome.next (whilePowered_on hon _))
  have canSend : able → CanSend s p := fun ⟨_, hinj, _, hlink, hmay, hpcs⟩ => ⟨hinj, hlink, hmay, hpcs⟩
  have unpaused : idle → Unpaused v := fun ⟨_, h1, h2, h3⟩ => ⟨h1, h2, h3⟩
  have macEnd : able → exec (.macFrameEnd p t) s = .next (takeNext s p t) := fun ⟨hon, _, hw, _⟩ =>
    (run _ _ (exec_macFrameEnd p t s) hon).trans (congrArg (fun u => Host.Outcome.next (takeNext u p t)) (endFrame_idle hw))
  have wireFree : able → (portOf s p).wire = none := fun ⟨_, _, hw, _⟩ => hw
  have launchDue : able → exec (.launchDue p t) s = .next (takeNext s p t) := fun ⟨hon, _, hw, _⟩ =>
    (run _ _ (exec_launchDue p t s) hon).trans (congrArg Host.Outcome.next (if_neg (by rw [show (portOf s p).wire = none from hw]; decide)))
  refine ⟨fun hoff i hi => ?dark, fun hidle h0 h1 h2 h3 => ?still, fun hidle h0 h1 hk hfresh => ?media, fun hable hq hk => ?own,
    fun hon hw hq h0 h1 h2 h3 => ?ends, fun hon hinj hw hlink hmay hpcs hq hpause hpfc h0 h1 hkf hk hfresh => ?next, fun hon h8 => ?pause,
    fun hon h8 => ?priority, fun hon hvia hchain => ?viaQ3, fun hon hvia hchain => ⟨fun hfull => ?full, fun hroom => ⟨fun hlink hin => ?waits,
    fun hlink hnot => ?late, fun hlink => ?down⟩⟩, fun hon hvia hchain hp0 htimed hA hB hfA hfB => ?chain,
    fun hon lt st os po hk hq => ⟨fun hlate => ?expires, fun hwait => ?pends, fun hidle hlt hin => ?due, fun hidle hlt h1 h2 h3 => ?early⟩,
    fun h => ?tsqEmpty, fun h => ?tsqHead, fun h => ?ignored, fun hon hver hminor hresp hdom hmay => ⟨fun h => ?skips, fun hq hlink hudp => ?answers⟩⟩
  case dark =>
    simp only [List.mem_cons, List.not_mem_nil, or_false] at hi
    rcases hi with rfl | rfl | rfl | rfl | rfl | rfl <;> exact congrArg Host.Outcome.next (whilePowered_off hoff _)
  case still =>
    rw [macEnd hidle.1, takeNext_lower (canSend hidle.1) (unpaused hidle).queue (expireLate_empty h0) (pick0_empty h0), takeLower_empty h1 h2 h3]
  case media =>
    refine ⟨_, macEnd hidle.1, ?_⟩
    rw [takeNext_media (canSend hidle.1) (unpaused hidle) h0 h1 hk hfresh, portOf_setPort]
    exact ⟨rfl, rfl, rfl, rfl⟩
  case own =>
    obtain ⟨q', d', hport⟩ := takeNext_own (t := t) hp (canSend hable) hq hk
    refine ⟨_, macEnd hable, ?_⟩
    rw [hport]
    exact ⟨rfl, rfl, rfl⟩
  case ends =>
    obtain ⟨hport, -, -, htx, hpause, hfwd⟩ := endFrame_facts hw
    exact ⟨_, (run _ _ (exec_macFrameEnd p t s) hon).trans (congrArg Host.Outcome.next (takeNext_ended hw hq h0 h1 h2 h3)),
      hport, htx, hpause, hfwd⟩
  case next =>
    obtain ⟨hport, hfab, hcfg, htx, -, -⟩ := endFrame_facts hw
    have hsend : CanSend (endFrame s p) p := ⟨by rw [hfab]; exact hinj, by rw [hport]; exact hlink, (hcfg.maySend p).trans hmay, (hcfg.pcsOn p).trans hpcs⟩
    have hfresh' : t ≤ g.at_ + 4000 * getF (endFrame s p) (netF p F.NET_STALE_US) := by
      rw [hcfg.getF _ _ (by decide) (by decide)]; exact hfresh
    have hnext := takeNext_media hsend (by rw [hport]; exact ⟨hq, hpause, hpfc⟩) (by rw [hport]; exact h0) (by rw [hport]; exact h1) hk hfresh'
    refine ⟨_, run _ _ (exec_macFrameEnd p t s) hon, ?_⟩
    rw [hnext, portOf_setPort, getR_setPort]
    refine ⟨rfl, htx, ?_⟩
    unfold sentBytes
    rw [hcfg.tagFrame]
    rfl
  case pause => exact ⟨_, run _ _ (exec_pauseExpire p q t s) hon, pauseExpire_port h8⟩
  case priority => exact ⟨_, run _ _ (exec_pauseExpire p q t s) hon, pauseExpire_priority h8⟩
  case viaQ3 =>
    refine (run _ _ (exec_launchRequest p m t s) hon).trans (congrArg Host.Outcome.next ?_)
    unfold launchRequest
    extract_lets u
    rw [if_pos hvia, txPorts_single ((chainMode_setPort ..).trans hchain), List.foldl_cons, List.foldl_nil]
  case tsqEmpty => rw [exec_tsqRead, tsqRead_empty h]
  case tsqHead => exact ⟨_, exec_tsqRead p s, tsqRead_facts h⟩
  case ignored =>
    rw [exec_pdelayReqReceive]
    refine congrArg Host.Outcome.next ?_
    unfold whilePowered
    dsimp only
    rw [pdelayReq_ignored h, ite_self]
  case skips => exact (run _ _ (exec_pdelayReqReceive p d s) hon).trans (congrArg Host.Outcome.next (pdelayReq_skipped hver hminor hresp hdom hmay h))
  case answers => exact ⟨_, run _ _ (exec_pdelayReqReceive p d s) hon, pdelayReq_answered hver hminor hresp hdom hmay hq hlink hudp⟩
  case expires =>
    refine ⟨_, run _ _ (exec_launchLatewinExpire p t s) hon, ?_⟩
    rw [expireLate_late hk hq hlate]
    unfold completeLate
    rw [hk]
    dsimp only
    rw [portOf_raise, complete, portOf_setPort, portOf_addCtr, portOf_setPort]
    exact ⟨rfl, rfl⟩
  case pends =>
    exact (run _ _ (exec_launchLatewinExpire p t s) hon).trans (congrArg Host.Outcome.next (expireLate_waits hk hq hwait.le (.inl hwait)))
  case due => exact ⟨_, launchDue hidle.1, takeNext_due (canSend hidle.1) (unpaused hidle) (wireFree hidle.1) hk hq hlt hin⟩
  case early => rw [launchDue hidle.1, takeNext_early (canSend hidle.1) (unpaused hidle) (wireFree hidle.1) hk hq hlt h1 h2 h3]
  case full =>
    exact (run _ _ (exec_launchRequest p m t s) hon).trans (congrArg Host.Outcome.next (launchRequest_full hvia hchain hfull))
  case waits =>
    exact (run _ _ (exec_launchRequest p m t s) hon).trans (congrArg Host.Outcome.next (launchRequest_waits hvia hchain hroom hlink hin))
  case late =>
    obtain ⟨h1, h2, h3⟩ : m.timed = true ∧ m.latewin = true ∧ ltimeOf m t + lateWin s < t := by
      obtain ⟨h1, hrest⟩ := not_or.1 hnot
      obtain ⟨h2, h3⟩ := not_or.1 hrest
      exact ⟨Bool.eq_true_of_not_eq_false h1, Bool.eq_true_of_not_eq_false h2, not_le.1 h3⟩
    refine ⟨_, run _ _ (exec_launchRequest p m t s) hon, ?_⟩
    rw [launchRequest_late hvia hchain hroom hlink h1 h2 h3, portOf_raise, complete, portOf_setPort, portOf_addCtr, portOf_noteFull,
      portOf_setPort]
    refine ⟨rfl, rfl, ?_⟩
    rw [getR_raise_ne _ _ _ _ _ rfl (by simp only [Reg.TIME_LATE, Reg.TIME_INTSTAT]; omega), getR_setPort, getR_addCtr_same,
      getR_congr (noteFull false _) s _ (setPort_regs ..)]
  case down =>
    exact (run _ _ (exec_launchRequest p m t s) hon).trans (congrArg Host.Outcome.next (launchRequest_down hvia hchain hroom hlink))
  case chain =>
    subst hp0
    exact ⟨_, run _ _ (exec_launchRequest 0 m t s) hon, launchRequest_both hvia hchain htimed hA hB hfA hfB⟩

end Sys2Proof.Machine
end

section
/-! PROOF. O55: TDM masks and gates, decimators and pulse-density outputs (R364, R379 to R395, R463). -/

namespace Sys2Proof.Machine

open Sys2Proof

theorem exec_tdmMaskRelease (p idx m : Nat) (s : State) : exec (.tdmMaskRelease p idx m) s = .next (tdmMaskRelease s p idx m) := rfl
theorem exec_tdmZeroxTimeout (p : Nat) (out : Bool) (j : Nat) (s : State) :
    exec (.tdmZeroxTimeout p out j) s = .next (tdmZeroxTimeout s p out j) := rfl
theorem exec_decSettled (c : Nat) (s : State) : exec (.decSettled c) s = .next (decSettled s c) := rfl
theorem exec_pdmLoadStrobe (g : Nat) (phase : Int) (s : State) :
    exec (.pdmLoadStrobe g phase) s = .next (if bit (pdmCfg s g) 29 then pdmStrobe s g phase else s) := rfl
theorem exec_pdmClearAssert (s : State) : exec .pdmClearAssert s = .next (pdmClearAssert s) := rfl
theorem exec_pdmClearRelease (s : State) : exec .pdmClearRelease s = .next (pdmClearRelease s) := rfl

/-! Masks (R379). -/

section
variable {s : State} {p : Nat}

/-- The first period a released mask covers: on a master port by the boundary, on a slave port as the row says (R379). -/
def firstPeriod (s : State) (p idx m : Nat) : Int × Nat :=
  if tdmDrives s (tdmOf s p) then maskFirst (sampleCycles s) (tdmOf s p).pcfg (posNow s) else (samplePos s (idx : Int), m)

theorem tdmMaskRelease_eq (idx m : Nat) :
    tdmMaskRelease s p idx m = maskReleaseAt s p (firstPeriod s p idx m).1 (firstPeriod s p idx m).2 := by
  cases hd : tdmDrives s (tdmOf s p) <;> simp [tdmMaskRelease, firstPeriod, hd]

theorem maskReleaseAt_idle (h : ∀ v, (tdmOf s p).shadow ≠ some (v, none)) (i : Int) (m : Nat) : maskReleaseAt s p i m = s := by
  unfold maskReleaseAt
  extract_lets q
  split
  next v hv => exact absurd hv (h v)
  next => rfl

theorem maskReleaseAt_waiting {v : Nat} (h : (tdmOf s p).shadow = some (v, none)) (i : Int) (m : Nat) : maskReleaseAt s p i m =
    setR (setTdm s p { tdmOf s p with shadow := some (v, some (i, m)) }) (Reg.TDM_MASKIDX + 0x20 * p)
      (unsigned 32 (i - 16 * (s.tl.z + s.tl.adj))) := by
  unfold maskReleaseAt
  simp only [h]

/-- A mask whose first period is known covers every period from there on (R379). -/
theorem maskAt_released (q : TdmPort) (v : Nat) (f : Int × Nat) (i : Int) (k : Nat) :
    maskAt { q with shadow := some (v, some f) } i k = if f.1 < i ∨ (f.1 = i ∧ f.2 ≤ k) then v else q.mask := rfl

/-! ZEROX gates (R382). -/

/-- The gates of one side of a port. -/
def gatesOf (q : TdmPort) (out : Bool) : List Gate := if out then q.gout else q.gin

theorem tdmZeroxTimeout_absent {out : Bool} {j : Nat} (h : (gatesOf (tdmOf s p) out)[j]? = none) : tdmZeroxTimeout s p out j = s := by
  unfold tdmZeroxTimeout
  simp only [show (if out then (tdmOf s p).gout else (tdmOf s p).gin)[j]? = none from h]

section
variable {out : Bool} {j : Nat} {x : Gate} (h : (gatesOf (tdmOf s p) out)[j]? = some x)
include h

theorem tdmZeroxTimeout_early
    (hdue : ¬ ((x.ph = .opening ∨ x.ph = .closing) ∧ x.counted = false ∧ gateLimit s (tdmOf s p) < x.n + 16 * tdmMul (tdmOf s p).pcfg)) :
    tdmZeroxTimeout s p out j = s := by
  unfold tdmZeroxTimeout
  simp only [show (if out then (tdmOf s p).gout else (tdmOf s p).gin)[j]? = some x from h]
  exact if_neg fun ⟨h1, h2, h3⟩ => hdue ⟨h1, by simpa using h2, h3⟩

theorem tdmZeroxTimeout_due (hph : x.ph = .opening ∨ x.ph = .closing) (hnew : x.counted = false)
    (hlate : gateLimit s (tdmOf s p) < x.n + 16 * tdmMul (tdmOf s p).pcfg) :
    tdmZeroxTimeout s p out j = raise (addCtr (setTdm s p (if out then { tdmOf s p with gout := (tdmOf s p).gout.set j { x with counted := true } }
      else { tdmOf s p with gin := (tdmOf s p).gin.set j { x with counted := true } })) Reg.TDM_ZXFORCE 1) 13 2 := by
  unfold tdmZeroxTimeout
  simp only [show (if out then (tdmOf s p).gout else (tdmOf s p).gin)[j]? = some x from h]
  rw [if_pos ⟨hph, by simp [hnew], hlate⟩]
  cases out <;> rfl

end

end

theorem gateStep_opening (lim : Nat) (x : Gate) (y : Int) (h : x.ph = .opening) : gateStep lim x y =
    if x.n ≥ lim then (rhu 4 y, { x with prev := some y, ph := .ramping, n := 1 }, !x.counted)
    else if crosses x y then (y, { x with prev := some y, ph := .opened }, false) else (0, { x with prev := some y, n := x.n + 1 }, false) := by
  unfold gateStep
  simp only [h, Nat.cast_one, mul_one]

theorem gateStep_closing (lim : Nat) (x : Gate) (y : Int) (h : x.ph = .closing) : gateStep lim x y =
    if x.n ≥ lim then (rhu 4 (y * 15), { x with prev := some y, ph := .fading, n := 1 }, !x.counted)
    else if crosses x y then (0, { x with prev := some y, ph := .closed }, false) else (y, { x with prev := some y, n := x.n + 1 }, false) := by
  unfold gateStep
  simp only [h]
  rfl

/-! Load strobes (R391 to R394). -/

theorem pdmOf_congr {s t : State} (h : t.lio = s.lio) (g : Nat) : pdmOf t g = pdmOf s g := by unfold pdmOf; rw [h]

section
variable {s : State} {g : Nat} {phase : Int}

/-- A miss of group g (R391). -/
theorem pdmLoadErr_miss (hg : g < 4) : pdmOf (pdmLoadErr s g 0) g = { pdmOf s g with errRun := true } ∧
    getR (pdmLoadErr s g 0) Reg.PDM_LOADMISS = satAdd 32 (getR s Reg.PDM_LOADMISS) 1 ∧
    (∀ a, a ≠ Reg.PDM_LOADMISS → a ≠ Reg.PDM_INTSTAT → getR (pdmLoadErr s g 0) a = getR s a) := by
  unfold pdmLoadErr
  extract_lets q u v w
  have hu : u.lio = s.lio := (raise_lio ..).trans rfl
  have hv : v.lio = s.lio := (pushEvent_lio ..).trans hu
  have hregs : ∀ a, getR v a = getR u a := fun a => getR_congr _ _ a (pushEvent_regs ..)
  refine ⟨?_, ?_, fun a h1 h2 => ?_⟩
  · rw [pdmOf_setPdm _ _ _ hg, show w = q from pdmOf_congr hv g]
  · rw [getR_congr _ v _ (setPdm_regs ..), hregs]
    change getR (raise _ _ _) _ = _
    rw [getR_raise_ne _ _ _ _ _ rfl (by decide), if_pos rfl, getR_addCtr_same]
  · rw [getR_congr _ v _ (setPdm_regs ..), hregs]
    change getR (raise _ _ _) _ = _
    rw [getR_raise_ne _ _ _ _ _ rfl h2, if_pos rfl, getR_addCtr_ne _ _ h1]

/-- Group g has taken its oldest frame, or has missed one (R391). -/
def pdmTaken (s : State) (g : Nat) : State :=
  match (pdmOf s g).queue with
  | [] => pdmLoadErr s g 0
  | _ => setPdm s g { pdmOf s g with queue := (pdmOf s g).queue.drop 1, errRun := false }

theorem pdmTaken_facts (hg : g < 4) : pdmOf (pdmTaken s g) g =
      { pdmOf s g with queue := (pdmOf s g).queue.drop 1, errRun := decide ((pdmOf s g).queue = []) } ∧
    getR (pdmTaken s g) Reg.PDM_LOADMISS =
      (if (pdmOf s g).queue = [] then satAdd 32 (getR s Reg.PDM_LOADMISS) 1 else getR s Reg.PDM_LOADMISS) ∧
    (∀ a, a ≠ Reg.PDM_LOADMISS → a ≠ Reg.PDM_INTSTAT → getR (pdmTaken s g) a = getR s a) := by
  unfold pdmTaken
  cases hq : (pdmOf s g).queue with
  | nil =>
    obtain ⟨hmiss, hcount, hkept⟩ := pdmLoadErr_miss (s := s) hg
    refine ⟨hmiss.trans ?_, by rw [hcount, if_pos rfl], hkept⟩
    generalize pdmOf s g = q at hq
    cases q
    simp only at hq
    simp [hq]
  | cons f rest =>
    refine ⟨?_, ?_, fun a _ _ => getR_congr _ _ a (setPdm_regs ..)⟩
    · rw [pdmOf_setPdm _ _ _ hg]
      simp
    · rw [if_neg (by simp)]
      exact getR_congr _ _ _ (setPdm_regs ..)

end

section
variable {s : State} {g : Nat} {phase : Int}

/-- Group g as its strobe takes it: the oldest frame gone, the settings of its register in force (R391). -/
def pdmTook (s : State) (g : Nat) : PdmGroup :=
  { pdmOf s g with
    queue := (pdmOf s g).queue.drop 1, errRun := decide ((pdmOf s g).queue = []), run := true, cfg := getR s (Reg.PDM_GCFG + 4 * g) }

/-- The frame a strobe plays: the oldest queued, or zeros (R391). -/
def pdmPlayed (s : State) (g : Nat) : PdmFrame := (pdmOf s g).queue.head?.getD { ch := List.replicate 8 zero16, mute := false }

/-- The eight outputs of a frame through their modulators (R392). -/
def pdmModulated (s : State) (g : Nat) : List (Nat × PdmMod × Nat) :=
  let new := getR s (Reg.PDM_GCFG + 4 * g)
  (List.range 8).map fun i => pdmPeriod (if bit new 30 then 128 else 64) (bits new 28 27) ((pdmOf s g).mods.getD i PdmMod.zero)
    ((pdmPlayed s g).ch.getD i zero16)

theorem pdmStrobe_idle (h : pdmOn s g = false) : pdmStrobe s g phase = s := if_pos (by simp [h])

/-- The strobe of a group that plays. -/
theorem pdmStrobe_eq (hg : g < 4) (hon : pdmOn s g = true) : pdmStrobe s g phase =
    let new := getR s (Reg.PDM_GCFG + 4 * g)
    let u := pdmTaken (setR s (Reg.PDM_STRBPH + 4 * g) (unsigned 32 phase)) g
    let zeros := List.replicate 8 PdmMod.zero
    let ovl := ((pdmModulated s g).map (·.2.2)).sum
    let played := setPdm u g { pdmTook s g with
      span := bits new 28 27, spanIdle := false, mods := (pdmModulated s g).map (·.2.1), out := some ((pdmModulated s g).map (·.1)) }
    if !bit new 31 then setPdm u g PdmGroup.idle
    else if (pdmOf s g).spanPend then setPdm u g { pdmTook s g with mods := zeros, spanPend := false, spanIdle := true, out := none }
    else if (pdmPlayed s g).mute then setPdm u g { pdmTook s g with span := bits new 28 27, spanIdle := false, mods := zeros, out := none }
    else if ovl = 0 then played else raise (addCtr played Reg.PDM_OVL ovl) 15 1 := by
  have hw : pdmOf (setR s (Reg.PDM_STRBPH + 4 * g) (unsigned 32 phase)) g = pdmOf s g := rfl
  unfold pdmStrobe
  rw [if_neg (by simp [hon, not_le.2 hg])]
  extract_lets cfg s₁ q u f w q₂ zeros q₃ osr rs ovl played u' ovl' took played'
  have hu : u = pdmTaken s₁ g := by
    change (match (pdmOf s₁ g).queue with | [] => _ | _ => _) = pdmTaken s₁ g
    unfold pdmTaken
    rfl
  have hw₂ : w = { pdmOf s g with queue := (pdmOf s g).queue.drop 1, errRun := decide ((pdmOf s g).queue = []) } := by
    simp only [w, hu]
    rw [(pdmTaken_facts hg).1, hw]
  have hspan : q₂.spanPend = (pdmOf s g).spanPend := by simp only [q₂, hw₂]
  have hrs : rs = pdmModulated s g := by
    simp only [rs, q₃, q₂, hw₂, osr, f]
    rfl
  have hplayed : played = played' := by
    simp only [played, played', hrs, q₃, q₂, hw₂, hu]
    rfl
  have hovl : ovl = ovl' := by simp only [ovl, ovl', hrs]
  rw [hspan, hplayed, hovl, show u = u' from hu]
  simp only [q₃, q₂, hw₂]
  rfl

theorem pdmOn_iff : pdmOn s g = true ↔ bit (pdmOf s g).cfg 31 = true ∨ bit (getR s (Reg.PDM_GCFG + 4 * g)) 31 = true := by
  unfold pdmOn
  rw [Bool.or_eq_true, or_comm]

/-- A strobe counts a miss and shows its phase, whatever it plays (R391). -/
theorem pdmStrobe_regs (hg : g < 4) (hon : pdmOn s g = true) : getR (pdmStrobe s g phase) Reg.PDM_LOADMISS =
      (if (pdmOf s g).queue = [] then satAdd 32 (getR s Reg.PDM_LOADMISS) 1 else getR s Reg.PDM_LOADMISS) ∧
    getR (pdmStrobe s g phase) (Reg.PDM_STRBPH + 4 * g) = unsigned 32 phase := by
  obtain ⟨u, hu⟩ : ∃ u, u = pdmTaken (setR s (Reg.PDM_STRBPH + 4 * g) (unsigned 32 phase)) g := ⟨_, rfl⟩
  have hfar : ∀ a, (a = Reg.PDM_LOADMISS ∨ a = Reg.PDM_STRBPH + 4 * g) → a ≠ Reg.PDM_OVL ∧ a ≠ Reg.PDM_INTSTAT := by
    rintro a (rfl | rfl)
    · decide
    · simp only [Reg.PDM_STRBPH, Reg.PDM_OVL, Reg.PDM_INTSTAT]; omega
  have hkept : ∀ a, (a = Reg.PDM_LOADMISS ∨ a = Reg.PDM_STRBPH + 4 * g) → getR (pdmStrobe s g phase) a = getR u a := fun a ha => by
    have hset : ∀ x, getR (setPdm u g x) a = getR u a := fun x => getR_congr _ _ a (setPdm_regs ..)
    rw [pdmStrobe_eq hg hon]
    dsimp only
    rw [← hu]
    split
    · exact hset _
    · split
      · exact hset _
      · split
        · exact hset _
        · split
          · exact hset _
          · rw [getR_raise_ne _ _ _ _ _ rfl (hfar a ha).2, getR_addCtr_ne _ _ (hfar a ha).1, hset]
  have hne : Reg.PDM_STRBPH + 4 * g ≠ Reg.PDM_LOADMISS ∧ Reg.PDM_STRBPH + 4 * g ≠ Reg.PDM_INTSTAT := by
    simp only [Reg.PDM_STRBPH, Reg.PDM_LOADMISS, Reg.PDM_INTSTAT]; omega
  obtain ⟨-, hmiss, hrest⟩ := pdmTaken_facts (s := setR s (Reg.PDM_STRBPH + 4 * g) (unsigned 32 phase)) hg
  rw [hkept _ (.inl rfl), hkept _ (.inr rfl), hu, hmiss, hrest _ hne.1 hne.2, getR_setR_ne _ _ _ _ hne.1.symm, getR_setR_same]
  exact ⟨rfl, Nat.mod_eq_of_lt (unsigned_lt ..)⟩

end

/-! PDM_CLEAR_N (R395) and the pins (R364, R463). -/

theorem pdmClearAssert_again {s : State} (h : s.lio.clear = true) : pdmClearAssert s = s := if_pos h

theorem pdmClearAssert_facts {s : State} (h : s.lio.clear = false) : (pdmClearAssert s).lio = { s.lio with clear := true } ∧
    getR (pdmClearAssert s) Reg.PDM_CLEARS = satAdd 32 (getR s Reg.PDM_CLEARS) 1 := by
  unfold pdmClearAssert
  rw [if_neg (by simp [h])]
  dsimp only
  rw [logEv_lio, raise_lio, getR_logEv, getR_raise_ne _ _ _ _ _ rfl (by decide), getR_addCtr_same]
  exact ⟨rfl, rfl⟩

theorem pdmOf_clearRelease (s : State) {g : Nat} (hg : g < 4) :
    pdmOf (pdmClearRelease s) g = { pdmOf s g with run := false, mods := List.replicate 8 PdmMod.zero, out := none } := by
  unfold pdmOf pdmClearRelease
  simp [hg]

section
variable {s : State} {g : Nat}

theorem pdmPins_released (h : powered s = false ∨ s.pair.driven = false) : pdmPins s g = .tri := by
  have hphase : outPhase s = .tri := if_pos (by rcases h with h | h <;> simp [h])
  simp [pdmPins, hphase]

variable (hon : powered s = true) (hdriven : s.pair.driven = true)
include hon hdriven

theorem pdmPins_fault (h : s.clk.st = .fault) : pdmPins s g = .low := by
  have hphase : outPhase s = .fault := (if_neg (by simp [hon, hdriven])).trans (if_pos h)
  simp [pdmPins, hphase]

theorem pdmPins_clear (h : s.clk.st ≠ .fault) (hclear : s.lio.clear = true) :
    pdmPins s g = if bits (pdmCfg s g) 26 25 = 1 then .low else if bits (pdmCfg s g) 26 25 = 2 then .high else .idle := by
  have hphase : outPhase s = .precut ∨ outPhase s = .run := by
    unfold outPhase
    rw [if_neg (by simp [hon, hdriven]), if_neg h]
    split
    · exact .inl rfl
    · exact .inr rfl
  rcases hphase with hp | hp <;> simp [pdmPins, hp, hclear]

end

/-- Settles O55: masks, gates and strobes by what each writes of its port or group. -/
theorem localAudio : Obligations.LocalAudio := by
  unfold Obligations.LocalAudio
  refine ⟨fun s p idx m mask hp => ?masks, fun s p j out x hp => ?timeout, fun lim x y => ?gate, fun s c d hd => ?settled,
    fun s g phase hg => ?strobe, fun s => ?clear, fun s g => ?pins⟩
  case masks =>
    intro q first
    have hexec : exec (.tdmMaskRelease p idx m) s = .next (maskReleaseAt s p first.1 first.2) :=
      (exec_tdmMaskRelease p idx m s).trans (congrArg Host.Outcome.next (tdmMaskRelease_eq idx m))
    refine ⟨fun h => ⟨_, hexec, ?_⟩, fun h => hexec.trans (congrArg Host.Outcome.next (maskReleaseAt_idle h _ _))⟩
    rw [maskReleaseAt_waiting h]
    have hport : tdmOf (setR (setTdm s p { q with shadow := some (mask, some first) }) (Reg.TDM_MASKIDX + 0x20 * p)
        (unsigned 32 (first.1 - 16 * (s.tl.z + s.tl.adj)))) p = { q with shadow := some (mask, some first) } := tdmOf_setTdm s p _ hp
    refine ⟨hport, ?_, fun i k => ?_, rfl, rfl⟩
    · rw [getR_setR_same]
      exact Nat.mod_eq_of_lt (unsigned_lt ..)
    · exact (congrArg (maskAt · i k) hport).trans (maskAt_released q mask first i k)
  case timeout =>
    intro q gates due
    refine ⟨fun hj ⟨hph, hnew, hlate⟩ => ⟨_, (exec_tdmZeroxTimeout p out j s).trans
      (congrArg Host.Outcome.next (tdmZeroxTimeout_due hj hph hnew hlate)), ?_, ?_⟩, fun h => ?_⟩
    · rw [show ∀ u n b, tdmOf (raise u n b) p = tdmOf u p from fun u n b => by unfold tdmOf; rw [raise_lio]]
      exact tdmOf_setTdm s p _ hp
    · rw [getR_raise_ne _ _ _ _ _ rfl (by decide), getR_addCtr_same]
      rfl
    · refine (exec_tdmZeroxTimeout p out j s).trans (congrArg Host.Outcome.next ?_)
      rcases h with h | ⟨h, hearly⟩
      · exact tdmZeroxTimeout_absent h
      · exact tdmZeroxTimeout_early h hearly
  case gate =>
    intro h
    refine ⟨fun hph hn => ?_, fun hph hn => ?_, fun hn hc => ⟨fun hph => ?_, fun hph => ?_⟩, fun hn hc => ⟨fun hph => ?_, fun hph => ?_⟩⟩
    · rw [gateStep_opening _ _ _ hph, if_pos hn]
    · rw [gateStep_closing _ _ _ hph, if_pos hn]
    · rw [gateStep_opening _ _ _ hph, if_neg (not_le.2 hn), if_pos hc]
    · rw [gateStep_closing _ _ _ hph, if_neg (not_le.2 hn), if_pos hc]
    · rw [gateStep_opening _ _ _ hph, if_neg (not_le.2 hn), if_neg (by simp [hc])]
    · rw [gateStep_closing _ _ _ hph, if_neg (not_le.2 hn), if_neg (by simp [hc])]
  case settled =>
    have hexec : exec (.decSettled c) s = .next (if d.told ∨ d.left = 0 ∨ d.left > 16 then s
        else raise { s with lio := { s.lio with decs := s.lio.decs.setIfInBounds c { d with told := true } } } 14 0) := by
      rw [exec_decSettled]
      unfold decSettled
      rw [hd]
    refine ⟨fun htold h0 h16 => hexec.trans (congrArg Host.Outcome.next (if_neg ?_)), fun h => hexec.trans (congrArg Host.Outcome.next (if_pos h))⟩
    rintro (h | h | h)
    · rw [htold] at h; cases h
    · omega
    · omega
  case strobe =>
    intro w new playing pinStrobe zeros f span taken rs
    refine ⟨fun h => ?_, fun hpin hplay => ⟨_, (exec_pdmLoadStrobe g phase s).trans (congrArg Host.Outcome.next (if_pos hpin)), ?_⟩⟩
    · rw [exec_pdmLoadStrobe]
      refine congrArg Host.Outcome.next ?_
      rcases h with h | ⟨h1, h2⟩
      · exact if_neg (by rw [show bit (pdmCfg s g) 29 = false from h]; decide)
      · have hoff : pdmOn s g = false := Bool.eq_false_iff.2 fun hon => by
          rcases pdmOn_iff.1 hon with hon | hon
          · rw [show bit (pdmOf s g).cfg 31 = false from h1] at hon; cases hon
          · rw [show bit (getR s (Reg.PDM_GCFG + 4 * g)) 31 = false from h2] at hon; cases hon
        rw [pdmStrobe_idle hoff, ite_self]
    · have hon : pdmOn s g = true := pdmOn_iff.2 hplay
      obtain ⟨hmiss, hphase⟩ := pdmStrobe_regs (phase := phase) hg hon
      refine ⟨hmiss, hphase, fun hoff => ?_, fun hen => ⟨fun hspan => ?_, fun hspan hmute => ?_, fun hspan hmute => ?_⟩⟩
      all_goals
        rw [pdmStrobe_eq hg hon]
        dsimp only
      · rw [if_pos (by rw [show bit (getR s (Reg.PDM_GCFG + 4 * g)) 31 = false from hoff]; rfl), pdmOf_setPdm _ _ _ hg]
      · rw [if_neg (by rw [show bit (getR s (Reg.PDM_GCFG + 4 * g)) 31 = true from hen]; decide), if_pos hspan, pdmOf_setPdm _ _ _ hg]
        rfl
      · rw [if_neg (by rw [show bit (getR s (Reg.PDM_GCFG + 4 * g)) 31 = true from hen]; decide),
          if_neg (by rw [show (pdmOf s g).spanPend = false from hspan]; decide), if_pos (show (pdmPlayed s g).mute = true from hmute), pdmOf_setPdm _ _ _ hg]
        rfl
      · rw [if_neg (by rw [show bit (getR s (Reg.PDM_GCFG + 4 * g)) 31 = true from hen]; decide),
          if_neg (by rw [show (pdmOf s g).spanPend = false from hspan]; decide), if_neg (by rw [show (pdmPlayed s g).mute = false from hmute]; decide)]
        split
        · rw [pdmOf_setPdm _ _ _ hg]
          rfl
        · rw [pdmOf_congr (raise_lio ..)]
          exact pdmOf_setPdm _ _ _ hg
  case clear =>
    refine ⟨fun h => ?_, fun h => ⟨_, exec_pdmClearAssert s, pdmClearAssert_facts h⟩,
      _, exec_pdmClearRelease s, rfl, rfl, rfl, rfl, fun g hg => pdmOf_clearRelease s hg⟩
    rw [exec_pdmClearAssert, pdmClearAssert_again h]
  case pins => exact ⟨pdmPins_released, pdmPins_fault, pdmPins_clear⟩

end Sys2Proof.Machine
end

section
/-! PROOF. O57: messages of the pair link and the resynchronisation (R451 to R471). -/

namespace Sys2Proof.Machine

open Sys2Proof

theorem exec_digestReceive (b : Bytes) (s : State) : exec (.digestReceive b) s = .next (whilePowered s fun s => onLink s 2 b digestReceive) := rfl
theorem exec_switchReceive (b : Bytes) (s : State) : exec (.switchReceive b) s = .next (whilePowered s fun s => onLink s 5 b switchReceive) := rfl
theorem exec_xferReceive (b : Bytes) (s : State) : exec (.xferReceive b) s = .next (whilePowered s fun s => onLink s 3 b xferReceive) := rfl
theorem exec_alignReceive (phase : Int) (b : Bytes) (s : State) :
    exec (.alignReceive phase b) s = .next (whilePowered s fun s => onLink s 4 b fun s x => alignReceive s phase x) := rfl
theorem exec_setreadyReceive (b : Bytes) (s : State) :
    exec (.setreadyReceive b) s = .next (whilePowered s fun s => onLink s 6 b setReadyReceive) := rfl
theorem exec_setschedReceive (b : Bytes) (s : State) :
    exec (.setschedReceive b) s = .next (whilePowered s fun s => onLink s 7 b setSchedReceive) := rfl
theorem exec_pairLinkSync (up : Bool) (s : State) : exec (.pairLinkSync up) s = .next (linkSync s up) := rfl
theorem exec_evidenceWindowExpire (s : State) : exec .evidenceWindowExpire s = .next (whilePowered s evidence) := rfl
theorem exec_resyncTimeout (s : State) : exec .resyncTimeout s = .next (whilePowered s fun s => match s.pair.phase with
    | some .transfer | some .align | some .settle | some .match_ => rsFail s
    | _ => s) := rfl

/-! The messages as they come (R450 to R452). -/

/-- The six messages of the pair link other than clappers hand their body, by its type, to their meaning. -/
theorem pairMessage_cases {s : State} {b : Bytes} {phase : Int} {i : Instr}
    (h : i ∈ [Instr.digestReceive b, .switchReceive b, .xferReceive b, .alignReceive phase b, .setreadyReceive b, .setschedReceive b]) :
    ∃ type f, exec i s = .next (whilePowered s fun s => onLink s type b f) := by
  simp only [List.mem_cons, List.not_mem_nil, or_false] at h
  rcases h with rfl | rfl | rfl | rfl | rfl | rfl
  · exact ⟨_, _, exec_digestReceive b s⟩
  · exact ⟨_, _, exec_switchReceive b s⟩
  · exact ⟨_, _, exec_xferReceive b s⟩
  · exact ⟨_, _, exec_alignReceive phase b s⟩
  · exact ⟨_, _, exec_setreadyReceive b s⟩
  · exact ⟨_, _, exec_setschedReceive b s⟩

section
variable {s : State} {b : Bytes} {type : Nat}

theorem onLink_closed (h : paired s = false ∨ s.pair.link = false) (f : State → Bytes → State) : onLink s type b f = s := by
  have hbody : linkBody s type b = (none, s) := if_pos (by rcases h with h | h <;> simp [h])
  unfold onLink
  rw [hbody]

theorem onLink_damaged (hp : paired s = true) (hl : s.pair.link = true)
    (h : b.length ≠ beAt b 2 2 + 8 ∨ bodyLen (beAt b 0 1) (beAt b 2 2) = false ∨ crc32c (b.take (4 + beAt b 2 2)) ≠ beAt b (4 + beAt b 2 2) 4)
    (f : State → Bytes → State) : onLink s type b f = addCtr s Reg.PAIR_CRCERR 1 := by
  have hbody : linkBody s type b = (none, addCtr s Reg.PAIR_CRCERR 1) := by
    unfold linkBody
    dsimp only
    rw [if_neg (by simp [hp, hl]), if_pos (h.imp_right (Or.imp_left (by simp)))]
  unfold onLink
  rw [hbody]

end

/-- The lengths of R452. -/
theorem bodyLen_table (n : Nat) : (bodyLen 1 n = true ↔ n = 56) ∧ (bodyLen 2 n = true ↔ n = 16) ∧ (bodyLen 3 n = true ↔ 12 ≤ n ∧ n ≤ 1036) ∧
    (bodyLen 4 n = true ↔ n = 24) ∧ (bodyLen 5 n = true ↔ n = 8) ∧ (bodyLen 6 n = true ↔ n = 8) ∧ (bodyLen 7 n = true ↔ n = 16) := by
  simp [bodyLen]

/-! Digests (R462). -/

section
variable {s : State} {x : Bytes}

theorem digestReceive_held (h1 : s.pair.role ≠ .solo) (h2 : s.pair.role ≠ .init) (hown : s.pair.own = []) :
    digestReceive s x = { s with pair := { s.pair with peer := s.pair.peer ++ [(beAt x 0 8, beAt x 8 4)] } } := by
  unfold digestReceive
  rw [if_neg (not_or.2 ⟨h1, h2⟩)]
  simp [compareHeld, setPair, hown]

theorem digestReceive_compared {d : Nat} (h1 : s.pair.role ≠ .solo) (h2 : s.pair.role ≠ .init) (hown : s.pair.own = [(beAt x 0 8, d)])
    (hpeer : s.pair.peer = []) :
    digestReceive s x = compareDigest { s with pair := { s.pair with own := [], peer := [] } } (beAt x 0 8) d (beAt x 8 4) := by
  unfold digestReceive
  rw [if_neg (not_or.2 ⟨h1, h2⟩)]
  simp [compareHeld, setPair, hown, hpeer]

theorem takeoverPending_iff : takeoverPending s = true ↔ s.pair.pend = some (.active, 2) := by simp [takeoverPending]

theorem rolePend_blocked (h : s.pair.pend = some (.active, 2)) (r : Role) (cause : Nat) : rolePend s r cause = s :=
  if_pos (takeoverPending_iff.2 h)

theorem matchDone_pair : (matchDone s).pair.divRun = s.pair.divRun ∧ (s.pair.pend ≠ none → (matchDone s).pair = s.pair) ∧
    (matchDone s).regs = s.regs := by
  unfold matchDone
  split
  next h =>
    have hnone : s.pair.pend = none := Option.isNone_iff_eq_none.1 h.2.2.1
    rw [rolePend_free (by simp [takeoverPending, hnone])]
    exact ⟨rfl, fun hn => absurd hnone hn, rfl⟩
  next => exact ⟨rfl, fun _ => rfl, rfl⟩

theorem divLimit_congr {t : State} (ht : t.take = s.take) (htl : t.tl = s.tl)
    (hd : getR t Reg.PAIR_DIVMAX = getR s Reg.PAIR_DIVMAX) (hk : getR t Reg.PAIR_KSETTLE = getR s Reg.PAIR_KSETTLE) : divLimit t = divLimit s := by
  have hF : getF t F.PAIR_DIVMAX_FRAMES = getF s F.PAIR_DIVMAX_FRAMES := congrArg (fun v => bits v 23 0) hd
  have hK : getF t F.PAIR_KSETTLE_FRAMES = getF s F.PAIR_KSETTLE_FRAMES := congrArg (fun v => bits v 23 0) hk
  unfold divLimit settleTime
  rw [ht, htl, hF, hK]

variable {f own peer : Nat}

theorem compareDigest_match (h : own = peer) : (compareDigest s f own peer).pair.divRun = 0 ∧
    getR (compareDigest s f own peer) Reg.PAIR_MATCHRUN = satAdd 32 (getR s Reg.PAIR_MATCHRUN) 1 ∧
    (s.pair.pend ≠ none → (compareDigest s f own peer).pair.pend = s.pair.pend) := by
  unfold compareDigest
  rw [if_pos h]
  generalize hu : setPair _ _ = u
  have hpair : u.pair = { s.pair with divRun := 0 } := by rw [← hu]; rfl
  obtain ⟨hrun, hkept, hregs⟩ := matchDone_pair (s := u)
  refine ⟨hrun.trans (by rw [hpair]), ?_, fun hn => ?_⟩
  · rw [getR_congr _ u _ hregs, ← hu]
    change getR (addCtr _ _ _) _ = _
    rw [getR_addCtr_same, getR_setR_ne _ _ _ _ (by decide), getR_setR_ne _ _ _ _ (by decide)]
  · rw [hkept (by rw [hpair]; exact hn), hpair]

/-- What a frame whose digests differ leaves, before the role is judged (R462). -/
theorem compareDigest_differ (h : own ≠ peer) : ∃ u, compareDigest s f own peer =
      (if u.pair.role = .standby ∧ u.pair.divRun > divLimit u then rolePend u .resync 6 else u) ∧
    u.pair = { s.pair with divRun := s.pair.divRun + 1 } ∧ getR u Reg.PAIR_MATCHRUN = 0 ∧ divLimit u = divLimit s := by
  unfold compareDigest
  rw [if_neg h]
  extract_lets first s₂ _ s₃ u _
  have hregs₃ : ∀ a, getR s₃ a = getR s₂ a := fun a => getR_congr _ _ a (pushEvent_regs ..)
  have hu : u.pair = s₃.pair ∧ u.take = s₃.take ∧ u.tl = s₃.tl ∧ ∀ a, a ≠ Reg.PAIR_INTSTAT → getR u a = getR s₃ a := by
    by_cases hfirst : first = true
    · rw [show u = raise s₃ 18 3 from if_pos hfirst]
      exact ⟨raise_pair .., raise_take .., raise_tl .., fun a ha => getR_raise_ne _ _ _ _ _ rfl ha⟩
    · rw [show u = s₃ from if_neg hfirst]
      exact ⟨rfl, rfl, rfl, fun a _ => rfl⟩
  obtain ⟨hpair, htake, htl, hreg⟩ := hu
  have hpair₃ : s₃.pair = { s.pair with divRun := s.pair.divRun + 1 } := pushEvent_pair ..
  have hfar : ∀ a, a ≠ Reg.PAIR_DIVFRM → a ≠ Reg.PAIR_MATCHRUN → a ≠ Reg.PAIR_OWNDIG → a ≠ Reg.PAIR_PEERDIG → getR s₂ a = getR s a :=
    fun a h1 h2 h3 h4 => by
      change getR (addCtr _ _ _) a = _
      rw [getR_addCtr_ne _ _ h1, getR_setR_ne _ _ _ _ h2, getR_setR_ne _ _ _ _ h4, getR_setR_ne _ _ _ _ h3]
  refine ⟨u, rfl, hpair.trans hpair₃, ?_, divLimit_congr (htake.trans (pushEvent_take ..)) (htl.trans (pushEvent_tl ..)) ?_ ?_⟩
  · rw [hreg _ (by decide), hregs₃]
    change getR (addCtr _ _ _) _ = _
    rw [getR_addCtr_ne _ _ (by decide), getR_setR_same]
    rfl
  · rw [hreg _ (by decide), hregs₃, hfar _ (by decide) (by decide) (by decide) (by decide)]
  · rw [hreg _ (by decide), hregs₃, hfar _ (by decide) (by decide) (by decide) (by decide)]

end

/-! SWITCH, XFER and ALIGN (R460, R466, R467). -/

section
variable {s : State} {x : Bytes}

theorem switchReceive_taken (hrole : (s.pair.role = .active ∧ peerRole s = 2) ∨ (s.pair.role = .standby ∧ peerRole s = 1))
    (hpath : s.pair.pclap = true) (hlead : s.tl.frame + getF s F.PAIR_LEAD_FRAMES < beAt x 0 8) : switchReceive s x = { s with
      pair := { s.pair with switch := some (beAt x 0 8, s.ccp.arrivals) }, ccp := { s.ccp with arrivals := s.ccp.arrivals + 1 } } := by
  have hcheck : switchCheck s (beAt x 0 8) = none := by
    unfold switchCheck
    dsimp only
    rw [if_neg (by rcases hrole with ⟨h1, h2⟩ | ⟨h1, h2⟩ <;> simp [h1, h2]), if_neg (by simp [hpath]), if_neg (not_le.2 hlead)]
  unfold switchReceive
  rw [hcheck]

theorem switchReceive_refused (h1 : s.pair.role ≠ .active) (h2 : s.pair.role ≠ .standby) : switchReceive s x = s := by
  have hcheck : switchCheck s (beAt x 0 8) = some .pairRole := if_pos (by simp [h1, h2])
  unfold switchReceive
  rw [hcheck]

theorem xferReceive_ignored (h1 : s.pair.phase ≠ some .transfer) (h2 : s.pair.role ≠ .standby) : xferReceive s x = s := by
  unfold xferReceive
  extract_lets kind idx ofs total d
  by_cases hlong : ofs + d.length > total
  · exact if_pos hlong
  · rw [if_neg hlong, if_neg fun h => h.2.elim h2 h1, if_pos h1]

theorem length_putPiece_nil (d : Bytes) : (putPiece [] 0 d).length = d.length := by
  simp [putPiece, patchB, zeroBytes]

section
variable (hphase : s.pair.phase = some .transfer) (hfits : beAt x 4 4 + (x.drop 12).length ≤ beAt x 8 4)
include hphase hfits

theorem xferReceive_objects (hkind : beAt x 0 1 = 2) :
    xferReceive s x = { s with pair := { s.pair with xObj := putPiece s.pair.xObj (beAt x 4 4) (x.drop 12) } } := by
  unfold xferReceive
  dsimp only
  rw [if_neg (not_lt.2 hfits), if_neg (by rw [hkind]; exact fun h => absurd h.1 (by decide)), if_neg (not_not.2 hphase), hkind]
  rfl

theorem xferReceive_take (hkind : beAt x 0 1 = 0) (hofs : beAt x 4 4 = 0) (hmore : (x.drop 12).length < beAt x 8 4) :
    xferReceive s x = { s with pair := { s.pair with xTake := putPiece [] 0 (x.drop 12) } } := by
  unfold xferReceive
  dsimp only
  rw [if_neg (not_lt.2 hfits), if_neg (by rw [hkind]; exact fun h => absurd h.1 (by decide)), if_neg (not_not.2 hphase), hkind, hofs]
  rw [if_pos rfl]
  exact if_pos (.inl (by rw [length_putPiece_nil]; exact hmore))

end

theorem alignReceive_ignored (h : s.pair.phase ≠ some .align) (phase : Int) : alignReceive s phase x = s := if_pos h

theorem alignReceive_taken (h : s.pair.phase = some .align) {phase : Int} (hnear : phase.natAbs * 4 ≤ frameCycles s.tl.rate) :
    alignReceive s phase x = setPair (setR s Reg.PAIR_PHASE (unsigned 32 phase)) { s.pair with
      fa := some (beAt x 0 8, beAt x 16 8)
      realign := if (s.tl.frame : Int) - (beAt x 8 8 : Nat) = 0 then none else some ((s.tl.frame : Int) - (beAt x 8 8 : Nat)) } := by
  unfold alignReceive
  rw [if_neg (not_not.2 h)]
  dsimp only
  rw [if_neg (by simpa using hnear)]
  rfl

/-! Adaptive sets (R471). -/

/-- A set change in its place of the frame queue (R248). -/
theorem placeSetChange_queued {c slot fx n : Nat} (hfx : s.tl.frame < fx) (hq : s.ccp.frameQ.length < 256) :
    placeSetChange s c slot fx n = { s with ccp := { s.ccp with
      arrivals := s.ccp.arrivals + 1
      frameQ := s.ccp.frameQ ++ [(s.tl.frame + 1, s.ccp.arrivals, .op (.setChange c slot fx n) none)] } } := by
  unfold placeSetChange
  rw [if_neg (not_le.2 hfx), if_neg (not_le.2 hq)]
  rfl

theorem setSchedReceive_refused (h : s.pair.role ≠ .standby) : setSchedReceive s x = s := if_pos h

/-- The earliest frame of the change, at the ACTIVE unit (R471, assumption 45). -/
def earliestChange (s : State) (x : Bytes) : Nat := s.tl.frame + getF s F.PAIR_LEAD_FRAMES + primeLen ((chanOf s (beAt x 0 2)).run.len)

theorem setReadyReceive_placed (hok : beAt x 3 1 = 1) (hmay : mayInstall s = true) (hbus : beAt x 0 2 < busCount s) :
    setReadyReceive s x = placeSetChange (pairSend s 7 (beBytes 2 (beAt x 0 2) ++ beBytes 1 (beAt x 2 1) ++ zeroBytes 1 ++
      beBytes 8 (earliestChange s x) ++ beBytes 2 0 ++ zeroBytes 2)) (beAt x 0 2) (beAt x 2 1) (earliestChange s x) 0 := by
  unfold setReadyReceive
  dsimp only
  rw [if_neg (by simp [hok, hmay, hbus])]
  rfl

/-! The link and the resynchronisation (R451, R459, R465, R468). -/

theorem linkLost_phase {ph : RsPhase} (h : s.pair.phase = some ph) : (linkLost s).pair = { s.pair with
    phase := some .waitLink, settleFrom := none, xTake := [], xSets := [], xObj := [], xCorr := [], fa := none } := by
  unfold linkLost
  rw [h]
  rfl

theorem rsFail_pair (s : State) : (rsFail s).pair = { s.pair with phase := some .failed } := by
  unfold rsFail
  extract_lets ph
  rw [raise_pair, logEv_pair]
  rfl

theorem linkSync_down (h : s.pair.link = true) : linkSync s false =
    if paired s then linkLost (addCtr { s with pair := { s.pair with link := false } } Reg.PAIR_LINKDOWN 1)
    else { s with pair := { s.pair with link := false } } := by
  have hp : paired (setPair s { s.pair with link := false }) = paired s := rfl
  unfold linkSync
  dsimp only
  rw [Bool.false_and, if_neg (by rw [h]; decide), hp]
  cases paired s
  · exact if_pos (by simp)
  · exact if_neg (by simp)

theorem linkSync_up_again (h : s.pair.link = true) (hnet : s.pwr.netref = true) : linkSync s true = s := by
  unfold linkSync
  dsimp only
  rw [hnet, Bool.and_self, if_pos h]

theorem linkSync_up (h : s.pair.link = false) (hnet : s.pwr.netref = true) : linkSync s true = { s with pair := { s.pair with link := true } } := by
  unfold linkSync
  dsimp only
  rw [hnet, Bool.and_self, if_neg (by rw [h]; decide)]
  exact if_pos (.inl rfl)

theorem evidence_none (h : s.pair.role ≠ .orphan ∨ s.pair.pclap = true ∨ s.pair.nclap = true) : evidence s = s := by
  refine if_neg ?_
  rintro ⟨h1, h2, h3, -⟩
  rcases h with h | h | h
  · exact h h1
  · simp [h] at h2
  · simp [h] at h3

theorem evidence_takes (hrole : s.pair.role = .orphan) (hpend : s.pair.pend ≠ some (.active, 2)) (hp : s.pair.pclap = false) (hn : s.pair.nclap = false)
    (hlive : ∃ l ∈ monitoredLegs s, (portOf s l.1).link = true ∧ ∃ r ∈ s.strm.rx, r.st = .running ∧ (if l.1 = 0 then r.upA else r.upB) = true) :
    evidence s = { s with pair := { s.pair with pend := some (.active, 3) } } := by
  have hany : ((monitoredLegs s).any fun l => (portOf s l.1).link && s.strm.rx.any fun r => r.st == .running && (if l.1 = 0 then r.upA else r.upB)) = true := by
    obtain ⟨l, hl, hlink, r, hr, hst, hup⟩ := hlive
    refine List.any_eq_true.2 ⟨l, hl, ?_⟩
    rw [hlink, Bool.true_and, List.any_eq_true]
    exact ⟨r, hr, by rw [hst, hup]; rfl⟩
  unfold evidence
  extract_lets live
  rw [if_pos ⟨hrole, by simp [hp], by simp [hn], hany⟩, rolePend_free (Bool.eq_false_iff.2 fun ht => hpend (takeoverPending_iff.1 ht))]
  rfl

end

/-- Settles O57: each message by what its body does, those that are not taken by the gate of the link. -/
theorem pairMessages : Obligations.PairMessages := by
  unfold Obligations.PairMessages
  intro s b x phase n f d own peer p with_ is msgs bad fx placed
  have run : ∀ (i : Instr) (k : State → State), exec i s = .next (whilePowered s k) → powered s = true → exec i s = .next (k s) :=
    fun i k hi hon => hi.trans (congrArg Host.Outcome.next (whilePowered_on hon _))
  have take : ∀ {i : Instr} {type : Nat} {g : State → Bytes → State}, exec i s = .next (whilePowered s fun s => onLink s type b g) →
      powered s = true → is type → exec i s = .next (g s x) := fun hi hon hx =>
    (run _ _ hi hon).trans (congrArg Host.Outcome.next (onLink_some _ hx))
  refine ⟨fun hoff i hi => ?dark, fun hon hp i hi => ?unpaired, fun hon hp hl i hi => ?linkDown, fun hon hp hl hbad i hi => ?damaged, bodyLen_table,
    fun hon hx h1 h2 hown => ?held, fun hon hx h1 h2 hown hpeer => ?compared, fun h => ?same, fun h => ?differ, fun hpend => ?blocked,
    fun ph h => linkLost_phase h, fun hon hx hrole hpath hlead => ?switch, fun hon hx h1 h2 => ?switchRefused, fun hon hx hphase hfits hkind => ?objects,
    fun hon hx hphase hfits hkind hofs hmore => ?piece, fun hon hx h1 h2 => ?xferIgnored, fun hon hx h => ?alignIgnored,
    fun hon hx h hnear => ?align, fun hon hx hok hmay hbus hfx hq => ?ready, fun hon hx hrole hfx hq => ?sched, fun hon hx hrole => ?schedRefused,
    fun h => ?noTimeout, fun hon h => ?timeout, fun hl => ⟨fun hp => ?drops, fun hp => ?dropsAlone, fun hnet => ?stays⟩, fun hl hnet => ?rises,
    fun h => ?noEvidence, fun hon hrole hpend hpc hnc hlive => ?evidence, fun hn hz => ?limit⟩
  case dark =>
    simp only [List.mem_cons] at hi
    rcases hi with rfl | rfl | hi
    · exact (exec_resyncTimeout s).trans (congrArg Host.Outcome.next (whilePowered_off hoff _))
    · exact (exec_evidenceWindowExpire s).trans (congrArg Host.Outcome.next (whilePowered_off hoff _))
    · obtain ⟨type, g, hexec⟩ := pairMessage_cases hi
      exact hexec.trans (congrArg Host.Outcome.next (whilePowered_off hoff _))
  case unpaired =>
    obtain ⟨type, g, hexec⟩ := pairMessage_cases hi
    exact (run _ _ hexec hon).trans (congrArg Host.Outcome.next (onLink_closed (.inl hp) g))
  case linkDown =>
    obtain ⟨type, g, hexec⟩ := pairMessage_cases hi
    exact (run _ _ hexec hon).trans (congrArg Host.Outcome.next (onLink_closed (.inr hl) g))
  case damaged =>
    obtain ⟨type, g, hexec⟩ := pairMessage_cases hi
    exact (run _ _ hexec hon).trans (congrArg Host.Outcome.next (onLink_damaged hp hl hbad g))
  case held => exact (take (exec_digestReceive b s) hon hx).trans (congrArg Host.Outcome.next (digestReceive_held h1 h2 hown))
  case compared => exact (take (exec_digestReceive b s) hon hx).trans (congrArg Host.Outcome.next (digestReceive_compared h1 h2 hown hpeer))
  case same =>
    obtain ⟨hrun, hcount, -⟩ := compareDigest_match (s := s) (f := f) h
    exact ⟨hrun, hcount⟩
  case differ =>
    obtain ⟨u, hu, hpair, hmatch, hlimit⟩ := compareDigest_differ (s := s) (f := f) h
    have hrest : ∀ r cause, (rolePend u r cause).pair.divRun = u.pair.divRun ∧ (rolePend u r cause).regs = u.regs := fun r cause => by
      unfold rolePend
      split <;> exact ⟨rfl, rfl⟩
    intro w
    have hw : w = _ := hu
    refine ⟨?_, ?_, fun hrole hlong hfree => ?_, fun hcalm => ?_⟩
    · rw [hw]
      split
      · rw [(hrest _ _).1, hpair]
      · rw [hpair]
    · rw [hw]
      split
      · rw [getR_congr _ u _ (hrest _ _).2, hmatch]
      · exact hmatch
    · have hpend : takeoverPending u = false := Bool.eq_false_iff.2 fun ht => hfree (by
        have := takeoverPending_iff.1 ht
        rwa [hpair] at this)
      rw [hw, if_pos ⟨by rw [hpair]; exact hrole, by rw [hpair, hlimit]; exact hlong⟩, rolePend_free hpend]
      rfl
    · rw [hw, if_neg (by
        rw [hpair, hlimit]
        rintro ⟨h1, h2⟩
        exact hcalm.elim (fun hh => hh h1) (not_le.2 h2)), hpair]
  case blocked =>
    by_cases h : own = peer
    · obtain ⟨-, -, hkept⟩ := compareDigest_match (s := s) (f := f) h
      exact hkept (by rw [show s.pair.pend = some (.active, 2) from hpend]; exact Option.some_ne_none _)
    · obtain ⟨u, hu, hpair, -, -⟩ := compareDigest_differ (s := s) (f := f) h
      rw [hu, rolePend_blocked (by rw [hpair]; exact hpend), ite_self, hpair]
  case switch => exact (take (exec_switchReceive b s) hon hx).trans (congrArg Host.Outcome.next (switchReceive_taken hrole hpath hlead))
  case switchRefused => exact (take (exec_switchReceive b s) hon hx).trans (congrArg Host.Outcome.next (switchReceive_refused h1 h2))
  case objects => exact (take (exec_xferReceive b s) hon hx).trans (congrArg Host.Outcome.next (xferReceive_objects hphase hfits hkind))
  case piece => exact (take (exec_xferReceive b s) hon hx).trans (congrArg Host.Outcome.next (xferReceive_take hphase hfits hkind hofs hmore))
  case xferIgnored => exact (take (exec_xferReceive b s) hon hx).trans (congrArg Host.Outcome.next (xferReceive_ignored h1 h2))
  case alignIgnored => exact (take (exec_alignReceive phase b s) hon hx).trans (congrArg Host.Outcome.next (alignReceive_ignored h phase))
  case align =>
    refine ⟨_, (take (exec_alignReceive phase b s) hon hx).trans (congrArg Host.Outcome.next (alignReceive_taken h hnear)), rfl, ?_⟩
    exact (getR_setR_same s Reg.PAIR_PHASE _).trans (Nat.mod_eq_of_lt (unsigned_lt ..))
  case ready =>
    refine (take (exec_setreadyReceive b s) hon hx).trans (congrArg Host.Outcome.next ?_)
    exact (setReadyReceive_placed hok hmay hbus).trans (placeSetChange_queued (s := pairSend s 7 _) hfx hq)
  case sched =>
    refine (take (exec_setschedReceive b s) hon hx).trans (congrArg Host.Outcome.next ?_)
    exact (if_neg (not_not.2 hrole)).trans (placeSetChange_queued hfx hq)
  case schedRefused => exact (take (exec_setschedReceive b s) hon hx).trans (congrArg Host.Outcome.next (setSchedReceive_refused hrole))
  case noTimeout =>
    rw [exec_resyncTimeout]
    refine congrArg Host.Outcome.next ?_
    unfold whilePowered
    split
    · dsimp only
      split
      next hph => exact absurd hph (h .transfer (by decide))
      next hph => exact absurd hph (h .align (by decide))
      next hph => exact absurd hph (h .settle (by decide))
      next hph => exact absurd hph (h .match_ (by decide))
      next => rfl
    · rfl
  case timeout =>
    obtain ⟨q, hq, hph⟩ := h
    refine ⟨_, run _ _ (exec_resyncTimeout s) hon, ?_⟩
    rw [show s.pair.phase = some q from hph]
    simp only [List.mem_cons, List.not_mem_nil, or_false] at hq
    rcases hq with rfl | rfl | rfl | rfl <;> exact rsFail_pair s
  case drops => rw [exec_pairLinkSync, linkSync_down hl, if_pos hp]
  case dropsAlone => rw [exec_pairLinkSync, linkSync_down hl, if_neg (by simp [hp])]
  case stays => rw [exec_pairLinkSync, linkSync_up_again hl hnet]
  case rises => rw [exec_pairLinkSync, linkSync_up hl hnet]
  case noEvidence =>
    rw [exec_evidenceWindowExpire]
    unfold whilePowered
    rw [evidence_none h, ite_self]
  case evidence => exact (run _ _ (exec_evidenceWindowExpire s) hon).trans (congrArg Host.Outcome.next (evidence_takes hrole hpend hpc hnc hlive))
  case limit =>
    unfold divLimit
    dsimp only
    rw [if_pos hz, hn]

end Sys2Proof.Machine
end
